-- ==== Sys2Proof/Word.lean ====
section
/-! DEFINITION. The word types of the model: what a register holds, one byte, and the sparse tables that hold memories and unit records. -/

namespace Sys2Proof

/-- What a register of Scetus holds; a 32-bit register has its upper half zero (R8: bit 0 is the least significant). -/
abbrev Word := BitVec 64

/-- One byte; multi-byte values are little-endian (R8). -/
abbrev Byte := BitVec 8

/-- A sparse table: (key, value) pairs with strictly rising keys. What an unlisted key reads as is said by the one
who reads it (a register's reset value, a unit record's reset record, no value for a memory byte nothing has written). -/
abbrev Tab (α : Type) := List (Nat × α)

end Sys2Proof
end

