-- ==== Sys2Proof/Syntax.lean ====
section
/-! DEFINITION. The commands of Scetus: one constructor per row of spec/opcode_table.json, with its operands. -/

namespace Sys2Proof

/-- Who makes an access (R467): a control core, the Lyolo core, the yarder, or the host on a function. -/
inductive Master where
  | cp (c : Fin 4)
  | lyolo
  | yarder
  | host (fn : Fin 64)
deriving DecidableEq, Repr

/-- The bytes of a register write: byte k is named when bit k of `be` is 1 (R565). -/
structure BusW where
  be : Nat
  data : Nat
deriving DecidableEq, Repr

/-- A STAT frame (R57) as it was received, with its CRC field (R51). -/
structure StatFrame where
  ackSeq : BitVec 8
  flags : BitVec 8
  wfault : BitVec 16
  rfault : BitVec 16
  pers : BitVec 32
  crc : BitVec 16
deriving DecidableEq, Repr

/-- One channel bit of a sector as the lane's analog stages and its detector give it: the full-rate ADC's sample (R77), the tentative decision
and the log-likelihood ratio in 2^-16 of a natural-log unit (R88, R92), the envelope and the low-frequency baseline in ADC codes (R95, R96),
and the soft words the crossbar took when this bit's own was due (R93, R94). -/
structure BitIn where
  x : BitVec 12
  dec : Bool
  llr : Int
  env : Nat
  base : Int
  take : Nat
deriving DecidableEq, Repr

/-- Trims of one ADC sub-converter: offset in 1/64 LSB, gain, skew in 0.01 ps (R79, R80). -/
structure SubTrim where
  ofs : Int
  gain : Int
  skew : Int
deriving DecidableEq, Repr

/-- What foreground calibration found of one sub-converter: its trims, and the residual offset in LSB and skew in 0.1 ps (R79). -/
structure SubCal where
  trim : SubTrim
  resOfs : Nat
  resSkew : Nat
deriving DecidableEq, Repr

/-- The channel bits of a sector outside servo gaps, its codeword's or those of a sync search that ended without a match (R90–R98), and the
moves that background calibration found for the eight sub-converters (R80). -/
structure SectorRead where
  bits : List BitIn
  moves : List SubTrim
deriving DecidableEq, Repr

/-- A wedge as the servo sampler read it (R175, R178): TID in Gray code, WIDX, and I and Q of the bursts A to D. -/
structure Wedge where
  gray : BitVec 22
  widx : BitVec 10
  onTime : Bool            -- the SAM was within ±SGW/2 of the predicted time (R176)
  bursts : List (Int × Int)
deriving DecidableEq, Repr

/-- Why a wedge was missed (R177). -/
inductive MissCause where
  | noSam
  | parity
  | index (widx : BitVec 10)
deriving DecidableEq, Repr

/-- The three shunt amplifiers or phase voltages of the motor at one conversion: ball voltages in nV (R559). -/
structure Abc where
  a : Int
  b : Int
  c : Int
deriving DecidableEq, Repr

/-- What a checker reports (R459, R466): checker, function, master, access type, address and status code; for a link or TLP error of the
endpoint, its AER bit: b for correctable bit b, 32 + b for uncorrectable bit b (R298). -/
structure Report where
  chk : Fin 256
  fn : Option (Fin 64)
  master : Nat
  access : Nat
  addr : Nat
  detail : Nat
  aer : Option (Fin 64)
  unc : Bool
deriving DecidableEq, Repr

/-- What resets the host link with PERST_N high (R568). -/
inductive LinkReset where
  | hotReset | linkDown | surprise
deriving DecidableEq, Repr

/-- Drive firmware's choice of landing granules for a command: data, host metadata, and a second area of both for merges (R131) or for the host's
side of a Compare. -/
structure LandBufs where
  buf : Nat
  md : Nat
  scr : Nat
  scrMd : Nat
deriving DecidableEq, Repr

/-- How a landing granule reads (R411): without error, with one symbol corrected, or uncorrectable. -/
inductive Ecc where
  | ok | corrected | bad
deriving DecidableEq, Repr

/-- An atomic access of a control core (RV64 A extension, R425). -/
inductive AmoOp where
  | lr | sc | swap | add | xor | and | or | min | max | minu | maxu
deriving DecidableEq, Repr


/-- Drive firmware's plan for a salvage job: the relocation entry to use, where the spare stripes lie, and the landing address of the bitmap
(R356). -/
structure SalvPlan where
  entry : Fin 64
  spareZone : Fin 64
  spareK : Nat
  bitmap : Nat
deriving DecidableEq, Repr
/-- One command per row of spec/opcode_table.json. -/
inductive Instr where
  | registerWrite (m : Master) (addr size data : Nat) (ep : Bool)
  | readClear (m : Master) (addr size : Nat)
  | geoLoad
  | geoLoadDone
  | sprFenceHeadWrite (k : Fin 2) (w : BusW)
  | sprFenceArmWrite (w : BusW)
  | exec (arm : Fin 4)
  | statReceived (arm : Fin 4) (f : StatFrame)
  | nakReceived (arm : Fin 4) (ackSeq : BitVec 8) (crc : BitVec 16)
  | rdataReceived (arm : Fin 4) (seq : BitVec 8) (addr data crc : BitVec 16)
  | ackTimeout (arm : Fin 4)
  | uplinkCodeErrors (arm : Fin 4) (n : Nat)
  | statTimeout (arm : Fin 4)
  | wkillRelease (arm : Fin 4)
  | senseStart (arm : Fin 4) (w : BusW)
  | senseDone (arm : Fin 4) (gaps : List (List (BitVec 12)))
  | preampRegAccess (arm : Fin 4) (w : BusW)
  | linkEnable (arm : Fin 4) (w : BusW)
  | linkDisable (arm : Fin 4) (w : BusW)
  | linkRetrain (arm : Fin 4) (w : BusW)
  | discUplinkIdle (arm : Fin 4)
  | discAbsent (arm : Fin 4)
  | autoRetrain (arm : Fin 4)
  | laneWake (lane : Fin 64)
  | laneWakeDone (lane : Fin 64)
  | laneReadyHold (lane : Fin 64)
  | profileLoadDone (lane : Fin 64)
  | readGate (lane : Fin 64)
  | syncFound (lane : Fin 64) (bits : List BitIn)
  | sectorReadEnd (lane : Fin 64) (r : SectorRead)
  | servoGateOpen (head : Fin 64) (pos : Int) (acks : List (BitVec 8))
  | servoGateClose (head : Fin 64) (len : Nat)
  | resyncFound (lane : Fin 64) (decs : List Bool)
  | laneCalRequest (lane : Fin 64)
  | laneCalDone (lane : Fin 64) (subs : List SubCal)
  | synTune (arm : Fin 4) (w : BusW)
  | synLocked (arm : Fin 4)
  | synLockLost (arm : Fin 4)
  | synWaitTimeout (arm : Fin 4)
  | wpProfileLoadDone (arm : Fin 4)
  | wpArmedHold (lane : Fin 64)
  | sectorFeedDone (lane : Fin 64) (ecc : List Ecc)
  | blockLate (lane : Fin 64)
  | heatSend (arm : Fin 4)
  | heatHold (arm : Fin 4)
  | writeGateOpen (lane : Fin 64) (lead : Nat)
  | sectorWriteEnd (lane : Fin 64) (gap : Nat)
  | writeOpEnd (arm : Fin 4)
  | slotGrant
  | fastDecodeStart (slot : Fin 128)
  | engineWakeDone (eng : Fin 18)
  | fastDecodeEnd (eng : Fin 16) (ecc : Ecc)
  | contextCopyDone (slot : Fin 128) (ecc : Ecc)
  | recoveryJobStart
  | recoveryJobEnd (eng : Fin 2)
  | ladderTmax (ctx : Fin 32)
  | engineSleep (eng : Fin 18)
  | decFenceWrite (w : BusW)
  | engineParityError (eng : Fin 18)
  | decBistStart (w : BusW)
  | decBistDone (pass : Bool)
  | servoWedge (head : Fin 64) (x : Wedge)
  | servoWedgeMiss (head : Fin 64) (c : MissCause)
  | servoGroupClose (arm : Fin 4) (isense : Int)
  | srvLoad (arm : Fin 4)
  | srvUnload (arm : Fin 4)
  | srvGo (arm : Fin 4) (w : BusW)
  | coefSwap (arm : Fin 4)
  | loadAcquired (arm : Fin 4)
  | loadTimeout (arm : Fin 4)
  | unloadPhaseEnd (arm : Fin 4)
  | parkTimeout (arm : Fin 4)
  | followEntry (arm : Fin 4)
  | settleTimeout (arm : Fin 4)
  | armMissTimeout (arm : Fin 4)
  | headLost (head : Fin 64)
  | maSatExpire (head : Fin 64)
  | wpermRearm (head : Fin 64)
  | vcmMismatch (arm : Fin 4)
  | shockSample (ch : Fin 5) (x : Int)
  | shockRearm
  | shockInitWindow
  | shockStuck (ch : Fin 5)
  | spmStart (vs : List Abc)
  | spmStop
  | spmPwmPeriod (adc : Abc)
  | spmSpeedLoop
  | spmLossOfSync
  | spmOffsetCalDone (adc : List Abc)
  | spmStictionEnd
  | spmAlignEnd
  | spmRampWrap
  | spmHoTimeout
  | spmRotorStill (vs : List Abc)
  | spmRetryTimeout
  | spmCatchLock (xs : List (Fin 6 × Nat))
  | spmStageFault
  | spmAutoRestart
  | spmAtSpeed
  | stgTailWrite (w : BusW)
  | sprSalvStart (w : BusW)
  | sprSalvPause (w : BusW)
  | sprSalvResume (w : BusW)
  | sprSalvAbort (w : BusW)
  | linkResetEvent (kind : LinkReset)
  | linkTrained (speed width : Fin 8) (flit : Bool)
  | flr (f : Fin 64)
  | flrReady (f : Fin 64)
  | sqTailDoorbell (f : Fin 64) (q : Fin 65) (v : BitVec 32)
  | cqHeadDoorbell (f : Fin 64) (q : Fin 65) (v : BitVec 32)
  | ccEnable (f : Fin 64) (w : BusW)
  | ccDisable (f : Fin 64) (w : BusW)
  | ccShutdown (f : Fin 64) (w : BusW)
  | intmsWrite (f : Fin 64) (w : BusW)
  | intmcWrite (f : Fin 64) (w : BusW)
  | cmbWrite (f : Fin 64) (off : BitVec 22) (bs : List (Option Byte)) (ep : Bool)
  | cmbRead (f : Fin 64) (off : BitVec 22) (n : Fin 4097)
  | bmeClear (f : Fin 64)
  | bmeSet (f : Fin 64)
  | bmeStallExpire (f : Fin 64)
  | powerStateD3hot (f : Fin 64)
  | powerStateD0 (f : Fin 64)
  | vfEnable (w : BusW)
  | vfDisable (w : BusW)
  | msixUnmask (f : Fin 64) (v : Option (Fin 2048))
  | intModeChange (f : Fin 64) (msix msi intxOff : Bool)
  | completionReceived (f : Fin 64) (tag : Nat) (bs : List Byte) (ep ur : Bool)
  | completionTimeout (f : Fin 64) (tag : Nat)
  | sqEntryFetched (f : Fin 64) (q : Fin 65)
  | chokerEntryTake
  | deckIoEn (w : BusW)
  | deckPause (w : BusW)
  | deckAdminEn (w : BusW)
  | deckFnWrite (f : Fin 64) (w : BusW)
  | chkPortGo (c : Fin 4) (w : BusW)
  | chkPortRel (c : Fin 4) (w : BusW)
  | flush (slot : Fin 4096)
  | write (slot : Fin 4096) (l : LandBufs)
  | read (slot : Fin 4096) (l : LandBufs)
  | compare (slot : Fin 4096) (l : LandBufs)
  | writeZeroes (slot : Fin 4096) (l : LandBufs)
  | verify (slot : Fin 4096) (l : LandBufs)
  | orderedWrite (slot : Fin 4096) (l : LandBufs)
  | orderedRead (slot : Fin 4096) (l : LandBufs)
  | barrier (slot : Fin 4096)
  | writeDataReceived (slot : Fin 4096)
  | completionPost (f : Fin 64) (q : Fin 65)
  | tlerExpire (slot : Fin 4096)
  | coalesceTimeout (f : Fin 64) (v : Fin 2048)
  | createIoSq (slot : Fin 4096)
  | createIoCq (slot : Fin 4096)
  | deleteIoSq (slot : Fin 4096)
  | deleteIoCq (slot : Fin 4096)
  | getLogPage (slot : Fin 4096)
  | identify (slot : Fin 4096)
  | abort (slot : Fin 4096)
  | setFeatures (slot : Fin 4096)
  | getFeatures (slot : Fin 4096)
  | asyncEventRequest (slot : Fin 4096)
  | nsCreate (slot : Fin 4096) (addr : Nat) (exts : List (Nat × Nat × Nat))
  | nsDelete (slot : Fin 4096)
  | nsAttach (slot : Fin 4096)
  | nsDetach (slot : Fin 4096)
  | formatNvm (slot : Fin 4096)
  | vmSecondaryOffline (slot : Fin 4096)
  | vmSecondaryAssign (slot : Fin 4096)
  | vmSecondaryOnline (slot : Fin 4096)
  | vmPrimaryFlex (slot : Fin 4096)
  | blazeRead (slot : Fin 4096)
  | faultStatus (slot : Fin 4096)
  | salvageStatus (slot : Fin 4096)
  | salvageCtlStart (slot : Fin 4096) (p : Option SalvPlan)
  | salvageCtlPause (slot : Fin 4096)
  | salvageCtlResume (slot : Fin 4096)
  | salvageCtlAbort (slot : Fin 4096)
  | clearLost (slot : Fin 4096)
  | fenceQuery (slot : Fin 4096)
  | fenceHead (slot : Fin 4096)
  | unfenceHead (slot : Fin 4096) (ok : Bool)
  | fenceArm (slot : Fin 4096)
  | unfenceArm (slot : Fin 4096) (ok : Bool)
  | fenceRegion (slot : Fin 4096)
  | unfenceRegion (slot : Fin 4096) (ok : Bool)
  | budgetQuery (slot : Fin 4096)
  | setBudget (slot : Fin 4096)
  | setShares (slot : Fin 4096)
  | sensorRead (slot : Fin 4096)
  | tallyScale (slot : Fin 4096)
  | tallyRead (slot : Fin 4096)
  | decisionStart (arm' : Fin 4)
  | itemDispatch (arm' : Fin 4)
  | itemEnd (arm' : Fin 4)
  | govBgWrite (w : BusW)
  | lndTrainStart (w : BusW)
  | lndTrainDone (ok : Bool) (chFail : BitVec 2) (step : BitVec 4)
  | lndFillGo (w : BusW)
  | lndFillDone
  | lndScrubStep (e : Ecc)
  | lndRmapCopy (k : Fin 32) (w : BusW)
  | lndRmapCopyDone (k : Fin 32) (ecc : List Ecc)
  | lndRmapClear (k : Fin 32) (w : BusW)
  | landingWrite (m : Master) (addr : Nat) (bs : List Byte) (poison : Bool) (evict : List Nat) (ecc : List Ecc)
  | landingRead (m : Master) (addr n : Nat) (evict : List Nat) (ecc : List Ecc)
  | mergeEvictAge (ecc : Ecc)
  | ffenceClean (c : Fin 4) (m : Master) (w : BusW)
  | ffenceInval (c : Fin 4) (m : Master) (w : BusW)
  | ffenceCleanInval (c : Fin 4) (m : Master) (w : BusW)
  | ffenceDrain (c : Fin 4) (m : Master) (w : BusW) (ecc : List Ecc)
  | ffenceCleanAll (c : Fin 4) (m : Master) (w : BusW)
  | ffenceCleanInvalAll (c : Fin 4) (m : Master) (w : BusW)
  | amoAccess (c : Fin 4) (op : AmoOp) (addr : Nat) (dbl : Bool) (x : BitVec 64) (e : Ecc)
  | yrdDoorbell (n : Fin 32)
  | yrdDescStart (n : Fin 32)
  | yrdDescEnd (n : Fin 32) (ecc : List Ecc)
  | yrdChReset (n : Fin 32) (w : BusW)
  | yrdChResume (n : Fin 32) (w : BusW)
  | tlyScaleGo (w : BusW)
  | blazePost (m : Master) (c : Fin 5) (w : BusW)
  | blazeBodyProgrammed (ok : Bool)
  | blazeMarkProgrammed (ok : Bool)
  | blazeEraseDone (ok : Bool)
  | checkerReport (rs : List Report) (fec : Nat)
  | checkerConditionFalse (chk : Fin 256)
  | fltAckWrite (w : BusW)
  | fltClrWrite (w : BusW)
  | fltFc3Clear (w : BusW)
  | fltFc3AckWrite (w : BusW)
  | fltInjArm (w : BusW)
  | fltChkLatchClear (chk : Fin 256) (w : BusW)
  | eventClaim (r : Fin 5)
  | eventPendClear (k : Fin 16) (w : BusW)
  | softwareEvent (w : BusW)
  | fwImageDownload (slot : Fin 4096)
  | fwCommitStore (slot : Fin 4096)
  | fwCommitStoreNext (slot : Fin 4096)
  | fwCommitSlotNext (slot : Fin 4096)
  | fwCommitActivate (slot : Fin 4096)
  | txnBegin (slot : Option (Fin 4096)) (w : BusW)
  | txnStage (slot : Option (Fin 4096)) (w : BusW)
  | txnCommit (slot : Option (Fin 4096)) (w : BusW)
  | txnRollback (slot : Option (Fin 4096)) (w : BusW)
  | txnQuery (slot : Option (Fin 4096)) (w : BusW)
  | commitStored (ok : Bool)
  | commitArmQuiet (arm : Fin 4)
  | cfgBlobDone (w : BusW)
  | wdtKick (w : BusW)
  | thermalSample (t : List (BitVec 16))
  | thermistorSample (n : Fin 4) (v : Int)
  | thermistorOpen (n : Fin 4)
  | monitorSample (n : Fin 6) (v amps : Int)
  | roSample (slow : List (BitVec 16))
  | wearSample (r : Fin 72) (m : Nat)
  | cfgLock (w : BusW)
  | actGo (w : BusW)
  | actDone (w : BusW)
  | fuseBurn (w : BusW)
  | fuseBurnDone (ok : Bool)
  | mctpSetEndpointId (h : Byte) (op : BitVec 2) (eid : BitVec 8)
  | mctpGetEndpointId (h : Byte)
  | mctpGetVersionSupport (h ty : Byte)
  | mctpGetMessageTypeSupport (h : Byte)
  | readNvmeMiDataStructure (h : Byte) (ty : BitVec 8) (port : BitVec 8) (ctl : BitVec 16)
  | subsystemHealthPoll (h : Byte)
  | controllerHealthPoll (h : Byte) (first : BitVec 16) (max' : BitVec 8)
  | configurationGet (h : Byte) (id port : BitVec 8)
  | configurationSet (h : Byte) (id port : BitVec 8) (v : BitVec 16)
  | vpdRead (h : Byte) (off len : BitVec 16)
  | miUnsupported (h : Byte)
  | clockSourceLost (src : Fin 6)
  | clockSourceReturned (src : Fin 6)
  | cprRetractSet (w : BusW)
  | cprRetractRel (w : BusW)
  | armDomainOn (arm : Fin 4) (w : BusW)
  | armDomainOff (arm : Fin 4) (w : BusW)
  | standbyRequest (w : BusW)
  | cprWake (w : BusW)
  | warmReset (w : BusW)
  | lyoloReset (m : Master) (w : BusW)
  | dumpPageDone (ok : Bool) (ecc : List Ecc)
  | dumpEnd (ok supplies : Bool)
  | dumpArm (w : BusW)
  | dumpRestore (w : BusW)
  | dumpRestoreDone (bad : List Nat)
  | descReadUnit
  | descReadStg
  | descWriteStg (ecc : List Ecc)
  | descWriteStripe (ecc : List Ecc)
  | stagingWaitExpire
  | stagingRoom
  | stripePassEnd
  | stripeRebuild
  | salvageBatch
  | salvageStripeJudge
  | lostRingRoom
  | cruiseVisit
  | cruiseClassify
  | cruiseRewrite
  | perstAssert
  | perstDeassert
  | aspmL1Entry
  | admitEntry
  | chokerGrant
  | txnRollbackTimeout
  | itemUrgent
  | govTick
  | govOverClear
  | govDerateUpdate
  | tallyPeriodExpire
  | tallyLatch
  | tallyHandshakeReq
  | tallyHandshakeApply
  | blazeWriteStart
  | blazeScanDone
  | wdtExpire
  | lifeRecordSave
  | bootComplete
  | actStaged
  | actTimeout
  | standbyEnter
  | standbyWake
  | aonSleepEnter
  | aonSleepExit
  | aonPowerOn (test : Bool)
  | domainsPowerUp
  | pllsLocked
  | warmResetReloadDone
  | lyoloBootDone
  | powerLossSignal
  | aonSupplyFall
deriving DecidableEq, Repr

end Sys2Proof
end

