-- ==== Sys2Proof/Decode.lean ====
section
/-! DEFINITION. Commands spelled as bits: Scetus has no instruction encoding. Its commands are accesses, events and host commands,
and spec/opcode_table.json gives none of its rows a field or a bit. -/

namespace Sys2Proof

/-- The command that the word `w` of `nbits` bits spells: none, since no row of the table gives bits (log entry 15). -/
def decodeTableWord (_nbits _w : Nat) : Option Instr := none

end Sys2Proof
end

