-- ==== Sys2Proof/Config.lean ====
section
/-! DEFINITION. The free values: what the spec leaves open has no body here, so no proof can see a value. -/

namespace Sys2Proof

/-- A fresh free value: the n-th value that the spec leaves undefined (log entry 1). No body: nothing can evaluate it. -/
opaque Config.free : Nat → Word

/-- What byte `addr` of memory `mem` reads as while nothing has written it since the memory's contents were last lost,
`era` counting those losses (log entry 2). -/
opaque Config.unwritten : (mem era addr : Nat) → Byte

/-- The identity block of the chip that the spec leaves to the part: serial numbers, VPD bytes, controller strings,
read by field number and byte (log entry 3). -/
opaque Config.partByte : Nat → Nat → Byte

/-- The value the spec leaves open at its point `k`, as a function of the operands (log entry 1): a rounding or overflow the
spec does not state, or an effect it calls undefined. -/
opaque Config.openVal : Nat → List Int → Int

end Sys2Proof
end

