-- ==== Sys2Proof/Machine/Bits.lean ====
section
/-! DEFINITION. Bit fields, signed narrowing, check words, integer square root, and the operations on sparse tables. -/

namespace Sys2Proof

/-! ### Bit fields of a number and of a word (R8) -/

/-- Bits [hi:lo] of `v`, as a number. -/
def bitsOf (v hi lo : Nat) : Nat := (v >>> lo) % 2 ^ (hi + 1 - lo)

/-- `v` with bits [hi:lo] replaced by `x`. -/
def putBits (v hi lo x : Nat) : Nat :=
  (v >>> (hi + 1)) <<< (hi + 1) + ((x % 2 ^ (hi + 1 - lo)) <<< lo) + v % 2 ^ lo

/-- Bit `i` of `v`. -/
def bitAt (v i : Nat) : Bool := v.testBit i

/-- `v` with bit `i` set to `b`. -/
def putBit (v i : Nat) (b : Bool) : Nat := putBits v i i b.toNat

/-- Two's complement reading of the low `w` bits. -/
def sext (w v : Nat) : Int :=
  let m := v % 2 ^ w
  if m < 2 ^ (w - 1) then (m : Int) else (m : Int) - (2 ^ w : Nat)

/-- The low `w` bits of an integer. -/
def lowBits (w : Nat) (x : Int) : Nat := (x % (2 ^ w : Nat)).toNat

/-- An integer kept within [-lim, lim - 1]. -/
def clampS (lim : Nat) (x : Int) : Int := max (-(lim : Int)) (min x ((lim : Int) - 1))

/-- A number kept at or below `hi`. -/
def sat (hi x : Nat) : Nat := min x hi

/-- `x / d` rounded to the nearest, halves rounded up as R81 says (log entry 7); 0 when `d` is 0. -/
def roundDiv (x : Int) (d : Nat) : Int := if d = 0 then 0 else (2 * x + d) / (2 * d : Nat)

/-- `x / d` where the spec states no rounding: the floor or, where the division is not exact, possibly one more, which the
spec leaves open at its point `k` (log entry 1). -/
def openRound (k : Nat) (x : Int) (d : Nat) : Int :=
  x / (d : Int) + (if x % (d : Int) = 0 then 0 else Config.openVal k [x, (d : Int)] % 2)

/-- The code of a sense input that converts about mid-scale, from its ball's voltage in nV (R559): the motor's shunts, the shock inputs, the VCMs'
current sense and the supply monitors' currents. -/
def senseCode (v : Int) : BitVec 12 := BitVec.ofInt 12 (clampS 2048 (openRound 559 ((v - 600000000) * 4096) 1200000000))

/-- The unsigned code of a voltage input of `scale` codes at 1.20 V: 4,096 for the motor's phases, 4,095 for the supply monitors (R559). -/
def voltCode (scale : Nat) (v : Int) : BitVec 12 := BitVec.ofNat 12 (min 4095 (openRound 559 (v * scale) 1200000000).toNat)

/-- Rounding up of `x / d`. -/
def ceilDiv (x d : Nat) : Nat := if d = 0 then 0 else (x + d - 1) / d

/-- The bits that are 1 among the low `w`. -/
def popcount (w v : Nat) : Nat := ((List.range w).filter (fun i => v.testBit i)).length

/-- The lowest set bit among the low `w`, if any. -/
def lowestBit (w v : Nat) : Option Nat := (List.range w).find? (fun i => v.testBit i)

/-- A word from a number. -/
def word (n : Nat) : Word := BitVec.ofNat 64 n

/-- A byte from a number. -/
def byte (n : Nat) : Byte := BitVec.ofNat 8 n

/-- `n` bytes of `v`, lowest first (R8). -/
def bytesOf : Nat → Nat → List Byte
  | 0, _ => []
  | n + 1, v => byte v :: bytesOf n (v / 256)

/-- The number that bytes spell, lowest first (R8). -/
def natOf : List Byte → Nat
  | [] => 0
  | b :: bs => b.toNat + 256 * natOf bs

/-- `n` bytes of a byte list from offset `o`, zero past its end, as a number. -/
def le (bs : List Byte) (o n : Nat) : Nat := natOf ((bs.drop o).take n)

/-- Integer square root by binary descent from bit `k`: the largest r with r² ≤ n, for n < 4^(k+1). -/
def isqrtFrom : Nat → Nat → Nat → Nat
  | 0, n, r => if (r + 1) * (r + 1) ≤ n then r + 1 else r
  | k + 1, n, r =>
    let r' := r + 2 ^ (k + 1)
    isqrtFrom k n (if r' * r' ≤ n then r' else r)

/-- Integer square root of a number below 2^128. -/
def isqrt (n : Nat) : Nat := isqrtFrom 63 n 0

/-! ### Check words -/

/-- One step of a reflected CRC over one byte, `poly` reflected. -/
def crcByte (poly : Nat) (c b : Nat) : Nat :=
  (List.range 8).foldl (fun c _ => if c.testBit 0 then (c >>> 1) ^^^ poly else c >>> 1) (c ^^^ b)

/-- CRC-32C, Castagnoli polynomial 0x1EDC6F41 reflected (R4, R113). -/
def crc32c (bs : List Byte) : Nat :=
  (bs.foldl (fun c b => crcByte 0x82F63B78 c b.toNat) 0xFFFFFFFF) ^^^ 0xFFFFFFFF

/-- One step of the CRC-16 of R51 over a byte. -/
def crcCcittByte (c b : Nat) : Nat :=
  (List.range 8).foldl (fun c _ => if c.testBit 15 then (c * 2 % 65536) ^^^ 0x1021 else c * 2) (c ^^^ (b * 256))

/-- The CRC-16 of R51. -/
def crcCcitt (bs : List Byte) : Nat := bs.foldl (fun c b => crcCcittByte c b.toNat) 0xFFFF

/-! ### Sparse tables -/

/-- The value listed at key `k`. -/
def Tab.get? {α : Type} : Tab α → Nat → Option α
  | [], _ => none
  | (a, v) :: t, k => if a = k then some v else Tab.get? t k

/-- The value at key `k`, `d` where none is listed. -/
def Tab.get {α : Type} (t : Tab α) (d : α) (k : Nat) : α := (Tab.get? t k).getD d

/-- `t` with `v` listed at `k`, keys kept rising. -/
def Tab.put {α : Type} : Tab α → Nat → α → Tab α
  | [], k, v => [(k, v)]
  | (a, w) :: t, k, v =>
    if k < a then (k, v) :: (a, w) :: t
    else if k = a then (k, v) :: t
    else (a, w) :: Tab.put t k v

/-- `t` without the entry at `k`. -/
def Tab.erase {α : Type} (t : Tab α) (k : Nat) : Tab α := t.filter (fun e => e.1 != k)

/-- `t` with `v` at `k`, in the one canonical form: a value equal to what an unlisted key reads as is not listed. -/
def Tab.set {α : Type} [DecidableEq α] (t : Tab α) (d : α) (k : Nat) (v : α) : Tab α :=
  if v = d then Tab.erase t k else Tab.put t k v

/-- Keys strictly above `lo` and strictly rising. -/
def Tab.risingFrom {α : Type} : Nat → Tab α → Bool
  | _, [] => true
  | lo, (a, _) :: t => decide (lo < a) && Tab.risingFrom a t

/-- The canonical form of a table: keys strictly rising. -/
def Tab.rising {α : Type} : Tab α → Bool
  | [] => true
  | (a, _) :: t => Tab.risingFrom a t

/-- `t` with the entries of keys lo ≤ k < hi removed. -/
def Tab.clear {α : Type} (t : Tab α) (lo hi : Nat) : Tab α := t.filter (fun e => e.1 < lo || hi ≤ e.1)

/-- The values listed. -/
def Tab.vals {α : Type} (t : Tab α) : List α := t.map (·.2)

/-! ### Lists -/

/-- `l` with position `i` replaced by `f` of it. -/
def modifyAt {α : Type} (f : α → α) : List α → Nat → List α
  | [], _ => []
  | a :: t, 0 => f a :: t
  | a :: t, i + 1 => a :: modifyAt f t i

/-- Fold over 0, …, n - 1 in rising order. -/
def upTo {σ : Type} (n : Nat) (f : Nat → σ → σ) (s : σ) : σ := (List.range n).foldl (fun s i => f i s) s

/-- Fold a step over a list, in order. -/
def each {α σ : Type} (l : List α) (f : α → σ → σ) (s : σ) : σ := l.foldl (fun s a => f a s) s

/-- `x` put into a list that rises by `f`, after its equals. -/
def insertBy {α : Type} (f : α → Nat) (x : α) : List α → List α
  | [] => [x]
  | y :: t => if f x < f y then x :: y :: t else y :: insertBy f x t

/-- A list in rising order of `f`, equals in their first order. -/
def sortBy {α : Type} (f : α → Nat) (l : List α) : List α := l.foldl (fun acc x => insertBy f x acc) []

/-- The first position of the least value of `f` over `l`. -/
def leastBy {α : Type} (f : α → Nat) : List α → Option α
  | [] => none
  | a :: t => match leastBy f t with
    | none => some a
    | some b => if f a ≤ f b then some a else some b

end Sys2Proof
end

