-- ==== Sys2Proof/Machine/Checkers.lean ====
section
/-! DEFINITION. The checkers of the fault collector: kind, base class and FC2 action of each (R459, R460). -/

namespace Sys2Proof

/-- The FC2 action of a checker (R460). -/
inductive ChkAction where
  | none | clk | holdWr | head (h : Nat) | arm (a : Nat) | eng (e : Nat) | resetCp | resetLy
deriving DecidableEq, Repr

/-- A listed checker: condition kind (else event kind), base class, FC2 action. -/
structure ChkInfo where
  cond : Bool
  base : Nat
  action : ChkAction
deriving DecidableEq, Repr

/-- The checker table of R460; a number not listed is reserved. Checkers 0–3 have the class of R477 with SELF = 0. -/
def chkInfo (n : Nat) : Option ChkInfo :=
  if n ≤ 3 then some ⟨false, 4, .none⟩
  else if n < 8 then none
  else if n ≤ 13 then some ⟨true, 2, .clk⟩
  else if n ≤ 19 then some ⟨true, 2, .none⟩
  else if n = 20 then some ⟨true, 2, .holdWr⟩
  else if n = 21 then some ⟨true, 4, .none⟩
  else if n ≤ 25 then some ⟨true, 1, .none⟩
  else if n < 32 then none
  else if n = 32 then some ⟨false, 1, .none⟩
  else if n ≤ 35 then some ⟨false, 0, .none⟩
  else if n = 36 then some ⟨false, 1, .none⟩
  else if n = 38 then some ⟨false, 4, .none⟩
  else if n = 39 then some ⟨false, 1, .none⟩
  else if n = 40 then some ⟨false, 3, .none⟩
  else if n = 41 then some ⟨false, 3, .none⟩
  else if n = 48 then some ⟨false, 4, .none⟩
  else if n = 49 then some ⟨false, 4, .none⟩
  else if n = 56 then some ⟨false, 2, .none⟩
  else if 57 ≤ n ∧ n ≤ 59 then some ⟨false, 1, .none⟩
  else if n = 60 then some ⟨false, 0, .none⟩
  else if n = 61 then some ⟨false, 1, .none⟩
  else if n = 62 then some ⟨false, 0, .none⟩
  else if 64 ≤ n ∧ n ≤ 127 then some ⟨false, 2, .head (n - 64)⟩
  else if 128 ≤ n ∧ n ≤ 131 then some ⟨true, 2, .arm (n - 128)⟩
  else if 132 ≤ n ∧ n ≤ 135 then some ⟨false, 2, .arm (n - 132)⟩
  else if 136 ≤ n ∧ n ≤ 139 then some ⟨false, 1, .arm (n - 136)⟩
  else if 140 ≤ n ∧ n ≤ 143 then some ⟨false, 1, .arm (n - 140)⟩
  else if 144 ≤ n ∧ n ≤ 147 then some ⟨false, 0, .none⟩
  else if 148 ≤ n ∧ n ≤ 152 then some ⟨true, 2, .none⟩
  else if 160 ≤ n ∧ n ≤ 175 then some ⟨false, 2, .eng (n - 160)⟩
  else if 176 ≤ n ∧ n ≤ 177 then some ⟨false, 2, .eng (n - 176 + 16)⟩
  else if n = 178 then some ⟨false, 1, .none⟩
  else if n = 179 then some ⟨false, 0, .none⟩
  else if 184 ≤ n ∧ n ≤ 185 then some ⟨false, 1, .none⟩
  else if n = 186 then some ⟨false, 2, .none⟩
  else if n = 187 then some ⟨false, 1, .none⟩
  else if n = 192 then some ⟨false, 1, .none⟩
  else if n = 193 then some ⟨false, 2, .none⟩
  else if n = 200 then some ⟨false, 0, .none⟩
  else if n = 208 then some ⟨false, 1, .none⟩
  else if n = 209 then some ⟨false, 2, .none⟩
  else if n = 210 then some ⟨false, 1, .none⟩
  else if 216 ≤ n ∧ n ≤ 217 then some ⟨false, 2, .resetLy⟩
  else if n = 218 then some ⟨false, 1, .none⟩
  else if n = 219 then some ⟨false, 2, .none⟩
  else if 224 ≤ n ∧ n ≤ 232 then some ⟨false, 2, .resetCp⟩
  else if n = 233 then some ⟨false, 1, .none⟩
  else if n = 234 then some ⟨false, 2, .resetCp⟩
  else if n = 235 then some ⟨false, 2, .none⟩
  else none

end Sys2Proof
end

