-- ==== Sys2Proof/Machine/RegDef.lean ====
section
/-! DEFINITION. What a register's description says: address, instances, width, reset and access masks (R9, R10, R565). -/

namespace Sys2Proof

/-- A register or an array of registers of one layout. Instance (i, j) stands at `base + i * si + j * sj`.
`rw`, `rwl`, `w1c`, `w1s`, `wo` are the bits of each access code of R9, `rc` the fields cleared by a read. -/
structure RegDef where
  base : Nat
  ni : Nat
  si : Nat
  nj : Nat
  sj : Nat
  bytes : Nat
  reset : Nat → Nat → Nat
  rw : Nat
  rwl : Nat
  w1c : Nat
  w1s : Nat
  wo : Nat
  rc : List (Nat × Nat)

/-- A named field: bits [hi:lo] of a register. -/
structure Field where
  reg : RegDef
  hi : Nat
  lo : Nat

/-- The address of instance (i, j); host-visible registers stand in key ranges of the model's own (log entry 4). -/
def RegDef.addr (r : RegDef) (i j : Nat) : Nat := r.base + i * r.si + j * r.sj

/-- The instance of `r` that holds byte address `a`, with the byte's place in it. -/
def RegDef.locate (r : RegDef) (a : Nat) : Option (Nat × Nat × Nat) :=
  if a < r.base then none
  else
    let d := a - r.base
    let i := if r.si = 0 then 0 else d / r.si
    let e := d - i * r.si
    let j := if r.sj = 0 then 0 else e / r.sj
    let b := e - j * r.sj
    if i < r.ni ∧ j < r.nj ∧ b < r.bytes then some (i, j, b) else none

/-- The reset ladder of R166. -/
def decLadderReset (k : Nat) : Nat :=
  match k with
  | 0 => 0x00000011 | 1 => 0x01000033 | 2 => 0x01000022 | 3 => 0x01000814
  | 4 => 0x0100F814 | 5 => 0x00024015 | 6 => 0x00000016 | _ => 0

/-- VFW_ID of function `f` with no vector assigned; PF0 holds 65 (R289). -/
def vfwIdReset (f : Nat) : Nat := f + if f = 0 then 65 * 0x1000 else 0

/-- FLT_CHK_n at reset: KIND and BASE of R460, ESC and EN set; a reserved number reads 0. -/
def fltChkReset (n : Nat) : Nat :=
  match chkInfo n with
  | none => 0
  | some c => c.cond.toNat * 256 + c.base * 16 + 3

end Sys2Proof
end

