-- ==== Sys2Proof/Machine/Regs.lean ====
section
/-! DEFINITION. Every register of the spec's register tables: its address, strides, width, reset value and the bits of each
access code (R9, R10), and every named field. -/

namespace Sys2Proof

/-- SPR_GEO_BASE (chapter 01). -/
def R.SPR_GEO_BASE : RegDef :=
  ⟨0x40700000, 1, 0x0, 1, 0x0, 4, fun _ _ => 0x0, 0xffffffc0, 0x0, 0x0, 0x0, 0x0, []⟩

/-- SPR_GEO_CTL (chapter 01). -/
def R.SPR_GEO_CTL : RegDef :=
  ⟨0x40700004, 1, 0x0, 1, 0x0, 4, fun _ _ => 0x0, 0x0, 0x0, 0x0, 0x0, 0x1, []⟩

/-- SPR_GEO_STAT (chapter 01). -/
def R.SPR_GEO_STAT : RegDef :=
  ⟨0x40700008, 1, 0x0, 1, 0x0, 4, fun _ _ => 0x0, 0x0, 0x0, 0x0, 0x0, 0x0, []⟩

/-- SPR_FENCE_HEAD (chapter 01). -/
def R.SPR_FENCE_HEAD : RegDef :=
  ⟨0x40700010, 2, 0x4, 1, 0x0, 4, fun _ _ => 0x0, 0xffffffff, 0x0, 0x0, 0x0, 0x0, []⟩

/-- SPR_FENCE_ARM (chapter 01). -/
def R.SPR_FENCE_ARM : RegDef :=
  ⟨0x40700018, 1, 0x0, 1, 0x0, 4, fun _ _ => 0x0, 0xf, 0x0, 0x0, 0x0, 0x0, []⟩

/-- SPR_FENCE_DRAIN (chapter 01). -/
def R.SPR_FENCE_DRAIN : RegDef :=
  ⟨0x40700020, 2, 0x4, 1, 0x0, 4, fun _ _ => 0x0, 0x0, 0x0, 0x0, 0x0, 0x0, []⟩

/-- SPR_SURF_UNREACH (chapter 01). -/
def R.SPR_SURF_UNREACH : RegDef :=
  ⟨0x40700028, 1, 0x0, 1, 0x0, 4, fun _ _ => 0x0, 0x0, 0x0, 0x0, 0x0, 0x0, []⟩

/-- SPR_RFENCE_n (chapter 01). -/
def R.SPR_RFENCE : RegDef :=
  ⟨0x40700100, 64, 0x8, 1, 0x0, 8, fun _ _ => 0x0, 0x3fffff83ffffff, 0x0, 0x0, 0x0, 0x0, []⟩

/-- LANE_ALK_CTL_n (chapter 02). -/
def R.LANE_ALK_CTL : RegDef :=
  ⟨0x40540000, 4, 0x1000, 1, 0x0, 4, fun _ _ => 0xa09, 0xff09, 0xf0, 0x0, 0x0, 0x4, []⟩

/-- LANE_ALK_STAT_n (chapter 02). -/
def R.LANE_ALK_STAT : RegDef :=
  ⟨0x40540004, 4, 0x1000, 1, 0x0, 4, fun _ _ => 0x8, 0x0, 0x0, 0x0, 0x0, 0x0, []⟩

/-- LANE_ALK_ID_n (chapter 02). -/
def R.LANE_ALK_ID : RegDef :=
  ⟨0x40540008, 4, 0x1000, 1, 0x0, 4, fun _ _ => 0x0, 0x0, 0x0, 0x0, 0x0, 0x0, []⟩

/-- LANE_ALK_PERS_n (chapter 02). -/
def R.LANE_ALK_PERS : RegDef :=
  ⟨0x4054000c, 4, 0x1000, 1, 0x0, 4, fun _ _ => 0x0, 0x0, 0x0, 0x0, 0x0, 0x0, []⟩

/-- LANE_ALK_ERR_n (chapter 02). -/
def R.LANE_ALK_ERR : RegDef :=
  ⟨0x40540010, 4, 0x1000, 1, 0x0, 4, fun _ _ => 0x0, 0x0, 0x0, 0x0, 0x0, 0x0, [(31, 24), (23, 16), (15, 8), (7, 0)]⟩

/-- LANE_ALK_REG_CMD_n (chapter 02). -/
def R.LANE_ALK_REG_CMD : RegDef :=
  ⟨0x40540014, 4, 0x1000, 1, 0x0, 4, fun _ _ => 0x0, 0x4000ffff, 0x0, 0x0, 0x80000000, 0x0, []⟩

/-- LANE_ALK_REG_DATA_n (chapter 02). -/
def R.LANE_ALK_REG_DATA : RegDef :=
  ⟨0x40540018, 4, 0x1000, 1, 0x0, 4, fun _ _ => 0x0, 0xffff, 0x0, 0x0, 0x0, 0x0, []⟩

/-- LANE_ALK_SNS_n (chapter 02). -/
def R.LANE_ALK_SNS : RegDef :=
  ⟨0x4054001c, 4, 0x1000, 1, 0x0, 4, fun _ _ => 0x0, 0x3fff0, 0x0, 0x40000000, 0x80000000, 0x0, []⟩

/-- LANE_CTL_n (chapter 03). -/
def R.LANE_CTL : RegDef :=
  ⟨0x40500000, 64, 0x1000, 1, 0x0, 4, fun _ _ => 0x110000, 0xff0003, 0x0, 0x0, 0x8, 0x0, []⟩

/-- LANE_STAT_n (chapter 03). -/
def R.LANE_STAT : RegDef :=
  ⟨0x40500004, 64, 0x1000, 1, 0x0, 4, fun _ _ => 0x0, 0x0, 0x0, 0x0, 0x0, 0x0, []⟩

/-- LANE_AFE_n (chapter 03). -/
def R.LANE_AFE : RegDef :=
  ⟨0x40500008, 64, 0x1000, 1, 0x0, 4, fun _ _ => 0x4203, 0xff0ffff, 0x0, 0x0, 0x0, 0x0, []⟩

/-- LANE_AGC_n (chapter 03). -/
def R.LANE_AGC : RegDef :=
  ⟨0x4050000c, 64, 0x1000, 1, 0x0, 4, fun _ _ => 0xa5dc200, 0x8fffffff, 0x0, 0x0, 0x0, 0x0, []⟩

/-- LANE_TGT_LO_n (chapter 03). -/
def R.LANE_TGT_LO : RegDef :=
  ⟨0x40500010, 64, 0x1000, 1, 0x0, 4, fun _ _ => 0x2000100, 0xfff0fff, 0x0, 0x0, 0x0, 0x0, []⟩

/-- LANE_TGT_MID_n (chapter 03). -/
def R.LANE_TGT_MID : RegDef :=
  ⟨0x40500014, 64, 0x1000, 1, 0x0, 4, fun _ _ => 0x100, 0xfff0fff, 0x0, 0x0, 0x0, 0x0, []⟩

/-- LANE_TGT_HI_n (chapter 03). -/
def R.LANE_TGT_HI : RegDef :=
  ⟨0x40500018, 64, 0x1000, 1, 0x0, 4, fun _ _ => 0x30000, 0x70fff, 0x0, 0x0, 0x0, 0x0, []⟩

/-- LANE_DET_n (chapter 03). -/
def R.LANE_DET : RegDef :=
  ⟨0x4050001c, 64, 0x1000, 1, 0x0, 4, fun _ _ => 0x10, 0xfff013f, 0x0, 0x0, 0x0, 0x0, []⟩

/-- LANE_FIR_CTL_n (chapter 03). -/
def R.LANE_FIR_CTL : RegDef :=
  ⟨0x40500020, 64, 0x1000, 1, 0x0, 4, fun _ _ => 0xc08, 0x31f1f, 0x0, 0x0, 0x0, 0x0, []⟩

/-- LANE_TR_n (chapter 03). -/
def R.LANE_TR : RegDef :=
  ⟨0x40500024, 64, 0x1000, 1, 0x0, 4, fun _ _ => 0x10385b, 0xffffff, 0x0, 0x0, 0x0, 0x0, []⟩

/-- LANE_TR_STAT_n (chapter 03). -/
def R.LANE_TR_STAT : RegDef :=
  ⟨0x40500028, 64, 0x1000, 1, 0x0, 4, fun _ _ => 0x0, 0x0, 0x0, 0x0, 0x0, 0x0, []⟩

/-- LANE_SYNC_PAT_n (chapter 03). -/
def R.LANE_SYNC_PAT : RegDef :=
  ⟨0x4050002c, 64, 0x1000, 1, 0x0, 4, fun _ _ => 0x0, 0xffffffff, 0x0, 0x0, 0x0, 0x0, []⟩

/-- LANE_SYNC_CTL_n (chapter 03). -/
def R.LANE_SYNC_CTL : RegDef :=
  ⟨0x40500030, 64, 0x1000, 1, 0x0, 4, fun _ _ => 0x10504018, 0xffffffff, 0x0, 0x0, 0x0, 0x0, []⟩

/-- LANE_DEF_n (chapter 03). -/
def R.LANE_DEF : RegDef :=
  ⟨0x40500034, 64, 0x1000, 1, 0x0, 4, fun _ _ => 0x20203c0, 0xfffffff, 0x0, 0x0, 0x0, 0x0, []⟩

/-- LANE_TA_n (chapter 03). -/
def R.LANE_TA : RegDef :=
  ⟨0x40500038, 64, 0x1000, 1, 0x0, 4, fun _ _ => 0x80400190, 0x80ff0fff, 0x0, 0x0, 0x0, 0x0, []⟩

/-- LANE_ERA_n (chapter 03). -/
def R.LANE_ERA : RegDef :=
  ⟨0x4050003c, 64, 0x1000, 1, 0x0, 4, fun _ _ => 0x1000, 0xffff, 0x0, 0x0, 0x0, 0x0, []⟩

/-- LANE_RES_n (chapter 03). -/
def R.LANE_RES : RegDef :=
  ⟨0x40500040, 64, 0x1000, 1, 0x0, 8, fun _ _ => 0x0, 0x0, 0x0, 0x0, 0x0, 0x0, []⟩

/-- LANE_ERR_n (chapter 03). -/
def R.LANE_ERR : RegDef :=
  ⟨0x40500048, 64, 0x1000, 1, 0x0, 4, fun _ _ => 0x0, 0x0, 0x0, 0x0, 0x0, 0x0, [(31, 24), (23, 16), (15, 8), (7, 0)]⟩

/-- LANE_ADC_n (chapter 03). -/
def R.LANE_ADC : RegDef :=
  ⟨0x4050004c, 64, 0x1000, 1, 0x0, 4, fun _ _ => 0x80000000, 0x80000000, 0x0, 0x0, 0x0, 0x0, []⟩

/-- LANE_RUN_n_k (chapter 03). -/
def R.LANE_RUN : RegDef :=
  ⟨0x40500080, 64, 0x1000, 8, 0x4, 4, fun _ _ => 0x0, 0x0, 0x0, 0x0, 0x0, 0x0, []⟩

/-- LANE_FIR_n_k (chapter 03). -/
def R.LANE_FIR : RegDef :=
  ⟨0x40500100, 64, 0x1000, 16, 0x4, 4, fun _ j => if j = 4 then 0x400 else 0, 0xfff0fff, 0x0, 0x0, 0x0, 0x0, []⟩

/-- LANE_SYN_CTL_n (chapter 03). -/
def R.LANE_SYN_CTL : RegDef :=
  ⟨0x40540100, 4, 0x1000, 1, 0x0, 4, fun _ _ => 0x80, 0xbf, 0x0, 0x0, 0x40, 0x0, []⟩

/-- LANE_SYN_STAT_n (chapter 03). -/
def R.LANE_SYN_STAT : RegDef :=
  ⟨0x40540104, 4, 0x1000, 1, 0x0, 4, fun _ _ => 0x0, 0x0, 0x0, 0x0, 0x0, 0x0, []⟩

/-- LANE_SYN_FRAC_n (chapter 03). -/
def R.LANE_SYN_FRAC : RegDef :=
  ⟨0x40540108, 4, 0x1000, 1, 0x0, 4, fun _ _ => 0x0, 0x0, 0x0, 0x0, 0x0, 0x0, []⟩

/-- LANE_PROF_BASE (chapter 03). -/
def R.LANE_PROF_BASE : RegDef :=
  ⟨0x40548000, 1, 0x0, 1, 0x0, 4, fun _ _ => 0x0, 0xfffff000, 0x0, 0x0, 0x0, 0x0, []⟩

/-- WP_CTL_n (chapter 04). -/
def R.WP_CTL : RegDef :=
  ⟨0x40500200, 64, 0x1000, 1, 0x0, 4, fun _ _ => 0x407, 0x3f07, 0x0, 0x0, 0x0, 0x0, []⟩

/-- WP_STAT_n (chapter 04). -/
def R.WP_STAT : RegDef :=
  ⟨0x40500204, 64, 0x1000, 1, 0x0, 4, fun _ _ => 0x0, 0x0, 0x0, 0x0, 0x0, 0x0, []⟩

/-- WP_FMT_n (chapter 04). -/
def R.WP_FMT : RegDef :=
  ⟨0x40500208, 64, 0x1000, 1, 0x0, 4, fun _ _ => 0x2862d304, 0xffffffff, 0x0, 0x0, 0x0, 0x0, []⟩

/-- WP_SYNC_PAT_n (chapter 04). -/
def R.WP_SYNC_PAT : RegDef :=
  ⟨0x4050020c, 64, 0x1000, 1, 0x0, 4, fun _ _ => 0x0, 0xffffffff, 0x0, 0x0, 0x0, 0x0, []⟩

/-- WP_PC_n (chapter 04). -/
def R.WP_PC : RegDef :=
  ⟨0x40500210, 64, 0x1000, 1, 0x0, 4, fun _ _ => 0x0, 0xffffffff, 0x0, 0x0, 0x0, 0x0, []⟩

/-- WP_HEAT_n (chapter 04). -/
def R.WP_HEAT : RegDef :=
  ⟨0x40500214, 64, 0x1000, 1, 0x0, 4, fun _ _ => 0x640000, 0xfffffff, 0x0, 0x0, 0x0, 0x0, []⟩

/-- WP_RES_n (chapter 04). -/
def R.WP_RES : RegDef :=
  ⟨0x40500218, 64, 0x1000, 1, 0x0, 8, fun _ _ => 0x0, 0x0, 0x0, 0x0, 0x0, 0x0, []⟩

/-- WP_ERR_n (chapter 04). -/
def R.WP_ERR : RegDef :=
  ⟨0x40500220, 64, 0x1000, 1, 0x0, 4, fun _ _ => 0x0, 0x0, 0x0, 0x0, 0x0, 0x0, [(31, 24), (23, 16), (15, 8), (7, 0)]⟩

/-- WP_PROF_BASE (chapter 04). -/
def R.WP_PROF_BASE : RegDef :=
  ⟨0x40548004, 1, 0x0, 1, 0x0, 4, fun _ _ => 0x0, 0xfffff000, 0x0, 0x0, 0x0, 0x0, []⟩

/-- SPR_WGEN (chapter 04). -/
def R.SPR_WGEN : RegDef :=
  ⟨0x40700030, 1, 0x0, 1, 0x0, 8, fun _ _ => 0x0, 0xffffffffff, 0x0, 0x0, 0x0, 0x0, []⟩

/-- DEC_ITER (chapter 05). -/
def R.DEC_ITER : RegDef :=
  ⟨0x40600000, 1, 0x0, 1, 0x0, 4, fun _ _ => 0x8100410, 0xffff3f3f, 0x0, 0x0, 0x0, 0x0, []⟩

/-- DEC_ALG (chapter 05). -/
def R.DEC_ALG : RegDef :=
  ⟨0x40600004, 1, 0x0, 1, 0x0, 4, fun _ _ => 0x1400c, 0x17f1f, 0x0, 0x0, 0x0, 0x0, []⟩

/-- DEC_PWR (chapter 05). -/
def R.DEC_PWR : RegDef :=
  ⟨0x40600008, 1, 0x0, 1, 0x0, 4, fun _ _ => 0x80210, 0xff031f, 0x0, 0x0, 0x0, 0x0, []⟩

/-- DEC_FENCE (chapter 05). -/
def R.DEC_FENCE : RegDef :=
  ⟨0x4060000c, 1, 0x0, 1, 0x0, 4, fun _ _ => 0x0, 0x3ffff, 0x0, 0x0, 0x0, 0x0, []⟩

/-- DEC_STAT (chapter 05). -/
def R.DEC_STAT : RegDef :=
  ⟨0x40600010, 1, 0x0, 1, 0x0, 4, fun _ _ => 0x808010, 0x0, 0x0, 0x0, 0x0, 0x0, []⟩

/-- DEC_AWAKE (chapter 05). -/
def R.DEC_AWAKE : RegDef :=
  ⟨0x40600014, 1, 0x0, 1, 0x0, 4, fun _ _ => 0x0, 0x0, 0x0, 0x0, 0x0, 0x0, []⟩

/-- DEC_LADDER_CTL (chapter 05). -/
def R.DEC_LADDER_CTL : RegDef :=
  ⟨0x40600020, 1, 0x0, 1, 0x0, 4, fun _ _ => 0x105dc, 0x1fffff, 0x0, 0x0, 0x0, 0x0, []⟩

/-- DEC_BIST (chapter 05). -/
def R.DEC_BIST : RegDef :=
  ⟨0x40600030, 1, 0x0, 1, 0x0, 4, fun _ _ => 0x0, 0x1f, 0x0, 0x40000000, 0x80000000, 0x0, []⟩

/-- DEC_LADDER_k (chapter 05). -/
def R.DEC_LADDER : RegDef :=
  ⟨0x40600040, 16, 0x4, 1, 0x0, 4, fun i _ => decLadderReset i, 0x1ffffff, 0x0, 0x0, 0x0, 0x0, []⟩

/-- DEC_RES (chapter 05). -/
def R.DEC_RES : RegDef :=
  ⟨0x40600080, 1, 0x0, 1, 0x0, 8, fun _ _ => 0x0, 0x0, 0x0, 0x0, 0x0, 0x0, []⟩

/-- DEC_CNT_OK (chapter 05). -/
def R.DEC_CNT_OK : RegDef :=
  ⟨0x40600088, 1, 0x0, 1, 0x0, 8, fun _ _ => 0x0, 0x0, 0x0, 0x0, 0x0, 0x0, []⟩

/-- DEC_CNT_LAD (chapter 05). -/
def R.DEC_CNT_LAD : RegDef :=
  ⟨0x40600090, 1, 0x0, 1, 0x0, 8, fun _ _ => 0x0, 0x0, 0x0, 0x0, 0x0, 0x0, []⟩

/-- DEC_CNT_UNC (chapter 05). -/
def R.DEC_CNT_UNC : RegDef :=
  ⟨0x40600098, 1, 0x0, 1, 0x0, 8, fun _ _ => 0x0, 0x0, 0x0, 0x0, 0x0, 0x0, []⟩

/-- DEC_ERR (chapter 05). -/
def R.DEC_ERR : RegDef :=
  ⟨0x406000a0, 1, 0x0, 1, 0x0, 4, fun _ _ => 0x0, 0x0, 0x0, 0x0, 0x0, 0x0, [(31, 24), (23, 16), (15, 8), (7, 0)]⟩

/-- DEC_STEP_OK_k (chapter 05). -/
def R.DEC_STEP_OK : RegDef :=
  ⟨0x406000c0, 16, 0x4, 1, 0x0, 4, fun _ _ => 0x0, 0x0, 0x0, 0x0, 0x0, 0x0, [(31, 0)]⟩

/-- SRV_CTL_n (chapter 06). -/
def R.SRV_CTL : RegDef :=
  ⟨0x40800000, 4, 0x40000, 1, 0x0, 4, fun _ _ => 0x0, 0x60, 0x0, 0x0, 0x98, 0x0, []⟩

/-- SRV_MODE_n (chapter 06). -/
def R.SRV_MODE : RegDef :=
  ⟨0x40800004, 4, 0x40000, 1, 0x0, 4, fun _ _ => 0x0, 0x0, 0x0, 0xe00, 0x0, 0x0, []⟩

/-- SRV_TARGET_n (chapter 06). -/
def R.SRV_TARGET : RegDef :=
  ⟨0x40800008, 4, 0x40000, 1, 0x0, 4, fun _ _ => 0x0, 0x3fffff, 0x0, 0x0, 0x80000000, 0x0, []⟩

/-- SRV_SEEK_n (chapter 06). -/
def R.SRV_SEEK : RegDef :=
  ⟨0x4080000c, 4, 0x40000, 1, 0x0, 4, fun _ _ => 0x10004004, 0xffffffff, 0x0, 0x0, 0x0, 0x0, []⟩

/-- SRV_SETTLE_n (chapter 06). -/
def R.SRV_SETTLE : RegDef :=
  ⟨0x40800010, 4, 0x40000, 1, 0x0, 4, fun _ _ => 0x40144340, 0xffffffff, 0x0, 0x0, 0x0, 0x0, []⟩

/-- SRV_UNLOAD_n (chapter 06). -/
def R.SRV_UNLOAD : RegDef :=
  ⟨0x40800014, 4, 0x40000, 1, 0x0, 4, fun _ _ => 0x814643c, 0xffffffff, 0x0, 0x0, 0x0, 0x0, []⟩

/-- SRV_PARK_n (chapter 06). -/
def R.SRV_PARK : RegDef :=
  ⟨0x40800018, 4, 0x40000, 1, 0x0, 4, fun _ _ => 0xfc00f400, 0xffffffff, 0x0, 0x0, 0x0, 0x0, []⟩

/-- SRV_VCM_n (chapter 06). -/
def R.SRV_VCM : RegDef :=
  ⟨0x4080001c, 4, 0x40000, 1, 0x0, 4, fun _ _ => 0x0, 0x0, 0x0, 0x0, 0x0, 0x0, []⟩

/-- SRV_WPERM_n (chapter 06). -/
def R.SRV_WPERM : RegDef :=
  ⟨0x40800020, 4, 0x40000, 1, 0x0, 4, fun _ _ => 0x0, 0x0, 0x0, 0x0, 0x0, 0x0, []⟩

/-- SRV_WCNT_n (chapter 06). -/
def R.SRV_WCNT : RegDef :=
  ⟨0x40800024, 4, 0x40000, 1, 0x0, 4, fun _ _ => 0x0, 0x0, 0x0, 0x0, 0x0, 0x0, []⟩

/-- SRV_ERR_n (chapter 06). -/
def R.SRV_ERR : RegDef :=
  ⟨0x40800028, 4, 0x40000, 1, 0x0, 4, fun _ _ => 0x0, 0x0, 0x0, 0x0, 0x0, 0x0, [(31, 24), (23, 16), (15, 8), (7, 0)]⟩

/-- SRV_TRK_n (chapter 06). -/
def R.SRV_TRK : RegDef :=
  ⟨0x4080002c, 4, 0x40000, 1, 0x0, 4, fun _ _ => 0x40440820, 0xfffffff0, 0x0, 0x0, 0x0, 0x0, []⟩

/-- SRV_LOAD_n (chapter 06). -/
def R.SRV_LOAD : RegDef :=
  ⟨0x40800030, 4, 0x40000, 1, 0x0, 4, fun _ _ => 0xc000864, 0xffff1fff, 0x0, 0x0, 0x0, 0x0, []⟩

/-- SRV_COEF_n_m (chapter 06). -/
def R.SRV_COEF : RegDef :=
  ⟨0x40800080, 4, 0x40000, 32, 0x4, 4, fun _ _ => 0x0, 0xffff, 0x0, 0x0, 0x0, 0x0, []⟩

/-- SRV_HCFG_n_s (chapter 06). -/
def R.SRV_HCFG : RegDef :=
  ⟨0x40800100, 4, 0x40000, 16, 0x8, 4, fun _ _ => 0x1a000200, 0xffff0fff, 0x0, 0x0, 0x0, 0x0, []⟩

/-- SRV_HST_n_s (chapter 06). -/
def R.SRV_HST : RegDef :=
  ⟨0x40800104, 4, 0x40000, 16, 0x8, 4, fun _ _ => 0x0, 0x0, 0x0, 0x0, 0x0, 0x0, []⟩

/-- SRV_SEEKTAB_n_k (chapter 06). -/
def R.SRV_SEEKTAB : RegDef :=
  ⟨0x40800200, 4, 0x40000, 22, 0x4, 4, fun _ _ => 0x0, 0xffffffff, 0x0, 0x0, 0x0, 0x0, []⟩

/-- SRV_FMT (chapter 06). -/
def R.SRV_FMT : RegDef :=
  ⟨0x4083f000, 1, 0x0, 1, 0x0, 4, fun _ _ => 0xe100c04, 0x0, 0xffffff1f, 0x0, 0x0, 0x0, []⟩

/-- SRV_SAM (chapter 06). -/
def R.SRV_SAM : RegDef :=
  ⟨0x4083f004, 1, 0x0, 1, 0x0, 4, fun _ _ => 0x0, 0x0, 0xffff, 0x0, 0x0, 0x0, []⟩

/-- SRV_RRO_BASE (chapter 06). -/
def R.SRV_RRO_BASE : RegDef :=
  ⟨0x4083f008, 1, 0x0, 1, 0x0, 4, fun _ _ => 0x0, 0xffff0000, 0x0, 0x0, 0x0, 0x0, []⟩

/-- SRV_WEDGES (chapter 06). -/
def R.SRV_WEDGES : RegDef :=
  ⟨0x4083f00c, 1, 0x0, 1, 0x0, 4, fun _ _ => 0x0, 0x0, 0x3ff, 0x0, 0x0, 0x0, []⟩

/-- SRV_THETA (chapter 06). -/
def R.SRV_THETA : RegDef :=
  ⟨0x4083f010, 1, 0x0, 1, 0x0, 8, fun _ _ => 0x0, 0x0, 0x0, 0x0, 0x0, 0x0, []⟩

/-- SRV_SHK_CTL (chapter 06). -/
def R.SRV_SHK_CTL : RegDef :=
  ⟨0x4083f020, 1, 0x0, 1, 0x0, 4, fun _ _ => 0x3c022a5f, 0xffffffdf, 0x0, 0x0, 0x0, 0x0, []⟩

/-- SRV_SHK_STAT (chapter 06). -/
def R.SRV_SHK_STAT : RegDef :=
  ⟨0x4083f024, 1, 0x0, 1, 0x0, 4, fun _ _ => 0x100, 0x0, 0x0, 0x0, 0x0, 0x0, []⟩

/-- SRV_SHK_THR_c (chapter 06). -/
def R.SRV_SHK_THR : RegDef :=
  ⟨0x4083f040, 5, 0x4, 1, 0x0, 4, fun _ _ => 0x6412c, 0xffffff, 0x0, 0x0, 0x0, 0x0, []⟩

/-- SRV_SHK_BASE_c (chapter 06). -/
def R.SRV_SHK_BASE : RegDef :=
  ⟨0x4083f060, 5, 0x4, 1, 0x0, 4, fun _ _ => 0x0, 0x0, 0x0, 0x0, 0x0, 0x0, [(31, 16)]⟩

/-- SPM_CTL (chapter 07). -/
def R.SPM_CTL : RegDef :=
  ⟨0x40900000, 1, 0x0, 1, 0x0, 4, fun _ _ => 0x4, 0x4, 0x0, 0x0, 0x3, 0x0, []⟩

/-- SPM_STAT (chapter 07). -/
def R.SPM_STAT : RegDef :=
  ⟨0x40900004, 1, 0x0, 1, 0x0, 4, fun _ _ => 0x0, 0x0, 0x0, 0x0, 0x0, 0x0, [(19, 19), (18, 18), (17, 17)]⟩

/-- SPM_SPEED (chapter 07). -/
def R.SPM_SPEED : RegDef :=
  ⟨0x40900008, 1, 0x0, 1, 0x0, 4, fun _ _ => 0x321c20, 0xffc000, 0x3fff, 0x0, 0x0, 0x0, []⟩

/-- SPM_MEAS (chapter 07). -/
def R.SPM_MEAS : RegDef :=
  ⟨0x4090000c, 1, 0x0, 1, 0x0, 4, fun _ _ => 0x0, 0x0, 0x0, 0x0, 0x0, 0x0, []⟩

/-- SPM_PWM (chapter 07). -/
def R.SPM_PWM : RegDef :=
  ⟨0x40900010, 1, 0x0, 1, 0x0, 4, fun _ _ => 0x503e80, 0x0, 0xffffff, 0x0, 0x0, 0x0, []⟩

/-- SPM_MOTOR (chapter 07). -/
def R.SPM_MOTOR : RegDef :=
  ⟨0x40900014, 1, 0x0, 1, 0x0, 4, fun _ _ => 0x607d05dc, 0x0, 0xffffffff, 0x0, 0x0, 0x0, []⟩

/-- SPM_OBS (chapter 07). -/
def R.SPM_OBS : RegDef :=
  ⟨0x40900018, 1, 0x0, 1, 0x0, 4, fun _ _ => 0x4a0028, 0xff0fff, 0x0, 0x0, 0x0, 0x0, []⟩

/-- SPM_START (chapter 07). -/
def R.SPM_START : RegDef :=
  ⟨0x40900020, 1, 0x0, 1, 0x0, 4, fun _ _ => 0x33330000, 0xffffffff, 0x0, 0x0, 0x0, 0x0, []⟩

/-- SPM_ALIGN (chapter 07). -/
def R.SPM_ALIGN : RegDef :=
  ⟨0x40900024, 1, 0x0, 1, 0x0, 4, fun _ _ => 0x12c0258, 0xfff0fff, 0x0, 0x0, 0x0, 0x0, []⟩

/-- SPM_RAMP (chapter 07). -/
def R.SPM_RAMP : RegDef :=
  ⟨0x40900028, 1, 0x0, 1, 0x0, 8, fun _ _ => 0xc8050028000320, 0xffffffffff000fff, 0x0, 0x0, 0x0, 0x0, []⟩

/-- SPM_HO (chapter 07). -/
def R.SPM_HO : RegDef :=
  ⟨0x40900030, 1, 0x0, 1, 0x0, 4, fun _ _ => 0x7d220e39, 0xffffffff, 0x0, 0x0, 0x0, 0x0, []⟩

/-- SPM_STICK (chapter 07). -/
def R.SPM_STICK : RegDef :=
  ⟨0x40900034, 1, 0x0, 1, 0x0, 4, fun _ _ => 0x61400578, 0xfff00fff, 0x0, 0x0, 0x0, 0x0, []⟩

/-- SPM_ILOOP (chapter 07). -/
def R.SPM_ILOOP : RegDef :=
  ⟨0x40900038, 1, 0x0, 1, 0x0, 4, fun _ _ => 0x1000800, 0xffffffff, 0x0, 0x0, 0x0, 0x0, []⟩

/-- SPM_SLOOP (chapter 07). -/
def R.SPM_SLOOP : RegDef :=
  ⟨0x4090003c, 1, 0x0, 1, 0x0, 4, fun _ _ => 0x400400, 0xffffffff, 0x0, 0x0, 0x0, 0x0, []⟩

/-- SPM_ILIM (chapter 07). -/
def R.SPM_ILIM : RegDef :=
  ⟨0x40900040, 1, 0x0, 1, 0x0, 8, fun _ _ => 0x76c2581f4320640, 0xfffffffffffffff, 0x0, 0x0, 0x0, 0x0, []⟩

/-- SPM_GEN (chapter 07). -/
def R.SPM_GEN : RegDef :=
  ⟨0x40900048, 1, 0x0, 1, 0x0, 4, fun _ _ => 0xaf0005dc, 0xfff03fff, 0x0, 0x0, 0x0, 0x0, []⟩

/-- SPM_VSNS (chapter 07). -/
def R.SPM_VSNS : RegDef :=
  ⟨0x4090004c, 1, 0x0, 1, 0x0, 4, fun _ _ => 0x3c00c, 0xffffff, 0x0, 0x0, 0x0, 0x0, []⟩

/-- SPM_ISAMP (chapter 07). -/
def R.SPM_ISAMP : RegDef :=
  ⟨0x40900050, 1, 0x0, 1, 0x0, 8, fun _ _ => 0x0, 0x0, 0x0, 0x0, 0x0, 0x0, []⟩

/-- SPM_ANGLE (chapter 07). -/
def R.SPM_ANGLE : RegDef :=
  ⟨0x40900058, 1, 0x0, 1, 0x0, 8, fun _ _ => 0x0, 0x0, 0x0, 0x0, 0x0, 0x0, []⟩

/-- SPM_PWR (chapter 07). -/
def R.SPM_PWR : RegDef :=
  ⟨0x40900060, 1, 0x0, 1, 0x0, 4, fun _ _ => 0x0, 0x0, 0x0, 0x0, 0x0, 0x0, []⟩

/-- SPM_ERR (chapter 07). -/
def R.SPM_ERR : RegDef :=
  ⟨0x40900064, 1, 0x0, 1, 0x0, 4, fun _ _ => 0x0, 0x0, 0x0, 0x0, 0x0, 0x0, [(31, 24), (23, 16), (15, 8), (7, 0)]⟩

/-- SPR_CTL (chapter 08). -/
def R.SPR_CTL : RegDef :=
  ⟨0x40700040, 1, 0x0, 1, 0x0, 4, fun _ _ => 0x1402, 0xff03, 0x0, 0x0, 0x0, 0x0, []⟩

/-- SPR_NS_BASE (chapter 08). -/
def R.SPR_NS_BASE : RegDef :=
  ⟨0x40700044, 1, 0x0, 1, 0x0, 4, fun _ _ => 0x0, 0xffffffe0, 0x0, 0x0, 0x0, 0x0, []⟩

/-- SPR_RELOC_BASE (chapter 08). -/
def R.SPR_RELOC_BASE : RegDef :=
  ⟨0x40700048, 1, 0x0, 1, 0x0, 4, fun _ _ => 0x0, 0xffffffe0, 0x0, 0x0, 0x0, 0x0, []⟩

/-- SPR_RELOC_CNT (chapter 08). -/
def R.SPR_RELOC_CNT : RegDef :=
  ⟨0x4070004c, 1, 0x0, 1, 0x0, 4, fun _ _ => 0x0, 0x7f, 0x0, 0x0, 0x0, 0x0, []⟩

/-- SPR_STG_HEAD (chapter 08). -/
def R.SPR_STG_HEAD : RegDef :=
  ⟨0x40700050, 1, 0x0, 1, 0x0, 8, fun _ _ => 0x0, 0xffffffffffffffff, 0x0, 0x0, 0x0, 0x0, []⟩

/-- SPR_STG_TAIL (chapter 08). -/
def R.SPR_STG_TAIL : RegDef :=
  ⟨0x40700058, 1, 0x0, 1, 0x0, 8, fun _ _ => 0x0, 0xffffffffffffffff, 0x0, 0x0, 0x0, 0x0, []⟩

/-- SPR_STG_STAT (chapter 08). -/
def R.SPR_STG_STAT : RegDef :=
  ⟨0x40700060, 1, 0x0, 1, 0x0, 4, fun _ _ => 0x0, 0x0, 0x0, 0x0, 0x0, 0x0, []⟩

/-- SPR_STG_TGEN (chapter 08). -/
def R.SPR_STG_TGEN : RegDef :=
  ⟨0x40700068, 1, 0x0, 1, 0x0, 8, fun _ _ => 0x0, 0xffffffffff, 0x0, 0x0, 0x0, 0x0, []⟩

/-- SPR_STG_SIZE (chapter 08). -/
def R.SPR_STG_SIZE : RegDef :=
  ⟨0x40700070, 1, 0x0, 1, 0x0, 8, fun _ _ => 0x0, 0x0, 0x0, 0x0, 0x0, 0x0, []⟩

/-- SPR_SALV_CTL (chapter 08). -/
def R.SPR_SALV_CTL : RegDef :=
  ⟨0x40700080, 1, 0x0, 1, 0x0, 4, fun _ _ => 0x1000040, 0xfff007f, 0x0, 0x0, 0xf0000000, 0x0, []⟩

/-- SPR_SALV_STAT (chapter 08). -/
def R.SPR_SALV_STAT : RegDef :=
  ⟨0x40700084, 1, 0x0, 1, 0x0, 4, fun _ _ => 0x0, 0x0, 0x0, 0x0, 0x0, 0x0, []⟩

/-- SPR_SALV_POS (chapter 08). -/
def R.SPR_SALV_POS : RegDef :=
  ⟨0x40700088, 1, 0x0, 1, 0x0, 8, fun _ _ => 0x0, 0x0, 0x0, 0x0, 0x0, 0x0, []⟩

/-- SPR_SALV_CNT (chapter 08). -/
def R.SPR_SALV_CNT : RegDef :=
  ⟨0x40700090, 1, 0x0, 1, 0x0, 8, fun _ _ => 0x0, 0x0, 0x0, 0x0, 0x0, 0x0, []⟩

/-- SPR_LOST_BASE (chapter 08). -/
def R.SPR_LOST_BASE : RegDef :=
  ⟨0x40700098, 1, 0x0, 1, 0x0, 8, fun _ _ => 0x0, 0xffffffffc0, 0x0, 0x0, 0x0, 0x0, []⟩

/-- SPR_LOST_PTR (chapter 08). -/
def R.SPR_LOST_PTR : RegDef :=
  ⟨0x407000a0, 1, 0x0, 1, 0x0, 4, fun _ _ => 0x0, 0xfff0000, 0x0, 0x0, 0x0, 0x0, []⟩

/-- SPR_CRUISE_CTL (chapter 08). -/
def R.SPR_CRUISE_CTL : RegDef :=
  ⟨0x407000b0, 1, 0x0, 1, 0x0, 4, fun _ _ => 0x402000, 0x80fff000, 0x0, 0x0, 0x0, 0x0, []⟩

/-- SPR_CRUISE_PER (chapter 08). -/
def R.SPR_CRUISE_PER : RegDef :=
  ⟨0x407000b4, 1, 0x0, 1, 0x0, 4, fun _ _ => 0x150, 0xffff, 0x0, 0x0, 0x0, 0x0, []⟩

/-- SPR_CRUISE_POS (chapter 08). -/
def R.SPR_CRUISE_POS : RegDef :=
  ⟨0x407000b8, 1, 0x0, 1, 0x0, 8, fun _ _ => 0x0, 0xffffffffffffffff, 0x0, 0x0, 0x0, 0x0, []⟩

/-- SPR_CRUISE_CNT (chapter 08). -/
def R.SPR_CRUISE_CNT : RegDef :=
  ⟨0x407000c0, 1, 0x0, 1, 0x0, 8, fun _ _ => 0x0, 0x0, 0x0, 0x0, 0x0, 0x0, [(63, 48), (47, 32), (31, 16), (15, 0)]⟩

/-- SPR_ERR (chapter 08). -/
def R.SPR_ERR : RegDef :=
  ⟨0x407000d0, 1, 0x0, 1, 0x0, 4, fun _ _ => 0x0, 0x0, 0x0, 0x0, 0x0, 0x0, [(31, 24), (23, 16), (15, 8), (7, 0)]⟩

/-- SPR_RING_BASE (chapter 08). -/
def R.SPR_RING_BASE : RegDef :=
  ⟨0x407000e0, 1, 0x0, 1, 0x0, 4, fun _ _ => 0x0, 0xffffffc0, 0x0, 0x0, 0x0, 0x0, []⟩

/-- SPR_RING_CTL (chapter 08). -/
def R.SPR_RING_CTL : RegDef :=
  ⟨0x407000e4, 1, 0x0, 1, 0x0, 4, fun _ _ => 0x4, 0xf, 0x0, 0x0, 0x0, 0x0, []⟩

/-- SPR_RING_DB (chapter 08). -/
def R.SPR_RING_DB : RegDef :=
  ⟨0x407000e8, 1, 0x0, 1, 0x0, 4, fun _ _ => 0x0, 0x0, 0x0, 0x0, 0x0, 0xffffffff, []⟩

/-- VFW_ID (chapter 09). -/
def R.VFW_ID : RegDef :=
  ⟨0x200008000, 64, 0x10000, 1, 0x0, 4, fun i _ => vfwIdReset i, 0x0, 0x0, 0x0, 0x0, 0x0, []⟩

/-- VFW_STAT (chapter 09). -/
def R.VFW_STAT : RegDef :=
  ⟨0x200008004, 64, 0x10000, 1, 0x0, 4, fun _ _ => 0x0, 0x0, 0x0, 0x0, 0x0, 0x0, []⟩

/-- VFW_TIME (chapter 09). -/
def R.VFW_TIME : RegDef :=
  ⟨0x200008008, 64, 0x10000, 1, 0x0, 8, fun _ _ => 0x0, 0x0, 0x0, 0x0, 0x0, 0x0, []⟩

/-- HIF_LINK_CAP (chapter 09). -/
def R.HIF_LINK_CAP : RegDef :=
  ⟨0x40000000, 1, 0x0, 1, 0x0, 4, fun _ _ => 0x46, 0x0, 0x17f, 0x0, 0x0, 0x0, []⟩

/-- HIF_LINK_STAT (chapter 09). -/
def R.HIF_LINK_STAT : RegDef :=
  ⟨0x40000004, 1, 0x0, 1, 0x0, 4, fun _ _ => 0x0, 0x0, 0x0, 0x0, 0x0, 0x0, []⟩

/-- HIF_LINK_CTL (chapter 09). -/
def R.HIF_LINK_CTL : RegDef :=
  ⟨0x40000008, 1, 0x0, 1, 0x0, 4, fun _ _ => 0x10, 0xffff, 0x0, 0x0, 0x0, 0x0, []⟩

/-- HIF_ID (chapter 09). -/
def R.HIF_ID : RegDef :=
  ⟨0x4000000c, 1, 0x0, 1, 0x0, 4, fun _ _ => 0x0, 0x0, 0xffffffff, 0x0, 0x0, 0x0, []⟩

/-- HIF_BME_LIMIT (chapter 09). -/
def R.HIF_BME_LIMIT : RegDef :=
  ⟨0x40000010, 1, 0x0, 1, 0x0, 4, fun _ _ => 0x64, 0xffff, 0x0, 0x0, 0x0, 0x0, []⟩

/-- HIF_VF_CMBAP (chapter 09). -/
def R.HIF_VF_CMBAP : RegDef :=
  ⟨0x40000014, 1, 0x0, 1, 0x0, 4, fun _ _ => 0x0, 0x0, 0x7, 0x0, 0x0, 0x0, []⟩

/-- HIF_STALL (chapter 09). -/
def R.HIF_STALL : RegDef :=
  ⟨0x40000018, 1, 0x0, 1, 0x0, 8, fun _ _ => 0x0, 0x0, 0x0, 0x0, 0x0, 0x0, []⟩

/-- HIF_FATAL (chapter 09). -/
def R.HIF_FATAL : RegDef :=
  ⟨0x40000020, 1, 0x0, 1, 0x0, 8, fun _ _ => 0x0, 0x0, 0x0, 0x0, 0x0, 0x0, []⟩

/-- HIF_LINK_ERR (chapter 09). -/
def R.HIF_LINK_ERR : RegDef :=
  ⟨0x40000028, 1, 0x0, 1, 0x0, 4, fun _ _ => 0x0, 0x0, 0x0, 0x0, 0x0, 0x0, [(31, 24), (23, 16), (15, 8), (7, 0)]⟩

/-- HIF_POISON (chapter 09). -/
def R.HIF_POISON : RegDef :=
  ⟨0x4000002c, 1, 0x0, 1, 0x0, 4, fun _ _ => 0x0, 0x0, 0x0, 0x0, 0x0, 0x0, [(31, 16), (15, 0)]⟩

/-- DECK_CTL (chapter 10). -/
def R.DECK_CTL : RegDef :=
  ⟨0x40100000, 1, 0x0, 1, 0x0, 4, fun _ _ => 0x0, 0x7, 0x0, 0x0, 0x0, 0x0, []⟩

/-- DECK_STAT (chapter 10). -/
def R.DECK_STAT : RegDef :=
  ⟨0x40100004, 1, 0x0, 1, 0x0, 4, fun _ _ => 0x100007ff, 0x0, 0x0, 0x60000000, 0x0, 0x0, []⟩

/-- DECK_CMB (chapter 10). -/
def R.DECK_CMB : RegDef :=
  ⟨0x40100008, 1, 0x0, 1, 0x0, 4, fun _ _ => 0x3808, 0x0, 0x7f, 0x0, 0x0, 0x0, []⟩

/-- DECK_ORPH_CNT (chapter 10). -/
def R.DECK_ORPH_CNT : RegDef :=
  ⟨0x4010000c, 1, 0x0, 1, 0x0, 4, fun _ _ => 0x0, 0x0, 0x0, 0x0, 0x0, 0x0, []⟩

/-- DECK_ERR (chapter 10). -/
def R.DECK_ERR : RegDef :=
  ⟨0x40100010, 1, 0x0, 1, 0x0, 4, fun _ _ => 0x0, 0x0, 0x0, 0x0, 0x0, 0x0, [(31, 24), (23, 16), (15, 8), (7, 0)]⟩

/-- DECK_FN_f (chapter 10). -/
def R.DECK_FN : RegDef :=
  ⟨0x40100100, 64, 0x8, 1, 0x0, 8, fun _ _ => 0x10004000020, 0xfff1fff1fff, 0x0, 0x0, 0x0, 0x0, []⟩

/-- DECK_FNUSE_f (chapter 10). -/
def R.DECK_FNUSE : RegDef :=
  ⟨0x40100300, 64, 0x8, 1, 0x0, 8, fun _ _ => 0x0, 0x0, 0x0, 0x0, 0x0, 0x0, []⟩

/-- CHK_PORT_c_FIRST (chapter 10). -/
def R.CHK_PORT_FIRST : RegDef :=
  ⟨0x40200000, 4, 0x100, 1, 0x0, 8, fun _ _ => 0x0, 0x1fffffffffff, 0x0, 0x0, 0x0, 0x0, []⟩

/-- CHK_PORT_c_LAST (chapter 10). -/
def R.CHK_PORT_LAST : RegDef :=
  ⟨0x40200008, 4, 0x100, 1, 0x0, 8, fun _ _ => 0x0, 0x1fffffffffff, 0x0, 0x0, 0x0, 0x0, []⟩

/-- CHK_PORT_c_CTL (chapter 10). -/
def R.CHK_PORT_CTL : RegDef :=
  ⟨0x40200010, 4, 0x100, 1, 0x0, 4, fun _ _ => 0x0, 0x400001ff, 0x0, 0x0, 0x80000000, 0x0, []⟩

/-- CHK_PORT_c_REL (chapter 10). -/
def R.CHK_PORT_REL : RegDef :=
  ⟨0x40200014, 4, 0x100, 1, 0x0, 4, fun _ _ => 0x0, 0xfff, 0x0, 0x0, 0x80000000, 0x0, []⟩

/-- GOV_CTL (chapter 11). -/
def R.GOV_CTL : RegDef :=
  ⟨0x40a00000, 1, 0x0, 1, 0x0, 4, fun _ _ => 0x405, 0xff03, 0x0, 0x0, 0x0, 0x0, []⟩

/-- GOV_BUDGET (chapter 11). -/
def R.GOV_BUDGET : RegDef :=
  ⟨0x40a00004, 1, 0x0, 1, 0x0, 4, fun _ _ => 0x3db83db8, 0xffff, 0xffff0000, 0x0, 0x0, 0x0, []⟩

/-- GOV_STAT (chapter 11). -/
def R.GOV_STAT : RegDef :=
  ⟨0x40a00008, 1, 0x0, 1, 0x0, 4, fun _ _ => 0x3db80000, 0x0, 0x0, 0x8, 0x0, 0x0, []⟩

/-- GOV_POWER (chapter 11). -/
def R.GOV_POWER : RegDef :=
  ⟨0x40a0000c, 1, 0x0, 1, 0x0, 4, fun _ _ => 0x0, 0x0, 0x0, 0x0, 0x0, 0x0, []⟩

/-- GOV_MEAS (chapter 11). -/
def R.GOV_MEAS : RegDef :=
  ⟨0x40a00010, 1, 0x0, 1, 0x0, 4, fun _ _ => 0x0, 0x0, 0x0, 0x0, 0x0, 0x0, []⟩

/-- GOV_DERATE (chapter 11). -/
def R.GOV_DERATE : RegDef :=
  ⟨0x40a00014, 1, 0x0, 1, 0x0, 4, fun _ _ => 0x623c3c1e, 0xffffffff, 0x0, 0x0, 0x0, 0x0, []⟩

/-- GOV_TEMP (chapter 11). -/
def R.GOV_TEMP : RegDef :=
  ⟨0x40a00018, 1, 0x0, 1, 0x0, 4, fun _ _ => 0x0, 0x0, 0x0, 0x0, 0x0, 0x0, []⟩

/-- GOV_AGE (chapter 11). -/
def R.GOV_AGE : RegDef :=
  ⟨0x40a00020, 1, 0x0, 1, 0x0, 4, fun _ _ => 0x7d0, 0xffffffff, 0x0, 0x0, 0x0, 0x0, []⟩

/-- GOV_SCH (chapter 11). -/
def R.GOV_SCH : RegDef :=
  ⟨0x40a00024, 1, 0x0, 1, 0x0, 8, fun _ _ => 0xfa0143203e8, 0xffffffffffff, 0x0, 0x0, 0x0, 0x0, []⟩

/-- GOV_BG (chapter 11). -/
def R.GOV_BG : RegDef :=
  ⟨0x40a00030, 1, 0x0, 1, 0x0, 4, fun _ _ => 0x1a050d0d, 0xffffffff, 0x0, 0x0, 0x0, 0x0, []⟩

/-- GOV_PRESS (chapter 11). -/
def R.GOV_PRESS : RegDef :=
  ⟨0x40a00034, 1, 0x0, 1, 0x0, 4, fun _ _ => 0x804b, 0x1ffff, 0x0, 0x0, 0x0, 0x0, []⟩

/-- GOV_ERR (chapter 11). -/
def R.GOV_ERR : RegDef :=
  ⟨0x40a00038, 1, 0x0, 1, 0x0, 4, fun _ _ => 0x0, 0x0, 0x0, 0x0, 0x0, 0x0, [(31, 24), (23, 16), (15, 8), (7, 0)]⟩

/-- GOV_ARM_n (chapter 11). -/
def R.GOV_ARM : RegDef :=
  ⟨0x40a00040, 4, 0x4, 1, 0x0, 4, fun _ _ => 0x3200028, 0xffffffff, 0x0, 0x0, 0x0, 0x0, []⟩

/-- GOV_FN_f (chapter 11). -/
def R.GOV_FN : RegDef :=
  ⟨0x40a00100, 64, 0x8, 1, 0x0, 8, fun _ _ => 0x100, 0xffff, 0x0, 0x0, 0x0, 0x0, []⟩

/-- LND_CTL (chapter 12). -/
def R.LND_CTL : RegDef :=
  ⟨0x40300000, 1, 0x0, 1, 0x0, 4, fun _ _ => 0x0, 0x0, 0x0, 0x0, 0x1, 0x0, []⟩

/-- LND_CFG (chapter 12). -/
def R.LND_CFG : RegDef :=
  ⟨0x40300004, 1, 0x0, 1, 0x0, 4, fun _ _ => 0x0, 0x0, 0x33, 0x0, 0x0, 0x0, []⟩

/-- LND_STAT (chapter 12). -/
def R.LND_STAT : RegDef :=
  ⟨0x40300008, 1, 0x0, 1, 0x0, 4, fun _ _ => 0x0, 0x0, 0x0, 0x0, 0x0, 0x0, []⟩

/-- LND_FILL_BASE (chapter 12). -/
def R.LND_FILL_BASE : RegDef :=
  ⟨0x40300010, 1, 0x0, 1, 0x0, 8, fun _ _ => 0x0, 0xffffffffc0, 0x0, 0x0, 0x0, 0x0, []⟩

/-- LND_FILL_LEN (chapter 12). -/
def R.LND_FILL_LEN : RegDef :=
  ⟨0x40300018, 1, 0x0, 1, 0x0, 8, fun _ _ => 0x0, 0xffffffffc0, 0x0, 0x0, 0x0, 0x0, []⟩

/-- LND_FILL_CTL (chapter 12). -/
def R.LND_FILL_CTL : RegDef :=
  ⟨0x40300020, 1, 0x0, 1, 0x0, 4, fun _ _ => 0x0, 0x0, 0x0, 0x40000000, 0x80000000, 0x0, []⟩

/-- LND_PROT (chapter 12). -/
def R.LND_PROT : RegDef :=
  ⟨0x40300028, 1, 0x0, 1, 0x0, 8, fun _ _ => 0x0, 0xfffff000000ff, 0x0, 0x0, 0x0, 0x0, []⟩

/-- LND_SCRUB_RNG (chapter 12). -/
def R.LND_SCRUB_RNG : RegDef :=
  ⟨0x40300030, 1, 0x0, 1, 0x0, 8, fun _ _ => 0x0, 0xfffff000fffff, 0x0, 0x0, 0x0, 0x0, []⟩

/-- LND_SCRUB_CTL (chapter 12). -/
def R.LND_SCRUB_CTL : RegDef :=
  ⟨0x40300038, 1, 0x0, 1, 0x0, 4, fun _ _ => 0x18, 0x8000ffff, 0x0, 0x0, 0x0, 0x0, []⟩

/-- LND_ECC_CNT (chapter 12). -/
def R.LND_ECC_CNT : RegDef :=
  ⟨0x40300040, 1, 0x0, 1, 0x0, 4, fun _ _ => 0x0, 0x0, 0x0, 0x0, 0x0, 0x0, [(31, 16), (15, 8), (7, 0)]⟩

/-- LND_ECC_ADDR (chapter 12). -/
def R.LND_ECC_ADDR : RegDef :=
  ⟨0x40300048, 1, 0x0, 1, 0x0, 8, fun _ _ => 0x0, 0x0, 0x0, 0x8000000000000000, 0x0, 0x0, []⟩

/-- LND_MRG (chapter 12). -/
def R.LND_MRG : RegDef :=
  ⟨0x40300050, 1, 0x0, 1, 0x0, 4, fun _ _ => 0x2, 0xff, 0x0, 0x0, 0x0, 0x0, []⟩

/-- LND_FFENCE_c (chapter 12). -/
def R.LND_FFENCE : RegDef :=
  ⟨0x40300100, 4, 0x8, 1, 0x0, 8, fun _ _ => 0x0, 0xff00ffffffffc7, 0x0, 0x0, 0x0, 0x0, []⟩

/-- LND_RMAP_k (chapter 12). -/
def R.LND_RMAP : RegDef :=
  ⟨0x40300200, 32, 0x8, 1, 0x0, 8, fun _ _ => 0x0, 0xffffffe000, 0x0, 0x0, 0x6000000000000000, 0x0, []⟩

/-- YRD_CTL (chapter 12). -/
def R.YRD_CTL : RegDef :=
  ⟨0x40400000, 1, 0x0, 1, 0x0, 4, fun _ _ => 0x0, 0x1, 0x0, 0x0, 0x0, 0x0, []⟩

/-- YRD_STAT (chapter 12). -/
def R.YRD_STAT : RegDef :=
  ⟨0x40400004, 1, 0x0, 1, 0x0, 4, fun _ _ => 0x40, 0x0, 0x0, 0x0, 0x0, 0x0, []⟩

/-- YRD_HALT (chapter 12). -/
def R.YRD_HALT : RegDef :=
  ⟨0x40400008, 1, 0x0, 1, 0x0, 4, fun _ _ => 0x0, 0x0, 0x0, 0x0, 0x0, 0x0, []⟩

/-- YRD_ERR (chapter 12). -/
def R.YRD_ERR : RegDef :=
  ⟨0x4040000c, 1, 0x0, 1, 0x0, 4, fun _ _ => 0x0, 0x0, 0x0, 0x0, 0x0, 0x0, [(31, 24), (23, 16), (15, 8), (7, 0)]⟩

/-- YRD_CH_n_BASE (chapter 12). -/
def R.YRD_CH_BASE : RegDef :=
  ⟨0x40400100, 32, 0x20, 1, 0x0, 4, fun _ _ => 0x0, 0xffffffc0, 0x0, 0x0, 0x0, 0x0, []⟩

/-- YRD_CH_n_CTL (chapter 12). -/
def R.YRD_CH_CTL : RegDef :=
  ⟨0x40400104, 32, 0x20, 1, 0x0, 4, fun i _ => 0x424 + if 24 ≤ i then 0x10000 else 0, 0xfff, 0x10000, 0x0, 0xc0000000, 0x0, []⟩

/-- YRD_CH_n_DB (chapter 12). -/
def R.YRD_CH_DB : RegDef :=
  ⟨0x40400108, 32, 0x20, 1, 0x0, 4, fun _ _ => 0x0, 0x0, 0x0, 0x0, 0x0, 0xffffffff, []⟩

/-- YRD_CH_n_STAT (chapter 12). -/
def R.YRD_CH_STAT : RegDef :=
  ⟨0x4040010c, 32, 0x20, 1, 0x0, 4, fun _ _ => 0x0, 0x0, 0x0, 0x0, 0x0, 0x0, []⟩

/-- TLY_CTL (chapter 13). -/
def R.TLY_CTL : RegDef :=
  ⟨0x40c00000, 1, 0x0, 1, 0x0, 4, fun _ _ => 0x0, 0xffff, 0x0, 0x0, 0x0, 0x0, []⟩

/-- TLY_SCALE (chapter 13). -/
def R.TLY_SCALE : RegDef :=
  ⟨0x40c00004, 1, 0x0, 1, 0x0, 4, fun _ _ => 0x0, 0x0, 0x0, 0x0, 0x80000000, 0x0, []⟩

/-- TLY_EPOCH (chapter 13). -/
def R.TLY_EPOCH : RegDef :=
  ⟨0x40c00008, 1, 0x0, 1, 0x0, 4, fun _ _ => 0x0, 0x0, 0x0, 0x0, 0x0, 0x0, []⟩

/-- TLY_SHD_PCY (chapter 13). -/
def R.TLY_SHD_PCY : RegDef :=
  ⟨0x40c0000c, 1, 0x0, 1, 0x0, 4, fun _ _ => 0x0, 0x0, 0x0, 0x0, 0x0, 0x0, []⟩

/-- TLY_SHD_TIME (chapter 13). -/
def R.TLY_SHD_TIME : RegDef :=
  ⟨0x40c00010, 1, 0x0, 1, 0x0, 8, fun _ _ => 0x0, 0x0, 0x0, 0x0, 0x0, 0x0, []⟩

/-- TLY_XING (chapter 13). -/
def R.TLY_XING : RegDef :=
  ⟨0x40c00018, 1, 0x0, 1, 0x0, 4, fun _ _ => 0x0, 0x0, 0x0, 0x0, 0x0, 0x0, [(31, 16)]⟩

/-- TLY_LIVE_f_k (chapter 13). -/
def R.TLY_LIVE : RegDef :=
  ⟨0x40c10000, 64, 0x80, 16, 0x8, 8, fun _ _ => 0x0, 0x0, 0x0, 0x0, 0x0, 0x0, []⟩

/-- TLY_SHD_f_k (chapter 13). -/
def R.TLY_SHD : RegDef :=
  ⟨0x40c20000, 64, 0x80, 16, 0x8, 8, fun _ _ => 0x0, 0x0, 0x0, 0x0, 0x0, 0x0, []⟩

/-- TLY_DLIVE_k (chapter 13). -/
def R.TLY_DLIVE : RegDef :=
  ⟨0x40c30000, 64, 0x8, 1, 0x0, 8, fun _ _ => 0x0, 0x0, 0x0, 0x0, 0x0, 0x0, []⟩

/-- TLY_DSHD_k (chapter 13). -/
def R.TLY_DSHD : RegDef :=
  ⟨0x40c30200, 64, 0x8, 1, 0x0, 8, fun _ _ => 0x0, 0x0, 0x0, 0x0, 0x0, 0x0, []⟩

/-- BLZ_CTL (chapter 13). -/
def R.BLZ_CTL : RegDef :=
  ⟨0x40d00000, 1, 0x0, 1, 0x0, 4, fun _ _ => 0x3, 0x3, 0x0, 0x0, 0x0, 0x0, []⟩

/-- BLZ_STAT (chapter 13). -/
def R.BLZ_STAT : RegDef :=
  ⟨0x40d00004, 1, 0x0, 1, 0x0, 4, fun _ _ => 0x0, 0x0, 0x0, 0x40, 0x0, 0x0, [(31, 16)]⟩

/-- BLZ_SEQ (chapter 13). -/
def R.BLZ_SEQ : RegDef :=
  ⟨0x40d00008, 1, 0x0, 1, 0x0, 4, fun _ _ => 0x0, 0x0, 0x0, 0x0, 0x0, 0x0, []⟩

/-- BLZ_NEXT (chapter 13). -/
def R.BLZ_NEXT : RegDef :=
  ⟨0x40d0000c, 1, 0x0, 1, 0x0, 4, fun _ _ => 0x0, 0x0, 0x0, 0x0, 0x0, 0x0, []⟩

/-- BLZ_TIME (chapter 13). -/
def R.BLZ_TIME : RegDef :=
  ⟨0x40d00010, 1, 0x0, 1, 0x0, 8, fun _ _ => 0x0, 0x0, 0x0, 0x0, 0x0, 0x0, []⟩

/-- BLZ_SEL_k (chapter 13). -/
def R.BLZ_SEL : RegDef :=
  ⟨0x40d00040, 16, 0x4, 1, 0x0, 4, fun _ _ => 0x0, 0xffffffff, 0x0, 0x0, 0x0, 0x0, []⟩

/-- BLZ_POST_DATA_c (chapter 13). -/
def R.BLZ_POST_DATA : RegDef :=
  ⟨0x40d00080, 5, 0x10, 1, 0x0, 8, fun _ _ => 0x0, 0xffffffffffffffff, 0x0, 0x0, 0x0, 0x0, []⟩

/-- BLZ_POST_CTL_c (chapter 13). -/
def R.BLZ_POST_CTL : RegDef :=
  ⟨0x40d00088, 5, 0x10, 1, 0x0, 4, fun _ _ => 0xe00, 0xfff, 0x0, 0x0, 0x80000000, 0x0, []⟩

/-- EVT_PEND_k (chapter 14). -/
def R.EVT_PEND : RegDef :=
  ⟨0x41100000, 16, 0x4, 1, 0x0, 4, fun _ _ => 0x0, 0x0, 0x0, 0xffffffff, 0x0, 0x0, []⟩

/-- EVT_EN_r_k (chapter 14). -/
def R.EVT_EN : RegDef :=
  ⟨0x41100100, 5, 0x40, 16, 0x4, 4, fun _ _ => 0x0, 0xffffffff, 0x0, 0x0, 0x0, 0x0, []⟩

/-- EVT_CLAIM_r (chapter 14). -/
def R.EVT_CLAIM : RegDef :=
  ⟨0x41100300, 5, 0x4, 1, 0x0, 4, fun _ _ => 0x0, 0x0, 0x0, 0x0, 0x0, 0x0, []⟩

/-- EVT_SWSET (chapter 14). -/
def R.EVT_SWSET : RegDef :=
  ⟨0x41100320, 1, 0x0, 1, 0x0, 4, fun _ _ => 0x0, 0x0, 0x0, 0x0, 0xffff, 0x0, []⟩

/-- FLT_CTL (chapter 14). -/
def R.FLT_CTL : RegDef :=
  ⟨0x40b00000, 1, 0x0, 1, 0x0, 4, fun _ _ => 0x0, 0x0, 0x7, 0x0, 0x0, 0x0, []⟩

/-- FLT_STAT (chapter 14). -/
def R.FLT_STAT : RegDef :=
  ⟨0x40b00004, 1, 0x0, 1, 0x0, 4, fun _ _ => 0x0, 0x0, 0x0, 0x0, 0x0, 0x0, []⟩

/-- FLT_ACK (chapter 14). -/
def R.FLT_ACK : RegDef :=
  ⟨0x40b00008, 1, 0x0, 1, 0x0, 4, fun _ _ => 0x0, 0x0, 0x0, 0x0, 0x0, 0x1f, []⟩

/-- FLT_CLR (chapter 14). -/
def R.FLT_CLR : RegDef :=
  ⟨0x40b0000c, 1, 0x0, 1, 0x0, 4, fun _ _ => 0x0, 0x0, 0x0, 0x0, 0x0, 0x1f, []⟩

/-- FLT_FC3 (chapter 14). -/
def R.FLT_FC3 : RegDef :=
  ⟨0x40b00010, 1, 0x0, 1, 0x0, 8, fun _ _ => 0x0, 0x0, 0x0, 0xffffffffffffffff, 0x0, 0x0, []⟩

/-- FLT_FC3_PEND (chapter 14). -/
def R.FLT_FC3_PEND : RegDef :=
  ⟨0x40b00018, 1, 0x0, 1, 0x0, 8, fun _ _ => 0x0, 0x0, 0x0, 0x0, 0x0, 0x0, []⟩

/-- FLT_FC3_ACK (chapter 14). -/
def R.FLT_FC3_ACK : RegDef :=
  ⟨0x40b00020, 1, 0x0, 1, 0x0, 8, fun _ _ => 0x0, 0x0, 0x0, 0x0, 0x0, 0xffffffffffffffff, []⟩

/-- FLT_INJ (chapter 14). -/
def R.FLT_INJ : RegDef :=
  ⟨0x40b00028, 1, 0x0, 1, 0x0, 4, fun _ _ => 0x100, 0xfff, 0x0, 0x40000000, 0x80000000, 0x0, []⟩

/-- FLT_THERM (chapter 14). -/
def R.FLT_THERM : RegDef :=
  ⟨0x40b0002c, 1, 0x0, 1, 0x0, 4, fun _ _ => 0x468778, 0xff00ff, 0xff00, 0x0, 0x0, 0x0, []⟩

/-- FLT_SELF_STAT (chapter 14). -/
def R.FLT_SELF_STAT : RegDef :=
  ⟨0x40b00030, 1, 0x0, 1, 0x0, 4, fun _ _ => 0x0, 0x0, 0x0, 0x0, 0x0, 0x0, []⟩

/-- FLT_RING_PTR (chapter 14). -/
def R.FLT_RING_PTR : RegDef :=
  ⟨0x40b00034, 1, 0x0, 1, 0x0, 4, fun _ _ => 0x0, 0x0, 0x0, 0x0, 0x0, 0x0, []⟩

/-- FLT_FSEQ (chapter 14). -/
def R.FLT_FSEQ : RegDef :=
  ⟨0x40b00038, 1, 0x0, 1, 0x0, 4, fun _ _ => 0x0, 0x0, 0x0, 0x0, 0x0, 0x0, []⟩

/-- FLT_FIRST_c (chapter 14). -/
def R.FLT_FIRST : RegDef :=
  ⟨0x40b00100, 5, 0x20, 4, 0x8, 8, fun _ _ => 0x0, 0x0, 0x0, 0x0, 0x0, 0x0, []⟩

/-- FLT_FNCAP_f (chapter 14). -/
def R.FLT_FNCAP : RegDef :=
  ⟨0x40b00200, 64, 0x20, 4, 0x8, 8, fun _ _ => 0x0, 0x0, 0x0, 0x0, 0x0, 0x0, []⟩

/-- FLT_RING_k (chapter 14). -/
def R.FLT_RING : RegDef :=
  ⟨0x40b01000, 64, 0x20, 4, 0x8, 8, fun _ _ => 0x0, 0x0, 0x0, 0x0, 0x0, 0x0, []⟩

/-- FLT_CHK_n (chapter 14). -/
def R.FLT_CHK : RegDef :=
  ⟨0x40b02000, 256, 0x8, 1, 0x0, 8, fun i _ => fltChkReset i, 0x0, 0x3, 0x200, 0x0, 0x0, []⟩

/-- MGT_CTL (chapter 15). -/
def R.MGT_CTL : RegDef :=
  ⟨0x40e00000, 1, 0x0, 1, 0x0, 4, fun _ _ => 0x2580002, 0xffff0002, 0x4, 0x0, 0x0, 0x0, []⟩

/-- MGT_STAT (chapter 15). -/
def R.MGT_STAT : RegDef :=
  ⟨0x40e00004, 1, 0x0, 1, 0x0, 4, fun _ _ => 0x0, 0x0, 0x0, 0x0, 0x0, 0x0, []⟩

/-- MGT_WDT (chapter 15). -/
def R.MGT_WDT : RegDef :=
  ⟨0x40e00008, 1, 0x0, 1, 0x0, 4, fun _ _ => 0x3e8, 0x1ffff, 0x0, 0x0, 0x80000000, 0x0, []⟩

/-- MGT_FUSE (chapter 15). -/
def R.MGT_FUSE : RegDef :=
  ⟨0x40e0000c, 1, 0x0, 1, 0x0, 4, fun _ _ => 0x0, 0x7f0301, 0x0, 0x40000000, 0x80000000, 0x0, []⟩

/-- MGT_ACT (chapter 15). -/
def R.MGT_ACT : RegDef :=
  ⟨0x40e00010, 1, 0x0, 1, 0x0, 4, fun _ _ => 0x64, 0xffff, 0x0, 0x20000000, 0xc0000000, 0x0, []⟩

/-- MGT_ACT_BUF (chapter 15). -/
def R.MGT_ACT_BUF : RegDef :=
  ⟨0x40e00018, 1, 0x0, 1, 0x0, 8, fun _ _ => 0x0, 0xffff000000, 0x0, 0x0, 0x0, 0x0, []⟩

/-- MGT_MI (chapter 15). -/
def R.MGT_MI : RegDef :=
  ⟨0x40e00020, 1, 0x0, 1, 0x0, 4, fun _ _ => 0x8000001d, 0x80000000, 0x7f, 0x0, 0x0, 0x0, []⟩

/-- MGT_LWIN (chapter 15). -/
def R.MGT_LWIN : RegDef :=
  ⟨0x40e00028, 1, 0x0, 1, 0x0, 4, fun _ _ => 0x0, 0x7, 0x0, 0x0, 0x0, 0x0, []⟩

/-- MGT_TEMP_k (chapter 15). -/
def R.MGT_TEMP : RegDef :=
  ⟨0x40e00100, 8, 0x4, 1, 0x0, 4, fun _ _ => 0x0, 0x0, 0x0, 0x0, 0x0, 0x0, []⟩

/-- MGT_THM_n (chapter 15). -/
def R.MGT_THM : RegDef :=
  ⟨0x40e00120, 4, 0x4, 1, 0x0, 4, fun _ _ => 0xd6b8000, 0x0, 0xbfff0000, 0x0, 0x0, 0x0, []⟩

/-- MGT_MON_n (chapter 15). -/
def R.MGT_MON : RegDef :=
  ⟨0x40e00140, 6, 0x8, 1, 0x0, 8, fun _ _ => 0xfff00003e8000000, 0x0, 0xffffffffff000000, 0x0, 0x0, 0x0, []⟩

/-- MGT_RO_k (chapter 15). -/
def R.MGT_RO : RegDef :=
  ⟨0x40e00200, 16, 0x4, 1, 0x0, 4, fun _ _ => 0x0, 0x0, 0x0, 0x0, 0x0, 0x0, []⟩

/-- CFG_CTL (chapter 15). -/
def R.CFG_CTL : RegDef :=
  ⟨0x41000000, 1, 0x0, 1, 0x0, 4, fun _ _ => 0x0, 0x0, 0x0, 0x0, 0x3, 0x0, []⟩

/-- CFG_STAT (chapter 15). -/
def R.CFG_STAT : RegDef :=
  ⟨0x41000004, 1, 0x0, 1, 0x0, 4, fun _ _ => 0x0, 0x0, 0x0, 0x0, 0x0, 0x0, []⟩

/-- CFG_TXN_CTL (chapter 15). -/
def R.CFG_TXN_CTL : RegDef :=
  ⟨0x41000010, 1, 0x0, 1, 0x0, 4, fun _ _ => 0x0, 0x7, 0x0, 0x0, 0x80000000, 0x0, []⟩

/-- CFG_TXN_ID (chapter 15). -/
def R.CFG_TXN_ID : RegDef :=
  ⟨0x41000014, 1, 0x0, 1, 0x0, 4, fun _ _ => 0x0, 0x0, 0x0, 0x0, 0x0, 0x0, []⟩

/-- CFG_TXN_STAT (chapter 15). -/
def R.CFG_TXN_STAT : RegDef :=
  ⟨0x41000018, 1, 0x0, 1, 0x0, 4, fun _ _ => 0x0, 0x0, 0x0, 0x0, 0x0, 0x0, []⟩

/-- CFG_TXN_BUF (chapter 15). -/
def R.CFG_TXN_BUF : RegDef :=
  ⟨0x4100001c, 1, 0x0, 1, 0x0, 4, fun _ _ => 0x0, 0xffffffff, 0x0, 0x0, 0x0, 0x0, []⟩

/-- CFG_TXN_LEN (chapter 15). -/
def R.CFG_TXN_LEN : RegDef :=
  ⟨0x41000020, 1, 0x0, 1, 0x0, 4, fun _ _ => 0x0, 0xffffffff, 0x0, 0x0, 0x0, 0x0, []⟩

/-- CFG_TXN_TMO (chapter 15). -/
def R.CFG_TXN_TMO : RegDef :=
  ⟨0x41000024, 1, 0x0, 1, 0x0, 4, fun _ _ => 0x2710, 0x0, 0xffffffff, 0x0, 0x0, 0x0, []⟩

/-- CPR_CLK (chapter 16). -/
def R.CPR_CLK : RegDef :=
  ⟨0x40f00000, 1, 0x0, 1, 0x0, 4, fun _ _ => 0x2, 0x0, 0xf, 0x0, 0x0, 0x0, []⟩

/-- CPR_SSC (chapter 16). -/
def R.CPR_SSC : RegDef :=
  ⟨0x40f00004, 1, 0x0, 1, 0x0, 4, fun _ _ => 0x2020, 0x0, 0x7f7f, 0x0, 0x0, 0x0, []⟩

/-- CPR_CLKMON (chapter 16). -/
def R.CPR_CLKMON : RegDef :=
  ⟨0x40f00008, 1, 0x0, 1, 0x0, 4, fun _ _ => 0x0, 0x0, 0x0, 0x3f00, 0x0, 0x0, []⟩

/-- CPR_PD (chapter 16). -/
def R.CPR_PD : RegDef :=
  ⟨0x40f00010, 1, 0x0, 1, 0x0, 4, fun _ _ => 0x3e80000, 0xffff030f, 0x0, 0x0, 0x400, 0x0, []⟩

/-- CPR_PD_STAT (chapter 16). -/
def R.CPR_PD_STAT : RegDef :=
  ⟨0x40f00014, 1, 0x0, 1, 0x0, 4, fun _ _ => 0x0, 0x0, 0x0, 0x0, 0x0, 0x0, []⟩

/-- CPR_RST (chapter 16). -/
def R.CPR_RST : RegDef :=
  ⟨0x40f00018, 1, 0x0, 1, 0x0, 4, fun _ _ => 0x0, 0x0, 0x0, 0x0, 0x3, 0x0, [(31, 24)]⟩

/-- CPR_RETRACT (chapter 16). -/
def R.CPR_RETRACT : RegDef :=
  ⟨0x40f0001c, 1, 0x0, 1, 0x0, 4, fun _ _ => 0xc, 0x0, 0x0, 0x0, 0x3, 0x0, []⟩

/-- CPR_PL (chapter 16). -/
def R.CPR_PL : RegDef :=
  ⟨0x40f00020, 1, 0x0, 1, 0x0, 4, fun _ _ => 0x38ca, 0x0, 0x3fff, 0x0, 0x0, 0x0, []⟩

/-- CPR_DUMP_CTL (chapter 16). -/
def R.CPR_DUMP_CTL : RegDef :=
  ⟨0x40f00030, 1, 0x0, 1, 0x0, 4, fun _ _ => 0x10080000, 0x1, 0xffff0000, 0x4, 0x2, 0x0, []⟩

/-- CPR_DUMP_STAT (chapter 16). -/
def R.CPR_DUMP_STAT : RegDef :=
  ⟨0x40f00034, 1, 0x0, 1, 0x0, 4, fun _ _ => 0x0, 0x0, 0x0, 0x0, 0x0, 0x0, []⟩

/-- CPR_DUMP_SEQ (chapter 16). -/
def R.CPR_DUMP_SEQ : RegDef :=
  ⟨0x40f00038, 1, 0x0, 1, 0x0, 4, fun _ _ => 0x0, 0x0, 0x0, 0x0, 0x0, 0x0, []⟩

/-- CPR_TIME (chapter 16). -/
def R.CPR_TIME : RegDef :=
  ⟨0x40f00040, 1, 0x0, 1, 0x0, 8, fun _ _ => 0x0, 0x0, 0x0, 0x0, 0x0, 0x0, []⟩

/-- CPR_DUMP_BLK_k (chapter 16). -/
def R.CPR_DUMP_BLK : RegDef :=
  ⟨0x40f00100, 64, 0x4, 1, 0x0, 4, fun _ _ => 0x0, 0x8fffffff, 0x0, 0x0, 0x0, 0x0, []⟩

/-! ### Fields -/

def F.SPR_GEO_BASE_ADDR : Field := ⟨R.SPR_GEO_BASE, 31, 6⟩
def F.SPR_GEO_CTL_BUSY : Field := ⟨R.SPR_GEO_CTL, 2, 2⟩
def F.SPR_GEO_CTL_ACTIVE : Field := ⟨R.SPR_GEO_CTL, 1, 1⟩
def F.SPR_GEO_CTL_LOAD : Field := ⟨R.SPR_GEO_CTL, 0, 0⟩
def F.SPR_GEO_STAT_GEN : Field := ⟨R.SPR_GEO_STAT, 23, 8⟩
def F.SPR_GEO_STAT_ERR : Field := ⟨R.SPR_GEO_STAT, 7, 0⟩
def F.SPR_FENCE_HEAD_FENCE : Field := ⟨R.SPR_FENCE_HEAD, 31, 0⟩
def F.SPR_FENCE_ARM_FENCE : Field := ⟨R.SPR_FENCE_ARM, 3, 0⟩
def F.SPR_FENCE_DRAIN_DRAIN : Field := ⟨R.SPR_FENCE_DRAIN, 31, 0⟩
def F.SPR_SURF_UNREACH_UNREACH : Field := ⟨R.SPR_SURF_UNREACH, 15, 0⟩
def F.SPR_RFENCE_LAST : Field := ⟨R.SPR_RFENCE, 53, 32⟩
def F.SPR_RFENCE_VALID : Field := ⟨R.SPR_RFENCE, 31, 31⟩
def F.SPR_RFENCE_SURF : Field := ⟨R.SPR_RFENCE, 25, 22⟩
def F.SPR_RFENCE_FIRST : Field := ⟨R.SPR_RFENCE, 21, 0⟩
def F.LANE_ALK_CTL_GUARD : Field := ⟨R.LANE_ALK_CTL, 15, 8⟩
def F.LANE_ALK_CTL_SKEW : Field := ⟨R.LANE_ALK_CTL, 7, 4⟩
def F.LANE_ALK_CTL_AUTO_RETRAIN : Field := ⟨R.LANE_ALK_CTL, 3, 3⟩
def F.LANE_ALK_CTL_RETRAIN : Field := ⟨R.LANE_ALK_CTL, 2, 2⟩
def F.LANE_ALK_CTL_ENABLE : Field := ⟨R.LANE_ALK_CTL, 0, 0⟩
def F.LANE_ALK_STAT_RETRAINS : Field := ⟨R.LANE_ALK_STAT, 19, 16⟩
def F.LANE_ALK_STAT_SUPPLY_LOW : Field := ⟨R.LANE_ALK_STAT, 10, 10⟩
def F.LANE_ALK_STAT_OVERTEMP : Field := ⟨R.LANE_ALK_STAT, 9, 9⟩
def F.LANE_ALK_STAT_MUA_MISS : Field := ⟨R.LANE_ALK_STAT, 8, 8⟩
def F.LANE_ALK_STAT_PARK_DISC : Field := ⟨R.LANE_ALK_STAT, 7, 7⟩
def F.LANE_ALK_STAT_RAMP_DISC : Field := ⟨R.LANE_ALK_STAT, 6, 6⟩
def F.LANE_ALK_STAT_PARKED : Field := ⟨R.LANE_ALK_STAT, 5, 5⟩
def F.LANE_ALK_STAT_ON_RAMP : Field := ⟨R.LANE_ALK_STAT, 4, 4⟩
def F.LANE_ALK_STAT_WKILL : Field := ⟨R.LANE_ALK_STAT, 3, 3⟩
def F.LANE_ALK_STAT_STATE : Field := ⟨R.LANE_ALK_STAT, 2, 0⟩
def F.LANE_ALK_ID_PID : Field := ⟨R.LANE_ALK_ID, 31, 16⟩
def F.LANE_ALK_ID_VID : Field := ⟨R.LANE_ALK_ID, 15, 0⟩
def F.LANE_ALK_PERS_PERS : Field := ⟨R.LANE_ALK_PERS, 31, 0⟩
def F.LANE_ALK_ERR_MUA_MISS : Field := ⟨R.LANE_ALK_ERR, 31, 24⟩
def F.LANE_ALK_ERR_NAK : Field := ⟨R.LANE_ALK_ERR, 23, 16⟩
def F.LANE_ALK_ERR_CODE : Field := ⟨R.LANE_ALK_ERR, 15, 8⟩
def F.LANE_ALK_ERR_CRC : Field := ⟨R.LANE_ALK_ERR, 7, 0⟩
def F.LANE_ALK_REG_CMD_GO : Field := ⟨R.LANE_ALK_REG_CMD, 31, 31⟩
def F.LANE_ALK_REG_CMD_READ : Field := ⟨R.LANE_ALK_REG_CMD, 30, 30⟩
def F.LANE_ALK_REG_CMD_FAIL : Field := ⟨R.LANE_ALK_REG_CMD, 29, 29⟩
def F.LANE_ALK_REG_CMD_ADDR : Field := ⟨R.LANE_ALK_REG_CMD, 15, 0⟩
def F.LANE_ALK_REG_DATA_DATA : Field := ⟨R.LANE_ALK_REG_DATA, 15, 0⟩
def F.LANE_ALK_SNS_START : Field := ⟨R.LANE_ALK_SNS, 31, 31⟩
def F.LANE_ALK_SNS_DONE : Field := ⟨R.LANE_ALK_SNS, 30, 30⟩
def F.LANE_ALK_SNS_RESULT : Field := ⟨R.LANE_ALK_SNS, 29, 18⟩
def F.LANE_ALK_SNS_COUNT : Field := ⟨R.LANE_ALK_SNS, 17, 10⟩
def F.LANE_ALK_SNS_SRC : Field := ⟨R.LANE_ALK_SNS, 9, 8⟩
def F.LANE_ALK_SNS_SURF : Field := ⟨R.LANE_ALK_SNS, 7, 4⟩
def F.LANE_CTL_HOLD : Field := ⟨R.LANE_CTL, 23, 18⟩
def F.LANE_CTL_PROF_WB : Field := ⟨R.LANE_CTL, 17, 17⟩
def F.LANE_CTL_PROF_AUTO : Field := ⟨R.LANE_CTL, 16, 16⟩
def F.LANE_CTL_CAL : Field := ⟨R.LANE_CTL, 3, 3⟩
def F.LANE_CTL_PWR : Field := ⟨R.LANE_CTL, 1, 0⟩
def F.LANE_STAT_ZONE : Field := ⟨R.LANE_STAT, 25, 20⟩
def F.LANE_STAT_PROF_OK : Field := ⟨R.LANE_STAT, 19, 19⟩
def F.LANE_STAT_CAL_FAIL : Field := ⟨R.LANE_STAT, 18, 18⟩
def F.LANE_STAT_SERVO : Field := ⟨R.LANE_STAT, 17, 17⟩
def F.LANE_STAT_OP : Field := ⟨R.LANE_STAT, 16, 16⟩
def F.LANE_STAT_STATE : Field := ⟨R.LANE_STAT, 2, 0⟩
def F.LANE_AFE_ASYM : Field := ⟨R.LANE_AFE, 27, 20⟩
def F.LANE_AFE_BOOST : Field := ⟨R.LANE_AFE, 15, 10⟩
def F.LANE_AFE_CORNER : Field := ⟨R.LANE_AFE, 9, 4⟩
def F.LANE_AFE_HPF : Field := ⟨R.LANE_AFE, 3, 0⟩
def F.LANE_AGC_HOLD : Field := ⟨R.LANE_AGC, 31, 31⟩
def F.LANE_AGC_LOOP : Field := ⟨R.LANE_AGC, 27, 24⟩
def F.LANE_AGC_GAIN : Field := ⟨R.LANE_AGC, 23, 12⟩
def F.LANE_AGC_TARGET : Field := ⟨R.LANE_AGC, 11, 0⟩
def F.LANE_TGT_LO_G1 : Field := ⟨R.LANE_TGT_LO, 27, 16⟩
def F.LANE_TGT_LO_G0 : Field := ⟨R.LANE_TGT_LO, 11, 0⟩
def F.LANE_TGT_MID_G3 : Field := ⟨R.LANE_TGT_MID, 27, 16⟩
def F.LANE_TGT_MID_G2 : Field := ⟨R.LANE_TGT_MID, 11, 0⟩
def F.LANE_TGT_HI_TLEN : Field := ⟨R.LANE_TGT_HI, 18, 16⟩
def F.LANE_TGT_HI_G4 : Field := ⟨R.LANE_TGT_HI, 11, 0⟩
def F.LANE_DET_NP2 : Field := ⟨R.LANE_DET, 27, 22⟩
def F.LANE_DET_NP1 : Field := ⟨R.LANE_DET, 21, 16⟩
def F.LANE_DET_NP_EN : Field := ⟨R.LANE_DET, 8, 8⟩
def F.LANE_DET_SCALE : Field := ⟨R.LANE_DET, 5, 0⟩
def F.LANE_FIR_CTL_ADAPT : Field := ⟨R.LANE_FIR_CTL, 17, 16⟩
def F.LANE_FIR_CTL_MU : Field := ⟨R.LANE_FIR_CTL, 12, 8⟩
def F.LANE_FIR_CTL_CURSOR : Field := ⟨R.LANE_FIR_CTL, 4, 0⟩
def F.LANE_TR_ACQ : Field := ⟨R.LANE_TR, 23, 16⟩
def F.LANE_TR_KP_ACQ : Field := ⟨R.LANE_TR, 15, 12⟩
def F.LANE_TR_KI_ACQ : Field := ⟨R.LANE_TR, 11, 8⟩
def F.LANE_TR_KP_TRK : Field := ⟨R.LANE_TR, 7, 4⟩
def F.LANE_TR_KI_TRK : Field := ⟨R.LANE_TR, 3, 0⟩
def F.LANE_TR_STAT_FOFS : Field := ⟨R.LANE_TR_STAT, 31, 16⟩
def F.LANE_TR_STAT_PHASE : Field := ⟨R.LANE_TR_STAT, 5, 0⟩
def F.LANE_SYNC_PAT_PAT : Field := ⟨R.LANE_SYNC_PAT, 31, 0⟩
def F.LANE_SYNC_CTL_RWIN : Field := ⟨R.LANE_SYNC_CTL, 31, 24⟩
def F.LANE_SYNC_CTL_RMISM : Field := ⟨R.LANE_SYNC_CTL, 23, 22⟩
def F.LANE_SYNC_CTL_MISM : Field := ⟨R.LANE_SYNC_CTL, 21, 20⟩
def F.LANE_SYNC_CTL_WIN : Field := ⟨R.LANE_SYNC_CTL, 19, 6⟩
def F.LANE_SYNC_CTL_LEN : Field := ⟨R.LANE_SYNC_CTL, 5, 0⟩
def F.LANE_DEF_POST : Field := ⟨R.LANE_DEF, 27, 20⟩
def F.LANE_DEF_PRE : Field := ⟨R.LANE_DEF, 19, 12⟩
def F.LANE_DEF_MIN : Field := ⟨R.LANE_DEF, 11, 8⟩
def F.LANE_DEF_EN : Field := ⟨R.LANE_DEF, 7, 7⟩
def F.LANE_DEF_THR : Field := ⟨R.LANE_DEF, 6, 0⟩
def F.LANE_TA_EN : Field := ⟨R.LANE_TA, 31, 31⟩
def F.LANE_TA_PAD : Field := ⟨R.LANE_TA, 23, 16⟩
def F.LANE_TA_THR : Field := ⟨R.LANE_TA, 11, 0⟩
def F.LANE_ERA_EMAX : Field := ⟨R.LANE_ERA, 15, 0⟩
def F.LANE_RES_RESULT : Field := ⟨R.LANE_RES, 63, 0⟩
def F.LANE_ERR_TA : Field := ⟨R.LANE_ERR, 31, 24⟩
def F.LANE_ERR_DEF : Field := ⟨R.LANE_ERR, 23, 16⟩
def F.LANE_ERR_RESYNC : Field := ⟨R.LANE_ERR, 15, 8⟩
def F.LANE_ERR_SYNC : Field := ⟨R.LANE_ERR, 7, 0⟩
def F.LANE_ADC_CAL_BG : Field := ⟨R.LANE_ADC, 31, 31⟩
def F.LANE_ADC_SKEW_MAX : Field := ⟨R.LANE_ADC, 15, 8⟩
def F.LANE_ADC_OFS_MAX : Field := ⟨R.LANE_ADC, 7, 0⟩
def F.LANE_RUN_LEN : Field := ⟨R.LANE_RUN, 31, 16⟩
def F.LANE_RUN_START : Field := ⟨R.LANE_RUN, 15, 0⟩
def F.LANE_FIR_TAP_ODD : Field := ⟨R.LANE_FIR, 27, 16⟩
def F.LANE_FIR_TAP_EVEN : Field := ⟨R.LANE_FIR, 11, 0⟩
def F.LANE_SYN_CTL_AUTO : Field := ⟨R.LANE_SYN_CTL, 7, 7⟩
def F.LANE_SYN_CTL_TUNE : Field := ⟨R.LANE_SYN_CTL, 6, 6⟩
def F.LANE_SYN_CTL_ZONE : Field := ⟨R.LANE_SYN_CTL, 5, 0⟩
def F.LANE_SYN_STAT_PDIV : Field := ⟨R.LANE_SYN_STAT, 27, 26⟩
def F.LANE_SYN_STAT_NINT : Field := ⟨R.LANE_SYN_STAT, 25, 16⟩
def F.LANE_SYN_STAT_ZONE : Field := ⟨R.LANE_SYN_STAT, 13, 8⟩
def F.LANE_SYN_STAT_STATE : Field := ⟨R.LANE_SYN_STAT, 1, 0⟩
def F.LANE_SYN_FRAC_NFRAC : Field := ⟨R.LANE_SYN_FRAC, 23, 0⟩
def F.LANE_PROF_BASE_ADDR : Field := ⟨R.LANE_PROF_BASE, 31, 12⟩
def F.WP_CTL_HOLD : Field := ⟨R.WP_CTL, 13, 8⟩
def F.WP_CTL_HEAT_EN : Field := ⟨R.WP_CTL, 2, 2⟩
def F.WP_CTL_PC_EN : Field := ⟨R.WP_CTL, 1, 1⟩
def F.WP_CTL_PROF_AUTO : Field := ⟨R.WP_CTL, 0, 0⟩
def F.WP_STAT_ZONE : Field := ⟨R.WP_STAT, 13, 8⟩
def F.WP_STAT_PROF_OK : Field := ⟨R.WP_STAT, 7, 7⟩
def F.WP_STAT_CLK_OK : Field := ⟨R.WP_STAT, 6, 6⟩
def F.WP_STAT_SHOCK_OK : Field := ⟨R.WP_STAT, 5, 5⟩
def F.WP_STAT_WPERM : Field := ⟨R.WP_STAT, 4, 4⟩
def F.WP_STAT_GATE : Field := ⟨R.WP_STAT, 3, 3⟩
def F.WP_STAT_STATE : Field := ⟨R.WP_STAT, 2, 0⟩
def F.WP_FMT_PRE : Field := ⟨R.WP_FMT, 31, 24⟩
def F.WP_FMT_SYNC_LEN : Field := ⟨R.WP_FMT, 23, 18⟩
def F.WP_FMT_SLEAD : Field := ⟨R.WP_FMT, 17, 12⟩
def F.WP_FMT_RSOFS : Field := ⟨R.WP_FMT, 11, 6⟩
def F.WP_FMT_POST : Field := ⟨R.WP_FMT, 5, 0⟩
def F.WP_SYNC_PAT_PAT : Field := ⟨R.WP_SYNC_PAT, 31, 0⟩
def F.WP_PC_PC : Field := ⟨R.WP_PC, 31, 0⟩
def F.WP_HEAT_PREHEAT : Field := ⟨R.WP_HEAT, 27, 16⟩
def F.WP_HEAT_HEAT_WR : Field := ⟨R.WP_HEAT, 15, 8⟩
def F.WP_HEAT_HEAT_RD : Field := ⟨R.WP_HEAT, 7, 0⟩
def F.WP_RES_RESULT : Field := ⟨R.WP_RES, 63, 0⟩
def F.WP_ERR_WFAULT : Field := ⟨R.WP_ERR, 31, 24⟩
def F.WP_ERR_UNDERRUN : Field := ⟨R.WP_ERR, 23, 16⟩
def F.WP_ERR_WCUT : Field := ⟨R.WP_ERR, 15, 8⟩
def F.WP_ERR_HEAT : Field := ⟨R.WP_ERR, 7, 0⟩
def F.WP_PROF_BASE_ADDR : Field := ⟨R.WP_PROF_BASE, 31, 12⟩
def F.SPR_WGEN_GEN : Field := ⟨R.SPR_WGEN, 39, 0⟩
def F.DEC_ITER_QSTEP : Field := ⟨R.DEC_ITER, 31, 24⟩
def F.DEC_ITER_QLO : Field := ⟨R.DEC_ITER, 23, 16⟩
def F.DEC_ITER_FAST_MIN : Field := ⟨R.DEC_ITER, 13, 8⟩
def F.DEC_ITER_FAST_MAX : Field := ⟨R.DEC_ITER, 5, 0⟩
def F.DEC_ALG_ET : Field := ⟨R.DEC_ALG, 16, 16⟩
def F.DEC_ALG_DR_MAX : Field := ⟨R.DEC_ALG, 14, 8⟩
def F.DEC_ALG_ALPHA : Field := ⟨R.DEC_ALG, 4, 0⟩
def F.DEC_PWR_HOLD : Field := ⟨R.DEC_PWR, 23, 16⟩
def F.DEC_PWR_DR_LIMIT : Field := ⟨R.DEC_PWR, 9, 8⟩
def F.DEC_PWR_FAST_LIMIT : Field := ⟨R.DEC_PWR, 4, 0⟩
def F.DEC_FENCE_DR : Field := ⟨R.DEC_FENCE, 17, 16⟩
def F.DEC_FENCE_FAST : Field := ⟨R.DEC_FENCE, 15, 0⟩
def F.DEC_STAT_QWAIT : Field := ⟨R.DEC_STAT, 31, 24⟩
def F.DEC_STAT_FREE : Field := ⟨R.DEC_STAT, 23, 16⟩
def F.DEC_STAT_CTX_FREE : Field := ⟨R.DEC_STAT, 15, 10⟩
def F.DEC_STAT_CAP : Field := ⟨R.DEC_STAT, 5, 0⟩
def F.DEC_AWAKE_DR : Field := ⟨R.DEC_AWAKE, 17, 16⟩
def F.DEC_AWAKE_FAST : Field := ⟨R.DEC_AWAKE, 15, 0⟩
def F.DEC_LADDER_CTL_LR_PARITY : Field := ⟨R.DEC_LADDER_CTL, 20, 20⟩
def F.DEC_LADDER_CTL_LR_LAST : Field := ⟨R.DEC_LADDER_CTL, 19, 16⟩
def F.DEC_LADDER_CTL_TMAX : Field := ⟨R.DEC_LADDER_CTL, 15, 0⟩
def F.DEC_BIST_START : Field := ⟨R.DEC_BIST, 31, 31⟩
def F.DEC_BIST_DONE : Field := ⟨R.DEC_BIST, 30, 30⟩
def F.DEC_BIST_PASS : Field := ⟨R.DEC_BIST, 29, 29⟩
def F.DEC_BIST_ENG : Field := ⟨R.DEC_BIST, 4, 0⟩
def F.DEC_LADDER_ACC : Field := ⟨R.DEC_LADDER, 24, 24⟩
def F.DEC_LADDER_PARAM : Field := ⟨R.DEC_LADDER, 23, 8⟩
def F.DEC_LADDER_REPEAT : Field := ⟨R.DEC_LADDER, 7, 4⟩
def F.DEC_LADDER_TYPE : Field := ⟨R.DEC_LADDER, 3, 0⟩
def F.DEC_RES_RESULT : Field := ⟨R.DEC_RES, 63, 0⟩
def F.DEC_CNT_OK_COUNT : Field := ⟨R.DEC_CNT_OK, 63, 0⟩
def F.DEC_CNT_LAD_COUNT : Field := ⟨R.DEC_CNT_LAD, 63, 0⟩
def F.DEC_CNT_UNC_COUNT : Field := ⟨R.DEC_CNT_UNC, 63, 0⟩
def F.DEC_ERR_SCHK : Field := ⟨R.DEC_ERR, 31, 24⟩
def F.DEC_ERR_SLOT : Field := ⟨R.DEC_ERR, 23, 16⟩
def F.DEC_ERR_CAPPED : Field := ⟨R.DEC_ERR, 15, 8⟩
def F.DEC_ERR_NOCTX : Field := ⟨R.DEC_ERR, 7, 0⟩
def F.DEC_STEP_OK_COUNT : Field := ⟨R.DEC_STEP_OK, 31, 0⟩
def F.SRV_CTL_COEF_SWAP : Field := ⟨R.SRV_CTL, 7, 7⟩
def F.SRV_CTL_RRO_EN : Field := ⟨R.SRV_CTL, 6, 6⟩
def F.SRV_CTL_CENTER : Field := ⟨R.SRV_CTL, 5, 5⟩
def F.SRV_CTL_UNLOAD : Field := ⟨R.SRV_CTL, 4, 4⟩
def F.SRV_CTL_LOAD : Field := ⟨R.SRV_CTL, 3, 3⟩
def F.SRV_MODE_TRACKING : Field := ⟨R.SRV_MODE, 20, 16⟩
def F.SRV_MODE_PFAIL : Field := ⟨R.SRV_MODE, 11, 11⟩
def F.SRV_MODE_LFAIL : Field := ⟨R.SRV_MODE, 10, 10⟩
def F.SRV_MODE_SEEK_ERR : Field := ⟨R.SRV_MODE, 9, 9⟩
def F.SRV_MODE_MODE : Field := ⟨R.SRV_MODE, 3, 0⟩
def F.SRV_TARGET_GO : Field := ⟨R.SRV_TARGET, 31, 31⟩
def F.SRV_TARGET_REFUSED : Field := ⟨R.SRV_TARGET, 30, 30⟩
def F.SRV_TARGET_TRACK : Field := ⟨R.SRV_TARGET, 21, 0⟩
def F.SRV_SEEK_VMAX : Field := ⟨R.SRV_SEEK, 31, 20⟩
def F.SRV_SEEK_ACC : Field := ⟨R.SRV_SEEK, 19, 8⟩
def F.SRV_SEEK_SETTLE_DIST : Field := ⟨R.SRV_SEEK, 7, 0⟩
def F.SRV_SETTLE_SETTLE_TMO : Field := ⟨R.SRV_SETTLE, 31, 24⟩
def F.SRV_SETTLE_FWIN : Field := ⟨R.SRV_SETTLE, 23, 16⟩
def F.SRV_SETTLE_FN : Field := ⟨R.SRV_SETTLE, 15, 12⟩
def F.SRV_SETTLE_SEEK_RETRY : Field := ⟨R.SRV_SETTLE, 11, 8⟩
def F.SRV_SETTLE_SETTLE_VEL : Field := ⟨R.SRV_SETTLE, 7, 0⟩
def F.SRV_UNLOAD_UNLOAD_VEL : Field := ⟨R.SRV_UNLOAD, 31, 24⟩
def F.SRV_UNLOAD_UNLOAD_T : Field := ⟨R.SRV_UNLOAD, 23, 16⟩
def F.SRV_UNLOAD_PARK_TMO : Field := ⟨R.SRV_UNLOAD, 15, 8⟩
def F.SRV_UNLOAD_UNLOAD_RPM : Field := ⟨R.SRV_UNLOAD, 7, 0⟩
def F.SRV_PARK_PARK_I : Field := ⟨R.SRV_PARK, 31, 16⟩
def F.SRV_PARK_UNLOAD_I : Field := ⟨R.SRV_PARK, 15, 0⟩
def F.SRV_VCM_ISENSE : Field := ⟨R.SRV_VCM, 27, 16⟩
def F.SRV_VCM_CMD : Field := ⟨R.SRV_VCM, 15, 0⟩
def F.SRV_WPERM_WPERM : Field := ⟨R.SRV_WPERM, 15, 0⟩
def F.SRV_WCNT_COUNT : Field := ⟨R.SRV_WCNT, 31, 0⟩
def F.SRV_ERR_SEEK_ERR : Field := ⟨R.SRV_ERR, 31, 24⟩
def F.SRV_ERR_WP_DROP : Field := ⟨R.SRV_ERR, 23, 16⟩
def F.SRV_ERR_MISS : Field := ⟨R.SRV_ERR, 15, 8⟩
def F.SRV_ERR_TIDPAR : Field := ⟨R.SRV_ERR, 7, 0⟩
def F.SRV_TRK_MA_WIN : Field := ⟨R.SRV_TRK, 31, 24⟩
def F.SRV_TRK_MA_RAMP : Field := ⟨R.SRV_TRK, 23, 20⟩
def F.SRV_TRK_HMISS : Field := ⟨R.SRV_TRK, 19, 16⟩
def F.SRV_TRK_ARM_MISS : Field := ⟨R.SRV_TRK, 15, 8⟩
def F.SRV_TRK_WREARM : Field := ⟨R.SRV_TRK, 7, 4⟩
def F.SRV_LOAD_LOAD_I : Field := ⟨R.SRV_LOAD, 31, 16⟩
def F.SRV_LOAD_LOAD_MIN : Field := ⟨R.SRV_LOAD, 12, 8⟩
def F.SRV_LOAD_LOAD_TMO : Field := ⟨R.SRV_LOAD, 7, 0⟩
def F.SRV_COEF_VALUE : Field := ⟨R.SRV_COEF, 15, 0⟩
def F.SRV_HCFG_WLIM : Field := ⟨R.SRV_HCFG, 31, 24⟩
def F.SRV_HCFG_HOFS : Field := ⟨R.SRV_HCFG, 23, 16⟩
def F.SRV_HCFG_MGAIN : Field := ⟨R.SRV_HCFG, 11, 0⟩
def F.SRV_HST_STATE : Field := ⟨R.SRV_HST, 31, 30⟩
def F.SRV_HST_MA_SAT : Field := ⟨R.SRV_HST, 29, 29⟩
def F.SRV_HST_LOCK : Field := ⟨R.SRV_HST, 28, 28⟩
def F.SRV_HST_MISS : Field := ⟨R.SRV_HST, 27, 24⟩
def F.SRV_HST_UCMD : Field := ⟨R.SRV_HST, 23, 12⟩
def F.SRV_HST_PES : Field := ⟨R.SRV_HST, 11, 0⟩
def F.SRV_SEEKTAB_MAX : Field := ⟨R.SRV_SEEKTAB, 31, 16⟩
def F.SRV_SEEKTAB_MEAN : Field := ⟨R.SRV_SEEKTAB, 15, 0⟩
def F.SRV_FMT_SGW : Field := ⟨R.SRV_FMT, 31, 24⟩
def F.SRV_FMT_PRE_S : Field := ⟨R.SRV_FMT, 23, 16⟩
def F.SRV_FMT_BLEN : Field := ⟨R.SRV_FMT, 15, 8⟩
def F.SRV_FMT_SPER : Field := ⟨R.SRV_FMT, 4, 0⟩
def F.SRV_SAM_PAT : Field := ⟨R.SRV_SAM, 15, 0⟩
def F.SRV_RRO_BASE_ADDR : Field := ⟨R.SRV_RRO_BASE, 31, 16⟩
def F.SRV_WEDGES_WEDGES : Field := ⟨R.SRV_WEDGES, 9, 0⟩
def F.SRV_THETA_REV : Field := ⟨R.SRV_THETA, 63, 32⟩
def F.SRV_THETA_SRC : Field := ⟨R.SRV_THETA, 17, 16⟩
def F.SRV_THETA_THETA : Field := ⟨R.SRV_THETA, 15, 0⟩
def F.SRV_SHK_CTL_BTAU : Field := ⟨R.SRV_SHK_CTL, 31, 24⟩
def F.SRV_SHK_CTL_QUIET : Field := ⟨R.SRV_SHK_CTL, 23, 16⟩
def F.SRV_SHK_CTL_STUCK_MIN : Field := ⟨R.SRV_SHK_CTL, 15, 10⟩
def F.SRV_SHK_CTL_STUCK_PP : Field := ⟨R.SRV_SHK_CTL, 9, 8⟩
def F.SRV_SHK_CTL_STUCK_POLICY : Field := ⟨R.SRV_SHK_CTL, 7, 7⟩
def F.SRV_SHK_CTL_FF_EN : Field := ⟨R.SRV_SHK_CTL, 6, 6⟩
def F.SRV_SHK_CTL_EN : Field := ⟨R.SRV_SHK_CTL, 4, 0⟩
def F.SRV_SHK_STAT_EPISODES : Field := ⟨R.SRV_SHK_STAT, 31, 16⟩
def F.SRV_SHK_STAT_STUCK : Field := ⟨R.SRV_SHK_STAT, 14, 10⟩
def F.SRV_SHK_STAT_OFS_VIB : Field := ⟨R.SRV_SHK_STAT, 9, 9⟩
def F.SRV_SHK_STAT_INIT : Field := ⟨R.SRV_SHK_STAT, 8, 8⟩
def F.SRV_SHK_STAT_SHOCK_OK : Field := ⟨R.SRV_SHK_STAT, 7, 7⟩
def F.SRV_SHK_STAT_OVER : Field := ⟨R.SRV_SHK_STAT, 4, 0⟩
def F.SRV_SHK_THR_REARM : Field := ⟨R.SRV_SHK_THR, 23, 12⟩
def F.SRV_SHK_THR_TRIP : Field := ⟨R.SRV_SHK_THR, 11, 0⟩
def F.SRV_SHK_BASE_PEAK : Field := ⟨R.SRV_SHK_BASE, 31, 16⟩
def F.SRV_SHK_BASE_BASE : Field := ⟨R.SRV_SHK_BASE, 11, 0⟩
def F.SPM_CTL_AUTO_RESTART : Field := ⟨R.SPM_CTL, 2, 2⟩
def F.SPM_CTL_STOP : Field := ⟨R.SPM_CTL, 1, 1⟩
def F.SPM_CTL_START : Field := ⟨R.SPM_CTL, 0, 0⟩
def F.SPM_STAT_FAIL : Field := ⟨R.SPM_STAT, 23, 20⟩
def F.SPM_STAT_STOP_REF : Field := ⟨R.SPM_STAT, 19, 19⟩
def F.SPM_STAT_SPIN_LOW : Field := ⟨R.SPM_STAT, 18, 18⟩
def F.SPM_STAT_VLIM : Field := ⟨R.SPM_STAT, 17, 17⟩
def F.SPM_STAT_SHIFT : Field := ⟨R.SPM_STAT, 16, 16⟩
def F.SPM_STAT_LANDED : Field := ⟨R.SPM_STAT, 15, 15⟩
def F.SPM_STAT_AT_SPEED : Field := ⟨R.SPM_STAT, 14, 14⟩
def F.SPM_STAT_ATTEMPT : Field := ⟨R.SPM_STAT, 13, 11⟩
def F.SPM_STAT_STATE : Field := ⟨R.SPM_STAT, 3, 0⟩
def F.SPM_SPEED_TOL : Field := ⟨R.SPM_SPEED, 23, 14⟩
def F.SPM_SPEED_TARGET : Field := ⟨R.SPM_SPEED, 13, 0⟩
def F.SPM_MEAS_SRC : Field := ⟨R.SPM_MEAS, 31, 31⟩
def F.SPM_MEAS_DIR : Field := ⟨R.SPM_MEAS, 30, 30⟩
def F.SPM_MEAS_SPEED : Field := ⟨R.SPM_MEAS, 23, 0⟩
def F.SPM_PWM_DEAD : Field := ⟨R.SPM_PWM, 23, 16⟩
def F.SPM_PWM_PER : Field := ⟨R.SPM_PWM, 15, 0⟩
def F.SPM_MOTOR_POLE_PAIRS : Field := ⟨R.SPM_MOTOR, 31, 28⟩
def F.SPM_MOTOR_LS : Field := ⟨R.SPM_MOTOR, 27, 14⟩
def F.SPM_MOTOR_RS : Field := ⟨R.SPM_MOTOR, 13, 0⟩
def F.SPM_OBS_KP_PLL : Field := ⟨R.SPM_OBS, 23, 20⟩
def F.SPM_OBS_KI_PLL : Field := ⟨R.SPM_OBS, 19, 16⟩
def F.SPM_OBS_EMF_MIN : Field := ⟨R.SPM_OBS, 11, 0⟩
def F.SPM_START_ALIGN_STEP : Field := ⟨R.SPM_START, 31, 16⟩
def F.SPM_START_ALIGN_ANG : Field := ⟨R.SPM_START, 15, 0⟩
def F.SPM_ALIGN_T_ALIGN : Field := ⟨R.SPM_ALIGN, 27, 16⟩
def F.SPM_ALIGN_I_ALIGN : Field := ⟨R.SPM_ALIGN, 11, 0⟩
def F.SPM_RAMP_RAMP_ACC : Field := ⟨R.SPM_RAMP, 63, 48⟩
def F.SPM_RAMP_F_OLMAX : Field := ⟨R.SPM_RAMP, 47, 36⟩
def F.SPM_RAMP_F_HO : Field := ⟨R.SPM_RAMP, 35, 24⟩
def F.SPM_RAMP_I_RAMP : Field := ⟨R.SPM_RAMP, 11, 0⟩
def F.SPM_HO_HO_TMO : Field := ⟨R.SPM_HO, 31, 22⟩
def F.SPM_HO_HO_BLEND : Field := ⟨R.SPM_HO, 21, 18⟩
def F.SPM_HO_HO_CYC : Field := ⟨R.SPM_HO, 17, 14⟩
def F.SPM_HO_HO_ERR : Field := ⟨R.SPM_HO, 13, 0⟩
def F.SPM_STICK_STICK_N : Field := ⟨R.SPM_STICK, 31, 28⟩
def F.SPM_STICK_STICK_T : Field := ⟨R.SPM_STICK, 27, 20⟩
def F.SPM_STICK_I_STICK : Field := ⟨R.SPM_STICK, 11, 0⟩
def F.SPM_ILOOP_KI : Field := ⟨R.SPM_ILOOP, 31, 16⟩
def F.SPM_ILOOP_KP : Field := ⟨R.SPM_ILOOP, 15, 0⟩
def F.SPM_SLOOP_KI : Field := ⟨R.SPM_SLOOP, 31, 16⟩
def F.SPM_SLOOP_KP : Field := ⟨R.SPM_SLOOP, 15, 0⟩
def F.SPM_ILIM_OC_TRIP : Field := ⟨R.SPM_ILIM, 59, 48⟩
def F.SPM_ILIM_IQ_LAND : Field := ⟨R.SPM_ILIM, 47, 36⟩
def F.SPM_ILIM_IQ_BRAKE : Field := ⟨R.SPM_ILIM, 35, 24⟩
def F.SPM_ILIM_IQ_GEN : Field := ⟨R.SPM_ILIM, 23, 12⟩
def F.SPM_ILIM_IQ_MAX : Field := ⟨R.SPM_ILIM, 11, 0⟩
def F.SPM_GEN_V_HOLD : Field := ⟨R.SPM_GEN, 31, 20⟩
def F.SPM_GEN_GEN_MIN : Field := ⟨R.SPM_GEN, 13, 0⟩
def F.SPM_VSNS_CATCH_V : Field := ⟨R.SPM_VSNS, 23, 12⟩
def F.SPM_VSNS_STILL_V : Field := ⟨R.SPM_VSNS, 11, 0⟩
def F.SPM_ISAMP_IC : Field := ⟨R.SPM_ISAMP, 35, 24⟩
def F.SPM_ISAMP_IB : Field := ⟨R.SPM_ISAMP, 23, 12⟩
def F.SPM_ISAMP_IA : Field := ⟨R.SPM_ISAMP, 11, 0⟩
def F.SPM_ANGLE_OFS_OK : Field := ⟨R.SPM_ANGLE, 52, 52⟩
def F.SPM_ANGLE_PPIDX : Field := ⟨R.SPM_ANGLE, 51, 48⟩
def F.SPM_ANGLE_OFS : Field := ⟨R.SPM_ANGLE, 47, 32⟩
def F.SPM_ANGLE_MECH : Field := ⟨R.SPM_ANGLE, 31, 16⟩
def F.SPM_ANGLE_THETA_E : Field := ⟨R.SPM_ANGLE, 15, 0⟩
def F.SPM_PWR_MOTOR : Field := ⟨R.SPM_PWR, 15, 0⟩
def F.SPM_ERR_RETRY : Field := ⟨R.SPM_ERR, 31, 24⟩
def F.SPM_ERR_SYNC : Field := ⟨R.SPM_ERR, 23, 16⟩
def F.SPM_ERR_OC : Field := ⟨R.SPM_ERR, 15, 8⟩
def F.SPM_ERR_OVERSPEED : Field := ⟨R.SPM_ERR, 7, 0⟩
def F.SPR_CTL_STG_WAIT : Field := ⟨R.SPR_CTL, 15, 8⟩
def F.SPR_CTL_DEGR_WR : Field := ⟨R.SPR_CTL, 1, 1⟩
def F.SPR_CTL_ENABLE : Field := ⟨R.SPR_CTL, 0, 0⟩
def F.SPR_NS_BASE_ADDR : Field := ⟨R.SPR_NS_BASE, 31, 5⟩
def F.SPR_RELOC_BASE_ADDR : Field := ⟨R.SPR_RELOC_BASE, 31, 5⟩
def F.SPR_RELOC_CNT_COUNT : Field := ⟨R.SPR_RELOC_CNT, 6, 0⟩
def F.SPR_STG_HEAD_SEQ : Field := ⟨R.SPR_STG_HEAD, 63, 0⟩
def F.SPR_STG_TAIL_SEQ : Field := ⟨R.SPR_STG_TAIL, 63, 0⟩
def F.SPR_STG_STAT_AGE_WARN : Field := ⟨R.SPR_STG_STAT, 1, 1⟩
def F.SPR_STG_STAT_FULL : Field := ⟨R.SPR_STG_STAT, 0, 0⟩
def F.SPR_STG_TGEN_GEN : Field := ⟨R.SPR_STG_TGEN, 39, 0⟩
def F.SPR_STG_SIZE_TOTAL : Field := ⟨R.SPR_STG_SIZE, 39, 0⟩
def F.SPR_SALV_CTL_START : Field := ⟨R.SPR_SALV_CTL, 31, 31⟩
def F.SPR_SALV_CTL_PAUSE : Field := ⟨R.SPR_SALV_CTL, 30, 30⟩
def F.SPR_SALV_CTL_RESUME : Field := ⟨R.SPR_SALV_CTL, 29, 29⟩
def F.SPR_SALV_CTL_ABORT : Field := ⟨R.SPR_SALV_CTL, 28, 28⟩
def F.SPR_SALV_CTL_BATCH : Field := ⟨R.SPR_SALV_CTL, 27, 16⟩
def F.SPR_SALV_CTL_AUTO_RESUME : Field := ⟨R.SPR_SALV_CTL, 6, 6⟩
def F.SPR_SALV_CTL_ENTRY : Field := ⟨R.SPR_SALV_CTL, 5, 0⟩
def F.SPR_SALV_STAT_ERR : Field := ⟨R.SPR_SALV_STAT, 31, 24⟩
def F.SPR_SALV_STAT_STATE : Field := ⟨R.SPR_SALV_STAT, 2, 0⟩
def F.SPR_SALV_POS_POS : Field := ⟨R.SPR_SALV_POS, 31, 0⟩
def F.SPR_SALV_CNT_LOST : Field := ⟨R.SPR_SALV_CNT, 63, 32⟩
def F.SPR_SALV_CNT_REBUILT : Field := ⟨R.SPR_SALV_CNT, 31, 0⟩
def F.SPR_LOST_BASE_ADDR : Field := ⟨R.SPR_LOST_BASE, 39, 6⟩
def F.SPR_LOST_PTR_RD : Field := ⟨R.SPR_LOST_PTR, 27, 16⟩
def F.SPR_LOST_PTR_WR : Field := ⟨R.SPR_LOST_PTR, 11, 0⟩
def F.SPR_CRUISE_CTL_EN : Field := ⟨R.SPR_CRUISE_CTL, 31, 31⟩
def F.SPR_CRUISE_CTL_MSE_REF : Field := ⟨R.SPR_CRUISE_CTL, 23, 16⟩
def F.SPR_CRUISE_CTL_LAD_REF : Field := ⟨R.SPR_CRUISE_CTL, 15, 12⟩
def F.SPR_CRUISE_PER_HOURS : Field := ⟨R.SPR_CRUISE_PER, 15, 0⟩
def F.SPR_CRUISE_POS_PASS : Field := ⟨R.SPR_CRUISE_POS, 63, 40⟩
def F.SPR_CRUISE_POS_POS : Field := ⟨R.SPR_CRUISE_POS, 39, 0⟩
def F.SPR_CRUISE_CNT_LOSS : Field := ⟨R.SPR_CRUISE_CNT, 63, 48⟩
def F.SPR_CRUISE_CNT_MISMATCH : Field := ⟨R.SPR_CRUISE_CNT, 47, 32⟩
def F.SPR_CRUISE_CNT_REBUILD : Field := ⟨R.SPR_CRUISE_CNT, 31, 16⟩
def F.SPR_CRUISE_CNT_WEAK : Field := ⟨R.SPR_CRUISE_CNT, 15, 0⟩
def F.SPR_ERR_STALE : Field := ⟨R.SPR_ERR, 31, 24⟩
def F.SPR_ERR_REBUILT : Field := ⟨R.SPR_ERR, 23, 16⟩
def F.SPR_ERR_UNREC : Field := ⟨R.SPR_ERR, 15, 8⟩
def F.SPR_ERR_REISSUE : Field := ⟨R.SPR_ERR, 7, 0⟩
def F.SPR_RING_BASE_ADDR : Field := ⟨R.SPR_RING_BASE, 31, 6⟩
def F.SPR_RING_CTL_NEXT : Field := ⟨R.SPR_RING_CTL, 19, 8⟩
def F.SPR_RING_CTL_SIZE : Field := ⟨R.SPR_RING_CTL, 3, 0⟩
def F.SPR_RING_DB_DB : Field := ⟨R.SPR_RING_DB, 31, 0⟩
def F.VFW_ID_NVEC : Field := ⟨R.VFW_ID, 23, 12⟩
def F.VFW_ID_FN : Field := ⟨R.VFW_ID, 7, 0⟩
def F.VFW_STAT_POIS_IN : Field := ⟨R.VFW_STAT, 31, 16⟩
def F.VFW_STAT_POIS_SQE : Field := ⟨R.VFW_STAT, 4, 4⟩
def F.VFW_STAT_BME_FATAL : Field := ⟨R.VFW_STAT, 3, 3⟩
def F.VFW_STAT_STALL : Field := ⟨R.VFW_STAT, 2, 2⟩
def F.VFW_STAT_D3 : Field := ⟨R.VFW_STAT, 1, 1⟩
def F.VFW_STAT_INTMODE_ERR : Field := ⟨R.VFW_STAT, 0, 0⟩
def F.VFW_TIME_TIME : Field := ⟨R.VFW_TIME, 63, 0⟩
def F.HIF_LINK_CAP_SRIS : Field := ⟨R.HIF_LINK_CAP, 8, 8⟩
def F.HIF_LINK_CAP_MAXWID : Field := ⟨R.HIF_LINK_CAP, 6, 4⟩
def F.HIF_LINK_CAP_MAXSPD : Field := ⟨R.HIF_LINK_CAP, 3, 0⟩
def F.HIF_LINK_STAT_LSTATE : Field := ⟨R.HIF_LINK_STAT, 11, 8⟩
def F.HIF_LINK_STAT_FLIT : Field := ⟨R.HIF_LINK_STAT, 7, 7⟩
def F.HIF_LINK_STAT_WIDTH : Field := ⟨R.HIF_LINK_STAT, 6, 4⟩
def F.HIF_LINK_STAT_SPEED : Field := ⟨R.HIF_LINK_STAT, 3, 0⟩
def F.HIF_LINK_CTL_L1_IDLE : Field := ⟨R.HIF_LINK_CTL, 15, 0⟩
def F.HIF_ID_SSID : Field := ⟨R.HIF_ID, 31, 16⟩
def F.HIF_ID_SSVID : Field := ⟨R.HIF_ID, 15, 0⟩
def F.HIF_BME_LIMIT_MS : Field := ⟨R.HIF_BME_LIMIT, 15, 0⟩
def F.HIF_VF_CMBAP_SIZE : Field := ⟨R.HIF_VF_CMBAP, 2, 0⟩
def F.HIF_STALL_STALL : Field := ⟨R.HIF_STALL, 63, 0⟩
def F.HIF_FATAL_CFS : Field := ⟨R.HIF_FATAL, 63, 0⟩
def F.HIF_LINK_ERR_DOWN : Field := ⟨R.HIF_LINK_ERR, 31, 24⟩
def F.HIF_LINK_ERR_REPLAY : Field := ⟨R.HIF_LINK_ERR, 23, 16⟩
def F.HIF_LINK_ERR_RXERR : Field := ⟨R.HIF_LINK_ERR, 15, 8⟩
def F.HIF_LINK_ERR_FEC : Field := ⟨R.HIF_LINK_ERR, 7, 0⟩
def F.HIF_POISON_OUT : Field := ⟨R.HIF_POISON, 31, 16⟩
def F.HIF_POISON_IN : Field := ⟨R.HIF_POISON, 15, 0⟩
def F.DECK_CTL_PAUSE : Field := ⟨R.DECK_CTL, 2, 2⟩
def F.DECK_CTL_IO_EN : Field := ⟨R.DECK_CTL, 1, 1⟩
def F.DECK_CTL_ADMIN_EN : Field := ⟨R.DECK_CTL, 0, 0⟩
def F.DECK_STAT_PAUSED : Field := ⟨R.DECK_STAT, 31, 31⟩
def F.DECK_STAT_CFG_ERR : Field := ⟨R.DECK_STAT, 30, 30⟩
def F.DECK_STAT_ORPH_OVF : Field := ⟨R.DECK_STAT, 29, 29⟩
def F.DECK_STAT_SLOT_FREE : Field := ⟨R.DECK_STAT, 28, 16⟩
def F.DECK_STAT_CHK_FREE : Field := ⟨R.DECK_STAT, 11, 0⟩
def F.DECK_CMB_FREE : Field := ⟨R.DECK_CMB, 14, 8⟩
def F.DECK_CMB_PF_UNITS : Field := ⟨R.DECK_CMB, 6, 0⟩
def F.DECK_ORPH_CNT_COUNT : Field := ⟨R.DECK_ORPH_CNT, 8, 0⟩
def F.DECK_ERR_ORPHAN : Field := ⟨R.DECK_ERR, 31, 24⟩
def F.DECK_ERR_ABORT : Field := ⟨R.DECK_ERR, 23, 16⟩
def F.DECK_ERR_DBELL : Field := ⟨R.DECK_ERR, 15, 8⟩
def F.DECK_ERR_INVALID : Field := ⟨R.DECK_ERR, 7, 0⟩
def F.DECK_FN_CHK_MAX : Field := ⟨R.DECK_FN, 43, 32⟩
def F.DECK_FN_SLOT_MAX : Field := ⟨R.DECK_FN, 28, 16⟩
def F.DECK_FN_SLOT_MIN : Field := ⟨R.DECK_FN, 12, 0⟩
def F.DECK_FNUSE_CHOKERS : Field := ⟨R.DECK_FNUSE, 27, 16⟩
def F.DECK_FNUSE_SLOTS : Field := ⟨R.DECK_FNUSE, 12, 0⟩
def F.CHK_PORT_FIRST_UNIT : Field := ⟨R.CHK_PORT_FIRST, 44, 0⟩
def F.CHK_PORT_LAST_UNIT : Field := ⟨R.CHK_PORT_LAST, 44, 0⟩
def F.CHK_PORT_CTL_GO : Field := ⟨R.CHK_PORT_CTL, 31, 31⟩
def F.CHK_PORT_CTL_EXCL : Field := ⟨R.CHK_PORT_CTL, 30, 30⟩
def F.CHK_PORT_CTL_WAIT : Field := ⟨R.CHK_PORT_CTL, 29, 29⟩
def F.CHK_PORT_CTL_GRANTED : Field := ⟨R.CHK_PORT_CTL, 28, 28⟩
def F.CHK_PORT_CTL_ENTRY : Field := ⟨R.CHK_PORT_CTL, 27, 16⟩
def F.CHK_PORT_CTL_REFUSED : Field := ⟨R.CHK_PORT_CTL, 15, 15⟩
def F.CHK_PORT_CTL_NSID : Field := ⟨R.CHK_PORT_CTL, 8, 0⟩
def F.CHK_PORT_REL_GO : Field := ⟨R.CHK_PORT_REL, 31, 31⟩
def F.CHK_PORT_REL_ENTRY : Field := ⟨R.CHK_PORT_REL, 11, 0⟩
def F.GOV_CTL_DEC_RATIO : Field := ⟨R.GOV_CTL, 15, 8⟩
def F.GOV_CTL_GUARD : Field := ⟨R.GOV_CTL, 2, 2⟩
def F.GOV_CTL_MOTOR : Field := ⟨R.GOV_CTL, 1, 1⟩
def F.GOV_CTL_EN : Field := ⟨R.GOV_CTL, 0, 0⟩
def F.GOV_BUDGET_MAX_MW : Field := ⟨R.GOV_BUDGET, 31, 16⟩
def F.GOV_BUDGET_HOST_MW : Field := ⟨R.GOV_BUDGET, 15, 0⟩
def F.GOV_STAT_EFF_MW : Field := ⟨R.GOV_STAT, 31, 16⟩
def F.GOV_STAT_CFG_ERR : Field := ⟨R.GOV_STAT, 3, 3⟩
def F.GOV_STAT_DERATED : Field := ⟨R.GOV_STAT, 2, 2⟩
def F.GOV_STAT_SOLO : Field := ⟨R.GOV_STAT, 1, 1⟩
def F.GOV_STAT_OVER : Field := ⟨R.GOV_STAT, 0, 0⟩
def F.GOV_POWER_HELD_MW : Field := ⟨R.GOV_POWER, 31, 16⟩
def F.GOV_POWER_FLOOR_MW : Field := ⟨R.GOV_POWER, 15, 0⟩
def F.GOV_MEAS_TOTAL_MW : Field := ⟨R.GOV_MEAS, 15, 0⟩
def F.GOV_DERATE_DIE_KNEE : Field := ⟨R.GOV_DERATE, 31, 24⟩
def F.GOV_DERATE_ENC_KNEE : Field := ⟨R.GOV_DERATE, 23, 16⟩
def F.GOV_DERATE_DIE_SLOPE : Field := ⟨R.GOV_DERATE, 15, 8⟩
def F.GOV_DERATE_ENC_SLOPE : Field := ⟨R.GOV_DERATE, 7, 0⟩
def F.GOV_TEMP_ENC : Field := ⟨R.GOV_TEMP, 31, 16⟩
def F.GOV_TEMP_DIE : Field := ⟨R.GOV_TEMP, 15, 0⟩
def F.GOV_AGE_URGENT_MS : Field := ⟨R.GOV_AGE, 31, 0⟩
def F.GOV_SCH_SEEK_DEF : Field := ⟨R.GOV_SCH, 47, 32⟩
def F.GOV_SCH_DECIDE : Field := ⟨R.GOV_SCH, 31, 24⟩
def F.GOV_SCH_MARGIN : Field := ⟨R.GOV_SCH, 23, 16⟩
def F.GOV_SCH_SLACK : Field := ⟨R.GOV_SCH, 15, 0⟩
def F.GOV_BG_SALVAGE : Field := ⟨R.GOV_BG, 31, 24⟩
def F.GOV_BG_CRUISE : Field := ⟨R.GOV_BG, 23, 16⟩
def F.GOV_BG_LOG : Field := ⟨R.GOV_BG, 15, 8⟩
def F.GOV_BG_DESTAGE : Field := ⟨R.GOV_BG, 7, 0⟩
def F.GOV_PRESS_EARLY : Field := ⟨R.GOV_PRESS, 16, 16⟩
def F.GOV_PRESS_BOOST : Field := ⟨R.GOV_PRESS, 15, 8⟩
def F.GOV_PRESS_CACHE_HI : Field := ⟨R.GOV_PRESS, 7, 0⟩
def F.GOV_ERR_URGENT : Field := ⟨R.GOV_ERR, 31, 24⟩
def F.GOV_ERR_NOFIT : Field := ⟨R.GOV_ERR, 23, 16⟩
def F.GOV_ERR_SOLO : Field := ⟨R.GOV_ERR, 15, 8⟩
def F.GOV_ERR_OVER : Field := ⟨R.GOV_ERR, 7, 0⟩
def F.GOV_ARM_SEEK_MW : Field := ⟨R.GOV_ARM, 31, 16⟩
def F.GOV_ARM_WR_MW : Field := ⟨R.GOV_ARM, 15, 0⟩
def F.GOV_FN_URG : Field := ⟨R.GOV_FN, 16, 16⟩
def F.GOV_FN_WEIGHT : Field := ⟨R.GOV_FN, 15, 0⟩
def F.LND_CTL_START : Field := ⟨R.LND_CTL, 0, 0⟩
def F.LND_CFG_RATE : Field := ⟨R.LND_CFG, 5, 4⟩
def F.LND_CFG_SIZE : Field := ⟨R.LND_CFG, 1, 0⟩
def F.LND_STAT_STEP : Field := ⟨R.LND_STAT, 15, 12⟩
def F.LND_STAT_CH_FAIL : Field := ⟨R.LND_STAT, 9, 8⟩
def F.LND_STAT_STATE : Field := ⟨R.LND_STAT, 2, 0⟩
def F.LND_FILL_BASE_VALUE : Field := ⟨R.LND_FILL_BASE, 39, 6⟩
def F.LND_FILL_LEN_VALUE : Field := ⟨R.LND_FILL_LEN, 39, 6⟩
def F.LND_FILL_CTL_GO : Field := ⟨R.LND_FILL_CTL, 31, 31⟩
def F.LND_FILL_CTL_DONE : Field := ⟨R.LND_FILL_CTL, 30, 30⟩
def F.LND_PROT_BASE : Field := ⟨R.LND_PROT, 51, 32⟩
def F.LND_PROT_SIZE : Field := ⟨R.LND_PROT, 7, 0⟩
def F.LND_SCRUB_RNG_LAST : Field := ⟨R.LND_SCRUB_RNG, 51, 32⟩
def F.LND_SCRUB_RNG_FIRST : Field := ⟨R.LND_SCRUB_RNG, 19, 0⟩
def F.LND_SCRUB_CTL_EN : Field := ⟨R.LND_SCRUB_CTL, 31, 31⟩
def F.LND_SCRUB_CTL_HOURS : Field := ⟨R.LND_SCRUB_CTL, 15, 0⟩
def F.LND_ECC_CNT_CE : Field := ⟨R.LND_ECC_CNT, 31, 16⟩
def F.LND_ECC_CNT_UE : Field := ⟨R.LND_ECC_CNT, 15, 8⟩
def F.LND_ECC_CNT_RMW_UE : Field := ⟨R.LND_ECC_CNT, 7, 0⟩
def F.LND_ECC_ADDR_VALID : Field := ⟨R.LND_ECC_ADDR, 63, 63⟩
def F.LND_ECC_ADDR_ADDR : Field := ⟨R.LND_ECC_ADDR, 39, 6⟩
def F.LND_MRG_INUSE : Field := ⟨R.LND_MRG, 13, 8⟩
def F.LND_MRG_AGE : Field := ⟨R.LND_MRG, 7, 0⟩
def F.LND_FFENCE_LINES : Field := ⟨R.LND_FFENCE, 55, 48⟩
def F.LND_FFENCE_ADDR : Field := ⟨R.LND_FFENCE, 39, 6⟩
def F.LND_FFENCE_BUSY : Field := ⟨R.LND_FFENCE, 3, 3⟩
def F.LND_FFENCE_OP : Field := ⟨R.LND_FFENCE, 2, 0⟩
def F.LND_RMAP_VALID : Field := ⟨R.LND_RMAP, 63, 63⟩
def F.LND_RMAP_COPY : Field := ⟨R.LND_RMAP, 62, 62⟩
def F.LND_RMAP_CLEAR : Field := ⟨R.LND_RMAP, 61, 61⟩
def F.LND_RMAP_ADDR : Field := ⟨R.LND_RMAP, 39, 13⟩
def F.YRD_CTL_ENABLE : Field := ⟨R.YRD_CTL, 0, 0⟩
def F.YRD_STAT_CHUNK_FREE : Field := ⟨R.YRD_STAT, 6, 0⟩
def F.YRD_HALT_HALTED : Field := ⟨R.YRD_HALT, 31, 0⟩
def F.YRD_ERR_HOST : Field := ⟨R.YRD_ERR, 31, 24⟩
def F.YRD_ERR_POISON : Field := ⟨R.YRD_ERR, 23, 16⟩
def F.YRD_ERR_BUS : Field := ⟨R.YRD_ERR, 15, 8⟩
def F.YRD_ERR_DESC : Field := ⟨R.YRD_ERR, 7, 0⟩
def F.YRD_CH_BASE_ADDR : Field := ⟨R.YRD_CH_BASE, 31, 6⟩
def F.YRD_CH_CTL_RESET : Field := ⟨R.YRD_CH_CTL, 31, 31⟩
def F.YRD_CH_CTL_RESUME : Field := ⟨R.YRD_CH_CTL, 30, 30⟩
def F.YRD_CH_CTL_OWNER : Field := ⟨R.YRD_CH_CTL, 16, 16⟩
def F.YRD_CH_CTL_CHUNKS : Field := ⟨R.YRD_CH_CTL, 11, 8⟩
def F.YRD_CH_CTL_PRI : Field := ⟨R.YRD_CH_CTL, 7, 6⟩
def F.YRD_CH_CTL_HALT_ERR : Field := ⟨R.YRD_CH_CTL, 5, 5⟩
def F.YRD_CH_CTL_ENABLE : Field := ⟨R.YRD_CH_CTL, 4, 4⟩
def F.YRD_CH_CTL_SIZE : Field := ⟨R.YRD_CH_CTL, 3, 0⟩
def F.YRD_CH_DB_DB : Field := ⟨R.YRD_CH_DB, 31, 0⟩
def F.YRD_CH_STAT_NEXT : Field := ⟨R.YRD_CH_STAT, 27, 16⟩
def F.YRD_CH_STAT_HELD : Field := ⟨R.YRD_CH_STAT, 12, 8⟩
def F.YRD_CH_STAT_STALL : Field := ⟨R.YRD_CH_STAT, 2, 2⟩
def F.YRD_CH_STAT_HALTED : Field := ⟨R.YRD_CH_STAT, 1, 1⟩
def F.YRD_CH_STAT_BUSY : Field := ⟨R.YRD_CH_STAT, 0, 0⟩
def F.TLY_CTL_PERIOD : Field := ⟨R.TLY_CTL, 15, 0⟩
def F.TLY_SCALE_GO : Field := ⟨R.TLY_SCALE, 31, 31⟩
def F.TLY_EPOCH_EPOCH : Field := ⟨R.TLY_EPOCH, 31, 0⟩
def F.TLY_SHD_PCY_PCYCLE : Field := ⟨R.TLY_SHD_PCY, 23, 0⟩
def F.TLY_SHD_TIME_TIME : Field := ⟨R.TLY_SHD_TIME, 63, 0⟩
def F.TLY_XING_LATE : Field := ⟨R.TLY_XING, 31, 16⟩
def F.TLY_XING_PEND : Field := ⟨R.TLY_XING, 0, 0⟩
def F.TLY_LIVE_COUNT : Field := ⟨R.TLY_LIVE, 63, 0⟩
def F.TLY_SHD_COUNT : Field := ⟨R.TLY_SHD, 63, 0⟩
def F.TLY_DLIVE_COUNT : Field := ⟨R.TLY_DLIVE, 63, 0⟩
def F.TLY_DSHD_COUNT : Field := ⟨R.TLY_DSHD, 63, 0⟩
def F.BLZ_CTL_REPEAT_EN : Field := ⟨R.BLZ_CTL, 1, 1⟩
def F.BLZ_CTL_EN : Field := ⟨R.BLZ_CTL, 0, 0⟩
def F.BLZ_STAT_DROP : Field := ⟨R.BLZ_STAT, 31, 16⟩
def F.BLZ_STAT_QUEUE : Field := ⟨R.BLZ_STAT, 15, 8⟩
def F.BLZ_STAT_ERASING : Field := ⟨R.BLZ_STAT, 7, 7⟩
def F.BLZ_STAT_NOR_ERR : Field := ⟨R.BLZ_STAT, 6, 6⟩
def F.BLZ_STAT_STATE : Field := ⟨R.BLZ_STAT, 1, 0⟩
def F.BLZ_SEQ_SEQ : Field := ⟨R.BLZ_SEQ, 31, 0⟩
def F.BLZ_NEXT_PERM : Field := ⟨R.BLZ_NEXT, 13, 13⟩
def F.BLZ_NEXT_SLOT : Field := ⟨R.BLZ_NEXT, 12, 0⟩
def F.BLZ_TIME_PCYCLE : Field := ⟨R.BLZ_TIME, 63, 40⟩
def F.BLZ_TIME_SECONDS : Field := ⟨R.BLZ_TIME, 39, 0⟩
def F.BLZ_SEL_SEL : Field := ⟨R.BLZ_SEL, 31, 0⟩
def F.BLZ_POST_DATA_DATA : Field := ⟨R.BLZ_POST_DATA, 63, 0⟩
def F.BLZ_POST_CTL_GO : Field := ⟨R.BLZ_POST_CTL, 31, 31⟩
def F.BLZ_POST_CTL_DROPPED : Field := ⟨R.BLZ_POST_CTL, 30, 30⟩
def F.BLZ_POST_CTL_CLASS : Field := ⟨R.BLZ_POST_CTL, 11, 9⟩
def F.BLZ_POST_CTL_SRC : Field := ⟨R.BLZ_POST_CTL, 8, 0⟩
def F.EVT_PEND_PEND : Field := ⟨R.EVT_PEND, 31, 0⟩
def F.EVT_EN_EN : Field := ⟨R.EVT_EN, 31, 0⟩
def F.EVT_CLAIM_VALID : Field := ⟨R.EVT_CLAIM, 31, 31⟩
def F.EVT_CLAIM_SRC : Field := ⟨R.EVT_CLAIM, 8, 0⟩
def F.EVT_SWSET_SET : Field := ⟨R.EVT_SWSET, 15, 0⟩
def F.FLT_CTL_FC3_ESC : Field := ⟨R.FLT_CTL, 2, 2⟩
def F.FLT_CTL_INJ_EN : Field := ⟨R.FLT_CTL, 1, 1⟩
def F.FLT_CTL_SELF : Field := ⟨R.FLT_CTL, 0, 0⟩
def F.FLT_STAT_SELF_ERR : Field := ⟨R.FLT_STAT, 17, 17⟩
def F.FLT_STAT_SAFE : Field := ⟨R.FLT_STAT, 16, 16⟩
def F.FLT_STAT_PENDING : Field := ⟨R.FLT_STAT, 12, 8⟩
def F.FLT_STAT_ACTIVE : Field := ⟨R.FLT_STAT, 4, 0⟩
def F.FLT_ACK_ACK : Field := ⟨R.FLT_ACK, 4, 0⟩
def F.FLT_CLR_CLR : Field := ⟨R.FLT_CLR, 4, 0⟩
def F.FLT_FC3_ACTIVE : Field := ⟨R.FLT_FC3, 63, 0⟩
def F.FLT_FC3_PEND_PEND : Field := ⟨R.FLT_FC3_PEND, 63, 0⟩
def F.FLT_FC3_ACK_ACK : Field := ⟨R.FLT_FC3_ACK, 63, 0⟩
def F.FLT_INJ_ARM : Field := ⟨R.FLT_INJ, 31, 31⟩
def F.FLT_INJ_FIRED : Field := ⟨R.FLT_INJ, 30, 30⟩
def F.FLT_INJ_MODE : Field := ⟨R.FLT_INJ, 11, 10⟩
def F.FLT_INJ_BITS : Field := ⟨R.FLT_INJ, 9, 8⟩
def F.FLT_INJ_CHK : Field := ⟨R.FLT_INJ, 7, 0⟩
def F.FLT_THERM_ENC_HOT : Field := ⟨R.FLT_THERM, 23, 16⟩
def F.FLT_THERM_TRIP : Field := ⟨R.FLT_THERM, 15, 8⟩
def F.FLT_THERM_HOT : Field := ⟨R.FLT_THERM, 7, 0⟩
def F.FLT_SELF_STAT_VALID : Field := ⟨R.FLT_SELF_STAT, 31, 31⟩
def F.FLT_SELF_STAT_CHK : Field := ⟨R.FLT_SELF_STAT, 3, 0⟩
def F.FLT_RING_PTR_WRAPPED : Field := ⟨R.FLT_RING_PTR, 6, 6⟩
def F.FLT_RING_PTR_WR : Field := ⟨R.FLT_RING_PTR, 5, 0⟩
def F.FLT_FSEQ_FSEQ : Field := ⟨R.FLT_FSEQ, 31, 0⟩
def F.FLT_FIRST_CAPTURE : Field := ⟨R.FLT_FIRST, 63, 0⟩
def F.FLT_FNCAP_CAPTURE : Field := ⟨R.FLT_FNCAP, 63, 0⟩
def F.FLT_RING_CAPTURE : Field := ⟨R.FLT_RING, 63, 0⟩
def F.FLT_CHK_COUNT : Field := ⟨R.FLT_CHK, 47, 32⟩
def F.FLT_CHK_TRANSIENT : Field := ⟨R.FLT_CHK, 11, 11⟩
def F.FLT_CHK_LIVE : Field := ⟨R.FLT_CHK, 10, 10⟩
def F.FLT_CHK_LATCHED : Field := ⟨R.FLT_CHK, 9, 9⟩
def F.FLT_CHK_KIND : Field := ⟨R.FLT_CHK, 8, 8⟩
def F.FLT_CHK_BASE : Field := ⟨R.FLT_CHK, 6, 4⟩
def F.FLT_CHK_ESC : Field := ⟨R.FLT_CHK, 1, 1⟩
def F.FLT_CHK_EN : Field := ⟨R.FLT_CHK, 0, 0⟩
def F.MGT_CTL_SAVE_S : Field := ⟨R.MGT_CTL, 31, 16⟩
def F.MGT_CTL_FUSE_EN : Field := ⟨R.MGT_CTL, 2, 2⟩
def F.MGT_CTL_WEAR_EN : Field := ⟨R.MGT_CTL, 1, 1⟩
def F.MGT_STAT_REVOKED : Field := ⟨R.MGT_STAT, 19, 16⟩
def F.MGT_STAT_SVN : Field := ⟨R.MGT_STAT, 15, 8⟩
def F.MGT_STAT_RC_TIME : Field := ⟨R.MGT_STAT, 4, 4⟩
def F.MGT_STAT_RECOVERY : Field := ⟨R.MGT_STAT, 3, 3⟩
def F.MGT_STAT_BOOT_SLOT : Field := ⟨R.MGT_STAT, 2, 0⟩
def F.MGT_WDT_KICK : Field := ⟨R.MGT_WDT, 31, 31⟩
def F.MGT_WDT_EN : Field := ⟨R.MGT_WDT, 16, 16⟩
def F.MGT_WDT_TMO : Field := ⟨R.MGT_WDT, 15, 0⟩
def F.MGT_FUSE_GO : Field := ⟨R.MGT_FUSE, 31, 31⟩
def F.MGT_FUSE_DONE : Field := ⟨R.MGT_FUSE, 30, 30⟩
def F.MGT_FUSE_FAIL : Field := ⟨R.MGT_FUSE, 29, 29⟩
def F.MGT_FUSE_SVN : Field := ⟨R.MGT_FUSE, 22, 16⟩
def F.MGT_FUSE_KEY : Field := ⟨R.MGT_FUSE, 9, 8⟩
def F.MGT_FUSE_OP : Field := ⟨R.MGT_FUSE, 0, 0⟩
def F.MGT_ACT_GO : Field := ⟨R.MGT_ACT, 31, 31⟩
def F.MGT_ACT_DONE : Field := ⟨R.MGT_ACT, 30, 30⟩
def F.MGT_ACT_REVERTED : Field := ⟨R.MGT_ACT, 29, 29⟩
def F.MGT_ACT_TMO : Field := ⟨R.MGT_ACT, 15, 0⟩
def F.MGT_ACT_BUF_ADDR : Field := ⟨R.MGT_ACT_BUF, 39, 24⟩
def F.MGT_MI_EN : Field := ⟨R.MGT_MI, 31, 31⟩
def F.MGT_MI_FAST : Field := ⟨R.MGT_MI, 7, 7⟩
def F.MGT_MI_ADDR : Field := ⟨R.MGT_MI, 6, 0⟩
def F.MGT_LWIN_BASE : Field := ⟨R.MGT_LWIN, 2, 0⟩
def F.MGT_TEMP_TEMP : Field := ⟨R.MGT_TEMP, 15, 0⟩
def F.MGT_THM_EN : Field := ⟨R.MGT_THM, 31, 31⟩
def F.MGT_THM_OPEN : Field := ⟨R.MGT_THM, 30, 30⟩
def F.MGT_THM_BETA : Field := ⟨R.MGT_THM, 29, 16⟩
def F.MGT_THM_TEMP : Field := ⟨R.MGT_THM, 15, 0⟩
def F.MGT_MON_HI : Field := ⟨R.MGT_MON, 63, 52⟩
def F.MGT_MON_LO : Field := ⟨R.MGT_MON, 51, 40⟩
def F.MGT_MON_ISCALE : Field := ⟨R.MGT_MON, 39, 24⟩
def F.MGT_MON_I : Field := ⟨R.MGT_MON, 23, 12⟩
def F.MGT_MON_V : Field := ⟨R.MGT_MON, 11, 0⟩
def F.MGT_RO_SLOW : Field := ⟨R.MGT_RO, 15, 0⟩
def F.CFG_CTL_BLOB_DONE : Field := ⟨R.CFG_CTL, 1, 1⟩
def F.CFG_CTL_LOCK : Field := ⟨R.CFG_CTL, 0, 0⟩
def F.CFG_STAT_GEN : Field := ⟨R.CFG_STAT, 31, 8⟩
def F.CFG_STAT_FUSE_BAD : Field := ⟨R.CFG_STAT, 5, 5⟩
def F.CFG_STAT_DEFAULTED : Field := ⟨R.CFG_STAT, 4, 4⟩
def F.CFG_STAT_B_BAD : Field := ⟨R.CFG_STAT, 3, 3⟩
def F.CFG_STAT_A_BAD : Field := ⟨R.CFG_STAT, 2, 2⟩
def F.CFG_STAT_SELECTED : Field := ⟨R.CFG_STAT, 1, 1⟩
def F.CFG_STAT_LOCKED : Field := ⟨R.CFG_STAT, 0, 0⟩
def F.CFG_TXN_CTL_GO : Field := ⟨R.CFG_TXN_CTL, 31, 31⟩
def F.CFG_TXN_CTL_ACT : Field := ⟨R.CFG_TXN_CTL, 2, 0⟩
def F.CFG_TXN_ID_TXID : Field := ⟨R.CFG_TXN_ID, 31, 0⟩
def F.CFG_TXN_STAT_ITEM : Field := ⟨R.CFG_TXN_STAT, 31, 16⟩
def F.CFG_TXN_STAT_ERR : Field := ⟨R.CFG_TXN_STAT, 15, 8⟩
def F.CFG_TXN_STAT_OWNER : Field := ⟨R.CFG_TXN_STAT, 4, 4⟩
def F.CFG_TXN_STAT_REBOOT : Field := ⟨R.CFG_TXN_STAT, 3, 3⟩
def F.CFG_TXN_STAT_STATE : Field := ⟨R.CFG_TXN_STAT, 2, 0⟩
def F.CFG_TXN_BUF_VALUE : Field := ⟨R.CFG_TXN_BUF, 31, 0⟩
def F.CFG_TXN_LEN_VALUE : Field := ⟨R.CFG_TXN_LEN, 31, 0⟩
def F.CFG_TXN_TMO_MS : Field := ⟨R.CFG_TXN_TMO, 31, 0⟩
def F.CPR_CLK_BKO : Field := ⟨R.CPR_CLK, 4, 4⟩
def F.CPR_CLK_CORE_DIV : Field := ⟨R.CPR_CLK, 3, 0⟩
def F.CPR_SSC_DR_RATE : Field := ⟨R.CPR_SSC, 14, 12⟩
def F.CPR_SSC_DR_DEPTH : Field := ⟨R.CPR_SSC, 11, 8⟩
def F.CPR_SSC_CF_RATE : Field := ⟨R.CPR_SSC, 6, 4⟩
def F.CPR_SSC_CF_DEPTH : Field := ⟨R.CPR_SSC, 3, 0⟩
def F.CPR_CLKMON_HOLDOVER : Field := ⟨R.CPR_CLKMON, 16, 16⟩
def F.CPR_CLKMON_SEEN : Field := ⟨R.CPR_CLKMON, 13, 8⟩
def F.CPR_CLKMON_LOST : Field := ⟨R.CPR_CLKMON, 5, 0⟩
def F.CPR_PD_PERST_MS : Field := ⟨R.CPR_PD, 31, 16⟩
def F.CPR_PD_WAKE : Field := ⟨R.CPR_PD, 10, 10⟩
def F.CPR_PD_AON_OK : Field := ⟨R.CPR_PD, 9, 9⟩
def F.CPR_PD_STANDBY : Field := ⟨R.CPR_PD, 8, 8⟩
def F.CPR_PD_ARM_ON : Field := ⟨R.CPR_PD, 3, 0⟩
def F.CPR_PD_STAT_LEVEL : Field := ⟨R.CPR_PD_STAT, 9, 8⟩
def F.CPR_PD_STAT_DRAM_SR : Field := ⟨R.CPR_PD_STAT, 7, 7⟩
def F.CPR_PD_STAT_FAB_RET : Field := ⟨R.CPR_PD_STAT, 6, 6⟩
def F.CPR_PD_STAT_ARM_UP : Field := ⟨R.CPR_PD_STAT, 3, 0⟩
def F.CPR_RST_WARM_CNT : Field := ⟨R.CPR_RST, 31, 24⟩
def F.CPR_RST_CAUSE : Field := ⟨R.CPR_RST, 9, 8⟩
def F.CPR_RST_LY : Field := ⟨R.CPR_RST, 1, 1⟩
def F.CPR_RST_WARM : Field := ⟨R.CPR_RST, 0, 0⟩
def F.CPR_RETRACT_CAUSE : Field := ⟨R.CPR_RETRACT, 7, 3⟩
def F.CPR_RETRACT_LOW : Field := ⟨R.CPR_RETRACT, 2, 2⟩
def F.CPR_RETRACT_REL : Field := ⟨R.CPR_RETRACT, 1, 1⟩
def F.CPR_RETRACT_SET : Field := ⟨R.CPR_RETRACT, 0, 0⟩
def F.CPR_PL_LOSS : Field := ⟨R.CPR_PL, 16, 16⟩
def F.CPR_PL_PWRFAIL_EN : Field := ⟨R.CPR_PL, 13, 13⟩
def F.CPR_PL_MON_EN : Field := ⟨R.CPR_PL, 12, 12⟩
def F.CPR_PL_THR : Field := ⟨R.CPR_PL, 11, 0⟩
def F.CPR_DUMP_CTL_PPB : Field := ⟨R.CPR_DUMP_CTL, 31, 20⟩
def F.CPR_DUMP_CTL_WAYS : Field := ⟨R.CPR_DUMP_CTL, 19, 16⟩
def F.CPR_DUMP_CTL_ERR : Field := ⟨R.CPR_DUMP_CTL, 15, 8⟩
def F.CPR_DUMP_CTL_STATE : Field := ⟨R.CPR_DUMP_CTL, 6, 4⟩
def F.CPR_DUMP_CTL_DONE : Field := ⟨R.CPR_DUMP_CTL, 2, 2⟩
def F.CPR_DUMP_CTL_RESTORE : Field := ⟨R.CPR_DUMP_CTL, 1, 1⟩
def F.CPR_DUMP_CTL_ARM : Field := ⟨R.CPR_DUMP_CTL, 0, 0⟩
def F.CPR_DUMP_STAT_RDERR : Field := ⟨R.CPR_DUMP_STAT, 31, 24⟩
def F.CPR_DUMP_STAT_REMAPS : Field := ⟨R.CPR_DUMP_STAT, 19, 16⟩
def F.CPR_DUMP_STAT_PAGES : Field := ⟨R.CPR_DUMP_STAT, 15, 0⟩
def F.CPR_DUMP_SEQ_DSEQ : Field := ⟨R.CPR_DUMP_SEQ, 31, 0⟩
def F.CPR_TIME_TIME : Field := ⟨R.CPR_TIME, 63, 0⟩
def F.CPR_DUMP_BLK_VALID : Field := ⟨R.CPR_DUMP_BLK, 31, 31⟩
def F.CPR_DUMP_BLK_ROW : Field := ⟨R.CPR_DUMP_BLK, 27, 0⟩

/-- Registers, part 0. -/
def regsPart0 : List RegDef := [R.SPR_GEO_BASE, R.SPR_GEO_CTL, R.SPR_GEO_STAT, R.SPR_FENCE_HEAD, R.SPR_FENCE_ARM, R.SPR_FENCE_DRAIN, R.SPR_SURF_UNREACH, R.SPR_RFENCE, R.LANE_ALK_CTL, R.LANE_ALK_STAT, R.LANE_ALK_ID, R.LANE_ALK_PERS, R.LANE_ALK_ERR, R.LANE_ALK_REG_CMD, R.LANE_ALK_REG_DATA, R.LANE_ALK_SNS, R.LANE_CTL, R.LANE_STAT, R.LANE_AFE, R.LANE_AGC, R.LANE_TGT_LO, R.LANE_TGT_MID, R.LANE_TGT_HI, R.LANE_DET, R.LANE_FIR_CTL, R.LANE_TR, R.LANE_TR_STAT, R.LANE_SYNC_PAT, R.LANE_SYNC_CTL, R.LANE_DEF]

/-- Registers, part 1. -/
def regsPart1 : List RegDef := [R.LANE_TA, R.LANE_ERA, R.LANE_RES, R.LANE_ERR, R.LANE_ADC, R.LANE_RUN, R.LANE_FIR, R.LANE_SYN_CTL, R.LANE_SYN_STAT, R.LANE_SYN_FRAC, R.LANE_PROF_BASE, R.WP_CTL, R.WP_STAT, R.WP_FMT, R.WP_SYNC_PAT, R.WP_PC, R.WP_HEAT, R.WP_RES, R.WP_ERR, R.WP_PROF_BASE, R.SPR_WGEN, R.DEC_ITER, R.DEC_ALG, R.DEC_PWR, R.DEC_FENCE, R.DEC_STAT, R.DEC_AWAKE, R.DEC_LADDER_CTL, R.DEC_BIST, R.DEC_LADDER]

/-- Registers, part 2. -/
def regsPart2 : List RegDef := [R.DEC_RES, R.DEC_CNT_OK, R.DEC_CNT_LAD, R.DEC_CNT_UNC, R.DEC_ERR, R.DEC_STEP_OK, R.SRV_CTL, R.SRV_MODE, R.SRV_TARGET, R.SRV_SEEK, R.SRV_SETTLE, R.SRV_UNLOAD, R.SRV_PARK, R.SRV_VCM, R.SRV_WPERM, R.SRV_WCNT, R.SRV_ERR, R.SRV_TRK, R.SRV_LOAD, R.SRV_COEF, R.SRV_HCFG, R.SRV_HST, R.SRV_SEEKTAB, R.SRV_FMT, R.SRV_SAM, R.SRV_RRO_BASE, R.SRV_WEDGES, R.SRV_THETA, R.SRV_SHK_CTL, R.SRV_SHK_STAT]

/-- Registers, part 3. -/
def regsPart3 : List RegDef := [R.SRV_SHK_THR, R.SRV_SHK_BASE, R.SPM_CTL, R.SPM_STAT, R.SPM_SPEED, R.SPM_MEAS, R.SPM_PWM, R.SPM_MOTOR, R.SPM_OBS, R.SPM_START, R.SPM_ALIGN, R.SPM_RAMP, R.SPM_HO, R.SPM_STICK, R.SPM_ILOOP, R.SPM_SLOOP, R.SPM_ILIM, R.SPM_GEN, R.SPM_VSNS, R.SPM_ISAMP, R.SPM_ANGLE, R.SPM_PWR, R.SPM_ERR, R.SPR_CTL, R.SPR_NS_BASE, R.SPR_RELOC_BASE, R.SPR_RELOC_CNT, R.SPR_STG_HEAD, R.SPR_STG_TAIL, R.SPR_STG_STAT]

/-- Registers, part 4. -/
def regsPart4 : List RegDef := [R.SPR_STG_TGEN, R.SPR_STG_SIZE, R.SPR_SALV_CTL, R.SPR_SALV_STAT, R.SPR_SALV_POS, R.SPR_SALV_CNT, R.SPR_LOST_BASE, R.SPR_LOST_PTR, R.SPR_CRUISE_CTL, R.SPR_CRUISE_PER, R.SPR_CRUISE_POS, R.SPR_CRUISE_CNT, R.SPR_ERR, R.SPR_RING_BASE, R.SPR_RING_CTL, R.SPR_RING_DB, R.VFW_ID, R.VFW_STAT, R.VFW_TIME, R.HIF_LINK_CAP, R.HIF_LINK_STAT, R.HIF_LINK_CTL, R.HIF_ID, R.HIF_BME_LIMIT, R.HIF_VF_CMBAP, R.HIF_STALL, R.HIF_FATAL, R.HIF_LINK_ERR, R.HIF_POISON, R.DECK_CTL]

/-- Registers, part 5. -/
def regsPart5 : List RegDef := [R.DECK_STAT, R.DECK_CMB, R.DECK_ORPH_CNT, R.DECK_ERR, R.DECK_FN, R.DECK_FNUSE, R.CHK_PORT_FIRST, R.CHK_PORT_LAST, R.CHK_PORT_CTL, R.CHK_PORT_REL, R.GOV_CTL, R.GOV_BUDGET, R.GOV_STAT, R.GOV_POWER, R.GOV_MEAS, R.GOV_DERATE, R.GOV_TEMP, R.GOV_AGE, R.GOV_SCH, R.GOV_BG, R.GOV_PRESS, R.GOV_ERR, R.GOV_ARM, R.GOV_FN, R.LND_CTL, R.LND_CFG, R.LND_STAT, R.LND_FILL_BASE, R.LND_FILL_LEN, R.LND_FILL_CTL]

/-- Registers, part 6. -/
def regsPart6 : List RegDef := [R.LND_PROT, R.LND_SCRUB_RNG, R.LND_SCRUB_CTL, R.LND_ECC_CNT, R.LND_ECC_ADDR, R.LND_MRG, R.LND_FFENCE, R.LND_RMAP, R.YRD_CTL, R.YRD_STAT, R.YRD_HALT, R.YRD_ERR, R.YRD_CH_BASE, R.YRD_CH_CTL, R.YRD_CH_DB, R.YRD_CH_STAT, R.TLY_CTL, R.TLY_SCALE, R.TLY_EPOCH, R.TLY_SHD_PCY, R.TLY_SHD_TIME, R.TLY_XING, R.TLY_LIVE, R.TLY_SHD, R.TLY_DLIVE, R.TLY_DSHD, R.BLZ_CTL, R.BLZ_STAT, R.BLZ_SEQ, R.BLZ_NEXT]

/-- Registers, part 7. -/
def regsPart7 : List RegDef := [R.BLZ_TIME, R.BLZ_SEL, R.BLZ_POST_DATA, R.BLZ_POST_CTL, R.EVT_PEND, R.EVT_EN, R.EVT_CLAIM, R.EVT_SWSET, R.FLT_CTL, R.FLT_STAT, R.FLT_ACK, R.FLT_CLR, R.FLT_FC3, R.FLT_FC3_PEND, R.FLT_FC3_ACK, R.FLT_INJ, R.FLT_THERM, R.FLT_SELF_STAT, R.FLT_RING_PTR, R.FLT_FSEQ, R.FLT_FIRST, R.FLT_FNCAP, R.FLT_RING, R.FLT_CHK, R.MGT_CTL, R.MGT_STAT, R.MGT_WDT, R.MGT_FUSE, R.MGT_ACT, R.MGT_ACT_BUF]

/-- Registers, part 8. -/
def regsPart8 : List RegDef := [R.MGT_MI, R.MGT_LWIN, R.MGT_TEMP, R.MGT_THM, R.MGT_MON, R.MGT_RO, R.CFG_CTL, R.CFG_STAT, R.CFG_TXN_CTL, R.CFG_TXN_ID, R.CFG_TXN_STAT, R.CFG_TXN_BUF, R.CFG_TXN_LEN, R.CFG_TXN_TMO, R.CPR_CLK, R.CPR_SSC, R.CPR_CLKMON, R.CPR_PD, R.CPR_PD_STAT, R.CPR_RST, R.CPR_RETRACT, R.CPR_PL, R.CPR_DUMP_CTL, R.CPR_DUMP_STAT, R.CPR_DUMP_SEQ, R.CPR_TIME, R.CPR_DUMP_BLK]

/-- Every register. -/
def allRegs : List RegDef := regsPart0 ++ regsPart1 ++ regsPart2 ++ regsPart3 ++ regsPart4 ++ regsPart5 ++ regsPart6 ++ regsPart7 ++ regsPart8

end Sys2Proof
end

