-- ==== Sys2Proof/Machine/HostRegs.lean ====
section
/-! DEFINITION. The host-visible registers of every function: configuration space, the NVMe registers of BAR0 and the MSI-X structures of
BAR4 (R286–R293, R320, R327). The spec gives their places by the PCI Express and NVM Express standards; the field places are those
standards' (log entry 8). Function f's configuration space stands at 0x1_0000_0000 + 0x1000 × f, its BAR0 at 0x2_0000_0000 + 0x10000 × f and
its BAR4 at 0x3_0000_0000 + 0x10000 × f (log entry 4). -/

namespace Sys2Proof

/-- Vendor ID and Device ID (R286). -/
def R.CFG_ID : RegDef :=
  ⟨0x100000000, 64, 0x1000, 1, 0x0, 4, fun i _ => if i = 0 then 0x74641e9c else 0xffffffff, 0x0, 0x0, 0x0, 0x0, 0x0, []⟩

/-- Command and Status. -/
def R.CFG_CMD : RegDef :=
  ⟨0x100000004, 64, 0x1000, 1, 0x0, 4, fun _ _ => 0x100000, 0x142, 0x0, 0xf9000000, 0x0, 0x0, []⟩

/-- Revision ID 0x10 and Class Code (R286). -/
def R.CFG_CLASS : RegDef :=
  ⟨0x100000008, 64, 0x1000, 1, 0x0, 4, fun _ _ => 0x1080210, 0x0, 0x0, 0x0, 0x0, 0x0, []⟩

/-- Header type. -/
def R.CFG_HDR : RegDef :=
  ⟨0x10000000c, 64, 0x1000, 1, 0x0, 4, fun _ _ => 0x0, 0x0, 0x0, 0x0, 0x0, 0x0, []⟩

/-- BAR0/1, 64 KiB (R290). -/
def R.CFG_BAR0 : RegDef :=
  ⟨0x100000010, 1, 0x1000, 1, 0x0, 8, fun i _ => if i = 0 then 0x4 else 0x0, 0xffffffffffff0000, 0x0, 0x0, 0x0, 0x0, []⟩

/-- BAR2/3, 4 MiB prefetchable (R290). -/
def R.CFG_BAR2 : RegDef :=
  ⟨0x100000018, 1, 0x1000, 1, 0x0, 8, fun i _ => if i = 0 then 0xc else 0x0, 0xffffffffffc00000, 0x0, 0x0, 0x0, 0x0, []⟩

/-- BAR4/5, 64 KiB (R290). -/
def R.CFG_BAR4 : RegDef :=
  ⟨0x100000020, 1, 0x1000, 1, 0x0, 8, fun i _ => if i = 0 then 0x4 else 0x0, 0xffffffffffff0000, 0x0, 0x0, 0x0, 0x0, []⟩

/-- Subsystem IDs; reads as HIF_ID (R286). -/
def R.CFG_SUBSYS : RegDef :=
  ⟨0x10000002c, 64, 0x1000, 1, 0x0, 4, fun _ _ => 0x0, 0x0, 0x0, 0x0, 0x0, 0x0, []⟩

/-- Capabilities pointer. -/
def R.CFG_CAPPTR : RegDef :=
  ⟨0x100000034, 64, 0x1000, 1, 0x0, 4, fun _ _ => 0x40, 0x0, 0x0, 0x0, 0x0, 0x0, []⟩

/-- Interrupt line and pin. -/
def R.CFG_INTR : RegDef :=
  ⟨0x10000003c, 64, 0x1000, 1, 0x0, 4, fun i _ => if i = 0 then 0x100 else 0x0, 0xff, 0x0, 0x0, 0x0, 0x0, []⟩

/-- Power Management capability: D0 and D3hot, no PME (R316). -/
def R.CFG_PMCAP : RegDef :=
  ⟨0x100000040, 64, 0x1000, 1, 0x0, 4, fun i _ => if i = 0 then 0x35001 else 0x37001, 0x0, 0x0, 0x0, 0x0, 0x0, []⟩

/-- PowerState, and No_Soft_Reset = 1 (R313). -/
def R.CFG_PMCSR : RegDef :=
  ⟨0x100000044, 64, 0x1000, 1, 0x0, 4, fun _ _ => 0x8, 0x0, 0x0, 0x0, 0x0, 0x0, []⟩

/-- MSI of PF0: 32 vectors, 64-bit, per-vector masking (R287). -/
def R.CFG_MSICTL : RegDef :=
  ⟨0x100000050, 1, 0x1000, 1, 0x0, 4, fun _ _ => 0x18a7005, 0x700000, 0x0, 0x0, 0x0, 0x0, []⟩

/-- MSI address. -/
def R.CFG_MSIADDR : RegDef :=
  ⟨0x100000054, 1, 0x1000, 1, 0x0, 4, fun _ _ => 0x0, 0xfffffffc, 0x0, 0x0, 0x0, 0x0, []⟩

/-- MSI upper address. -/
def R.CFG_MSIADDRU : RegDef :=
  ⟨0x100000058, 1, 0x1000, 1, 0x0, 4, fun _ _ => 0x0, 0xffffffff, 0x0, 0x0, 0x0, 0x0, []⟩

/-- MSI data. -/
def R.CFG_MSIDATA : RegDef :=
  ⟨0x10000005c, 1, 0x1000, 1, 0x0, 4, fun _ _ => 0x0, 0xffff, 0x0, 0x0, 0x0, 0x0, []⟩

/-- MSI mask bits. -/
def R.CFG_MSIMASK : RegDef :=
  ⟨0x100000060, 1, 0x1000, 1, 0x0, 4, fun _ _ => 0x0, 0xffffffff, 0x0, 0x0, 0x0, 0x0, []⟩

/-- MSI pending bits. -/
def R.CFG_MSIPEND : RegDef :=
  ⟨0x100000064, 1, 0x1000, 1, 0x0, 4, fun _ _ => 0x0, 0x0, 0x0, 0x0, 0x0, 0x0, []⟩

/-- PCI Express capability. -/
def R.CFG_PCIECAP : RegDef :=
  ⟨0x100000070, 64, 0x1000, 1, 0x0, 4, fun _ _ => 0x8002b010, 0x0, 0x0, 0x0, 0x0, 0x0, []⟩

/-- Device Capabilities: 512-byte payload, FLR (R285, R314). -/
def R.CFG_DEVCAP : RegDef :=
  ⟨0x100000074, 64, 0x1000, 1, 0x0, 4, fun _ _ => 0x10008022, 0x0, 0x0, 0x0, 0x0, 0x0, []⟩

/-- Device Control and Status. -/
def R.CFG_DEVCTL : RegDef :=
  ⟨0x100000078, 64, 0x1000, 1, 0x0, 4, fun _ _ => 0x2810, 0x7fff, 0x0, 0xf0000, 0x0, 0x8000, []⟩

/-- Link Capabilities: ASPM L1 only, exit 4–8 µs (R317). -/
def R.CFG_LINKCAP : RegDef :=
  ⟨0x10000007c, 64, 0x1000, 1, 0x0, 4, fun _ _ => 0x19846, 0x0, 0x0, 0x0, 0x0, 0x0, []⟩

/-- Link Control: ASPM control, Read Completion Boundary. -/
def R.CFG_LINKCTL : RegDef :=
  ⟨0x100000080, 64, 0x1000, 1, 0x0, 4, fun _ _ => 0x0, 0xcb, 0x0, 0x0, 0x0, 0x0, []⟩

/-- Device Capabilities 2: timeout ranges A to C, disable, 10-bit tags (R285). -/
def R.CFG_DEVCAP2 : RegDef :=
  ⟨0x100000094, 64, 0x1000, 1, 0x0, 4, fun _ _ => 0x30017, 0x0, 0x0, 0x0, 0x0, 0x0, []⟩

/-- Device Control 2: completion timeout value and disable, 10-Bit Tag Requester Enable. -/
def R.CFG_DEVCTL2 : RegDef :=
  ⟨0x100000098, 64, 0x1000, 1, 0x0, 4, fun _ _ => 0x0, 0x101f, 0x0, 0x0, 0x0, 0x0, []⟩

/-- Link Capabilities 2: the rates advertised (R282, R283). -/
def R.CFG_LINKCAP2 : RegDef :=
  ⟨0x10000009c, 64, 0x1000, 1, 0x0, 4, fun _ _ => 0x7e, 0x0, 0x0, 0x0, 0x0, 0x0, []⟩

/-- MSI-X: Table Size, Function Mask and Enable (R293). -/
def R.CFG_MSIXCTL : RegDef :=
  ⟨0x1000000b0, 64, 0x1000, 1, 0x0, 4, fun i _ => if i = 0 then 0x400011 else 0x11, 0x40000000, 0x0, 0x0, 0x0, 0x0, []⟩

/-- MSI-X table at BAR4 offset 0 (R293). -/
def R.CFG_MSIXTBL : RegDef :=
  ⟨0x1000000b4, 64, 0x1000, 1, 0x0, 4, fun _ _ => 0x4, 0x0, 0x0, 0x0, 0x0, 0x0, []⟩

/-- MSI-X PBA at BAR4 offset 0x8000 (R293). -/
def R.CFG_MSIXPBA : RegDef :=
  ⟨0x1000000b8, 64, 0x1000, 1, 0x0, 4, fun _ _ => 0x8004, 0x0, 0x0, 0x0, 0x0, 0x0, []⟩

/-- Advanced Error Reporting. -/
def R.CFG_AER : RegDef :=
  ⟨0x100000100, 64, 0x1000, 1, 0x0, 4, fun _ _ => 0x14820001, 0x0, 0x0, 0x0, 0x0, 0x0, []⟩

/-- Uncorrectable Error Status, sticky (R313). -/
def R.CFG_UESTS : RegDef :=
  ⟨0x100000104, 64, 0x1000, 1, 0x0, 4, fun _ _ => 0x0, 0x0, 0x0, 0x7fff030, 0x0, 0x0, []⟩

/-- Uncorrectable Error Mask. -/
def R.CFG_UEMASK : RegDef :=
  ⟨0x100000108, 64, 0x1000, 1, 0x0, 4, fun _ _ => 0x400000, 0x7fff030, 0x0, 0x0, 0x0, 0x0, []⟩

/-- Uncorrectable Error Severity: the defaults of R298. -/
def R.CFG_UESEV : RegDef :=
  ⟨0x10000010c, 64, 0x1000, 1, 0x0, 4, fun _ _ => 0x462030, 0x7fff030, 0x0, 0x0, 0x0, 0x0, []⟩

/-- Correctable Error Status, sticky. -/
def R.CFG_CESTS : RegDef :=
  ⟨0x100000110, 64, 0x1000, 1, 0x0, 4, fun _ _ => 0x0, 0x0, 0x0, 0xf1c1, 0x0, 0x0, []⟩

/-- Correctable Error Mask. -/
def R.CFG_CEMASK : RegDef :=
  ⟨0x100000114, 64, 0x1000, 1, 0x0, 4, fun _ _ => 0xe000, 0xf1c1, 0x0, 0x0, 0x0, 0x0, []⟩

/-- First Error Pointer. -/
def R.CFG_AERCTL : RegDef :=
  ⟨0x100000118, 64, 0x1000, 1, 0x0, 4, fun _ _ => 0x0, 0x0, 0x0, 0x0, 0x0, 0x0, []⟩

/-- AER header log. -/
def R.CFG_HDRLOG : RegDef :=
  ⟨0x10000011c, 64, 0x1000, 4, 0x4, 4, fun _ _ => 0x0, 0x0, 0x0, 0x0, 0x0, 0x0, []⟩

/-- ARI (R288). -/
def R.CFG_ARI : RegDef :=
  ⟨0x100000148, 64, 0x1000, 1, 0x0, 4, fun i _ => if i = 0 then 0x1581000e else 0x2a01000e, 0x0, 0x0, 0x0, 0x0, 0x0, []⟩

/-- SR-IOV of PF0 (R288). -/
def R.CFG_SRIOV : RegDef :=
  ⟨0x100000158, 1, 0x1000, 1, 0x0, 4, fun _ _ => 0x1a010010, 0x0, 0x0, 0x0, 0x0, 0x0, []⟩

/-- SR-IOV control: VF Enable, VF Memory Space Enable, ARI. -/
def R.CFG_SRIOVCTL : RegDef :=
  ⟨0x100000160, 1, 0x1000, 1, 0x0, 4, fun _ _ => 0x0, 0x18, 0x0, 0x0, 0x0, 0x0, []⟩

/-- InitialVFs and TotalVFs (R288). -/
def R.CFG_VFS : RegDef :=
  ⟨0x100000164, 1, 0x1000, 1, 0x0, 4, fun _ _ => 0x3f003f, 0x0, 0x0, 0x0, 0x0, 0x0, []⟩

/-- NumVFs (R288). -/
def R.CFG_NUMVFS : RegDef :=
  ⟨0x100000168, 1, 0x1000, 1, 0x0, 4, fun _ _ => 0x0, 0xffff, 0x0, 0x0, 0x0, 0x0, []⟩

/-- First VF Offset and VF Stride (R288). -/
def R.CFG_VFOFS : RegDef :=
  ⟨0x10000016c, 1, 0x1000, 1, 0x0, 4, fun _ _ => 0x10001, 0x0, 0x0, 0x0, 0x0, 0x0, []⟩

/-- VF Device ID (R286). -/
def R.CFG_VFDEV : RegDef :=
  ⟨0x100000170, 1, 0x1000, 1, 0x0, 4, fun _ _ => 0x74650000, 0x0, 0x0, 0x0, 0x0, 0x0, []⟩

/-- Supported Page Sizes (R288). -/
def R.CFG_SUPPS : RegDef :=
  ⟨0x100000174, 1, 0x1000, 1, 0x0, 4, fun _ _ => 0x1f, 0x0, 0x0, 0x0, 0x0, 0x0, []⟩

/-- System Page Size (R288). -/
def R.CFG_SYSPS : RegDef :=
  ⟨0x100000178, 1, 0x1000, 1, 0x0, 4, fun _ _ => 0x1, 0xffffffff, 0x0, 0x0, 0x0, 0x0, []⟩

/-- VF BAR0, low half. -/
def R.CFG_VFBAR0 : RegDef :=
  ⟨0x10000017c, 1, 0x1000, 1, 0x0, 4, fun _ _ => 0x4, 0xffff0000, 0x0, 0x0, 0x0, 0x0, []⟩

/-- VF BAR0, high half. -/
def R.CFG_VFBAR0U : RegDef :=
  ⟨0x100000180, 1, 0x1000, 1, 0x0, 4, fun _ _ => 0x0, 0xffffffff, 0x0, 0x0, 0x0, 0x0, []⟩

/-- VF BAR2, low half. -/
def R.CFG_VFBAR2 : RegDef :=
  ⟨0x100000184, 1, 0x1000, 1, 0x0, 4, fun _ _ => 0xc, 0xffff0000, 0x0, 0x0, 0x0, 0x0, []⟩

/-- VF BAR2, high half. -/
def R.CFG_VFBAR2U : RegDef :=
  ⟨0x100000188, 1, 0x1000, 1, 0x0, 4, fun _ _ => 0x0, 0xffffffff, 0x0, 0x0, 0x0, 0x0, []⟩

/-- VF BAR4, low half. -/
def R.CFG_VFBAR4 : RegDef :=
  ⟨0x10000018c, 1, 0x1000, 1, 0x0, 4, fun _ _ => 0x4, 0xffff0000, 0x0, 0x0, 0x0, 0x0, []⟩

/-- VF BAR4, high half. -/
def R.CFG_VFBAR4U : RegDef :=
  ⟨0x100000190, 1, 0x1000, 1, 0x0, 4, fun _ _ => 0x0, 0xffffffff, 0x0, 0x0, 0x0, 0x0, []⟩

/-- Device Serial Number capability. -/
def R.CFG_DSN : RegDef :=
  ⟨0x1000001a0, 1, 0x1000, 1, 0x0, 4, fun _ _ => 0x1b010003, 0x0, 0x0, 0x0, 0x0, 0x0, []⟩

/-- Device Serial Number, lower and upper half: from fuses (R286). -/
def R.CFG_DSNLO : RegDef :=
  ⟨0x1000001a4, 1, 0x1000, 1, 0x0, 4, fun _ _ => 0x0, 0x0, 0x0, 0x0, 0x0, 0x0, []⟩
def R.CFG_DSNHI : RegDef :=
  ⟨0x1000001a8, 1, 0x1000, 1, 0x0, 4, fun _ _ => 0x0, 0x0, 0x0, 0x0, 0x0, 0x0, []⟩

/-- Secondary PCI Express. -/
def R.CFG_SECPCIE : RegDef :=
  ⟨0x1000001b0, 1, 0x1000, 1, 0x0, 4, fun _ _ => 0x1d010019, 0x0, 0x0, 0x0, 0x0, 0x0, []⟩

/-- Data Link Feature. -/
def R.CFG_DLF : RegDef :=
  ⟨0x1000001d0, 1, 0x1000, 1, 0x0, 4, fun _ _ => 0x1e010025, 0x0, 0x0, 0x0, 0x0, 0x0, []⟩

/-- Physical Layer 16.0 GT/s. -/
def R.CFG_PL16 : RegDef :=
  ⟨0x1000001e0, 1, 0x1000, 1, 0x0, 4, fun _ _ => 0x21010026, 0x0, 0x0, 0x0, 0x0, 0x0, []⟩

/-- Physical Layer 32.0 GT/s. -/
def R.CFG_PL32 : RegDef :=
  ⟨0x100000210, 1, 0x1000, 1, 0x0, 4, fun _ _ => 0x2501002a, 0x0, 0x0, 0x0, 0x0, 0x0, []⟩

/-- Physical Layer 64.0 GT/s. -/
def R.CFG_PL64 : RegDef :=
  ⟨0x100000250, 1, 0x1000, 1, 0x0, 4, fun _ _ => 0x27010031, 0x0, 0x0, 0x0, 0x0, 0x0, []⟩

/-- Lane Margining at the Receiver. -/
def R.CFG_MARGIN : RegDef :=
  ⟨0x100000270, 1, 0x1000, 1, 0x0, 4, fun _ _ => 0x29010027, 0x0, 0x0, 0x0, 0x0, 0x0, []⟩

/-- L1 PM Substates. -/
def R.CFG_L1PM : RegDef :=
  ⟨0x100000290, 1, 0x1000, 1, 0x0, 4, fun _ _ => 0x2a01001e, 0x0, 0x0, 0x0, 0x0, 0x0, []⟩

/-- L1 PM Substates capabilities (R317). -/
def R.CFG_L1PMCAP : RegDef :=
  ⟨0x100000294, 1, 0x1000, 1, 0x0, 4, fun _ _ => 0x210a1b, 0x0, 0x0, 0x0, 0x0, 0x0, []⟩

/-- L1 PM Substates control. -/
def R.CFG_L1PMCTL : RegDef :=
  ⟨0x100000298, 1, 0x1000, 1, 0x0, 4, fun _ _ => 0x0, 0xf, 0x0, 0x0, 0x0, 0x0, []⟩

/-- Device 3. -/
def R.CFG_DEV3 : RegDef :=
  ⟨0x1000002a0, 64, 0x1000, 1, 0x0, 4, fun _ _ => 0x1002f, 0x0, 0x0, 0x0, 0x0, 0x0, []⟩

/-- Device Capabilities 3: 14-bit tags as completer and as requester (R4, R285). -/
def R.CFG_DEV3CAP : RegDef :=
  ⟨0x1000002a4, 64, 0x1000, 1, 0x0, 4, fun _ _ => 0x6, 0x0, 0x0, 0x0, 0x0, 0x0, []⟩

/-- Device Control 3: 14-Bit Tag Requester Enable. -/
def R.CFG_DEV3CTL : RegDef :=
  ⟨0x1000002a8, 64, 0x1000, 1, 0x0, 4, fun _ _ => 0x0, 0x4, 0x0, 0x0, 0x0, 0x0, []⟩

/-- CAP (R320). -/
def R.NVME_CAP : RegDef :=
  ⟨0x200000000, 64, 0x10000, 1, 0x0, 8, fun _ _ => 0x200002028010fff, 0x0, 0x0, 0x0, 0x0, 0x0, []⟩

/-- VS: NVM Express 2.0. -/
def R.NVME_VS : RegDef :=
  ⟨0x200000008, 64, 0x10000, 1, 0x0, 4, fun _ _ => 0x20000, 0x0, 0x0, 0x0, 0x0, 0x0, []⟩

/-- INTMS: the interrupt mask (R310). -/
def R.NVME_INTMS : RegDef :=
  ⟨0x20000000c, 64, 0x10000, 1, 0x0, 4, fun _ _ => 0x0, 0x0, 0x0, 0x0, 0x0, 0x0, []⟩

/-- INTMC: reads as INTMS. -/
def R.NVME_INTMC : RegDef :=
  ⟨0x200000010, 64, 0x10000, 1, 0x0, 4, fun _ _ => 0x0, 0x0, 0x0, 0x0, 0x0, 0x0, []⟩

/-- CC; EN and SHN act through rows of their own. -/
def R.NVME_CC : RegDef :=
  ⟨0x200000014, 64, 0x10000, 1, 0x0, 4, fun _ _ => 0x0, 0xff3ff0, 0x0, 0x0, 0x0, 0x0, []⟩

/-- CSTS. -/
def R.NVME_CSTS : RegDef :=
  ⟨0x20000001c, 64, 0x10000, 1, 0x0, 4, fun _ _ => 0x0, 0x0, 0x0, 0x0, 0x0, 0x0, []⟩

/-- AQA. -/
def R.NVME_AQA : RegDef :=
  ⟨0x200000024, 64, 0x10000, 1, 0x0, 4, fun _ _ => 0x0, 0xfff0fff, 0x0, 0x0, 0x0, 0x0, []⟩

/-- ASQ. -/
def R.NVME_ASQ : RegDef :=
  ⟨0x200000028, 64, 0x10000, 1, 0x0, 8, fun _ _ => 0x0, 0xfffffffffffff000, 0x0, 0x0, 0x0, 0x0, []⟩

/-- ACQ. -/
def R.NVME_ACQ : RegDef :=
  ⟨0x200000030, 64, 0x10000, 1, 0x0, 8, fun _ _ => 0x0, 0xfffffffffffff000, 0x0, 0x0, 0x0, 0x0, []⟩

/-- CMBLOC (R327). -/
def R.NVME_CMBLOC : RegDef :=
  ⟨0x200000038, 64, 0x10000, 1, 0x0, 4, fun _ _ => 0x0, 0x0, 0x0, 0x0, 0x0, 0x0, []⟩

/-- CMBSZ (R327). -/
def R.NVME_CMBSZ : RegDef :=
  ⟨0x20000003c, 64, 0x10000, 1, 0x0, 4, fun _ _ => 0x0, 0x0, 0x0, 0x0, 0x0, 0x0, []⟩

/-- CMBMSC (R327). -/
def R.NVME_CMBMSC : RegDef :=
  ⟨0x200000050, 64, 0x10000, 1, 0x0, 8, fun _ _ => 0x0, 0xfffffffffffff003, 0x0, 0x0, 0x0, 0x0, []⟩

/-- CMBSTS (R327). -/
def R.NVME_CMBSTS : RegDef :=
  ⟨0x200000058, 64, 0x10000, 1, 0x0, 4, fun _ _ => 0x0, 0x0, 0x0, 0x0, 0x0, 0x0, []⟩

/-- MSI-X table entry: message address. -/
def R.MSIX_ADDR : RegDef :=
  ⟨0x300000000, 64, 0x10000, 2048, 0x10, 8, fun _ _ => 0x0, 0xfffffffffffffffc, 0x0, 0x0, 0x0, 0x0, []⟩

/-- MSI-X table entry: message data. -/
def R.MSIX_DATA : RegDef :=
  ⟨0x300000008, 64, 0x10000, 2048, 0x10, 4, fun _ _ => 0x0, 0xffffffff, 0x0, 0x0, 0x0, 0x0, []⟩

/-- MSI-X table entry: vector mask. -/
def R.MSIX_CTL : RegDef :=
  ⟨0x30000000c, 64, 0x10000, 2048, 0x10, 4, fun _ _ => 0x1, 0x1, 0x0, 0x0, 0x0, 0x0, []⟩

/-- MSI-X pending bits. -/
def R.MSIX_PBA : RegDef :=
  ⟨0x300008000, 64, 0x10000, 32, 0x8, 8, fun _ _ => 0x0, 0x0, 0x0, 0x0, 0x0, 0x0, []⟩

/-- CFG MSE. -/
def F.CFG_MSE : Field := ⟨R.CFG_CMD, 1, 1⟩

/-- CFG BME. -/
def F.CFG_BME : Field := ⟨R.CFG_CMD, 2, 2⟩

/-- CFG INTDIS. -/
def F.CFG_INTDIS : Field := ⟨R.CFG_CMD, 10, 10⟩

/-- CFG PSTATE. -/
def F.CFG_PSTATE : Field := ⟨R.CFG_PMCSR, 1, 0⟩

/-- MSI EN. -/
def F.MSI_EN : Field := ⟨R.CFG_MSICTL, 16, 16⟩

/-- MSI MME. -/
def F.MSI_MME : Field := ⟨R.CFG_MSICTL, 22, 20⟩

/-- CFG RO. -/
def F.CFG_RO : Field := ⟨R.CFG_DEVCTL, 4, 4⟩

/-- CFG MPS. -/
def F.CFG_MPS : Field := ⟨R.CFG_DEVCTL, 7, 5⟩

/-- CFG MRRS. -/
def F.CFG_MRRS : Field := ⟨R.CFG_DEVCTL, 14, 12⟩

/-- CFG CTO. -/
def F.CFG_CTO : Field := ⟨R.CFG_DEVCTL2, 3, 0⟩

/-- CFG CTODIS. -/
def F.CFG_CTODIS : Field := ⟨R.CFG_DEVCTL2, 4, 4⟩

/-- CFG TAG10. -/
def F.CFG_TAG10 : Field := ⟨R.CFG_DEVCTL2, 12, 12⟩

/-- CFG TAG14. -/
def F.CFG_TAG14 : Field := ⟨R.CFG_DEV3CTL, 2, 2⟩

/-- MSIX SIZE. -/
def F.MSIX_SIZE : Field := ⟨R.CFG_MSIXCTL, 26, 16⟩

/-- MSIX FMASK. -/
def F.MSIX_FMASK : Field := ⟨R.CFG_MSIXCTL, 30, 30⟩

/-- MSIX EN. -/
def F.MSIX_EN : Field := ⟨R.CFG_MSIXCTL, 31, 31⟩

/-- UE STS. -/
def F.UE_STS : Field := ⟨R.CFG_UESTS, 31, 0⟩

/-- UE MASK. -/
def F.UE_MASK : Field := ⟨R.CFG_UEMASK, 31, 0⟩

/-- UE SEV. -/
def F.UE_SEV : Field := ⟨R.CFG_UESEV, 31, 0⟩

/-- CE STS. -/
def F.CE_STS : Field := ⟨R.CFG_CESTS, 31, 0⟩

/-- CE MASK. -/
def F.CE_MASK : Field := ⟨R.CFG_CEMASK, 31, 0⟩

/-- AER FIRST. -/
def F.AER_FIRST : Field := ⟨R.CFG_AERCTL, 4, 0⟩

/-- VF EN. -/
def F.VF_EN : Field := ⟨R.CFG_SRIOVCTL, 0, 0⟩

/-- VF MSE. -/
def F.VF_MSE : Field := ⟨R.CFG_SRIOVCTL, 3, 3⟩

/-- NUM VFS. -/
def F.NUM_VFS : Field := ⟨R.CFG_NUMVFS, 15, 0⟩

/-- CC EN. -/
def F.CC_EN : Field := ⟨R.NVME_CC, 0, 0⟩

/-- CC SHN. -/
def F.CC_SHN : Field := ⟨R.NVME_CC, 15, 14⟩

/-- CSTS RDY. -/
def F.CSTS_RDY : Field := ⟨R.NVME_CSTS, 0, 0⟩

/-- CSTS CFS. -/
def F.CSTS_CFS : Field := ⟨R.NVME_CSTS, 1, 1⟩

/-- CSTS SHST. -/
def F.CSTS_SHST : Field := ⟨R.NVME_CSTS, 3, 2⟩

/-- INTMS. -/
def F.INTMS : Field := ⟨R.NVME_INTMS, 31, 0⟩

/-- AQA ASQS. -/
def F.AQA_ASQS : Field := ⟨R.NVME_AQA, 11, 0⟩

/-- AQA ACQS. -/
def F.AQA_ACQS : Field := ⟨R.NVME_AQA, 27, 16⟩

/-- ASQ. -/
def F.ASQ : Field := ⟨R.NVME_ASQ, 63, 0⟩

/-- ACQ. -/
def F.ACQ : Field := ⟨R.NVME_ACQ, 63, 0⟩

/-- CMBMSC CRE. -/
def F.CMBMSC_CRE : Field := ⟨R.NVME_CMBMSC, 0, 0⟩

/-- CMBMSC CMSE. -/
def F.CMBMSC_CMSE : Field := ⟨R.NVME_CMBMSC, 1, 1⟩

/-- CMBMSC CBA. -/
def F.CMBMSC_CBA : Field := ⟨R.NVME_CMBMSC, 63, 12⟩

/-- CMBSTS CBAI. -/
def F.CMBSTS_CBAI : Field := ⟨R.NVME_CMBSTS, 0, 0⟩

/-- MSIX ADDR. -/
def F.MSIX_ADDR : Field := ⟨R.MSIX_ADDR, 63, 0⟩

/-- MSIX DATA. -/
def F.MSIX_DATA : Field := ⟨R.MSIX_DATA, 31, 0⟩

/-- MSIX MASK. -/
def F.MSIX_MASK : Field := ⟨R.MSIX_CTL, 0, 0⟩

/-- MSIX PBA. -/
def F.MSIX_PBA : Field := ⟨R.MSIX_PBA, 63, 0⟩

/-- MSI ADDR. -/
def F.MSI_ADDR : Field := ⟨R.CFG_MSIADDR, 31, 0⟩

/-- MSI ADDRU. -/
def F.MSI_ADDRU : Field := ⟨R.CFG_MSIADDRU, 31, 0⟩

/-- MSI DATA. -/
def F.MSI_DATA : Field := ⟨R.CFG_MSIDATA, 15, 0⟩

/-- MSI MASK. -/
def F.MSI_MASK : Field := ⟨R.CFG_MSIMASK, 31, 0⟩

/-- MSI PEND. -/
def F.MSI_PEND : Field := ⟨R.CFG_MSIPEND, 31, 0⟩

/-- CFG BAR2. -/
def F.CFG_BAR2 : Field := ⟨R.CFG_BAR2, 63, 22⟩

/-- VFBAR2. -/
def F.VFBAR2 : Field := ⟨R.CFG_VFBAR2, 31, 0⟩

/-- VFBAR2U. -/
def F.VFBAR2U : Field := ⟨R.CFG_VFBAR2U, 31, 0⟩

/-- Every host-visible register but the vendor window. -/
def hostRegs : List RegDef := [R.CFG_ID, R.CFG_CMD, R.CFG_CLASS, R.CFG_HDR, R.CFG_BAR0, R.CFG_BAR2, R.CFG_BAR4, R.CFG_SUBSYS, R.CFG_CAPPTR, R.CFG_INTR, R.CFG_PMCAP, R.CFG_PMCSR, R.CFG_MSICTL, R.CFG_MSIADDR, R.CFG_MSIADDRU, R.CFG_MSIDATA, R.CFG_MSIMASK, R.CFG_MSIPEND, R.CFG_PCIECAP, R.CFG_DEVCAP, R.CFG_DEVCTL, R.CFG_LINKCAP, R.CFG_LINKCTL, R.CFG_DEVCAP2, R.CFG_DEVCTL2, R.CFG_LINKCAP2, R.CFG_MSIXCTL, R.CFG_MSIXTBL, R.CFG_MSIXPBA, R.CFG_AER, R.CFG_UESTS, R.CFG_UEMASK, R.CFG_UESEV, R.CFG_CESTS, R.CFG_CEMASK, R.CFG_AERCTL, R.CFG_HDRLOG, R.CFG_ARI, R.CFG_SRIOV, R.CFG_SRIOVCTL, R.CFG_VFS]
  ++ [R.CFG_NUMVFS, R.CFG_VFOFS, R.CFG_VFDEV, R.CFG_SUPPS, R.CFG_SYSPS, R.CFG_VFBAR0, R.CFG_VFBAR0U, R.CFG_VFBAR2, R.CFG_VFBAR2U, R.CFG_VFBAR4, R.CFG_VFBAR4U, R.CFG_DSN, R.CFG_DSNLO, R.CFG_DSNHI, R.CFG_SECPCIE, R.CFG_DLF, R.CFG_PL16, R.CFG_PL32, R.CFG_PL64, R.CFG_MARGIN, R.CFG_L1PM, R.CFG_L1PMCAP, R.CFG_L1PMCTL, R.CFG_DEV3, R.CFG_DEV3CAP, R.CFG_DEV3CTL, R.NVME_CAP, R.NVME_VS, R.NVME_INTMS, R.NVME_INTMC, R.NVME_CC, R.NVME_CSTS, R.NVME_AQA, R.NVME_ASQ, R.NVME_ACQ, R.NVME_CMBLOC, R.NVME_CMBSZ, R.NVME_CMBMSC, R.NVME_CMBSTS, R.MSIX_ADDR, R.MSIX_DATA, R.MSIX_CTL, R.MSIX_PBA]

end Sys2Proof
end

