-- ==== Sys2Proof/Machine/State.lean ====
section
/-! DEFINITION. What the machine holds: every register, memory, queue, counter, mode and pin the spec gives Scetus, as plain data;
the reasons a step can stop; and the state right after reset. -/

namespace Sys2Proof.Machine

open Sys2Proof

/-! ### Why a step can stop -/

/-- Reasons for a fault. No command of this model raises one: the spec gives every command an effect, and what it leaves
undefined is a free value (log entry 1). -/
inductive Fault where
  /-- Raised by no command: the type has one name so that a claim can list it. Safe. -/
  | none
deriving DecidableEq, Repr

/-- Reasons for a refusal. -/
inductive Refusal where
  /-- A command of the table whose meaning is not modelled: raised by `exec` alone. Safe: the model stops where the
  hardware goes on. -/
  | notModelled (mnemonic : String)
deriving DecidableEq, Repr

/-! ### Geometry (R12–R38) -/

/-- One zone of the active geometry with its row of the stripe map (R26). -/
structure Zone where
  first : Nat
  last : Nat
  spt : Nat
  strength : Nat
  rate : Nat
  zskew : Nat
  prot : Nat
  rot : List Nat
deriving DecidableEq, Repr

/-- One reserved region; `ty` 1 STAGING, 2 SPARE, 3 SYSTEM (R25). -/
structure Region where
  first : Nat
  last : Nat
  ty : Nat
deriving DecidableEq, Repr

/-- The active geometry (R26, R28). -/
structure Geometry where
  armMask : Nat
  az : List Nat
  zones : List Zone
  regions : List Region
  rpm : Nat
  gen : Nat
deriving DecidableEq, Repr

/-! ### Arm links (R39–R75) -/

/-- A downlink frame that carries SEQ (R52). -/
inductive Frame where
  | heat (mask : Nat) (codes : List Nat)
  | mode (mask pers src : Nat)
  | regw (addr data : Nat)
  | regr (addr : Nat)
deriving DecidableEq, Repr

/-- A frame sent and not acknowledged (R60). -/
structure SentFrame where
  seq : Nat
  frame : Frame
  resends : Nat
deriving DecidableEq, Repr

/-- A personality change pending in the preamp for one surface, with the SEQ of its MODE frame (R54). -/
structure PendMode where
  pers : Nat
  src : Nat
  seq : Nat
deriving DecidableEq, Repr

/-- Where a discovery stands (R68): none running; clock and IDLE sent; REGR frames sent, with the SEQ of the first and the values returned;
waiting for the first STAT. -/
inductive Disc where
  | none
  | clock
  | regs (first : Nat) (got : List (Nat × Nat))
  | stat
deriving DecidableEq, Repr

/-- A sense measurement in progress (R48); `wins` counts the windows opened for it, each a change of the pair to SENSE. -/
structure Sense where
  surf : Nat
  src : Nat
  count : Nat
  wins : Nat
deriving DecidableEq, Repr

/-- What Scetus keeps of an arm link beside its registers. -/
structure Link where
  seq : Nat := 0                      -- SEQ of the next frame (R60)
  unacked : List SentFrame := []      -- oldest first, at most 16 (R60)
  waiting : List Frame := []          -- frames that wait for room among the 16
  pend : Tab PendMode := []           -- pending changes by surface (R54)
  want : Tab (Nat × Nat) := []        -- changes to WRITE or SENSE asked for and not yet sent, by surface: PERS and SRC (R44, R46, R47, R65)
  fixMask : Nat := 0                  -- heads that need a corrective MODE (R62)
  disagree : Nat := 0                 -- heads whose PERS disagrees with the record (R62)
  muaMiss : Bool := false             -- the MUA_MISS cause of R61
  muaEop : Bool := false              -- an MUA frame has left since the cause was set (R61)
  tag : Nat := 0                      -- wedge count of the arm, TAG of the next MUA frame (R53)
  disc : Disc := .none
  retrain : Bool := false             -- the discovery counts as a retrain for R69
  auto : Bool := false                -- automatic retrains of a DOWN link are running (R73)
  autos : Nat := 0                    -- retrains used since the link went down (R73)
  idKnown : Bool := false             -- LANE_ALK_ID holds a captured identity (R69)
  discDone : Bool := false            -- the power-on discovery has captured RAMP_DISC and PARK_DISC (R70)
  sense : Option Sense := none
  regSeq : Option Nat := none         -- SEQ of the REGW or REGR of LANE_ALK_REG_CMD in flight (R56)
  cmds : Nat := 0                     -- CMD of the last MUA frame sent, 192 bits (R53)
  wfault : Nat := 0                   -- WFAULT and RFAULT of the last STAT (R57)
  rfault : Nat := 0
  heatDue : Nat := 0                  -- heads owed a HEAT_RD frame that could not leave (R122)
deriving DecidableEq, Repr

/-! ### Lanes: the read channel (R76–R106) -/

/-- Where a sector of a read stands on its lane. -/
inductive SecPhase where
  | idle        -- no read gate open
  | acquire     -- read gate open, before the sync mark
  | data        -- codeword bits arriving
  | resync      -- after a servo gap, searching the resync field (R91)
deriving DecidableEq, Repr

/-- A read operation on a lane: `left` sectors from PSA word `psa`, whose soft words go to the pool for `owner`. -/
structure ReadOp where
  psa : Nat
  left : Nat
  zone : Nat
  owner : Nat            -- the scheduler item it carries out
  retry : Option Nat     -- the recovery context whose re-read it is (R162)
  missed : Option Nat    -- codeword bits taken before a gap whose resync was missed (R91)
  failed : Bool          -- marked failed by R62
  ending : Bool          -- it ends at its next sector boundary (R34, R100)
  lastOk : Bool          -- the last sector ended OK (R104)
deriving DecidableEq, Repr

/-- The registers that a lane takes at a sector's start (R103). -/
structure LaneCfg where
  afe : Nat := 0
  agc : Nat := 0
  tgtLo : Nat := 0
  tgtMid : Nat := 0
  tgtHi : Nat := 0
  det : Nat := 0
deriving DecidableEq, Repr

/-- How far a sector has come on the track, splits included (R115): its next field bit, counted from its first preamble bit, and the bit period in
which that bit stands or would stand, counted from the sector's first. -/
structure SplitPos where
  next : Nat := 0
  pos : Int := 0
deriving DecidableEq, Repr

/-- The digital read channel of a lane in a sector: what each of its loops and detectors holds after the last channel bit (R78, R86–R97). -/
structure Chan where
  idx : Int := 0                   -- index of the next bit: from the read gate, and from codeword bit 0 once the sync mark is found
  gain : Int := 0                  -- VGA gain, 2^-8 gain codes (R78)
  taps : List Int := []            -- TAP0 to TAP31, 2^-10 (R88)
  xs : List Int := []              -- the last 32 corrected samples, latest first
  refs : List Bool := []           -- the last 5 reference bits, latest first
  y : Int := 0                     -- equalizer output of the last bit, 2^-10 LSB
  d : Int := 0                     -- its ideal value
  freq : Int := 0                  -- integral term, 2^-16 of the units of FOFS (R86)
  phase : Int := 0                 -- sampling phase in the same units, one bit period being 10^7 of them
  sq : Nat := 0                    -- sum of e², 2^-20 LSB²
  low : Nat := 0                   -- consecutive bits with a low envelope (R95)
  bases : List Int := []           -- the last 16 baselines, latest first (R96)
  asp : Option (Int × Int × Nat) := none   -- asperity in progress: its first bit, the baseline before it, bits back near that
  drops : List (Int × Int) := []   -- dropouts: first and last low bit
  asps : List (Int × Int) := []    -- asperities: first and last bit
  fill : Nat := 0                  -- soft words in the lane's buffer (R94)
  full : Bool := false             -- a soft word was due with the buffer full
  wide : Bool := false             -- the frequency offset has left ±2,000 ppm (R85)
  soft : List Byte := []           -- soft words before erasure marks, latest first (R92)
deriving DecidableEq, Repr

/-- What Scetus keeps of a lane beside its registers. -/
structure Lane where
  op : Option ReadOp := none
  phase : SecPhase := .idle
  slot : Option Nat := none        -- soft-store slot of the sector in progress
  waitSlot : Bool := false         -- the lane waits for a soft-store slot (R149)
  wakeFor : Option Nat := none     -- zone whose profile loads during WAKE (R103)
  loading : Bool := false          -- an automatic profile load runs (R103)
  recAddr : Option Nat := none     -- address of the record loaded (R104)
  startGain : Nat := 1500          -- the value last written to GAIN (R78)
  fmem : Nat := 0                  -- frequency memory, 16 bits (R86)
  fmemZone : Nat := 0
  trims : List SubTrim := List.replicate 8 ⟨0, 0, 0⟩   -- trims of the eight ADC sub-converters (R79, R80), opaque to software
  cfg : LaneCfg := {}              -- registers taken at the sector's start (R103)
  chan : Chan := {}                -- the read channel in the sector in progress
  syncOfs : Option Nat := none     -- window position of the sync mark of the sector in progress (R90)
  gaps : List (Nat × Nat) := []    -- servo gaps in the sector's codeword: bits before each, and its length in bit periods (R87)
  acqGaps : List (Int × Nat) := [] -- servo gaps before the sync mark: bits of the read gate before each, and its length (R87)
  heatAt : Option Nat := none      -- when the EOP of the head's HEAT_RD frame left, while no HEAT_WR has followed (R122)
  sp : SplitPos := {}              -- how far the sector being read has come on the track (R115)
deriving DecidableEq, Repr

/-! ### Write operations (R107–R144) -/

/-- One head of a write operation. -/
structure HeadWr where
  first : Nat := 0                      -- first sector on the head
  done : Nat := 0                       -- sectors written
  sgate : Bool := false                 -- SGATE (R124)
  split : Bool := false                 -- a servo gate has split the sector in progress (R115)
  late : Bool := false                  -- the block after the sector in progress was late (R118)
  sp : SplitPos := {}                   -- how far the sector in progress has come (R115)
  lead : List Bool := []                -- bits to write before its next field bit: preamble pattern and resync field (R115)
  hist : List Bool := []                -- the last 4 bits written since the write gate opened, latest first (R121)
  undef : Bool := false                 -- a split with too small an SLEAD has made the sector in progress undefined on media (R117)
  status : Option Nat := none           -- status of R143 once the operation has ended on the head
  profOk : Bool := true
deriving DecidableEq, Repr

/-- An information block in a lane's write buffer (R110, R118). -/
structure InfoBlock where
  psa : Nat
  data : List Byte
  hm : List Byte
  poison : Nat
  wgen : Nat
  schk : Nat
  code : List Bool         -- its codeword: scrambled information bits and parity (R107, R119)
deriving DecidableEq, Repr

/-- The write operation of an arm (R120). -/
structure WriteOp where
  heads : Tab HeadWr
  zone : Nat
  track : Nat
  first : Nat
  count : Nat
  gen : Nat                -- GEN of the operation (R134)
  flags : Nat              -- WGEN flags [44:40] (R135)
  step : Nat               -- STRENGTH read when the operation starts (R119)
  item : Nat               -- the scheduler item it carries out
  heat : Option Nat        -- SEQ of its HEAT frame, once sent (R122)
  heatAck : Bool           -- its HEAT frame is acknowledged (R123)
  heatFails : Nat          -- revolutions it has been held (R123)
  gated : Bool             -- its first write gate has opened
  ending : Bool            -- it ends at the next sector boundary or has been cut
  undef : Bool             -- a preamp register write has made what it writes undefined (R56)
deriving DecidableEq, Repr

/-! ### Items (R376) -/

/-- Where an item stands (R378, R382). -/
inductive ItemState where
  | held                       -- something still orders it
  | ready                      -- in the ready set
  | decided (arm : Nat)
  | running (arm : Nat)
  | results                    -- its media operation has ended; results of its sectors are still due
deriving DecidableEq, Repr

/-- One media operation (R376). `cls` is coded as the descriptor TAG codes it (R280). -/
structure Item where
  id : Nat
  write : Bool
  pass : Bool                  -- it is a stripe pass
  zone : Nat
  track : Nat
  mem : List (Nat × Nat)       -- surfaces it touches with the first sector on each
  count : Nat                  -- sectors on each
  cls : Nat
  fn : Nat
  origin : Nat                 -- age origin (R379)
  urgent : Bool
  bound : Option Nat           -- the arm an urgent item is bound to (R387)
  head : Option Nat            -- the head named by a ladder step (R381)
  avoid : List Nat             -- heads that have read the sector for this read (R162)
  retry : Option Nat           -- the recovery context whose re-read it is (R163)
  opofs : Int                  -- OFFTRACK offset
  req : Nat                    -- the SPR operation it serves
  flags : Nat                  -- WGEN flags [44:40] of a write (R135)
  dst : List (Nat × Nat × Nat) -- PSA, landing address of its data, landing address of its host metadata
  lr : Bool                    -- limited retry (R167)
  nopar : Bool                 -- NOPAR (R164)
  aborted : Bool               -- its read is withdrawn (R169)
  st : ItemState
  t0 : Nat                     -- device time of its dispatch
  seekEnd : Nat                -- predicted end of its move, device time (R391)
  predEnd : Nat                -- predicted end, device time
  held : Nat                   -- mW reserved (R391)
  seekHeld : Nat               -- mW of the seek part (R392)
  solo : Bool                  -- granted alone (R393)
  media : Bool                 -- it counts as a media retry when it is dispatched (R158, R163, R437)
  runs : Tab Nat := []         -- sectors on a surface, where they are fewer than `count`
  holes : List Nat := []       -- PSAs inside its runs that it does not read
deriving DecidableEq, Repr

/-! ### The decoder pool (R145–R174) -/

/-- Which sector of which read a codeword belongs to: the SPR operation and the PSA asked for. -/
structure ReadKey where
  req : Nat
  psa : Nat
deriving DecidableEq, Repr

/-- A soft-store slot: one codeword's soft words with its lane result word (R149). -/
structure Slot where
  key : ReadKey
  it : Item                 -- the item that reads it
  lane : Nat
  retry : Option Nat        -- the recovery context whose re-read it holds (R162)
  res : Nat                 -- lane result word, 0 until the sector ends (R98)
  soft : List Byte          -- soft words of R92
  full : Bool               -- it holds the codeword's last soft word
  ready : Nat               -- order in which it became ready (R152)
  engine : Option Nat       -- fast engine it is assigned to
  cap : Nat                 -- iteration cap, fixed when the codeword starts (R151)
  capped : Bool             -- its fast decode has ended and its soft words wait to be copied (R158)
deriving DecidableEq, Repr

/-- A recovery job (R161). -/
inductive JobKind where
  | redecode
  | combined
  | erase (pad lthr : Nat)
deriving DecidableEq, Repr

/-- An engine of the pool: 0–15 fast, 16–17 recovery (R172). -/
structure Engine where
  awake : Bool := false
  waking : Bool := false
  slots : List Nat := []             -- codewords in its input buffers, the one iterating first (fast)
  job : Option (Nat × JobKind) := none  -- context and job (recovery)
deriving DecidableEq, Repr

/-- What a sector in the ladder waits for. -/
inductive LadderWait where
  | copy (slot : Nat)        -- its soft words are being copied (R158)
  | job (k : JobKind)        -- a recovery job, ready since `ready`
  | reread                   -- a retry read handed to the scheduler
  | parity                   -- a stripe rebuild (R162 PARITY)
  | step                     -- the next step is to be chosen
deriving DecidableEq, Repr

/-- A recovery context (R158, R159). -/
structure Ctx where
  key : ReadKey
  it : Item                  -- the item of the first read
  acc : List Int             -- accumulated LLR by codeword bit
  eras : List Bool           -- erasure flag by codeword bit
  reads : Nat
  used : List Nat            -- heads that have read the sector for this read
  last : Option Nat          -- head of its last read
  step : Nat                 -- index of the ladder step
  tries : Nat                -- attempts of the step already made
  nonMedia : Nat             -- non-media failures of the attempt in progress (R154)
  skipLr : Bool              -- a step was skipped under LR (R168)
  skipTmax : Bool
  tmax : Bool                -- TMAX has passed (R167)
  wait : LadderWait
  ready : Nat                -- order of readiness of its job (R161)
  lstep : Nat                -- last step attempted
  iters : Nat                -- iterations of the last decode attempted
  eng : Nat                  -- its engine, 31 for none
  lstat : Nat                -- lane STATUS of the first read
  entered : Nat              -- device time of entry
  abort : Bool               -- its read was aborted (R169)
  mse : Nat                  -- MSE of its last read (R98)
  runs : List (Nat × Nat)    -- erasure runs of the combined flags (R159)
deriving DecidableEq, Repr

/-- What is known of a sector that is read again: lane STATUS of its first read, ITER and ENG of its last decode (R170), and the heads that have
read it for this read (R162). -/
structure Past where
  lstat : Nat
  iters : Nat
  eng : Nat
  heads : List Nat
deriving DecidableEq, Repr

/-- What the pool keeps beside its registers. -/
structure Dec where
  slots : Tab Slot := []
  waitList : List Nat := []        -- lanes waiting for a slot, in order of request (R149)
  order : Nat := 0                 -- readiness counter
  engines : Tab Engine := []
  ctxs : Tab Ctx := []
  missTab : List (ReadKey × Nat) := []   -- non-media failures counted per sector of a read (R154)
  past : List (ReadKey × Past) := []     -- sectors read again
  mse : Nat := 0                   -- MSE of the lane result of the sector last delivered (R98, R278)
  bist : Option Nat := none        -- engine under self-test (R174)
deriving DecidableEq, Repr

/-! ### Servo (R175–R209) -/

/-- States of one biquad in direct form II transposed, 14 fractional bits (R185). -/
structure Biquad where
  s1 : Int := 0
  s2 : Int := 0
deriving DecidableEq, Repr

/-- What the sequencer keeps of a head beside its registers. -/
structure HeadSrv where
  p1 : Option Int := none       -- last position, 1/256 track (R179)
  p2 : Option Int := none       -- the position before it
  e : Int := 0                  -- last position error (R180)
  ePrev : Option Int := none    -- the error one group earlier (R193)
  yielded : Bool := false       -- it yielded a position in the group in progress
  x : Int := 0                  -- arm error a_h of the group (R182)
  inSet : Bool := false         -- it was in the error set at the last group
  uPrev : Int := 0              -- command of the MUA frame before the last (R182)
  u : Int := 0                  -- command of the last MUA frame sent
  cmd : Int := 0                -- command formed at the last group (R183)
  eOp : Int := 0                -- OPOFS that the last position error holds (R180, R182)
  hofs : Int := 0               -- HOFS in effect since the last group (R180)
  ramp : Option (Int × Nat) := none  -- ramp of R190: start command, groups done
  ma : Biquad := {}             -- microactuator compensator states
  sat : Nat := 0                -- consecutive groups at a limit (R189)
  acq : Nat := 0                -- consecutive groups within MA_WIN (R189)
  good : Nat := 0               -- consecutive groups that satisfy R193 (R194)
  rearm : Bool := false         -- the close of the last group lets the permit rise (R194)
  reenter : Bool := false       -- re-entry from HOLD at the first group with a position (R190)
  opofs : Int := 0              -- offset of an OFFTRACK re-read in progress (R180)
  widx : Option Nat := none     -- WIDX expected at the next wedge (R176)
  seen : List Nat := []         -- WIDX values read that disagreed with the timer, newest first (R177)
  agree : Nat := 0              -- consecutive wedges met while unlocked (R176)
  gate : Bool := false          -- its servo gate is open
  samAt : Option Nat := none    -- device time of the last SAM (R176)
  skipped : Nat := 0            -- wedges missed since the last SAM (R176, R209)
  gateAt : Int := 0             -- where the gate opened, in bit periods from the first preamble bit of the sector in progress (R87, R115)
deriving DecidableEq, Repr

/-- Where an unload stands (R201). -/
inductive UnloadPhase where
  | none
  | ramp      -- microactuators ramp to 0, then the VCM drives toward lower tracks
  | climb     -- UNLOAD_I for UNLOAD_T ms
  | park      -- PARK_I until PARKED
deriving DecidableEq, Repr

/-- What a sequencer keeps of its arm beside its registers. -/
structure ArmSrv where
  coef : List Nat := List.replicate 32 0   -- active coefficients (R185)
  f1 : Biquad := {}            -- follow, first and second biquad
  f2 : Biquad := {}
  t1 : Biquad := {}            -- settle, first and second biquad
  t2 : Biquad := {}
  bump : Int := 0              -- BUMP (R184, R190)
  errOfs : Int := 0            -- error offset of R190
  errNew : Int := 0            -- the offset that the group in progress adds, subtracted from the next group on (R190)
  lastI : Int := 0             -- last VCM command less FF and BUMP
  hand : Bool := false         -- a hand-over waits for the first group with a position (R190)
  ev : Int := 0                -- e_v of the last group
  pbar : Option Int := none    -- mean position of the last group (R191)
  vel : Int := 0               -- change of the mean position per group
  fn : Nat := 0                -- consecutive groups inside FWIN
  settle : Nat := 0            -- groups spent in SETTLE
  retries : Nat := 0           -- re-seeks used to the present TARGET
  far : Nat := 0               -- consecutive groups beyond 4 × FWIN
  miss : Nat := 0              -- consecutive groups with no position
  mismatch : Nat := 0          -- consecutive groups with a VCM mismatch (R208)
  load : Nat := 0              -- consecutive groups with LOAD_MIN heads yielding
  offRamp : Bool := false      -- ON_RAMP = 0 seen while loading (R200)
  storedGo : Option Nat := none    -- a GO stored in LOADING (R188)
  heldLoad : Bool := false     -- a LOAD held in UNLOADING (R188)
  phase : UnloadPhase := .none
  seekFrom : Option (Nat × Nat) := none  -- |ΔTARGET| and device time of the GO of the seek in progress (R192)
  target : Nat := 0            -- TARGET in force
  newSeek : Bool := false      -- the seek's first group with a position is awaited (R190)
  tune : Bool := false         -- the first group since the GO is awaited (R191)
  rro : List (Nat × List Int) := []   -- wedges and their runout entries by surface, latest fetched first, at most three (R181)
  rroAt : Option Nat := none   -- the wedge at which entries were last fetched
  thMark : Nat × Nat := (0, 0) -- instance 0: rotor angle with REV, and device time, where the last eighth of a revolution ended (R229)
  thSpeed : Nat := 0           -- instance 0: speed over that eighth, 0.01 rpm
  thAt : Nat := 0              -- instance 0: device time when a wedge last set SRV_THETA, and ns from wedge to wedge (R209)
  thPer : Nat := 0
  judge : Bool := false        -- RETRACT_N has risen, or the link has come up, and the first STAT is awaited (R188)
deriving DecidableEq, Repr

/-- What the shock block keeps of a channel (R196–R199). -/
structure ShockCh where
  b : Int := 0                 -- baseline, 32 fractional bits
  n : Nat := 0                 -- samples of the initialisation window
  sum : Int := 0
  lo : Int := 2047
  hi : Int := -2048
  means : List Int := []       -- window means, newest first
  limit : Nat := 0             -- consecutive samples at a limit
  calm : Nat := 0              -- consecutive samples at or below REARM (R198)
  atSpeed : Nat := 0           -- samples taken while the spindle was at speed (R199)
  peaks : List (Nat × Int) := []   -- of those, the ones that no later one reaches, newest first: number and value
  dips : List (Nat × Int) := []    -- those that no later one goes down to
  recent : List Int := []      -- raw samples, newest first, at most 100,000 (R199)
  last : Int := 0              -- last sample
deriving DecidableEq, Repr

/-- What the shock block keeps beside its registers and channels. -/
structure Shock where
  windows : Nat := 0           -- initialisation windows taken
  risen : Bool := false        -- SHOCK_OK has risen since sensing started (R197)
  blow : Bool := false         -- a windthrow is in progress
deriving DecidableEq, Repr

/-- What an arm synthesizer keeps beside its registers (R81–R84). -/
structure Syn where
  next : Option Nat := none    -- the zone of a retune that follows the one running (R83)
  waiting : List Nat := []     -- lanes whose first read gate waits for the lock
deriving DecidableEq, Repr

/-! ### The landing (R405–R424) -/

/-- A 64-byte landing granule: its bytes and its poison mark (R405, R410). -/
structure Granule where
  data : List Byte
  poison : Bool
deriving DecidableEq, Repr

/-- The result of a sector's read passed to SPR: the result word of R170, the generation word and the head. -/
structure RdRes where
  req : Nat
  psa : Nat
  word : Nat
  wgen : Nat
  poison : Nat
  body : List Byte        -- bytes 0x0000 to 0x1047 of the block delivered
deriving DecidableEq, Repr

/-! ### Spindle (R210–R237) -/

/-- The kind of a PWM period (R214, R232): gates off, normal, shift, compensation, or all low sides on. -/
inductive PwmKind where
  | off
  | normal
  | shift
  | comp
  | low
deriving DecidableEq, Repr

/-- The edges of one phase in a PWM period, in cycles: the first high-side half ends, the low side turns on and off, the second half begins (R211). -/
structure GateTimes where
  hiOff : Int
  loOn : Int
  loOff : Int
  hiOn : Int
deriving DecidableEq, Repr

/-- What the spindle controller keeps beside its registers. -/
structure Spm where
  gates : Nat := 0             -- SPG_AH, AL, BH, BL, CH, CL from bit 0 (R211)
  duty : List Int := [0, 0, 0] -- high-side duties of A, B, C in 2^-17
  kind : PwmKind := .off       -- the PWM period in progress (R214)
  phases : List GateTimes := []  -- its edges by phase (R211)
  next : List Int := [0, 0, 0] -- the duties that follow a compensation period
  offs : List Int := [0, 0, 0] -- shunt offsets (R220)
  iNow : List Int := [0, 0, 0] -- currents of the last sample, and of the one before
  iPrev : List Int := [0, 0, 0]
  ocRun : Nat := 0             -- consecutive samples above OC_TRIP (R236)
  theta : Nat := 0             -- observer angle, electrical units (R217)
  thetaLo : Nat := 0           -- its fraction, 2^-16 unit
  omega : Int := 0             -- observer speed, 2^-16 unit per PWM period, negative backward
  eps : Int := 0               -- angle error ε, electrical units
  emfOk : Bool := false        -- |ê| ≥ EMF_MIN: the estimate is valid (R217)
  epsOver : Bool := false      -- |ε| has stayed above 60° since the last electrical cycle (R236)
  epsRun : Nat := 0            -- electrical cycles in a row of that
  locked : Bool := false       -- the observer is locked
  cyc : Nat := 0               -- fabric cycles of PWM since STICTION, ALIGN or RAMP was entered
  olAcc : Nat := 0             -- what θ_ol has advanced in RAMP, in units / (8 × 10^8)^2 (R222)
  negFrom : Option Nat := none -- what θ_ol had advanced when ω̂ became negative in RAMP, while it stays so (R218)
  wrapDue : Bool := false      -- θ_ol has wrapped and the agreement is not tested yet (R223)
  openMask : Nat := 7          -- phases that may be open (R221)
  openSeen : Bool := false     -- a sample of the last half of T_ALIGN has been judged
  agree : Nat := 0             -- consecutive agreeing wraps (R223)
  align : Nat := 0             -- align angle of the attempt (R226)
  id : Int := 0                -- i_d* (R224)
  idStep : Nat := 0            -- electrical cycles of the i_d* blend left
  iq : Int := 0                -- i_q*
  spInt : Int := 0             -- speed-loop integrator, 2^-16 codes
  dInt : Int := 0              -- current-loop integrators, 2^-16 duty
  qInt : Int := 0
  vd : Int := 0                -- voltage command in force, 2^-16 duty
  vq : Int := 0
  revs : Nat := 0              -- electrical cycles in a row within TOL of TARGET (R230)
  overspeed : Bool := false    -- an overspeed episode is in progress (R236)
  lastTrip : Option Nat := none  -- device time of the last overcurrent or loss of sync (R236)
  tripCoast : Bool := false    -- COAST was entered from RUN by overcurrent or loss of sync (R218)
  lostSince : Bool := false    -- a clock source or the power has been lost since (R218)
  calibrating : Bool := false  -- an offset calibration runs (R220)
  genPend : Bool := false      -- a power-loss signal waits for the lock of R227 (R218)
deriving DecidableEq, Repr

/-! ### Scheduler and governor (R376–R404) -/

/-- A reservation whose item has ended, held until its lanes and engines are no longer charged (R391). -/
structure LateRes where
  heads : List Nat
  write : Bool
  mw : Nat
  dst : Nat              -- tally destination of its energy (R397)
deriving DecidableEq, Repr

/-- What the scheduler and the governor keep beside their registers. -/
structure Sched where
  items : Tab Item := []
  nextId : Nat := 0
  running : Tab Nat := []          -- item running on each arm (R382)
  decided : Tab Nat := []          -- decided next item of each arm
  vtime : Tab Nat := []            -- virtual time of each function, µs × 256 / weight (R384)
  rr : Nat := 0                    -- function of weight 0 last decided in layer 4
  use : List (Nat × Nat × Nat) := []  -- (start, end, class) of the background items that ended in the last 100 ms (R385)
  urgHold : Nat := 0               -- arms held by an urgent item that does not fit (R388)
  lastWr : List Nat := []          -- heads whose last operation was a write (R380)
  nofit : Nat := 0                 -- failed reservations not yet a whole unit of 1,024
  samples : List (Int × Int) := [] -- measured power and its remainder at the last 100 ticks, newest first, mW (R390)
  under : Nat := 0                 -- ticks in a row, up to 100, at whose end the average was at or below B_eff − GUARD (R396)
  rem : Tab Nat := []              -- nanojoules not yet delivered, by tally destination: function, or 64 + device counter (R397)
  hs : Tab Nat := []               -- the handshake register: µJ by tally destination (R442)
  wrBase : Tab Int := []           -- preamp rail level before the write on each arm, mW (R392)
  scale : Nat := 0                 -- a scale is requested (R440): 1, or 2 when the request found the fabric domain off
  drRes : Nat := 0                 -- recovery reservations held (R395)
  late : List LateRes := []        -- reservations whose items have ended, oldest first (R391)
  hist : Tab Nat := []             -- latency histogram: fn × 64 + class × 32 + bin (R404)
deriving DecidableEq, Repr

/-! ### Blaze (R447–R458) -/

/-- A blaze record (R448). -/
structure BlzRec where
  ty : Nat
  src : Nat
  seq : Nat
  time : Nat
  data : Nat
  rep : Nat
deriving DecidableEq, Repr

/-- The chain of the record last entered (R452). -/
structure Chain where
  ty : Nat
  src : Nat
  data : Nat
  first : Nat            -- SEQ of the chain's first record
  count : Nat            -- occurrences so far
  rep : Nat              -- REPEAT of its last member
  slot : Option Nat      -- slot of its last member once its body is being written
deriving DecidableEq, Repr

/-- Where the blaze engine stands (R451). -/
inductive BlzPhase where
  | idle
  | body (slot : Nat)
  | mark (slot : Nat)
deriving DecidableEq, Repr

/-- What the blaze keeps beside its registers. -/
structure Blaze where
  queue : List BlzRec := []      -- entered and not completely written, oldest first, at most 64
  chain : Option Chain := none
  drop : Nat := 0                -- records dropped since the last DROP record
  phase : BlzPhase := .idle
  erasing : Option Nat := none   -- circulating sector being erased
  erased : Option Nat := none    -- the sector last erased
  scanned : Bool := false        -- the power-on scan has ended
  perm : Nat := 0                -- permanent slots used
  circ : Nat := 0                -- next circulating slot
  lastPcycle : Nat := 0          -- PCYCLE of the previous power cycle
deriving DecidableEq, Repr

/-! ### Fault collector (R459–R483) -/

/-- What the collector keeps beside its registers. -/
structure Flt where
  cls : Tab Nat := []            -- class in which each checker's last fault was recorded, plus 1
  read : Tab Nat := []           -- 1: FLT_CHK_n read since its fault latched (R469)
  seq : Tab Nat := []            -- FSEQ of each checker's last fault, plus 1
  change : Nat := 0              -- CHANGE of log page C3h (R481)
deriving DecidableEq, Repr

/-! ### Surface parity, staging, salvage and cruise (R238–R281) -/

/-- Bytes 0x0000 to 0x1047 of an information block, with the generation word of the member (R242). -/
structure MemBlk where
  body : List Byte
  wgen : Nat
deriving DecidableEq, Repr

/-- Where the read of one member of a stripe stands; `word` is its result word (R170), `mse` the MSE of its lane result (R98). -/
inductive MemState where
  | wait
  | got (b : MemBlk) (word mse : Nat)
  | erased (word : Nat)
  | kept                       -- not read: a staged entry holds its newest copy (R271)
deriving DecidableEq, Repr

/-- What a stripe read is for. -/
inductive RdUse where
  | ladder (ctx : Nat)              -- the PARITY step of a recovery context (R162)
  | unit (op i : Nat)               -- a unit whose member is absent (R247)
  | stg (op i slot seq : Nat)       -- a unit of a staging stripe (R264)
  | salv (i : Nat)                  -- stripe i of the salvage job (R271)
  | cruise                          -- the cruise visit (R278)
  | cruise2                         -- its reread under the exclusive choker (R279)
deriving DecidableEq, Repr

/-- A read of a stripe's members (R264). `zone`, `k`: where the stripe stands after relocation. -/
structure StripeRd where
  id : Nat
  use : RdUse
  zone : Nat
  k : Nat
  red : Nat                         -- redundant members: 1 or 2
  skip : Option Nat                 -- the surface whose member is wanted and not read
  mem : Tab MemState                -- by surface
deriving DecidableEq, Repr

/-- A staging entry (R252) with the body its unit carries. -/
structure StgEntry where
  ty : Nat
  nsid : Nat
  nsGen : Nat
  unit : Nat
  atom : Nat
  cnt : Nat
  idx : Nat
  body : List Byte
  op : Nat
  t : Nat
  buf : Nat                -- landing addresses of the unit's data and host metadata
  md : Nat
deriving DecidableEq, Repr

/-- A live staged unit (R259). -/
structure StgLive where
  nsid : Nat
  nsGen : Nat
  unit : Nat
  seq : Nat
  slot : Nat
  gen : Nat
  atom : Nat
  committed : Bool
  body : List Byte
  buf : Nat                         -- landing address that its data was taken from
deriving DecidableEq, Repr

/-- An open atomic group (R261). -/
structure StgGroup where
  nsid : Nat
  nsGen : Nat
  atom : Nat
  units : List Nat
deriving DecidableEq, Repr

/-- What a stripe pass writes. -/
inductive PassUse where
  | stripe (op : Nat)
  | staging (seq : Nat)
  | salv (i : Nat)
  | cruise
deriving DecidableEq, Repr

/-- A stripe pass, with its complete image while it is an in-place pass (R248). -/
structure Pass where
  id : Nat
  use : PassUse
  zone : Nat                        -- where it writes, after relocation
  k : Nat
  zone0 : Nat                       -- the stripe it is a pass over
  k0 : Nat
  red : Nat
  nsid : Nat
  mem : Tab MemBlk                  -- by surface; absent members are left out of the media operation
  cls : Nat
  fn : Nat
  urgent : Bool
  fails : Nat
  item : Option Nat                 -- its media operation
  hold : Bool                       -- it waits for another pass over its stripe (R277)
  ended : Bool                      -- it ended other than OK and its image stays (R248)
  result : Option Bool              -- its media operation has ended: every head OK or not
  gen : Nat
  entries : List StgEntry           -- entries a staging stripe carries
  nsGen : Nat                       -- generation of the namespace it was made for
  buf : Option Nat                  -- landing address that its data was taken from: BUF of its descriptor
  t : Nat                           -- age origin (R379)
deriving DecidableEq, Repr

/-- A descriptor in hand (R280). -/
structure SprOp where
  id : Nat
  desc : Nat                        -- address of the descriptor
  op : Nat
  fn : Nat
  cls : Nat
  nsid : Nat
  lr : Bool
  urgent : Bool
  flush : Bool
  evt : Bool
  count : Nat
  addr : Nat
  buf : Nat
  meta' : Nat
  aux : Nat
  ustat : Nat
  units : List (Nat × Nat)          -- unit index and PSA of reads in flight
  done : Tab Nat                    -- status bytes of the units that have ended
  left : Nat                        -- staging entries not yet on media
  seq : Nat
  gen : Nat
  lad : Bool                        -- a sector of it entered the retry ladder
  cmd : Option Nat                  -- the context slot it reads for; such an operation has no descriptor
  t : Nat                           -- age origin: acceptance of the descriptor, admission of the command (R379)
  lastSeq : Nat                     -- WRITE_STG: the highest SEQ of a staging stripe of it that has ended
  waits : Bool                      -- WRITE_STG waits for a group to end; WRITE_STRIPE held under R260
deriving DecidableEq, Repr

/-- Where a stripe of the salvage batch stands (R271). -/
inductive SalvPhase where
  | choke | read | lostWait | write
deriving DecidableEq, Repr

/-- Where the stripe that cruise has in hand stands (R278, R279). -/
inductive CruisePhase where
  | choke         -- its shared choker waits
  | read          -- it is read
  | lostWait      -- a LOSS waits for room in the lost ring (R275)
  | exclusive     -- its exclusive choker waits, or is granted
  | reread        -- it is read again
  | write         -- its pass is written
deriving DecidableEq, Repr

/-- The stripe that cruise has in hand: as the main area names it, its owner, and its GEN when classified. -/
structure Cruise where
  zone : Nat
  k : Nat
  nsid : Nat
  n : Nat                           -- namespace stripe
  gen : Nat
  phase : CruisePhase
  lost : List Nat              -- data slots already reported lost at this visit
deriving DecidableEq, Repr

/-- What SPR keeps beside its registers. -/
structure Spr where
  nextId : Nat := 0
  ops : Tab SprOp := []
  look : Bool := false              -- SPR_RING_DB written since SPR last found no descriptor (R280)
  reads : Tab StripeRd := []
  passes : Tab Pass := []
  waiting : List StgEntry := []     -- entries not yet in a staging stripe, oldest first
  stgDue : Nat := 0                 -- of these, how many at the front are due and held for want of room (R254)
  live : List StgLive := []
  groups : List StgGroup := []
  batch : List (Nat × SalvPhase) := []  -- stripes of the salvage batch in hand
  pausing : Bool := false           -- PAUSE written, the batch in hand completes
  aborting : Bool := false
  cruise : Option Cruise := none    -- the stripe cruise has in hand
  change : Nat := 0                 -- CHANGE of log page C4h (R276)
  lostTotal : Nat := 0              -- LOST_TOTAL
  lost : List (Nat × Nat × Nat × Nat) := []  -- lost records of log page C4h: NSID, SLBA, NLB, CAUSE
  degraded : Bool := false          -- FLAGS.DEGRADED as last seen
  unrec : List (Nat × Nat) := []    -- units whose newest destage read ended UNREC: NSID and unit (R262)
  jobs : Tab (Nat × Nat) := []      -- by relocation entry: STATE of its last salvage job and units lost in it (R276)
deriving DecidableEq, Repr

/-! ### The endpoint and the command deck (R282–R375) -/

/-- What a read request to the host is for. -/
inductive ReqKind where
  | sqFetch (sq n : Nat)          -- `n` submission entries of queue `sq` (R325)
  | list (slot : Nat)             -- a PRP list or SGL segment of the command in a slot (R296)
  | data (slot off : Nat)         -- host data of a command, from byte `off` of its transfer
  | yrd (ch : Nat)                -- a yarder channel's source in host memory (R428)
deriving DecidableEq, Repr

/-- What waits for a tag (R285). -/
inductive TagWait where
  | fetch (sq : Nat)              -- a queue's fetch
  | cmd (slot : Nat)              -- a command's list or data
  | yrd (ch : Nat)                -- a yarder channel
deriving DecidableEq, Repr

/-- An outstanding read request; `got` is what its completions have returned (R285). -/
structure HostReq where
  fn : Nat
  kind : ReqKind
  addr : Nat
  len : Nat
  got : List Byte
  done : Bool
deriving DecidableEq, Repr

/-- A completion entry that waits to be posted (R365). -/
structure CplEnt where
  sq : Nat
  cid : Nat
  status : Nat          -- SCT × 256 + SC, with DNR in bit 14
  dw0 : Nat
  slot : Option Nat     -- the context slot it frees
  n : Nat               -- its place in the order in which its function's entries became ready (R305)
  stalled : Bool        -- it became ready while the function could issue no request
deriving DecidableEq, Repr

/-- A submission queue (R322–R325). -/
structure Sq where
  base : Nat
  size : Nat
  cq : Nat
  cmb : Bool
  head : Nat := 0
  tail : Nat := 0
  fetch : Nat := 0                 -- next entry to fetch
  got : List (List Byte) := []     -- entries fetched and not admitted
  ord : Nat := 0                   -- submission number of the next entry admitted
  failed : List Nat := []          -- submission numbers of commands since the previous Barrier that ended other than successfully (R352)
  broken : Option Nat := none      -- submission number of the Barrier that broke the queue
deriving DecidableEq, Repr

/-- A completion queue. -/
structure Cq where
  base : Nat
  size : Nat
  iv : Nat
  ien : Bool
  head : Nat := 0
  tail : Nat := 0
  phase : Bool := true
  wait : List CplEnt := []         -- entries that wait for room, oldest first
deriving DecidableEq, Repr

/-- A function: what the endpoint and the deck keep of it beside its registers. -/
structure Fn where
  stall : Option Nat := none       -- device time at which a Bus Master Enable stall began (R303)
  bmeSeen : Bool := false          -- Bus Master Enable has been set since its last reset (R432)
  silent : Bool := false           -- it issues no request until a reset (R306)
  resetting : Bool := false        -- an FLR, or a conventional reset, is in progress (R314, R568)
  online : Bool := false           -- the secondary controller is online (R328)
  everOnline : Bool := false
  nq : Nat := 0                    -- queue pairs held
  nv : Nat := 0                    -- vectors held
  cmbUnits : Nat := 0
  sqs : Tab Sq := []
  cqs : Tab Cq := []
  rr : Nat := 0                    -- queue last served and entries it has had in its turn (R325)
  burst : Nat := 0
  unsig : Tab (Nat × Nat) := []    -- by vector: unsignalled entries and the time of the oldest (R370)
  feat : Tab Nat := []             -- features set, by FID (R336)
  noCoal : List Nat := []          -- vectors whose CD is 1 (feature 09h)
  aer : List Nat := []             -- slots of the Asynchronous Event Requests outstanding
  events : List (Nat × Nat) := []  -- events held: type, information (R372)
  raised : List Nat := []          -- event types raised and not cleared by a log page read
  errLog : List (List Byte) := []  -- Error Information log, newest first (R367)
  errCount : Nat := 0
  nsChanged : List Nat := []       -- Changed Namespace List
  cplNum : Nat := 0                -- completion entries that have become ready (R305)
deriving DecidableEq, Repr

/-- A namespace record of the deck (R339–R342). -/
structure NsRec where
  nsze : Nat
  flbas : Nat
  dps : Nat
  nmic : Nat
  profile : Nat
  awu : Nat
  gen : Nat
  attached : Nat               -- bit f: attached to function f
  exts : List (Nat × Nat × Nat)  -- extents: first namespace stripe, zone, first stripe index
  fill : Nat := 0              -- fill watermark W
  early : List Nat := []       -- early list
deriving DecidableEq, Repr

/-- Where a command in a context slot stands. -/
inductive CmdPhase where
  | run           -- an admin command, or one without a choker, that can be carried out
  | held          -- held while IO_EN is 0 (R331)
  | entryWait     -- it waits for a choker entry (R347)
  | chokeWait     -- its choker waits (R345)
  | granted       -- its choker is granted: it is in the ready set
  | active        -- its media work or its transfer runs
  | done          -- its completion entry waits to be posted
deriving DecidableEq, Repr

/-- A pointer to the next PRP list or SGL segment of a command: address, bytes, and whether it is an SGL segment. -/
structure ListPtr where
  addr : Nat
  len : Nat
  sgl : Bool
deriving DecidableEq, Repr

/-- A command in a context slot (R329). -/
structure Cmd where
  slot : Nat
  fn : Nat
  sq : Nat
  sqe : List Byte
  num : Nat                    -- admission number
  ord : Nat                    -- submission number in its queue
  t : Nat                      -- device time of admission
  phase : CmdPhase
  ck : Option Nat := none      -- its choker entry
  buf : Nat := 0               -- landing addresses drive firmware gave it: data, host metadata,
  md : Nat := 0
  scr : Nat := 0               --   and the data and metadata of merges (R131) or of the host's side of a Compare
  scrMd : Nat := 0
  op : Option Nat := none      -- the SPR operation that reads for it
  ust : Tab Nat := []          -- status of each unit that has ended (R265)
  need : Nat := 0              -- units that have to end
  segs : List (Nat × Nat × Nat) := []  -- its host buffer: kind (0 host, 1 CMB, 2 bit bucket), address, bytes
  list : Option ListPtr := none        -- the list it waits for
  asked : Nat := 0             -- bytes of host data requested so far
  got : Nat := 0               -- bytes of host data received
  pois : Bool := false         -- some of them were poisoned (R299)
  merged : Bool := false       -- the reads of its merges have ended (R131), or those of a Compare
  dfail : Option Nat := none   -- status of a data phase that failed (R298, R300)
  commit : Bool := false       -- past its commit point (R349)
  flags : Nat := 0             -- deck status word of R369
  dw0 : Nat := 0
  status : Nat := 0
  txn : Bool := false          -- it waits for a commit or a scale
  inv : Bool := false          -- it ended at admission (R332, R437)
  lbuf : List Byte := []       -- bytes of the list it waits for
  data : List Byte := []       -- host data of an admin command
  due : Bool := false          -- a write whose data is all there waits for its queue's order (R349)
  det : Bool := false          -- it outlives its queue and has no completion entry (R306, R358)
  bytes : Nat × Nat := (0, 0)  -- data and metadata bytes it counts, once it has ended (R437)
deriving DecidableEq, Repr

/-- Who holds a choker entry (R346). -/
inductive Holder where
  | cmd (slot : Nat)
  | port (c : Nat)
  | salv (i : Nat)
  | cruise
deriving DecidableEq, Repr

/-- A choker entry (R345). -/
structure Choke where
  idx : Nat
  nsid : Nat
  first : Nat
  last : Nat
  excl : Bool
  holder : Holder
  granted : Bool
deriving DecidableEq, Repr

/-- An orphan record (R364). -/
structure Orphan where
  nsid : Nat
  gen : Nat
  first : Nat
  last : Nat
  fn : Nat
deriving DecidableEq, Repr

/-- An entry of the protected write cache, in commit order (R256–R259). `safe` holds the units whose data media holds. -/
structure CacheEnt where
  nsid : Nat
  gen : Nat
  first : Nat
  count : Nat
  buf : Nat
  md : Nat
  fn : Nat
  safe : List Nat := []
deriving DecidableEq, Repr

/-- What the endpoint and the deck keep beside their registers. -/
structure Deck where
  fns : Tab Fn := []
  cmds : Tab Cmd := []             -- by context slot
  nextNum : Nat := 0               -- next admission number
  rrFn : Nat := 0                  -- function last admitted (R329)
  chk : List Choke := []           -- choker entries in the order of R345
  orphans : List Orphan := []      -- oldest first
  nss : Tab NsRec := []            -- namespaces by NSID
  nsGen : Tab Nat := []            -- NS_GEN last used by each NSID
  reqs : Tab HostReq := []         -- outstanding read requests, by function and tag
  waits : List (Nat × TagWait) := []  -- those that wait for a tag, with their functions, in request order (R285)
  flushed : Tab Nat := []          -- tags whose completions are dropped in silence, with the bytes still to come (R314)
  cache : List CacheEnt := []      -- oldest first
  cmb : Tab Byte := []             -- CMB SRAM, bytes written
  cmbPois : List Nat := []         -- CMB granules marked poisoned (R301)
  cmbEra : Nat := 0                -- times its contents have been lost
  intx : Bool := false             -- INTA asserted (R311)
  intPend : Tab Nat := []          -- MSI vectors pending, PF0 (R310)
  change : Nat := 0                -- CHANGE of log page C5h (R374)
deriving DecidableEq, Repr

/-! ### The landing and the yarder (R405–R435) -/

/-- A merge buffer entry (R417): bytes not valid are none. -/
structure MrgEnt where
  g : Nat
  bytes : List (Option Byte)
  poison : Bool
  t : Nat                     -- device time at which it was made
deriving DecidableEq, Repr

/-- A line of a control core's L1-D (R420). -/
structure L1Line where
  core : Nat
  line : Nat                  -- address / 64
  data : List Byte
  dirty : Bool
  stale : Bool := false       -- another master has written the line since it became dirty (R424)
deriving DecidableEq, Repr

/-- An access that the landing holds while it is in self-refresh or copies the block (R408, R414). -/
inductive LndAcc where
  | store (m addr : Nat) (bs : List Byte) (marks mask : Nat)  -- a write of the hardware master of R467's code m: a mark for each granule, and the POISON
                                                              -- bits that poisoned host metadata in it sets (R139)
  | write (m : Master) (addr : Nat) (bs : List Byte) (poison : Bool) (evict : List Nat) (ecc : List Ecc)
  | read (m : Master) (addr n : Nat) (evict : List Nat) (ecc : List Ecc)
  | amo (c : Fin 4) (op : AmoOp) (addr : Nat) (dbl : Bool) (x : BitVec 64) (e : Ecc)
  | fence (c : Fin 4) (op : Nat) (lines : List Nat) (ecc : List Ecc)
  | fenceRd (c : Fin 4) (addr n : Nat)                    -- a read of LND_FFENCE_c, which returns after the operations before it (R421)
deriving DecidableEq, Repr

/-- What the landing and the coherence rules keep beside the registers. -/
structure Lnd where
  bad : List Nat := []        -- granules that read uncorrectable until written (R411)
  mrg : List MrgEnt := []     -- the merge buffer, oldest first
  scrub : Nat := 0            -- next granule the scrubber reads
  scrubAt : Option Nat := none  -- device time at which its present pass began (R413)
  fill : Option (Nat × Nat) := none  -- granules of the fill that runs: first and count (R409)
  dup : List Nat := []        -- blocks of 128 granules that two remap entries name (R414)
  held : List LndAcc := []    -- accesses held, oldest first
  yrdLast : Tab Nat := []     -- by PRI: the yarder channel that last took a descriptor (R428)
  l1 : List L1Line := []      -- lines held in the L1-D caches
  mdPois : Tab Nat := []      -- by granule of host metadata: its bytes that arrived poisoned, as a mask (R139, R299)
  resv : Tab Nat := []        -- by core: the line of its LR reservation (R425)
deriving DecidableEq, Repr

/-- A descriptor in progress on a yarder channel (R427); `data` is what its host reads have returned with their marks. -/
structure YDesc where
  addr : Nat
  idx : Nat
  evt : Bool
  srcMode : Nat
  dstMode : Nat
  fn : Nat
  len : Nat
  src : Nat
  dst : Nat
  data : List (Byte × Bool)   -- read and not yet written
  asked : Nat                 -- bytes that host requests have named
  fail : Option Nat           -- status of what failed it: DESC, BUS, HOST or ABORT
  chunks : Nat                -- staging chunks it holds
  done : Nat := 0             -- bytes written
  pois : Bool := false        -- a byte written was poisoned (R431)
deriving DecidableEq, Repr

/-- What a yarder channel keeps beside its registers. -/
structure YCh where
  look : Bool := false                 -- a doorbell has been written since it last met OWN = 0
  cur : Option YDesc := none
  ahead : Option YDesc := none         -- the next descriptor, which the read engine has started (R428)
  aborts : List (Nat × Nat) := []      -- functions reset, each with the descriptors still to abort for it (R434)
deriving DecidableEq, Repr

/-! ### What leaves the chip -/

/-- A character of an arm link's downlink (R50): the special ones and a data byte. -/
inductive LinkChar where
  | sop | sopP | eop | exec
  | data (b : Byte)
deriving DecidableEq, Repr

/-- What a command sends out of the chip: the model's own record of it, newest first (log entry 5). -/
inductive Output where
  | value (addr v : Nat)                          -- the value a register read returned
  | link (arm : Nat) (cs : List LinkChar)         -- characters of a downlink frame, or EXEC alone (R50, R52)
  | medium (lane psa : Nat) (bits : List (Bool × Nat))  -- bits written, in order, each transition with its delay in T/32 (R107, R121)
  | hostWrite (fn addr : Nat) (data : List Byte) (ep ro : Bool)  -- a memory write to the host; ep: poisoned, ro: Relaxed Ordering
  | hostRead (fn tag addr len : Nat)              -- a memory read request to the host
  | cpl (fn : Nat) (data : List Byte) (ep : Bool) -- a completion to a host read
  | ur (fn : Nat)                                 -- a completion with Unsupported Request
  | rrs (fn : Nat)                                -- a completion with Request Retry Status (R314)
  | msix (fn addr data : Nat)                     -- an MSI-X or MSI message
  | intx (level : Bool)                           -- an INTx message
  | err (fn kind : Nat)                           -- an ERR_COR (0), ERR_NONFATAL (1) or ERR_FATAL (2) message
  | mi (data : List Byte)                         -- an NVMe-MI or MCTP response
  | nand (row : Nat) (data : List Byte)           -- a page program of the safe store
  | data (addr : Nat) (bs : List (Byte × Bool))   -- what a read of a memory returned, with poison marks
deriving DecidableEq, Repr

/-! ### Clocks, power and the dump (R517–R546) -/

/-- The dump or restore in progress (R539–R544): the next page to program, its cause, remaps made (entry, first page moved, spare), the
spares used, and the header's place once a program of it has failed. -/
structure DumpRun where
  cause : Nat
  page : Nat := 0
  remaps : List (Nat × Nat × Nat) := []
  spares : Nat := 0
  header : Option Nat := none
  ownTime : Nat := 0           -- BLZ_TIME at the signal
deriving DecidableEq, Repr

/-- What the CPR block keeps beside its registers. -/
structure Cpr where
  stage : Nat := 0             -- 0: AON reset released; 1: the other domains are powered; 2: PLLs locked, boot ROM running; 3: booted
  cpHeld : Bool := true        -- CP0–CP3 are held in reset
  lyHeld : Bool := true        -- the Lyolo core is held in reset, or reloading
  protMoved : Bool := false    -- LND_PROT changed while the region held live contents: the next dump is undefined (R416)
  warm : Bool := false         -- a warm firmware reset reloads the CP segments (R535)
  frozen : Bool := false       -- the LTSSM is frozen (R522)
  held : List Output := []     -- TLPs that wait for a frozen link, oldest first (R522)
  unseen : Nat := 2            -- monitors not yet armed: bit 1, the REFCLK and PCIe PLL monitors, until the first L0 (R521)
  aonSleep : Bool := false
  perst : Bool := true         -- PERST_N is low
  perstAt : Nat := 0           -- device time since which it has been low (R531)
  testMode : Bool := false     -- TESTMODE was high at power-on reset: Scetus does not boot (R557)
  hostOff : Bool := false      -- the host domain is off
  supplies : Bool := true      -- the AON supply is within its window
  dump : Option DumpRun := none
  dumpLost : Bool := false     -- protected contents were lost for want of an armed dump, and the blaze does not say so yet (R545)
  savedCache : List CacheEnt := []  -- the write cache entries and pass images that the last valid dump holds (R257, R258)
  savedImages : List Pass := []
  band : List StgLive := []    -- committed staged entries on media at the last power loss, by which the staging index is rebuilt (R258 step 4)
  nand : Tab (List Byte) := [] -- NAND pages programmed, by row
deriving DecidableEq, Repr

/-! ### Management and setpoints (R484–R516) -/

/-- A firmware activation in progress (R503): `phase` 1 checked, 2 staged, 3 the new firmware is released; `num` is the admission number of
its Firmware Commit. -/
structure Activation where
  phase : Nat
  num : Nat
  slot : Nat
  go : Bool := false           -- GO waits for a commit to end (R505)
  t : Nat := 0                 -- device time of the release of step 5 (R504)
deriving DecidableEq, Repr

/-- What a wear model keeps and publishes (R495, R496): samples as (power-on hours, m in 2^-32), newest first, at most 64. -/
structure WearRec where
  hist : List (Nat × Nat) := []
  state : Nat := 0
  used : Nat := 0
  metric : Nat := 0
  eol : Nat := 0xFFFFFFFF
  lo : Nat := 0xFFFFFFFF
  hi : Nat := 0xFFFFFFFF
  updated : Nat := 0
deriving DecidableEq, Repr

/-- What Lyolo keeps beside its registers. -/
structure Mgt where
  wdt : Nat := 0               -- device time of the last watchdog kick (R486)
  life : Nat := 0              -- next slot of the life record ring (R490)
  boot : Nat := 0              -- firmware slot the boot ROM has chosen, 0 none (R500)
  next : Bool := false         -- it was chosen as NEXT
  fresh : Bool := false        -- an image has been downloaded and not committed (R502)
  act : Option Activation := none
  wear : Tab WearRec := []     -- by record of log page C0h: the wear state area of the NOR (R495)
  wearChange : Nat := 0        -- CHANGE of log page C0h
  eid : Nat := 0               -- MCTP endpoint ID (R506)
  mtu : Nat := 64              -- MCTP transmission unit, bytes
  monOut : Tab Nat := []       -- by supply monitor: consecutive samples outside its window (checkers 14 to 19)
  rails : Tab Nat := []        -- by thermistor input: consecutive samples at a rail, up to 100 (R491)
  saved : Nat := 0             -- power-on seconds at the last life record (R490)
  capSeen : Bool := false      -- the hold-up capacitor has been sampled since power-on (R494)
  low : Nat := 0               -- consecutive samples of monitor 3 below CPR_PL.THR (R537)
  burn : Option (Nat × Nat) := none  -- the burn in progress: OP, and the SVN or key slot (R498)
deriving DecidableEq, Repr

/-- Fuses that Scetus itself burns (R498): they outlast every reset. -/
structure Fuse where
  svn : Nat := 0
  revoked : Nat := 0
deriving DecidableEq, Repr

/-- What CFG keeps beside its registers (R507–R514). -/
structure Cfg where
  rec' : List Byte := []       -- the record in use, as the record mirror shows it
  stage : List Byte := []      -- items staged, in order
  timer : Nat := 0             -- device time of BEGIN or of the last STAGE
  timedOut : List Nat := []    -- TXIDs that were rolled back by timeout
  merged : List Byte := []     -- the record being committed
  num : Option Nat := none     -- admission number of the COMMIT that waits
  stored : Bool := false       -- step 3 of the commit has ended
  arms : List Nat := []        -- arms held, whose quiet points are still to come
  blob : Bool := false         -- the commit changes a blob
deriving DecidableEq, Repr

/-- The state of the machine. -/
structure State where
  regs : Tab Word                 -- every register of `allRegs`, by address
  locked : Bool                   -- the boot setpoint commit has been made: RWL fields are read only (R9, R511)
  time : Nat                      -- device time, ns (R518)
  free : Nat                      -- free values taken so far (the model's own)
  out : List Output               -- what has left the chip (the model's own)
  sram : Tab Byte                 -- shared SRAM, bytes written
  sramEra : Nat                   -- times its contents have been lost
  nor : Tab Byte                  -- serial NOR, bytes that differ from the erased 0xFF (R487)
  mirror : Tab Byte               -- blaze mirror SRAM, bytes that differ from 0xFF (R447)
  land : Tab Granule              -- landing granules written, by granule number (R409)
  landEra : Nat                   -- times the landing's contents have been lost

  geo : Option Geometry
  geoImg : Option Nat             -- address of the image of the load that runs (R29)
  links : Tab Link
  lanes : Tab Lane
  syns : Tab Syn
  wops : Tab WriteOp              -- the write operation of each arm
  wbufs : Tab (List InfoBlock)    -- the write buffer of each lane (R118)
  dec : Dec
  arms : Tab ArmSrv
  heads : Tab HeadSrv
  shock : Shock
  shockCh : Tab ShockCh
  spm : Spm
  sched : Sched
  spr : Spr
  deck : Deck
  cpr : Cpr
  lnd : Lnd
  ychs : Tab YCh                  -- yarder channels
  blz : Blaze
  flt : Flt
  mgt : Mgt
  fuse : Fuse
  cfg : Cfg
  tcm : Tab Byte                  -- TCM of CP0–CP3: core × 2^20 + byte; bytes loaded
  lyo : Tab Byte                  -- Lyolo SRAM, bytes loaded
  pending : List Instr            -- commands waiting, first in, first out
deriving DecidableEq, Repr

/-- The machine right after reset: power-on reset released, every register at its reset value. -/
def State.reset : State where
  regs := []
  locked := false
  time := 0
  free := 0
  out := []
  sram := []
  sramEra := 0
  nor := []
  mirror := []
  land := []
  landEra := 0

  geo := none
  geoImg := none
  links := []
  lanes := []
  syns := []
  wops := []
  wbufs := []
  dec := {}
  arms := []
  heads := []
  shock := {}
  shockCh := []
  spm := {}
  sched := {}
  spr := {}
  deck := {}
  cpr := {}
  lnd := {}
  ychs := []
  blz := {}
  flt := {}
  mgt := {}
  fuse := {}
  cfg := {}
  tcm := []
  lyo := []
  pending := []

end Sys2Proof.Machine
end

