-- ==== Sys2Proof/Machine/Ops.lean ====
section
/-! DEFINITION. The named operations over registers, memories, events and the blaze queue that every family uses. -/

namespace Sys2Proof.Machine

open Sys2Proof

/-- What a command answers. -/
abbrev Answer := Host.Outcome State Fault Refusal

/-! ### Registers -/

/-- What instance (i, j) of register `r` holds. -/
def rd (r : RegDef) (i j : Nat) (s : State) : Nat :=
  ((Tab.get? s.regs (r.addr i j)).getD (word (r.reset i j))).toNat

/-- `s` with instance (i, j) of `r` holding `v`; a value equal to the reset value is not listed. -/
def wr (r : RegDef) (i j : Nat) (v : Nat) (s : State) : State :=
  { s with regs := Tab.set s.regs (word (r.reset i j)) (r.addr i j) (word v) }

/-- Field `f` of instance (i, j). -/
def fld2 (f : Field) (i j : Nat) (s : State) : Nat := bitsOf (rd f.reg i j s) f.hi f.lo

/-- Field `f` of instance i. -/
def fld (f : Field) (i : Nat) (s : State) : Nat := fld2 f i 0 s

/-- `s` with field `f` of instance (i, j) holding `v`. -/
def put2 (f : Field) (i j v : Nat) (s : State) : State :=
  wr f.reg i j (putBits (rd f.reg i j s) f.hi f.lo v) s

/-- `s` with field `f` of instance i holding `v`. -/
def put (f : Field) (i v : Nat) (s : State) : State := put2 f i 0 v s

/-- Bit `k` of field `f` of instance i. -/
def bit (f : Field) (i k : Nat) (s : State) : Bool := (fld f i s).testBit k

/-- `s` with bit `k` of field `f` of instance i set to `b`. -/
def putFBit (f : Field) (i k : Nat) (b : Bool) (s : State) : State := put f i (putBit (fld f i s) k b) s

/-- A one-bit field read as a truth value. -/
def flag (f : Field) (i : Nat) (s : State) : Bool := fld f i s == 1

/-- The largest value of field `f`. -/
def fmax (f : Field) : Nat := 2 ^ (f.hi + 1 - f.lo) - 1

/-- Count `n` more in field `f`, saturating at the field's largest value. -/
def countN (f : Field) (i n : Nat) (s : State) : State := put f i (min (fmax f) (fld f i s + n)) s

/-- Count one more in field `f`, saturating. -/
def count (f : Field) (i : Nat) (s : State) : State := countN f i 1 s

/-- A field whose value 0 acts as 1. -/
def fld1 (f : Field) (i : Nat) (s : State) : Nat := max 1 (fld f i s)

/-- The bits of the bytes that `be` names among the `n` bytes of a register. -/
def beMask (n be : Nat) : Nat := upTo n (fun k m => if be.testBit k then m + 255 * 256 ^ k else m) 0

/-- What a register holds after a write of the bytes named, by the access codes of R9: RW bits, RWL bits until the
setpoint commit, and W1C bits cleared by 1; every other bit stays, a reserved bit written 1 among them, whose result R6 leaves undefined
(DESIGN CHOICE, log entry 57). -/
def merged (r : RegDef) (locked : Bool) (old : Nat) (w : BusW) : Nat :=
  let m := beMask r.bytes w.be
  let wm := m &&& (if locked then r.rw else r.rw ||| r.rwl)
  let clr := m &&& r.w1c &&& w.data
  let v := (old &&& (2 ^ 64 - 1 - wm)) ||| (w.data &&& wm)
  v &&& (2 ^ 64 - 1 - clr)

/-- A write of the bytes named to instance (i, j) of `r`, without the actions that have a row of their own. -/
def busWrite (r : RegDef) (i j : Nat) (w : BusW) (s : State) : State :=
  wr r i j (merged r s.locked (rd r i j s) w) s

/-- The write names bit `b` of the register and writes it 1. -/
def wrote1 (b : Nat) (w : BusW) : Bool := w.be.testBit (b / 8) && w.data.testBit b

/-- The write names bit `b` of the register and writes it 0. -/
def wrote0 (b : Nat) (w : BusW) : Bool := w.be.testBit (b / 8) && !w.data.testBit b

/-- The boot setpoint commit: RWL fields are read only from now on (R511). -/
def bootCommit (s : State) : State := put F.CFG_STAT_LOCKED 0 1 (put F.CFG_CTL_LOCK 0 1 { s with locked := true })

/-! ### What leaves the chip, free values -/

/-- Record an output. -/
def emit (o : Output) (s : State) : State := { s with out := o :: s.out }

/-- The next free value (log entry 1), with the counter advanced. -/
def takeFree (s : State) : Nat × State := ((Config.free s.free).toNat, { s with free := s.free + 1 })

/-! ### Memories -/

/-- Shared SRAM base and size (R3, R10). -/
def sramBase : Nat := 0x20000000
/-- The 8 MiB of shared SRAM. -/
def sramSize : Nat := 0x800000

/-- The bytes from `a`, `n` of them, lie inside shared SRAM. -/
def inSram (a n : Nat) : Bool := sramBase ≤ a && a + n ≤ sramBase + sramSize

/-- One byte of shared SRAM; a byte nothing has written reads as a free value (log entry 2). -/
def sramByte (s : State) (a : Nat) : Byte := (Tab.get? s.sram a).getD (Config.unwritten 0 s.sramEra a)

/-- `n` bytes of shared SRAM from `a`. -/
def sramRead (s : State) (a n : Nat) : List Byte := (List.range n).map (fun k => sramByte s (a + k))

/-- A little-endian number in shared SRAM. -/
def sramNat (s : State) (a n : Nat) : Nat := natOf (sramRead s a n)

/-- Bytes stored from `a` in a memory table. -/
def putBytes : Tab Byte → Nat → List Byte → Tab Byte
  | t, _, [] => t
  | t, a, b :: bs => putBytes (Tab.put t a b) (a + 1) bs

/-- A write from any master to `n` bytes from `a`, at the point of coherence: reservations of its lines are broken, and a copy that a control core
holds dirty is stale (R424, R425). -/
def breakResv (a n : Nat) (s : State) : State :=
  if s.lnd.resv.isEmpty && s.lnd.l1.isEmpty then s
  else
    let met := fun (l : Nat) => a / 64 ≤ l && l ≤ (a + n - 1) / 64
    { s with lnd := { s.lnd with
      resv := s.lnd.resv.filter (fun e => !met e.2)
      l1 := s.lnd.l1.map (fun x => if x.dirty && met x.line then { x with stale := true } else x) } }

/-- Bytes stored in shared SRAM; bytes outside it are not stored. -/
def sramWrite (a : Nat) (bs : List Byte) (s : State) : State :=
  if inSram a bs.length then { (breakResv a bs.length s) with sram := putBytes s.sram a bs } else s

/-- Bytes stored from `a` in a memory whose unlisted bytes read 0xFF. -/
def putFF : Tab Byte → Nat → List Byte → Tab Byte
  | t, _, [] => t
  | t, a, b :: bs => putFF (Tab.set t 0xFF a b) (a + 1) bs

/-- One byte of the serial NOR; erased bytes read 0xFF. -/
def norByte (s : State) (a : Nat) : Byte := Tab.get s.nor 0xFF a

/-- `n` bytes of the serial NOR from `a`. -/
def norRead (s : State) (a n : Nat) : List Byte := (List.range n).map (fun k => norByte s (a + k))

/-- A NOR program: bits go from 1 to 0 only (R452, R454). -/
def norProgram (a : Nat) (bs : List Byte) (s : State) : State :=
  { s with nor := putFF s.nor a (bs.zipIdx.map (fun (b, k) => b &&& norByte s (a + k))) }

/-- A NOR erase: `n` bytes from `a` read 0xFF. -/
def norErase (a n : Nat) (s : State) : State := { s with nor := Tab.clear s.nor a (a + n) }

/-- Landing DRAM base (R10). -/
def landBase : Nat := 0x800000000

/-- The granule stored at granule number `g`; one that nothing has written, or that reads uncorrectable, has free bytes
(R409, R411), the latter with its mark. -/
def stored (s : State) (g : Nat) : Granule :=
  let open' : Granule := ⟨(List.range 64).map (fun k => Config.unwritten 1 s.landEra (64 * g + k)), Config.openVal 409 [s.landEra, g] != 0⟩
  if s.lnd.bad.contains g then { open' with poison := true }
  else if s.lnd.dup.contains (g / 128) || s.lnd.fill.any (fun r => r.1 ≤ g && g < r.1 + r.2) then open'
  else (Tab.get? s.land g).getD open'

/-- The bytes of a merge buffer entry laid over a granule, marks ORed (R418, R419). -/
def overlay (e : MrgEnt) (x : Granule) : Granule :=
  ⟨List.zipWith (fun (o : Option Byte) b => o.getD b) e.bytes x.data, e.poison || x.poison⟩

/-- The granule that a read returns: the stored one with its merge buffer entry laid over it (R419). -/
def granule (s : State) (g : Nat) : Granule := match s.lnd.mrg.find? (fun e => e.g == g) with
  | none => stored s g
  | some e => overlay e (stored s g)

/-- A whole granule is written: a merge buffer entry for it is discarded (R412, R417). -/
def putGranule (g : Nat) (x : Granule) (s : State) : State :=
  { (breakResv (64 * g) 64 s) with
    land := Tab.put s.land g x
    lnd := { (breakResv (64 * g) 64 s).lnd with bad := s.lnd.bad.filter (· != g), mrg := s.lnd.mrg.filter (fun e => e.g != g) } }

/-- First address above the data area (R405). -/
def dataEnd (s : State) : Nat := landBase + 0x78000000 * 2 ^ fld F.LND_CFG_SIZE 0 s

/-- `n` bytes of the landing from `a`. -/
def landRead (s : State) (a n : Nat) : List Byte :=
  (List.range n).map (fun k => ((granule s ((a + k) / 64)).data[(a + k) % 64]?).getD 0)

/-- The landing answers accesses to `n` bytes from `a` (R406, R407). -/
def landOk (s : State) (a n : Nat) : Bool := fld F.LND_STAT_STATE 0 s == 2 && landBase ≤ a && a + n ≤ dataEnd s

/-- What a hardware master reads: nothing is said of the bytes of an access that the landing refuses (R406, R407; log entry 24). -/
def hwBytes (s : State) (a n : Nat) : List Byte :=
  if landOk s a n then landRead s a n else (List.range n).map (fun k => byte (Config.openVal 406 [a + k]).toNat)

/-- One byte of the landing with its granule's mark, as a hardware master reads it. -/
def landMark (s : State) (a : Nat) : Byte × Bool := ((hwBytes s a 1).headD 0, (granule s (a / 64)).poison)

/-- Store whole granules from a 64-byte aligned address, granule i with bit i of `poison` as its mark (R405). -/
def landStore (a : Nat) (bs : List Byte) (poison : Nat) (s : State) : State :=
  upTo (bs.length / 64) (fun i s =>
    putGranule (a / 64 + i) ⟨(bs.drop (64 * i)).take 64, poison.testBit i⟩ s) s

/-- The poison marks of `n` granules from `a`. -/
def landPoison (s : State) (a n : Nat) : Nat :=
  upTo n (fun i m => if (granule s (a / 64 + i)).poison then putBit m i true else m) 0

/-- Accesses to the landing are held in self-refresh (R408). -/
def landHeld (s : State) : Bool := fld F.LND_STAT_STATE 0 s == 3

/-- First granule of the block that remap entry `k` names. -/
def rmapFirst (s : State) (k : Nat) : Nat := fld F.LND_RMAP_ADDR k s * 128

/-- An access to `n` bytes from `a` is held: in self-refresh, or while one of its blocks is copied (R408, R414). -/
def landBusy (s : State) (a n : Nat) : Bool :=
  landHeld s || (List.range 32).any (fun k => flag F.LND_RMAP_COPY k s && rmapFirst s k < (a + n + 63) / 64 && a / 64 < rmapFirst s k + 128)

/-! ### Unit records -/

def link (s : State) (a : Nat) : Link := Tab.get s.links {} a
def setLink (a : Nat) (x : Link) (s : State) : State := { s with links := Tab.set s.links {} a x }
def lane (s : State) (n : Nat) : Lane := Tab.get s.lanes {} n
def setLane (n : Nat) (x : Lane) (s : State) : State := { s with lanes := Tab.set s.lanes {} n x }
def syn (s : State) (a : Nat) : Syn := Tab.get s.syns {} a
def setSyn (a : Nat) (x : Syn) (s : State) : State := { s with syns := Tab.set s.syns {} a x }
def wop (s : State) (a : Nat) : Option WriteOp := Tab.get? s.wops a
def setWop (a : Nat) (x : WriteOp) (s : State) : State := { s with wops := Tab.put s.wops a x }
def dropWop (a : Nat) (s : State) : State := { s with wops := Tab.erase s.wops a }
def wbuf (s : State) (n : Nat) : List InfoBlock := Tab.get s.wbufs [] n
def setWbuf (n : Nat) (x : List InfoBlock) (s : State) : State := { s with wbufs := Tab.set s.wbufs [] n x }
def arm (s : State) (a : Nat) : ArmSrv := Tab.get s.arms {} a
def setArm (a : Nat) (x : ArmSrv) (s : State) : State := { s with arms := Tab.set s.arms {} a x }
def head (s : State) (h : Nat) : HeadSrv := Tab.get s.heads {} h
def setHead (h : Nat) (x : HeadSrv) (s : State) : State := { s with heads := Tab.set s.heads {} h x }
def shk (s : State) (c : Nat) : ShockCh := Tab.get s.shockCh {} c
def setShk (c : Nat) (x : ShockCh) (s : State) : State := { s with shockCh := Tab.set s.shockCh {} c x }
def slot (s : State) (k : Nat) : Option Slot := Tab.get? s.dec.slots k
def setSlot (k : Nat) (x : Slot) (s : State) : State := { s with dec := { s.dec with slots := Tab.put s.dec.slots k x } }
def freeSlot (k : Nat) (s : State) : State := { s with dec := { s.dec with slots := Tab.erase s.dec.slots k } }
def eng (s : State) (e : Nat) : Engine := Tab.get s.dec.engines {} e
def setEng (e : Nat) (x : Engine) (s : State) : State :=
  { s with dec := { s.dec with engines := Tab.set s.dec.engines {} e x } }
def ctx (s : State) (c : Nat) : Option Ctx := Tab.get? s.dec.ctxs c
def setCtx (c : Nat) (x : Ctx) (s : State) : State := { s with dec := { s.dec with ctxs := Tab.put s.dec.ctxs c x } }
def freeCtx (c : Nat) (s : State) : State := { s with dec := { s.dec with ctxs := Tab.erase s.dec.ctxs c } }
def item (s : State) (i : Nat) : Option Item := Tab.get? s.sched.items i
def setItem (x : Item) (s : State) : State := { s with sched := { s.sched with items := Tab.put s.sched.items x.id x } }
/-- An item ends; with one that was granted alone, the governor grants others again (R393). -/
def dropItem (i : Nat) (s : State) : State :=
  let s := if (item s i).any (·.solo) then put F.GOV_STAT_SOLO 0 0 s else s
  { s with sched := { s.sched with items := Tab.erase s.sched.items i } }

/-! ### Blaze queue (R450, R452) -/

/-- Power-cycle count and power-on seconds as one time stamp (R448, R456). -/
def blzTime (s : State) : Nat := rd R.BLZ_TIME 0 0 s

/-- Queue a record with the next SEQ, or count it as dropped when 64 are queued (R450). A new record starts a chain
unless it continues one (R452). -/
def blzQueue (ty src data : Nat) (cont : Option Chain) (s : State) : State :=
  if 64 ≤ s.blz.queue.length then
    { (count F.BLZ_STAT_DROP 0 s) with blz := { s.blz with drop := s.blz.drop + 1 } }
  else
    let seq := rd R.BLZ_SEQ 0 0 s
    let rec' : BlzRec := ⟨ty, src, seq, blzTime s, data, 0xFFFFFFFF⟩
    let ch : Chain := match cont with
      | none => ⟨ty, src, data, seq, 1, 0xFFFFFFFF, none⟩
      | some c => { c with count := c.count + 1, rep := 0xFFFFFFFF, slot := none }
    let s := { s with blz := { s.blz with queue := s.blz.queue ++ [rec'], chain := some ch } }
    wr R.BLZ_SEQ 0 0 ((seq + 1) % 2 ^ 32) s

/-- NOR address of a blaze slot: 0–255 permanent, 256 + i circulating slot i (R447, R487). -/
def blzNorAddr (slot : Nat) : Nat := 0x01980000 + 32 * slot

/-- A repeat of the last record: the lowest set bit of its REPEAT is cleared, in the queue or in its slot, or a CONT
record is created (R452). -/
def blzRepeat (c : Chain) (s : State) : State :=
  if 0xFFFFFFFF ≤ c.count && c.rep == 0xFFFFFFFF then s
  else match lowestBit 32 c.rep with
  | none =>
    let c := { c with count := min 0xFFFFFFFE c.count }
    blzQueue 2 c.src (c.count + 1 + c.first * 2 ^ 32) (some c) s
  | some b =>
    let rep := putBit c.rep b false
    let c' := { c with rep := rep, count := c.count + 1 }
    match c.slot with
    | none =>
      let q := s.blz.queue
      { s with blz := { s.blz with
        queue := modifyAt (fun r => { r with rep := rep }) q (q.length - 1), chain := some c' } }
    | some sl =>
      let bs := bytesOf 4 rep
      { s with
        blz := { s.blz with chain := some c' }
        nor := putFF s.nor (blzNorAddr sl + 0x18) bs
        mirror := putFF s.mirror (32 * sl + 0x18) bs }

/-- A record that wants to enter the queue (R450, R452): an EVENT that matches the last record entered is a repeat. -/
def blzEnter (ty src data : Nat) (s : State) : State :=
  match s.blz.chain with
  | some c =>
    if ty = 1 ∧ c.ty = ty ∧ c.src = src ∧ c.data = data ∧ flag F.BLZ_CTL_REPEAT_EN 0 s then blzRepeat c s
    else blzQueue ty src data none s
  | none => blzQueue ty src data none s

/-! ### Events (R482, R483) -/

/-- Sources that are never raised (R482). -/
def evReserved (n : Nat) : Bool := (89 ≤ n && n ≤ 95) || (144 ≤ n && n ≤ 239) || 512 ≤ n

/-- The blaze record of event `n` with class code `cls` (7 none) and detail `data`, where BLZ_SEL selects the source
or the class demands it (R450). -/
def evBlaze (n cls data : Nat) (s : State) : State :=
  if (flag F.BLZ_CTL_EN 0 s && bit F.BLZ_SEL_SEL (n / 32) (n % 32) s) || (2 ≤ cls && cls ≤ 4) then blzEnter 1 (n + cls * 512) data s else s

/-- Raise event EVn: its pending bit sets, and the blaze takes it (R483, R450). -/
def raiseEvent (n : Nat) (s : State) : State :=
  if evReserved n then s
  else evBlaze n 7 0 (putFBit F.EVT_PEND_PEND (n / 32) (n % 32) true s)

/-! ### Heads and geometry (R17–R36) -/

/-- The arm of a head. -/
def armOf (h : Nat) : Nat := h / 16
/-- The heads of an arm. -/
def armHeads (a : Nat) : List Nat := (List.range 16).map (fun f => 16 * a + f)

/-- Arm `a` is in ARM_MASK of the active geometry. -/
def armPresent (s : State) (a : Nat) : Bool := match s.geo with
  | none => false
  | some g => g.armMask.testBit a

/-- Head `h` is eligible (R32). -/
def eligible (s : State) (h : Nat) : Bool :=
  !bit F.SPR_FENCE_HEAD_FENCE (h / 32) (h % 32) s && !bit F.SPR_FENCE_ARM_FENCE 0 (armOf h) s && armPresent s (armOf h)

/-- The surfaces that no eligible head serves, as a mask; 0 while no geometry is active (R33). -/
def unreachMask (s : State) : Nat :=
  if s.geo.isNone then 0
  else upTo 16 (fun f m =>
    if eligible s f || eligible s (16 + f) || eligible s (32 + f) || eligible s (48 + f) then m else putBit m f true) 0

/-- A physical sector address word (R17). -/
def psaWord (surf zone track sector : Nat) : Nat := surf * 2 ^ 40 + zone * 2 ^ 34 + track * 2 ^ 12 + sector

def psaSurf (p : Nat) : Nat := bitsOf p 43 40
def psaZone (p : Nat) : Nat := bitsOf p 39 34
def psaTrack (p : Nat) : Nat := bitsOf p 33 12
def psaSector (p : Nat) : Nat := bitsOf p 11 0

/-- Zone `z` of the active geometry. -/
def zoneOf (s : State) (z : Nat) : Option Zone := match s.geo with
  | none => none
  | some g => g.zones[z]?

/-- The PSA passes the checks of R19. -/
def psaOk (s : State) (p : Nat) : Bool := match zoneOf s (psaZone p) with
  | none => false
  | some z => z.first ≤ psaTrack p && psaTrack p ≤ z.last && psaSector p < z.spt

/-- Start angle of a sector (R15). -/
def sectorAngle (z : Zone) (t sec : Nat) : Nat := (z.zskew * (t - z.first) + sec * 65536 / z.spt) % 65536

/-- The zone that holds track `t`. -/
def zoneOfTrack (s : State) (t : Nat) : Option Nat := match s.geo with
  | none => none
  | some g => g.zones.findIdx? (fun z => z.first ≤ t && t ≤ z.last)

end Sys2Proof.Machine
end

