-- ==== Sys2Proof/Machine/Channel.lean ====
section
/-! DEFINITION. The digital read channel of a lane, bit by bit: sample correction, AGC, equalizer and its adaptation, timing recovery, sync and
resync search, soft words, the defect and thermal-asperity detectors and erasure runs (R77–R97). Where the spec gives a loop no number format,
its rounding, scale or starting phase is a free value (log entry 61). -/

namespace Sys2Proof.Machine

open Sys2Proof

/-- What a lane's registers ask of its read channel in a sector: AFE, AGC, target and detector as taken at the sector's start, the rest as the
registers hold it (R103). -/
structure ChanCfg where
  asym : Int
  agcHold : Bool
  loop : Nat
  target : Nat
  g : List Int
  scale : Nat
  adapt : Nat
  mu : Nat
  cursor : Nat
  acq : Nat
  kpAcq : Nat
  kiAcq : Nat
  kpTrk : Nat
  kiTrk : Nat
  defEn : Bool
  defThr : Nat
  defMin : Nat
  taEn : Bool
  taThr : Nat
  gaps : List (Nat × Nat)
  acqGaps : List (Int × Nat)
  seed : Int
deriving DecidableEq, Repr

/-- The registers that take effect at a sector's start, as they stand (R103). -/
def laneCfg (s : State) (n : Nat) : LaneCfg :=
  ⟨rd R.LANE_AFE n 0 s, rd R.LANE_AGC n 0 s, rd R.LANE_TGT_LO n 0 s, rd R.LANE_TGT_MID n 0 s, rd R.LANE_TGT_HI n 0 s, rd R.LANE_DET n 0 s⟩

/-- The channel's settings for the sector in progress on lane `n`; `seed` tells sectors apart for their free values. -/
def chanCfg (s : State) (n : Nat) (seed : Nat) : ChanCfg :=
  let c := (lane s n).cfg
  let f := fun (x : Field) (v : Nat) => bitsOf v x.hi x.lo
  let tgt := [f F.LANE_TGT_LO_G0 c.tgtLo, f F.LANE_TGT_LO_G1 c.tgtLo, f F.LANE_TGT_MID_G2 c.tgtMid, f F.LANE_TGT_MID_G3 c.tgtMid, f F.LANE_TGT_HI_G4 c.tgtHi]
  ⟨sext 8 (f F.LANE_AFE_ASYM c.afe), f F.LANE_AGC_HOLD c.agc = 1, f F.LANE_AGC_LOOP c.agc, f F.LANE_AGC_TARGET c.agc,
   (tgt.take (f F.LANE_TGT_HI_TLEN c.tgtHi)).map (sext 12), max 1 (f F.LANE_DET_SCALE c.det),
   fld F.LANE_FIR_CTL_ADAPT n s, max 8 (min 20 (fld F.LANE_FIR_CTL_MU n s)), fld F.LANE_FIR_CTL_CURSOR n s,
   8 * fld F.LANE_TR_ACQ n s, fld F.LANE_TR_KP_ACQ n s, fld F.LANE_TR_KI_ACQ n s, fld F.LANE_TR_KP_TRK n s, fld F.LANE_TR_KI_TRK n s,
   flag F.LANE_DEF_EN n s, fld F.LANE_DEF_THR n s, 8 * (fld F.LANE_DEF_MIN n s + 1), flag F.LANE_TA_EN n s, fld F.LANE_TA_THR n s,
   (lane s n).gaps, (lane s n).acqGaps, seed⟩

/-! ### Samples and loops (R77, R78, R86–R88) -/

/-- A sample after asymmetry correction (R77). -/
def corrected (asym x : Int) : Int := clampS 2048 (x - asym * (x * x) / 2 ^ 20)

/-- One AGC update of a gain with 8 fractional bits by the corrected sample `x`; how the update rounds is open (R78). -/
def agcStep (c : ChanCfg) (x gain : Int) : Int :=
  max 0 (min (4095 * 256 + 255) (gain + openRound 78 (((c.target : Int) - x.natAbs) * 256) (2 ^ (c.loop + 4))))

/-- Equalizer output in 2^-10 LSB: tap k on the corrected sample k bits back. -/
def firOut (taps xs : List Int) : Int := (List.zipWith (· * ·) taps xs).foldl (· + ·) 0

/-- The target applied to reference bits, latest first, in 2^-10 LSB; the amplitude that stands for a bit, sign included, is open. -/
def idealOut (c : ChanCfg) (refs : List Bool) : Int :=
  4 * Config.openVal 88 [] * (List.zipWith (fun g b => if b then g else -g) c.g refs).foldl (· + ·) 0

/-- The tap update of R88 for error `e` in 2^-10 LSB; CURSOR never adapts. -/
def tapsStep (c : ChanCfg) (e : Int) (xs taps : List Int) : List Int :=
  taps.zipIdx.map (fun t => if t.2 = c.cursor then t.1 else clampS 2048 (t.1 + roundDiv (e * xs.getD t.2 0) (2 ^ (c.mu + 10))))

/-- Bits of a sector before the window: 16 of the zero-phase start, then the acquisition bits (R86, R90). -/
def acqEnd (c : ChanCfg) : Nat := 16 + c.acq

/-- The reference bit of the preamble at bit `i` of acquisition; where the read gate meets the pattern 1100 is open (R88). -/
def preambleRef (c : ChanCfg) (i : Int) : Bool := decide ((i + Config.openVal 89 [c.seed]) % 4 < 2)

/-- The timing loop on one bit: phase detector on the last two equalizer outputs and their ideal values (its scale is open), then the
proportional and integral paths with the gains of acquisition or tracking, after a zero-phase start on 16 bits; it moves by the servo gap
before bit `idx` first, also one before the sync mark, at a held frequency (R86, R87). -/
def timingStep (c : ChanCfg) (data : Bool) (y d : Int) (h : Chan) : Chan :=
  let met := if data then (c.gaps.filter (fun g => (g.1 : Int) == h.idx)).map (·.2) else (c.acqGaps.filter (fun g => g.1 == h.idx)).map (·.2)
  let gap : Int := (met.foldl (· + ·) 0 : Nat)
  let h := { h with phase := h.phase + h.freq * gap }
  if !data && h.idx < 15 then h
  else if !data && h.idx = 15 then { h with phase := Config.openVal 86 (c.seed :: h.xs.take 16) }
  else
    let acq := !data && decide (h.idx < (acqEnd c : Int))
    let pd := (y * h.d - h.y * d) * Config.openVal 87 []
    let fr := h.freq + openRound 86 pd (2 ^ (if acq then c.kiAcq else c.kiTrk))
    { h with freq := fr, phase := h.phase + openRound 86 pd (2 ^ (if acq then c.kpAcq else c.kpTrk)) + fr,
             wide := h.wide || decide (20000 * 2 ^ 16 < fr.natAbs) }

/-! ### Detectors (R95, R96) -/

/-- The envelope is below the dropout level: THR/128 of TARGET. -/
def envLow (c : ChanCfg) (env : Nat) : Bool := c.defEn && decide (env * 128 < c.defThr * c.target)

/-- The dropout detector on one bit: a dropout is MIN bits or more below the level, and ends at the first bit above it (R95). -/
def dropStep (c : ChanCfg) (env : Nat) (h : Chan) : Chan :=
  if envLow c env then { h with low := h.low + 1 }
  else { h with low := 0, drops := if c.defMin ≤ h.low then h.drops ++ [(h.idx - h.low, h.idx - 1)] else h.drops }

/-- The asperity detector on one bit: a step of more than THR within 16 bits starts an asperity, the oldest of those baselines being its value
before the step; 16 bits in a row within THR/4 of that value, or 4,096 bits, end it (R96). -/
def aspStep (c : ChanCfg) (base : Int) (h : Chan) : Chan :=
  match h.asp with
  | some (b, pre, n) =>
    let n := if 4 * (base - pre).natAbs ≤ c.taThr then n + 1 else 0
    if 16 ≤ n || b + 4096 ≤ h.idx then { h with asp := none, bases := [base], asps := h.asps ++ [(b, h.idx)] }
    else { h with asp := some (b, pre, n) }
  | none =>
    let h' := { h with bases := (base :: h.bases).take 16 }
    match (h.bases.filter (fun q => decide (c.taThr < (base - q).natAbs))).getLast? with
    | some pre => if c.taEn then { h' with asp := some (h.idx, pre, 0) } else h'
    | none => h'

/-- AGC holds: its HOLD bit, a dropout from its detection to its end, an asperity (R78, R95, R96). -/
def agcHeld (c : ChanCfg) (h : Chan) : Bool := c.agcHold || decide (c.defMin ≤ h.low) || h.asp.isSome

/-! ### One bit -/

/-- The soft word of a log-likelihood ratio (R92). -/
def softWord (c : ChanCfg) (llr : Int) : Byte := byte (lowBits 7 (max (-63) (min 63 (roundDiv (llr * c.scale) (16 * 2 ^ 16)))))

/-- The soft word of a codeword bit enters the lane's buffer, and the crossbar takes some; one that is due while 4,096 wait overruns it (R94). -/
def softStep (c : ChanCfg) (b : BitIn) (h : Chan) : Chan :=
  { h with full := h.full || decide (4096 ≤ h.fill), fill := min 4096 (h.fill + 1) - b.take, soft := softWord c b.llr :: h.soft }

/-- The sample that leaves the fast baseline restorer while an asperity holds: what the restorer makes of it is open (R96, log entry 61). -/
def restored96 (h : Chan) (b : BitIn) : Int :=
  if h.asp.isSome then clampS 2048 (Config.openVal 96 [b.x.toInt, b.base]) else b.x.toInt

/-- One channel bit goes through the lane: before the sync mark, or, with `data`, of the codeword (R77–R96). -/
def chanBit (c : ChanCfg) (data : Bool) (h : Chan) (b : BitIn) : Chan :=
  let h := aspStep c b.base (dropStep c b.env h)
  let x := corrected c.asym (restored96 h b)
  let h := { h with gain := if agcHeld c h then h.gain else agcStep c x h.gain, xs := (x :: h.xs).take 32 }
  let acq := !data && decide ((16 : Int) ≤ h.idx ∧ h.idx < (acqEnd c : Int))
  let refs := ((if acq && c.adapt = 1 then preambleRef c h.idx else b.dec) :: h.refs).take 5
  let y := firOut h.taps h.xs
  let d := idealOut c refs
  let e := y - d
  let h := timingStep c data y d h
  let adapt := (c.adapt = 1 && acq) || (c.adapt = 2 && data)
  let h := { h with refs := refs, y := y, d := d, taps := if adapt then tapsStep c e h.xs h.taps else h.taps }
  let h := if data then softStep c b { h with sq := h.sq + (e * e).toNat } else h
  { h with idx := h.idx + 1 }

/-- A run of channel bits. -/
def chanRun (c : ChanCfg) (data : Bool) (bs : List BitIn) (h : Chan) : Chan := bs.foldl (chanBit c data) h

/-- The channel at a read gate: the gain in force, the taps of the registers and the frequency of the memory; the detectors start anew
(R78, R86, R88). -/
def chanStart (s : State) (n : Nat) (gain : Int) (fofs : Int) : Chan :=
  { gain := gain, freq := fofs * 2 ^ 16,
    taps := (List.range 16).flatMap (fun k => [sext 12 (fld2 F.LANE_FIR_TAP_EVEN n k s), sext 12 (fld2 F.LANE_FIR_TAP_ODD n k s)]) }

/-- The codeword starts: bits count from the one after the sync mark (R90). -/
def chanSync (h : Chan) : Chan :=
  let l := h.idx
  { h with idx := 0, asp := h.asp.map (fun a => (a.1 - l, a.2)), drops := h.drops.map (fun d => (d.1 - l, d.2 - l)),
           asps := h.asps.map (fun d => (d.1 - l, d.2 - l)) }

/-- The sector's last bit has passed: a dropout or an asperity still in progress reaches it. -/
def chanClose (c : ChanCfg) (h : Chan) : Chan :=
  { h with drops := if c.defMin ≤ h.low then h.drops ++ [(h.idx - h.low, h.idx - 1)] else h.drops,
           asps := match h.asp with | some a => h.asps ++ [(a.1, h.idx - 1)] | none => h.asps }

/-- FOFS: the integral term in 0.1 ppm, within ±20,000; how it rounds is open (R86). -/
def chanFofs (h : Chan) : Int := max (-20000) (min 20000 (openRound 86 h.freq (2 ^ 16)))

/-- Interpolator phase, 64 steps to a bit period (R86). -/
def chanPhase (h : Chan) : Nat := ((h.phase * 64 / (10000000 * 2 ^ 16)) % 64).toNat

/-- MSE: the mean of e² over the codeword in LSB²/16; how it rounds is open (R98). -/
def chanMse (h : Chan) : Nat := (openRound 98 (h.sq * 16 : Nat) (2 ^ 20 * max 1 h.soft.length)).toNat

/-! ### Sync and resync (R90, R91) -/

/-- The low `n` bits of a pattern, most significant first. -/
def patBits (n pat : Nat) : List Bool := (List.range n).map (fun i => pat.testBit (n - 1 - i))

/-- Places where two runs of bits differ. -/
def hamming (xs ys : List Bool) : Nat := ((List.zipWith (fun x y => x != y) xs ys).filter id).length

/-- First position from which a run of decisions matches a pattern with at most `mism` mismatches, positions below `n` tried. -/
def matchAt (pat ds : List Bool) (mism n : Nat) : Option Nat :=
  (List.range n).find? (fun p => p + pat.length ≤ ds.length && hamming pat ((ds.drop p).take pat.length) ≤ mism)

/-- LEN of the sync mark, kept within 16 to 32. -/
def syncLen (s : State) (n : Nat) : Nat := max 16 (min 32 (fld F.LANE_SYNC_CTL_LEN n s))

/-- Window position of the last bit of the sync mark in a sector's bits from its read gate on (R90). -/
def syncPos (s : State) (n : Nat) (c : ChanCfg) (bs : List BitIn) : Option Nat :=
  let len := syncLen s n
  let win := fld F.LANE_SYNC_CTL_WIN n s
  (matchAt (patBits len (fld F.LANE_SYNC_PAT_PAT n s)) (((bs.drop (acqEnd c)).map (·.dec)).take win)
    (fld F.LANE_SYNC_CTL_MISM n s) (win + 1 - len)).map (· + len - 1)

/-- The resync field is found within ±RWIN bits of the place the held phase predicts; `ds` are the decisions from RWIN bits before that place
on (R91). -/
def resyncHit (s : State) (n : Nat) (ds : List Bool) : Bool :=
  (matchAt (patBits 16 (fld F.LANE_SYNC_PAT_PAT n s)) ds (fld F.LANE_SYNC_CTL_RMISM n s) (2 * fld F.LANE_SYNC_CTL_RWIN n s + 1)).isSome

/-! ### Erasure runs (R95–R97) -/

/-- A range of bits padded and cut at the ends of a codeword of `bits` bits; none where it lies outside. -/
def padRange (bits pre post : Nat) (r : Int × Int) : Option (Nat × Nat) :=
  let a := r.1 - pre
  let b := r.2 + post
  if b < 0 || (bits : Int) ≤ a || b < a then none else some (a.toNat, min b.toNat (bits - 1))

/-- The erasure ranges of the detectors and of a missed resync, cut at the codeword's ends, first bit rising. -/
def erasureRanges (s : State) (n bits : Nat) (missed : Option Nat) (h : Chan) : List (Nat × Nat) :=
  let pre := min 64 (fld F.LANE_DEF_PRE n s)
  sortBy (·.1) (h.drops.filterMap (padRange bits pre (fld F.LANE_DEF_POST n s)) ++ h.asps.filterMap (padRange bits pre (fld F.LANE_TA_PAD n s)) ++
    (match missed with | some b => if b < bits then [(b, bits - 1)] else [] | none => []))

/-- Ranges in rising order, less than 8 bits apart, merge into one run (R97). -/
def mergeRuns (l : List (Nat × Nat)) : List (Nat × Nat) :=
  (l.foldl (fun acc y => match acc with
    | x :: t => if y.1 < x.2 + 9 then (x.1, max x.2 y.2) :: t else y :: x :: t
    | [] => [y]) []).reverse

/-- Erased bits of a list of runs. -/
def erasedBits (rs : List (Nat × Nat)) : Nat := rs.foldl (fun m (a, b) => m + (b + 1 - a)) 0

/-- Bit `i` lies in a run. -/
def inRuns (rs : List (Nat × Nat)) (i : Nat) : Bool := rs.any (fun r => r.1 ≤ i && i ≤ r.2)

/-- The soft words of a codeword of `bits` bits with their erasure marks (R92, R97). -/
def markSoft (bits : Nat) (rs : List (Nat × Nat)) (soft : List Byte) : List Byte :=
  (((soft ++ List.replicate bits 0).take bits).zipIdx).map (fun (e : Byte × Nat) => if inRuns rs e.2 then 0x80 else e.1)

/-! ### Background calibration (R80) -/

/-- A move of at most one unit either way. -/
def oneMove (x : Int) : Int := max (-1) (min 1 x)

/-- The trims after a sector, each moved in offset and skew by at most one unit: 1/64 LSB and 0.01 ps (R80). -/
def trimStep (ts ms : List SubTrim) : List SubTrim :=
  ts.zipIdx.map (fun t => match ms[t.2]? with
    | some m => ⟨t.1.ofs + oneMove m.ofs, t.1.gain + m.gain, t.1.skew + oneMove m.skew⟩
    | none => t.1)

end Sys2Proof.Machine
end

