-- ==== Sys2Proof/Machine/Code.lean ====
section
/-! DEFINITION. What a sector holds and its code: the information block, scrambler and sector check, the LDPC code with its encoder and decoder,
and the fields of a sector on media (R107–R116, R121, R145–R150, R159, R160). Where the decoder's arithmetic is open, it is a free value (log
entry 62). -/

namespace Sys2Proof.Machine

open Sys2Proof

/-! ### The information block (R110–R113) -/

/-- One step of the scrambler register: the output bit and the next register (R112). -/
def scrStep (x : Nat) : Nat × Nat :=
  let o := (bitsOf x 30 30) ^^^ (bitsOf x 27 27)
  (o, (x * 2 + o) % 2 ^ 31)

/-- The scrambler's seed for a PSA word (R112). -/
def scrSeed (p : Nat) : Nat := ((bitsOf p 30 0) ^^^ (bitsOf p 43 31 * 2 ^ 18)) ||| 1

/-- One byte scrambled, bit 0 first, with the register after it. -/
def scrByte (x : Nat) (b : Byte) : Byte × Nat :=
  let r := (List.range 8).foldl (fun (v, x) i => let (o, x') := scrStep x; (v + o * 2 ^ i, x')) (0, x)
  (b ^^^ byte r.1, r.2)

/-- Bytes scrambled, or descrambled, from a register value. -/
def scrBytes : Nat → List Byte → List Byte
  | _, [] => []
  | x, b :: bs => let r := scrByte x b; r.1 :: scrBytes r.2 bs

/-- The information block scrambled for PSA `p`, or descrambled (R111, R112). -/
def scramble (p : Nat) (bs : List Byte) : List Byte := scrBytes (scrSeed p) bs

/-- SCHK of a block (R113). -/
def schkOf (p : Nat) (bs : List Byte) : Nat := crc32c (bytesOf 8 p ++ bs.take 0x1050)

/-- The 4,180 bytes of an information block (R110). -/
def blockBytes (data hm : List Byte) (poison wgen schk : Nat) : List Byte :=
  data ++ hm ++ bytesOf 8 poison ++ bytesOf 8 wgen ++ bytesOf 4 schk

/-! ### The sector code (R145–R148) -/

/-- Row blocks M(s) of strength step `st` (R146). -/
def codeM (st : Nat) : Nat := [24, 33, 42, 52, 62, 72, 83, 95].getD st 24
/-- Column blocks C(s) (R145). -/
def codeC (st : Nat) : Nat := 380 + codeM st
/-- Codeword bits N(s) (R146). -/
def codeN (st : Nat) : Nat := 88 * codeC st
/-- Information column weight w(s) (R146). -/
def codeW (st : Nat) : Nat := if st < 4 then 3 else 4

/-- Row block of the k-th circulant of information column block j (R147). -/
def codeRow (st j k : Nat) : Nat := (j + k * (codeM st / codeW st)) % codeM st
/-- Its circulant exponent (R147). -/
def codeShift (j k : Nat) : Nat := (17 * j + 29 * k + 5 * j * k) % 88

/-- Bit `i` of a byte list, bit 0 of byte 0 first (R111). -/
def bitOfBytes (bs : List Byte) (i : Nat) : Bool := ((bs[i / 8]?).getD 0).getLsbD (i % 8)

/-- s[t] of row block r (R148). -/
def codeSum (st : Nat) (u : List Byte) (r t : Nat) : Bool :=
  (List.range 380).foldl (fun acc j => (List.range (codeW st)).foldl (fun acc k =>
    if codeRow st j k = r then acc ^^ bitOfBytes u (88 * j + (t + codeShift j k) % 88) else acc) acc) false

/-- Parity bits q_r[t] of row block r, given those of row block r - 1 (R148). -/
def codeParity (st : Nat) (u : List Byte) : Nat → List Bool
  | 0 => (List.range 88).map (fun t => codeSum st u 0 t)
  | r + 1 =>
    let q := codeParity st u r
    (List.range 88).map (fun t => codeSum st u (r + 1) t ^^ (q[t]?).getD false)

/-- The parity bits K to N(s) - 1 of the codeword of scrambled block `u` (R148). -/
def encodeParity (st : Nat) (u : List Byte) : List Bool :=
  (List.range (codeM st)).flatMap (fun r => codeParity st u r)

/-- The bits of a list of bytes, bit 0 of byte 0 first (R111). -/
def bitsOfBytes (bs : List Byte) : List Bool := bs.flatMap (fun b => (List.range 8).map (fun i => b.getLsbD i))

/-- The bytes of a list of bits, bit 0 of byte 0 first (R111). -/
def bytesOfBits : Nat → List Bool → List Byte
  | 0, _ => []
  | n + 1, bs => byte ((List.range 8).foldl (fun v i => if bs.getD i false then v + 2 ^ i else v) 0) :: bytesOfBits n (bs.drop 8)

/-- The codeword of an information block: its scrambled bits, then the parity bits computed from them (R107, R111, R119, R148). -/
def codeword (st psa : Nat) (blk : List Byte) : List Bool :=
  let u := scramble psa blk
  bitsOfBytes u ++ encodeParity st u

/-! ### Checks (R145–R148) -/

/-- The codeword bits of the check in row `t` of row block `r` (R145, R147, R148). -/
def checkBits (st r t : Nat) : List Nat :=
  ((List.range 380).flatMap (fun j => ((List.range (codeW st)).filter (fun k => codeRow st j k = r)).map (fun k => 88 * j + (t + codeShift j k) % 88))) ++
    [88 * (380 + r) + t] ++ (if r = 0 then [] else [88 * (379 + r) + t])

/-- Every check of the code, row block by row block. -/
def checks (st : Nat) : List (List Nat) := (List.range (codeM st)).flatMap (fun r => (List.range 88).map (checkBits st r))

/-- The parity of a check's bits. -/
def checkSum (w : List Bool) (c : List Nat) : Bool := c.foldl (fun p i => p ^^ w.getD i false) false

/-- The syndrome is zero: the bits form a codeword (R145, R150). -/
def isCodeword (st : Nat) (w : List Bool) : Bool := (checks st).all (fun c => !checkSum w c)

/-! ### Min-sum decoding (R150) -/

/-- The hard decision of a value: positive favours 0; what 0 gives is open (R92). -/
def hardOf (v : Int) : Bool := if v = 0 then Config.openVal 150 [] % 2 = 1 else decide (v < 0)

/-- The message of a check to one of its bits from those of the others: their signs' product, ALPHA/16 of their least magnitude. -/
def checkMsg (alpha : Nat) (qs : List Int) : Int :=
  let m := ((qs.map (·.natAbs)).min?).getD 0
  let v := openRound 150 ((m * alpha : Nat) : Int) 16
  if (qs.filter (fun q => decide (q < 0))).length % 2 = 1 then -v else v

/-- One check updated in layered order: the values of the bits and the messages of every check. -/
def checkStep (alpha : Nat) (c : List Nat) (i : Nat) (x : List Int × List (List Int)) : List Int × List (List Int) :=
  let qs := List.zipWith (fun b r => x.1.getD b 0 - r) c (x.2.getD i [])
  let ms := (List.range c.length).map (fun k => checkMsg alpha (qs.eraseIdx k))
  (((c.zip (List.zipWith (· + ·) qs ms))).foldl (fun l e => l.set e.1 e.2) x.1, x.2.set i ms)

/-- One iteration: every row block once. -/
def iterate (st alpha : Nat) (x : List Int × List (List Int)) : List Int × List (List Int) :=
  (checks st).zipIdx.foldl (fun x e => checkStep alpha e.1 e.2 x) x

/-- Iterations up to `cap` more after `n`; with `et` the first whose hard decisions satisfy every check is the last. -/
def iterations (st alpha : Nat) (et : Bool) : Nat → Nat → List Int × List (List Int) → List Int × Nat
  | 0, n, x => (x.1, n)
  | cap + 1, n, x =>
    let x := iterate st alpha x
    if et && isCodeword st (x.1.map hardOf) then (x.1, n + 1) else iterations st alpha et cap (n + 1) x

/-- The outcome of a decode: whether the syndrome is zero, iterations run, hard decisions that differ from the sign of their input, and the 4,180
information bytes decided, still scrambled. -/
structure Decoded where
  converged : Bool
  iters : Nat
  flips : Nat
  info : List Byte
deriving DecidableEq, Repr

/-- Hard decisions that differ from the sign of the input values; a value of 0 has no sign (R170). -/
def flipsOf (w : List Bool) (vals : List Int) : Nat := ((List.zipWith (fun b v => decide (v ≠ 0) && b != decide (v < 0)) w vals).filter id).length

/-- A decode of start values `l` of a codeword at step `st`, within `cap` iterations; `vals` are its input values (R150, R170). -/
def decode (st alpha : Nat) (et : Bool) (cap : Nat) (vals l : List Int) : Decoded :=
  let r := iterations st alpha et cap 0 (l, (checks st).map (fun c => c.map (fun _ => 0)))
  let w := r.1.map hardOf
  ⟨isCodeword st w, r.2, flipsOf w vals, bytesOfBits 4180 w⟩

/-- The channel value of a soft word: its LLR, 0 where it is erased (R92, R150). -/
def softVal (b : Byte) : Int := if b.msb then 0 else sext 7 b.toNat

/-! ### Erasure decoding (R159, R160) -/

/-- The erasure runs of a codeword's flags, merged as R97 says. -/
def runsOf (eras : List Bool) : List (Nat × Nat) := mergeRuns ((eras.zipIdx.filter (·.1)).map (fun e => (e.2, e.2)))

/-- Every run widened by `pad` bits at each end, and every bit with a magnitude of at most `lthr` (none for 0), marked erased beside the flags. -/
def widen (pad lthr : Nat) (runs : List (Nat × Nat)) (acc : List Int) (eras : List Bool) : List Bool :=
  (List.zip acc eras).zipIdx.map (fun e =>
    e.1.2 || runs.any (fun r => r.1 ≤ e.2 + pad && e.2 ≤ r.2 + pad) || decide (lthr ≠ 0 ∧ e.1.1.natAbs ≤ lthr))

/-- One check in a peeling pass: with exactly one bit erased, that bit takes the parity of the others' hard decisions, with LLR ±16. -/
def peelCheck (x : List Int × List Bool) (c : List Nat) : List Int × List Bool :=
  match c.filter (fun i => x.2.getD i false) with
  | [i] =>
    let p := checkSum (x.1.map hardOf) (c.filter (· != i))
    (x.1.set i (if p then -16 else 16), x.2.set i false)
  | _ => x

/-- Up to `n` peeling passes, until one resolves no bit. -/
def peel (st : Nat) : Nat → List Int × List Bool → List Int × List Bool
  | 0, x => x
  | n + 1, x =>
    let y := (checks st).foldl peelCheck x
    if y.2 = x.2 then y else peel st n y

/-- The start values of an erasure decode: after widening and peeling, the bits still erased at 0 (R160). -/
def eraseStart (st pad lthr : Nat) (runs : List (Nat × Nat)) (acc : List Int) (eras : List Bool) : List Int :=
  let x := peel st 8 (acc, widen pad lthr runs acc eras)
  List.zipWith (fun v e => if e then 0 else v) x.1 x.2

/-! ### The sector on media (R107, R108, R115, R116, R121) -/

/-- `n` bits of the preamble pattern, 1100 repeated, from its place `k` (R107). -/
def pattern (k n : Nat) : List Bool := (List.range n).map (fun i => decide ((k + i) % 4 < 2))

/-- Field lengths of WP_FMT_n: preamble, sync mark, postamble, SLEAD and RSOFS in bits (R107, R115). -/
def preBits (s : State) (n : Nat) : Nat := 8 * max 8 (fld F.WP_FMT_PRE n s)
def markBits (s : State) (n : Nat) : Nat := max 16 (min 32 (fld F.WP_FMT_SYNC_LEN n s))
def postBits (s : State) (n : Nat) : Nat := 4 * fld F.WP_FMT_POST n s
def sleadBits (s : State) (n : Nat) : Nat := 16 * fld F.WP_FMT_SLEAD n s
def rsofsBits (s : State) (n : Nat) : Nat := 16 * fld F.WP_FMT_RSOFS n s

/-- Bits of a sector before codeword bit 0. -/
def headBits (s : State) (n : Nat) : Nat := preBits s n + markBits s n

/-- A postamble: the pattern goes on after bit `b`; where it starts is open (R107). -/
def postamble (s : State) (n : Nat) (b : Bool) : List Bool := pattern (Config.openVal 107 [if b then 1 else 0] % 4).toNat (postBits s n)

/-- The fields of a sector from its preamble to its codeword (R107). -/
def sectorBits (s : State) (n : Nat) (code : List Bool) : List Bool :=
  pattern 0 (preBits s n) ++ patBits (markBits s n) (fld F.WP_SYNC_PAT_PAT n s) ++ code

/-- The bits of a sector slot with its postamble (R107). -/
def slotBits (s : State) (n : Nat) (code : List Bool) : List Bool := sectorBits s n code ++ postamble s n (code.getLast?.getD false)

/-- SLEAD is below what GUARD, the zone's RATE and POST ask for, so that the writer still writes as the head leaves WRITE (R117). -/
def sleadLow (s : State) (n z : Nat) : Bool :=
  let rate := ((zoneOf s z).map (·.rate)).getD 0
  decide (sleadBits s n < ((20 * fld F.LANE_ALK_CTL_GUARD (armOf n) s + 145) * rate + 1999) / 2000 + postBits s n)

/-- Where a sector stands when a servo gate opens in it at bit period `at'`: the field in progress stops at the split point, SLEAD before the
gate; with that point in the preamble or the sync mark, both are written again (R115, R116). -/
def splitAt (s : State) (n : Nat) (at' : Int) (total : Nat) (x : SplitPos) : Nat :=
  min total (x.next + (at' - sleadBits s n - x.pos).toNat)

/-- Where it goes on after the gate: RSOFS after the gate's close, past the resync field, or from the preamble on (R115, R116). -/
def splitOn (s : State) (n : Nat) (close : Int) (k : Nat) : SplitPos :=
  if k < headBits s n then ⟨0, close + rsofsBits s n⟩ else ⟨k, close + rsofsBits s n + 16⟩

/-- A bit's delay in T/32 from the up to four bits before it, latest first: PC_k for a transition, 0 otherwise (R121). That the first bit after the
write gate opens, with no bit before it, is no transition is the model's choice (DESIGN CHOICE, log entry 24). -/
def pcDelay (pc : Nat) (hist : List Bool) (b : Bool) : Nat :=
  let x := fun j => match hist[j]?, hist[j + 1]? with | some u, some v => u != v | _, _ => false
  match hist with
  | [] => 0
  | u :: _ => if b = u then 0 else
      let k := 4 * (x 0).toNat + 2 * (x 1).toNat + (x 2).toNat
      bitsOf pc (4 * k + 3) (4 * k)

/-- A run of bits as it is written: each with its delay, and the last four bits after it (R121). -/
def written (en : Bool) (pc : Nat) (hist : List Bool) (bs : List Bool) : List (Bool × Nat) × List Bool :=
  bs.foldl (fun x b => (x.1 ++ [(b, if en then pcDelay pc x.2 b else 0)], (b :: x.2).take 4)) ([], hist)

/-- What reaches the medium: undefined bits where a preamp register write has made them so (R56). -/
def mediaBits (undef : Bool) (psa : Nat) (bs : List (Bool × Nat)) : List (Bool × Nat) :=
  if undef then bs.zipIdx.map (fun e => (Config.openVal 56 [(psa : Int), (e.2 : Int)] % 2 == 1, e.1.2)) else bs

end Sys2Proof.Machine
end

