-- ==== Sys2Proof/Machine/OpsMap.lean ====
section
/-! DEFINITION. The mapping of surface parity: members of a stripe, relocation and the namespace table
(R22, R23, R37, R238–R241, R266, R268). -/

namespace Sys2Proof.Machine

open Sys2Proof

def setSpr (x : Spr) (s : State) : State := { s with spr := x }
def sprOp (s : State) (i : Nat) : Option SprOp := Tab.get? s.spr.ops i
def setOp (x : SprOp) (s : State) : State := { s with spr := { s.spr with ops := Tab.put s.spr.ops x.id x } }
def pass (s : State) (i : Nat) : Option Pass := Tab.get? s.spr.passes i
def setPass (x : Pass) (s : State) : State := { s with spr := { s.spr with passes := Tab.put s.spr.passes x.id x } }
def dropPass (i : Nat) (s : State) : State := { s with spr := { s.spr with passes := Tab.erase s.spr.passes i } }
def sread (s : State) (i : Nat) : Option StripeRd := Tab.get? s.spr.reads i
def setRead (x : StripeRd) (s : State) : State := { s with spr := { s.spr with reads := Tab.put s.spr.reads x.id x } }
def dropRead (i : Nat) (s : State) : State := { s with spr := { s.spr with reads := Tab.erase s.spr.reads i } }

/-- A number for a descriptor, a read or a pass. -/
def sprId (s : State) : Nat × State := (s.spr.nextId, { s with spr := { s.spr with nextId := s.spr.nextId + 1 } })

/-! ### Members of a stripe (R22, R23, R238, R268) -/

/-- Track and base sector of stripe `k` of zone `z` (R22). -/
def stripeTrack (zn : Zone) (k : Nat) : Nat := zn.first + k / zn.spt
def stripeBase (zn : Zone) (k : Nat) : Nat := k % zn.spt

/-- Sector of the member on surface `f` (R22). -/
def memberSector (zn : Zone) (k f : Nat) : Nat := (stripeBase zn k + zn.rot.getD f 0) % zn.spt

/-- PSA of the member on surface `f`. -/
def memberPsa (s : State) (z k f : Nat) : Nat := match zoneOf s z with
  | none => 0
  | some zn => psaWord f z (stripeTrack zn k) (memberSector zn k f)

/-- Every member of stripe `k` of zone `z` has an address that the geometry accepts (R19). -/
def stripeOk (s : State) (z k : Nat) : Bool := match zoneOf s z with
  | none => false
  | some zn => stripeTrack zn k ≤ zn.last

/-- Role slot of the member on surface `f` (R23), and the surface of role slot `j` (R238). -/
def roleOf (s : State) (z k f : Nat) : Nat := (f + 32 - k % 16 - ((zoneOf s z).map (·.prot)).getD 0 % 16) % 16
def surfOf (s : State) (z k j : Nat) : Nat := (j + k + ((zoneOf s z).map (·.prot)).getD 0) % 16

/-- Region fences: surface `f` at track `t` is an erasure (R37). An entry that R38 calls undefined has an open effect. -/
def rfenced (s : State) (f t : Nat) : Bool :=
  (List.range 64).any (fun n =>
    flag F.SPR_RFENCE_VALID n s && fld F.SPR_RFENCE_SURF n s == f &&
      (let a := fld F.SPR_RFENCE_FIRST n s
       let b := fld F.SPR_RFENCE_LAST n s
       if b < a || zoneOfTrack s a != zoneOfTrack s b then Config.openVal 38 [n, f, t] != 0 else a ≤ t && t ≤ b))

/-- The member on surface `f` is absent (R246). -/
def absent (s : State) (z k f : Nat) : Bool := match zoneOf s z with
  | none => true
  | some zn => bit F.SPR_SURF_UNREACH_UNREACH 0 f s || rfenced s f (stripeTrack zn k)

/-- A relocation entry (R266). -/
structure RelocEnt where
  firstK : Nat
  zone : Nat
  spareZone : Nat
  flags : Nat
  spareK : Nat
  surf : Nat
  count : Nat
  bitmap : Nat

/-- Entry `e` of the relocation table. -/
def relocEnt (s : State) (e : Nat) : RelocEnt :=
  let b := sramRead s (fld F.SPR_RELOC_BASE_ADDR 0 s * 32 + 32 * e) 32
  ⟨le b 0 5, le b 5 1, le b 6 1, le b 7 1, le b 8 5, le b 0xD 1 % 16, le b 0x10 4, le b 0x18 8⟩

/-- Entries in force. -/
def relocCount (s : State) : Nat := min 64 (fld F.SPR_RELOC_CNT_COUNT 0 s)

/-- Bit `i` of an entry's bitmap. -/
def relocBit (s : State) (x : RelocEnt) (i : Nat) : Bool :=
  ((hwBytes s (x.bitmap + i / 8) 1).headD 0).getLsbD (i % 8)

/-- The VALID entry that covers stripe `k` of zone `z`. -/
def relocFor (s : State) (z k : Nat) : Option (Nat × RelocEnt) :=
  ((List.range (relocCount s)).map (fun e => (e, relocEnt s e))).find? (fun (_, x) =>
    x.flags.testBit 0 && x.zone == z && x.firstK ≤ k && k < x.firstK + x.count)

/-- One step of the mapping of R268. `wr`: a write goes to the spare stripe of any VALID entry. -/
def relocStep (s : State) (wr : Bool) (zk : Nat × Nat) : Nat × Nat := match relocFor s zk.1 zk.2 with
  | none => zk
  | some (_, x) =>
    if wr || x.flags.testBit 1 || relocBit s x (zk.2 - x.firstK) then (x.spareZone, x.spareK + (zk.2 - x.firstK)) else zk

/-- The mapping of R268, followed at most twice. -/
def relocate (s : State) (wr : Bool) (zk : Nat × Nat) : Nat × Nat := relocStep s wr (relocStep s wr zk)

/-! ### The namespace table (R239–R241) -/

/-- A namespace entry. -/
structure NsEnt where
  valid : Bool
  red : Nat
  small : Bool
  gen : Nat
  extCnt : Nat
  extAddr : Nat
  units : Nat

/-- The entry of NSID `n`. -/
def nsEnt (s : State) (n : Nat) : NsEnt :=
  if n = 0 ∨ 256 < n then ⟨false, 1, false, 0, 0, 0, 0⟩
  else
    let b := sramRead s (fld F.SPR_NS_BASE_ADDR 0 s * 32 + 32 * (n - 1)) 32
    let fl := le b 0 1
    ⟨fl.testBit 0, if fl.testBit 1 then 2 else 1, fl.testBit 2, le b 4 4, le b 1 1, le b 8 4, le b 0x10 8 % 2 ^ 45⟩

/-- Data units of a stripe. -/
def dataOf (red : Nat) : Nat := 16 - red

/-- The extents of a namespace: BASE_S, ZONE, FIRST_K (R240). -/
def nsExtents (s : State) (x : NsEnt) : List (Nat × Nat × Nat) :=
  (List.range x.extCnt).map (fun i =>
    let b := sramRead s (x.extAddr + 16 * i) 16
    (le b 0 5, le b 5 1, le b 8 5))

/-- Zone and stripe index of namespace stripe `n` (R238). -/
def nsStripe (s : State) (x : NsEnt) (n : Nat) : Nat × Nat :=
  match ((nsExtents s x).filter (fun e => e.1 ≤ n)).getLast? with
  | none => (0, 0)
  | some (b, z, k) => (z, k + (n - b))

/-- Which namespace owns stripe `k` of zone `z`, with its namespace stripe number. -/
def ownerOf (s : State) (z k : Nat) : Option (Nat × Nat) :=
  ((List.range 256).map (· + 1)).findSome? (fun n =>
    let x := nsEnt s n
    if !x.valid then none
    else
      let es := nsExtents s x
      let total := ceilDiv x.units (dataOf x.red)
      (es.zipIdx.findSome? (fun ((b, ez, fk), i) =>
        let last := ((es[i + 1]?).map (·.1)).getD total
        if ez = z ∧ fk ≤ k ∧ k < fk + (last - b) then some (n, b + (k - fk)) else none)))

end Sys2Proof.Machine
end

