-- ==== Sys2Proof/Machine/OpsHost.lean ====
section
/-! DEFINITION. The endpoint's shared operations: functions, requests and messages to the host, error logging, interrupts, completion entries
and asynchronous events (R285–R319, R365–R372), and the tally counts they make (R436–R438). -/

namespace Sys2Proof.Machine

open Sys2Proof

def fnr (s : State) (f : Nat) : Fn := Tab.get s.deck.fns {} f
def setFn (f : Nat) (x : Fn) (s : State) : State := { s with deck := { s.deck with fns := Tab.set s.deck.fns {} f x } }
def cmd (s : State) (k : Nat) : Option Cmd := Tab.get? s.deck.cmds k
def setCmd (x : Cmd) (s : State) : State := { s with deck := { s.deck with cmds := Tab.put s.deck.cmds x.slot x } }
def dropCmd (k : Nat) (s : State) : State := { s with deck := { s.deck with cmds := Tab.erase s.deck.cmds k } }
def sq (s : State) (f q : Nat) : Option Sq := Tab.get? (fnr s f).sqs q
def cq (s : State) (f q : Nat) : Option Cq := Tab.get? (fnr s f).cqs q
def setSq (f q : Nat) (x : Sq) (s : State) : State := setFn f { fnr s f with sqs := Tab.put (fnr s f).sqs q x } s
def setCq (f q : Nat) (x : Cq) (s : State) : State := setFn f { fnr s f with cqs := Tab.put (fnr s f).cqs q x } s
def nsr (s : State) (n : Nat) : Option NsRec := Tab.get? s.deck.nss n
def setNs (n : Nat) (x : NsRec) (s : State) : State := { s with deck := { s.deck with nss := Tab.put s.deck.nss n x } }

/-- Function `f` exists: PF0, or a VF brought into being by VF Enable (R288). -/
def fnOn (s : State) (f : Nat) : Bool := f == 0 || (flag F.VF_EN 0 s && f ≤ fld F.NUM_VFS 0 s)

/-! ### Tally (R436–R438) -/

/-- Count `n` more in counter k of function `f`; a function that is not enabled counts nothing, and while the fabric domain is off no counter changes
(R436, R443). -/
def tally (f k n : Nat) (s : State) : State :=
  if fnOn s f && !flag F.CPR_PD_STAT_FAB_RET 0 s then put2 F.TLY_LIVE_COUNT f k ((fld2 F.TLY_LIVE_COUNT f k s + n) % 2 ^ 64) s else s

/-- Count `n` more in device counter k (R438, R443). -/
def tallyDev (k n : Nat) (s : State) : State :=
  if flag F.CPR_PD_STAT_FAB_RET 0 s then s else put F.TLY_DLIVE_COUNT k ((fld F.TLY_DLIVE_COUNT k s + n) % 2 ^ 64) s

/-! ### Requests and messages to the host -/

/-- The link is up: a width is negotiated. -/
def hostLinkUp (s : State) : Bool := fld F.HIF_LINK_STAT_WIDTH 0 s != 0

/-- Bus Master Enable is 1 and the function is in D0 (R303, R307). -/
def busMaster (s : State) (f : Nat) : Bool := flag F.CFG_BME f s && fld F.CFG_PSTATE f s == 0

/-- Function `f` may issue a request (R303, R306, R314, R475). -/
def canIssue (s : State) (f : Nat) : Bool :=
  fnOn s f && busMaster s f && hostLinkUp s && !s.cpr.frozen && !(fnr s f).silent && !(fnr s f).resetting && !s.cpr.perst

/-- Scetus is in the safe state, or the power-loss signal has stopped the deck (R475, R538). -/
def safe (s : State) : Bool := flag F.FLT_STAT_SAFE 0 s || flag F.CPR_PL_LOSS 0 s

/-- Read requests of Scetus for which completions are still to come: those in use, and those that a reset or an end has made useless (R285, R314). -/
def pendingReqs (s : State) : List Nat := (s.deck.reqs.filter (fun e => !e.2.done)).map (·.1) ++ s.deck.flushed.map (·.1)

/-- Every function is in D3hot and no request is pending: the link is kept in L1 (R316). -/
def d3Rest (s : State) : Bool := (List.range 64).all (fun g => !fnOn s g || fld F.CFG_PSTATE g s == 3) && (pendingReqs s).isEmpty

/-- The exit from L1 that a TLP in either direction starts (R319); a link that R316 keeps in L1 goes back there once the TLP is through. -/
def wakeLink (s : State) : State :=
  if 4 ≤ fld F.HIF_LINK_STAT_LSTATE 0 s && fld F.HIF_LINK_STAT_LSTATE 0 s ≤ 6 && !d3Rest s then put F.HIF_LINK_STAT_LSTATE 0 2 s else s

/-- A link in L0 that R316 keeps in L1 goes to L1, or to the substate that PCI-PM enables (R317). -/
def restLink (s : State) : State :=
  if fld F.HIF_LINK_STAT_LSTATE 0 s = 2 && d3Rest s then
    let ctl := rd R.CFG_L1PMCTL 0 0 s
    put F.HIF_LINK_STAT_LSTATE 0 (if ctl.testBit 0 then 6 else if ctl.testBit 1 then 5 else 4) s
  else s

/-- A TLP leaves towards the host: it waits while the link is frozen, and with no link it is lost (R298, R522). -/
def toHost (o : Output) (s : State) : State :=
  if s.cpr.hostOff || !hostLinkUp s then s
  else if s.cpr.frozen then { s with cpr := { s.cpr with held := s.cpr.held ++ [o] } }
  else emit o (wakeLink s)

/-- Payload bytes of a TLP: the programmed Max Payload Size, at most 512 (R285). -/
def mps (s : State) (f : Nat) : Nat := min 512 (128 * 2 ^ fld F.CFG_MPS f s)

/-- Bytes with their poison marks cut into payloads: at addresses that are multiples of `m`, and where the mark changes (R302 and its example). -/
def cutTlps (m addr : Nat) (bs : List (Byte × Bool)) : List (Nat × List Byte × Bool) :=
  (bs.foldl (fun (acc : List (Nat × List Byte × Bool)) e => match acc with
    | [] => [(addr, [e.1], e.2)]
    | (a, ds, ep) :: t => if ep == e.2 && (a + ds.length) % m != 0 then (a, ds ++ [e.1], ep) :: t else (a + ds.length, [e.1], e.2) :: acc) []).reverse

/-- Count a poisoned TLP transmitted. -/
def poisOut (ep : Bool) (s : State) : State := if ep then count F.HIF_POISON_OUT 0 s else s

/-- Bit `b` of the Status register of function `f` is set, and bit `b` of its Device Status (R297). -/
def cmdSts (f b : Nat) (s : State) : State := wr R.CFG_CMD f 0 (putBit (rd R.CFG_CMD f 0 s) b true) s
def devSts (f b : Nat) (s : State) : State := wr R.CFG_DEVCTL f 0 (putBit (rd R.CFG_DEVCTL f 0 s) (16 + b) true) s

/-- Function `f` has sent, or taken for a request of its own, poisoned data: Master Data Parity Error, where Parity Error Response is on. -/
def dataParity (f : Nat) (ep : Bool) (s : State) : State := if ep && (rd R.CFG_CMD 0 0 s).testBit 6 then cmdSts f 24 s else s

/-- Data written to host memory at one address; `rd`: the data of a read, which alone carries Relaxed Ordering, where the function enables it
(R285, R302). -/
def sendData (f addr : Nat) (rd : Bool) (bs : List (Byte × Bool)) (s : State) : State :=
  each (cutTlps (mps s f) addr bs) (fun t s => dataParity f t.2.2 <| poisOut t.2.2 (toHost (.hostWrite f t.1 t.2.1 t.2.2 (rd && flag F.CFG_RO f s)) s)) s

/-- Data written to the segments of a host buffer; a bit bucket takes its bytes and nothing is sent. -/
def sendSegs (f : Nat) (rd : Bool) : List (Nat × Nat × Nat) → List (Byte × Bool) → State → State
  | [], _, s => s
  | (k, a, n) :: t, bs, s => sendSegs f rd t (bs.drop n) (if k = 0 then sendData f a rd (bs.take n) s else s)

/-- Plain bytes as unpoisoned data. -/
def clean (bs : List Byte) : List (Byte × Bool) := bs.map (fun b => (b, false))

/-! ### Error logging (R297, R298) -/

/-- What is known of a TLP's header: for each of its words the bits known and their values. -/
abbrev TlpHdr := List (Nat × Nat)

/-- The header of a memory request of the host for `n` bytes at `a`; in FLIT mode, whose headers are others, none of it. -/
def memHdr (s : State) (a n : Nat) (wr ep : Bool) : TlpHdr :=
  if flag F.HIF_LINK_STAT_FLIT 0 s then []
  else
    let big := decide (2 ^ 32 ≤ a)
    let dw0 := ((if wr then 2 else 0) + big.toNat) * 2 ^ 29 + ep.toNat * 2 ^ 14 + (a % 4 + n + 3) / 4 % 1024
    (0xFF0043FF, dw0) :: (0, 0) :: (if big then [(0xFFFFFFFF, a / 2 ^ 32), (0xFFFFFFFF, a % 2 ^ 32 / 4 * 4)] else [(0xFFFFFFFF, a / 4 * 4)])

/-- The header of a completion for tag `tag` of function `f`, with or without data. -/
def cplHdr (s : State) (f tag : Nat) (data ep ur : Bool) : TlpHdr :=
  if flag F.HIF_LINK_STAT_FLIT 0 s then []
  else [(0xFF884000, (if data then 0x4A000000 else 0x0A000000) + ep.toNat * 2 ^ 14 + tag / 256 % 2 * 2 ^ 19 + tag / 512 % 2 * 2 ^ 23),
    (0xE000, ur.toNat * 2 ^ 13), (0x00FFFF00, f * 2 ^ 16 + tag % 256 * 2 ^ 8)]

/-- The header of a configuration write to function `f` at offset `o` of its space. -/
def cfgHdr (s : State) (f o : Nat) : TlpHdr :=
  if flag F.HIF_LINK_STAT_FLIT 0 s then [] else [(0xFF0043FF, 0x44004001), (0, 0), (0x00FF0FFC, f * 2 ^ 16 + o % 4096 / 4 * 4)]

/-- The header log of function `f` takes the header of the TLP in error; the bits of it that the command does not carry, as the requester's identifier
and tag, are free values (R298). -/
def headerLog (f : Nat) (h : TlpHdr) (s : State) : State :=
  upTo 4 (fun j s =>
    let r := takeFree s
    let e := (h[j]?).getD (0, 0)
    let x := r.1 % 2 ^ 32
    wr R.CFG_HDRLOG f j (x - (x &&& e.1) + (e.2 &&& e.1)) r.2) s

/-- An error whose TLP's header is logged: poisoned TLP, unexpected completion, malformed TLP, Unsupported Request. -/
def hasHeader (b : Nat) : Bool := b == 12 || b == 16 || b == 18 || b == 20

/-- Error message `k` of function `f`, 1 non-fatal or 2 fatal: enabled in Device Control, or by SERR# Enable of PF0, which then shows in the Status
register. -/
def errMsg (f k : Nat) (ask : Bool) (s : State) : State :=
  let serr := (rd R.CFG_CMD 0 0 s).testBit 8
  let s := if serr then cmdSts f 30 s else s
  if serr || (ask && (rd R.CFG_DEVCTL f 0 s).testBit k) then toHost (.err f k) s else s

/-- An uncorrectable error of function `f`, by its AER bit: the AER registers, Device Status, and the message that masks, severity and enables let
through; the first is named with its header, and an advisory one of non-fatal severity is reported as correctable (R297, R298; the standard's rules).
-/
def aerUnc (f b : Nat) (advisory : Bool) (h : TlpHdr) (s : State) : State :=
  let first := fld F.UE_STS f s == 0
  let s := putFBit F.UE_STS f b true (if first then put F.AER_FIRST f b (if hasHeader b then headerLog f h s else s) else s)
  let fatal := bit F.UE_SEV f b s
  let ask := b != 20 || (rd R.CFG_DEVCTL f 0 s).testBit 3
  let s := devSts f (if fatal then 2 else if advisory then 0 else 1) (if b = 20 then devSts f 3 s else s)
  if bit F.UE_MASK f b s then s
  else if fatal then errMsg f 2 ask s
  else if advisory then
    let s := putFBit F.CE_STS f 13 true s
    if !bit F.CE_MASK f 13 s && (rd R.CFG_DEVCTL f 0 s).testBit 0 && ask then toHost (.err f 0) s else s
  else errMsg f 1 ask s

/-- A correctable error of function `f`. -/
def aerCor (f b : Nat) (s : State) : State :=
  let s := devSts f 0 (putFBit F.CE_STS f b true s)
  if !bit F.CE_MASK f b s && (rd R.CFG_DEVCTL f 0 s).testBit 0 then toHost (.err f 0) s else s

/-- A memory request that finds Memory Space Enable 0 or D3hot: Unsupported Request (R294). -/
def unsupported (f : Nat) (posted : Bool) (h : TlpHdr) (s : State) : State :=
  aerUnc f 20 true h (if posted then s else toHost (.ur f) s)

/-- Memory Space Enable of function `f`; a VF has the one of the SR-IOV capability. -/
def memEnabled (s : State) (f : Nat) : Bool :=
  fnOn s f && !s.cpr.perst && !(fnr s f).resetting && fld F.CFG_PSTATE f s != 3 && (if f = 0 then flag F.CFG_MSE 0 s else flag F.VF_MSE 0 s)

/-! ### Interrupts (R308–R312) -/

/-- The mode in which function `f` raises interrupts: 0 none, 1 MSI-X, 2 MSI, 3 INTx (R308). -/
def intMode (s : State) (f : Nat) : Nat :=
  if flag F.MSIX_EN f s then 1
  else if f ≠ 0 then 0
  else if flag F.MSI_EN 0 s then 2
  else if !flag F.CFG_INTDIS 0 s then 3 else 0

/-- INTA follows its cause (R311). -/
def intxUpdate (s : State) : State :=
  let on := intMode s 0 == 3 && (fnr s 0).cqs.any (fun (_, c) => c.ien && c.head != c.tail && !bit F.INTMS 0 c.iv s)
  if on == s.deck.intx then s else toHost (.intx on) { s with deck := { s.deck with intx := on } }

/-- The MSI-X message of vector `v`. -/
def sendMsix (f v : Nat) (s : State) : State :=
  toHost (.msix f (fld2 F.MSIX_ADDR f v s) (fld2 F.MSIX_DATA f v s)) s

/-- The MSI message `m` of PF0. -/
def sendMsi (m : Nat) (s : State) : State :=
  let n := 2 ^ min 5 (fld F.MSI_MME 0 s)
  toHost (.msix 0 (fld F.MSI_ADDR 0 s + fld F.MSI_ADDRU 0 s * 2 ^ 32) (fld F.MSI_DATA 0 s / n * n + m)) s

/-- MSI pending bits: a message is pending while its mask bit holds a vector that INTMS does not mask (R310). -/
def msiPend (s : State) : State :=
  let n := 2 ^ min 5 (fld F.MSI_MME 0 s)
  put F.MSI_PEND 0 (upTo 32 (fun m p =>
    if bit F.MSI_MASK 0 m s && s.deck.intPend.any (fun e => e.1 % n == m && !bit F.INTMS 0 e.1 s) then p + 2 ^ m else p) 0) s

/-- An interrupt of vector `v` in the function's mode (R308–R311). -/
def interrupt (f v : Nat) (s : State) : State :=
  let s := put F.VFW_STAT_INTMODE_ERR f (flag F.MSIX_EN f s && f == 0 && flag F.MSI_EN 0 s).toNat s
  match intMode s f with
  | 1 =>
    if flag F.MSIX_FMASK f s || fld2 F.MSIX_MASK f v s == 1 then
      put2 F.MSIX_PBA f (v / 64) (putBit (fld2 F.MSIX_PBA f (v / 64) s) (v % 64) true) s
    else sendMsix f v s
  | 2 =>
    let m := v % 2 ^ min 5 (fld F.MSI_MME 0 s)
    if bit F.MSI_MASK 0 m s || bit F.INTMS 0 v s then
      msiPend { s with deck := { s.deck with intPend := Tab.set s.deck.intPend 0 v 1 } }
    else sendMsi m s
  | 3 => intxUpdate s
  | _ => s

/-- A feature's value in force (R336). -/
def feature (s : State) (f fid : Nat) : Nat := (Tab.get? (fnr s f).feat fid).getD (if fid = 0xC1 then 1 else if fid = 4 then 0x157 else 0)

/-- A completion entry has been posted to a queue with vector `v`: it fires at once or is coalesced (R370). -/
def signal (f q v : Nat) (s : State) : State :=
  let thr := feature s f 8 % 256
  let tm := feature s f 8 / 256 % 256
  let x := fnr s f
  let (n, t) := (Tab.get? x.unsig v).getD (0, s.time)
  if q = 0 || x.noCoal.contains v || tm = 0 || thr ≤ n then
    interrupt f v (setFn f { x with unsig := Tab.erase x.unsig v } s)
  else setFn f { x with unsig := Tab.put x.unsig v (n + 1, t) } s

/-! ### Completion entries (R365–R369) -/

/-- Opcode, command identifier, NSID and the other fields of a submission entry. -/
def opc (x : Cmd) : Nat := le x.sqe 0 1
def cidOf (x : Cmd) : Nat := le x.sqe 2 2
def nsidOf (x : Cmd) : Nat := le x.sqe 4 4
def cdw (x : Cmd) (k : Nat) : Nat := le x.sqe (4 * k) 4
def isAdmin (x : Cmd) : Bool := x.sq == 0

/-- A command that outlives its queue: a write whose data was all there when the stall limit of its function expired (R306), a Format or
deletion in progress at a function reset (R358). -/
def detached (x : Cmd) : Bool := x.det

/-! ### Formats, ranges and the orphan records they meet (R4, R130, R345, R364) -/

/-- LBA data size and metadata size of the six formats of R4, in its order. -/
def fmtL (flbas : Nat) : Nat := if flbas % 16 < 2 then 512 else 4096
def fmtM (flbas : Nat) : Nat := [0, 8, 0, 8, 16, 64].getD (flbas % 16) 0

def slba (x : Cmd) : Nat := le x.sqe 40 8
def nlb (x : Cmd) : Nat := cdw x 12 % 65536 + 1

/-- A read-class command (R404), a write-class command. -/
def readClass (x : Cmd) : Bool := !isAdmin x && (opc x == 0x02 || opc x == 0x82 || opc x == 0x05 || opc x == 0x0C)
def writeClass (x : Cmd) : Bool := !isAdmin x && (opc x == 0x01 || opc x == 0x81 || opc x == 0x08)

/-- LBAs in a sector unit (R130). -/
def lpu (r : NsRec) : Nat := 4096 / fmtL r.flbas

/-- First and last sector unit of a command (R345). -/
def unitsOf (r : NsRec) (x : Cmd) : Nat × Nat := (slba x / lpu r, (slba x + nlb x - 1) / lpu r)

/-- The command is one that takes a choker over its units, and some orphan record overlaps them (R364). -/
def orphaned (s : State) (x : Cmd) : Bool :=
  match nsr s (nsidOf x) with
  | none => false
  | some r =>
    let u := unitsOf r x
    (readClass x || writeClass x) && !x.inv && s.deck.orphans.any (fun o => o.nsid == nsidOf x && o.gen == r.gen && o.first ≤ u.2 && u.1 ≤ o.last)

/-- A completion entry joins those that wait on the completion queue of queue `q`. -/
def queueCpl (f q : Nat) (e : CplEnt) (s : State) : State :=
  match sq s f q with
  | none => s
  | some x => match cq s f x.cq with
    | none => s
    | some c =>
      let r := fnr s f
      setCq f x.cq { c with wait := c.wait ++ [{ e with n := r.cplNum, stalled := r.stall.isSome }] } (setFn f { r with cplNum := r.cplNum + 1 } s)

/-- An entry of the Error Information log (R367), in the standard's layout. -/
def errEntry (n q cid status lba nsid : Nat) : List Byte :=
  bytesOf 8 n ++ bytesOf 2 q ++ bytesOf 2 cid ++ bytesOf 2 (2 * status) ++ bytesOf 2 0xFFFF ++ bytesOf 8 lba ++ bytesOf 4 nsid ++ List.replicate 36 0

/-- The function's Error Information log takes an entry. -/
def logError (f q cid status lba nsid : Nat) (s : State) : State :=
  let x := fnr s f
  setFn f { x with errCount := x.errCount + 1, errLog := (errEntry (x.errCount + 1) q cid status lba nsid :: x.errLog).take 64 } s

/-- Data bytes and metadata bytes of a command, as the tally counts them (R437). -/
def dataBytes (s : State) (x : Cmd) : Nat × Nat := match nsr s (nsidOf x) with
  | none => (0, 0)
  | some r => (nlb x * fmtL r.flbas, nlb x * fmtM r.flbas)

/-- A command ends with a status: its completion entry waits to be posted. A status other than success adds a log entry and
is noted in its queue for the next Barrier (R352, R367). A command whose units an orphan record overlaps says so in its status word, however it ends
(R364, R369). A command that outlived its queue has no entry. `lba` is the first failing LBA. -/
def cmdEndAt (x : Cmd) (status dw0 lba : Nat) (s : State) : State :=
  let d := if isAdmin x then dw0 else if feature s x.fn 0xC1 % 2 = 1 then x.flags ||| (orphaned s x).toNat else 0
  let s := setCmd { x with phase := .done, status := status, dw0 := d, list := none, op := none, bytes := dataBytes s x } s
  let s := if status = 0 then s else logError x.fn x.sq (cidOf x) status lba (nsidOf x) s
  let s := match sq s x.fn x.sq with
    | some q => if status = 0 || detached x then s else setSq x.fn x.sq { q with failed := x.ord :: q.failed } s
    | none => s
  if detached x then dropCmd x.slot s else queueCpl x.fn x.sq ⟨x.sq, cidOf x, status, d, some x.slot, 0, false⟩ s

/-- The same, where the first LBA of a command on LBAs is its first failing one. -/
def cmdEnd (x : Cmd) (status dw0 : Nat) (s : State) : State :=
  cmdEndAt x status dw0 (if readClass x || writeClass x then slba x else 0) s

/-- Status codes: SCT × 256 + SC, DNR in bit 14 (R366, R368). -/
def dnr : Nat := 0x4000
def stOpcode : Nat := 0x001 + dnr
def stField : Nat := 0x002 + dnr
def stNs : Nat := 0x00B + dnr
def stLba : Nat := 0x080 + dnr
def stXfer : Nat := 0x004
def stOrderBroken : Nat := 0x701
def stBarrierBroken : Nat := 0x702 + dnr
def stTxnConflict : Nat := 0x703
def stTxnTimeout : Nat := 0x704 + dnr
def stPermit : Nat := 0x705 + dnr
def stSalvage : Nat := 0x706
def stFence : Nat := 0x707
def stBudget : Nat := 0x708 + dnr

/-! ### Asynchronous events (R371, R372) -/

/-- The log page whose reading clears an event (R372). -/
def aerPage (ty info : Nat) : Nat :=
  if ty = 0 then 1 else if ty = 1 then 2 else if ty = 2 then (if info = 0 then 4 else 3) else if info = 1 then 0xC5 else 0xC4

/-- An event type the function has not masked by feature 0Bh (R336, R372). -/
def aerEnabled (s : State) (f ty info : Nat) : Bool :=
  if ty = 0 || ty = 7 then true
  else if ty = 1 then (feature s f 0xB).testBit (if info = 0 then 2 else 1)
  else (feature s f 0xB).testBit (if info = 0 then 8 else 9)

/-- An asynchronous event of function `f` completes an outstanding request or is held; each type is raised once until its log page has
been read (R372). A controller that is not ready takes none. -/
def asyncEvent (f ty info : Nat) (s : State) : State :=
  let key := ty * 256 + aerPage ty info
  let x := fnr s f
  if !flag F.CSTS_RDY f s || !aerEnabled s f ty info || x.raised.contains key then s
  else match x.aer with
    | [] => setFn f { x with raised := key :: x.raised, events := x.events ++ [(ty, info)] } s
    | k :: t =>
      let s := setFn f { x with raised := key :: x.raised, aer := t } s
      match cmd s k with
      | none => s
      | some c => cmdEnd c 0 (ty + info * 256 + aerPage ty info * 65536) s

/-- An asynchronous event on every function. -/
def asyncAll (ty info : Nat) (s : State) : State := upTo 64 (fun f s => asyncEvent f ty info s) s

/-- An asynchronous event on every function in a mask. -/
def asyncMask (m ty info : Nat) (s : State) : State := upTo 64 (fun f s => if m.testBit f then asyncEvent f ty info s else s) s

end Sys2Proof.Machine
end

