-- ==== Sys2Proof/Machine/OpsMedia.lean ====
section
/-! DEFINITION. The permits and what follows when one falls: write-kill, write gates and cut writes; which arm can serve an item, and at what cost
(R35, R63–R66, R124–R128, R194, R380, R381, R387). -/

namespace Sys2Proof.Machine

open Sys2Proof

/-! ### Degraded operation (R33, R247, R276) -/

/-- Log page C4h has changed: CHANGE counts, and the functions of `fns` take the vendor event (R276, R371). -/
def c4Change (fns : Nat) (s : State) : State :=
  asyncMask fns 7 0 { s with spr := { s.spr with change := (s.spr.change + 1) % 2 ^ 32 } }

/-- FLAGS.DEGRADED of log page C4h (R276). -/
def isDegraded (s : State) : Bool :=
  fld F.SPR_SURF_UNREACH_UNREACH 0 s != 0 || bit F.FLT_STAT_ACTIVE 0 2 s ||
    (List.range (relocCount s)).any (fun e => let x := relocEnt s e; x.flags.testBit 0 && !x.flags.testBit 1)

/-- DEGRADED follows its causes; its rise raises EV084 and the reliability event on every function (R247, R371). -/
def degradedUpdate (s : State) : State :=
  let d := isDegraded s
  if d == s.spr.degraded then s
  else
    let s := c4Change 0 { s with spr := { s.spr with degraded := d } }
    if d then asyncAll 1 0 (raiseEvent 84 s) else s

/-- Log page C5h has changed: CHANGE counts, and PF0 takes the vendor event (R371, R374). -/
def mapChange (s : State) : State := asyncEvent 0 7 1 { s with deck := { s.deck with change := (s.deck.change + 1) % 2 ^ 32 } }

/-- SPR_SURF_UNREACH takes the value eligibility gives, with an event when it changes (R33). -/
def surfUpdate (s : State) : State :=
  let m := unreachMask s
  let old := fld F.SPR_SURF_UNREACH_UNREACH 0 s
  if old = m then s
  else
    let s := c4Change 0 (raiseEvent 84 (put F.SPR_SURF_UNREACH_UNREACH 0 m s))
    let s := if (List.range 16).any (fun f => m.testBit f && !old.testBit f) then asyncAll 1 0 s else s
    degradedUpdate s

/-! ### Permits -/

/-- The shock-sensor permit SHOCK_OK (R124, R197). -/
def shockOk (s : State) : Bool := flag F.SRV_SHK_STAT_SHOCK_OK 0 s
/-- No clock monitor reports a loss (R125). -/
def clocksOk (s : State) : Bool := fld F.CPR_CLKMON_LOST 0 s == 0
/-- CLK_OK of arm `a` (R125). -/
def clkOk (s : State) (a : Nat) : Bool := clocksOk s && fld F.LANE_SYN_STAT_STATE a s == 2
/-- RETRACT_N is low (R525). -/
def retractLow (s : State) : Bool := flag F.CPR_RETRACT_LOW 0 s
/-- The servo write permit of head `h` (R193). -/
def wperm (s : State) (h : Nat) : Bool := bit F.SRV_WPERM_WPERM (h / 16) (h % 16) s
/-- The recorded personality of head `h`: 0 READ, 1 WRITE, 2 SENSE (R39). -/
def persOf (s : State) (h : Nat) : Nat := bitsOf (fld F.LANE_ALK_PERS_PERS (h / 16) s) (2 * (h % 16) + 1) (2 * (h % 16))
/-- `s` with head `h` recorded in personality `p`. -/
def setPers (h p : Nat) (s : State) : State :=
  put F.LANE_ALK_PERS_PERS (h / 16) (putBits (fld F.LANE_ALK_PERS_PERS (h / 16) s) (2 * (h % 16) + 1) (2 * (h % 16)) p) s
/-- The arm link is UP (R75). -/
def linkUp (s : State) (a : Nat) : Bool := fld F.LANE_ALK_STAT_STATE a s == 2
/-- The arm is fenced (R32). -/
def armFenced (s : State) (a : Nat) : Bool := bit F.SPR_FENCE_ARM_FENCE 0 a s
/-- The arm is fenced, or treated as fenced because the active geometry's ARM_MASK has it absent (R32). -/
def armShut (s : State) (a : Nat) : Bool := armFenced s a || (s.geo.isSome && !armPresent s a)
/-- The arm's power domain is up (R528). -/
def armUp (s : State) (a : Nat) : Bool := bit F.CPR_PD_STAT_ARM_UP 0 a s
/-- The arm mode (R187). -/
def mode (s : State) (a : Nat) : Nat := fld F.SRV_MODE_MODE a s
/-- The arm's heads are loaded or loading: LOADING to UNLOADING (R187). -/
def armLoaded (s : State) (a : Nat) : Bool := 3 ≤ mode s a && mode s a ≤ 8
/-- The arm's heads are parked: PARKED, or OFF with the arm not yet judged (R105, R187). -/
def armParked (s : State) (a : Nat) : Bool := mode s a ≤ 1
/-- WKILLn_N is low. -/
def wkillLow (s : State) (a : Nat) : Bool := flag F.LANE_ALK_STAT_WKILL a s

/-- Some head of arm `a` is in WRITE, or has a change to WRITE pending, with its permit low (R63). -/
def wpermBreaks (s : State) (a : Nat) : Bool :=
  (List.range 16).any (fun f =>
    !wperm s (16 * a + f) &&
      (persOf s (16 * a + f) == 1 || (match Tab.get? (link s a).pend f with | some p => p.pers == 1 | none => false)))

/-- A condition of R63 holds for arm `a`. -/
def wkillCond (s : State) (a : Nat) : Bool :=
  !shockOk s || !clkOk s a || retractLow s || armFenced s a || !armPresent s a || !linkUp s a || wpermBreaks s a

/-! ### Cutting a write operation (R127) -/

/-- The write gate of every lane of the operation closes. -/
def closeGates (hs : List Nat) (s : State) : State := each hs (fun h s => put F.WP_STAT_GATE h 0 s) s

/-- The arm's write operation ends: each head without a status takes `st h`; its gates close (R127). -/
def cutWrite (a : Nat) (st : Nat → Nat) (s : State) : State :=
  match wop s a with
  | none => s
  | some o =>
    let hs := o.heads.map (fun (h, x) =>
      (h, { x with sgate := false, status := some (x.status.getD (st h)) }))
    closeGates (o.heads.map (·.1)) (setWop a { o with heads := hs, ending := true } s)

/-- The heads `hs` of the arm's write operation end with status `st`, also where they had written all their sectors (R62, R127). -/
def failHeads (a : Nat) (hs : List Nat) (st : Nat) (s : State) : State :=
  match wop s a with
  | none => s
  | some o =>
    let xs := o.heads.map (fun (h, x) =>
      (h, if hs.contains h && x.status.getD 0 == 0 then { x with sgate := false, status := some st } else x))
    closeGates (hs.filter (fun h => o.heads.any (fun e => e.1 == h))) (setWop a { o with heads := xs } s)

/-- Some head of the arm's write operation is recorded in WRITE, or its first gate has opened. -/
def writeLive (s : State) (a : Nat) : Bool := match wop s a with
  | none => false
  | some o => o.gated || o.heads.any (fun (h, _) => persOf s h == 1)

/-- The pair that a sense measurement uses (R41). -/
def sensePair (m : Sense) : Nat := if 2 ≤ m.src then 0 else m.surf

/-- The changes an arm asks for once its heads are recorded READ by write-kill: pending changes to WRITE that it drops are asked for again, and
the pair of a measurement in progress is asked back to SENSE (R48, R65; log entry 59). -/
def killWant (l : Link) : Tab (Nat × Nat) :=
  let w := (l.pend.filter (fun e => e.2.pers == 1)).foldl (fun w e => Tab.put w e.1 (1, e.2.src)) l.want
  match l.sense with
  | some m => if (Tab.get? l.pend (sensePair m)).any (fun p => p.pers == 2) then w else Tab.put w (sensePair m) (2, m.src)
  | none => w

/-- WKILLn_N follows its conditions downward: it falls at once, every head is recorded READ, pending changes to WRITE
are dropped, and an operation that was writing is cut (R63–R65). An operation not yet live is not cut: it asks for WRITE again once WKILLn_N has
risen, which is the model's choice (R65; DESIGN CHOICE, log entry 59). -/
def wkillFall (a : Nat) (s : State) : State :=
  if wkillCond s a && !wkillLow s a then
    let s := if writeLive s a then cutWrite a (fun _ => 1) s else s
    let l := link s a
    let s := setLink a { l with pend := l.pend.filter (fun (_, p) => p.pers != 1), want := killWant l } s
    put F.LANE_ALK_PERS_PERS a 0 (put F.LANE_ALK_STAT_WKILL a 1 s)
  else s

/-- Every WKILLn_N follows its conditions downward. -/
def wkillFallAll (s : State) : State := upTo 4 wkillFall s

/-- A permit term that all arms share, or CLK_OK of arm `a`, has fallen: the sectors being written on the arm are cut
and WKILLn_N falls (R126, R127). -/
def permitFall (a : Nat) (s : State) : State :=
  wkillFall a (if writeLive s a then cutWrite a (fun _ => 1) s else s)

/-- Head `h` belongs to the arm's write operation. -/
def inWriteOp (s : State) (h : Nat) : Bool := match wop s (armOf h) with
  | none => false
  | some o => !o.ending && o.heads.any (fun e => e.1 == h)

/-- Head `h` loses its servo write permit (R194, R195): the fall cuts every head of the write operation that `h` belongs to. -/
def dropWperm (h : Nat) (s : State) : State :=
  let s := setHead h { head s h with good := 0, rearm := false } s
  if wperm s h then
    let s := count F.SRV_ERR_WP_DROP (armOf h) (putFBit F.SRV_WPERM_WPERM (armOf h) (h % 16) false s)
    if inWriteOp s h then permitFall (armOf h) s else wkillFall (armOf h) s
  else s

/-- Every head of the arm loses its permit. -/
def dropWpermArm (a : Nat) (s : State) : State := each (armHeads a) dropWperm s

/-- WEDGES, at least 1 for use as a modulus. -/
def wedges (s : State) : Nat := fld1 F.SRV_WEDGES_WEDGES 0 s

/-- The rotor angle and the revolution count now: what the last wedge set, and what the rotor has turned since by the fabric clock (R209). -/
def thetaNow (s : State) : Nat × Nat :=
  let x := arm s 0
  let t := fld F.SRV_THETA_THETA 0 s +
    (if fld F.SRV_THETA_SRC 0 s = 1 ∧ 0 < x.thPer then (s.time - x.thAt) * 65536 / (wedges s * x.thPer) else 0)
  (t % 65536, (fld F.SRV_THETA_REV 0 s + t / 65536) % 2 ^ 32)

/-! ### Cost of an item on an arm (R380) -/

/-- Move time of arm `a` over a distance in tracks, from its seek table (R192, R380). -/
def moveTime (s : State) (a dist : Nat) : Nat :=
  if dist = 0 then 0
  else
    let m := fld2 F.SRV_SEEKTAB_MEAN a (min 21 (Nat.log2 dist)) s
    1000 * (if m = 0 then fld F.GOV_SCH_SEEK_DEF 0 s else m)

/-- Predicted time at which arm `a` is free, and the track it stands at then. -/
def freeAt (s : State) (a : Nat) : Nat × Nat :=
  match (Tab.get? s.sched.running a).bind (item s) with
  | some x => (max s.time x.predEnd, x.track)
  | none =>
    let x := arm s a
    match x.seekFrom with
    | some (d, t0) => (if mode s a = 4 || mode s a = 5 then max s.time (t0 + moveTime s a d) else s.time, x.target)
    | none => (s.time, x.target)

/-- Pre-heat of the item's heads on arm `a`, µs (R122, R123). -/
def preheat (s : State) (x : Item) (a : Nat) : Nat :=
  ((x.mem.map (fun m =>
    let h := 16 * a + m.1
    if flag F.WP_CTL_HEAT_EN h s && (x.write || s.sched.lastWr.contains h) then fld F.WP_HEAT_PREHEAT h s else 0)).max?).getD 0

/-- The item's move on arm `a`. -/
def itemMove (s : State) (x : Item) (a : Nat) : Nat :=
  max (moveTime s a ((x.track : Int) - ((freeAt s a).2 : Int)).natAbs) (1000 * preheat s x a)

/-- TARGET in rpm, kept within 5,400 to 10,000 (R228). -/
def spmTarget (s : State) : Nat := max 5400 (min 10000 (fld F.SPM_SPEED_TARGET 0 s))

/-- A revolution at the spindle's target speed, ns. -/
def revTime (s : State) : Nat := 60000000000 / spmTarget s

/-- Azimuth of arm `a`. -/
def azOf (s : State) (a : Nat) : Nat := match s.geo with
  | none => 0
  | some g => g.az.getD a 0

/-- The wait from time `t` until the sector `sec` of the item begins under arm `a`, ns (R16, R380). -/
def rotWait (s : State) (x : Item) (a t sec : Nat) : Nat :=
  match zoneOf s x.zone with
  | none => 0
  | some z =>
    let th := (thetaNow s).1 + (t - s.time) * 65536 / max 1 (revTime s)
    let w := (sectorAngle z x.track sec + 2 * 65536 - azOf s a - th % 65536) % 65536
    w * revTime s / 65536

/-- Arrival time of arm `a` at the item's track, and the waits there of its members, margin included in the rotor's angle. -/
def arrive (s : State) (x : Item) (a : Nat) : Nat × List Nat :=
  let t := (freeAt s a).1 + itemMove s x a
  (t, x.mem.map (fun m => rotWait s x a (t + 1000 * fld F.GOV_SCH_MARGIN 0 s) m.2))

/-- cost(i, a) of R380. -/
def itemCost (s : State) (x : Item) (a : Nat) : Nat :=
  let r := arrive s x a
  r.1 - s.time + (r.2.min?).getD 0

/-! ### Serving (R35, R120, R381, R472) -/

/-- Media writes are held: checker 20 is live (R472). -/
def writesHeld (s : State) : Bool := flag F.FLT_CHK_LIVE 20 s

/-- Arm `a` is in SEEK, SETTLE or FOLLOW. -/
def armMoves (s : State) (a : Nat) : Bool := 4 ≤ mode s a && mode s a ≤ 6

/-- Head `h` is in SENSE, or about to be: it receives no dispatch until it is back in READ (R47). -/
def senseHeld (s : State) (h : Nat) : Bool :=
  persOf s h == 2 || (Tab.get? (link s (armOf h)).pend (h % 16)).any (fun p => p.pers == 2) ||
    (Tab.get? (link s (armOf h)).want (h % 16)).any (fun p => p.1 == 2)

/-- Arm `a` can serve the item now (R47, R381), the preference of R35 apart. -/
def serves (s : State) (x : Item) (a : Nat) : Bool :=
  s.geo.isSome && armMoves s a && x.mem.all (fun m => eligible s (16 * a + m.1) && !senseHeld s (16 * a + m.1)) &&
    (match x.head with | some h => armOf h == a | none => true) && x.avoid.all (fun h => !(armOf h == a && x.mem.any (fun m => m.1 == h % 16))) &&
    (!x.write || (shockOk s && !writesHeld s && flag F.SPM_STAT_AT_SPEED 0 s))

/-- Arm `a` can be chosen for the item: no other write operation is on the arm (R120). An arm with a fenced head on a surface that the pass writes
serves it no more, and heads on absent members' surfaces do not count (R35 as R246 reads it). -/
def canServe (s : State) (x : Item) (a : Nat) : Bool := serves s x a && (!x.write || (wop s a).isNone)

/-- Arms that can be chosen for the item. -/
def serving (s : State) (x : Item) : List Nat := (List.range 4).filter (canServe s x)

/-- Least cost of the item over every arm that can serve it. -/
def leastCost (s : State) (x : Item) : Nat := (((serving s x).map (itemCost s x)).min?).getD 0

/-- An urgent item is bound to the arm of least cost (R387). -/
def bindItem (x : Item) (s : State) : State :=
  setItem { x with urgent := true, bound := leastBy (itemCost s x) (serving s x) } s

/-- An item of the ready set that is urgent is bound as it becomes so (R387). -/
def bindUrgent (i : Nat) (s : State) : State := match item s i with
  | some x => if x.urgent && x.st == .ready then bindItem x s else s
  | none => s

/-- Bound items whose arm can no longer serve them are bound again (R387). -/
def rebind (s : State) : State :=
  each (Tab.vals s.sched.items) (fun x s =>
    if x.urgent && x.st == .ready && (match x.bound with | some a => !canServe s x a | none => true) then bindItem x s else s) s

end Sys2Proof.Machine
end

