-- ==== Sys2Proof/Machine/OpsGov.lean ====
section
/-! DEFINITION. The cut budget: the ledger, reservations and charges, and the limits the governor writes (R389–R395). -/

namespace Sys2Proof.Machine

open Sys2Proof

/-- E(x) of R392: fast engines reserved for x lanes reading. -/
def eOf (s : State) (x : Nat) : Nat := min 16 (ceilDiv x (fld1 F.GOV_CTL_DEC_RATIO 0 s))

/-- The arm that an item holds a reservation on: decided or running there. -/
def heldArm (x : Item) : Option Nat := match x.st with
  | .decided a => some a
  | .running a => some a
  | _ => none

/-- Items that hold reservations. -/
def heldItems (s : State) : List Item := (Tab.vals s.sched.items).filter (fun x => (heldArm x).isSome)

/-- An item that holds a reservation for head `n`. -/
def holdsHead (x : Item) (n : Nat) : Bool := match heldArm x with
  | some a => armOf n == a && x.mem.any (fun m => m.1 == n % 16)
  | none => false

/-- The lane's reading cost is charged by its state (R106). -/
def laneCharged (s : State) (n : Nat) : Bool := let st := fld F.LANE_STAT_STATE n s; st == 2 || (4 ≤ st && st ≤ 6)

/-- Lanes charged reading, or reserved to read (R391). -/
def lanesRd (s : State) : List Nat :=
  let hs := (heldItems s).filter (fun x => !x.write)
  (List.range 64).filter (fun n => laneCharged s n || hs.any (fun x => holdsHead x n))

/-- Lr of R392. -/
def lr (s : State) : Nat := (lanesRd s).length

/-- Cost of a lane of arm `a` that writes. -/
def wrCost (s : State) (a : Nat) : Nat := 60 + fld F.GOV_ARM_WR_MW a s

/-- Engines awake among the fast ones (0–15), or the recovery ones. -/
def awakeIn (s : State) (lo hi : Nat) : Nat := ((List.range hi).filter (fun e => lo ≤ e && ((eng s e).awake || (eng s e).waking))).length

/-- The host link is charged: outside L1, L1.1 and L1.2 (R391). -/
def linkCharged (s : State) : Bool :=
  let st := fld F.HIF_LINK_STAT_LSTATE 0 s
  !s.cpr.hostOff && !(4 ≤ st && st ≤ 6)

/-- Sum of a list. -/
def sumOf (l : List Nat) : Nat := l.foldl (· + ·) 0

/-- The charges that no item causes (R391): calibrations, sense measurements, whose cost is left open, and the link. -/
def chargeMw (s : State) : Nat :=
  let c := ((List.range 64).filter (fun n => fld F.LANE_STAT_STATE n s == 2)).length
  110 * c + 230 * eOf s c + sumOf ((List.range 4).map (fun a => if (link s a).sense.isSome then (Config.openVal 391 [a]).toNat else 0)) +
    (if linkCharged s then 1100 else 0)

/-- Heads of a reservation that an item holds. -/
def itemHeads (x : Item) : List Nat := match heldArm x with
  | some a => x.mem.map (fun m => 16 * a + m.1)
  | none => []

/-- Fast engines that a read's reservation of `mw` on `l` heads stands for (R392). -/
def resEng (write : Bool) (mw l : Nat) : Nat := if write then 0 else (mw - 110 * l) / 230

/-- Fast engines that all reservations stand for. -/
def engRes (s : State) : Nat :=
  sumOf ((heldItems s).map (fun x => resEng x.write x.held x.mem.length)) + sumOf (s.sched.late.map (fun r => resEng r.write r.mw r.heads.length))

/-- Head `n` is charged by a reservation of its kind. -/
def headReserved (s : State) (write : Bool) (n : Nat) : Bool :=
  (heldItems s).any (fun x => x.write == write && holdsHead x n) || s.sched.late.any (fun r => r.write == write && r.heads.contains n)

/-- What is charged by its state though no reservation stands for it: lanes that read or write, and fast engines. -/
def strayMw (s : State) : Nat :=
  let cal := ((List.range 64).filter (fun n => fld F.LANE_STAT_STATE n s == 2)).length
  110 * ((List.range 64).filter (fun n => laneCharged s n && fld F.LANE_STAT_STATE n s != 2 && !headReserved s false n)).length +
    sumOf (((List.range 64).filter (fun n => 2 ≤ fld F.WP_STAT_STATE n s && !headReserved s true n)).map (fun n => wrCost s (armOf n))) +
    230 * (awakeIn s 0 16 - engRes s - eOf s cal)

/-- The reservation of an item as it stands: its seek part until the predicted end of the move (R391). -/
def resNow (s : State) (x : Item) : Nat := x.held + if s.time < x.seekEnd then x.seekHeld else 0

/-- H of R390: the sum of all reservations and charges held. -/
def heldMw (s : State) : Nat :=
  sumOf ((heldItems s).map (resNow s)) + sumOf (s.sched.late.map (·.mw)) + 300 * max s.sched.drRes (awakeIn s 16 18) + strayMw s + chargeMw s

/-- The guard (R389). -/
def guardMw : Nat := 180

/-- B_eff − GUARD − F (R390). -/
def room (s : State) : Int := (fld F.GOV_STAT_EFF_MW 0 s : Int) - guardMw - fld F.GOV_POWER_FLOOR_MW 0 s

/-- A of R390. -/
def availMw (s : State) : Int := room s - heldMw s

/-- A failed reservation is counted in units of 1,024 (R391). -/
def noFit (s : State) : State :=
  if s.sched.nofit + 1 < 1024 then { s with sched := { s.sched with nofit := s.sched.nofit + 1 } }
  else count F.GOV_ERR_NOFIT 0 { s with sched := { s.sched with nofit := 0 } }

/-- Only charges are held (R393). -/
def onlyCharges (s : State) : Bool := heldMw s == chargeMw s

/-- What the governor answers to a reservation of `c` mW. -/
inductive Grant where
  | yes | solo | no
deriving DecidableEq, Repr

/-- The answer to a reservation (R388, R391, R393, R396); with GOV_CTL.EN = 0 none is refused. -/
def grant (s : State) (c : Nat) (urgent : Bool) : Grant :=
  if !flag F.GOV_CTL_EN 0 s then .yes
  else if flag F.GOV_STAT_SOLO 0 s || (!urgent && (flag F.GOV_STAT_OVER 0 s || s.sched.urgHold != 0)) then .no
  else if (c : Int) ≤ availMw s then .yes
  else if room s < c && onlyCharges s then .solo
  else .no

/-! ### The supply monitors (R491, R492) -/

/-- Voltage LSB of monitor `n` in half millivolts (R492). -/
def monLsb (n : Nat) : Nat := [1, 2, 1, 8, 4, 8].getD n 1

/-- Voltage of rail `n` in mV, current in mA and power in mW, where the spec states no rounding (R492, R493). -/
def monMv (s : State) (n : Nat) : Int := openRound 492 ((fld F.MGT_MON_V n s * monLsb n : Nat) : Int) 2
def monMa (s : State) (n : Nat) : Int := openRound 492 (sext 12 (fld F.MGT_MON_I n s) * fld F.MGT_MON_ISCALE n s) 1000
def monMw (s : State) (n : Nat) : Int :=
  openRound 492 (((fld F.MGT_MON_V n s * monLsb n : Nat) : Int) * sext 12 (fld F.MGT_MON_I n s) * fld F.MGT_MON_ISCALE n s) 2000000

/-- Measured power without the motor: the rails of R492, the 12 V rail less the motor's share (log entry 32). -/
def boardMw (s : State) : Int :=
  monMw s 0 + monMw s 1 + monMw s 2 + monMw s 4 + max 0 (monMw s 3 - fld F.SPM_PWR_MOTOR 0 s)

/-- The motor's power while GOV_CTL.MOTOR is 1. -/
def motorMw (s : State) : Nat := if flag F.GOV_CTL_MOTOR 0 s then fld F.SPM_PWR_MOTOR 0 s else 0

/-- WR_MW learns from the preamp rail's rise over its level before the write of `l` heads (R392). -/
def learnWr (a l : Nat) (s : State) : State :=
  let m := openRound 392 (monMw s 4 - Tab.get s.sched.wrBase 0 a) (max 1 l)
  let w : Int := fld F.GOV_ARM_WR_MW a s
  put F.GOV_ARM_WR_MW a (min 65535 (w + Int.tdiv (m - w) 8).toNat) s

/-! ### Urgent items that hold their arm (R383, R388) -/

/-- Items in the ready set. -/
def readySet (s : State) : List Item := (Tab.vals s.sched.items).filter (fun x => x.st == .ready)

/-- The oldest urgent item bound to arm `a` (layer 1). -/
def urgentFor (s : State) (a : Nat) : Option Item :=
  (sortBy (·.origin) ((readySet s).filter (fun x => x.urgent && x.bound == some a && canServe s x a))).head?

/-- An arm whose urgent item is gone holds nothing back any more (R388). -/
def freeHolds (s : State) : State :=
  upTo 4 (fun a s => if (urgentFor s a).isNone then { s with sched := { s.sched with urgHold := putBit s.sched.urgHold a false } } else s) s

/-! ### Recovery reservations and engine limits (R392, R395) -/

/-- Recovery jobs that wait, and engines that work on one. -/
def drWant (s : State) : Nat :=
  let jobs := ((Tab.vals s.dec.ctxs).filter (fun c => match c.wait with | .job _ => true | _ => false)).length
  let usable := ((List.range 2).filter (fun e => !bit F.DEC_FENCE_DR 0 e s)).length
  min usable jobs

/-- Recovery engines awake or at work. -/
def drBusy (s : State) : Nat := ((List.range 2).filter (fun e => (eng s (16 + e)).awake || (eng s (16 + e)).waking || (eng s (16 + e)).job.isSome)).length

/-- A recovery job that waits belongs to an urgent read. -/
def drUrgent (s : State) : Bool := (Tab.vals s.dec.ctxs).any (fun c => c.it.urgent && (match c.wait with | .job _ => true | _ => false))

/-- Recovery reservations end with their engines, and new ones are made for jobs that wait while they fit (R392, R395). -/
def drReserve (s : State) : State :=
  let s := freeHolds s
  let s := { s with sched := { s.sched with drRes := min s.sched.drRes (max (drBusy s) (drWant s)) } }
  upTo 2 (fun _ s =>
    if s.sched.drRes < drWant s && grant s 300 (drUrgent s) == .yes then { s with sched := { s.sched with drRes := s.sched.drRes + 1 } } else s) s

/-- Fast engines that may be awake, and recovery engines (R172). -/
def engLimit (s : State) (e : Nat) : Nat :=
  if e < 16 then min 16 (fld F.DEC_PWR_FAST_LIMIT 0 s) else min 2 (fld F.DEC_PWR_DR_LIMIT 0 s)

/-- Engines of the kind of `e` that are awake or waking. -/
def engAwake (s : State) (e : Nat) : Nat :=
  (((List.range 18).filter (fun k => (k < 16) == (e < 16))).filter (fun k => (eng s k).awake || (eng s k).waking)).length

/-- Engine `e` is beyond the limit of its kind, counted by number: it takes no new work (R172). -/
def engOver (s : State) (e : Nat) : Bool :=
  engLimit s e ≤ ((List.range e).filter (fun k => (k < 16) == (e < 16) && ((eng s k).awake || (eng s k).waking))).length

/-- With more engines of its kind awake than the limit, an engine with no work goes to sleep (R172). -/
def surplusSleep (e : Nat) (s : State) : State :=
  let x := eng s e
  if (x.awake || x.waking) && x.slots.isEmpty && x.job.isNone && engLimit s e < engAwake s e then setEng e { x with awake := false, waking := false } s else s

/-- The limits on awake engines have changed: surplus engines without work sleep (R172). -/
def limitSleep (s : State) : State := (List.range 18).foldr surplusSleep s

/-- The reservation of an ended item is still charged: one of its lanes is, or more fast engines are awake than the others stand for (R391). -/
def lateHeld (s : State) (r : LateRes) : Bool :=
  let e := resEng r.write r.mw r.heads.length
  r.heads.any (fun n => if r.write then 2 ≤ fld F.WP_STAT_STATE n s else laneCharged s n) || (0 < e && engRes s - e < awakeIn s 0 16)

/-- Reservations of ended items end in their order, as their lanes and engines leave the charged states (R391). -/
def lateEnd (s : State) : State :=
  each s.sched.late (fun r s => if lateHeld s r then s else { s with sched := { s.sched with late := s.sched.late.erase r } }) s

/-- The governor writes the engine limits, and surplus engines follow them (R172, R391, R395). -/
def govLimits (s : State) : State :=
  let s := drReserve (lateEnd s)
  limitSleep (put F.DEC_PWR_DR_LIMIT 0 s.sched.drRes (put F.DEC_PWR_FAST_LIMIT 0 (eOf s (lr s)) s))

end Sys2Proof.Machine
end

