-- ==== Sys2Proof/Machine/OpsArm.lean ====
section
/-! DEFINITION. Sectors and items that return to the scheduler, arm modes and head states, unloads and fences (R34, R188–R190, R201, R205, R384,
R387, R398). -/

namespace Sys2Proof.Machine

open Sys2Proof

/-! ### Sectors that return to the scheduler -/

/-- A write may be in the ready set only while the spindle reports AT_SPEED (R378). -/
def readyState (s : State) (write : Bool) : ItemState :=
  if write && !flag F.SPM_STAT_AT_SPEED 0 s then .held else .ready

/-- V_f of a function whose first item enters an empty ready set for it (R384). -/
def vEnter (fn : Nat) (s : State) : State :=
  let its := Tab.vals s.sched.items
  let host := its.filter (fun i => i.st == .ready && i.cls == 0)
  if host.any (fun i => i.fn == fn) then s
  else
    let vs := (host.filter (fun i => 0 < fld F.GOV_FN_WEIGHT i.fn s)).map (fun i => Tab.get s.sched.vtime 0 i.fn)
    match vs.min? with
    | none => s
    | some v => { s with sched := { s.sched with vtime := Tab.set s.sched.vtime 0 fn (max (Tab.get s.sched.vtime 0 fn) v) } }

/-- Put an item into the scheduler under a number of its own; one whose descriptor carries URGENT is bound at once (R376, R378, R387). -/
def addItem (x : Item) (s : State) : State :=
  let st := readyState s x.write
  let s := if x.cls == 0 && st == .ready then vEnter x.fn s else s
  let n := s.sched.nextId
  let s := { s with sched := { s.sched with nextId := n + 1 } }
  bindUrgent n (setItem { x with id := n, st := st, bound := none, held := 0, seekHeld := 0, solo := false } s)

/-- The rest of an operation on one surface returns to the scheduler as an item of its own, with its age (R34, R84, R94). -/
def returnRest (it : Nat) (psa left : Nat) (s : State) : State :=
  match item s it with
  | none => s
  | some x =>
    if left = 0 || x.aborted then s
    else addItem { x with mem := [(psaSurf psa, psaSector psa)], count := left, runs := [], track := psaTrack psa, zone := psaZone psa } s

/-- An item returns to the scheduler; one that enters an empty ready set of its function brings V_f up, and an urgent one is bound again
(R384, R398). -/
def itemReturns (x : Item) (s : State) : State :=
  bindUrgent x.id (setItem x (if x.cls == 0 && x.st == .ready then vEnter x.fn s else s))

/-- The arm's decided item returns to the ready set with its age and its reservation ends (R395, R398). -/
def undecide (a : Nat) (s : State) : State :=
  match Tab.get? s.sched.decided a with
  | none => s
  | some i =>
    let s := { s with sched := { s.sched with decided := Tab.erase s.sched.decided a } }
    match item s i with
    | none => s
    | some x =>
      let s := if x.solo then put F.GOV_STAT_SOLO 0 0 s else s
      govLimits (itemReturns { x with st := readyState s x.write, held := 0, seekHeld := 0, solo := false, bound := none } s)

/-- Decided write items return to the ready set, and bound ones are bound again (R387, R398: SHOCK_OK or AT_SPEED falls). -/
def undecideWrites (s : State) : State :=
  rebind <| upTo 4 (fun a s => match Tab.get? s.sched.decided a with
    | none => s
    | some i => match item s i with
      | some x => if x.write then undecide a s else s
      | none => s) s

/-! ### Arm modes (R188, R189, R201) -/

/-- A head's state (R189): 0 OFF, 1 ACQ, 2 TRACK, 3 LOST. -/
def hst (s : State) (h : Nat) : Nat := fld2 F.SRV_HST_STATE (h / 16) (h % 16) s
def setHst (h st : Nat) (s : State) : State := put2 F.SRV_HST_STATE (h / 16) (h % 16) st s

/-- The command that the preamp applies to head `h`: that of the last MUA frame, or of the one before while a STAT has reported it lost and none has
left since (R61, R182). -/
def applied (s : State) (h : Nat) : Int :=
  if (link s (armOf h)).muaMiss && !(link s (armOf h)).muaEop then (head s h).uPrev else (head s h).u

/-- The microactuator of head `h` starts its ramp to 0 from the command in force (R190). -/
def startRamp (h : Nat) (s : State) : State :=
  let u := applied s h
  setHead h { head s h with ramp := if u = 0 then none else some (u, 0), sat := 0, acq := 0, reenter := false } s

/-! ### Wedge timers and the rotor angle (R176, R189, R209) -/

/-- The rotor angle comes from the lowest-numbered head with a locked timer (R209). -/
def thetaHead (s : State) : Option Nat := (List.range 64).find? (fun h => bitAt (fld2 F.SRV_HST_LOCK (h / 16) (h % 16) s) 0)

/-- The mechanical angle of R233. -/
def spmMech (s : State) : Nat :=
  ((fld F.SPM_ANGLE_PPIDX 0 s * 65536 + s.spm.theta) / fld1 F.SPM_MOTOR_POLE_PAIRS 0 s + fld F.SPM_ANGLE_OFS 0 s) % 65536

/-- The spindle controller has an angle estimate (R233). -/
def spmTracked (s : State) : Bool := s.spm.locked && (fld F.SPM_STAT_STATE 0 s == 7 || fld F.SPM_STAT_STATE 0 s == 9)

/-- The rotor angle of the spindle's estimate, with a pass from 65,535 to 0 since `old` counted in REV (R209). -/
def thetaSpindle (s : State) : State :=
  let old := thetaNow s
  let m := spmMech s
  let rev := if fld F.SRV_THETA_SRC 0 s ≠ 0 ∧ m + 32768 < old.1 then old.2 + 1 else old.2
  put F.SRV_THETA_REV 0 (rev % 2 ^ 32) (put F.SRV_THETA_SRC 0 2 (put F.SRV_THETA_THETA 0 m s))

/-- With no timer locked any more the angle is the spindle's, or none (R209). -/
def thetaUnlock (s : State) : State :=
  if fld F.SRV_THETA_SRC 0 s ≠ 1 || (thetaHead s).isSome then s
  else if spmTracked s then thetaSpindle s
  else
    let t := thetaNow s
    put F.SRV_THETA_SRC 0 0 (put F.SRV_THETA_REV 0 t.2 (put F.SRV_THETA_THETA 0 t.1 s))

/-- The runout entries fetched for an arm none of whose wedge timers counts wedges any more are void (R181). -/
def rroVoid (a : Nat) (s : State) : State :=
  if (armHeads a).any (fun h => (head s h).widx.isSome) then s
  else setArm a { arm s a with rro := [], rroAt := none } s

/-- The wedge timer of head `h` is not locked; while it searches its servo gate stays open, once the head is in READ (R46, R176). -/
def timerFree (h : Nat) (search : Bool) (s : State) : State :=
  let g := search && 2 ≤ fld F.LANE_STAT_STATE h s && persOf s h == 0
  let s := rroVoid (armOf h)
    (setHead h { head s h with widx := none, seen := [], agree := 0, samAt := none, gate := g, rearm := false, skipped := 0 } s)
  thetaUnlock (put F.LANE_STAT_SERVO h g.toNat (put2 F.SRV_HST_LOCK (h / 16) (h % 16) 0 s))

/-- Head `h` goes to OFF (R189). -/
def headOff (h : Nat) (s : State) : State := timerFree h false (setHst h 0 (startRamp h s))

/-- Head `h` goes from OFF to ACQ, its timer searching (R189). -/
def headAcq (h : Nat) (s : State) : State :=
  timerFree h true (setHst h 1 (setHead h { head s h with acq := 0, sat := 0 } s))

/-- TRACKING counts the heads in TRACK. -/
def setTracking (a : Nat) (s : State) : State :=
  let n := ((armHeads a).filter (fun h => hst s h == 2)).length
  if fld F.SRV_MODE_TRACKING a s = n then s else mapChange (put F.SRV_MODE_TRACKING a n s)

/-- Heads leave TRACK for ACQ with a ramp, as on entry to SEEK or UNLOADING (R189). -/
def untrack (a : Nat) (s : State) : State :=
  setTracking a (each (armHeads a) (fun h s => if hst s h == 2 then setHst h 1 (startRamp h s) else s) s)

/-- Every head goes to OFF (R189). -/
def headsOff (a : Nat) (s : State) : State :=
  setTracking a (each (armHeads a) (fun h s => if hst s h == 0 then s else headOff h s) s)

/-- The VCM command of the arm; 0 while RETRACT_N is low (R203). -/
def setVcm (a : Nat) (i : Int) (s : State) : State := put F.SRV_VCM_CMD a (if retractLow s then 0 else lowBits 16 i) s
def vcm (s : State) (a : Nat) : Int := sext 16 (fld F.SRV_VCM_CMD a s)

/-- A mode is entered; a decided item returns when the arm leaves SEEK, SETTLE and FOLLOW, urgent items bound to it are bound again (R387, R398), and
no permit outlasts FOLLOW (R193). -/
def setMode (a m : Nat) (s : State) : State :=
  let s := if fld F.SRV_MODE_MODE a s = m then s else mapChange (put F.SRV_MODE_MODE a m s)
  let s := rebind (if 4 ≤ m && m ≤ 6 then s else undecide a s)
  if m = 6 then s else dropWpermArm a s

/-- An unload starts, normal or emergency (R188, R201). A GO in progress ends. -/
def startUnload (a : Nat) (emergency : Bool) (s : State) : State :=
  let s := untrack a (setMode a 8 s)
  let x := arm s a
  let s := setArm a { x with phase := if emergency then .climb else .ramp, heldLoad := false, storedGo := none,
                             seekFrom := none, miss := 0 } s
  let s := put F.SRV_TARGET_GO a 0 (put F.SRV_CTL_UNLOAD a 0 s)
  if emergency then setVcm a (sext 16 (fld F.SRV_PARK_UNLOAD_I a s)) s else s

/-- What an unload request or an arm fence does to the arm by its mode (R188). -/
def unloadByMode (a : Nat) (s : State) : State :=
  let m := mode s a
  if m = 3 then startUnload a true s
  else if 4 ≤ m && m ≤ 7 then startUnload a false s
  else s

/-- RETRACT_N has fallen, or the arm domain goes off: loops stop, the command is 0, every permit is low (R188, R203). A LOAD held in UNLOADING
is dropped with SRV_CTL.LOAD left at 1, which is the model's choice (R188; DESIGN CHOICE, log entry 26). -/
def stopLoops (a m : Nat) (s : State) : State :=
  let s := headsOff a (setMode a m s)
  let x := arm s a
  setVcm a 0 (setArm a { x with phase := .none, storedGo := none, heldLoad := false, seekFrom := none, bump := 0, errOfs := 0 }
    (put F.SRV_TARGET_GO a 0 s))

/-- Every arm that is not OFF enters RETRACT (R188). -/
def retractAll (s : State) : State := upTo 4 (fun a s => if mode s a = 0 then s else stopLoops a 9 s) s

/-! ### Fences (R33, R34, R205) -/

/-- Head `h` has an operation that has not ended: a read, or the arm's write operation until its WRITE_OP_END. -/
def headBusy (s : State) (h : Nat) : Bool :=
  (lane s h).op.isSome || (match wop s (armOf h) with
    | some o => o.heads.any (fun (k, _) => k == h)
    | none => false)

/-- SPR_FENCE_DRAIN of head `h`. -/
def setDrain (h : Nat) (b : Bool) (s : State) : State := putFBit F.SPR_FENCE_DRAIN_DRAIN (h / 32) (h % 32) b s

/-- An operation on head `h` has ended: with none left its DRAIN bit clears (R34, R374). -/
def drainEnd (h : Nat) (s : State) : State :=
  if headBusy s h || !bit F.SPR_FENCE_DRAIN_DRAIN (h / 32) (h % 32) s then s else mapChange (setDrain h false s)

/-- Head `h` has stopped being eligible: its permit falls, and an operation on it ends at its next sector boundary (R34). -/
def loseEligible (h : Nat) (s : State) : State :=
  let s := dropWperm h s
  let l := lane s h
  let s := match l.op with
    | some o => setLane h { l with op := some { o with ending := true } } s
    | none => s
  match wop s (armOf h) with
  | some o => if o.heads.any (fun (k, _) => k == h) then cutWrite (armOf h) (fun _ => 1) s else s
  | none => s

/-- What follows a change of eligibility from `old` to `s`: the DRAIN bits of the heads that lost it with an operation, those heads, the
reachable surfaces, write-kill (R33, R34). -/
def eligibilityChanged (old s : State) : State :=
  let lost := (List.range 64).filter (fun h => eligible old h && !eligible s h)
  let s := each lost loseEligible (each (lost.filter (headBusy s)) (fun h s => setDrain h true s) s)
  rebind (mapChange (wkillFallAll (surfUpdate s)))

/-- Fence head `h` (R34, R470). -/
def fenceHead (h : Nat) (s : State) : State :=
  eligibilityChanged s (putFBit F.SPR_FENCE_HEAD_FENCE (h / 32) (h % 32) true s)

/-- Fence arm `a`: the fence of each of its heads, and a loaded arm unloads (R34, R205, R470). -/
def fenceArm (a : Nat) (s : State) : State :=
  if armFenced s a then s
  else unloadByMode a (eligibilityChanged s (putFBit F.SPR_FENCE_ARM_FENCE 0 a true s))

end Sys2Proof.Machine
end

