-- ==== Sys2Proof/Machine/OpsDeck.lean ====
section
/-! DEFINITION. The command deck's shared operations: formats, host buffers, protection information, chokers, the write cache, the end of
reads and the resolution of commands (R130–R133, R256–R259, R296, R331–R372). -/

namespace Sys2Proof.Machine

open Sys2Proof

/-! ### Formats and fields of a command -/

def pract (x : Cmd) : Bool := (cdw x 12).testBit 29

/-- An ordered command (R350), a Barrier. -/
def ordered (x : Cmd) : Bool := !isAdmin x && (opc x == 0x81 || opc x == 0x82)
def barrier (x : Cmd) : Bool := !isAdmin x && opc x == 0x84

/-- A command that takes data from the host. -/
def takesData (x : Cmd) : Bool := !isAdmin x && (opc x == 1 || opc x == 0x81 || opc x == 5)

/-- A command that transfers data to the host. -/
def sendsData (x : Cmd) : Bool := opc x == 2 || opc x == 0x82

/-- Protection is on, its type, and whether it stands in the first eight bytes (R339). -/
def piType (r : NsRec) : Nat := r.dps % 8
def piFirst (r : NsRec) : Bool := r.dps.testBit 3

/-- Metadata bytes transferred with each block: none when the controller inserts and strips all of them. -/
def xferM (r : NsRec) (x : Cmd) : Nat := if piType r != 0 && pract x && fmtM r.flbas == 8 then 0 else fmtM r.flbas

/-- Metadata travels with the data of each block. -/
def extended (r : NsRec) : Bool := r.flbas.testBit 4

/-- Bytes of the data transfer. -/
def xferLen (r : NsRec) (x : Cmd) : Nat := nlb x * (fmtL r.flbas + if extended r then xferM r x else 0)

/-- Landing address of byte `q` of block `n` of a command, its metadata following its data. -/
def blkAddr (r : NsRec) (x : Cmd) (buf md n q : Nat) : Nat :=
  let l := slba x + n
  let u := l / lpu r - (unitsOf r x).1
  let j := l % lpu r
  if q < fmtL r.flbas then buf + 4096 * u + fmtL r.flbas * j + q else md + 64 * u + fmtM r.flbas * j + (q - fmtL r.flbas)

/-- What block `n` of a command puts into the data transfer, out of the landing, and into a separate metadata buffer. -/
def blkOut (s : State) (r : NsRec) (x : Cmd) (buf md n : Nat) : List (Byte × Bool) :=
  (List.range (fmtL r.flbas + if extended r then xferM r x else 0)).map (fun q => landMark s (blkAddr r x buf md n q))
def blkMd (s : State) (r : NsRec) (x : Cmd) (buf md n : Nat) : List (Byte × Bool) :=
  if extended r then [] else (List.range (xferM r x)).map (fun q => landMark s (blkAddr r x buf md n (fmtL r.flbas + q)))

/-- What a command's data transfer carries. -/
def streamOut (s : State) (r : NsRec) (x : Cmd) (buf md : Nat) : List (Byte × Bool) :=
  (List.range (nlb x)).flatMap (blkOut s r x buf md)

/-- What its separate metadata buffer carries. -/
def streamMd (s : State) (r : NsRec) (x : Cmd) (buf md : Nat) : List (Byte × Bool) := (List.range (nlb x)).flatMap (blkMd s r x buf md)

/-! ### Protection information -/

/-- One step of the T10 CRC-16 over a byte. -/
def crc16Byte (c b : Nat) : Nat :=
  (List.range 8).foldl (fun c _ => if c.testBit 15 then (c * 2 % 65536) ^^^ 0x8BB7 else c * 2) (c ^^^ (b * 256))

/-- Guard over bytes. -/
def crc16 (bs : List Byte) : Nat := bs.foldl (fun c b => crc16Byte c b.toNat) 0

/-- A big-endian number. -/
def be (bs : List Byte) : Nat := bs.foldl (fun v b => v * 256 + b.toNat) 0

/-- Place of the protection field in the metadata, and the bytes its guard covers, for block `n`. -/
def piPlace (r : NsRec) : Nat := if piFirst r then 0 else fmtM r.flbas - 8
def piData (s : State) (r : NsRec) (x : Cmd) (buf md n : Nat) : List Byte :=
  (List.range (fmtL r.flbas + piPlace r)).map (fun q => (landMark s (blkAddr r x buf md n q)).1)
def piField (s : State) (r : NsRec) (x : Cmd) (buf md n : Nat) : List Byte :=
  (List.range 8).map (fun q => (landMark s (blkAddr r x buf md n (fmtL r.flbas + piPlace r + q))).1)

/-- The reference tag expected of block `n`. -/
def refTag (r : NsRec) (x : Cmd) (n : Nat) : Nat := if piType r = 3 then cdw x 14 else (cdw x 14 + n) % 2 ^ 32

/-- The protection check of block `n`: 0, or the status code of the first failure (R366); the escape values skip it (R342). -/
def piCheck (s : State) (r : NsRec) (x : Cmd) (buf md n : Nat) : Nat :=
  let f := piField s r x buf md n
  let app := be ((f.drop 2).take 2)
  let ref := be (f.drop 4)
  let mask := cdw x 15 / 65536
  if app = 0xFFFF && (piType r != 3 || ref == 0xFFFFFFFF) then 0
  else if (cdw x 12).testBit 28 && be (f.take 2) != crc16 (piData s r x buf md n) then 0x282 + dnr
  else if (cdw x 12).testBit 27 && (app &&& mask) != ((cdw x 15 % 65536) &&& mask) then 0x283 + dnr
  else if (cdw x 12).testBit 26 && piType r != 3 && ref != refTag r x n then 0x284 + dnr
  else 0

/-- The protection check of all blocks. -/
def piStatus (s : State) (r : NsRec) (x : Cmd) (buf md : Nat) : Nat :=
  if piType r = 0 || fmtM r.flbas < 8 then 0
  else ((List.range (nlb x)).map (piCheck s r x buf md)).find? (· != 0) |>.getD 0

/-! ### Host buffers: PRPs and SGLs (R296, R300, R327, R368) -/

/-- Size of the BAR2 of function `f` (R290), and its address. -/
def bar2Size (s : State) (f : Nat) : Nat := if f = 0 then 0x400000 else 65536 * 2 ^ min 6 (fld F.HIF_VF_CMBAP_SIZE 0 s)
/-- System Page Size has one bit set, of a supported size (R288). -/
def sysPsOk (s : State) : Bool := [1, 2, 4, 8, 16].contains (rd R.CFG_SYSPS 0 0 s)
def bar2 (s : State) (f : Nat) : Nat :=
  if f = 0 then fld F.CFG_BAR2 0 s * 2 ^ 22
  else if !sysPsOk s then (Config.openVal 288 [f, rd R.CFG_SYSPS 0 0 s]).toNat
  else fld F.VFBAR2 0 s / 16 * 16 + fld F.VFBAR2U 0 s * 2 ^ 32 + (f - 1) * bar2Size s f

/-- Addresses of BAR0 and BAR4 of function `f` (R290). -/
def bar0 (s : State) (f : Nat) : Nat :=
  if f = 0 then rd R.CFG_BAR0 0 0 s / 65536 * 65536 else rd R.CFG_VFBAR0 0 0 s / 16 * 16 + rd R.CFG_VFBAR0U 0 0 s * 2 ^ 32 + (f - 1) * 65536
def bar4 (s : State) (f : Nat) : Nat :=
  if f = 0 then rd R.CFG_BAR4 0 0 s / 65536 * 65536 else rd R.CFG_VFBAR4 0 0 s / 16 * 16 + rd R.CFG_VFBAR4U 0 0 s * 2 ^ 32 + (f - 1) * 65536

/-- BAR2 and BAR4 of a VF that has never been online are outside its share (R289). -/
def barOpen (s : State) (f : Nat) : Bool := f == 0 || (fnr s f).everOnline

/-- CMB share of a function: its first byte, in a space of the model's own where each function has room for 4 MiB, and its size (R326). -/
def share (s : State) (f : Nat) : Nat × Nat :=
  if f = 0 then (0, 65536 * min 64 (fld F.DECK_CMB_PF_UNITS 0 s)) else (0x400000 * f, 65536 * (fnr s f).cmbUnits)

/-- The controller takes addresses in BAR2 as CMB addresses (R327). -/
def cmbOn (s : State) (f : Nat) : Bool :=
  flag F.CMBMSC_CMSE f s && fld F.CMBMSC_CBA f s * 4096 == bar2 s f

/-- An address lies in the function's BAR2. -/
def inBar2 (s : State) (f a : Nat) : Bool := bar2 s f != 0 && bar2 s f ≤ a && a < bar2 s f + bar2Size s f

/-- One byte of the CMB SRAM. -/
def cmbByte (s : State) (a : Nat) : Byte := (Tab.get? s.deck.cmb a).getD (Config.unwritten 2 s.deck.cmbEra a)

/-- `n` bytes of the CMB from byte `a` of the SRAM, with the marks of their granules. -/
def cmbRead (s : State) (a n : Nat) : List (Byte × Bool) :=
  (List.range n).map (fun k => (cmbByte s (a + k), s.deck.cmbPois.contains ((a + k) / 64)))

/-- A segment of the host buffer: in the CMB, or in host memory. -/
def segOf (s : State) (f a n : Nat) : Nat × Nat × Nat := if inBar2 s f a then (1, a - bar2 s f + (share s f).1, n) else (0, a, n)

/-- A buffer address is wrong for a command: it points into BAR2 without a CMB there, or into it for read data (R327). -/
def badAddr (s : State) (f : Nat) (toHost : Bool) (a n : Nat) : Bool :=
  inBar2 s f a && (!cmbOn s f || toHost || bar2 s f + (share s f).2 < a + n)

/-- Bytes of segments. -/
def segLen (l : List (Nat × Nat × Nat)) : Nat := (l.map (·.2.2)).foldl (· + ·) 0

/-- Bytes that a command transfers in all, and whether they go to the host; none for a command without data. -/
def isVendorIn (x : Cmd) : Bool := isAdmin x && opc x == 0xC0 || isAdmin x && opc x == 0xC9

/-- Entries of a PRP list at `p` that hold `left` bytes: segments, and the next list when the last entry of its page is a pointer. -/
def prpParse (s : State) (f : Nat) (p : ListPtr) (bs : List Byte) (left : Nat) : List (Nat × Nat × Nat) × Option ListPtr :=
  let cap := p.len / 8
  let want := ceilDiv left 4096
  let n := if want ≤ cap then want else cap - 1
  let segs := (List.range n).map (fun i => segOf s f (le bs (8 * i) 8) (min 4096 (left - 4096 * i)))
  let rest := left - segLen segs
  if want ≤ cap then (segs, none)
  else
    let a := le bs (8 * (cap - 1)) 8
    (segs, some ⟨a, min (8 * ceilDiv rest 4096) (4096 - a % 4096), false⟩)

/-- One SGL descriptor: a segment, or a pointer to the next segment of descriptors; none for a type that is not supported. -/
def sglOne (s : State) (f : Nat) (d : List Byte) : Option (List (Nat × Nat × Nat) × Option ListPtr) :=
  let ty := le d 15 1 / 16
  let a := le d 0 8
  let n := le d 8 4
  if le d 15 1 % 16 ≠ 0 then none
  else if ty = 0 then some ([segOf s f a n], none)
  else if ty = 1 then some ([(2, 0, n)], none)
  else if ty = 2 || ty = 3 then some ([], some ⟨a, n, true⟩)
  else none

/-- The descriptors of an SGL segment in order. -/
def sglParse (s : State) (f : Nat) : Nat → List Byte → Option (List (Nat × Nat × Nat) × Option ListPtr)
  | 0, _ => some ([], none)
  | k + 1, bs => match sglOne s f (bs.take 16), sglParse s f k (bs.drop 16) with
    | some (a, none), some (b, n) => some (a ++ b, n)
    | some (a, some p), some _ => some (a, some p)
    | _, _ => none

/-- The segments of an SGL that carry a command's data: a bit bucket takes bytes of read data and stands for none of a write's. -/
def sglSegs (x : Cmd) (l : List (Nat × Nat × Nat)) : List (Nat × Nat × Nat) := if takesData x then l.filter (fun e => e.1 != 2) else l

/-- The command's host buffer for `n` bytes from its entry: segments, and the list to load; else the status of its fault (R368). -/
def bufStart (s : State) (x : Cmd) (n : Nat) : List (Nat × Nat × Nat) × Option ListPtr × Nat :=
  let a := le x.sqe 24 8
  let b := le x.sqe 32 8
  if n = 0 then ([], none, 0)
  else if le x.sqe 1 1 / 64 = 0 then
    let n1 := min n (4096 - a % 4096)
    if a % 4 ≠ 0 then ([], none, 0x013 + dnr)
    else if n = n1 then ([segOf s x.fn a n], none, 0)
    else if n - n1 ≤ 4096 then (if b % 4096 ≠ 0 then ([], none, 0x013 + dnr) else ([segOf s x.fn a n1, segOf s x.fn b (n - n1)], none, 0))
    else if b % 8 ≠ 0 then ([], none, 0x013 + dnr)
    else ([segOf s x.fn a n1], some ⟨b, min (8 * ceilDiv (n - n1) 4096) (4096 - b % 4096), false⟩, 0)
  else match sglOne s x.fn ((x.sqe.drop 24).take 16) with
    | none => ([], none, 0x011 + dnr)
    | some (l, p) => let l := sglSegs x l; (l, p, if p.isNone && segLen l ≠ n then 0x00F + dnr else 0)

/-- A list of the command has been read: its segments join, and the next list is named. -/
def listTake (s : State) (x : Cmd) (p : ListPtr) (bs : List Byte) (n : Nat) : Cmd × Nat :=
  if p.sgl then match sglParse s x.fn (p.len / 16) bs with
    | none => ({ x with list := none }, 0x011 + dnr)
    | some (l, q) =>
      let l := x.segs ++ sglSegs x l
      ({ x with segs := l, list := q }, if q.isNone && segLen l ≠ n then 0x00F + dnr else 0)
  else
    let r := prpParse s x.fn p bs (n - segLen x.segs)
    if (r.1.any (fun e => e.1 == 0 && e.2.1 % 4096 != 0)) then ({ x with list := none }, 0x013 + dnr)
    else ({ x with segs := x.segs ++ r.1, list := r.2 }, 0)

/-- Read requests outstanding that function `f` may have, by its tag setting (R285). -/
def tagLimit (s : State) (f : Nat) : Nat :=
  if flag F.CFG_TAG14 f s then 16384 else if flag F.CFG_TAG10 f s then 1024 else 256

/-- The key of tag `t` of function `f`. -/
def tagKey (f t : Nat) : Nat := 16384 * f + t

/-- The lowest tag of function `f` within its tag setting that is neither outstanding nor awaited in silence, while fewer than 2,048 requests
are outstanding device-wide (R285). -/
def freeTag (s : State) (f : Nat) : Option Nat :=
  if 2048 ≤ (pendingReqs s).length then none
  else (List.range (tagLimit s f)).find? (fun t =>
    (Tab.get? s.deck.reqs (tagKey f t)).isNone && (Tab.get? s.deck.flushed (tagKey f t)).isNone)

/-- A tag is free for function `f`. -/
def tagFree (s : State) (f : Nat) : Bool := (freeTag s f).isSome

/-- What could not have a tag waits for one, in request order. -/
def tagWait (f : Nat) (w : TagWait) (s : State) : State :=
  if s.deck.waits.contains (f, w) then s else { s with deck := { s.deck with waits := s.deck.waits ++ [(f, w)] } }

/-- A read request to the host is sent with a tag of its function; `w` waits when none is free. -/
def request (f : Nat) (w : TagWait) (k : ReqKind) (a n : Nat) (s : State) : State :=
  match freeTag s f with
  | none => tagWait f w s
  | some t => toHost (.hostRead f t a n) { s with deck := { s.deck with reqs := Tab.put s.deck.reqs (tagKey f t) ⟨f, k, a, n, [], false⟩ } }

/-! ### Chokers (R345–R348) -/

/-- Two entries conflict. -/
def conflict (a b : Choke) : Bool :=
  a.nsid == b.nsid && a.first ≤ b.last && b.first ≤ a.last && (a.excl || b.excl)

/-- Lowest free entry of the 2,048. -/
def chkFree (s : State) : Option Nat := (List.range 2048).find? (fun i => !s.deck.chk.any (fun e => e.idx == i))

/-- Entries held for host commands, and by those of a function. -/
def isHost (e : Choke) : Bool := match e.holder with | .cmd _ => true | _ => false
def hostChk (s : State) : Nat := (s.deck.chk.filter isHost).length
def fnChk (s : State) (f : Nat) : Nat :=
  (s.deck.chk.filter (fun e => match e.holder with | .cmd k => ((cmd s k).map (·.fn)) == some f | _ => false)).length

/-- A request enters the choker order. -/
def chkEnter (nsid first last : Nat) (excl : Bool) (h : Holder) (s : State) : State :=
  match chkFree s with
  | none => s
  | some i => { s with deck := { s.deck with chk := s.deck.chk ++ [⟨i, nsid, first, last, excl, h, false⟩] } }

/-- The entry of a holder. -/
def chkOf (s : State) (h : Holder) : Option Choke := s.deck.chk.find? (fun e => e.holder == h)

/-- The entry of a holder is released. -/
def chkRelease (h : Holder) (s : State) : State :=
  { s with deck := { s.deck with chk := s.deck.chk.filter (fun e => e.holder != h) } }

/-- The first entry in order that waits and that no earlier entry conflicts with (R345). -/
def chkGrantable : List Choke → List Choke → Option Choke
  | _, [] => none
  | before, e :: t => if !e.granted && !before.any (conflict e) then some e else chkGrantable (before ++ [e]) t

/-- An entry is marked granted. -/
def chkGrant (i : Nat) (s : State) : State :=
  { s with deck := { s.deck with chk := s.deck.chk.map (fun e => if e.idx == i then { e with granted := true } else e) } }

/-! ### The protected write cache and the newest copy (R256–R259, R342) -/

/-- Host metadata bytes of a sector unit in namespace `nsid`'s LBA format (R114). -/
def metaLen (s : State) (nsid : Nat) : Nat := match nsr s nsid with
  | some r => lpu r * fmtM r.flbas
  | none => 64

/-- The POISON bits that the metadata in granule `g` sets: those of the logical blocks whose metadata arrived poisoned (R139), or all where the
granule is poisoned otherwise. -/
def mdMask (s : State) (g : Nat) : Nat := if (granule s g).poison then (Tab.get? s.lnd.mdPois g).getD (2 ^ 64 - 1) else 0

/-- The body of the `u`-th unit at `buf` and `md` as the landing holds it: bytes that the format does not use are 0 (R114); POISON is the mark of each
data granule (R138) and the bits that poisoned metadata sets (R139). -/
def stgBody (s : State) (nsid buf md u : Nat) : List Byte :=
  let n := if md = 0 then 0 else metaLen s nsid
  hwBytes s (buf + 4096 * u) 4096 ++ (hwBytes s (md + 64 * u) n ++ List.replicate (64 - n) 0) ++
    bytesOf 8 (landPoison s (buf + 4096 * u) 64 ||| (if n = 0 then 0 else mdMask s (md / 64 + u)))

/-- The protected cache's copy of a unit: the newest entry that holds it (R259). -/
def cacheCopy (s : State) (nsid gen u : Nat) : Option (List Byte) :=
  ((s.deck.cache.filter (fun e => e.nsid == nsid && e.gen == gen && e.first ≤ u && u < e.first + e.count)).getLast?).map
    (fun e => stgBody s nsid e.buf e.md (u - e.first))

/-- An in-place pass that has been dispatched: its image stands in the protected region (R248). Staging passes and salvage's are none. -/
def inPlace (p : Pass) : Bool := !p.hold && (match p.use with
  | .stripe _ => true
  | .cruise => true
  | _ => false)

/-- The copy of a unit in the image of an in-place pass over its stripe, of the namespace's present generation (R248, R259). -/
def imageCopy (s : State) (nsid u : Nat) : Option (List Byte) :=
  let r := nsEnt s nsid
  let n := dataOf r.red
  let zk := nsStripe s r (u / n)
  match ((Tab.vals s.spr.passes).filter (fun p => inPlace p && p.nsid == nsid && p.nsGen == r.gen && p.zone0 == zk.1 && p.k0 == zk.2)).getLast? with
  | none => none
  | some p => match (List.range 16).find? (fun f => roleOf s p.zone p.k f == u % n) with
    | none => none
    | some f => (Tab.get? p.mem f).map (·.body)

/-- The live committed staged entry of a unit, of highest SEQ (R259). -/
def stagedCopy (s : State) (nsid gen u : Nat) : Option StgLive :=
  (s.spr.live.filter (fun e => e.nsid == nsid && e.nsGen == gen && e.unit == u && e.committed)).foldl
    (fun b e => match b with | none => some e | some x => if x.seq < e.seq then some e else b) none

/-- The main-area copy of a unit is the deallocated-block fill (R342, R343). -/
def isFill (s : State) (nsid u : Nat) : Bool :=
  match nsr s nsid with
  | none => false
  | some r =>
    let st := u / dataOf (if r.profile = 1 then 2 else 1)
    r.fill ≤ st && !r.early.contains st

/-- A unit of fill: data 00h, host metadata FFh in the bytes that the namespace's format uses (R114, R342). -/
def fillBody (s : State) (nsid : Nat) : List Byte :=
  List.replicate 4096 0 ++ (List.replicate (metaLen s nsid) 0xFF ++ List.replicate (64 - metaLen s nsid) 0) ++ List.replicate 8 0

/-- A unit written from landing address `addr` stands on media: the cache entry whose copy it was no longer needs to hold it (R256, R257 step 4). -/
def cacheSafe (nsid gen u addr : Nat) (s : State) : State :=
  let c := s.deck.cache.map (fun e =>
    if e.nsid == nsid && e.gen == gen && e.first ≤ u && u < e.first + e.count && !e.safe.contains u && e.buf + 4096 * (u - e.first) == addr
    then { e with safe := u :: e.safe } else e)
  { s with deck := { s.deck with cache := c.filter (fun e => e.safe.length < e.count) } }

/-! ### Orphan records (R364) -/

/-- A write past its commit point is resolved without its completion. -/
def orphan (x : Cmd) (s : State) : State :=
  match nsr s (nsidOf x) with
  | none => s
  | some r =>
    let u := unitsOf r x
    let l := s.deck.orphans
    let s := count F.DECK_ERR_ORPHAN 0 s
    let s := if 256 ≤ l.length then put F.DECK_STAT_ORPH_OVF 0 1 s else s
    let l := (if 256 ≤ l.length then l.drop 1 else l) ++ [⟨nsidOf x, r.gen, u.1, u.2, x.fn⟩]
    asyncMask r.attached 7 2 { s with deck := { s.deck with orphans := l } }

/-- A write that completes successfully removes the records it covers. -/
def orphanClear (x : Cmd) (s : State) : State :=
  match nsr s (nsidOf x) with
  | none => s
  | some r =>
    let u := unitsOf r x
    { s with deck := { s.deck with orphans := s.deck.orphans.filter (fun o =>
      !(o.nsid == nsidOf x && o.gen == r.gen && u.1 ≤ o.first && o.last ≤ u.2)) } }

/-! ### Order within a queue (R349–R352) -/

/-- The live commands of a submission queue. -/
def ofSq (s : State) (f q : Nat) : List Cmd := (Tab.vals s.deck.cmds).filter (fun c => c.fn == f && c.sq == q && !detached c)

/-- A command still has its commit point, or for a Barrier its completion, before it. -/
def uncommitted (c : Cmd) : Bool := c.phase != .done && !c.commit

/-- The queue's order lets a command pass its commit point. -/
def mayCommit (s : State) (x : Cmd) : Bool :=
  let l := if detached x then (Tab.vals s.deck.cmds).filter (fun c => c.fn == x.fn && c.sq == x.sq && detached c) else ofSq s x.fn x.sq
  !(ordered x && l.any (fun c => c.ord < x.ord && ordered c && uncommitted c)) &&
  !(l.any (fun b => barrier b && b.ord < x.ord && b.phase != .done &&
      ((cdw b 10).testBit 0 || l.any (fun c => c.ord < b.ord && !barrier c && uncommitted c))))

/-- The queue is broken for a command: a FAILSTOP Barrier ended BARRIER_BROKEN and no later Barrier lies before it (R352). -/
def sqBroken (s : State) (x : Cmd) : Bool := if detached x then false else match sq s x.fn x.sq with
  | none => false
  | some q => match q.broken with
    | none => false
    | some b => b < x.ord && !(ofSq s x.fn x.sq).any (fun c => barrier c && b < c.ord && c.ord < x.ord && c.phase != .done)

/-! ### Resolution (R358–R364) -/

/-- The result word of a sector's read (R170). -/
def resultWord (status lstep reads iter flips en hd : Nat) (lad : Bool) (lstat : Nat) : Nat :=
  status * 2 ^ 56 + lstep * 2 ^ 52 + min 15 reads * 2 ^ 48 + (iter % 256) * 2 ^ 40 + min 65535 flips * 2 ^ 24 +
    en * 2 ^ 19 + hd * 2 ^ 13 + lad.toNat * 2 ^ 12 + lstat

/-- A retry read of context `c` stands with the scheduler, on a lane or in a slot. -/
def retryOut (s : State) (c : Nat) : Bool :=
  s.sched.items.any (fun e => e.2.retry == some c) || s.dec.slots.any (fun e => e.2.retry == some c)

/-- A withdrawn sector whose ladder waits for a retry read that will not come ends ABORT, and its context is freed (R169, R170). -/
def ctxAbort (c : Nat) (x : Ctx) (s : State) : State :=
  if x.abort && x.wait == .reread && !retryOut s c then
    freeCtx c (wr R.DEC_RES 0 0 (resultWord 6 x.lstep x.reads x.iters 0 x.eng (x.last.getD 0) true x.lstat) s)
  else s

/-- A plain re-read that is withdrawn: its sector, read before, ends ABORT (R154, R169, R170). -/
def rereadAbort (x : Item) (s : State) : State :=
  each x.mem (fun m s =>
    let key : ReadKey := ⟨x.req, psaWord m.1 x.zone x.track m.2⟩
    match x.retry, s.dec.past.find? (fun e => e.1 == key) with
    | none, some e => wr R.DEC_RES 0 0 (resultWord 6 0 0 e.2.iters 0 e.2.eng (e.2.heads.getLast?.getD 0) false e.2.lstat) s
    | _, _ => s) s

/-- The reads of an SPR operation are withdrawn: items not yet dispatched end, with their reservations, those on media are marked, and
ladders that waited for a retry read end (R169, R395, R398). -/
def withdraw (op : Nat) (s : State) : State :=
  let its' := (s.spr.reads.filter (fun e => match e.2.use with | .unit o _ => o == op | .stg o _ _ _ => o == op | _ => false)).map (·.1)
  let mine := fun (x : Item) => !x.write && (x.req == 2 * op || (x.req % 2 == 1 && its'.contains (x.req / 2)))
  let keep := s.sched.items.filter (fun e => !(mine e.2 && (match e.2.st with | .held => true | .ready => true | .decided _ => true | _ => false)))
  let its := keep.map (fun e => if mine e.2 then (e.1, { e.2 with aborted := true }) else e)
  let sl := s.dec.slots.map (fun e => if mine e.2.it then (e.1, { e.2 with it := { e.2.it with aborted := true } }) else e)
  let cs := s.dec.ctxs.map (fun e => if mine e.2.it then (e.1, { e.2 with abort := true }) else e)
  let s := if s.sched.items.any (fun e => e.2.solo && !keep.any (fun x => x.1 == e.1)) then put F.GOV_STAT_SOLO 0 0 s else s
  let s := each ((Tab.vals s.sched.items).filter (fun x => mine x && !keep.any (fun e => e.1 == x.id))) rereadAbort s
  let gone := fun (k : ReadKey) => k.req == 2 * op || (k.req % 2 == 1 && its'.contains (k.req / 2))
  govLimits <| each cs (fun e s => ctxAbort e.1 e.2 s) { s with
    sched := { s.sched with items := its, decided := s.sched.decided.filter (fun e => keep.any (fun x => x.1 == e.2)) }
    dec := { s.dec with slots := sl, ctxs := cs, missTab := s.dec.missTab.filter (fun e => !gone e.1), past := s.dec.past.filter (fun e => !gone e.1) }
    spr := { s.spr with ops := Tab.erase s.spr.ops op, reads := s.spr.reads.filter (fun e => !its'.contains e.1) } }

/-- Requests that `p` picks are forgotten; completions that arrive for them are dropped without an error (R314). -/
def flushReqs (p : HostReq → Bool) (s : State) : State :=
  { s with deck := { s.deck with
    reqs := s.deck.reqs.filter (fun e => !p e.2)
    flushed := each (s.deck.reqs.filter (fun e => p e.2 && !e.2.done)) (fun e t => Tab.put t e.1 (e.2.len - e.2.got.length)) s.deck.flushed } }

/-- Requests of a command are forgotten; their completions are dropped. -/
def dropReqs (k : Nat) (s : State) : State :=
  flushReqs (fun r => match r.kind with | .list j => j == k | .data j _ => j == k | _ => false) s

/-- The completion entry of a slot no longer waits. -/
def dropCpl (x : Cmd) (s : State) : State := match sq s x.fn x.sq with
  | none => s
  | some q => match cq s x.fn q.cq with
    | none => s
    | some c => setCq x.fn q.cq { c with wait := c.wait.filter (fun e => e.slot != some x.slot) } s

/-- A command is resolved without a completion (R358): its reads are withdrawn, its choker is released, and a write past its commit
point leaves an orphan record. A Format or deletion in progress runs to its end. -/
def resolve (x : Cmd) (s : State) : State :=
  if isAdmin x && (opc x == 0x80 || opc x == 0x0D) && x.phase == .granted then setCmd { x with det := true } s
  else
  let s := count F.DECK_ERR_ABORT 0 s
  let s := match x.op with | some o => withdraw o s | none => s
  let s := chkRelease (.cmd x.slot) (dropReqs x.slot (dropCpl x s))
  let s := if x.commit && writeClass x then orphan x s else s
  dropCmd x.slot s

/-- A command is resolved with a status posted; a write past its commit point completes normally (R362, R363). -/
def resolveWith (st : Nat) (x : Cmd) (s : State) : State :=
  if x.phase == .done || (x.commit && writeClass x) then s
  else
    let s := count F.DECK_ERR_ABORT 0 s
    let s := match x.op with | some o => withdraw o s | none => s
    cmdEnd { x with ck := none } st 0 (chkRelease (.cmd x.slot) (dropReqs x.slot s))

/-- The open setpoint transaction is rolled back: its staged items go (R512). -/
def txnIdle (s : State) : State := put F.CFG_TXN_STAT_STATE 0 0 { s with cfg := { s.cfg with stage := [] } }

/-- A reset of PF0 rolls back a transaction that PF0 has begun and that is OPEN (R358, R516). -/
def txnDiscard (s : State) : State :=
  if fld F.CFG_TXN_STAT_STATE 0 s = 1 && !flag F.CFG_TXN_STAT_OWNER 0 s then txnIdle s else s

/-- The safe state rolls back an OPEN transaction, and ends a commit whose record is stored (R516). -/
def txnSafe (s : State) : State :=
  if fld F.CFG_TXN_STAT_STATE 0 s = 1 then txnIdle s
  else if fld F.CFG_TXN_STAT_STATE 0 s = 2 && s.cfg.stored then
    put F.CFG_TXN_CTL_GO 0 0 (txnIdle { s with cfg := { s.cfg with arms := [], blob := false, stored := false, num := none, merged := [] } })
  else s

/-- Every command of function `f` is resolved (R358, R359). -/
def resolveFn (f : Nat) (s : State) : State :=
  let s := each (Tab.vals s.deck.cmds) (fun x s => if x.fn == f && !detached x then resolve x s else s) s
  flushReqs (fun r => r.fn == f) s

/-- The queues of a function are deleted; its waiting completions are lost with them. -/
def dropQueues (f : Nat) (s : State) : State :=
  setFn f { fnr s f with sqs := [], cqs := [], unsig := [], aer := [], events := [], raised := [], rr := 0, burst := 0 } s

/-- The controller of a function becomes fatal: it reports CFS, its admission stops, and its commands are resolved (R360, R473). -/
def fatal (f : Nat) (s : State) : State :=
  let s := resolveFn f (put F.CSTS_CFS f 1 (putFBit F.HIF_FATAL_CFS 0 f true s))
  setFn f { fnr s f with aer := [] } s

/-- The controller of a function is ready to take commands (R321, R360, R475). -/
def admitting (s : State) (f : Nat) : Bool :=
  flag F.CSTS_RDY f s && !flag F.CSTS_CFS f s && fld F.CSTS_SHST f s == 0 && !safe s && fnOn s f

end Sys2Proof.Machine
end

