-- ==== Sys2Proof/Machine/OpsYrd.lean ====
section
/-! DEFINITION. The end of a yarder descriptor and what a function reset does to the yarder (R426, R432–R434). -/

namespace Sys2Proof.Machine

open Sys2Proof

def ych (s : State) (n : Nat) : YCh := Tab.get s.ychs {} n
def setYch (n : Nat) (x : YCh) (s : State) : State := { s with ychs := Tab.set s.ychs {} n x }

/-- Descriptors of ring `n` (R426). -/
def yrdSize (s : State) (n : Nat) : Nat := 2 ^ (min 8 (fld F.YRD_CH_CTL_SIZE n s) + 4)
/-- Address of descriptor `i` of ring `n`. -/
def yrdAt (s : State) (n i : Nat) : Nat := fld F.YRD_CH_BASE_ADDR n s * 64 + 64 * i

/-- A channel halts (R433). -/
def yrdHalt (n : Nat) (s : State) : State :=
  raiseEvent (96 + n) (putFBit F.YRD_HALT_HALTED 0 n true (put F.YRD_CH_STAT_HALTED n 1 s))

/-- The host end of a descriptor names function `f`. -/
def yrdNames (d : YDesc) (f : Nat) : Bool := (d.srcMode.testBit 4 || d.dstMode.testBit 4) && d.fn == f

/-- Bytes of a descriptor's host source that are still to come. -/
def yrdReading (d : YDesc) : Bool := d.srcMode.testBit 4 && d.fail.isNone && decide (d.done + d.data.length < d.len)

/-- The descriptor of a channel that the read engine works on: the one in progress while bytes of its source are still to come, else the next. -/
def yrdPart (x : YCh) : Option YDesc := if x.cur.any yrdReading then x.cur else x.ahead

def setPart (d : YDesc) (x : YCh) : YCh := if x.cur.any yrdReading then { x with cur := some d } else { x with ahead := some d }

/-- Largest read request of function `f` at address `a`: the programmed size, cut at 4 KiB boundaries (R285, R429). -/
def readMax (s : State) (f a : Nat) : Nat := min (min 4096 (128 * 2 ^ fld F.CFG_MRRS f s)) (4096 - a % 4096)

/-- A descriptor with a host source asks for its next bytes, one request at a time, while the chunks that it holds have room for them; in a stall it
holds (R428, R435). -/
def yrdAsk (n : Nat) (s : State) : State :=
  match yrdPart (ych s n) with
  | none => s
  | some d =>
    let room := 4096 * d.chunks - d.data.length
    if !yrdReading d || d.len ≤ d.asked || d.asked ≠ d.done + d.data.length || room = 0 then s
    else if !canIssue s d.fn then put F.YRD_CH_STAT_STALL n 1 s
    else if !tagFree s d.fn then tagWait d.fn (.yrd n) s
    else
      let a := d.src + d.asked
      let k := min (min (d.len - d.asked) room) (readMax s d.fn a)
      let s := put F.YRD_CH_STAT_STALL n 0 s
      request d.fn (.yrd n) (.yrd n) a k (setYch n (setPart { d with asked := d.asked + k } (ych s n)) s)

/-- Staging chunks return to the pool (R428). -/
def chunksBack (n k : Nat) (s : State) : State :=
  put F.YRD_STAT_CHUNK_FREE 0 (min 64 (fld F.YRD_STAT_CHUNK_FREE 0 s + k)) (put F.YRD_CH_STAT_HELD n (fld F.YRD_CH_STAT_HELD n s - k) s)

/-- The descriptor in progress on channel `n` ends: STATUS, DONE and TIME are written and OWN cleared in one write, and the event
follows (R426). The one that the read engine has started is then in progress. -/
def yrdClose (n status : Nat) (s : State) : State :=
  match (ych s n).cur with
  | none => s
  | some d =>
    let b := sramRead s d.addr 64
    let nb := [byte (putBit (le b 0 1) 0 false), byte status] ++ (b.drop 2).take 30 ++ bytesOf 4 d.done ++ (b.drop 36).take 12 ++
      bytesOf 8 s.time ++ b.drop 56
    let x := ych s n
    let s := sramWrite d.addr nb (setYch n { x with cur := x.ahead, ahead := none } s)
    let s := chunksBack n d.chunks (put F.YRD_CH_STAT_BUSY n x.ahead.isSome.toNat (put F.YRD_CH_STAT_STALL n 0 s))
    yrdAsk n (if d.evt then raiseEvent (96 + n) s else s)

/-- A halted channel takes no further descriptor: one that the read engine has started is put back (R433). -/
def yrdPutBack (n : Nat) (s : State) : State := match (ych s n).cur with
  | none => s
  | some d =>
    let s := flushReqs (fun r => match r.kind with | .yrd m => m == n | _ => false) (setYch n { ych s n with cur := none } s)
    chunksBack n d.chunks (put F.YRD_CH_STAT_STALL n 0 (put F.YRD_CH_STAT_BUSY n 0 (put F.YRD_CH_STAT_NEXT n d.idx s)))

/-- The same, after which an error halts the channel when HALT_ERR is 1 (R433). -/
def yrdEnd (n status : Nat) (s : State) : State :=
  if (ych s n).cur.isNone then s
  else
    let s := yrdClose n status s
    if status % 128 ≠ 0 && flag F.YRD_CH_CTL_HALT_ERR n s then yrdHalt n (yrdPutBack n s) else s

/-- Descriptors of channel `n` that doorbells have made available: those with OWN from NEXT on (R426, R434). -/
def yrdAvail (s : State) (n : Nat) : Nat :=
  if !(ych s n).look then 0
  else
    let sz := yrdSize s n
    ((List.range sz).find? (fun i => !(le (sramRead s (yrdAt s n ((fld F.YRD_CH_STAT_NEXT n s + i) % sz)) 1) 0 1).testBit 0)).getD sz

/-- The yarder at the reset point of function `f`: descriptors in progress for it end ABORT, and so will those already made
available (R434). -/
def yrdResetFn (f : Nat) (s : State) : State :=
  upTo 32 (fun n s =>
    let hit := fun (s : State) => match (ych s n).cur with
      | some d => if yrdNames d f then yrdEnd n 5 s else s
      | none => s
    let x := ych s n
    let s := setYch n { x with ahead := x.ahead.map (fun d => if yrdNames d f then { d with fail := some 5 } else d) } s
    let s := hit (hit s)
    let x := ych s n
    setYch n { x with aborts := (f, yrdAvail s n) :: x.aborts.filter (fun e => e.1 != f) } s) s

/-- Every descriptor ends with ABORT (R474 step 3): those in progress, and those made available as they are reached. -/
def yrdAbortAll (s : State) : State :=
  upTo 32 (fun n s =>
    let s := yrdEnd n 5 (yrdEnd n 5 s)
    upTo (yrdAvail s n) (fun _ s =>
    let i := fld F.YRD_CH_STAT_NEXT n s
    let a := yrdAt s n i
    let b := sramRead s a 64
    if le b 0 1 % 2 = 0 then s
    else
      let s := put F.YRD_CH_STAT_NEXT n ((i + 1) % yrdSize s n) s
      yrdEnd n 5 (setYch n { ych s n with cur := some { addr := a, idx := i, evt := (le b 0 1).testBit 1, srcMode := 0, dstMode := 0, fn := 0, len := 0, src := 0, dst := 0, data := [], asked := 0, fail := none, chunks := 0 } } s)) s) s

/-- Host data of a channel's source has arrived, poisoned or not (R431). -/
def yrdData (n : Nat) (bs : List Byte) (ep : Bool) (s : State) : State :=
  match yrdPart (ych s n) with
  | none => s
  | some d => yrdAsk n (setYch n (setPart { d with data := d.data ++ bs.map (fun b => (b, ep)) } (ych s n)) s)

/-- A host read of a channel's source has failed (R432). -/
def yrdFail (n : Nat) (s : State) : State :=
  match yrdPart (ych s n) with
  | none => s
  | some d => setYch n (setPart { d with fail := some 4 } (ych s n)) s

end Sys2Proof.Machine
end

