-- ==== Sys2Proof/Machine/OpsSafe.lean ====
section
/-! DEFINITION. What the safe states share: the spindle off, engines fenced, RETRACT_N and its causes, clock loss, the start of a dump, and
the cores held in reset (R173, R218, R234, R474, R522, R525, R535, R538–R545). -/

namespace Sys2Proof.Machine

open Sys2Proof

/-! ### The spindle (R211–R235) -/

/-- The spindle state (R218): 0 OFF, 1 STOPPED, 2 STICTION, 3 ALIGN, 4 RAMP, 5 RETRY, 6 CATCH, 7 RUN, 8 BRAKE, 9 GEN,
10 COAST, 11 FAILED. -/
def spmSt (s : State) : Nat := fld F.SPM_STAT_STATE 0 s

/-- `s` with the spindle record changed. -/
def setSpm (x : Spm) (s : State) : State := { s with spm := x }

/-- POLE_PAIRS; 0 acts as 1. -/
def polePairs (s : State) : Nat := fld1 F.SPM_MOTOR_POLE_PAIRS 0 s

/-- Write items leave the ready set while AT_SPEED is 0, and a decided one returns (R378, R398). -/
def holdWrites (s : State) : State :=
  let s := undecideWrites s
  each (Tab.vals s.sched.items) (fun x s =>
    if x.write && x.st == .ready then setItem { x with st := .held } s else s) s

/-- Held write items enter the ready set when AT_SPEED rises (R378). -/
def releaseWrites (s : State) : State :=
  each (Tab.vals s.sched.items) (fun x s =>
    if x.write && x.st == .held then itemReturns { x with st := .ready } s else s) s

/-- AT_SPEED clears (R230). -/
def atSpeedFall (s : State) : State :=
  let s := { s with spm := { s.spm with revs := 0 } }
  if flag F.SPM_STAT_AT_SPEED 0 s then holdWrites (put F.SPM_STAT_AT_SPEED 0 0 s) else s

/-- All six gates are off (R211); shift mode ends, and the current loop starts from 0 again (the last is DESIGN CHOICE, log entry 6). -/
def gatesOff (s : State) : State :=
  put F.SPM_STAT_SHIFT 0 0 { s with spm := { s.spm with
    gates := 0, kind := .off, phases := [], calibrating := false, dInt := 0, qInt := 0, vd := 0, vq := 0 } }

/-- A spindle state is entered; AT_SPEED does not outlast RUN (R230), and OFS_OK clears and PPIDX is undefined on entry to COAST,
STOPPED and OFF (R233). -/
def spmEnter (st : Nat) (s : State) : State :=
  let s := put F.SPM_STAT_STATE 0 st { s with spm := { s.spm with cyc := 0, olAcc := 0, negFrom := none, wrapDue := false, openMask := 7, openSeen := false } }
  let s := if st = 7 then s else atSpeedFall s
  if st = 0 ∨ st = 1 ∨ st = 10 then
    let r := takeFree (put F.SPM_ANGLE_OFS_OK 0 0 s)
    put F.SPM_ANGLE_PPIDX 0 (r.1 % 16) r.2
  else s

/-- COAST: gates off (R234). `trip`: entered from RUN by overcurrent or loss of sync. -/
def spmCoast (trip : Bool) (s : State) : State :=
  let s := spmEnter 10 (gatesOff s)
  { s with spm := { s.spm with tripCoast := trip, lostSince := false, locked := false, genPend := false, overspeed := false } }

/-- A clock source is lost: any state but OFF, COAST and FAILED coasts, and one that coasts stays there until START (R218, R234, R522). -/
def spmClockLost (s : State) : State :=
  let st := spmSt s
  let s := if st = 0 ∨ st = 10 ∨ st = 11 then s
    else
      let t := spmCoast false s
      if st = 7 then raiseEvent 82 t else t
  { s with spm := { s.spm with lostSince := true, genPend := false } }

/-- The power-loss signal (R218, R235). -/
def spmPowerLoss (s : State) : State :=
  let st := spmSt s
  let s := { s with spm := { s.spm with lostSince := true } }
  if st = 7 ∨ st = 8 then { s with spm := { s.spm with genPend := true } }
  else if st = 6 ∨ st = 10 then
    if fld F.SPM_GEN_GEN_MIN 0 s * 100 ≤ fld F.SPM_MEAS_SPEED 0 s then { s with spm := { s.spm with genPend := true } } else s
  else if 2 ≤ st ∧ st ≤ 5 then
    let t := spmCoast false s
    { t with spm := { t.spm with lostSince := true } }
  else s

/-! ### Engines (R169, R173) -/

/-- Engine `e` is fenced: 0–15 fast, 16–17 recovery. -/
def engFenced (s : State) (e : Nat) : Bool :=
  if e < 16 then bit F.DEC_FENCE_FAST 0 e s else bit F.DEC_FENCE_DR 0 (e - 16) s

/-- A fenced engine's work goes back: its codewords to the ready slots, its job to the waiting ones (R169, R173). -/
def engRestart (e : Nat) (s : State) : State :=
  let x := eng s e
  let s := each x.slots (fun k s => match slot s k with
    | some sl => setSlot k { sl with engine := none } s
    | none => s) s
  setEng e { x with slots := [], job := none, awake := false, waking := false } s

/-- Engines newly fenced lose their work (R169). -/
def fenceChange (old s : State) : State :=
  upTo 18 (fun e s => if !engFenced old e && engFenced s e then engRestart e s else s) s

/-! ### RETRACT_N (R525) -/

/-- A cause of RETRACT_N: 0 reset, 1 clock, 2 power loss, 3 safe state, 4 firmware. A fall of RETRACT_N retracts the arms, drops the
permits and cuts the writes (R63, R66, R188). -/
def retractCause (k : Nat) (s : State) : State :=
  let was := retractLow s
  let s := put F.CPR_RETRACT_LOW 0 1 (putFBit F.CPR_RETRACT_CAUSE 0 k true s)
  if was then s else retractAll (upTo 4 permitFall s)

/-- The asynchronous response to the loss of clock source `i` (R522): write gates close, WKILLn_N and RETRACT_N fall, the spindle coasts and
the link is frozen. -/
def clkSafe (i : Nat) (s : State) : State :=
  let was := bit F.CPR_CLKMON_LOST 0 i s
  let s := putFBit F.CPR_CLKMON_SEEN 0 i true (putFBit F.CPR_CLKMON_LOST 0 i true s)
  let s := retractCause 1 (upTo 4 permitFall s)
  let s := spmClockLost s
  let s := if was then s else raiseEvent 142 s
  { s with cpr := { s.cpr with frozen := true } }

/-! ### Cores (R535, R536) -/

/-- A warm firmware reset starts: dispatch pauses and CP0–CP3 are held (R535 step 1). -/
def warmReset (s : State) : State :=
  let s := count F.CPR_RST_WARM_CNT 0 (put F.DECK_STAT_PAUSED 0 1 (put F.DECK_CTL_PAUSE 0 1 s))
  { s with cpr := { s.cpr with cpHeld := true, warm := true } }

/-- The Lyolo core is held and reloads (R536). -/
def lyoloReset (s : State) : State := { s with cpr := { s.cpr with lyHeld := true } }

/-! ### The merge buffer (R417, R418) -/

/-- One entry is evicted: its bytes are laid over the stored granule; over an uncorrectable one the result is poisoned and counted. -/
def mrgEvict (e : MrgEnt) (s : State) : State :=
  let bad := s.lnd.bad.contains e.g && e.bytes.any (·.isNone)
  let x := overlay e (stored s e.g)
  if e.bytes.any (·.isNone) && (Tab.get? s.land e.g).isNone && !bad then
    { (breakResv (64 * e.g) 64 s) with
      landEra := s.landEra + 1
      lnd := { (breakResv (64 * e.g) 64 s).lnd with mrg := s.lnd.mrg.filter (fun x => x.g != e.g) } }
  else
  let s := putGranule e.g (if e.bytes.all (·.isSome) then { x with poison := e.poison } else x) s
  if bad then count F.LND_ECC_CNT_RMW_UE 0 s else s

/-- The merge buffer drains. -/
def mrgDrain (s : State) : State := each s.lnd.mrg mrgEvict s

/-! ### The dump (R539–R545) -/

/-- SIZE of the protected region, MiB, and its base address. -/
def protSize (s : State) : Nat := min 128 (fld F.LND_PROT_SIZE 0 s)
def protBase (s : State) : Nat := fld F.LND_PROT_BASE 0 s * 2 ^ 20

/-- Pages of a dump by part: data, poison map, CRC table (R539); the header is one more. -/
def dumpData (s : State) : Nat := (protSize s - 1) * 64
def dumpMap (s : State) : Nat := ceilDiv (protSize s - 1) 8
def dumpCrc (s : State) : Nat := ceilDiv (dumpData s) 4096
def dumpPages (s : State) : Nat := dumpData s + dumpMap s + dumpCrc s + 1

/-- LUNs interleaved and pages in a block. -/
def dumpWays (s : State) : Nat := max 1 (min 8 (fld F.CPR_DUMP_CTL_WAYS 0 s))
def dumpPpb (s : State) : Nat := fld1 F.CPR_DUMP_CTL_PPB 0 s

/-- The dump starts when the landing is READY and the dump is armed; else the protected contents are lost (R538, R545). A running dump goes
on (R546). -/
def dumpStart (cause : Nat) (s : State) : State :=
  if fld F.CPR_DUMP_CTL_STATE 0 s = 2 then s
  else if fld F.CPR_DUMP_CTL_STATE 0 s = 3 then
    if cause = 0 then put F.CPR_DUMP_CTL_STATE 0 0 { s with cpr := { s.cpr with dump := none } } else s
  else if fld F.LND_STAT_STATE 0 s = 2 && fld F.CPR_DUMP_CTL_STATE 0 s = 1 then
    let s := put F.CPR_DUMP_STAT_PAGES 0 0 (put F.CPR_DUMP_STAT_REMAPS 0 0 (put F.CPR_DUMP_CTL_STATE 0 2 (mrgDrain s)))
    { s with cpr := { s.cpr with dump := some { cause := cause, ownTime := rd R.BLZ_TIME 0 0 s } } }
  else if cause = 1 && s.cpr.stage = 3 && !s.cpr.lyHeld then blzEnter 1 (Config.openVal 545 [0]).toNat (Config.openVal 545 [1]).toNat s
  else { s with cpr := { s.cpr with dumpLost := true } }

/-! ### The safe state (R474, R475, R516) -/

/-- Entry into FC4 after its fault is recorded: gates and spindle off, retract, cores held, every controller fatal, the yarder aborted, and
the dump started. `ly`: the management domain is held too (R476). -/
def safeState (ly : Bool) (s : State) : State :=
  if flag F.FLT_STAT_SAFE 0 s then s
  else
    let s := retractCause 3 (upTo 4 permitFall (put F.FLT_STAT_SAFE 0 1 s))
    let st := spmSt s
    let s := if st = 0 ∨ st = 10 ∨ st = 11 then gatesOff s
      else if st = 7 then raiseEvent 82 (spmCoast false s) else spmCoast false s
    let s := { s with cpr := { s.cpr with cpHeld := true, warm := false, lyHeld := s.cpr.lyHeld || ly } }
    let s := txnSafe (upTo 64 fatal s)
    dumpStart 1 (yrdAbortAll (aerUnc 0 22 false [] s))

end Sys2Proof.Machine
end

