-- ==== Sys2Proof/Machine/OpsFault.lean ====
section
/-! DEFINITION. The fault collector: a fault is classed, captured and acted on (R459–R478). -/

namespace Sys2Proof.Machine

open Sys2Proof

/-- A word of a capture: 0 FIRST_c, 1 FNCAP_f, 2 RING_k. -/
def capReg (which : Nat) : Field := if which = 0 then F.FLT_FIRST_CAPTURE else if which = 1 then F.FLT_FNCAP_CAPTURE else F.FLT_RING_CAPTURE

/-- The four words of a capture written. -/
def putCap (which i : Nat) (ws : List Nat) (s : State) : State :=
  each ws.zipIdx (fun e s => put2 (capReg which) i e.2 e.1 s) s

/-- A capture holds a fault. -/
def capValid (s : State) (which i : Nat) : Bool := (fld2 (capReg which) i 0 s).testBit 63

/-- Every capture still held. -/
def capsHeld (s : State) : List (Nat × Nat) :=
  ((List.range 5).map (fun i => (0, i)) ++ (List.range 64).map (fun i => (1, i)) ++ (List.range 64).map (fun i => (2, i))).filter
    (fun e => capValid s e.1 e.2)

/-- The base class of a checker (R460, R477). -/
def baseClass (s : State) (chk : Nat) (c : ChkInfo) : Nat :=
  if chk ≤ 3 then (if flag F.FLT_CTL_SELF 0 s then 2 else 4) else c.base

/-- Class `c` is pending in the fault's scope, by the state at the start of the cycle: PENDING and FLT_FC3_PEND then (R462, R463). -/
def isPending (pend fc3 : Nat) (fn : Option Nat) (c : Nat) : Bool :=
  if c = 3 then (match fn with | some f => fc3.testBit f | none => false) else pend.testBit c

/-- The class a fault is recorded in, and whether it is escalated (R463). -/
def recClass (s : State) (chk : Nat) (c : ChkInfo) (fn : Option Nat) (pend fc3 : Nat) : Nat × Bool :=
  let b := baseClass s chk c
  if chk ≤ 3 && b = 4 then (4, false)
  else if flag F.FLT_CHK_ESC chk s && isPending pend fc3 fn b && b ≤ 3 then
    (if b ≤ 1 then b + 1 else if b = 2 then (if fn.isSome then 3 else 4) else if flag F.FLT_CTL_FC3_ESC 0 s then 4 else 3, true)
  else (b, false)

/-- The FC2 action of a checker (R460). -/
def fc2Action (chk : Nat) (c : ChkInfo) (s : State) : State := match c.action with
  | .none => s
  | .holdWr => s
  | .clk => clkSafe (chk - 8) s
  | .head h => fenceHead h s
  | .arm a => fenceArm a s
  | .eng e => fenceChange s (if e < 16 then putFBit F.DEC_FENCE_FAST 0 e true s else putFBit F.DEC_FENCE_DR 0 (e - 16) true s)
  | .resetCp => warmReset s
  | .resetLy => lyoloReset s

/-- A fault is recorded: captured, counted and raised, without the effect of its class (R463–R468). -/
def recordFault (rec : Nat) (esc inj : Bool) (chk : Nat) (c : ChkInfo) (fn : Option Nat) (master access addr detail : Nat) (s : State) : State :=
  let seq := fld F.FLT_FSEQ_FSEQ 0 s
  let w0 := chk + rec * 256 + baseClass s chk c * 2048 + esc.toNat * 16384 + (fn.getD 0) * 65536 + fn.isSome.toNat * 2 ^ 22 +
    inj.toNat * 2 ^ 23 + master * 2 ^ 24 + access * 2 ^ 32 + 2 ^ 63
  let ws := [w0, addr, s.time, detail + seq * 2 ^ 32]
  let s := if c.cond then put F.FLT_CHK_LIVE chk 1 s else s
  let s := count F.FLT_CHK_COUNT chk (put F.FLT_CHK_LATCHED chk 1 s)
  let s := if chk ≤ 3 then put F.FLT_STAT_SELF_ERR 0 1 (put F.FLT_SELF_STAT_VALID 0 1 (putFBit F.FLT_SELF_STAT_CHK 0 chk true s)) else s
  let s := putFBit F.FLT_STAT_ACTIVE 0 rec true (putFBit F.FLT_STAT_PENDING 0 rec true s)
  let s := if capValid s 0 rec then s else putCap 0 rec ws s
  let s := match fn with
    | some f => if rec = 3 && !capValid s 1 f then putCap 1 f ws s else s
    | none => s
  let k := fld F.FLT_RING_PTR_WR 0 s
  let s := if capValid s 2 k then put F.FLT_RING_PTR_WRAPPED 0 1 s else s
  let s := put F.FLT_RING_PTR_WR 0 ((k + 1) % 64) (putCap 2 k ws s)
  let s := put F.FLT_FSEQ_FSEQ 0 ((seq + 1) % 2 ^ 32) s
  let s := { s with flt := { s.flt with
    cls := Tab.put s.flt.cls chk (rec + 1), read := Tab.erase s.flt.read chk, seq := Tab.put s.flt.seq chk (seq + 1)
    change := (s.flt.change + 1) % 2 ^ 32 } }
  let s := putFBit F.EVT_PEND_PEND ((256 + chk) / 32) (chk % 32) true s
  evBlaze (256 + chk) rec (w0 % 2 ^ 24 + (addr % 2 ^ 40) * 2 ^ 24) s

/-- What a recording in class FC2 does (R461, R471): the checker's action, the event to the host, and SPR's FLAGS. -/
def fc2Effect (chk : Nat) (c : ChkInfo) (s : State) : State := degradedUpdate (asyncAll 0 3 (fc2Action chk c s))

/-- A partial eviction over an uncorrectable granule is reported by checker 59 (R418). Its class is FC1, or FC2 when escalated. -/
def reportRmw (g : Nat) (s : State) : State :=
  if !flag F.FLT_CHK_EN 59 s then s
  else
    let c : ChkInfo := ⟨false, 1, .none⟩
    let (rec, esc) := recClass s 59 c none (fld F.FLT_STAT_PENDING 0 s) (fld F.FLT_FC3_PEND_PEND 0 s)
    let s := recordFault rec esc false 59 c none 0 2 (64 * g) 0 s
    if rec = 2 then fc2Effect 59 c s else s

/-- Granules whose merge buffer entries are partial over an uncorrectable granule. -/
def rmwBad (s : State) : List Nat := (s.lnd.mrg.filter (fun e => s.lnd.bad.contains e.g && e.bytes.any (·.isNone))).map (·.g)

/-- The partial evictions over uncorrectable granules among those made between two states are reported. -/
def reportEvicted (old s : State) : State := each ((rmwBad old).filter (fun g => !s.lnd.mrg.any (fun e => e.g == g))) reportRmw s

/-- What a recording in a class does (R461, R471, R473, R474). -/
def classEffect (chk : Nat) (c : ChkInfo) (rec : Nat) (fn : Option Nat) (s : State) : State :=
  if rec = 2 then fc2Effect chk c s
  else if rec = 3 then match fn with
    | some f => fatal f (putFBit F.FLT_FC3_PEND_PEND 0 f true (putFBit F.FLT_FC3_ACTIVE 0 f true s))
    | none => s
  else if rec = 4 then reportEvicted s (safeState (chk = 216 || chk = 217) s)
  else s

/-- What a self fault has damaged with FLT_CTL.SELF = 1: bit 0 checker configuration, 1 class and pending state, 2 capture storage, 3 injection logic.
The handling of a later fault that passes through a damaged part is undefined (R477). -/
def selfDamage (s : State) : Nat := if flag F.FLT_CTL_SELF 0 s then fld F.FLT_SELF_STAT_CHK 0 s else 0

/-- A free choice for the handling of the next fault by damaged part `k` (R477). -/
def selfOpen (k chk : Nat) (s : State) : Nat := (Config.openVal 477 [k, chk, fld F.FLT_FSEQ_FSEQ 0 s]).toNat

/-- The class a fault is recorded in: open while the class state is damaged (R463, R477). -/
def recIn (s : State) (chk : Nat) (c : ChkInfo) (fn : Option Nat) (pend fc3 : Nat) : Nat × Bool :=
  if (selfDamage s).testBit 1 then (selfOpen 1 chk s % 5, (selfOpen 4 chk s).testBit 0) else recClass s chk c fn pend fc3

/-- The capture written last holds open contents while the capture storage is damaged (R477). -/
def capDamage (d rec chk : Nat) (s : State) : State :=
  if !d.testBit 2 then s
  else
    let ws := (List.range 4).map (fun k => selfOpen (8 + k) chk s % 2 ^ 64)
    putCap 2 ((fld F.FLT_RING_PTR_WR 0 s + 63) % 64) ws (putCap 0 rec ws s)

/-- Checker `chk` stands in a domain that is off: it reports nothing (R459, R527). -/
def chkOff (s : State) (chk : Nat) : Bool :=
  if chk ≤ 13 then false
  else if s.cpr.stage = 0 then true
  else if 32 ≤ chk && chk ≤ 41 then s.cpr.hostOff
  else if 64 ≤ chk && chk ≤ 127 then !armUp s ((chk - 64) / 16)
  else if 128 ≤ chk && chk ≤ 147 then !armUp s (chk % 4)
  else if chk ≤ 25 || chk = 208 || chk = 210 || (216 ≤ chk && chk ≤ 218) then false
  else flag F.CPR_PD_STAT_FAB_RET 0 s

/-- A checker reports; LIVE follows the condition of one that is not enabled too. The fault is classed against the pending state given,
captured, counted, raised and acted on (R459–R468). -/
def reportAt (pend fc3 : Nat) (inj : Bool) (chk : Nat) (fn : Option Nat) (master access addr detail : Nat) (s : State) : State :=
  match chkInfo chk with
  | none => s
  | some c =>
    if chkOff s chk || (c.cond && flag F.FLT_CHK_LIVE chk s) then s
    else if !flag F.FLT_CHK_EN chk s && 32 ≤ chk then (if c.cond then put F.FLT_CHK_LIVE chk 1 s else s)
    else if (selfDamage s).testBit 0 && (selfOpen 0 chk s).testBit 0 then s
    else
      let d := selfDamage s
      let r := recIn s chk c fn pend fc3
      classEffect chk c r.1 fn (capDamage d r.1 chk (recordFault r.1 r.2 inj chk c fn master access addr detail s))

/-- A report alone in its cycle. -/
def report (chk : Nat) (fn : Option Nat) (master access addr detail : Nat) (s : State) : State :=
  reportAt (fld F.FLT_STAT_PENDING 0 s) (fld F.FLT_FC3_PEND_PEND 0 s) false chk fn master access addr detail s

/-- A condition checker's condition falls: LIVE clears, and a fault whose FLT_CHK_n has not been read since it latched is transient, in its
checker's register and in the captures still held (R469). -/
def condFalls (chk : Nat) (s : State) : State :=
  if !flag F.FLT_CHK_LIVE chk s then s
  else
    let s := put F.FLT_CHK_LIVE chk 0 s
    if flag F.FLT_CHK_LATCHED chk s && Tab.get s.flt.read 0 chk = 0 then
      let seq := Tab.get s.flt.seq 0 chk
      each (capsHeld s) (fun e s =>
        let w := fld2 (capReg e.1) e.2 0 s
        if w % 256 = chk && fld2 (capReg e.1) e.2 3 s / 2 ^ 32 + 1 = seq then put2 (capReg e.1) e.2 0 (putBit w 15 true) s else s)
        (put F.FLT_CHK_TRANSIENT chk 1 s)
    else s

end Sys2Proof.Machine
end

