-- ==== Sys2Proof/Machine/OpsLnd.lean ====
section
/-! DEFINITION. Landing accesses as the LND block serves them: the address map, ECC outcomes, the merge buffer and the L1-D caches of the
control cores (R405–R425, R485). -/

namespace Sys2Proof.Machine

open Sys2Proof

/-! ### Addresses (R10, R405, R406, R485) -/

/-- The contents of `n` granules from `g` become undefined. -/
def rowsLost (g n : Nat) (s : State) : State :=
  { s with
    landEra := s.landEra + 1
    land := Tab.clear s.land g (g + n)
    lnd := { s.lnd with mdPois := Tab.clear s.lnd.mdPois g (g + n), bad := s.lnd.bad.filter (fun x => x < g || g + n ≤ x), mrg := s.lnd.mrg.filter (fun e => e.g < g || g + n ≤ e.g) } }

/-- The internal address that Lyolo address `a` reaches outside its own SRAM and ROM (R485); none for a bus error. -/
def lyoAddr (s : State) (a : Nat) : Option Nat :=
  if 0x20000000 ≤ a && a < 0x80000000 then some a
  else if 0x80000000 ≤ a && a < 0x100000000 then some (landBase + fld F.MGT_LWIN_BASE 0 s * 2 ^ 31 + (a - 0x80000000))
  else none

/-- The Lyolo core's own boot ROM and SRAM (R485). -/
def lyoOwn (a : Nat) : Bool := a < 0x10000 || (0x10000000 ≤ a && a < 0x10080000)

/-- The MASTER code of a master (R467). -/
def masterCode (m : Master) : Nat := match m with
  | .cp c => 1 + c.val
  | .lyolo => 5
  | .yarder => 6
  | .host _ => 0x10

/-- The function that MASTER 0x10 names. -/
def masterFn (m : Master) : Option Nat := match m with
  | .host f => some f.val
  | _ => none

/-- The bus error of R10, by access type of R467. -/
def busError (m access a : Nat) (s : State) : State := report 233 none m access a 0 s

/-! ### Reads (R411) -/

/-- How granule `g` reads: one that is uncorrectable stays so until it is written. -/
def eccOf (s : State) (g : Nat) (e : Ecc) : Ecc := if s.lnd.bad.contains g then .bad else e

/-- An uncorrectable granule is recorded (R411): counter, address, event, and checker 57, or 58 for a core load. -/
def recordUe (m g : Nat) (s : State) : State :=
  let s := { s with lnd := { s.lnd with bad := if s.lnd.bad.contains g then s.lnd.bad else g :: s.lnd.bad } }
  let s := count F.LND_ECC_CNT_UE 0 s
  let s := if flag F.LND_ECC_ADDR_VALID 0 s then s else put F.LND_ECC_ADDR_VALID 0 1 (put F.LND_ECC_ADDR_ADDR 0 g s)
  report (if 1 ≤ m && m ≤ 5 then 58 else 57) none m 1 (64 * g) 0 (raiseEvent 133 s)

/-- Granule `g` is read by master `m` with outcome `e`: whether it was uncorrectable. -/
def eccRead (m g : Nat) (e : Ecc) (s : State) : Bool × State := match eccOf s g e with
  | .ok => (false, s)
  | .corrected => (false, count F.LND_ECC_CNT_CE 0 s)
  | .bad => (true, recordUe m g s)

/-- The granules of `n` bytes from internal address `a`, as numbers: a granule's number is its address / 64. -/
def granulesOf (a n : Nat) : List Nat := if n = 0 then [] else (List.range ((a + n - 1) / 64 - a / 64 + 1)).map (a / 64 + ·)

/-- The granules of a read are read in order, with their outcomes: whether one was uncorrectable. -/
def eccReads (m : Nat) : List Nat → List Ecc → State → Bool × State
  | [], _, s => (false, s)
  | g :: t, es, s =>
    let r := eccRead m g (es.headD .ok) s
    let q := eccReads m t es.tail r.2
    (r.1 || q.1, q.2)

/-- `n` bytes of the landing at internal address `a` with their poison marks. -/
def landMarks (s : State) (a n : Nat) : List (Byte × Bool) := (List.range n).map (fun k => landMark s (a + k))

/-! ### Writes and the merge buffer (R412, R417, R418) -/

/-- One entry is evicted, and reported when it was partial over an uncorrectable granule. -/
def evict (e : MrgEnt) (s : State) : State := reportEvicted s (mrgEvict e s)

/-- The same, where the old granule of a partial entry reads with outcome `ecc` (R411, R418). -/
def evictEcc (ecc : Ecc) (e : MrgEnt) (s : State) : State :=
  let r := if e.bytes.any (·.isNone) then eccOf s e.g ecc else .ok
  evict e (match r with
    | .ok => s
    | .corrected => count F.LND_ECC_CNT_CE 0 s
    | .bad => { s with lnd := { s.lnd with bad := if s.lnd.bad.contains e.g then s.lnd.bad else e.g :: s.lnd.bad } })

/-- The merge buffer drains, oldest first, with the outcomes of its old granules (R418). -/
def drain (ecc : List Ecc) (s : State) : State := each s.lnd.mrg.zipIdx (fun e s => evictEcc ((ecc[e.2]?).getD .ok) e.1 s) s

/-- The bytes of a part laid over those of an entry, from offset `o`. -/
def mrgLay (old : List (Option Byte)) (o : Nat) (bs : List Byte) : List (Option Byte) :=
  old.take o ++ bs.map some ++ old.drop (o + bs.length)

/-- A part of granule `g` smaller than a granule merges into the granule's entry, or a new one, for which the oldest of 32 makes room, its old
granule reading with outcome `ecc`; an entry whose bytes are all valid is evicted at once. -/
def mrgPart (g o : Nat) (bs : List Byte) (poison : Bool) (ecc : Ecc) (s : State) : State :=
  let s := breakResv (64 * g) 64 s
  let s := if s.lnd.mrg.any (fun e => e.g == g) || s.lnd.mrg.length < 32 then s
    else match s.lnd.mrg with
      | e :: _ => evictEcc ecc e s
      | [] => s
  let e := (s.lnd.mrg.find? (fun e => e.g == g)).getD ⟨g, List.replicate 64 none, false, s.time⟩
  let e := { e with bytes := mrgLay e.bytes o bs, poison := e.poison || poison }
  let l := if s.lnd.mrg.any (fun x => x.g == g) then s.lnd.mrg.map (fun x => if x.g == g then e else x) else s.lnd.mrg ++ [e]
  let s := { s with lnd := { s.lnd with mrg := l } }
  if e.bytes.all (·.isSome) then evict e s else s

/-- A write of part of granule `g` from offset `o`, or of all of it (R412, R417). -/
def granuleWrite (g o : Nat) (bs : List Byte) (poison : Bool) (ecc : Ecc) (s : State) : State :=
  if bs.length = 64 then putGranule g ⟨bs, poison⟩ { s with lnd := { s.lnd with mdPois := Tab.erase s.lnd.mdPois g } }
  else mrgPart g o bs poison ecc s

/-- A landing write at internal address `a`, cut at granule boundaries; the i-th granule takes bit i of `marks`, and an entry that makes room for
it has its old granule read with the i-th outcome (R417, R418). -/
def landMarked (a : Nat) (bs : List Byte) (marks : Nat) (ecc : List Ecc) (s : State) : State :=
  each (granulesOf a bs.length).zipIdx (fun e s =>
    let lo := max (64 * e.1) a
    let hi := min (64 * e.1 + 64) (a + bs.length)
    granuleWrite e.1 (lo - 64 * e.1) ((bs.drop (lo - a)).take (hi - lo)) (marks.testBit e.2) ((ecc[e.2]?).getD .ok) s) s

/-- The poison bits that metadata in granule `g` sets are no longer known by block (R139). -/
def mdForget (g : Nat) (s : State) : State := { s with lnd := { s.lnd with mdPois := Tab.erase s.lnd.mdPois g } }

/-- A landing write whose granules all take one mark. -/
def landPut (a : Nat) (bs : List Byte) (poison : Bool) (ecc : List Ecc) (s : State) : State :=
  let s := if poison then each (granulesOf a bs.length) mdForget s else s
  landMarked a bs (if poison then 2 ^ (granulesOf a bs.length).length - 1 else 0) ecc s

/-! ### Accesses of the hardware masters (R406–R408, R411, R414) -/

/-- An access waits until the landing takes it (R408, R414). -/
def hold (x : LndAcc) (s : State) : State := { s with lnd := { s.lnd with held := s.lnd.held ++ [x] } }

/-- A write with a mark for each granule, in which poisoned host metadata sets the POISON bits `mask` (R139, R299). -/
def hwStore (a : Nat) (bs : List Byte) (marks mask : Nat) (s : State) : State :=
  let g := a / 64
  let old := if bs.length = 64 then 0 else mdMask s g
  let s := landMarked a bs marks [] s
  if mask = 0 then s else { s with lnd := { s.lnd with mdPois := Tab.put s.lnd.mdPois g (old ||| mask) } }

/-- A write of hardware master `m` of R467: held, refused with the bus error, or carried out. -/
def hwWrite (m a : Nat) (bs : List Byte) (marks mask : Nat) (s : State) : State :=
  if bs.isEmpty then s
  else if landBusy s a bs.length then hold (.store m a bs marks mask) s
  else if landOk s a bs.length then hwStore a bs marks mask s
  else busError m 2 a s

/-- A read of hardware master `m`: its granules are read with their outcomes, or it meets the bus error. Its bytes are those of `landRead`. -/
def hwLook (m a n : Nat) (ecc : List Ecc) (s : State) : State :=
  if n = 0 then s else if landOk s a n then (eccReads m (granulesOf a n) ecc s).2 else busError m 1 a s

/-! ### The L1-D caches (R420–R423) -/

/-- An address that the control cores cache. -/
def cached (a : Nat) : Bool := inSram a 1 || landBase ≤ a

/-- Core `c` holds line `l`. -/
def l1Line (s : State) (c l : Nat) : Option L1Line := s.lnd.l1.find? (fun x => x.core == c && x.line == l)

def setL1 (f : List L1Line → List L1Line) (s : State) : State := { s with lnd := { s.lnd with l1 := f s.lnd.l1 } }

/-- Line `l` leaves core `c`'s cache. -/
def l1Drop (c l : Nat) (s : State) : State := setL1 (fun t => t.filter (fun x => !(x.core == c && x.line == l))) s

/-- A line put into a cache in place of an older copy. -/
def l1Put (x : L1Line) (s : State) : State := setL1 (fun t => x :: t.filter (fun y => !(y.core == x.core && y.line == x.line))) s

/-- The bytes of line `l` at its point of coherence. -/
def lineRead (s : State) (l : Nat) : List Byte := if inSram (64 * l) 64 then sramRead s (64 * l) 64 else (granule s l).data

/-- A line is written back as one write of 64 bytes, unpoisoned (R412, R420). -/
def lineWrite (c l : Nat) (bs : List Byte) (s : State) : State :=
  if inSram (64 * l) 64 then sramWrite (64 * l) bs s
  else if landOk s (64 * l) 64 then landPut (64 * l) bs false [] s
  else busError (1 + c) 2 (64 * l) s

/-- The contents of line `l` at its point of coherence become undefined. -/
def lineLost (l : Nat) (s : State) : State :=
  if inSram (64 * l) 64 then { s with sramEra := s.sramEra + 1, sram := Tab.clear s.sram (64 * l) (64 * l + 64) } else rowsLost l 1 s

/-- A dirty line is written back and stays, clean; where another master has written the line meanwhile, its contents are undefined (R424). -/
def l1Clean (c l : Nat) (s : State) : State := match l1Line s c l with
  | some x =>
    if x.dirty then
      let s := lineWrite c l x.data s
      l1Put { x with dirty := false, stale := false } (if x.stale then lineLost l s else s)
    else s
  | none => s

/-- Core `c` has line `l`, brought from its point of coherence when it was not held; none when the landing refuses the access or the granule is
uncorrectable (R411). -/
def l1Fill (c l : Nat) (e : Ecc) (access : Nat) (s : State) : Option L1Line × State :=
  match l1Line s c l with
  | some x => (some x, s)
  | none =>
    if inSram (64 * l) 64 then
      let x : L1Line := ⟨c, l, lineRead s l, false, false⟩
      (some x, l1Put x s)
    else if !landOk s (64 * l) 64 then (none, busError (1 + c) access (64 * l) s)
    else
      let r := eccRead (1 + c) (l) e s
      if r.1 then (none, r.2)
      else
        let x : L1Line := ⟨c, l, lineRead r.2 l, false, false⟩
        (some x, l1Put x r.2)

/-- Bytes laid over a line from offset `o`. -/
def lineLay (old : List Byte) (o : Nat) (bs : List Byte) : List Byte := old.take o ++ bs ++ old.drop (o + bs.length)

/-- A store of core `c` inside one line: write-back, write-allocate (R420). -/
def l1Store (c a : Nat) (bs : List Byte) (e : Ecc) (s : State) : State :=
  match l1Fill c (a / 64) e 2 s with
  | (none, s) => s
  | (some x, s) => l1Put { x with data := lineLay x.data (a % 64) bs, dirty := true } s

/-- Lines leave core `c`'s cache by eviction: dirty ones are written back (R420). -/
def l1Evict (c : Nat) (ls : List Nat) (s : State) : State := each ls (fun l s => l1Drop c l (l1Clean c l s)) s

/-- A load of core `c` inside one line. -/
def l1Load (c a n : Nat) (e : Ecc) (s : State) : Option (List Byte) × State :=
  match l1Fill c (a / 64) e 1 s with
  | (none, s) => (none, s)
  | (some x, s) => (some ((x.data.drop (a % 64)).take n), s)

/-- Lines that a fence register of core `c` names (R421). -/
def fenceLines (s : State) (c : Nat) : List Nat := (List.range (fld F.LND_FFENCE_LINES c s + 1)).map (fld F.LND_FFENCE_ADDR c s + ·)

/-- Lines that core `c` holds. -/
def l1Lines (s : State) (c : Nat) : List Nat := (s.lnd.l1.filter (fun x => x.core == c)).map (·.line)

/-! ### CMB SRAM in the internal map (R10, R326) -/

/-- The key of byte `o` of the CMB SRAM: PF0's units lie first, then those of the VFs in order of number; the rest belong to none (log entry 10). -/
def cmbKey (s : State) (o : Nat) : Nat :=
  let pf := (share s 0).2
  if o < pf then o
  else (((List.range 63).map (· + 1)).foldl (fun (st : Nat × Option Nat) f =>
    let n := (share s f).2
    match st.2 with
    | some _ => st
    | none => if o - pf < st.1 + n then (st.1, some ((share s f).1 + (o - pf - st.1))) else (st.1 + n, none)) (0, none)).2.getD (2 ^ 32 + o)

def cmbBase : Nat := 0x21000000
def inCmb (a n : Nat) : Bool := cmbBase ≤ a && a + n ≤ cmbBase + 0x400000

/-- Bytes of the CMB SRAM at internal address `a`, with their marks. -/
def cmbBytes (s : State) (a n : Nat) : List (Byte × Bool) :=
  (List.range n).map (fun k => let q := cmbKey s (a - cmbBase + k); (cmbByte s q, s.deck.cmbPois.contains (q / 64)))

/-- Bytes written to the CMB SRAM: a poisoned write marks its granules; an unpoisoned one clears the mark of those it covers (R301). -/
def cmbStore (a : Nat) (bs : List (Byte × Bool)) (s : State) : State :=
  let ws := bs.zipIdx.map (fun e => (cmbKey s (a - cmbBase + e.2), e.1))
  let bad := (ws.filter (fun e => e.2.2)).map (fun e => e.1 / 64)
  let whole := fun (g : Nat) => (List.range 64).all (fun k => ws.any (fun e => e.1 == 64 * g + k))
  let kept := s.deck.cmbPois.filter (fun g => !whole g && !bad.contains g)
  { s with deck := { s.deck with
    cmb := each ws (fun e t => Tab.put t e.1 e.2.1) s.deck.cmb
    cmbPois := kept ++ bad.eraseDups } }

end Sys2Proof.Machine
end

