-- ==== Sys2Proof/Machine/OpsXfer.lean ====
section
/-! DEFINITION. The deck's use of the landing: host data stored there, protection inserted, and the end of read-class commands
(R131–R139, R299, R346, R349, R366, R408). -/

namespace Sys2Proof.Machine

open Sys2Proof

/-! ### Host data (R139, R299) -/

/-- Block of byte `o` of a command's data transfer, and its place in the block: the separate metadata follows all the data. -/
def xferPlace (r : NsRec) (x : Cmd) (o : Nat) : Nat × Nat :=
  let w := fmtL r.flbas + if extended r then xferM r x else 0
  let len := xferLen r x
  if o < len then (o / w, o % w) else ((o - len) / max 1 (xferM r x), fmtL r.flbas + (o - len) % max 1 (xferM r x))

/-- The POISON bits of the granules of block `n` (R139). -/
def blkBits (r : NsRec) (x : Cmd) (n : Nat) : Nat :=
  if lpu r = 1 then 2 ^ 64 - 1 else 255 * 2 ^ (8 * ((slba x + n) % lpu r))

/-- Bytes of a transfer that lie in a row in one granule: their address, whether one of them is poisoned, and the POISON bits that poisoned metadata
among them sets. -/
structure HostRun where
  a : Nat
  bs : List Byte
  pois : Bool
  mask : Nat
deriving DecidableEq, Repr

/-- The runs of a piece of the transfer from byte `off`. -/
def hostRuns (r : NsRec) (x : Cmd) (buf md off : Nat) (bs : List (Byte × Bool)) : List HostRun :=
  (bs.zipIdx.foldl (fun (l : List HostRun) e =>
    let p := xferPlace r x (off + e.2)
    let a := blkAddr r x buf md p.1 p.2
    let m := if e.1.2 && fmtL r.flbas ≤ p.2 then blkBits r x p.1 else 0
    match l with
    | h :: t => if a = h.a + h.bs.length && a % 64 ≠ 0 then ⟨h.a, h.bs ++ [e.1.1], h.pois || e.1.2, h.mask ||| m⟩ :: t else ⟨a, [e.1.1], e.1.2, m⟩ :: l
    | [] => [⟨a, [e.1.1], e.1.2, m⟩]) []).reverse

/-- Host data of the transfer from byte `off` stored in the landing: a granule that a poisoned byte touches is marked (R299). -/
def streamIn (r : NsRec) (x : Cmd) (buf md off : Nat) (bs : List (Byte × Bool)) (s : State) : State :=
  each (hostRuns r x buf md off bs) (fun h s => hwWrite 13 h.a h.bs h.pois.toNat h.mask s) s

/-- Protection inserted by the controller into every block of a write (PRACT = 1). -/
def piInsert (r : NsRec) (x : Cmd) (s : State) : State :=
  if piType r = 0 || !pract x || fmtM r.flbas < 8 then s
  else upTo (nlb x) (fun n s =>
    let g := crc16 (piData s r x x.buf x.md n)
    let f := (bytesOf 2 g).reverse ++ (bytesOf 2 (cdw x 15)).reverse ++ (bytesOf 4 (refTag r x n)).reverse
    hwWrite 13 (blkAddr r x x.buf x.md n (fmtL r.flbas + piPlace r)) f 0 0 s) s

/-- The landing holds accesses to a command's buffers (R408, R414). -/
def xferBusy (s : State) (r : NsRec) (x : Cmd) : Bool :=
  let n := (unitsOf r x).2 + 1 - (unitsOf r x).1
  landBusy s x.buf (4096 * n) || landBusy s x.md (64 * n) || (opc x == 5 && (landBusy s x.scr (4096 * n) || landBusy s x.scrMd (64 * n)))

/-- The granules of a command's buffers are read (R411). -/
def xferLook (r : NsRec) (x : Cmd) (s : State) : State :=
  let n := (unitsOf r x).2 + 1 - (unitsOf r x).1
  let s := hwLook 13 x.buf (4096 * n) [] s
  if fmtM r.flbas = 0 then s else hwLook 13 x.md (64 * n) [] s

/-! ### The end of a read (R346, R349, R366, R367) -/

/-- Statuses of the command's units: those given to it, and those that its SPR operation has given so far. -/
def unitSts (s : State) (x : Cmd) : Tab Nat := match x.op.bind (sprOp s) with
  | some o => each o.done (fun e t => Tab.put t e.1 e.2) x.ust
  | none => x.ust

/-- Poison in the data a command delivers. -/
def poisoned (l : List (Byte × Bool)) : Bool := l.any (·.2)

/-- Data and metadata of block `n` of a command in the landing. -/
def blkAll (s : State) (r : NsRec) (x : Cmd) (buf md n : Nat) : List (Byte × Bool) := blkOut s r x buf md n ++ blkMd s r x buf md n

/-- Block `n` of a Compare differs from the host's. -/
def blkDiffers (s : State) (r : NsRec) (x : Cmd) (n : Nat) : Bool :=
  opc x == 5 && (blkAll s r x x.buf x.md n).map (·.1) != (blkAll s r x x.scr x.scrMd n).map (·.1)

/-- First LBA of the first unit that did not end OK or OK_REBUILT, among the statuses `ust`; with none, the first LBA that is poisoned, differs or
fails its protection check, or the command's first (R367). -/
def failLba (s : State) (r : NsRec) (x : Cmd) (ust : Tab Nat) : Nat :=
  let u := unitsOf r x
  match (List.range x.need).find? (fun i => 2 ≤ ((Tab.get? ust i).getD 2)) with
  | some i => max (slba x) ((u.1 + i) * lpu r)
  | none => if x.need = 0 then slba x else slba x + ((List.range (nlb x)).find? (fun n =>
      poisoned (blkAll s r x x.buf x.md n) || blkDiffers s r x n || (piType r != 0 && 8 ≤ fmtM r.flbas && piCheck s r x x.buf x.md n != 0))).getD 0

/-- The mark of a unit that stands on media while the spindle is in FAILED (R366). -/
def stSpindle : Nat := 6

/-- Block `n` of a command has its data: its unit did not need a spindle that has failed. -/
def blkThere (r : NsRec) (x : Cmd) (n : Nat) : Bool := (Tab.get? x.ust ((slba x + n) / lpu r - (unitsOf r x).1)).getD 0 != stSpindle

/-- The blocks that a read-class command has, as a command each, for the rows of R366 that look at data. -/
def blksThere (r : NsRec) (x : Cmd) : List Nat := (List.range (nlb x)).filter (blkThere r x)

/-- The status of a read-class command from its units and its data: the first row of R366 that applies. -/
def readStatus (s : State) (r : NsRec) (x : Cmd) : Nat :=
  let st := x.ust.map (·.2)
  let bs := blksThere r x
  let pi := ((bs.map (piCheck s r x x.buf x.md)).find? (· != 0)).getD 0
  if st.any (fun v => v == 2 || v == 4) then 0x281
  else if st.contains 3 then 0x281 + dnr
  else if bs.any (fun n => poisoned (blkAll s r x x.buf x.md n)) then stXfer + dnr
  else if (x.dfail.getD 0) ≠ 0 then x.dfail.getD 0
  else if bs.any (blkDiffers s r x) then 0x285 + dnr
  else if piType r ≠ 0 && 8 ≤ fmtM r.flbas && pi ≠ 0 then pi
  else if st.contains stSpindle then 0x082
  else if st.contains 5 then stLba
  else 0

/-- Every unit of a read-class command has its final result in the landing, or has been compared or checked: its choker can go (R346). -/
def readEnded (s : State) (r : NsRec) (x : Cmd) : Bool :=
  x.need ≤ x.ust.length && !(opc x == 5 && x.got < xferLen r x + (streamMd s r x x.buf x.md).length && x.dfail.isNone) &&
    (sendsData x || !xferBusy s r x)

/-- A read-class command whose units have all ended: its choker is released; then, once the order lets it and, when it sends data, its lists are
loaded, its function may issue requests and the landing answers, its data goes to the host and its completion entry waits (R346, R366). -/
def readFinish (k : Nat) (s : State) : State :=
  match cmd s k with
  | none => s
  | some x => match nsr s (nsidOf x) with
    | none => s
    | some r =>
      if x.phase != .active || !readClass x || !readEnded s r x then s
      else
        let s := chkRelease (.cmd k) s
        let x := { x with ck := none }
        let s := setCmd x s
        if sqBroken s x && !x.commit then cmdEnd x stOrderBroken 0 s
        else if !x.commit && !mayCommit s x then s
        else if x.list.isSome || (sendsData x && (!canIssue s x.fn || xferBusy s r x)) then s
        else
          let st := readStatus s r x
          let x := { x with commit := true, flags := (if x.ust.any (fun e => e.2 == 1) then 2 else 0) ||| x.flags }
          let s := xferLook r x s
          let s := if sendsData x && st != 0x082 then
              let s := sendSegs x.fn true x.segs (streamOut s r x x.buf x.md) s
              if extended r || xferM r x = 0 then s else sendData x.fn (le x.sqe 16 8) true (streamMd s r x x.buf x.md) s
            else s
          cmdEndAt x st 0 (if st = 0 then slba x else failLba s r x x.ust) s

/-- The units a command asked SPR for have ended. -/
def cmdUnits (k : Nat) (us : Tab Nat) (lad : Bool) (s : State) : State :=
  match cmd s k with
  | none => s
  | some x =>
    let x := { x with op := none, merged := true, ust := each us (fun e t => Tab.put t e.1 e.2) x.ust, flags := if lad then x.flags ||| 4 else x.flags }
    readFinish k (setCmd x s)

/-- Commands of a queue that the order now lets pass their commit points (R349–R352): granted reads commit, and those whose data is
all there finish. -/
def sqAdvance (f q : Nat) (s : State) : State :=
  each (sortBy (·.ord) (ofSq s f q)) (fun c s => match cmd s c.slot with
    | none => s
    | some x =>
      if readClass x && !x.commit && (x.phase == .granted || x.phase == .active) && !sqBroken s x && mayCommit s x
      then readFinish x.slot (setCmd { x with commit := true } s) else readFinish x.slot s) s

end Sys2Proof.Machine
end

