-- ==== Sys2Proof/Machine/OpsSpr.lean ====
section
/-! DEFINITION. Surface parity: parity arithmetic, stripe reads and passes, staging stripes, and the end of descriptors
(R242–R268, R280, R281). -/

namespace Sys2Proof.Machine

open Sys2Proof

/-! ### Parity arithmetic (R242–R245) -/

/-- Exclusive or of two byte lists. -/
def xorBytes (a b : List Byte) : List Byte := List.zipWith (· ^^^ ·) a b

/-- Product with g = 2 in GF(2^8) modulo 0x11D. -/
def gfDouble (b : Byte) : Byte := if b.msb then (b <<< 1) ^^^ 0x1D else b <<< 1

/-- Product in GF(2^8). -/
def gfMul (a b : Byte) : Byte :=
  (((List.range 8).foldl (fun (r, p) i => (if a.getLsbD i then r ^^^ p else r, gfDouble p)) ((0 : Byte), b))).1

/-- g^j. -/
def gfPow : Nat → Byte
  | 0 => 1
  | j + 1 => gfDouble (gfPow j)

/-- Inverse: b^254. -/
def gfInv (b : Byte) : Byte := (List.range 253).foldl (fun r _ => gfMul r b) b

/-- A byte list multiplied by a constant. -/
def gfScale (c : Byte) (l : List Byte) : List Byte := l.map (gfMul c)

/-- A body of 4,168 zero bytes. -/
def zeroBody : List Byte := List.replicate 0x1048 0

/-- P over data bodies in slot order (R243). -/
def parityP (ds : List (List Byte)) : List Byte := ds.foldl xorBytes zeroBody

/-- Q over data bodies in slot order (R243). -/
def parityQ (ds : List (List Byte)) : List Byte :=
  ds.zipIdx.foldl (fun q (d, j) => xorBytes q (gfScale (gfPow j) d)) zeroBody

/-- The data bodies of a stripe from its surviving members, by role slot; none when E > RED or the spare parity does not
verify the result (R244, R245). -/
def rebuildData (red : Nat) (m : Nat → Option (List Byte)) : Option (List (List Byte)) :=
  let n := dataOf red
  let miss := (List.range n).filter (fun j => (m j).isNone)
  let part := (List.range n).map (fun j => (m j).getD zeroBody)
  let p := m n
  let q := if red = 2 then m (n + 1) else none
  let fill := fun (l : List (Nat × List Byte)) => (List.range n).map (fun j =>
    ((l.find? (fun e => e.1 == j)).map (·.2)).getD ((m j).getD zeroBody))
  match miss, p, q with
  | [], p, q => if p.all (· == parityP part) && q.all (· == parityQ part) then some part else none
  | [x], some p, none => some (fill [(x, xorBytes p (parityP part))])
  | [x], some p, some q =>
    let ds := fill [(x, xorBytes p (parityP part))]
    if parityQ ds = q then some ds else none
  | [x], none, some q => some (fill [(x, gfScale (gfInv (gfPow x)) (xorBytes q (parityQ part)))])
  | [x, y], some p, some q =>
    let p' := xorBytes p (parityP part)
    let q' := xorBytes q (parityQ part)
    let dx := gfScale (gfInv (gfPow x ^^^ gfPow y)) (xorBytes q' (gfScale (gfPow y) p'))
    some (fill [(x, dx), (y, xorBytes p' dx)])
  | _, _, _ => none

/-- The later of two generations (R136); what is not ordered is left open. -/
def genLater (a b : Nat) : Bool :=
  let d := (a + 2 ^ 40 - b % 2 ^ 40) % 2 ^ 40
  if d = 2 ^ 39 then Config.openVal 136 [a, b] % 2 == 1 else 1 ≤ d && d < 2 ^ 39

/-- GEN of a WGEN word. -/
def genOf (w : Nat) : Nat := w % 2 ^ 40

/-- The members that decoded: surface and block. -/
def gotMembers (r : StripeRd) : List (Nat × MemBlk) :=
  r.mem.filterMap (fun (f, m) => match m with | .got b _ _ => some (f, b) | _ => none)

/-- The stripe's GEN: carried by most members, a tie to the later (R245). -/
def stripeGen (r : StripeRd) : Nat :=
  let gs := (gotMembers r).map (fun e => genOf e.2.wgen)
  gs.foldl (fun best g =>
    let c := gs.count g
    let b := gs.count best
    if b < c || (b == c && genLater g best) then g else best) (gs.headD 0)

/-- The members that stand: right GEN and right PAR flag (R245). -/
def goodMembers (s : State) (r : StripeRd) : List (Nat × MemBlk) :=
  let g := stripeGen r
  (gotMembers r).filter (fun (f, b) =>
    genOf b.wgen == g && (b.wgen.testBit 41 == decide (dataOf r.red ≤ roleOf s r.zone r.k f)))

/-- Stale members met (R245). -/
def staleCount (r : StripeRd) : Nat := ((gotMembers r).filter (fun e => genOf e.2.wgen != stripeGen r)).length

/-- The WGEN word that a rebuilt data member takes: that of the stripe's members, with the flags all of them carry and PAR = 0 (R244). -/
def stripeWgen (s : State) (r : StripeRd) : Nat :=
  let ws := (goodMembers s r).map (fun e => e.2.wgen)
  putBit (ws.foldl (fun a w => a &&& w) (ws.headD 0)) 41 false

/-- The good member in role slot `j`. -/
def memBySlot (s : State) (r : StripeRd) (j : Nat) : Option (List Byte) :=
  ((goodMembers s r).find? (fun (f, _) => roleOf s r.zone r.k f == j)).map (·.2.body)

/-- Number of erasures E of the stripe (R245). -/
def erasures (s : State) (r : StripeRd) : Nat := 16 - (goodMembers s r).length

/-- The data bodies of the stripe, or none when E > RED. -/
def stripeData (s : State) (r : StripeRd) : Option (List (List Byte)) :=
  if r.red < erasures s r then none else rebuildData r.red (memBySlot s r)

/-- DATA and metadata all 0 and all 64 POISON bits set: a lost sector's contents (R244, R267). -/
def lostBody (b : List Byte) : Bool := (b.take 0x1040).all (· == 0) && le b 0x1040 8 == 2 ^ 64 - 1

/-- The body of a lost sector (R267). -/
def lostSector : List Byte := List.replicate 0x1040 0 ++ List.replicate 8 0xFF

/-! ### Descriptors (R280, R281) -/

/-- A descriptor ends: STATUS, GEN, SEQ, OWN cleared, and an event when EVT is 1. The reads of a host command go back to the deck. -/
def opEnd (x : SprOp) (st : Nat) (s : State) : State :=
  let s := { s with spr := { s.spr with ops := Tab.erase s.spr.ops x.id } }
  match x.cmd with
  | some k => cmdUnits k x.done x.lad s
  | none =>
    let b := sramRead s x.desc 2
    let s := sramWrite (x.desc + 0x28) (bytesOf 8 x.gen ++ if x.op = 3 then bytesOf 8 x.seq else []) s
    let s := sramWrite (x.desc + 4) [byte st] s
    let s := sramWrite (x.desc + 1) [byte (putBit (le b 1 1) 0 false)] s
    if x.evt then raiseEvent 85 s else s

/-- Units of a descriptor, one USTAT byte for each: its UNIT entries for WRITE_STG, the stripe's data units for WRITE_STRIPE (R280). -/
def opUnits (s : State) (x : SprOp) : Nat :=
  if x.op = 2 then 1
  else if x.op = 3 then ((List.range x.count).filter (fun j => hwBytes s (x.aux + 32 * j) 1 == [1])).length
  else if x.op = 4 then dataOf (nsEnt s x.nsid).red
  else x.count

/-- Every USTAT byte of a refused descriptor reads ADDR, and the descriptor ends ADDR (R281). -/
def opRefuse (x : SprOp) (s : State) : State :=
  let s := if x.ustat = 0 then s else hwWrite 7 x.ustat (List.replicate (opUnits s x) 5) 0 0 s
  opEnd { x with gen := 0, seq := 0 } 1 s

/-- A unit's data, metadata and poison reach the landing from a body, written by master `m` of R467. -/
def bodyStore (m buf md : Nat) (body : List Byte) (s : State) : State :=
  let s := hwWrite m buf (body.take 4096) (le body 0x1040 8) 0 s
  if md = 0 then s else hwWrite m md ((body.drop 4096).take 64) 0 0 s

/-- Unit `i` of an operation reaches the landing from a body. -/
def unitStore (x : SprOp) (i : Nat) (body : List Byte) (s : State) : State :=
  bodyStore 7 (x.buf + 4096 * i) (if x.meta' = 0 then 0 else x.meta' + 64 * i) body s

/-- A read of unit `u` in the destage class ended UNREC, or did not (R262). -/
def noteUnrec (nsid u : Nat) (on : Bool) (s : State) : State :=
  { s with spr := { s.spr with unrec := s.spr.unrec.filter (· != (nsid, u)) ++ (if on then [(nsid, u)] else []) } }

/-- One unit of a read ends with its R265 status; with the last one the descriptor ends. A unit of a host command that could not be addressed reads
as zeros with poison, which is what a merge then carries (R133). -/
def unitEnd (id i st : Nat) (s : State) : State :=
  match sprOp s id with
  | none => s
  | some x =>
    if (Tab.get? x.done i).isSome then s
    else
      let s := if st = 5 && x.cmd.isSome then unitStore x i lostSector s else s
      let x := { x with done := Tab.put x.done i st }
      let s := if x.op = 1 && x.cls = 1 then noteUnrec x.nsid (x.addr + i) (st == 2) s else s
      let s := if x.ustat = 0 then s else hwWrite 7 (x.ustat + i) [byte st] 0 0 s
      let s := if st = 1 then tally x.fn 10 1 (count F.SPR_ERR_REBUILT 0 s) else s
      let s := setOp x s
      if x.count ≤ x.done.length then opEnd x (if x.done.any (fun e => e.2 == 4) then 4 else 0) s else s

/-- The salvage engine's state changes, and with it the record of its job (R270, R276). -/
def salvSet (st : Nat) (s : State) : State :=
  let e := fld F.SPR_SALV_CTL_ENTRY 0 s
  let s := put F.SPR_SALV_STAT_STATE 0 st s
  { s with spr := { s.spr with jobs := Tab.put s.spr.jobs e (st, ((Tab.get? s.spr.jobs e).getD (0, 0)).2) } }

/-- The salvage stripe that a pass or a read is for. -/
def salvOf (p : Pass) : Option Nat := match p.use with
  | .salv i => some i
  | _ => none
def salvOfRead (r : StripeRd) : Option Nat := match r.use with
  | .salv i => some i
  | _ => none

/-- Stripe `i` of the batch has its spare pass on media. -/
def salvOut (s : State) (i : Nat) : Bool := (Tab.vals s.spr.passes).any (fun p => salvOf p == some i && p.item.isSome)

/-- The salvage job halts over stripe `i`, which could not be read or written: what of its batch is not on media yet is dropped, spare passes that are
end as they may (R270; that a refused read halts it too is DEDUCED, log entry 58). -/
def salvHalt (i : Nat) (s : State) : State :=
  let gone := fun (j : Nat) => j == i || !salvOut s j
  let s := each s.spr.batch (fun e s => if gone e.1 then chkRelease (.salv e.1) s else s) s
  let s := { s with spr := { s.spr with
    batch := s.spr.batch.filter (fun e => !gone e.1)
    reads := s.spr.reads.filter (fun e => !(salvOfRead e.2).any gone)
    passes := s.spr.passes.filter (fun e => !(salvOf e.2).any gone) } }
  c4Change 0 (raiseEvent 86 (put F.SPR_SALV_STAT_ERR 0 2 (salvSet 5 s)))

/-- The operation that asked for a sector ends with an addressing error: the unit of a descriptor, or, through `back`, what a stripe read is for
(R19, R28). -/
def sectorRefuse (back : RdUse → State → State) (req psa : Nat) (s : State) : State :=
  if req % 2 = 0 then match (sprOp s (req / 2)).bind (fun o => o.units.find? (fun u => u.2 == psa)) with
    | some u => unitEnd (req / 2) u.1 5 s
    | none => s
  else match sread s (req / 2) with
    | none => s
    | some r => back r.use (dropRead r.id s)

/-- Cruise leaves its stripe. -/
def cruiseLeave (s : State) : State := { (chkRelease .cruise s) with spr := { (chkRelease .cruise s).spr with cruise := none } }

/-- What asked for a stripe whose read is refused ends with an addressing error (R19, R28): the unit, the sector whose ladder wants the stripe,
the salvage job, or cruise's visit. A ladder's sector may itself be a member of a stripe read, whose own sectors have no such ladder. -/
def readRefuse : Nat → RdUse → State → State
  | 0, _, s => s
  | n + 1, use, s => match use with
    | .unit o i => unitEnd o i 5 s
    | .stg o i _ _ => unitEnd o i 5 s
    | .salv i => salvHalt i s
    | .cruise => cruiseLeave s
    | .cruise2 => cruiseLeave s
    | .ladder c => match ctx s c with
      | none => s
      | some x => sectorRefuse (readRefuse n) x.it.req x.key.psa (freeCtx c s)

/-- A unit that cannot be recovered: zero data with full poison (R157, R265). -/
def unitUnrec (x : SprOp) (i : Nat) (s : State) : State :=
  unitEnd x.id i 2 (unitStore x i lostSector s)

/-! ### Reads -/

/-- For whom media work is done: its class and function, its urgent and limited-retry marks, its age origin (R280, R376, R379). -/
structure Want where
  cls : Nat
  fn : Nat
  urgent : Bool
  lr : Bool
  org : Nat
deriving DecidableEq, Repr

/-- What a descriptor or a command asks with. -/
def opWant (x : SprOp) : Want := ⟨x.cls, x.fn, x.urgent, x.lr, x.t⟩

/-- What an item was asked with. -/
def itemWant (x : Item) : Want := ⟨x.cls, x.fn, x.urgent, x.lr, x.origin⟩

/-- The item that reads members on surfaces `fs` of a stripe for request `req`. -/
def readItem (s : State) (z k req : Nat) (w : Want) (nopar : Bool) (fs : List Nat) (dst : List (Nat × Nat × Nat)) : Item :=
  let zn := (zoneOf s z).getD ⟨0, 0, 1, 0, 0, 0, 0, []⟩
  ⟨0, false, false, z, stripeTrack zn k, fs.map (fun f => (f, memberSector zn k f)), 1, w.cls, w.fn, w.org, w.urgent, none, none, [], none, 0,
    req, 0, dst, w.lr, nopar, false, .ready, 0, 0, 0, 0, 0, false, false, [], []⟩

/-- Arms in order, each given the surfaces it can serve among those left (R264). -/
def splitArms (s : State) (fs : List Nat) : List (List Nat) :=
  match (List.range 4).find? (fun a => fs.all (fun f => eligible s (16 * a + f))) with
  | some _ => if fs.isEmpty then [] else [fs]
  | none =>
    ((List.range 4).foldl (fun (acc, left) a =>
      let mine := left.filter (fun f => eligible s (16 * a + f))
      (if mine.isEmpty then acc else acc ++ [mine], left.filter (fun f => !mine.contains f))) (([] : List (List Nat)), fs)).1

/-- A stripe read starts: every member that is neither absent nor among `keep` is read with NOPAR (R264, R271, R278). A stripe whose addresses the
geometry refuses, or any while no geometry is active, is refused (R19, R28). -/
def startReadOf (keep : List Nat) (use : RdUse) (z k red : Nat) (skip : Option Nat) (w : Want) (s : State) : State :=
  if !stripeOk s z k then readRefuse 2 use (report 184 none 7 5 (memberPsa s z k 0) 0 s)
  else
  let (id, s) := sprId s
  let fs := (List.range 16).filter (fun f => some f != skip)
  let ok := fs.filter (fun f => !absent s z k f && !keep.contains f)
  let mem : Tab MemState := each fs (fun f t => Tab.put t f (if ok.contains f then .wait else if absent s z k f then .erased 0 else .kept)) []
  let s := setRead ⟨id, use, z, k, red, skip, mem⟩ s
  each (splitArms s ok) (fun g s => addItem (readItem s z k (2 * id + 1) w true g []) s) s

/-- A stripe read of every member that is not absent. -/
def startRead (use : RdUse) (z k red : Nat) (skip : Option Nat) (w : Want) (s : State) : State :=
  startReadOf [] use z k red skip w s

/-- The members that a stripe read did not read. -/
def keptMembers (r : StripeRd) : List Nat :=
  r.mem.filterMap (fun e => match e.2 with | .kept => some e.1 | _ => none)

/-- The members that a stripe read did not read are read after all, where the rebuild of another needs what they hold (R244, R271). -/
def readKept (r : StripeRd) (w : Want) (s : State) : State :=
  let fs := keptMembers r
  let s := setRead { r with mem := each fs (fun f t => Tab.put t f .wait) r.mem } s
  each (splitArms s fs) (fun g s => addItem (readItem s r.zone r.k (2 * r.id + 1) w true g []) s) s

/-- The state of a sector result as a member of a stripe (R245). -/
def memResult (mse : Nat) (r : RdRes) : MemState :=
  let st := bitsOf r.word 63 56
  if st ≤ 2 then .got ⟨r.body, r.wgen⟩ r.word mse else .erased r.word

/-- The status byte of a unit from its sector's result (R265, R267). -/
def unitStatus (r : RdRes) : Nat :=
  let st := bitsOf r.word 63 56
  if st = 6 then 4
  else if 3 ≤ st then 2
  else if (st = 2 && lostBody r.body) || (r.wgen.testBit 42 && r.poison == 2 ^ 64 - 1) then 3
  else if st = 2 then 1 else 0

/-- SPR receives the result of a sector: a unit of a descriptor, or a member of a stripe read. -/
def sprResult (r : RdRes) (s : State) : State :=
  if r.req % 2 = 0 then
    match sprOp s (r.req / 2) with
    | none => s
    | some x => match x.units.find? (fun u => u.2 == r.psa) with
      | none => s
      | some (i, _) => unitEnd x.id i (unitStatus r) (setOp { x with lad := x.lad || r.word.testBit 12 } s)
  else
    match sread s (r.req / 2) with
    | none => s
    | some x => setRead { x with mem := Tab.put x.mem (psaSurf r.psa) (memResult s.dec.mse r) } s

/-- Stripe index of a sector on surface `f` from its PSA. -/
def stripeOfPsa (s : State) (psa : Nat) : Nat := match zoneOf s (psaZone psa) with
  | none => 0
  | some zn =>
    (psaTrack psa - zn.first) * zn.spt + (psaSector psa + zn.spt - zn.rot.getD (psaSurf psa) 0 % zn.spt) % zn.spt

/-- The PARITY step of a context: the stripe's other members are read (R162, R264). -/
def sprParity (c : Nat) (s : State) : State :=
  match ctx s c with
  | none => s
  | some x =>
    let z := psaZone x.key.psa
    let red := ((sprOp s (x.it.req / 2)).map (fun o => if o.op = 2 then 2 else (nsEnt s o.nsid).red)).getD 1
    startRead (.ladder c) z (stripeOfPsa s x.key.psa) red (some (psaSurf x.key.psa)) (itemWant x.it) s

/-! ### Stripe passes (R246, R248, R260) -/

/-- Flags and GEN of a member: PAR for a parity role (R135). -/
def memFlags (flags : Nat) (par : Bool) : Nat := (flags ||| (if par then 2 else 0)) * 2 ^ 40

/-- Flags that a member's contents demand in namespace `nsid`: a lost sector carries FILL and REBUILT (R267), the deallocated-block fill FILL (R342).
-/
def bodyFlags (s : State) (nsid : Nat) (b : List Byte) : Nat := if lostBody b then 12 else if b == fillBody s nsid then 4 else 0

/-- The members of a pass from its data bodies; each carries the pass's flags and those of its own. -/
def passMembers (s : State) (z k red flags : Nat) (ds : List (List Byte)) (extra : Nat → Nat) : Tab MemBlk :=
  let p := parityP ds
  let q := if red = 2 then parityQ ds else []
  each (List.range 16) (fun f t =>
    let j := roleOf s z k f
    let n := dataOf red
    let body := if j < n then ds.getD j zeroBody else if j = n then p else q
    Tab.put t f ⟨body, memFlags (if j < n then flags ||| extra j else flags) (n ≤ j)⟩) []

/-- A pass is refused: its stripe lies outside the geometry (R19, R28), more members are absent than RED, or any with DEGR_WR clear (R246). -/
def passRefused (s : State) (p : Pass) : Bool :=
  let n := ((List.range 16).filter (fun f => absent s p.zone p.k f)).length
  !stripeOk s p.zone p.k || p.red < n || (0 < n && !flag F.SPR_CTL_DEGR_WR 0 s)

/-- A pass refused for its addresses is recorded in FC1 (R19). -/
def passReport (p : Pass) (s : State) : State := if stripeOk s p.zone p.k then s else report 184 none 7 6 (memberPsa s p.zone p.k 0) 0 s

/-- The media operation of a pass is handed to the scheduler. -/
def passIssue (p : Pass) (s : State) : State :=
  let fs := (List.range 16).filter (fun f => !absent s p.zone p.k f)
  let n := s.sched.nextId
  let it := { readItem s p.zone p.k (2 * p.id) ⟨p.cls, p.fn, p.urgent, false, p.t⟩ true fs [] with write := true, pass := true }
  addItem it (setPass { p with item := some n, result := none, hold := false } s)

/-- Another pass over the same stripe is in flight before this one (R277). -/
def passBehind (s : State) (p : Pass) : Bool :=
  s.spr.passes.any (fun (i, q) => i < p.id && q.zone == p.zone && q.k == p.k && !q.ended)

/-- A pass enters SPR: held behind an earlier one over its stripe, or issued. -/
def passStart (p : Pass) (s : State) : State :=
  if passBehind s p then setPass { p with hold := true } s else passIssue p s

/-- A write operation of generation `gen` has ended: its pass learns whether every head ended OK (R128). -/
def sprWriteEnd (it gen : Nat) (res : List (Nat × Nat)) (s : State) : State :=
  match (Tab.vals s.spr.passes).find? (fun p => p.item == some it) with
  | none => s
  | some p => setPass { p with result := some (res.all (fun e => e.2 == 0)), gen := gen } s

/-- Block of the member that lane `n` writes for item `it`. -/
def passBlock (s : State) (it f : Nat) : Option MemBlk :=
  match (Tab.vals s.spr.passes).find? (fun p => p.item == some it) with
  | none => none
  | some p => Tab.get? p.mem f

/-! ### Staging (R249–R256, R261) -/

/-- STG_TOTAL: stripes on all STAGING tracks (R249). -/
def stgTotal (s : State) : Nat := match s.geo with
  | none => 0
  | some g => ((g.regions.filter (fun r => r.ty == 1)).map (fun r =>
      (r.last + 1 - r.first) * ((g.zones.find? (fun z => z.first ≤ r.first && r.first ≤ z.last)).map (·.spt)).getD 0)).foldl (· + ·) 0

/-- Zone and stripe index of staging position `p` (R249). -/
def stgPlace (s : State) (p : Nat) : Nat × Nat := match s.geo with
  | none => (0, 0)
  | some g =>
    (((g.regions.filter (fun r => r.ty == 1)).foldl (fun (acc : Option (Nat × Nat) × Nat) r =>
      match acc.1 with
      | some _ => acc
      | none =>
        let zi := (g.zones.findIdx? (fun z => z.first ≤ r.first && r.first ≤ z.last)).getD 0
        let zn := g.zones.getD zi ⟨0, 0, 1, 0, 0, 0, 0, []⟩
        let n := (r.last + 1 - r.first) * zn.spt
        if acc.2 < n then (some (zi, (r.first - zn.first) * zn.spt + acc.2), 0) else (none, acc.2 - n)) (none, p)).1).getD (0, 0)

def stgHead (s : State) : Nat := fld F.SPR_STG_HEAD_SEQ 0 s
def stgTail (s : State) : Nat := fld F.SPR_STG_TAIL_SEQ 0 s

/-- The band has no room for another stripe (R254). -/
def stgFull (s : State) : Bool := stgTotal s ≤ stgHead s - stgTail s + 1

/-- FULL and AGE_WARN follow; AGE_WARN raises EV087 on its rise (R254, R255). -/
def stgStat (s : State) : State :=
  let s := put F.SPR_STG_STAT_FULL 0 (stgFull s).toNat (put F.SPR_STG_SIZE_TOTAL 0 (stgTotal s) s)
  let d := (fld F.SPR_WGEN_GEN 0 s + 2 ^ 40 - fld F.SPR_STG_TGEN_GEN 0 s) % 2 ^ 40
  let warn := decide (2 ^ 38 ≤ d)
  let was := flag F.SPR_STG_STAT_AGE_WARN 0 s
  let s := put F.SPR_STG_STAT_AGE_WARN 0 warn.toNat s
  if warn && !was then raiseEvent 87 s else s

/-- The 4,096 header bytes of staging stripe `seq` (R251, R252); entries carry the slots given. -/
def stgHeader (seq tail : Nat) (es : List (StgEntry × Nat)) : List Byte :=
  let ent := fun (e : StgEntry × Nat) => bytesOf 1 e.1.ty ++ bytesOf 1 e.2 ++ bytesOf 2 e.1.nsid ++ bytesOf 4 e.1.nsGen ++ bytesOf 8 e.1.unit ++
    bytesOf 4 e.1.atom ++ bytesOf 2 e.1.cnt ++ bytesOf 2 e.1.idx ++ List.replicate 8 0
  let h := bytesOf 4 0x4754534B ++ bytesOf 2 1 ++ bytesOf 1 es.length ++ [0] ++ bytesOf 8 seq ++ bytesOf 8 tail ++ List.replicate 40 0
  let t := (es.flatMap ent) ++ List.replicate (32 * (32 - es.length)) 0
  let b := h ++ t ++ List.replicate 3004 0
  b ++ bytesOf 4 (crc32c b)

/-- The entries of the next staging stripe: up to 13 units and 32 entries in order, with their slots. -/
def stgTake : Nat → Nat → List StgEntry → List (StgEntry × Nat) × List StgEntry
  | _, _, [] => ([], [])
  | u, n, e :: es =>
    if 32 ≤ n || (e.ty = 1 && 13 ≤ u) then ([], e :: es)
    else
      let r := stgTake (if e.ty = 1 then u + 1 else u) (n + 1) es
      ((e, if e.ty = 1 then u + 1 else 0) :: r.1, r.2)

/-- A descriptor learns that `k` of its entries are dealt with, in staging stripe `seq` that ended with status `st`; with the last one it ends, with
the first status other than OK and the GEN of its last stripe (R280, R281). -/
def entriesEnd (o k st units seq gen : Nat) (s : State) : State := match sprOp s o with
  | none => s
  | some x =>
    let s := tally x.fn 12 units s
    let x := { x with left := x.left - k, gen := if x.lastSeq ≤ seq then gen else x.gen, lastSeq := max x.lastSeq seq, done := if st = 0 || (Tab.get? x.done 1).isSome then x.done else Tab.put x.done 1 st }
    if x.left = 0 then opEnd x ((Tab.get? x.done 1).getD 0) s else setOp x s

/-- SEQ of a staging pass. -/
def passSeq (p : Pass) : Nat := match p.use with
  | .staging q => q
  | _ => 0

/-- The descriptors whose entries a staging stripe carried learn that its pass ended with a status other than OK (R246, R248). -/
def stagingLost (p : Pass) (st : Nat) (s : State) : State :=
  each ((p.entries.map (·.op)).eraseDups) (fun o s =>
    entriesEnd o (p.entries.filter (fun e => e.op == o)).length st 0 (passSeq p) p.gen s) (dropPass p.id s)

/-- One staging stripe of the waiting entries is dispatched, when the band has room; a pass that the fences refuse ends ADDR
(R246, R250, R254). -/
def stgDispatch (s : State) : State :=
  if s.spr.waiting.isEmpty || stgFull s || s.geo.isNone then s
  else
    let r := stgTake 0 0 s.spr.waiting
    let seq := stgHead s
    let (z, k) := stgPlace s (seq % stgTotal s)
    let head := stgHeader seq (stgTail s) r.1 ++ List.replicate 72 0
    let ds := (List.range 14).map (fun j => if j = 0 then head else
      ((r.1.find? (fun e => e.2 == j)).map (fun e => e.1.body)).getD zeroBody)
    let used := r.1.map (·.2)
    let atom := r.1.any (fun e => e.1.atom != 0)
    let mem := passMembers s z k 2 (1 + if atom then 16 else 0) ds (fun j => if j != 0 && !used.contains j then 4 else 0)
    let s := put F.SPR_STG_HEAD_SEQ 0 (seq + 1) { s with spr := { s.spr with waiting := r.2, stgDue := s.spr.stgDue - r.1.length } }
    let s := each ((r.1.map (fun e => e.1.op)).eraseDups) (fun o s => match sprOp s o with
      | some x => if x.seq = 0 && x.gen = 0 && x.done.isEmpty then setOp { x with seq := seq, done := [(0, 0)] } s else s
      | none => s) s
    let (id, s) := sprId s
    let asked := r.1.filterMap (fun e => sprOp s e.1.op)
    let p : Pass := ⟨id, .staging seq, z, k, z, k, 2, 0, mem, 2, 0, asked.any (·.urgent), 0, none, false, false, none, 0, r.1.map (·.1), 0, none,
      (r.1.map (·.1.t)).foldl min s.time⟩
    stgStat (if passRefused s p then stagingLost p 1 (passReport p s) else passStart p s)

/-- UNIT entries that wait. -/
def stgUnits (s : State) : Nat := (s.spr.waiting.filter (fun e => e.ty == 1)).length

/-- Full staging stripes are dispatched (R254). -/
def stgFlushFull (s : State) : State := upTo 40 (fun _ s => if 13 ≤ stgUnits s then stgDispatch s else s) s

/-- The first `n` waiting entries are due: they are dispatched in as many stripes as it takes, and held as due while the band has no room
(R254 FLUSH, STG_WAIT). -/
def stgFlushDue (n : Nat) (s : State) : State :=
  stgFlushFull (upTo 40 (fun _ s => if 0 < s.spr.stgDue then stgDispatch s else s)
    { s with spr := { s.spr with stgDue := min s.spr.waiting.length (max n s.spr.stgDue) } })

/-- Every waiting entry is due (R254 FLUSH). -/
def stgFlushAll (s : State) : State := stgFlushDue s.spr.waiting.length s

/-- Units of open groups of a namespace. -/
def groupCovers (s : State) (nsid lo n : Nat) : Bool :=
  s.spr.groups.any (fun g => g.nsid == nsid && g.units.any (fun u => lo ≤ u && u < lo + n))

/-- A group has ended: WRITE_STRIPE descriptors held for it end WAIT_COMMIT (R261). -/
def groupEnd (g : StgGroup) (s : State) : State :=
  let s := { s with spr := { s.spr with groups := s.spr.groups.filter (· != g) } }
  each (Tab.vals s.spr.ops) (fun x s =>
    let n := dataOf (nsEnt s x.nsid).red
    if x.op = 4 && x.waits && x.nsid = g.nsid && g.units.any (fun u => x.addr ≤ u && u < x.addr + n) && !groupCovers s x.nsid x.addr n
    then opEnd x 5 s else s) s

/-- A sector read by SPR marks a lost record: the ring at SPR_LOST_BASE takes it (R275), EV088 on an empty ring. -/
def lostRecord (nsid unit cause gen : Nat) (s : State) : State :=
  let wr' := fld F.SPR_LOST_PTR_WR 0 s
  let empty := wr' = fld F.SPR_LOST_PTR_RD 0 s
  let a := fld F.SPR_LOST_BASE_ADDR 0 s * 64 + 16 * wr'
  let s := hwWrite 7 a (bytesOf 8 unit ++ bytesOf 2 nsid ++ bytesOf 1 cause ++ [0] ++ bytesOf 4 gen) 0 0 s
  let s := put F.SPR_LOST_PTR_WR 0 ((wr' + 1) % 4096) s
  if empty then raiseEvent 88 s else s

/-- Records the lost ring still has room for. -/
def lostRoom (s : State) : Nat := (fld F.SPR_LOST_PTR_RD 0 s + 4096 - fld F.SPR_LOST_PTR_WR 0 s + 4095) % 4096

end Sys2Proof.Machine
end

