-- ==== Sys2Proof/Machine/OpsPool.lean ====
section
/-! DEFINITION. The decoder pool: slots, the sector check, contexts and the retry ladder (R145–R171). -/

namespace Sys2Proof.Machine

open Sys2Proof

/-! ### Result words -/

/-- The landing addresses the read names for a sector. -/
def dstOf (x : Item) (psa : Nat) : Option (Nat × Nat) := (x.dst.find? (fun d => d.1 == psa)).map (·.2)

/-- What is known of a sector of a read: lane STATUS of its first read, ITER and ENG of its last decode on own values, and the heads that have read
it; `st` is the STATUS of the read in hand, the first unless the sector was read again (R162, R170). -/
def pastOf (s : State) (key : ReadKey) (st : Nat) : Past :=
  ((s.dec.past.find? (fun e => e.1 == key)).map (·.2)).getD ⟨st, 0, 31, []⟩

/-- A sector's final result: DEC_RES takes the word and SPR receives it (R170). -/
def sectorFinal (x : Item) (psa w wgen poison : Nat) (body : List Byte) (s : State) : State :=
  let s := wr R.DEC_RES 0 0 w s
  let s := { s with dec := { s.dec with missTab := s.dec.missTab.filter (fun e => e.1 != ⟨x.req, psa⟩),
                                        past := s.dec.past.filter (fun e => e.1 != ⟨x.req, psa⟩) } }
  sprResult ⟨x.req, psa, w, wgen, poison, body⟩ s

/-- A decode that passed the sector check delivers data, metadata and poison marks to the landing (R155). -/
def deliver (x : Item) (psa w : Nat) (blk : List Byte) (s : State) : State :=
  let poison := le blk 0x1040 8
  let s := match dstOf x psa with
    | none => s
    | some (d, m) => bodyStore 9 d m blk s
  sectorFinal x psa w (le blk 0x1048 8) poison (blk.take 0x1048) s

/-- An unrecovered sector's landing is zero data and metadata with all 64 poison bits (R157). -/
def deliverZero (x : Item) (psa w : Nat) (s : State) : State :=
  let s := match dstOf x psa with
    | none => s
    | some (d, m) => bodyStore 9 d m lostSector s
  sectorFinal x psa w 0 (2 ^ 64 - 1) [] s

/-- The descrambled block of a decode that converged and passes SCHK; a mismatch counts and is recorded in FC0 (R155). -/
def sectorCheck (psa : Nat) (d : Decoded) (s : State) : Option (List Byte) × State :=
  if !d.converged then (none, s)
  else
    let blk := scramble psa d.info
    if le blk 0x1050 4 = schkOf psa blk then (some blk, s)
    else (none, report 179 none 9 5 psa 0 (count F.DEC_ERR_SCHK 0 s))

/-! ### Slots and engines -/

/-- The lowest free number below `n` in a table. -/
def lowestFree {α : Type} (t : Tab α) (n : Nat) : Option Nat := (List.range n).find? (fun k => (Tab.get? t k).isNone)

/-- Full slots not yet assigned to an engine (R151). -/
def qwait (s : State) : Nat := ((Tab.vals s.dec.slots).filter (fun x => x.full && x.engine.isNone && !x.capped)).length

/-- The iteration cap for a backlog of `q` (R151). -/
def iterCap (s : State) (q : Nat) : Nat :=
  let hi := max 1 (min 32 (fld F.DEC_ITER_FAST_MAX 0 s))
  let lo := min hi (fld1 F.DEC_ITER_FAST_MIN 0 s)
  let ql := fld F.DEC_ITER_QLO 0 s
  if q ≤ ql then hi else max lo (hi - (q - ql) / fld1 F.DEC_ITER_QSTEP 0 s)

/-- The cap that the next codeword receives: the backlog leaves that codeword out (R151). -/
def nextCap (s : State) : Nat := iterCap s (qwait s - 1)

/-- Wake engine `e` if the limit permits (R152, R172). -/
def engWake (e : Nat) (s : State) : State :=
  let x := eng s e
  if x.awake || x.waking || engFenced s e || engLimit s e ≤ engAwake s e then s
  else setEng e { x with waking := true } s

/-- A slot is taken by lane `n` for sector `psa` of its operation (R149). -/
def takeSlot (k n : Nat) (s : State) : State :=
  match (lane s n).op with
  | none => s
  | some o =>
    match item s o.owner with
    | none => s
    | some x =>
      let s := setSlot k ⟨⟨x.req, o.psa⟩, x, n, o.retry, 0, [], false, 0, none, 0, false⟩ s
      setLane n { lane s n with slot := some k, waitSlot := false } s

/-- A slot has been freed. -/
def releaseSlot (k : Nat) (s : State) : State := freeSlot k s

/-! ### The ladder (R158–R168) -/

/-- Saturation of an accumulated LLR (R159). -/
def sat511 (x : Int) : Int := max (-511) (min 511 x)

/-- A read's soft words added to a context; its runs are recomputed from the combined flags (R159). -/
def addRead (soft : List Byte) (c : Ctx) : Ctx :=
  if soft.isEmpty then c
  else
    let acc := if c.acc.isEmpty then soft.map softVal else List.zipWith (fun a b => sat511 (a + softVal b)) c.acc soft
    let eras := if c.acc.isEmpty then soft.map (·.msb) else List.zipWith (fun e (b : Byte) => e && b.msb) c.eras soft
    { c with acc := acc, eras := eras, runs := runsOf eras, reads := c.reads + 1 }

/-- The ladder of context `c` ends without recovery: final status of R168, zero landing, context freed. -/
def ladderFail (c : Nat) (s : State) : State :=
  match ctx s c with
  | none => s
  | some x =>
    let st := if x.abort then 6 else if x.skipLr then 4 else if x.skipTmax then 5 else 3
    let w := resultWord st x.lstep x.reads x.iters 0 x.eng (x.last.getD 0) true x.lstat
    let s := freeCtx c s
    if x.abort then sectorFinal x.it x.key.psa w 0 0 [] s
    else deliverZero x.it x.key.psa w (tallyDev 19 1 (count F.DEC_CNT_UNC_COUNT 0 s))

/-- The ladder of context `c` recovers its sector by a decode on engine `e`. -/
def ladderOk (c e : Nat) (d : Decoded) (blk : List Byte) (s : State) : State :=
  match ctx s c with
  | none => s
  | some x =>
    let st := if x.abort then 6 else 1
    let w := resultWord st x.lstep x.reads d.iters (if x.abort then 0 else d.flips) e (x.last.getD 0) true x.lstat
    let s := freeCtx c { s with dec := { s.dec with mse := x.mse } }
    if x.abort then sectorFinal x.it x.key.psa w 0 0 [] s
    else deliver x.it x.key.psa w blk (put F.DEC_STEP_OK_COUNT x.lstep (min (2 ^ 32 - 1) (fld F.DEC_STEP_OK_COUNT x.lstep s + 1)) s)

/-- Both recovery engines are fenced. -/
def drFenced (s : State) : Bool := engFenced s 16 && engFenced s 17

/-- Eligible heads of the sector's surface that have not read it for this read. -/
def otherHeads (s : State) (x : Ctx) : List Nat :=
  ((List.range 4).map (fun a => 16 * a + psaSurf x.key.psa)).filter (fun h => eligible s h && !x.used.contains h)

/-- The head of the last read is eligible. -/
def lastHeadOk (s : State) (x : Ctx) : Bool := match x.last with
  | none => false
  | some h => eligible s h

/-- Step `ty` cannot run for the context (R164). -/
def stepSkipped (s : State) (x : Ctx) (ty : Nat) : Bool :=
  let f := psaSurf x.key.psa
  let noRead := bit F.SPR_SURF_UNREACH_UNREACH 0 f s || rfenced s f (psaTrack x.key.psa)
  match ty with
  | 1 | 5 => x.reads == 0 || drFenced s
  | 2 | 4 => noRead || !lastHeadOk s x
  | 3 => noRead || (otherHeads s x).isEmpty
  | 6 => x.it.nopar
  | _ => false

/-- A retry read of the context's sector enters the scheduler with the class and age of the read it retries (R163). -/
def issueRetry (c : Nat) (x : Ctx) (hd : Option Nat) (avoid : List Nat) (ofs : Int) (s : State) : State :=
  addItem { x.it with mem := [(psaSurf x.key.psa, psaSector x.key.psa)], count := 1, runs := [], track := psaTrack x.key.psa,
                      zone := psaZone x.key.psa, head := hd, avoid := avoid, retry := some c, opofs := ofs, aborted := false,
                      media := true } s

/-- One attempt of step `k` (R162). -/
def attempt (c k : Nat) (x : Ctx) (s : State) : State :=
  let ty := fld F.DEC_LADDER_TYPE k s
  let par := fld F.DEC_LADDER_PARAM k s
  let x := { x with step := k, tries := x.tries + 1, lstep := k, nonMedia := 0 }
  let job := fun (j : JobKind) (s : State) =>
    { (setCtx c { x with wait := .job j, ready := s.dec.order } s) with dec := { (setCtx c { x with wait := .job j, ready := s.dec.order } s).dec with order := s.dec.order + 1 } }
  match ty with
  | 1 => job .redecode s
  | 5 => job (.erase (par % 256) (par / 256)) s
  | 2 => issueRetry c x x.last [] 0 (setCtx c { x with wait := .reread } s)
  | 3 => issueRetry c x none x.used 0 (setCtx c { x with wait := .reread } s)
  | 4 => issueRetry c x x.last [] (sext 8 (par % 256)) (setCtx c { x with wait := .reread } s)
  | _ => sprParity c (setCtx c { x with wait := .parity } s)

/-- The ladder moves on from step `k` with `fuel` steps left to look at (R162–R168). That the repeats left of a step that has begun when TMAX
passes are skipped, and give UNC_TIME, is the model's choice (DESIGN CHOICE, log entry 60). -/
def ladderFrom : Nat → Nat → Nat → State → State
  | 0, c, _, s => ladderFail c s
  | fuel + 1, c, k, s =>
    match ctx s c with
    | none => s
    | some x =>
      let ty := fld F.DEC_LADDER_TYPE k s
      let rep := fld1 F.DEC_LADDER_REPEAT k s
      let next := fun (x : Ctx) (s : State) => ladderFrom fuel c (k + 1) (setCtx c { x with step := k + 1, tries := 0 } s)
      if 16 ≤ k || ty = 0 || 7 ≤ ty || x.abort || (x.it.cls == 3 && x.it.nopar && fld F.SPR_CRUISE_CTL_LAD_REF 0 s < k) then ladderFail c s
      else if rep ≤ x.tries then next x s
      else if x.it.lr && (fld F.DEC_LADDER_CTL_LR_LAST 0 s < k || (ty == 6 && !flag F.DEC_LADDER_CTL_LR_PARITY 0 s)) then
        next { x with skipLr := true } s
      else if x.tmax && ty != 6 then next { x with skipTmax := true } s
      else if stepSkipped s x ty then next x s
      else attempt c k x s

/-- The ladder of context `c` moves to its next attempt or step, or ends. -/
def ladderStep (c : Nat) (s : State) : State := match ctx s c with
  | none => s
  | some x => ladderFrom 17 c x.step s

/-- The result of a sector that never entered the ladder is dropped: a plain re-read, with what its result word will say of this one, read
by head `hd` (R154, R158, R170). -/
def plainReread (x : Item) (psa hd : Nat) (p : Past) (media : Bool) (s : State) : State :=
  if x.aborted then sectorFinal x psa (resultWord 6 0 0 p.iters 0 p.eng hd false p.lstat) 0 0 [] s
  else
    let key : ReadKey := ⟨x.req, psa⟩
    let s := { s with dec := { s.dec with past := (key, { p with heads := p.heads ++ [hd] }) :: s.dec.past.filter (fun e => e.1 != key) } }
    addItem { x with mem := [(psaSurf psa, psaSector psa)], count := 1, runs := [], track := psaTrack psa, zone := psaZone psa,
                        head := none, retry := none, opofs := 0, media := media } s

/-- A sector enters the ladder: it takes a free context, from slot `k` when its read had soft words, or goes back for a
plain re-read that counts as a media retry when no context is free (R158). -/
def ladderEnter (x : Item) (psa : Nat) (k : Option Nat) (hd : Nat) (p : Past) (s : State) : State :=
  match lowestFree s.dec.ctxs 32 with
  | none =>
    let s := match k with | some k => releaseSlot k s | none => s
    plainReread x psa hd p true (count F.DEC_ERR_NOCTX 0 s)
  | some c =>
    let y : Ctx := ⟨⟨x.req, psa⟩, x, [], [], 0, p.heads ++ [hd], some hd, 0, 0, 0, false, false, false,
      (match k with | some k => .copy k | none => .step), 0, 0, p.iters, p.eng, p.lstat, s.time, x.aborted,
      ((k.bind (slot s)).map (fun sl => bitsOf sl.res 31 16)).getD 0, []⟩
    let s := setCtx c y (put F.DEC_CNT_LAD_COUNT 0 (fld F.DEC_CNT_LAD_COUNT 0 s + 1) s)
    match k with
    | some k => match slot s k with
      | some sl => setSlot k { sl with capped := true, engine := none } s
      | none => s
    | none => ladderStep c s

/-- A retry read of context `c` ended without convergence: with ACC its soft words, if it had any, join the context and a combined decode follows
when READS is 2 or more; else the attempt is over, and so is a ladder whose read was aborted (R163, R169). -/
def retryFailed (c : Nat) (soft : List Byte) (s : State) : State :=
  match ctx s c with
  | none => s
  | some x =>
    let acc := flag F.DEC_LADDER_ACC x.step s && !drFenced s
    let x := if acc then addRead soft x else x
    if acc && 2 ≤ x.reads && !x.abort then
      let s := setCtx c { x with wait := .job .combined, ready := s.dec.order } s
      { s with dec := { s.dec with order := s.dec.order + 1 } }
    else ladderStep c (setCtx c { x with wait := .step } s)

/-- A sector read ended in a non-media failure (R154): a retry read is issued once more within its repeat, unless its read was aborted (R169); a
first read returns for a plain re-read, and the fourth failure enters the ladder with an empty context. That the head of a REREAD_OTHER that
failed so stays among those its second issue may take is the model's choice (DESIGN CHOICE, log entry 60). -/
def nonMediaFail (x : Item) (psa hd lstat : Nat) (retry : Option Nat) (s : State) : State :=
  match retry with
  | some c => match ctx s c with
    | none => s
    | some y =>
      if y.nonMedia = 0 && !y.abort then
        let y := { y with nonMedia := 1 }
        addItem { x with mem := [(psaSurf psa, psaSector psa)], count := 1, runs := [], st := .ready } (setCtx c y s)
      else ladderStep c (setCtx c { y with wait := .step } s)
  | none =>
    let key : ReadKey := ⟨x.req, psa⟩
    let n := ((s.dec.missTab.find? (fun e => e.1 == key)).map (·.2)).getD 0 + 1
    let tab := s.dec.missTab.filter (fun e => e.1 != key)
    let p := pastOf s key lstat
    if n < 4 then plainReread x psa hd p false { s with dec := { s.dec with missTab := (key, n) :: tab } }
    else ladderEnter x psa none hd p { s with dec := { s.dec with missTab := tab } }

/-- With both recovery engines fenced, the attempts whose jobs wait end unsuccessful (R169). -/
def drFail (s : State) : State :=
  if !drFenced s then s
  else each (s.dec.ctxs.filter (fun e => match e.2.wait with | .job _ => true | _ => false)) (fun e s => match ctx s e.1 with
    | some y => ladderStep e.1 (setCtx e.1 { y with wait := .step } s)
    | none => s) s

/-- The pool receives a sector's lane result (R154). `k` is its slot when its soft words were sent. -/
def poolSector (x : Item) (psa hd w : Nat) (soft : List Byte) (retry : Option Nat) (k : Option Nat) (s : State) : State :=
  let st := bitsOf w 63 56
  let free := fun (s : State) => match k with | some k => releaseSlot k s | none => s
  let p := pastOf s ⟨x.req, psa⟩ st
  let note := fun (s : State) => match retry with
    | some c => match ctx s c with
      | some y => setCtx c { y with used := y.used ++ [hd], last := some hd, mse := bitsOf w 31 16 } s
      | none => s
    | none => s
  if st = 0 || st = 2 then
    match k with
    | none => s
    | some k => match slot s k with
      | none => s
      | some sl =>
        let s := setSlot k { sl with res := w, soft := soft, full := true, ready := s.dec.order } (note s)
        { s with dec := { s.dec with order := s.dec.order + 1 } }
  else if st = 3 then
    match retry with
    | some c => retryFailed c soft (free (note s))
    | none => match k with
      | some k => match slot s k with
        | some sl => ladderEnter x psa (some k) hd p (setSlot k { sl with res := w, soft := soft, full := true } s)
        | none => s
      | none => s
  else if st = 1 then
    match retry with
    | some c => retryFailed c [] (free (note s))
    | none => ladderEnter x psa none hd p (free s)
  else nonMediaFail x psa hd st retry (free (note s))

end Sys2Proof.Machine
end

