-- ==== Sys2Proof/Machine/OpsRead.lean ====
section
/-! DEFINITION. Descriptors of surface parity as they are taken, reads of units from their newest copies, the judging of stripe reads, and
the passes of host stripes (R238–R281, R342, R343). -/

namespace Sys2Proof.Machine

open Sys2Proof

/-! ### Reads of units (R259, R264) -/

/-- Where the newest copy of a unit stands. -/
inductive Newest where
  | held (body : List Byte)               -- in the protected region, or the deallocated-block fill
  | stg (seq slot : Nat)                  -- in a staging stripe
  | main (zone k surf psa : Nat)          -- in the main area, after relocation

/-- The newest copy of unit `u` (R259, R342). -/
def newest (s : State) (nsid u : Nat) : Newest :=
  let r := nsEnt s nsid
  match cacheCopy s nsid r.gen u with
  | some b => .held b
  | none => match imageCopy s nsid u with
    | some b => .held b
    | none => match stagedCopy s nsid r.gen u with
      | some e => .stg e.seq e.slot
      | none =>
        if isFill s nsid u then .held (fillBody s nsid)
        else
          let n := dataOf r.red
          let zk := relocate s false (nsStripe s r (u / n))
          let f := surfOf s zk.1 zk.2 (u % n)
          .main zk.1 zk.2 f (memberPsa s zk.1 zk.2 f)

/-- A unit delivered with its status from a body. -/
def unitGive (id i st : Nat) (body : List Byte) (s : State) : State :=
  match sprOp s id with
  | none => s
  | some x => unitEnd id i st (unitStore x i body s)

/-- The status of a unit rebuilt to `body`: LOST where that is a lost sector's contents (R244, R265, R267). -/
def rebuiltSt (body : List Byte) : Nat := if lostBody body then 3 else 1

/-- A stripe read for an operation met sectors that entered the retry ladder: the operation did (R369). -/
def noteLadder (id : Nat) (r : StripeRd) (s : State) : State :=
  let hit := r.mem.any (fun e => match e.2 with
    | .got _ w _ => w.testBit 12
    | .erased w => w.testBit 12
    | _ => false)
  match sprOp s id with
  | none => s
  | some x => setOp { x with lad := x.lad || hit } s

/-- The read of one staged unit: the whole staging stripe is read (R253, R264). -/
def startStaged (x : SprOp) (i seq slot : Nat) (s : State) : State :=
  if stgTotal s = 0 then unitEnd x.id i 5 s
  else
    let zk := stgPlace s (seq % stgTotal s)
    startRead (.stg x.id i slot seq) zk.1 zk.2 2 none (opWant x) s

/-- Unit `u`, index `i` of an operation, is read, unless it stands on media where it can be read directly. -/
def unitBegin (x : SprOp) (i u : Nat) (s : State) : State :=
  match newest s x.nsid u with
  | .held b => unitGive x.id i 0 b s
  | .stg seq slot => startStaged x i seq slot s
  | .main z k f psa =>
    if !stripeOk s z k then unitEnd x.id i 5 (report 184 none 7 5 psa 0 s)
    else if absent s z k f then startRead (.unit x.id i) z k (nsEnt s x.nsid).red (some f) (opWant x) s
    else s

/-- A unit that is read directly: its index in the operation, and the zone, stripe, surface and PSA of its member. -/
structure UnitAt where
  i : Nat
  z : Nat
  k : Nat
  f : Nat
  psa : Nat
deriving DecidableEq, Repr

/-- The member that unit `e`, index and number, is read from directly. -/
def unitDirect (s : State) (x : SprOp) (e : Nat × Nat) : Option UnitAt :=
  match newest s x.nsid e.2 with
  | .main z k f psa => if stripeOk s z k && !absent s z k f then some ⟨e.1, z, k, f, psa⟩ else none
  | _ => none

/-- Track of stripe `k` of zone `z`. -/
def trackOf (s : State) (z k : Nat) : Nat := ((zoneOf s z).map (fun zn => stripeTrack zn k)).getD 0

/-- The stripes of one track between the first and the last from which units `l` want the member on surface `f`. -/
def runOn (l : List UnitAt) (f : Nat) : List Nat :=
  let ks := (l.filter (fun d => d.f == f)).map (·.k)
  let lo := ks.foldl min (ks.headD 0)
  (List.range (ks.foldl max 0 + 1 - lo)).map (lo + ·)

/-- The item that reads units `l` of one track on surfaces `g` for operation `x`: a run of sectors on each surface, without those in between that are
no unit's, such as parity (R376, R377). -/
def trackItem (s : State) (x : SprOp) (l : List UnitAt) (g : List Nat) : Item :=
  let z := (l.map (·.z)).headD 0
  let dst := (l.filter (fun d => g.contains d.f)).map (fun d => (d.psa, x.buf + 4096 * d.i, if x.meta' = 0 then 0 else x.meta' + 64 * d.i))
  let n := (g.map (fun f => (runOn l f).length)).foldl max 1
  let gaps := g.flatMap (fun f => ((runOn l f).filter (fun k => !l.any (fun d => d.f == f && d.k == k))).map (fun k => memberPsa s z k f))
  let it := readItem s z ((l.map (·.k)).headD 0) (2 * x.id) (opWant x) false g dst
  { it with
    mem := g.map (fun f => (f, psaSector (memberPsa s z ((runOn l f).headD 0) f)))
    count := n
    runs := (g.filter (fun f => (runOn l f).length < n)).map (fun f => (f, (runOn l f).length))
    holes := gaps }

/-- The units `us`, with their indices, of a read operation: members read directly go to the scheduler as one item for each track and
arm that serves it; the others are delivered, rebuilt or refused one by one (R247, R259, R264, R376, R377). -/
def readUnits (x : SprOp) (us : List (Nat × Nat)) (s : State) : State :=
  let ds := us.filterMap (unitDirect s x)
  let x := { x with units := ds.map (fun d => (d.i, d.psa)) }
  let s := setOp x s
  let s := each ((ds.map (fun d => (d.z, trackOf s d.z d.k))).eraseDups) (fun zt s =>
    let here := ds.filter (fun d => d.z == zt.1 && trackOf s d.z d.k == zt.2)
    each (splitArms s (here.map (·.f)).eraseDups) (fun g s => addItem (trackItem s x here g) s) s) s
  each us (fun e s => if ds.any (fun d => d.i == e.1) then s else unitBegin x e.1 e.2 s) s

/-- An operation that reads units for a host command in context slot `k` (R264, R376). -/
def cmdRead (k fn nsid buf md : Nat) (lr : Bool) (us : List (Nat × Nat)) (s : State) : State :=
  let r := sprId s
  let x : SprOp := ⟨r.1, 0, 1, fn, 0, nsid, lr, false, false, false, us.length, 0, buf, md, 0, 0, [], [], 0, 0, 0, false, some k,
    ((cmd s k).map (·.t)).getD s.time, 0, false⟩
  let s := match cmd r.2 k with
    | some c => setCmd { c with op := some r.1 } r.2
    | none => r.2
  readUnits x us s

/-! ### Taking descriptors (R280) -/

/-- Entries of the ring. -/
def ringSize (s : State) : Nat := 2 ^ (min 8 (fld F.SPR_RING_CTL_SIZE 0 s) + 4)

/-- The descriptor at the front of the ring as it stands in shared SRAM; none while SPR takes none or OWN is 0. -/
def descNext (s : State) : Option SprOp :=
  let a := fld F.SPR_RING_BASE_ADDR 0 s * 64 + 64 * (fld F.SPR_RING_CTL_NEXT 0 s % ringSize s)
  let b := sramRead s a 64
  let fl := le b 1 1
  if s.spr.look && flag F.SPR_CTL_ENABLE 0 s && fl.testBit 0 then
    some ⟨0, a, le b 0 1, le b 6 2 % 64, le b 6 2 / 256 % 8, le b 2 2, fl.testBit 1, fl.testBit 2, fl.testBit 4, fl.testBit 3, le b 5 1,
      le b 8 8, le b 0x10 8, le b 0x18 8, le b 0x20 8, le b 0x38 8, [], [], 0, 0, 0, false, none, s.time, 0, false⟩
  else none

/-- SPR finds no descriptor with OWN set, and looks again at the next doorbell (R280). -/
def descIdle (s : State) : State := if flag F.SPR_CTL_ENABLE 0 s then { s with spr := { s.spr with look := false } } else s

/-- The descriptor is taken: it has a number, and NEXT moves on. -/
def descTake (x : SprOp) (s : State) : SprOp × State :=
  let r := sprId s
  ({ x with id := r.1 }, put F.SPR_RING_CTL_NEXT 0 ((fld F.SPR_RING_CTL_NEXT 0 s + 1) % ringSize s) r.2)

/-! ### Staging (R252, R254, R261) -/

/-- Entry `j` of a WRITE_STG descriptor in its layout of R252. -/
def stgEntryBytes (s : State) (x : SprOp) (j : Nat) : List Byte := hwBytes s (x.aux + 32 * j) 32

/-- The entries of a WRITE_STG descriptor with the bodies of its units. -/
def stgEntries (s : State) (x : SprOp) : List StgEntry :=
  ((List.range x.count).foldl (fun (acc : List StgEntry × Nat) j =>
    let b := stgEntryBytes s x j
    let unit := le b 0 1 = 1
    (acc.1 ++ [⟨le b 0 1, le b 2 2, le b 4 4, le b 8 8 % 2 ^ 45, le b 0x10 4, le b 0x14 2, le b 0x16 2,
      (if unit then stgBody s (le b 2 2) x.buf x.meta' acc.2 else []), x.id, s.time,
      x.buf + 4096 * acc.2, if x.meta' = 0 then 0 else x.meta' + 64 * acc.2⟩], if unit then acc.2 + 1 else acc.2)) ([], 0)).1

/-- An entry passes the checks of R281. -/
def stgEntryOk (s : State) (e : StgEntry) : Bool :=
  let r := nsEnt s e.nsid
  (e.ty == 1 || e.ty == 2 || e.ty == 3) && r.valid && r.gen == e.nsGen && (e.ty != 1 || e.unit < r.units)

/-- The open group of an entry. -/
def groupOf (s : State) (e : StgEntry) : Option StgGroup :=
  s.spr.groups.find? (fun g => g.nsid == e.nsid && g.nsGen == e.nsGen && g.atom == e.atom)

/-- The group of a UNIT entry opens, or takes its unit. -/
def groupTake (e : StgEntry) (s : State) : State :=
  if e.ty ≠ 1 || e.atom = 0 then s
  else match groupOf s e with
    | none => { s with spr := { s.spr with groups := s.spr.groups ++ [⟨e.nsid, e.nsGen, e.atom, [e.unit]⟩] } }
    | some g => { s with spr := { s.spr with groups := s.spr.groups.map (fun h => if h == g then { g with units := g.units ++ [e.unit] } else h) } }

/-- Groups that a descriptor's entries would open. -/
def groupsNew (s : State) (es : List StgEntry) : Nat :=
  (((es.filter (fun e => e.ty == 1 && e.atom != 0 && (groupOf s e).isNone)).map (fun e => (e.nsid, e.nsGen, e.atom))).eraseDups).length

/-- A WRITE_STG descriptor that passed its checks: it waits while it would open a 257th group, else its entries wait for their staging
stripe, and full stripes, or all of them with FLUSH, are dispatched (R254, R261). -/
def stgTakeOp (x : SprOp) (s : State) : State :=
  let es := stgEntries s x
  if 256 < s.spr.groups.length + groupsNew s es then setOp { x with waits := true } s
  else
    let s := each es groupTake (setOp { x with waits := false, left := es.length } s)
    let s := { s with spr := { s.spr with waiting := s.spr.waiting ++ es } }
    if x.flush then stgFlushAll s else stgFlushFull s

/-! ### What the sector feed reads (R118, R138, R140, R248) -/

/-- The UNIT entry whose unit stands in role slot `j` of a staging pass. -/
def slotEntry (p : Pass) (j : Nat) : Option StgEntry := if j = 0 then none else (p.entries.filter (fun e => e.ty == 1))[j - 1]?

/-- The data bodies of a pass as the landing holds them: an in-place pass writes its image, which stands in the protected region (R248), a staging
pass the units where its descriptors left them (R118, R138). -/
def passBodies (s : State) (p : Pass) : List (List Byte) :=
  (List.range (dataOf p.red)).map (fun j =>
    let held := (((List.range 16).find? (fun f => roleOf s p.zone p.k f = j)).bind (Tab.get? p.mem)).map (·.body)
    match slotEntry p j with
    | some e => stgBody s e.nsid e.buf e.md 0
    | none => held.getD zeroBody)

/-- The block of the member that item `it` writes on surface `f`, as the landing holds it at the feed. -/
def feedBlock (s : State) (it f : Nat) : Option MemBlk :=
  match (Tab.vals s.spr.passes).find? (fun p => p.item == some it), passBlock s it f with
  | some p, some m =>
    if p.entries.isEmpty then some m
    else
      let ds := passBodies s p
      let j := roleOf s p.zone p.k f
      some { m with body := if j < dataOf p.red then ds.getD j zeroBody else if j = dataOf p.red then parityP ds else parityQ ds }
  | _, _ => none

/-- The landing granules that a feed reads, by index 0 to 63 for data and 64 for metadata: those of a staged unit; where an image stands in the
protected region is open. -/
def feedGranule (s : State) (it f i : Nat) : Nat :=
  match ((Tab.vals s.spr.passes).find? (fun p => p.item == some it)).bind (fun p => slotEntry p (roleOf s p.zone p.k f)) with
  | some e => if i < 64 then e.buf / 64 + i else e.md / 64
  | none => (Config.openVal 140 [(it : Int), (f : Int), (i : Int)]).toNat

/-- The granules of a feed are read, each with its outcome: POISON bits that uncorrectable ones set, and what is recorded (R139, R140, R411). -/
def feedEcc (it f : Nat) (ecc : List Ecc) (s : State) : Nat × State :=
  ecc.zipIdx.foldl (fun x e =>
    let r := eccRead 8 (feedGranule s it f e.2) e.1 x.2
    (if !r.1 then x.1 else if e.2 < 64 then putBit x.1 e.2 true else 2 ^ 64 - 1, r.2)) (0, s)

/-! ### In-place passes (R246, R248, R260, R343) -/

/-- Stripes on all early lists. -/
def earlyCount (s : State) : Nat := ((Tab.vals s.deck.nss).map (fun r => r.early.length)).foldl (· + ·) 0

/-- While the early lists are full drive firmware keeps GOV_PRESS.EARLY set, which boosts the destage class (R343, R386). -/
def earlyPress (s : State) : State := put F.GOV_PRESS_EARLY 0 (decide (16384 ≤ earlyCount s)).toNat s

/-- Namespace stripe `n` of namespace `nsid` is put on its early list when it lies at or above the fill watermark (R343). -/
def earlyPut (nsid n : Nat) (s : State) : State := match nsr s nsid with
  | none => s
  | some r => if r.fill ≤ n && !r.early.contains n then earlyPress (setNs nsid { r with early := r.early ++ [n] } s) else s

/-- No pass but fill goes into namespace stripe `n`, at or above the watermark, while the early lists are full (R343). -/
def earlyHolds (s : State) (nsid n : Nat) : Bool := match nsr s nsid with
  | none => false
  | some r => r.fill ≤ n && 16384 ≤ earlyCount s

/-- The bodies of a WRITE_STRIPE descriptor are the deallocated-block fill throughout: a fill pass (R342). -/
def fillPass (s : State) (x : SprOp) : Bool :=
  (List.range (dataOf (nsEnt s x.nsid).red)).all (fun j => stgBody s x.nsid x.buf x.meta' j == fillBody s x.nsid)

/-- The pass of a WRITE_STRIPE descriptor may not be dispatched yet: the early lists are full (R343). -/
def earlyFull (s : State) (x : SprOp) : Bool := earlyHolds s x.nsid (x.addr / dataOf (nsEnt s x.nsid).red) && !fillPass s x

/-- A WRITE_STRIPE descriptor that passed its checks: held while a group covers its stripe, while the lost ring has no room, or while the
early lists are full; else its in-place pass starts and holds its image, and units whose destage reads ended UNREC are reported
(R246, R248, R260, R262, R275). -/
def stripeStart (x : SprOp) (s : State) : State :=
  let r := nsEnt s x.nsid
  let n := dataOf r.red
  if groupCovers s x.nsid x.addr n || earlyFull s x then setOp { x with waits := true } s
  else
    let ds := (List.range n).map (stgBody s x.nsid x.buf x.meta')
    let lost := if x.cls = 1 then (List.range n).filter (fun j => lostBody (ds.getD j []) && s.spr.unrec.contains (x.nsid, x.addr + j)) else []
    if lostRoom s < lost.length then setOp { x with waits := true } s
    else
      let s := setOp { x with waits := false } s
      let s := each lost (fun j s => lostRecord x.nsid (x.addr + j) 3 r.gen s) (tallyDev 20 lost.length s)
      let zk := nsStripe s r (x.addr / n)
      let wz := relocate s true zk
      let fill := fillPass s x
      let s := if fill then s else earlyPut x.nsid (x.addr / n) s
      let q := sprId s
      let mem := passMembers s wz.1 wz.2 r.red 0 ds (fun j => bodyFlags s x.nsid (ds.getD j []))
      let p : Pass := ⟨q.1, .stripe x.id, wz.1, wz.2, zk.1, zk.2, r.red, x.nsid, mem, x.cls, x.fn, x.urgent, 0, none, false, false, none, 0, [], r.gen,
        some x.buf, x.t⟩
      let s := each (List.range n) (fun j s => noteUnrec x.nsid (x.addr + j) false s) q.2
      if passRefused s p then opEnd x 1 (passReport p (setPass { p with ended := true } s))
      else passStart p s

/-- Descriptors held for reasons that may have ended are looked at again: WRITE_STG ones that wait for a group, WRITE_STRIPE ones that
wait for the lost ring or the early lists. -/
def resumeOps (s : State) : State :=
  each (Tab.vals s.spr.ops) (fun x s =>
    if !x.waits then s
    else if x.op = 3 then stgTakeOp x s
    else if x.op = 4 && !groupCovers s x.nsid x.addr (dataOf (nsEnt s x.nsid).red) then stripeStart x s
    else s) s

/-! ### Judging a stripe read (R245, R272) -/

/-- Every member read of the stripe has ended. -/
def readDone (r : StripeRd) : Bool := r.mem.all (fun e => match e.2 with | .wait => false | _ => true)

/-- Stale members met are counted (R245). -/
def countStale (r : StripeRd) (s : State) : State := countN F.SPR_ERR_STALE 0 (staleCount r) s

/-- Erased data slots of a stripe. -/
def erasedData (s : State) (r : StripeRd) : List Nat := (List.range (dataOf r.red)).filter (fun j => (memBySlot s r j).isNone)

/-- The data bodies after rebuild, erased data members that cannot be rebuilt as lost sectors, and the slots so lost (R272). -/
def judged (s : State) (r : StripeRd) : List (List Byte) × List Nat := match stripeData s r with
  | some ds => (ds, [])
  | none => ((List.range (dataOf r.red)).map (fun j => (memBySlot s r j).getD lostSector), erasedData s r)

/-- A copy of a unit that is newer than the main area's and that a pass of salvage or cruise carries with it: the image of an in-place pass, or the
newest committed staged entry (R259, R260). -/
def newerCopy (s : State) (nsid u : Nat) : Option (List Byte) :=
  (imageCopy s nsid u).orElse (fun _ => (stagedCopy s nsid (nsEnt s nsid).gen u).map (·.body))

/-- The newer copies of a stripe's units laid over its bodies (R260). -/
def withStaged (s : State) (nsid n : Nat) (ds : List (List Byte)) : List (List Byte) :=
  ds.zipIdx.map (fun e => (newerCopy s nsid (n * dataOf (nsEnt s nsid).red + e.2)).getD e.1)

/-! ### Stripes that leave the salvage batch (R268, R270, R271, R277) -/

/-- The relocation entry of the salvage job. -/
def jobEnt (s : State) : RelocEnt := relocEnt s (fld F.SPR_SALV_CTL_ENTRY 0 s)

/-- The relocation bit of the stripe the pass covers is set; a job's page changes with it (R268, R276). -/
def relocDone (z k : Nat) (s : State) : State := match relocFor s z k with
  | none => s
  | some (_, x) =>
    let i := k - x.firstK
    if relocBit s x i then s
    else
      let a := x.bitmap + i / 8
      c4Change 0 (hwWrite 7 a [((hwBytes s a 1).headD 0) ||| byte (2 ^ (i % 8))] 0 0 s)

/-- The stripe holds no data: owned by no namespace, or still fill (R271, R343). -/
def unowned (s : State) (z k : Nat) : Bool := match ownerOf s z k with
  | none => true
  | some (nsid, n) => match nsr s nsid with
    | none => false
    | some r => r.fill ≤ n && !r.early.contains n

/-- POS moves past stripes whose bit is 1 (R270). -/
def salvAdvance (s : State) : State :=
  let x := jobEnt s
  let p := fld F.SPR_SALV_POS_POS 0 s
  let q := ((List.range (x.count - p)).find? (fun i => !relocBit s x (p + i))).getD (x.count - p)
  put F.SPR_SALV_POS_POS 0 (p + q) s

/-- What log page C4h shows of the relocation table: its VALID entries (R276). -/
def relocJobs (s : State) : List (Nat × Nat × Nat × Nat × Nat × Nat) :=
  (((List.range (relocCount s)).map (relocEnt s)).filter (·.flags.testBit 0)).map (fun x => (x.surf, x.zone, x.firstK, x.count, x.bitmap, x.flags % 4))

/-- What follows from the relocation table as it now stands in shared SRAM, where it stood as in `old`: a change of the page (R276), DEGRADED (R247,
R371), and the place of a job that has no batch in hand, found again over its bitmap (R270). -/
def relocSeen (old s : State) : State :=
  let s := if relocJobs s = relocJobs old then s else c4Change 0 s
  let st := fld F.SPR_SALV_STAT_STATE 0 s
  degradedUpdate (if (st = 1 || st = 2) && s.spr.batch.isEmpty then salvAdvance (wr R.SPR_SALV_POS 0 0 0 s) else s)

/-- A batch that is complete carries out a PAUSE or an ABORT that waits for it (R270). -/
def batchDone (s : State) : State :=
  if !s.spr.batch.isEmpty || fld F.SPR_SALV_STAT_STATE 0 s ≠ 1 then s
  else
    let go := fun (st : Nat) (s : State) =>
      c4Change 0 { (salvSet st s) with spr := { (salvSet st s).spr with pausing := false, aborting := false } }
    if s.spr.aborting then go 4 s else if s.spr.pausing then go 2 s else s

/-- Stripe `i` leaves the batch and its choker is released; POS moves on (R271 steps 6 and 7). -/
def salvLeave (i : Nat) (s : State) : State :=
  batchDone (salvAdvance (chkRelease (.salv i) { s with spr := { s.spr with batch := s.spr.batch.filter (fun e => e.1 != i) } }))

/-- Stripe `i` of the job needs no media work any more: it holds no data, which its bit then says, or its bit has been set meanwhile (R271, R277). -/
def salvSkip (i : Nat) (s : State) : State :=
  let x := jobEnt s
  salvLeave i (if unowned s x.zone (x.firstK + i) then relocDone x.zone (x.firstK + i) s else s)

/-! ### Passes that were held (R260, R277, R343) -/

/-- Data body of role slot `j` in a pass's image. -/
def passBody (s : State) (p : Pass) (j : Nat) : List Byte :=
  ((Tab.get? p.mem (surfOf s p.zone p.k j)).map (·.body)).getD []

/-- The namespace stripe that a pass writes, while it is still the same namespace's. -/
def passOwner (s : State) (p : Pass) : Option Nat := match ownerOf s p.zone0 p.k0 with
  | some (nsid, n) => if nsid = p.nsid && (nsEnt s nsid).gen = p.nsGen && !unowned s p.zone0 p.k0 then some n else none
  | none => none

/-- A pass of salvage or cruise with the newer copies that its units have by now (R260). -/
def passLaid (s : State) (n : Nat) (p : Pass) : Pass :=
  let ds := (List.range (dataOf p.red)).map (passBody s p)
  let es := withStaged s p.nsid n ds
  if es == ds then p
  else { p with mem := passMembers s p.zone p.k p.red (if (salvOf p).isSome then 8 else 0) es (fun j => bodyFlags s p.nsid (es.getD j [])) }

/-- A held pass could go on: none over its stripe is before it, and salvage has judged its whole batch (R271, R277). -/
def passReady (s : State) (p : Pass) : Bool :=
  p.hold && !p.ended && !passBehind s p && ((salvOf p).isNone || s.spr.batch.all (fun e => e.2 == .write))

/-- A held pass goes on. One over units of a group opened meanwhile, or over a stripe that the full early lists bar, is held for that; salvage and
cruise take in what has become newer, and give up a stripe whose namespace is gone (R260, R277, R343). -/
def passGo (p : Pass) (s : State) : State :=
  match p.use with
  | .staging _ => passIssue p s
  | .stripe o => match sprOp s o with
    | some x =>
      if groupCovers s x.nsid x.addr (dataOf (nsEnt s x.nsid).red) || earlyFull s x then setOp { x with waits := true } (dropPass p.id s) else passIssue p s
    | none => passIssue p s
  | use => match passOwner s p with
    | some n =>
      let d := dataOf p.red
      if groupCovers s p.nsid (n * d) d || earlyHolds s p.nsid n then s else passIssue (passLaid s n p) s
    | none => match use with
      | .salv i => salvSkip i (dropPass p.id s)
      | _ => cruiseLeave (dropPass p.id s)

/-- Held passes that can go on do, in their order. -/
def startHeld (s : State) : State :=
  each (Tab.vals s.spr.passes) (fun e s => match pass s e.id with
    | some p => if passReady s p then passGo p s else s
    | none => s) s

/-! ### Grants to salvage and cruise (R271, R278) -/

/-- The phase of stripe `i` of the batch. -/
def setPhase (i : Nat) (p : SalvPhase) (s : State) : State :=
  { s with spr := { s.spr with batch := s.spr.batch.map (fun e => if e.1 == i then (i, p) else e) } }

/-- Surfaces of the members of namespace stripe `n`, at stripe `k` of zone `z`, that newest staged entries replace (R271). -/
def stagedSurfs (s : State) (nsid n z k : Nat) : List Nat :=
  let r := nsEnt s nsid
  ((List.range (dataOf r.red)).filter (fun j => (newerCopy s nsid (n * dataOf r.red + j)).isSome)).map (surfOf s z k)

/-- Stripe `i` of the batch has its exclusive choker: one without data, or with its bit set meanwhile, leaves the batch; under R260 it waits for
groups over its units, then it is read (R271, R277). -/
def salvGranted (i : Nat) (s : State) : State :=
  let x := jobEnt s
  if !s.spr.batch.contains (i, .choke) then s
  else if relocBit s x i || unowned s x.zone (x.firstK + i) then startHeld (salvSkip i s)
  else match ownerOf s x.zone (x.firstK + i) with
  | none => s
  | some (nsid, n) =>
    let d := dataOf (nsEnt s nsid).red
    if groupCovers s nsid (n * d) d then s
    else
      let zk := relocate s false (x.zone, x.firstK + i)
      startReadOf (stagedSurfs s nsid n zk.1 zk.2) (.salv i) zk.1 zk.2 (nsEnt s nsid).red none ⟨4, 0, false, false, s.time⟩ (setPhase i .read s)

/-- Salvage stripes whose chokers stand granted and that waited for a group are looked at again. -/
def salvResume (s : State) : State :=
  each s.spr.batch (fun e s => match chkOf s (.salv e.1) with
    | some c => if c.granted then salvGranted e.1 s else s
    | none => s) s

/-- What cruise reads and writes with. -/
def cruiseWant (s : State) : Want := ⟨3, 0, false, false, s.time⟩

/-- The stripe that cruise has in hand is still the same namespace's, and holds data. -/
def cruiseOwns (s : State) (c : Cruise) : Bool := ownerOf s c.zone c.k == some (c.nsid, c.n) && !unowned s c.zone c.k

/-- Cruise has its shared choker: the stripe is read with NOPAR (R278), unless its namespace is gone. -/
def cruiseGranted (s : State) : State := match s.spr.cruise with
  | some c =>
    if !cruiseOwns s c then cruiseLeave s
    else if c.phase = .choke then
      let zk := relocate s false (c.zone, c.k)
      startRead .cruise zk.1 zk.2 (nsEnt s c.nsid).red none (cruiseWant s) { s with spr := { s.spr with cruise := some { c with phase := .read } } }
    else s
  | none => s

end Sys2Proof.Machine
end

