-- ==== Sys2Proof/Machine/OpsEp.lean ====
section
/-! DEFINITION. What the commands of the endpoint share: function resets, fetches of entries, lists and host data, held interrupts and the
commit point of a write (R256, R257, R285, R296–R315, R325–R330, R349, R359, R567). -/

namespace Sys2Proof.Machine

open Sys2Proof

/-! ### Function resets (R313, R359) -/

/-- The registers a function reset leaves: the sticky AER bits. -/
def stickyRegs : List RegDef := [R.CFG_UESTS, R.CFG_UEMASK, R.CFG_UESEV, R.CFG_CESTS, R.CFG_CEMASK, R.CFG_AERCTL, R.CFG_HDRLOG]

/-- The key of a register belongs to the function state of `f` (R313). -/
def fnKey (f k : Nat) : Bool :=
  (R.VFW_STAT :: hostRegs.filter (fun r => !stickyRegs.any (fun q => q.base == r.base))).any (fun r =>
    match r.locate k with
    | some (i, _, _) => i == f
    | none => false)

/-- The function state of `f` at its reset values; a VF keeps the table size of its last time online (R289). -/
def regsReset (f : Nat) (s : State) : State :=
  let n := fld F.MSIX_SIZE f s
  let s := { s with regs := s.regs.filter (fun e => !fnKey f e.1) }
  if f = 0 then s else put F.MSIX_SIZE f n s

/-- What every function reset does in the deck and the yarder at its reset point (R359, R434, R437, R512). -/
def fnResetDeck (f : Nat) (s : State) : State :=
  let s := tally f 15 1 (yrdResetFn f (resolveFn f s))
  let s := setFn f { fnr (dropQueues f s) f with stall := none, silent := false, feat := [], noCoal := [] } (dropQueues f s)
  let s := putFBit F.HIF_STALL_STALL 0 f false (putFBit F.HIF_FATAL_CFS 0 f false s)
  if f = 0 then intxUpdate (txnDiscard s) else s

/-- A reset that also resets the function state: its CMB share's contents are lost (R313). -/
def fnReset (f : Nat) (s : State) : State :=
  let s := if fnOn s f then fnResetDeck f s else s
  let sh := share s f
  let s := { s with deck := { s.deck with
    cmb := Tab.clear s.deck.cmb sh.1 (sh.1 + sh.2)
    cmbPois := s.deck.cmbPois.filter (fun g => 64 * g < sh.1 || sh.1 + sh.2 ≤ 64 * g)
    cmbEra := s.deck.cmbEra + 1 } }
  setFn f { fnr s f with bmeSeen := false, resetting := false } (regsReset f s)

/-- Every VF is reset, the last first (R313). -/
def resetVfs (s : State) : State := upTo 63 (fun i s => fnReset (63 - i) s) s

/-- A conventional reset: every function, VF Enable cleared, every secondary controller offline with no resources (R313, R328). PF0 is not ready until
FLR_READY (R568). -/
def hostReset (s : State) : State :=
  let s := fnReset 0 (resetVfs { s with deck := { s.deck with intx := false } })
  let s := setFn 0 { fnr s 0 with resetting := true } s
  let s := upTo 63 (fun i s => setFn (i + 1) { fnr s (i + 1) with online := false, nq := 0, nv := 0, cmbUnits := 0 } s) s
  let s := { s with deck := { s.deck with intx := false, intPend := [], waits := [], flushed := [] }, cpr := { s.cpr with unseen := putBit s.cpr.unseen 1 true, held := [] } }
  put F.HIF_LINK_STAT_LSTATE 0 0 (put F.HIF_LINK_STAT_FLIT 0 0 (put F.HIF_LINK_STAT_WIDTH 0 0 (put F.HIF_LINK_STAT_SPEED 0 0 s)))

/-- A configuration request to function `f` is taken: it exists and is ready (R314). -/
def cfgReady (s : State) (f : Nat) : Bool := fnOn s f && !s.cpr.perst && !(fnr s f).resetting

/-! ### Readiness (R321, R328) -/

/-- The controller of function `f` is online: PF0, or an enabled VF whose secondary controller is (R328, R329). -/
def ctlOnline (s : State) (f : Nat) : Bool := f == 0 || (fnOn s f && (fnr s f).online)

/-- CSTS.RDY rises once CC.EN is 1, ADMIN_EN is set and the controller is online (R321). -/
def readyUpdate (f : Nat) (s : State) : State :=
  if flag F.CC_EN f s && flag F.DECK_CTL_ADMIN_EN 0 s && ctlOnline s f && !flag F.CSTS_CFS f s then put F.CSTS_RDY f 1 s else s

/-- The admin queues of function `f` come into being from AQA, ASQ and ACQ. -/
def adminQueues (f : Nat) (s : State) : State :=
  let s := setCq f 0 ⟨fld F.ACQ f s, fld F.AQA_ACQS f s + 1, 0, true, 0, 0, true, []⟩ s
  setSq f 0 ⟨fld F.ASQ f s, fld F.AQA_ASQS f s + 1, 0, false, 0, 0, 0, [], 0, [], none⟩ s

/-! ### Context slots (R329) -/

/-- Pool slots held by function `f`. -/
def poolUsed (s : State) (f : Nat) : Nat := (s.deck.cmds.filter (fun e => 64 ≤ e.1 && e.2.fn == f)).length

/-- The part of a function's reserve it does not hold. -/
def reserveLeft (s : State) (f : Nat) : Nat := if ctlOnline s f then fld F.DECK_FN_SLOT_MIN f s - poolUsed s f else 0

/-- Free pool slots. -/
def poolFree (s : State) : Nat := 4032 - (s.deck.cmds.filter (fun e => 64 ≤ e.1)).length

/-- Pool slots that function `f` may take now (R329). -/
def slotsAvail (s : State) (f : Nat) : Nat :=
  let others := (((List.range 64).filter (· != f)).map (reserveLeft s)).foldl (· + ·) 0
  let own := reserveLeft s f
  let room := min 4032 (fld F.DECK_FN_SLOT_MAX f s) - poolUsed s f
  min room (max (min own (poolFree s)) (poolFree s - others))

/-- Slots that queue `q` of function `f` may take: an admin queue has its private one too. -/
def slotsFor (s : State) (f q : Nat) : Nat := slotsAvail s f + if q = 0 && (cmd s f).isNone then 1 else 0

/-! ### Fetches (R285, R296, R325, R330) -/

/-- Entries between two places of a ring. -/
def ringSpan (size a b : Nat) : Nat := (b + size - a) % max 1 size

/-- A fetch of queue `q` is outstanding. -/
def fetching (s : State) (f q : Nat) : Bool := s.deck.reqs.any (fun e => e.2.fn == f && (match e.2.kind with | .sqFetch p _ => p == q | _ => false))

/-- Entries of the queues of function `f` that `p` picks, fetched or being fetched, and not admitted. -/
def unadmitted (s : State) (f : Nat) (p : Nat → Bool) : Nat :=
  (((fnr s f).sqs.filter (fun e => p e.1)).map (fun e => e.2.got.length)).foldl (· + ·) 0 +
    (s.deck.reqs.map (fun e => if e.2.fn = f then (match e.2.kind with | .sqFetch q n => if p q then n else 0 | _ => 0) else 0)).foldl (· + ·) 0

/-- Slots for entries that queue `q` of function `f` may still fetch: of the pool, less those that entries not yet admitted will take, and for the
admin queue its private one (R329). -/
def fetchRoom (s : State) (f q : Nat) : Nat :=
  let adm := unadmitted s f (· == 0)
  let own := if (cmd s f).isNone then 1 else 0
  slotsAvail s f - unadmitted s f (· != 0) - (adm - own) + if q = 0 then own - adm else 0

/-- Entries that queue `q` of function `f` fetches in its turn: up to 8, never beyond the tail, as many as slots are available; and where another
queue has entries to fetch too, no more than its Arbitration Burst (R325). -/
def fetchMost (s : State) (f q : Nat) (x : Sq) : Nat :=
  let ab := feature s f 1 % 8
  let turn := if ab != 7 && (fnr s f).sqs.any (fun e => e.1 != q && !e.2.cmb && e.2.fetch != e.2.tail) then 2 ^ ab else 8
  min (min turn (min 8 (min 4096 (128 * 2 ^ fld F.CFG_MRRS f s) / 64))) (min (ringSpan x.size x.fetch x.tail) (min (x.size - x.fetch) (fetchRoom s f q)))

/-- Queue `q` of function `f` in host memory fetches entries. -/
def fetchSq (f q : Nat) (s : State) : State :=
  match sq s f q with
  | none => s
  | some x =>
    let n := fetchMost s f q x
    if x.cmb || n = 0 || fetching s f q || !canIssue s f || !admitting s f then s
    else if !tagFree s f then tagWait f (.fetch q) s
    else request f (.fetch q) (.sqFetch q n) (x.base + 64 * x.fetch) (64 * n) (setSq f q { x with fetch := (x.fetch + n) % x.size } s)

/-- Queues of function `f` round robin, from the one after the last served on (R325). -/
def sqRound (s : State) (f : Nat) : List Nat :=
  let ks := (fnr s f).sqs.map (·.1)
  ks.filter (fun k => (fnr s f).rr < k) ++ ks.filter (fun k => k ≤ (fnr s f).rr)

/-- Every queue of function `f` fetches what it may, in their turn. -/
def fetchFn (f : Nat) (s : State) : State := each (sqRound s f) (fetchSq f) s

/-- The same, from the queue after `q` on. -/
def fetchAfter (f q : Nat) (s : State) : State :=
  let ks := (fnr s f).sqs.map (·.1)
  each (ks.filter (q < ·) ++ ks.filter (· ≤ q)) (fetchSq f) s

/-- Functions in the order in which they get free slots: those below SLOT_MIN, then the others, round robin (R329). -/
def fnOrder (s : State) : List Nat :=
  let order := (List.range 64).map (fun i => (s.deck.rrFn + 1 + i) % 64)
  let low := fun (f : Nat) => decide (poolUsed s f < fld F.DECK_FN_SLOT_MIN f s)
  order.filter low ++ order.filter (fun f => !low f)

/-- Slots are free again: every function fetches what it may (R329, R353). -/
def fetchAll (s : State) : State := each (fnOrder s) fetchFn s

/-- The controller of function `f` is fatal, whether or not a checker has recorded why (R300, R306, R360). -/
def fatalNow (f : Nat) (s : State) : State := if flag F.CSTS_CFS f s then s else fatal f s

/-- The controller of function `f` is fatal for a submission entry it cannot read (R300). -/
def fetchFatal (f : Nat) (s : State) : State := fatalNow f (report 40 (some f) 12 1 0 0 (put F.VFW_STAT_POIS_SQE f 1 s))

/-! ### Data of commands (R296, R299, R300) -/

/-- Bytes an admin command takes from the host. -/
def adminIn (x : Cmd) : Nat :=
  match opc x with
  | 0x0D => if cdw x 10 % 16 = 0 then 4096 else 0
  | 0x15 => 4096
  | 0x11 => 4 * (cdw x 10 + 1)
  | 0xC0 => if cdw x 10 % 16 = 1 then cdw x 12 else 0
  | 0xC9 => if cdw x 10 % 16 = 2 then 512 else 0
  | _ => 0

/-- Bytes an admin command returns to the host. -/
def adminOut (x : Cmd) : Nat :=
  match opc x with
  | 0x02 => 4 * (cdw x 10 / 65536 + cdw x 11 % 65536 * 65536 + 1)
  | 0x06 => 4096
  | 0xC2 => if cdw x 10 % 256 = 255 then 16 + 8 * 64 else 16 + 8 * 16
  | 0xC4 => 32 * cdw x 11
  | 0xC5 => 4096
  | 0xC6 => 64
  | 0xC8 => 1152
  | 0xCA => 512
  | _ => 0

/-- Bytes of the data transfer of a command, and whether they go to the host. -/
def cmdLen (s : State) (x : Cmd) : Nat × Bool :=
  if isAdmin x then (if adminIn x = 0 then (adminOut x, true) else (adminIn x, false))
  else match nsr s (nsidOf x) with
    | none => (0, false)
    | some r => if takesData x then (xferLen r x, false) else if sendsData x then (xferLen r x, true) else (0, false)

/-- Bytes of a separate metadata buffer (R132). -/
def mdLen (s : State) (x : Cmd) : Nat :=
  if isAdmin x then 0
  else match nsr s (nsidOf x) with
    | none => 0
    | some r => if extended r || !(takesData x || sendsData x) then 0 else nlb x * xferM r x

/-- The segments data comes from: the data buffer, then the metadata buffer. -/
def inSegs (s : State) (x : Cmd) : List (Nat × Nat × Nat) :=
  x.segs ++ (if mdLen s x = 0 then [] else [segOf s x.fn (le x.sqe 16 8) (mdLen s x)])

/-- The segment that holds byte `o` of segments: its kind, the address there, and the bytes it has from there. -/
def segAt : List (Nat × Nat × Nat) → Nat → Nat × Nat × Nat
  | [], _ => (0, 0, 0)
  | (k, a, n) :: t, o => if o < n then (k, a + o, n - o) else segAt t (o - n)

/-- Bytes laid over a byte list at an offset. -/
def layAt (l : List Byte) (o : Nat) (bs : List Byte) : List Byte :=
  (l ++ List.replicate (o + bs.length - l.length) 0).take o ++ bs ++ l.drop (o + bs.length)

/-- A command's data phase has failed: a command not yet at its commit point ends with the status once its reads are done (R298, R300). -/
def cmdFail (k st : Nat) (s : State) : State :=
  match cmd s k with
  | none => s
  | some x =>
    if x.phase == .done || (x.commit && writeClass x) then s
    else if readClass x && x.phase == .active then readFinish k (setCmd { x with dfail := some (x.dfail.getD st), list := none } (dropReqs k s))
    else
      let s := match x.op with | some o => withdraw o s | none => s
      let s := dropReqs k s
      let s := if writeClass x then s else chkRelease (.cmd k) s
      cmdEnd { x with dfail := some st } st 0 s

/-- Bytes of a command's incoming data, with their marks, taken where they belong: an admin command's buffer, or the landing. -/
def cmdTake (k off : Nat) (bs : List (Byte × Bool)) (s : State) : State :=
  match cmd s k with
  | none => s
  | some x =>
    let p := poisoned bs
    if isAdmin x then
      if p then cmdFail k stXfer s else setCmd { x with data := layAt x.data off (bs.map (·.1)), got := x.got + bs.length } s
    else match nsr s (nsidOf x) with
      | none => s
      | some r =>
        let cmp := opc x == 5
        let s := streamIn r x (if cmp then x.scr else x.buf) (if cmp then x.scrMd else x.md) off bs s
        let s := setCmd { x with got := x.got + bs.length, pois := x.pois || p } s
        if cmp then readFinish k s else s

/-- A command that takes host data and is ready for it: an admin command, or an I/O command with its landing buffers. -/
def takesNow (s : State) (x : Cmd) : Bool := !(cmdLen s x).2 && x.list.isNone && x.dfail.isNone && (if isAdmin x then x.phase == .run else x.phase == .active)

/-- Host data of the command in slot `k` is asked for, in order: from the CMB at once, from host memory by requests (R285). -/
def dataAsk : Nat → Nat → State → State
  | 0, _, s => s
  | fuel + 1, k, s =>
    match cmd s k with
    | none => s
    | some x =>
      let total := (cmdLen s x).1 + mdLen s x
      if !takesNow s x || total ≤ x.asked then s
      else
        let (kind, a, n) := segAt (inSegs s x) x.asked
        let n := min n (total - x.asked)
        if kind = 1 then
          dataAsk fuel k (cmdTake k x.asked (cmbRead s a n) (setCmd { x with asked := x.asked + n } s))
        else if n = 0 || !canIssue s x.fn then s
        else if !tagFree s x.fn then tagWait x.fn (.cmd k) s
        else
          let n := min n (readMax s x.fn a)
          dataAsk fuel k (request x.fn (.cmd k) (.data k x.asked) a n (setCmd { x with asked := x.asked + n } s))

/-- All the data that can be asked for now. -/
def dataStart (k : Nat) (s : State) : State := dataAsk 20000 k s

/-- Some segment points into BAR2 without a CMB share there, or into the CMB for read data (R327). -/
def segsBad (s : State) (f : Nat) (out : Bool) (l : List (Nat × Nat × Nat)) : Bool :=
  l.any (fun g => g.1 == 1 && (out || !cmbOn s f || (share s f).1 + (share s f).2 < g.2.1 + g.2.2))

/-- The list that a command waits for is read: from the CMB at once, from host memory by requests; each list read names the next (R296, R327). -/
def listAsk : Nat → Nat → State → State
  | 0, _, s => s
  | fuel + 1, k, s =>
    match cmd s k with
    | none => s
    | some x => match x.list with
      | none => dataStart k s
      | some p =>
        let total := (cmdLen s x).1
        let done := fun (bs : List Byte) (s : State) =>
          let r := listTake s x p bs total
          let bad := segsBad s x.fn (cmdLen s x).2 r.1.segs
          if r.2 ≠ 0 then cmdFail k r.2 (setCmd { x with list := none } s)
          else if bad then cmdFail k stField (setCmd { x with list := none } s)
          else listAsk fuel k (setCmd { r.1 with lbuf := [] } s)
        if p.len ≤ x.lbuf.length then done (x.lbuf.take p.len) s
        else if inBar2 s x.fn p.addr then
          let m := cmbRead s (p.addr - bar2 s x.fn + (share s x.fn).1) p.len
          if badAddr s x.fn false p.addr p.len then cmdFail k stField (setCmd { x with list := none } s)
          else if poisoned m then cmdFail k stXfer (setCmd { x with list := none } s)
          else done (m.map (·.1)) s
        else if s.deck.reqs.any (fun e => e.2.kind == .list k) || !canIssue s x.fn then s
        else if !tagFree s x.fn then tagWait x.fn (.cmd k) s
        else
          let a := p.addr + x.lbuf.length
          request x.fn (.cmd k) (.list k) a (min (p.len - x.lbuf.length) (readMax s x.fn a)) s

/-- A command's buffer is brought as far as it can be. -/
def xferGo (k : Nat) (s : State) : State := listAsk 600 k s

/-- What waits for a tag of function `f` asks again. -/
def tagRun (f : Nat) (w : TagWait) (s : State) : State := match w with
  | .fetch q => fetchSq f q s
  | .cmd k => xferGo k s
  | .yrd n => yrdAsk n s

/-- Tags have come free: those that wait have them in request order, among the functions that have tags free (R285). -/
def tagGo (s : State) : State :=
  upTo s.deck.waits.length (fun _ s => match s.deck.waits.find? (fun e => tagFree s e.1) with
    | none => s
    | some e => tagRun e.1 e.2 { s with deck := { s.deck with waits := s.deck.waits.erase e } }) s

/-! ### Poison and failures of requests (R298–R300) -/

/-- A poisoned TLP received for function `f`: Detected Parity Error, and the AER record (R297, R298, R301). -/
def poisIn (f : Nat) (h : TlpHdr) (s : State) : State :=
  cmdSts f 31 <| count F.VFW_STAT_POIS_IN f (count F.HIF_POISON_IN 0 (aerUnc f 12 true h (report 33 (some f) 12 1 0 0 s)))

/-- A request of function `f` has completed with Unsupported Request: Received Master Abort, and for a fetch of submission entries the error that R300
has logged (R297, R298, R300). -/
def abortIn (f : Nat) (k : ReqKind) (h : TlpHdr) (s : State) : State :=
  let s := cmdSts f 29 s
  match k with
  | .sqFetch _ _ => aerUnc f 20 true h (report 35 (some f) 12 1 0 0 s)
  | _ => s

/-- The request of key `t` has failed: with Unsupported Request, or by the completion timeout. -/
def reqFail (t : Nat) (s : State) : State :=
  match Tab.get? s.deck.reqs t with
  | none => s
  | some r =>
    let s := { s with deck := { s.deck with reqs := Tab.erase s.deck.reqs t } }
    match r.kind with
    | .sqFetch _ _ => fetchFatal r.fn s
    | .list k => cmdFail k stXfer s
    | .data k _ => cmdFail k stXfer s
    | .yrd n => yrdFail n s

/-! ### Held interrupts (R309, R310) -/

/-- Pending MSI-X messages of function `f` that nothing masks are sent, and their PBA bits clear. -/
def flushMsix (f : Nat) (s : State) : State :=
  if !flag F.MSIX_EN f s || flag F.MSIX_FMASK f s || !canIssue s f then s
  else upTo (fld F.MSIX_SIZE f s + 1) (fun v s =>
    if (fld2 F.MSIX_PBA f (v / 64) s).testBit (v % 64) && fld2 F.MSIX_MASK f v s == 0 then
      sendMsix f v (put2 F.MSIX_PBA f (v / 64) (putBit (fld2 F.MSIX_PBA f (v / 64) s) (v % 64) false) s)
    else s) s

/-- Held MSI messages of PF0 that nothing masks are sent, and the pending bits follow. -/
def flushMsi (s : State) : State :=
  if intMode s 0 ≠ 2 then s
  else if !canIssue s 0 then msiPend s
  else msiPend <| each s.deck.intPend (fun e s =>
    let m := e.1 % 2 ^ min 5 (fld F.MSI_MME 0 s)
    if bit F.MSI_MASK 0 m s || bit F.INTMS 0 e.1 s then s
    else sendMsi m { s with deck := { s.deck with intPend := Tab.erase s.deck.intPend e.1 } }) s

/-- The mark of a coalesced vector whose timeout passed while its function could issue nothing: above every threshold. -/
def unsigDue : Nat := 256

/-- A coalesced vector fires. -/
def unsigFire (f v : Nat) (s : State) : State := interrupt f v (setFn f { fnr s f with unsig := Tab.erase (fnr s f).unsig v } s)

/-- Coalesced vectors that were queued in a stall fire (R304, R305). -/
def flushUnsig (f : Nat) (s : State) : State :=
  if !canIssue s f then s else each ((fnr s f).unsig.filter (fun e => e.2.1 == unsigDue)) (fun e s => unsigFire f e.1 s) s

/-! ### Stalls (R303–R307) -/

/-- Function `f` has lost bus mastering: a stall starts, once (R303, R307). -/
def stallStart (f : Nat) (s : State) : State :=
  if (fnr s f).stall.isSome then s
  else putFBit F.HIF_STALL_STALL 0 f true (setFn f { fnr s f with stall := some s.time } s)

/-- Transfers, fetches and interrupts of function `f` that can go on, go on. -/
def resumeFn (f : Nat) (s : State) : State :=
  if !canIssue s f then s
  else
    let s := each (Tab.vals s.deck.cmds) (fun x s => if x.fn == f then readFinish x.slot (xferGo x.slot s) else s) s
    let s := upTo 32 (fun n s => match yrdPart (ych s n) with | some d => if d.fn == f then yrdAsk n s else s | none => s) s
    let s := if f = 0 then flushMsi s else s
    fetchFn f (flushUnsig f (flushMsix f s))

/-- A stall ends before its limit (R305). -/
def stallEnd (f : Nat) (s : State) : State :=
  let s := putFBit F.HIF_STALL_STALL 0 f false (setFn f { fnr s f with stall := none } s)
  resumeFn f s

/-! ### The commit point of a write (R256, R257, R349, R567) -/

/-- The stripes of a write's units that it covers whole, by namespace stripe, and whether some unit is left over (R263). -/
def wholeStripes (r : NsRec) (u : Nat × Nat) : List Nat × Bool :=
  let d := dataOf (if r.profile = 1 then 2 else 1)
  let a := ceilDiv u.1 d
  let b := (u.2 + 1) / d
  ((List.range (b - a)).map (a + ·), !(a * d = u.1 && b * d = u.2 + 1 && a < b))

/-- Absent members of the stripe `k` of zone `z`. -/
def absentCount (s : State) (z k : Nat) : Nat := ((List.range 16).filter (fun f => absent s z k f)).length

/-- A stripe of redundancy `red` can be written (R246). -/
def writable (s : State) (z k red : Nat) : Bool := absentCount s z k == 0 || (flag F.SPR_CTL_DEGR_WR 0 s && absentCount s z k ≤ red)

/-- The stripes a write fills in place, and whether a part of it is staged: fragments, and whole stripes above the watermark while the early
lists are full (R263, R343). -/
def writeParts (s : State) (r : NsRec) (u : Nat × Nat) : List Nat × Bool :=
  let w := wholeStripes r u
  let held := fun (k : Nat) => r.fill ≤ k && 16384 ≤ earlyCount s
  (w.1.filter (fun k => !held k), w.2 || w.1.any held)

/-- The sequence numbers, from HEAD on, of the staging stripes that will carry `n` units behind the units that wait already: one stripe for up to 13,
which the host's data does not share when it would not fit, and 13 units a stripe beyond that (R254, R256). -/
def stagesFor (s : State) (n : Nat) : List Nat :=
  let w := stgUnits s
  let a := if n ≤ 13 && 13 < w % 13 + n then w / 13 + 1 else w / 13
  let b := if n ≤ 13 then a else (w + n - 1) / 13
  if n = 0 then [] else (List.range (b + 1 - a)).map (stgHead s + a + ·)

/-- Every pass that will carry the write can be written: the staging stripes of its staged units and its whole stripes (R567). -/
def writeJudge (s : State) (r : NsRec) (x : Cmd) : Bool :=
  let u := unitsOf r x
  let w := writeParts s r u
  let ent := nsEnt s (nsidOf x)
  let n := (u.2 + 1 - u.1) - w.1.length * dataOf ent.red
  s.geo.isSome &&
    w.1.all (fun k => let zk := relocate s true (nsStripe s ent k); writable s zk.1 zk.2 ent.red) &&
    (stagesFor s n).all (fun q => let zk := stgPlace s (q % max 1 (stgTotal s)); writable s zk.1 zk.2 2)

/-- Block `b` of the unit at `fromD`, with its host metadata at `fromM`, is carried over to the unit at `toD` and `toM`: its bytes, the marks of its
granules, and the POISON bits of its own that its metadata sets (R133, R139). -/
def blkCopy (r : NsRec) (fromD fromM toD toM b : Nat) (s : State) : State :=
  let l := fmtL r.flbas
  let m := fmtM r.flbas
  let mask := mdMask s (fromM / 64) &&& (if lpu r = 1 then 2 ^ 64 - 1 else 255 * 2 ^ (8 * b))
  let ms := hwBytes s (fromM + m * b) m
  let s := hwWrite 13 (toD + l * b) (hwBytes s (fromD + l * b) l) (landPoison s (fromD + l * b) (l / 64)) 0 s
  hwWrite 13 (toM + m * b) ms (decide (0 < mask)).toNat mask s

/-- A granted write's landing copy of the partly covered units is merged from the newest copies: the blocks outside the write come from the scratch
area, which holds zeros with marks where a unit could not be read (R131, R133). -/
def mergeIn (k : Nat) (s : State) : State :=
  match cmd s k with
  | none => s
  | some x => match nsr s (nsidOf x) with
    | none => s
    | some r =>
      let u := unitsOf r x
      let lead := slba x % lpu r
      let tail := (slba x + nlb x) % lpu r
      -- blocks of unit `i` (0 or the last) outside the write come from scratch unit `j`
      let copy := fun (i j b : Nat) (s : State) => blkCopy r (x.scr + 4096 * j) (x.scrMd + 64 * j) (x.buf + 4096 * i) (x.md + 64 * i) b s
      let last := u.2 - u.1
      let s := if lead = 0 then s else upTo lead (fun b s => copy 0 0 b s) s
      if tail = 0 then s else upTo (lpu r - tail) (fun b s => copy last (if lead = 0 || last = 0 then 0 else 1) (tail + b) s) s

/-- A write of function `f` has all its host data and has not passed its commit point. -/
def fullWrite (s : State) (f : Nat) (x : Cmd) : Bool :=
  x.fn == f && writeClass x && !x.commit && x.phase == .active && x.dfail.isNone && (cmdLen s x).1 + mdLen s x ≤ x.got

/-- The status of a write whose data is all there, by the rows of R366, and the first LBA it concerns (R367). -/
def writeStatus (s : State) (r : NsRec) (x : Cmd) : Nat × Nat :=
  let pi := if pract x || opc x = 8 then 0 else piStatus s r x x.buf x.md
  if pi ≠ 0 then (pi, slba x + ((List.range (nlb x)).find? (fun n => piCheck s r x x.buf x.md n != 0)).getD 0)
  else if !writeJudge s r x then (0x280 + dnr, slba x)
  else if spmSt s = 11 || x.ust.any (fun e => e.2 == stSpindle) then (0x082, slba x)
  else (0, slba x)

/-- The write in slot `k` has all its data and its merges: once the order lets it and the landing answers, it is judged, its cache entry is
committed and its completion waits (R257 step 2, R299, R352, R366, R408, R437, R567). -/
def writeCommit (k : Nat) (s : State) : State :=
  match cmd s k with
  | none => s
  | some x => match nsr s (nsidOf x) with
    | none => s
    | some r =>
      let need := (cmdLen s x).1 + mdLen s x
      let free := fun (s : State) => if detached x then chkRelease (.cmd k) s else s
      if x.phase != .active || !writeClass x || x.commit || x.got < need || !x.merged || x.dfail.isSome then s
      else if sqBroken s x then cmdEnd x stOrderBroken 0 (free s)
      else if !mayCommit s x || xferBusy s r x then setCmd { x with due := true } s
      else
        let s := piInsert r x (mergeIn k (xferLook r x (free s)))
        let st := writeStatus s r x
        if st.1 ≠ 0 then cmdEndAt x st.1 0 st.2 s
        else
          let u := unitsOf r x
          let e : CacheEnt := ⟨nsidOf x, r.gen, u.1, u.2 + 1 - u.1, x.buf, x.md, x.fn, []⟩
          let s := { s with deck := { s.deck with cache := s.deck.cache ++ [e] } }
          let fl := x.flags ||| (if x.pois then 8 else 0) ||| (if (writeParts s r u).2 then 16 else 0)
          let x := { x with commit := true, flags := fl }
          let b := dataBytes s x
          let s := cmdEnd x 0 0 (if opc x = 8 then s else tally x.fn 4 1 (tally x.fn 2 b.2 (tally x.fn 1 b.1 s)))
          sqAdvance x.fn x.sq (if detached x then orphan x s else orphanClear x s)

/-- Commands of a queue that the order now lets pass their commit points, writes among them whose data is all there (R349–R352). -/
def orderGo (f q : Nat) (s : State) : State :=
  each (sortBy (·.ord) (ofSq s f q)) (fun c s => if c.due then writeCommit c.slot s else s) (sqAdvance f q s)

/-- The largest advertised rate and width (R283). -/
def capSpeed (s : State) : Nat := let v := fld F.HIF_LINK_CAP_MAXSPD 0 s; if v = 0 || 6 < v then 6 else v
def capWidth (s : State) : Nat := let v := fld F.HIF_LINK_CAP_MAXWID 0 s; if v = 1 || v = 2 then v else 4

end Sys2Proof.Machine
end

