-- ==== Sys2Proof/Machine/OpsAdmit.lean ====
section
/-! DEFINITION. Admission of submission entries: which entry comes next, the checks of R332, and where an admitted command stands
(R325, R329–R336, R347, R368). -/

namespace Sys2Proof.Machine

open Sys2Proof

/-! ### The checks of R332 -/

/-- An I/O opcode of R335. -/
def ioOpc (o : Nat) : Bool := [0x00, 0x01, 0x02, 0x05, 0x08, 0x0C, 0x81, 0x82, 0x84].contains o

/-- A command that the recovery program takes (R501). -/
def recoveryOpc (x : Cmd) : Bool :=
  [0x06, 0x09, 0x0A, 0x10, 0x11].contains (opc x) || (opc x == 2 && (cdw x 10 % 256 == 1 || cdw x 10 % 256 == 3))

/-- The status of an admin opcode on function `f` (R334, R355): 0 when it is supported and permitted. -/
def adminOpc (s : State) (x : Cmd) : Nat :=
  let o := opc x
  if flag F.MGT_STAT_RECOVERY 0 s then (if x.fn = 0 && recoveryOpc x then 0 else stOpcode)
  else if o = 0x06 && x.fn ≠ 0 && (cdw x 10 % 256 = 0x14 || cdw x 10 % 256 = 0x15) then stOpcode
  else if [0x00, 0x01, 0x02, 0x04, 0x05, 0x06, 0x08, 0x09, 0x0A, 0x0C, 0xC2, 0xC5].contains o then 0
  else if [0x0D, 0x10, 0x11, 0x15, 0x1C].contains o then (if x.fn = 0 then 0 else stOpcode)
  else if o = 0x80 then (if x.fn = 0 || ((nsr s (nsidOf x)).map (·.attached)) == some (2 ^ x.fn) then 0 else stOpcode)
  else if [0xC0, 0xC1, 0xC4, 0xC6, 0xC8, 0xC9, 0xCA].contains o then (if x.fn = 0 then 0 else stPermit)
  else stOpcode

/-- Namespace `n` exists and is attached to function `f`. -/
def attachedTo (s : State) (n f : Nat) : Bool := ((nsr s n).map (fun r => r.attached.testBit f)).getD false

/-- The NSID is valid for the command (R332 step 2, R340, R341). Deletion and Format take one namespace: the broadcast NSID names none. -/
def nsidOk (s : State) (x : Cmd) : Bool :=
  if isAdmin x then
    match opc x with
    | 0x0D => cdw x 10 % 16 != 1 || (nsr s (nsidOf x)).isSome
    | 0x15 => (nsr s (nsidOf x)).isSome
    | 0x80 => attachedTo s (nsidOf x) x.fn
    | 0x02 => nsidOf x == 0 || nsidOf x == 0xFFFFFFFF || attachedTo s (nsidOf x) x.fn
    | 0x06 =>
      let n := nsidOf x
      let there := (nsr s n).isSome && (x.fn == 0 || attachedTo s n x.fn)
      match cdw x 10 % 256 with
      | 0x00 => n == 0xFFFFFFFF || attachedTo s n x.fn
      | 0x03 => attachedTo s n x.fn
      | 0x02 => n < 0xFFFFFFFE
      | 0x10 => n < 0xFFFFFFFE
      | 0x11 => there
      | 0x12 => there
      | _ => true
    | _ => true
  else if barrier x then true
  else attachedTo s (nsidOf x) x.fn || (opc x == 0 && nsidOf x == 0xFFFFFFFF)

/-- The bits a command may set in its dwords 2, 3 and 10 to 15, by the specification's fields and, for vendor opcodes, this manual's (R332). -/
def usedBits (x : Cmd) : List Nat :=
  let all := 0xFFFFFFFF
  let z := [0, 0, 0, 0, 0, 0, 0, 0]
  let lba := fun (d12 d13 : Nat) => [all, all, all, all, d12, d13, all, all]
  if isAdmin x then
    match opc x with
    | 0x00 => [0, 0, 0xFFFF, 0, 0, 0, 0, 0]
    | 0x04 => [0, 0, 0xFFFF, 0, 0, 0, 0, 0]
    | 0x01 => [0, 0, all, 0xFFFF0007, 0xFFFF, 0, 0, 0]
    | 0x05 => [0, 0, all, 0xFFFF0003, 0, 0, 0, 0]
    | 0x02 => [0, 0, all, all, all, all, 0xFF00007F, 0]
    | 0x06 => [0, 0, 0xFFFF00FF, 0xFF00FFFF, 0, 0, 0x7F, 0]
    | 0x08 => [0, 0, all, 0, 0, 0, 0, 0]
    | 0x09 => [0, 0, 0x800000FF, all, all, all, 0x7F, all]
    | 0x0A => [0, 0, 0x7FF, all, 0, 0, 0x7F, 0]
    | 0x0D => [0, 0, 0xF, 0xFF000000, 0, 0, 0, 0]
    | 0x10 => [0, 0, 0x8000003F, 0, 0, 0, 0, 0]
    | 0x11 => [0, 0, all, all, 0, 0, 0, 0]
    | 0x15 => [0, 0, 0xF, 0, 0, 0, 0, 0]
    | 0x1C => [0, 0, 0xFFFF070F, 0xFFFF, 0, 0, 0, 0]
    | 0x80 => [0, 0, 0x3FFF, 0, 0, 0, 0, 0]
    | 0xC0 => [0, 0, 0xF, all, if cdw x 10 % 16 = 1 then all else 0, 0, 0, 0]
    | 0xC2 => [0, 0, 0x1FF, 0, 0, 0, 0, 0]
    | 0xC4 => [0, 0, all, all, 0, 0, 0, 0]
    | 0xC5 => [0, 0, 1, all, 0, 0, 0, 0]
    | 0xC6 => [0, 0, 0xF, 0xF, all, all, all, 0]
    | 0xC8 => [0, 0, 0x10F, all, all, all, 0, 0]
    | 0xC9 => [0, 0, 0xF, all, 0, 0, 0, 0]
    | _ => z
  else
    match opc x with
    | 0x01 => lba 0xFD00FFFF 0xFFFF00FF
    | 0x81 => lba 0xFD00FFFF 0xFFFF00FF
    | 0x02 => lba 0xFD00FFFF 0xFF
    | 0x82 => lba 0xFD00FFFF 0xFF
    | 0x05 => lba 0xFD00FFFF 0
    | 0x0C => lba 0xFD00FFFF 0
    | 0x08 => lba 0xFF00FFFF 0
    | 0x84 => [0, 0, 1, 0, 0, 0, 0, 0]
    | _ => z

/-- The action field of a vendor or management command names an action (R328, R339, R340, R355, R502). -/
def actOk (x : Cmd) : Bool :=
  let a := cdw x 10 % 16
  !isAdmin x || (match opc x with
    | 0xC0 => a ≤ 4
    | 0xC6 => a ≤ 5
    | 0xC8 => a ≤ 6
    | 0xC9 => a ≤ 2
    | 0x0D => a ≤ 1
    | 0x15 => a ≤ 1
    | 0x1C => a == 1 || a == 7 || a == 8 || a == 9
    | 0x10 => cdw x 10 / 8 % 8 ≤ 3
    | 0xC4 => 1 ≤ cdw x 11 && cdw x 11 ≤ 2048
    | _ => true)

/-- A command that transfers no data has no data pointer. -/
def noPtr (x : Cmd) : Bool :=
  if isAdmin x then [0x00, 0x04, 0x08, 0x0C, 0x10, 0x1C, 0x80].contains (opc x) || (0xC0 ≤ opc x && adminIn x == 0 && adminOut x == 0)
  else [0x00, 0x08, 0x0C, 0x84].contains (opc x)

/-- The pointer fields that the command does not use are 0: all of them without data; in an admin command MPTR, and PRP2 where PRP1 takes all the data
or names a queue (R332). -/
def ptrOk (s : State) (x : Cmd) : Bool :=
  let none' := fun (o n : Nat) => (x.sqe.drop o).take n == List.replicate n 0
  if noPtr x then none' 16 24
  else
    let one := (isAdmin x && (opc x == 1 || opc x == 5)) || (le x.sqe 1 1 / 64 == 0 && (cmdLen s x).1 ≤ 4096 - le x.sqe 24 8 % 4096)
    (!isAdmin x || none' 16 8) && (!one || none' 32 8)

/-- The protection settings of a command on LBAs suit the namespace: a reference tag checked under Type 1 is the LBA's own, and Type 3 checks
none (the NVM Command Set's rule, log entry 8). -/
def piOk (s : State) (x : Cmd) : Bool := match nsr s (nsidOf x) with
  | none => true
  | some r =>
    isAdmin x || opc x == 0 || barrier x || !(cdw x 12).testBit 26 || fmtM r.flbas < 8 ||
      (if piType r = 1 then cdw x 14 == slba x % 2 ^ 32 else piType r != 3)

/-- The fields are valid (R332 step 3): reserved bits, PSDT, FUSE, MDTS, protection settings, NSID where the command has none. -/
def fieldsOk (s : State) (x : Cmd) : Bool :=
  let fl := le x.sqe 1 1
  let ds := [2, 3, 10, 11, 12, 13, 14, 15].map (cdw x)
  (List.zipWith (fun d m => d &&& m == d) ds (usedBits x)).all id && actOk x &&
    fl % 64 == 0 && (if isAdmin x then fl / 64 == 0 else fl / 64 ≤ 1) &&
    (cmdLen s x).1 ≤ 1048576 && piOk s x &&
    !((barrier x || (isAdmin x && (0xC0 ≤ opc x || (opc x == 0x0D && cdw x 10 % 16 == 0)))) && nsidOf x != 0) && ptrOk s x

/-- The LBAs of the command lie in the namespace (R332 step 4). -/
def lbaOk (s : State) (x : Cmd) : Bool :=
  if isAdmin x || opc x == 0 || barrier x then true
  else match nsr s (nsidOf x) with
    | none => true
    | some r => slba x + nlb x ≤ r.nsze

/-- The status of an entry at admission; 0 when it passes every check. -/
def admitStatus (s : State) (x : Cmd) : Nat :=
  let o := if isAdmin x then adminOpc s x else if ioOpc (opc x) then 0 else stOpcode
  if o ≠ 0 then o
  else if !nsidOk s x then stNs
  else if !fieldsOk s x then stField
  else if !lbaOk s x then stLba
  else 0

/-! ### Which entry is admitted (R325, R329, R330) -/

/-- Queue `q` of function `f` has an entry that may be admitted. -/
def sqReady (s : State) (f q : Nat) : Bool := match sq s f q with
  | none => false
  | some x => (if x.cmb then x.head != x.tail else !x.got.isEmpty) && 0 < slotsFor s f q

/-- Queues of function `f` from the one after the last served on, round robin (R325). -/
def sqOrder (s : State) (f : Nat) : List Nat :=
  let x := fnr s f
  let ab := feature s f 1 % 8
  let rest := sqRound s f
  if rest.contains x.rr && x.burst != 0 && (ab == 7 || x.burst < 2 ^ ab) then x.rr :: rest else rest

/-- The queue that function `f` is served from next. -/
def fnNext (s : State) (f : Nat) : Option Nat := if admitting s f then (sqOrder s f).find? (sqReady s f) else none

/-- The function and queue served next: functions below SLOT_MIN first, then the others, round robin (R329). -/
def admitNext (s : State) : Option (Nat × Nat) :=
  (fnOrder s).findSome? (fun f => (fnNext s f).map (fun q => (f, q)))

/-- The entry at the head of a queue, and whether it lies in a poisoned CMB granule. -/
def entryOf (s : State) (x : Sq) : List Byte × Bool :=
  if x.cmb then
    let m := cmbRead s (x.base + 64 * x.head) 64
    (m.map (·.1), poisoned m)
  else (x.got.headD [], false)

/-- The slot an entry of queue `q` takes: a private one for an admin queue, else the lowest free pool slot. -/
def slotPick (s : State) (f q : Nat) : Nat :=
  if q = 0 && (cmd s f).isNone then f else 64 + ((List.range 4032).find? (fun k => (cmd s (64 + k)).isNone)).getD 0

/-! ### Where an admitted command stands -/

/-- The command takes a choker: an I/O command on units, or Format and deletion over the whole namespace (R335, R341). -/
def takesChoker (x : Cmd) : Bool :=
  if isAdmin x then opc x == 0x80 || (opc x == 0x0D && cdw x 10 % 16 == 1) else opc x != 0 && !barrier x

/-- The phase a command that passed its checks enters. -/
def startPhase (s : State) (x : Cmd) : CmdPhase :=
  if !isAdmin x && !flag F.DECK_CTL_IO_EN 0 s then .held else if takesChoker x then .entryWait else .run

/-- A command that has passed its checks: its buffer is found, and its lists and admin data are asked for. -/
def admitGo (x : Cmd) (s : State) : State :=
  let n := cmdLen s x
  let b := bufStart s x n.1
  let x := { x with segs := b.1, list := b.2.1, phase := startPhase s x }
  let s := setCmd x s
  if b.2.2 ≠ 0 then cmdEnd { x with inv := true } b.2.2 0 (count F.DECK_ERR_INVALID 0 s)
  else if segsBad s x.fn n.2 (b.1 ++ (if mdLen s x = 0 then [] else [segOf s x.fn (le x.sqe 16 8) (mdLen s x)])) then
    cmdEnd { x with inv := true } stField 0 (count F.DECK_ERR_INVALID 0 s)
  else if !isAdmin x && !barrier x && sqBroken s x then cmdEnd x stOrderBroken 0 s
  else xferGo x.slot s

/-- An entry is admitted from queue `q` of function `f` (R329–R333). -/
def admitFrom (f q : Nat) (s : State) : State :=
  match sq s f q with
  | none => s
  | some x =>
    let e := entryOf s x
    if e.2 then fetchFatal f s
    else
      let k := slotPick s f q
      let c : Cmd := { slot := k, fn := f, sq := q, sqe := e.1, num := s.deck.nextNum, ord := x.ord, t := s.time, phase := .run }
      let s := setSq f q { x with head := (x.head + 1) % max 1 x.size, got := x.got.drop 1, ord := x.ord + 1 } s
      let r := fnr s f
      let s := setFn f { r with rr := q, burst := if r.rr = q then r.burst + 1 else 1 } s
      let s := { s with deck := { s.deck with nextNum := s.deck.nextNum + 1, rrFn := f } }
      let st := admitStatus s c
      let s := if st ≠ 0 then cmdEnd { c with inv := true } st 0 (count F.DECK_ERR_INVALID 0 s) else admitGo c s
      fetchFn f s

/-- A command that waits for an entry may take one now by its own function's limit (R347). -/
def underMax (s : State) (f : Nat) : Bool := fnChk s f < min 1920 (fld F.DECK_FN_CHK_MAX f s)

/-- A command may take its entry: Format and deletion after every earlier command on the namespace, and a command on a namespace after an earlier one
of these (R341). -/
def entryFree (s : State) (x : Cmd) : Bool :=
  !(Tab.vals s.deck.cmds).any (fun c => nsidOf c == nsidOf x && c.num < x.num &&
    (if isAdmin x then !isAdmin c && (c.phase == .held || c.phase == .entryWait) else isAdmin c && c.phase == .entryWait))

/-- The command that takes the next choker entry (R347). -/
def entryNext (s : State) : Option Cmd :=
  if 1920 ≤ hostChk s || (chkFree s).isNone then none
  else (sortBy (·.num) ((Tab.vals s.deck.cmds).filter (fun x => x.phase == .entryWait && underMax s x.fn && entryFree s x))).head?

/-- The range and mode of the choker a command takes (R335, R341, R345). -/
def chokeRange (s : State) (x : Cmd) : Nat × Nat × Bool :=
  if isAdmin x then (0, 2 ^ 45 - 1, true)
  else match nsr s (nsidOf x) with
    | none => (0, 0, writeClass x)
    | some r => ((unitsOf r x).1, (unitsOf r x).2, writeClass x)

end Sys2Proof.Machine
end

