-- ==== Sys2Proof/Machine/Deck.lean ====
section
/-! DEFINITION. Commands of the deck's admission, chokers, control registers and completion (R321, R329–R333, R337, R345–R348, R361, R365–R370,
R404, R437). -/

namespace Sys2Proof.Machine

open Sys2Proof

/-! ### Admission and chokers -/

/-- ADMIT (R300, R325, R329–R333): the next entry is admitted; where none waits, entries are fetched for the slots that are free (R353). -/
def execAdmitEntry (s : State) : Answer := .next (match admitNext s with
  | some (f, q) => admitFrom f q s
  | none => fetchAll s)

/-- CHOKER_ENTRY_TAKE (R347): the next waiting command takes an entry and enters the choker order. -/
def execChokerEntryTake (s : State) : Answer :=
  match entryNext s with
  | none => .next s
  | some x =>
    let r := chokeRange s x
    let s := setCmd { x with phase := .chokeWait, ck := chkFree s } s
    .next (chkEnter (nsidOf x) r.1 r.2.1 r.2.2 (.cmd x.slot) s)

/-- A command's choker is granted (R331, R349, R351, R352): it is in the ready set, and a read passes its commit point if the order lets it, with what
waited for that. -/
def cmdGranted (k : Nat) (s : State) : State :=
  match cmd s k with
  | none => s
  | some x =>
    let s := setCmd { x with phase := .granted } s
    if isAdmin x then s
    else if sqBroken s x then
      cmdEnd { x with ck := none } stOrderBroken 0 (if writeClass x then s else chkRelease (.cmd k) s)
    else orderGo x.fn x.sq s

/-- CHOKER_GRANT (R331, R345, R348, R349): the first entry that nothing before it conflicts with. -/
def execChokerGrant (s : State) : Answer :=
  match chkGrantable [] s.deck.chk with
  | none => .next s
  | some e =>
    let s := chkGrant e.idx s
    match e.holder with
    | .cmd k => .next (cmdGranted k s)
    | .port c => .next (raiseEvent (128 + c) (put F.CHK_PORT_CTL_WAIT c 0 (put F.CHK_PORT_CTL_GRANTED c 1 s)))
    | .salv i => .next (salvGranted i s)
    | .cruise => .next (cruiseGranted s)

/-! ### Control registers -/

/-- DECK_IO_EN (R331): held commands enter the choker order in admission order. -/
def execDeckIoEn (w : BusW) (s : State) : Answer :=
  let s := busWrite R.DECK_CTL 0 0 w s
  .next (
    if wrote1 1 w then
      each (Tab.vals s.deck.cmds) (fun x s => if x.phase == .held then setCmd { x with phase := if takesChoker x then .entryWait else .run } s else s)
        (put F.DECK_CTL_IO_EN 0 1 s)
    else if wrote0 1 w then put F.DECK_CTL_IO_EN 0 0 s else s)

/-- DECK_PAUSE (R361): dispatch is held or released. -/
def execDeckPause (w : BusW) (s : State) : Answer :=
  let s := busWrite R.DECK_CTL 0 0 w s
  .next (
    if wrote1 2 w then put F.DECK_STAT_PAUSED 0 1 (put F.DECK_CTL_PAUSE 0 1 s)
    else if wrote0 2 w then put F.DECK_STAT_PAUSED 0 0 (put F.DECK_CTL_PAUSE 0 0 s) else s)

/-- DECK_ADMIN_EN (R321, R511): controllers may become ready, and the setpoint is committed. -/
def execDeckAdminEn (w : BusW) (s : State) : Answer :=
  let s := busWrite R.DECK_CTL 0 0 w s
  .next (
    if wrote1 0 w then upTo 64 readyUpdate (bootCommit (put F.DECK_CTL_ADMIN_EN 0 1 s))
    else if wrote0 0 w then put F.DECK_CTL_ADMIN_EN 0 0 s else s)

/-- The sum of SLOT_MIN over all functions. -/
def slotMinSum (s : State) : Nat := ((List.range 64).map (fun f => fld F.DECK_FN_SLOT_MIN f s)).foldl (· + ·) 0

/-- DECK_FN_WRITE (R329): ignored with CFG_ERR when the reserves would not fit, or SLOT_MIN would exceed SLOT_MAX. -/
def execDeckFnWrite (f : Fin 64) (w : BusW) (s : State) : Answer :=
  let t := busWrite R.DECK_FN f.val 0 w s
  .next (if 4032 < slotMinSum t || fld F.DECK_FN_SLOT_MAX f.val t < fld F.DECK_FN_SLOT_MIN f.val t then put F.DECK_STAT_CFG_ERR 0 1 s else t)

/-- CHK_PORT_GO (R348): a port's request enters the choker order, or is ignored with REFUSED. -/
def execChkPortGo (c : Fin 4) (w : BusW) (s : State) : Answer :=
  let c := c.val
  let s := busWrite R.CHK_PORT_CTL c 0 w s
  if !wrote1 31 w || flag F.CHK_PORT_CTL_GO c s then .next s
  else
    let nsid := fld F.CHK_PORT_CTL_NSID c s
    let a := fld F.CHK_PORT_FIRST_UNIT c s
    let b := fld F.CHK_PORT_LAST_UNIT c s
    if b < a || nsid = 0 || 256 < nsid then .next (put F.CHK_PORT_CTL_REFUSED c 1 s)
    else match chkFree s with
      | none => .next s
      | some i =>
        let s := chkEnter nsid a b (flag F.CHK_PORT_CTL_EXCL c s) (.port c) s
        let s := put F.CHK_PORT_CTL_GO c 1 (put F.CHK_PORT_CTL_REFUSED c 0 (put F.CHK_PORT_CTL_ENTRY c i s))
        .next (put F.CHK_PORT_CTL_GRANTED c 0 (put F.CHK_PORT_CTL_WAIT c 1 s))

/-- CHK_PORT_REL (R348): the port's entry is released, when the write names it. -/
def execChkPortRel (c : Fin 4) (w : BusW) (s : State) : Answer :=
  let c := c.val
  let s := busWrite R.CHK_PORT_REL c 0 w s
  .next (
    if wrote1 31 w && flag F.CHK_PORT_CTL_GO c s && fld F.CHK_PORT_REL_ENTRY c s = fld F.CHK_PORT_CTL_ENTRY c s then
      put F.CHK_PORT_CTL_GO c 0 (put F.CHK_PORT_CTL_WAIT c 0 (put F.CHK_PORT_CTL_GRANTED c 0 (chkRelease (.port c) s)))
    else s)

/-! ### Completion (R365–R370, R404, R437) -/

/-- Bin of a latency in ns (R404). -/
def latBin (t : Nat) : Nat := let us := t / 1000; if us < 2 then 0 else min 31 (Nat.log2 us)

/-- The tally counts of a completion entry posted (R437). -/
def tallyPost (x : Cmd) (s : State) : State :=
  let f := x.fn
  let b := x.bytes
  let s :=
    if x.inv then tally f 6 1 s
    else if isAdmin x then tally f 5 1 s
    else if readClass x then tally f 3 1 (tally f 2 b.2 (tally f 0 b.1 s))
    else if opc x = 8 then tally f 4 1 s
    else if writeClass x then s
    else tally f 6 1 s
  let s := if x.status = 0 then s else tally f 7 1 s
  let s := if isAdmin x then s else tally f 13 ((s.time - x.t) / 1000) s
  if x.status % 0x4000 = stXfer || (writeClass x && x.flags.testBit 3) then tally f 14 1 s else s

/-- The latency histogram takes a completion (R404). -/
def histPost (x : Cmd) (s : State) : State :=
  if x.inv || !(readClass x || writeClass x) then s
  else
    let k := x.fn * 64 + (if readClass x then 0 else 32) + latBin (s.time - x.t)
    { s with sched := { s.sched with hist := Tab.set s.sched.hist 0 k ((Tab.get s.sched.hist 0 k + 1) % 2 ^ 64) } }

/-- The 16 bytes of a completion entry. -/
def cplBytes (s : State) (f : Nat) (e : CplEnt) (phase : Bool) : List Byte :=
  bytesOf 4 e.dw0 ++ bytesOf 4 0 ++ bytesOf 2 (((sq s f e.sq).map (·.head)).getD 0) ++ bytesOf 2 e.sq ++ bytesOf 2 e.cid ++
    bytesOf 2 (2 * e.status + phase.toNat)

/-- An entry that became ready earlier, while its function could issue nothing, goes first: the head of another queue of `f` with room (R305). -/
def cplBehind (s : State) (f q : Nat) (e : CplEnt) : Bool :=
  (fnr s f).cqs.any (fun (p, d) => p != q && d.wait.head?.any (fun w => w.stalled && w.n < e.n) && (d.tail + 1) % max 1 d.size != d.head)

/-- COMPLETION_POST (R295, R305, R346, R365, R475): the oldest entry that waits on completion queue `q` is posted once there is room; its
command's slot and choker are free, and the vector is signalled. -/
def execCompletionPost (f : Fin 64) (q : Fin 65) (s : State) : Answer :=
  let (f, q) := (f.val, q.val)
  match cq s f q with
  | none => .next s
  | some c => match c.wait with
    | [] => .next s
    | e :: t =>
      if !canIssue s f || safe s || (c.tail + 1) % max 1 c.size = c.head || cplBehind s f q e then .next s
      else
        let s := toHost (.hostWrite f (c.base + 16 * c.tail) (cplBytes s f e c.phase) false false) s
        let tail := (c.tail + 1) % max 1 c.size
        let s := setCq f q { c with wait := t, tail := tail, phase := if tail = 0 then !c.phase else c.phase } s
        let s := match e.slot with
          | none => s
          | some k => match cmd s k with
            | none => s
            | some x => orderGo f x.sq (dropCmd k (chkRelease (.cmd k) (histPost x (tallyPost x s))))
        let s := if c.ien then signal f q c.iv s else s
        .next (fetchAll s)

/-- TLER_EXPIRE (R337): a read-class command with units unfinished ends with Unrecovered Read Error. -/
def execTlerExpire (slot : Fin 4096) (s : State) : Answer :=
  match cmd s slot.val with
  | none => .next s
  | some x =>
    if !readClass x || x.phase == .done || feature s x.fn 5 % 65536 = 0 || (x.phase == .active && x.need ≤ x.ust.length) then .next s
    else
      let us := unitSts s x
      let lba := ((nsr s (nsidOf x)).map (fun r => failLba s r x us)).getD (slba x)
      let x := { x with ck := none, flags := x.flags ||| (if us.any (fun e => e.2 == 1) then 6 else 4) }
      let s := match x.op with | some o => withdraw o s | none => s
      .next (orderGo x.fn x.sq (cmdEndAt x 0x281 0 lba (chkRelease (.cmd x.slot) (dropReqs x.slot s))))

/-- COALESCE_TIMEOUT (R304, R370): TIME has passed since the oldest unsignalled entry, and the coalesced vector fires; while the function may
issue no request its interrupt is queued. -/
def execCoalesceTimeout (f : Fin 64) (v : Fin 2048) (s : State) : Answer :=
  let f := f.val
  .next (match Tab.get? (fnr s f).unsig v.val with
    | none => s
    | some e =>
      if s.time < e.2 + 100000 * (feature s f 8 / 256 % 256) then s
      else if canIssue s f then unsigFire f v.val s else setFn f { fnr s f with unsig := Tab.put (fnr s f).unsig v.val (unsigDue, e.2) } s)

end Sys2Proof.Machine
end

