-- ==== Sys2Proof/Machine/IoCmd.lean ====
section
/-! DEFINITION. The I/O commands (R257, R335, R349–R352, R366, R567). Each acts on the command of its kind in a context slot once its choker
is granted; drive firmware's choice of landing buffers is an operand. -/

namespace Sys2Proof.Machine

open Sys2Proof

/-- Drive firmware's landing buffers for a command: data, host metadata, and the same for merges or a Compare's host side. -/
def withBufs (x : Cmd) (l : LandBufs) : Cmd := { x with buf := 64 * l.buf, md := 64 * l.md, scr := 64 * l.scr, scrMd := 64 * l.scrMd }

/-- The command in slot `k` is of opcode `o`, granted. -/
def granted (s : State) (k o : Nat) : Option Cmd := (cmd s k).bind (fun x => if !isAdmin x && opc x == o && x.phase == .granted then some x else none)

/-- `n` units at `buf` and `md` of the landing are cleared for a command; a format without host metadata has no metadata area. -/
def unitsClear (r : NsRec) (buf md n : Nat) (s : State) : State :=
  upTo n (fun i s =>
    let s := hwWrite 13 (buf + 4096 * i) (List.replicate 4096 0) 0 0 s
    if fmtM r.flbas = 0 then s else hwWrite 13 (md + 64 * i) (List.replicate 64 0) 0 0 s) s

/-- Unit `u` can be had without media: its newest copy is held. -/
def heldUnit (s : State) (nsid u : Nat) : Bool := match newest s nsid u with
  | .held _ => true
  | _ => false

/-- Units are read for a command, by their indices. With the spindle in FAILED those that need it are not, which decides the command's status only
when no earlier row of R366 does. -/
def unitsRead (x : Cmd) (buf md : Nat) (lr : Bool) (us : List (Nat × Nat)) (s : State) : State :=
  let out := if spmSt s = 11 then us.filter (fun e => !heldUnit s (nsidOf x) e.2) else []
  let go := us.filter (fun e => !out.contains e)
  let x := { x with ust := each out (fun e t => Tab.put t e.1 stSpindle) x.ust, merged := go.isEmpty }
  if go.isEmpty then setCmd x s else cmdRead x.slot x.fn (nsidOf x) buf md lr go (setCmd x s)

/-- The units of a read-class command are read; a Compare's area for the host's data is cleared (R264, R335, R366). -/
def startUnits (x : Cmd) (l : LandBufs) (s : State) : State :=
  match nsr s (nsidOf x) with
  | none => s
  | some r =>
    let u := unitsOf r x
    let n := u.2 + 1 - u.1
    let x := { withBufs x l with phase := .active, need := n }
    let s := if opc x = 5 then unitsClear r x.scr x.scrMd n s else s
    let s := unitsRead x x.buf x.md ((cdw x 12).testBit 31) ((List.range n).map (fun i => (i, u.1 + i))) s
    xferGo x.slot (readFinish x.slot s)

/-- The merges of a write: index in the scratch area and unit (R131). -/
def mergeUnits (r : NsRec) (x : Cmd) : List (Nat × Nat) :=
  let u := unitsOf r x
  let lead := slba x % lpu r ≠ 0
  let tail := (slba x + nlb x) % lpu r ≠ 0
  if lead then (0, u.1) :: (if tail && u.1 ≠ u.2 then [(1, u.2)] else []) else if tail then [(0, u.2)] else []

/-- A write's landing area is cleared, its merges are read, and its host data is asked for (R131, R257 step 1). -/
def startWrite (x : Cmd) (l : LandBufs) (s : State) : State :=
  match nsr s (nsidOf x) with
  | none => s
  | some r =>
    let u := unitsOf r x
    let x := { withBufs x l with phase := .active }
    xferGo x.slot (unitsRead x x.scr x.scrMd false (mergeUnits r x) (unitsClear r x.buf x.md (u.2 + 1 - u.1) s))

/-- READ (R264, R335, R349). -/
def execRead (slot : Fin 4096) (l : LandBufs) (s : State) : Answer :=
  .next (match granted s slot.val 0x02 with | some x => startUnits x l s | none => s)

/-- ORDERED_READ (R350): as Read, its commit point in submission order. -/
def execOrderedRead (slot : Fin 4096) (l : LandBufs) (s : State) : Answer :=
  .next (match granted s slot.val 0x82 with | some x => startUnits x l s | none => s)

/-- VERIFY (R335): reads and checks without data transfer. -/
def execVerify (slot : Fin 4096) (l : LandBufs) (s : State) : Answer :=
  .next (match granted s slot.val 0x0C with | some x => startUnits x l s | none => s)

/-- COMPARE (R335): reads units and takes the host's data beside them. -/
def execCompare (slot : Fin 4096) (l : LandBufs) (s : State) : Answer :=
  .next (match granted s slot.val 0x05 with | some x => startUnits x l s | none => s)

/-- WRITE (R131, R257). -/
def execWrite (slot : Fin 4096) (l : LandBufs) (s : State) : Answer :=
  .next (match granted s slot.val 0x01 with | some x => startWrite x l s | none => s)

/-- ORDERED_WRITE (R350): as Write, its commit point in submission order. -/
def execOrderedWrite (slot : Fin 4096) (l : LandBufs) (s : State) : Answer :=
  .next (match granted s slot.val 0x81 with | some x => startWrite x l s | none => s)

/-- WRITE_ZEROES (R335): zero data; no data comes from the host. -/
def execWriteZeroes (slot : Fin 4096) (l : LandBufs) (s : State) : Answer :=
  .next (match granted s slot.val 0x08 with | some x => startWrite x l s | none => s)

/-- WRITE_DATA_RECEIVED (R257 step 2, R349–R352, R567): all data of the write is in the landing; it is judged and reaches its commit point, and
writes of its queue that waited for it follow. -/
def execWriteDataReceived (slot : Fin 4096) (s : State) : Answer :=
  let t := writeCommit slot.val s
  .next (match cmd s slot.val with
    | some x => orderGo x.fn x.sq t
    | none => t)

/-- Earlier commands of the queue that have not completed. -/
def earlier (s : State) (x : Cmd) : List Cmd := (ofSq s x.fn x.sq).filter (fun c => c.ord < x.ord && c.phase != .done)

/-- The command in slot `k` is a command without a choker, of opcode `o`, ready to be carried out. -/
def running (s : State) (k o : Nat) : Option Cmd := (cmd s k).bind (fun x => if !isAdmin x && opc x == o && x.phase == .run then some x else none)

/-- FLUSH (R335, R338, R351, R352): completes when every earlier write of its SQ has completed and the order lets it. -/
def execFlush (slot : Fin 4096) (s : State) : Answer :=
  .next (match running s slot.val 0x00 with
    | none => s
    | some x => if (earlier s x).any writeClass || !mayCommit s x then s else orderGo x.fn x.sq (cmdEnd { x with commit := true } 0 0 s))

/-- Every command of a broken queue from the Barrier on, up to the next Barrier, ends with ORDER_BROKEN (R352). -/
def breakQueue (f q : Nat) (s : State) : State :=
  each (sortBy (·.ord) (ofSq s f q)) (fun c s => match cmd s c.slot with
    | none => s
    | some x =>
      if barrier x || x.phase == .done || x.commit || !sqBroken s x then s
      else
        let s := match x.op with | some o => withdraw o s | none => s
        let s := dropReqs x.slot s
        cmdEnd { x with ck := none } stOrderBroken 0 (if writeClass x && x.ck.isSome then s else chkRelease (.cmd x.slot) s)) s

/-- BARRIER (R351, R352): completes when every earlier command of its SQ has completed; with FAILSTOP a failure among those since the
previous Barrier breaks the queue, unless it was broken already, which this Barrier ends. -/
def execBarrier (slot : Fin 4096) (s : State) : Answer :=
  .next (match running s slot.val 0x84 with
    | none => s
    | some x =>
      if !(earlier s x).isEmpty then s
      else match sq s x.fn x.sq with
        | none => s
        | some q =>
          let brk := (cdw x 10).testBit 0 && q.failed.any (· < x.ord) && q.broken.isNone
          let s := cmdEnd { x with commit := true } (if brk then stBarrierBroken else 0) 0 s
          let s := match sq s x.fn x.sq with
            | some q => setSq x.fn x.sq { q with failed := q.failed.filter (x.ord < ·), broken := if brk then some x.ord else none } s
            | none => s
          orderGo x.fn x.sq (if brk then breakQueue x.fn x.sq s else s))

end Sys2Proof.Machine
end

