-- ==== Sys2Proof/Machine/Crypto.lean ====
section
/-! DEFINITION. What secure boot computes: SHA-384 and the verification of an ECDSA signature on P-384, as FIPS 180-4 and FIPS 186-4 define
them (R497, R498). -/

namespace Sys2Proof

/-! ### SHA-384 -/

/-- The first 80 primes. -/
def primes80 : List Nat := (List.range 410).filter (fun n => 2 ≤ n && (List.range n).all (fun d => d < 2 || n % d != 0))

/-- Integer cube root by binary descent from bit `k`. -/
def icbrtFrom : Nat → Nat → Nat → Nat
  | 0, n, r => if (r + 1) * (r + 1) * (r + 1) ≤ n then r + 1 else r
  | k + 1, n, r =>
    let r' := r + 2 ^ (k + 1)
    icbrtFrom k n (if r' * r' * r' ≤ n then r' else r)

/-- Round constants: the first 64 bits of the fractional parts of the cube roots of the first 80 primes. -/
def shaK : List Nat := primes80.map (fun p => icbrtFrom 67 (p * 2 ^ 192) 0 % 2 ^ 64)

/-- Initial value: the same of the square roots of the ninth to sixteenth primes. -/
def shaIv : List Nat := ((primes80.drop 8).take 8).map (fun p => isqrtFrom 67 (p * 2 ^ 128) 0 % 2 ^ 64)

/-- Right rotation of a 64-bit word. -/
def rotr (n x : Nat) : Nat := (x >>> n) ||| ((x <<< (64 - n)) % 2 ^ 64)

/-- The message schedule, built in reverse from the sixteen words of a block. -/
def shaSched : Nat → List Nat → List Nat
  | 0, r => r.reverse
  | k + 1, r =>
    let a := r.getD 1 0
    let b := r.getD 14 0
    let s1 := rotr 19 a ^^^ rotr 61 a ^^^ (a >>> 6)
    let s0 := rotr 1 b ^^^ rotr 8 b ^^^ (b >>> 7)
    shaSched k ((s1 + r.getD 6 0 + s0 + r.getD 15 0) % 2 ^ 64 :: r)

/-- One round on the eight working variables. -/
def shaRound (h : List Nat) (kw : Nat × Nat) : List Nat :=
  match h with
  | [a, b, c, d, e, f, g, i] =>
    let t1 := i + (rotr 14 e ^^^ rotr 18 e ^^^ rotr 41 e) + ((e &&& f) ^^^ ((2 ^ 64 - 1 - e) &&& g)) + kw.1 + kw.2
    let t2 := (rotr 28 a ^^^ rotr 34 a ^^^ rotr 39 a) + ((a &&& b) ^^^ (a &&& c) ^^^ (b &&& c))
    [(t1 + t2) % 2 ^ 64, a, b, c, (d + t1) % 2 ^ 64, e, f, g]
  | _ => h

/-- A big-endian number. -/
def beNat (bs : List Byte) : Nat := bs.foldl (fun v b => v * 256 + b.toNat) 0

/-- One block of 128 bytes. -/
def shaBlock (h : List Nat) (blk : List Byte) : List Nat :=
  let w := (List.range 16).map (fun i => beNat ((blk.drop (8 * i)).take 8))
  let h' := (shaK.zip (shaSched 64 w.reverse)).foldl shaRound h
  List.zipWith (fun x y => (x + y) % 2 ^ 64) h h'

/-- `n` bytes of a number, highest first. -/
def beBytes (n v : Nat) : List Byte := (bytesOf n v).reverse

/-- The SHA-384 digest, 48 bytes. -/
def sha384 (m : List Byte) : List Byte :=
  let z := (239 - m.length % 128) % 128
  let p := m ++ [0x80] ++ List.replicate z 0 ++ beBytes 16 (8 * m.length)
  let h := (List.range (p.length / 128)).foldl (fun h i => shaBlock h ((p.drop (128 * i)).take 128)) shaIv
  (h.take 6).flatMap (beBytes 8)

/-! ### ECDSA on P-384 -/

def p384 : Nat := 2 ^ 384 - 2 ^ 128 - 2 ^ 96 + 2 ^ 32 - 1
def n384 : Nat := 0xFFFFFFFFFFFFFFFFFFFFFFFFFFFFFFFFFFFFFFFFFFFFFFFFC7634D81F4372DDF581A0DB248B0A77AECEC196ACCC52973
def b384 : Nat := 0xB3312FA7E23EE7E4988E056BE3F82D19181D9C6EFE8141120314088F5013875AC656398D8A2ED19D2A85C8EDD3EC2AEF
def g384 : Nat × Nat :=
  (0xAA87CA22BE8B05378EB1C71EF320AD746E1D3B628BA79B9859F741E082542A385502F25DBF55296C3A545E3872760AB7,
   0x3617DE4A96262C6F5D9E98BF9292DC29F8F41DBD289A147CE9DA3113B5F0B8C00A60B1CE1D7E819D7A431D7C90EA0E5F)

/-- b^e mod m by its low `k` bits. -/
def modPow (m : Nat) : Nat → Nat → Nat → Nat
  | 0, _, _ => 1 % m
  | k + 1, b, e => (if e % 2 = 1 then b else 1) * modPow m k (b * b % m) (e / 2) % m

/-- The inverse modulo a prime. -/
def modInv (m a : Nat) : Nat := modPow m 384 (a % m) (m - 2)

/-- The sum of two points; none is the point at infinity. -/
def ecAdd (a b : Option (Nat × Nat)) : Option (Nat × Nat) := match a, b with
  | none, b => b
  | a, none => a
  | some (x1, y1), some (x2, y2) =>
    if x1 = x2 && (y1 + y2) % p384 = 0 then none
    else
      let l := if x1 = x2 then (3 * x1 * x1 + (p384 - 3)) * modInv p384 (2 * y1) % p384
        else (y2 + p384 - y1) * modInv p384 (x2 + p384 - x1) % p384
      let x := (l * l + 2 * p384 - x1 - x2) % p384
      some (x, (l * (x1 + p384 - x) + p384 - y1) % p384)

/-- k times a point, by the low `w` bits of k. -/
def ecMul : Nat → Nat → Option (Nat × Nat) → Option (Nat × Nat)
  | 0, _, _ => none
  | w + 1, k, p => ecAdd (if k % 2 = 1 then p else none) (ecMul w (k / 2) (ecAdd p p))

/-- The point lies on the curve. -/
def onCurve (x y : Nat) : Bool := x < p384 && y < p384 && y * y % p384 == (x * x * x + (p384 - 3) * x + b384) % p384

/-- The signature (r, s) of a digest verifies under the public key (x, y). -/
def ecdsaOk (x y r s : Nat) (digest : List Byte) : Bool :=
  if !onCurve x y || r = 0 || n384 ≤ r || s = 0 || n384 ≤ s then false
  else
    let e := beNat digest
    let w := modInv n384 s
    match ecAdd (ecMul 384 (e * w % n384) (some g384)) (ecMul 384 (r * w % n384) (some (x, y))) with
    | none => false
    | some (v, _) => v % n384 == r

end Sys2Proof
end

