-- ==== Sys2Proof/Machine/OpsBlaze.lean ====
section
/-! DEFINITION. Blaze records as bytes, and the areas they stand in (R447–R449, R455, R457). -/

namespace Sys2Proof.Machine

open Sys2Proof

/-- CHECK of a 32-byte record (R448). -/
def blzCheck (bs : List Byte) : Nat := crcCcitt ((bs.drop 1).take 0x17 ++ (bs.drop 0x1C).take 2)

/-- The bytes of a record, MARK 0xFF (R448). -/
def blzBytes (r : BlzRec) : List Byte :=
  let b := [0xFF, byte r.ty] ++ bytesOf 2 r.src ++ bytesOf 4 r.seq ++ bytesOf 8 r.time ++ bytesOf 8 r.data ++ bytesOf 4 r.rep ++ [0xFF, 0xFF]
  b ++ bytesOf 2 (blzCheck b)

/-- A 32-byte slot holds a valid record (R457). -/
def blzValid (bs : List Byte) : Bool := le bs 0 1 == 0x5A && le bs 0x1E 2 == blzCheck bs

/-- All 32 bytes read 0xFF. -/
def blzEmpty (bs : List Byte) : Bool := bs.all (· == 0xFF)

/-- The 32 bytes of a slot in the NOR, and in the mirror; permanent slots 0–255, circulating ones from 256. -/
def norSlot (s : State) (k : Nat) : List Byte := norRead s (blzNorAddr k) 32
def mirSlot (s : State) (k : Nat) : List Byte := (List.range 32).map (fun i => Tab.get s.mirror 0xFF (32 * k + i))

/-- a is later than b, modulo 2^32 (R446). -/
def later32 (a b : Nat) : Bool := let d := (a + 2 ^ 32 - b % 2 ^ 32) % 2 ^ 32; 1 ≤ d && d < 2 ^ 31

/-- Valid records among slots lo to hi - 1 read by `rd`: slot and bytes. -/
def blzIn (rd : Nat → List Byte) (lo hi : Nat) : List (Nat × List Byte) :=
  ((List.range (hi - lo)).map (fun i => (lo + i, rd (lo + i)))).filter (fun e => blzValid e.2)

/-- SEQ of a record's bytes. -/
def blzSeqOf (e : Nat × List Byte) : Nat := le e.2 4 4

/-- The record of latest SEQ (R446). -/
def blzLatest (l : List (Nat × List Byte)) : Option (Nat × List Byte) :=
  l.foldl (fun b e => match b with | none => some e | some x => if later32 (blzSeqOf e) (blzSeqOf x) then some e else some x) none

/-- Circulating records in SEQ order, the oldest first: in ring order from the one after the latest (R447, R458). -/
def circOrder (l : List (Nat × List Byte)) : List (Nat × List Byte) := match blzLatest l with
  | none => []
  | some x => sortBy (fun e => (blzSeqOf e + 2 ^ 32 - (blzSeqOf x + 1) % 2 ^ 32) % 2 ^ 32) l

/-- The mirror's permanent and circulating records that are valid, in SEQ order. -/
def permRecs (s : State) : List (List Byte) := (blzIn (mirSlot s) 0 256).map (·.2)
def circRecs (s : State) : List (List Byte) := (circOrder (blzIn (mirSlot s) 256 4608)).map (·.2)

/-- Bytes of the mirror taken anew from the NOR, `n` from offset `o` of the area. -/
def mirrorCopy (o n : Nat) (s : State) : State := { s with mirror := putFF s.mirror o (norRead s (0x01980000 + o) n) }

end Sys2Proof.Machine
end

