-- ==== Sys2Proof/Machine/OpsMgt.lean ====
section
/-! DEFINITION. Firmware images, the boot selector and the life record ring in the serial NOR (R487, R490, R497–R499, R502). -/

namespace Sys2Proof.Machine

open Sys2Proof

/-! ### Firmware images (R487, R497, R498) -/

/-- Where an image stands: at a NOR offset, or at a landing address. -/
inductive ImgAt where
  | nor (a : Nat)
  | land (a : Nat)

/-- NOR offset of firmware slot 1–4. -/
def slotAddr (k : Nat) : Nat := 0x00100000 + (k - 1) * 0x00600000

/-- Bytes of an image. -/
def imgBytes (s : State) (p : ImgAt) (o n : Nat) : List Byte := match p with
  | .nor a => norRead s (a + o) n
  | .land a => hwBytes s (a + o) n

/-- A little-endian field of an image. -/
def imgNat (s : State) (p : ImgAt) (o n : Nat) : Nat := natOf (imgBytes s p o n)

/-- TOTAL_LEN. -/
def imgLen (s : State) (p : ImgAt) : Nat := imgNat s p 0x18 4

/-- A segment: target, offset in the image, offset in the target, bytes. -/
structure Seg where
  target : Nat
  off : Nat
  load : Nat
  len : Nat

/-- The segments of an image. -/
def imgSegs (s : State) (p : ImgAt) : List Seg :=
  (List.range (min 8 (imgNat s p 0x0C 2))).map (fun i =>
    let b := imgBytes s p (0x40 + 16 * i) 16
    ⟨le b 0 1, le b 4 4, le b 8 4, le b 12 4⟩)

/-- Bytes of a segment target; 0 for a target that does not exist. -/
def targetSize (t : Nat) : Nat := if t = 1 then 0x80000 else if 2 ≤ t && t ≤ 5 then 0x40000 else if t = 6 then sramSize else 0

/-- Two segments share bytes of the image, which is how check 2 of R498 is read (DEDUCED, log entry 11): loads that overlap in a target are no
matter of the image. -/
def segOverlap (a b : Seg) : Bool := a.off < b.off + b.len && b.off < a.off + a.len

/-- No two of the segments overlap. -/
def segsApart : List Seg → Bool
  | [] => true
  | a :: t => !t.any (segOverlap a) && segsApart t

/-- Check 2 of R498. -/
def imgFits (s : State) (p : ImgAt) : Bool :=
  let l := imgSegs s p
  let n := imgNat s p 0x0C 2
  imgLen s p ≤ 0x600000 && 1 ≤ n && n ≤ 8 && segsApart l &&
    l.all (fun g => g.off + g.len ≤ 0x600000 && targetSize g.target != 0 && g.load + g.len ≤ targetSize g.target)

/-- Fuse key slot `k`: the digest of a public key, fused by the integrator (log entry 3). -/
def fuseKey (k : Nat) : List Byte := (List.range 48).map (Config.partByte (0x180 + k))

/-- The checks of R498, in order. The public key and the signature are numbers in the byte order of R8. -/
def imgOk (s : State) (p : ImgAt) : Bool :=
  let k := imgNat s p 6 1
  imgNat s p 0 4 == 0x474D494B && imgNat s p 4 2 == 1 && imgFits s p &&
    k ≤ 3 && sha384 (imgBytes s p 0x100 96) == fuseKey k && !s.fuse.revoked.testBit k &&
    s.fuse.svn ≤ imgNat s p 8 4 &&
    ecdsaOk (imgNat s p 0x100 48) (imgNat s p 0x130 48) (imgNat s p 0x180 48) (imgNat s p 0x1B0 48)
      (sha384 (imgBytes s p 0 0x180 ++ imgBytes s p 0x200 (imgLen s p - 0x200)))

/-- The image is checked; a failed check reports checker 218. -/
def imgCheck (p : ImgAt) (s : State) : Bool × State := if imgOk s p then (true, s) else (false, report 218 none 5 0 0 0 s)

/-- A segment is copied to its target. -/
def segLoad (p : ImgAt) (g : Seg) (s : State) : State :=
  let bs := imgBytes s p g.off g.len
  if g.target = 1 then { s with lyo := putBytes s.lyo g.load bs }
  else if g.target = 6 then sramWrite (sramBase + g.load) bs s
  else { s with tcm := putBytes s.tcm ((g.target - 2) * 2 ^ 20 + g.load) bs }

/-- The segments of the control cores, or of the Lyolo core, are copied. -/
def segsLoad (ly : Bool) (p : ImgAt) (s : State) : State := each ((imgSegs s p).filter (fun g => (g.target == 1) == ly)) (segLoad p) s

/-- FW_REV of the image in slot `k` (R497). -/
def fwRev (s : State) (k : Nat) : List Byte := norRead s (slotAddr k + 0x10) 8

/-! ### The boot selector (R499) -/

/-- A boot selector copy. -/
structure Sel where
  copy : Nat
  seq : Nat
  active : Nat
  next : Nat
  fall : List Nat

/-- Selector copy `c`, when it is valid. -/
def selCopy (s : State) (c : Nat) : Option Sel :=
  let b := norRead s (0x1000 * c) 18
  if le b 0 4 = 0x4C45534B && le b 0x0E 4 = crc32c (b.take 14) then some ⟨c, le b 4 4, le b 8 1, le b 9 1, ((b.drop 10).take 4).map (·.toNat)⟩ else none

/-- The selector copy in use. -/
def selector (s : State) : Option Sel := match selCopy s 0, selCopy s 1 with
  | some a, some b => if later32 b.seq a.seq then some b else some a
  | some a, none => some a
  | none, b => b

/-- Management firmware writes the other copy with SEQ + 1. -/
def selWrite (active next : Nat) (s : State) : State :=
  let (c, seq, fall) := match selector s with
    | some x => (1 - x.copy, (x.seq + 1) % 2 ^ 32, x.fall)
    | none => (0, 1, [0, 0, 0, 0])
  let b := bytesOf 4 0x4C45534B ++ bytesOf 4 seq ++ [byte active, byte next] ++ fall.map byte
  norProgram (0x1000 * c) (b ++ bytesOf 4 (crc32c b)) (norErase (0x1000 * c) 0x1000 s)

/-- Slots in the order the boot ROM tries them: NEXT if set, else ACTIVE; then those of FALLBACK (R500). -/
def bootOrder (s : State) : List Nat := match selector s with
  | none => []
  | some x => ((if x.next ≠ 0 then x.next else x.active) :: x.fall).filter (fun k => 1 ≤ k && k ≤ 4)

/-! ### The life record ring (R490) -/

def lifeBase : Nat := 0x019C0000
def lifeSlots : Nat := 4096

/-- PCYCLE and SECONDS of ring slot `i`, when its record is valid. -/
def lifeRec (s : State) (i : Nat) : Option (Nat × Nat) :=
  let b := norRead s (lifeBase + 16 * i) 16
  if le b 0 1 = 0x5A && le b 0x0C 4 = crc32c ((b.drop 1).take 11) then some (le b 2 3, le b 5 5) else none

/-- The valid record with the greatest PCYCLE, and within it the greatest SECONDS, with its slot. -/
def lifeBest (s : State) : Option (Nat × Nat × Nat) :=
  (List.range lifeSlots).foldl (fun best i => match lifeRec s i, best with
    | some (p, t), some (p', t', _) => if p' < p || (p' = p && t' < t) then some (p, t, i) else best
    | some (p, t), none => some (p, t, i)
    | none, _ => best) none

/-- Slot `i` reads erased. -/
def lifeBlank (s : State) (i : Nat) : Bool := norRead s (lifeBase + 16 * i) 16 == List.replicate 16 0xFF

/-- The slot that follows the best record: the next one of its sector that is blank, else the first of the next sector. -/
def lifeNext (s : State) : Nat := match lifeBest s with
  | none => 0
  | some (_, _, i) =>
    match (List.range (255 - i % 256)).find? (fun k => lifeBlank s (i + 1 + k)) with
    | some k => i + 1 + k
    | none => (i / 256 + 1) * 256 % lifeSlots

/-- A record of the present PCYCLE and SECONDS is written; a sector is erased before its first slot is used. -/
def lifeSave (s : State) : State :=
  let i := s.mgt.life
  let a := lifeBase + 16 * i
  let b := [byte 0] ++ bytesOf 3 (fld F.BLZ_TIME_PCYCLE 0 s) ++ bytesOf 5 (fld F.BLZ_TIME_SECONDS 0 s) ++ [byte 0, byte 0]
  let s := if i % 256 = 0 then norErase a 4096 s else s
  let s := norProgram a [0x5A] (norProgram (a + 1) (b ++ bytesOf 4 (crc32c b)) s)
  { s with mgt := { s.mgt with life := (i + 1) % lifeSlots, saved := fld F.BLZ_TIME_SECONDS 0 s } }

/-! ### The activation buffer (R502) -/

/-- Landing address of the activation buffer; the image of the running firmware is kept 8 MiB above it (log entry 11). -/
def actBuf (s : State) : Nat := fld F.MGT_ACT_BUF_ADDR 0 s * 2 ^ 24
def prevBuf (s : State) : Nat := actBuf s + 0x800000

/-- Power-on hours. -/
def powerHours (s : State) : Nat := fld F.BLZ_TIME_SECONDS 0 s / 3600

/-- Management firmware runs: its core is not held and the boot found an image (R501, R506). -/
def mgtRuns (s : State) : Bool := s.cpr.stage == 3 && !s.cpr.lyHeld && !s.cpr.aonSleep && !flag F.MGT_STAT_RECOVERY 0 s

end Sys2Proof.Machine
end

