-- ==== Sys2Proof/Machine/AdminCmd.lean ====
section
/-! DEFINITION. Admin commands over queues, features, events, Identify and secondary controllers (R323, R328, R334, R336, R338, R344, R362,
R363, R372). Each acts on the command of its kind in a context slot. -/

namespace Sys2Proof.Machine

open Sys2Proof

/-! ### What every admin command shares -/

/-- The admin command of opcode `o` in slot `k`, ready to be carried out. -/
def adm (s : State) (k o : Nat) : Option Cmd := (cmd s k).bind (fun x => if isAdmin x && opc x == o && x.phase == .run then some x else none)

/-- The same with an action in CDW10[3:0]. -/
def admAct (s : State) (k o a : Nat) : Option Cmd := (adm s k o).bind (fun x => if cdw x 10 % 16 == a then some x else none)

/-- Its lists are loaded and its function may issue requests: it can return data. -/
def outReady (s : State) (x : Cmd) : Bool := x.list.isNone && canIssue s x.fn

/-- All its host data has arrived. -/
def inReady (x : Cmd) : Bool := x.list.isNone && adminIn x ≤ x.got

/-- It ends with a status. -/
def admEnd (x : Cmd) (st dw0 : Nat) (s : State) : State := cmdEnd x st dw0 s

/-- It returns data, cut to its transfer, and ends successfully. -/
def admSend (x : Cmd) (bs : List Byte) (dw0 : Nat) (s : State) : State :=
  let n := adminOut x
  admEnd x 0 dw0 (sendSegs x.fn false x.segs (clean ((bs ++ List.replicate (n - bs.length) 0).take n)) s)

/-- Queue pairs beside the admin pair, and vectors, that function `f` holds (R289, R322). -/
def ioPairs (s : State) (f : Nat) : Nat := if f = 0 then 64 else min 64 ((fnr s f).nq - 1)
def vecs (s : State) (f : Nat) : Nat := if f = 0 then 65 else (fnr s f).nv

/-! ### Queues (R323, R363) -/

/-- CREATE_IO_CQ (R323). -/
def execCreateIoCq (slot : Fin 4096) (s : State) : Answer :=
  .next (match adm s slot.val 0x05 with
    | none => s
    | some x =>
      let f := x.fn
      let q := cdw x 10 % 65536
      let n := cdw x 10 / 65536 + 1
      let iv := cdw x 11 / 65536
      let base := le x.sqe 24 8
      if !(cdw x 11).testBit 0 || inBar2 s f base then admEnd x stField 0 s
      else if q = 0 || ioPairs s f < q || (cq s f q).isSome then admEnd x (0x101 + dnr) 0 s
      else if n < 2 || 4096 < n then admEnd x (0x102 + dnr) 0 s
      else if base % 4096 ≠ 0 then admEnd x (0x013 + dnr) 0 s
      else if vecs s f ≤ iv then admEnd x (0x108 + dnr) 0 s
      else admEnd x 0 0 (setCq f q ⟨base, n, iv, (cdw x 11).testBit 1, 0, 0, true, []⟩ s))

/-- CREATE_IO_SQ (R323, R327): in host memory, or whole in the CMB share. -/
def execCreateIoSq (slot : Fin 4096) (s : State) : Answer :=
  .next (match adm s slot.val 0x01 with
    | none => s
    | some x =>
      let f := x.fn
      let q := cdw x 10 % 65536
      let n := cdw x 10 / 65536 + 1
      let c := cdw x 11 / 65536
      let base := le x.sqe 24 8
      let g := segOf s f base (64 * n)
      if !(cdw x 11).testBit 0 || segsBad s f false [g] then admEnd x stField 0 s
      else if q = 0 || ioPairs s f < q || (sq s f q).isSome then admEnd x (0x101 + dnr) 0 s
      else if c = 0 || (cq s f c).isNone then admEnd x (0x100 + dnr) 0 s
      else if n < 2 || 4096 < n then admEnd x (0x102 + dnr) 0 s
      else if base % 4096 ≠ 0 then admEnd x (0x013 + dnr) 0 s
      else admEnd x 0 0 (setSq f q ⟨g.2.1, n, c, g.1 == 1, 0, 0, 0, [], 0, [], none⟩ s))

/-- DELETE_IO_SQ (R358, R363): its commands are resolved, with their completions posted. -/
def execDeleteIoSq (slot : Fin 4096) (s : State) : Answer :=
  .next (match adm s slot.val 0x00 with
    | none => s
    | some x =>
      let f := x.fn
      let q := cdw x 10 % 65536
      if q = 0 || (sq s f q).isNone then admEnd x (0x101 + dnr) 0 s
      else
        let s := each (ofSq s f q) (fun c s => resolveWith 0x008 c s) s
        let s := flushReqs (fun r => r.fn == f && (match r.kind with | .sqFetch p _ => p == q | _ => false)) s
        admEnd x 0 0 (setFn f { fnr s f with sqs := Tab.erase (fnr s f).sqs q } s))

/-- DELETE_IO_CQ (R363): refused while a submission queue uses it; entries that wait on it go with it, and
writes among them leave orphan records (R364). -/
def execDeleteIoCq (slot : Fin 4096) (s : State) : Answer :=
  .next (match adm s slot.val 0x04 with
    | none => s
    | some x =>
      let f := x.fn
      let q := cdw x 10 % 65536
      match cq s f q with
      | none => admEnd x (0x101 + dnr) 0 s
      | some c =>
        if q = 0 then admEnd x (0x101 + dnr) 0 s
        else if (fnr s f).sqs.any (fun e => e.2.cq == q) then admEnd x (0x10C + dnr) 0 s
        else
          let s := each c.wait (fun e s => match e.slot with
            | some k =>
              let s := match cmd s k with
                | some y => if y.commit && writeClass y then orphan y s else s
                | none => s
              dropCmd k (chkRelease (.cmd k) s)
            | none => s) s
          let s := setFn f { fnr s f with cqs := Tab.erase (fnr s f).cqs q } s
          admEnd x 0 0 (if f = 0 then intxUpdate s else s))

/-! ### Abort and asynchronous events (R334, R362, R372) -/

/-- ABORT (R332, R358, R362): DW0 bit 0 is 0 when the command named was resolved, 1 when it could not be. Which of several commands with the
identifier is meant is open. -/
def execAbort (slot : Fin 4096) (s : State) : Answer :=
  .next (match adm s slot.val 0x08 with
    | none => s
    | some x =>
      let q := cdw x 10 % 65536
      let id := cdw x 10 / 65536
      let live := (Tab.vals s.deck.cmds).filter (fun c => c.fn == x.fn && isAdmin c && opc c == 8 && c.phase != .done)
      let l := (Tab.vals s.deck.cmds).filter (fun c => c.fn == x.fn && c.sq == q && !detached c && cidOf c == id && c.slot != x.slot && c.phase != .done)
      let (i, s) := if 1 < l.length then takeFree s else (0, s)
      if 8 < live.length then admEnd x (0x103 + dnr) 0 s
      else match l[i % max 1 l.length]? with
        | none => admEnd x 0 1 s
        | some c =>
          if (c.commit && writeClass c) || (isAdmin c && [0x80, 0x0D, 0x15].contains (opc c) && (c.phase == .granted || c.phase == .active)) then admEnd x 0 1 s
          else
            let s := resolveWith 0x007 c s
            let s := setFn x.fn { fnr s x.fn with aer := (fnr s x.fn).aer.filter (· != c.slot) } s
            orderGo c.fn c.sq (admEnd x 0 0 s))

/-- ASYNC_EVENT_REQUEST (R334, R372): completes at once with a held event, or waits; four may wait. -/
def execAsyncEventRequest (slot : Fin 4096) (s : State) : Answer :=
  .next (match adm s slot.val 0x0C with
    | none => s
    | some x =>
      let r := fnr s x.fn
      match r.events with
      | (ty, info) :: t => admEnd x 0 (ty + info * 256 + aerPage ty info * 65536) (setFn x.fn { r with events := t } s)
      | [] =>
        if 4 ≤ r.aer.length then admEnd x (0x105 + dnr) 0 s
        else setCmd { x with phase := .active } (setFn x.fn { r with aer := r.aer ++ [x.slot] } s))

/-! ### Features (R336) -/

/-- Bits of CDW11 a feature uses; none for a feature not supported. -/
def featBits (fid : Nat) : Option Nat :=
  match fid with
  | 0x01 => some 0xFFFFFF07
  | 0x02 => some 0xFF
  | 0x04 => some 0x3FFFFF
  | 0x05 => some 0x1FFFF
  | 0x07 => some 0xFFFFFFFF
  | 0x08 => some 0xFFFF
  | 0x09 => some 0x1FFFF
  | 0x0A => some 1
  | 0x0B => some 0xF8007FFF
  | 0xC1 => some 1
  | _ => none

/-- Number of Queues as granted for a request: 0's based counts of SQs and CQs. -/
def queuesGranted (s : State) (f req : Nat) : Nat :=
  let h := ioPairs s f
  (min (req % 65536 + 1) h - 1) + (min (req / 65536 + 1) h - 1) * 65536

/-- SET_FEATURES (R336). -/
def execSetFeatures (slot : Fin 4096) (s : State) : Answer :=
  .next (match adm s slot.val 0x09 with
    | none => s
    | some x =>
      let f := x.fn
      let fid := cdw x 10 % 256
      let v := cdw x 11
      let store := fun (key : Nat) (s : State) => setFn f { fnr s f with feat := Tab.put (fnr s f).feat key v } s
      match featBits fid with
      | none => admEnd x stField 0 s
      | some m =>
        if (cdw x 10).testBit 31 then admEnd x (0x10D + dnr) 0 s
        else if v &&& m ≠ v then admEnd x stField 0 s
        else if fid = 0x02 then (if v % 32 = 0 then admEnd x 0 0 (store fid s) else admEnd x stField 0 s)
        else if fid = 0x05 && v.testBit 16 then admEnd x stField 0 s
        else if fid = 0x07 then
          if v % 65536 = 65535 || v / 65536 = 65535 then admEnd x stField 0 s
          else if 1 < (fnr s f).sqs.length || 1 < (fnr s f).cqs.length then admEnd x (0x00C + dnr) 0 s
          else
            let g := queuesGranted s f v
            admEnd x 0 g (setFn f { fnr s f with feat := Tab.put (fnr s f).feat 0x07 g } s)
        else if fid = 0x09 then
          let iv := v % 65536
          if vecs s f ≤ iv then admEnd x stField 0 s
          else
            let l := (fnr s f).noCoal.filter (· != iv)
            admEnd x 0 0 (setFn f { fnr s f with noCoal := if v.testBit 16 then iv :: l else l } s)
        else if fid = 0x04 then
          let sel := v / 65536 % 16
          if (sel ≠ 0 && sel ≠ 15) || v.testBit 21 then admEnd x stField 0 s else admEnd x 0 0 (store (if v.testBit 20 then 0x104 else 4) s)
        else admEnd x 0 0 (store fid s))

/-- GET_FEATURES (R336): the current value, the default for Select 01b and 10b, or the capabilities: changeable, not saveable. -/
def execGetFeatures (slot : Fin 4096) (s : State) : Answer :=
  .next (match adm s slot.val 0x0A with
    | none => s
    | some x =>
      let f := x.fn
      let fid := cdw x 10 % 256
      let sel := cdw x 10 / 256 % 8
      let iv := cdw x 11 % 65536
      let all := (ioPairs s f - 1) * 65537
      let dflt := if fid = 0xC1 then 1 else if fid = 4 then (if (cdw x 11).testBit 20 then 0 else 0x157) else if fid = 7 then all else if fid = 9 then iv else 0
      let cur := if fid = 9 then iv + (if (fnr s f).noCoal.contains iv then 65536 else 0)
        else if fid = 4 && (cdw x 11).testBit 20 then (Tab.get? (fnr s f).feat 0x104).getD 0
        else if fid = 7 then (Tab.get? (fnr s f).feat 7).getD all
        else feature s f fid
      if (featBits fid).isNone || 3 < sel || (fid = 9 && vecs s f ≤ iv) then admEnd x stField 0 s
      else admEnd x 0 (if sel = 0 then cur else if sel = 3 then 4 else dflt) s)

/-! ### Identify (R334, R338, R344) -/

/-- A data structure of `n` bytes from its fields: offset, bytes, value; what no field names is 0. -/
def structOf (n : Nat) (fs : List (Nat × Nat × Nat)) : List Byte :=
  fs.foldl (fun l e => layAt l e.1 (bytesOf e.2.1 e.2.2)) (List.replicate n 0)

/-- Free bytes at an offset: what this manual and the specification leave to the maker, such as serial and model number. -/
def openBytes (o n : Nat) (l : List Byte) : List Byte := layAt l o ((List.range n).map (fun k => byte (Config.openVal 338 [(o : Int) + k]).toNat))

/-- Identify Controller for function `f` (R338). -/
def idCtrl (s : State) (f : Nat) : List Byte :=
  let l := structOf 4096 [(0, 2, 0x1E9C), (2, 2, fld F.HIF_ID_SSVID 0 s), (76, 1, 0x06), (77, 1, 8), (78, 2, f + 1), (80, 4, 0x20000), (92, 4, 0x300),
    (256, 2, if f = 0 then 0x008E else 0x0002), (258, 1, 7), (259, 1, 3), (260, 1, 0x18), (261, 1, 0x06), (262, 1, 63), (263, 1, 0),
    (512, 1, 0x66), (513, 1, 0x44), (516, 4, 256), (520, 2, 0x0089), (524, 1, 0), (525, 1, 0), (526, 2, 0), (528, 2, 0),
    (536, 4, 0x00010001), (2048, 2, 1580)]
  layAt (openBytes 4 60 (openBytes 73 3 (openBytes 266 4 (openBytes 280 32 l)))) 64 (if fld F.MGT_STAT_BOOT_SLOT 0 s = 0 then (List.range 8).map (fun k => byte (Config.openVal 501 [(k : Int)]).toNat) else fwRev s (fld F.MGT_STAT_BOOT_SLOT 0 s))

/-- LBA format `i` as Identify Namespace lists it. -/
def lbaFmt (i : Nat) : Nat := fmtM i + (if fmtL i = 512 then 9 else 12) * 65536

/-- Identify Namespace (R339, R344). -/
def idNs (r : NsRec) : List Byte :=
  let l := fmtL r.flbas
  let d := dataOf (if r.profile = 1 then 2 else 1)
  let aw := r.awu * 4096 / l - 1
  let pw := d * 4096 / l - 1
  structOf 4096 ([(0, 8, r.nsze), (8, 8, r.nsze), (16, 8, r.nsze), (24, 1, 0x12), (25, 1, 5), (26, 1, r.flbas), (27, 1, 3), (28, 1, 0x1F), (29, 1, r.dps),
    (30, 1, r.nmic), (33, 1, 1), (34, 2, aw), (36, 2, aw), (48, 16, r.nsze * l), (64, 2, pw), (66, 2, pw), (72, 2, pw),
    (0x180, 1, r.profile), (0x181, 1, r.awu), (0x184, 4, r.gen)] ++ (List.range 6).map (fun i => (128 + 4 * i, 4, lbaFmt i)))

/-- What a namespace not yet made reports of itself: the formats. -/
def idNsCommon : List Byte :=
  structOf 4096 ([(24, 1, 0x12), (25, 1, 5), (27, 1, 3), (28, 1, 0x1F), (33, 1, 1)] ++ (List.range 6).map (fun i => (128 + 4 * i, 4, lbaFmt i)))

/-- A list of numbers in entries of `w` bytes, after a count of 2 bytes for controller lists. -/
def idList (w : Nat) (l : List Nat) : List Byte := (l.take (4096 / w)).flatMap (bytesOf w)
def ctrlList (l : List Nat) : List Byte := bytesOf 2 (min 2047 l.length) ++ idList 2 (l.take 2047)

/-- Primary Controller Capabilities (R328). -/
def idPrimary (s : State) : List Byte :=
  let vq := ((List.range 63).map (fun i => (fnr s (i + 1)).nq)).foldl (· + ·) 0
  let vi := ((List.range 63).map (fun i => (fnr s (i + 1)).nv)).foldl (· + ·) 0
  structOf 4096 [(0, 2, 1), (2, 2, 0), (4, 1, 3), (32, 4, 959), (36, 4, vq), (40, 2, 0), (42, 2, 65), (44, 2, 65), (46, 2, 1),
    (64, 4, 1983), (68, 4, vi), (72, 2, 0), (74, 2, 65), (76, 2, 65), (78, 2, 1)]

/-- Secondary Controller List (R328): entries of 32 bytes from SCID `c` on. -/
def idSecondary (s : State) (c : Nat) : List Byte :=
  let vs := ((List.range 63).map (· + 1)).filter (fun n => c ≤ n + 1)
  structOf 32 [(0, 1, vs.length)] ++ vs.flatMap (fun n => structOf 32 [(0, 2, n + 1), (2, 2, 1), (4, 1, (fnr s n).online.toNat), (8, 2, n), (10, 2, (fnr s n).nq),
    (12, 2, (fnr s n).nv)])

/-- The namespaces function `f` has attached, above NSID `n`. -/
def attachedAbove (s : State) (f n : Nat) : List Nat := (s.deck.nss.filter (fun e => n < e.1 && e.2.attached.testBit f)).map (·.1)

/-- IDENTIFY (R334, R338, R340). -/
def execIdentify (slot : Fin 4096) (s : State) : Answer :=
  .next (match adm s slot.val 0x06 with
    | none => s
    | some x =>
      let f := x.fn
      let cns := cdw x 10 % 256
      let cid := cdw x 10 / 65536
      let n := nsidOf x
      if !outReady s x then s
      else match cns with
        | 0x00 =>
          if n = 0xFFFFFFFF then admSend x idNsCommon 0 s
          else if !attachedTo s n f then admEnd x stNs 0 s
          else admSend x (((nsr s n).map idNs).getD []) 0 s
        | 0x01 => admSend x (idCtrl s f) 0 s
        | 0x02 => admSend x (idList 4 (attachedAbove s f n)) 0 s
        | 0x03 =>
          if !attachedTo s n f then admEnd x stNs 0 s
          else admSend x ([byte 3, byte 16, 0, 0] ++ (List.range 16).map (fun k => byte (Config.openVal 339 [(n : Int), ((((nsr s n).map (·.gen)).getD 0 : Nat) : Int), (k : Int)]).toNat)) 0 s
        | 0x10 => admSend x (idList 4 ((s.deck.nss.filter (fun e => n < e.1 && (f == 0 || e.2.attached.testBit f))).map (·.1))) 0 s
        | 0x11 =>
          if (nsr s n).isNone || (f ≠ 0 && !attachedTo s n f) then admEnd x stNs 0 s else admSend x (((nsr s n).map idNs).getD []) 0 s
        | 0x12 =>
          if (nsr s n).isNone || (f ≠ 0 && !attachedTo s n f) then admEnd x stNs 0 s
          else admSend x (ctrlList (((List.range 64).filter (fun g => attachedTo s n g && cid ≤ g + 1)).map (· + 1))) 0 s
        | 0x13 => admSend x (ctrlList (((List.range 64).filter (fun g => fnOn s g && cid ≤ g + 1)).map (· + 1))) 0 s
        | 0x14 => if f = 0 then admSend x (idPrimary s) 0 s else admEnd x stField 0 s
        | 0x15 => if f = 0 then admSend x (idSecondary s cid) 0 s else admEnd x stField 0 s
        | _ => admEnd x stField 0 s)

/-! ### Secondary controllers (R326, R328) -/

/-- The VF that a Virtualization Management command names, if any. -/
def vmFn (x : Cmd) : Option Nat := let c := cdw x 10 / 65536; if 2 ≤ c && c ≤ 64 then some (c - 1) else none

/-- Resources that the other secondary controllers hold. -/
def vmOthers (s : State) (n : Nat) (g : Fn → Nat) : Nat :=
  (((List.range 63).map (· + 1)).filter (· != n)).foldl (fun a k => a + g (fnr s k)) 0

/-- VM_SECONDARY_OFFLINE (R328): an NVMe controller reset; its resources stay. -/
def execVmSecondaryOffline (slot : Fin 4096) (s : State) : Answer :=
  .next (match admAct s slot.val 0x1C 7 with
    | none => s
    | some x => match vmFn x with
      | none => admEnd x (0x11F + dnr) 0 s
      | some n =>
        let s := if (fnr s n).online then wr R.NVME_CSTS n 0 0 (wr R.VFW_STAT n 0 0 (fnResetDeck n s)) else s
        admEnd x 0 0 (setFn n { fnr s n with online := false } s))

/-- VM_SECONDARY_ASSIGN (R326, R328). -/
def execVmSecondaryAssign (slot : Fin 4096) (s : State) : Answer :=
  .next (match admAct s slot.val 0x1C 8 with
    | none => s
    | some x => match vmFn x with
      | none => admEnd x (0x11F + dnr) 0 s
      | some n =>
        let rt := cdw x 10 / 256 % 8
        let nr := cdw x 11 % 65536
        if (fnr s n).online then admEnd x (0x120 + dnr) 0 s
        else if rt = 0 then
          if 65 < nr || 959 < vmOthers s n (·.nq) + nr then admEnd x (0x121 + dnr) 0 s else admEnd x 0 nr (setFn n { fnr s n with nq := nr } s)
        else if rt = 1 then
          if 65 < nr || 1983 < vmOthers s n (·.nv) + nr then admEnd x (0x121 + dnr) 0 s else admEnd x 0 nr (setFn n { fnr s n with nv := nr } s)
        else if rt = 3 then
          if bar2Size s n < 65536 * nr || 64 - min 64 (fld F.DECK_CMB_PF_UNITS 0 s) < vmOthers s n (·.cmbUnits) + nr then admEnd x stField 0 s
          else admEnd x 0 nr (setFn n { fnr s n with cmbUnits := nr } s)
        else admEnd x (0x122 + dnr) 0 s)

/-- VM_SECONDARY_ONLINE (R289, R321, R328). -/
def execVmSecondaryOnline (slot : Fin 4096) (s : State) : Answer :=
  .next (match admAct s slot.val 0x1C 9 with
    | none => s
    | some x => match vmFn x with
      | none => admEnd x (0x11F + dnr) 0 s
      | some n =>
        let r := fnr s n
        if r.nq < 2 || r.nv < 1 then admEnd x stField 0 s
        else
          let s := put F.MSIX_SIZE n (r.nv - 1) (setFn n { r with online := true, everOnline := true } s)
          admEnd x 0 0 (if fnOn s n then readyUpdate n (if flag F.CC_EN n s && !r.online then adminQueues n s else s) else s))

/-- VM_PRIMARY_FLEX (R328): PF0 holds only private resources. -/
def execVmPrimaryFlex (slot : Fin 4096) (s : State) : Answer :=
  .next (match admAct s slot.val 0x1C 1 with
    | none => s
    | some x => admEnd x stField 0 s)

end Sys2Proof.Machine
end

