-- ==== Sys2Proof/Machine/OpsLink.lean ====
section
/-! DEFINITION. Arm-link operations that several commands share: sending frames, acknowledgement, discovery, link loss, the
judgement of an arm link, and what the servo does when the link changes (R52–R73, R188). -/

namespace Sys2Proof.Machine

open Sys2Proof

/-- STATE of the arm link changes, with the event of R482. -/
def setLinkState (a st : Nat) (s : State) : State :=
  if fld F.LANE_ALK_STAT_STATE a s = st then s
  else mapChange (raiseEvent (64 + a) (put F.LANE_ALK_STAT_STATE a st s))

/-! ### Frames as characters (R49–R53, R57) -/

/-- The bytes of a downlink frame from TYPE to its last body byte (R52, R53). -/
def frameBody (seq : Nat) : Frame → List Byte
  | .heat mask codes => [0x02, byte seq] ++ bytesOf 2 mask ++ (codes.map byte)
  | .mode mask pers src => [0x03, byte seq] ++ bytesOf 2 mask ++ [byte (pers % 4 + src % 4 * 4)]
  | .regw addr data => [0x04, byte seq] ++ bytesOf 2 addr ++ bytesOf 2 data
  | .regr addr => [0x05, byte seq] ++ bytesOf 2 addr

/-- A body between its start character and its CRC and EOP (R50–R52). -/
def framed (start : LinkChar) (body : List Byte) : List LinkChar :=
  start :: (body ++ bytesOf 2 (crcCcitt body)).map LinkChar.data ++ [.eop]

/-- CMD of an MUA frame: the command of surface f in bits [12f + 11:12f], two's complement (R53). -/
def muaCmd (us : List Int) : Nat := us.foldr (fun u m => lowBits 12 u + 4096 * m) 0

/-- An MUA frame (R52). -/
def muaChars (tag cmd : Nat) : List LinkChar := framed .sopP (byte tag :: bytesOf 24 cmd)

/-- The bytes of an uplink frame that its CRC covers: STAT, NAK and RDATA (R51, R57). -/
def statBytes (f : StatFrame) : List Byte :=
  [0x82, f.ackSeq, f.flags] ++ bytesOf 2 f.wfault.toNat ++ bytesOf 2 f.rfault.toNat ++ bytesOf 4 f.pers.toNat
def nakBytes (ackSeq : BitVec 8) : List Byte := [0x83, ackSeq]
def rdataBytes (seq : BitVec 8) (addr data : BitVec 16) : List Byte :=
  [0x81, seq] ++ bytesOf 2 addr.toNat ++ bytesOf 2 data.toNat

/-- A received frame's CRC is good (R51). -/
def crcOk (bs : List Byte) (crc : BitVec 16) : Bool := crcCcitt bs == crc.toNat

/-! ### Sending (R54, R56, R59, R60) -/

/-- Pending changes that a MODE frame makes as it leaves, which are then no longer asked for; one to WRITE that is sent while WKILLn_N is low makes
none (R54, R65). -/
def modePend (killed : Bool) (f : Frame) (seq : Nat) (l : Link) : Link := match f with
  | .mode mask pers src =>
    { l with
      pend := upTo 16 (fun i t => if !mask.testBit i then t
        else if killed && pers == 1 then Tab.erase t i else Tab.put t i ⟨pers, src, seq⟩) l.pend
      want := l.want.filter (fun e => !(mask.testBit e.1 && e.2.1 == pers && !(killed && pers == 1))) }
  | _ => l

/-- The access of LANE_ALK_REG_CMD that a REGW or REGR frame carries out is known by the frame's SEQ (R56). -/
def regMark (go : Bool) (f : Frame) (seq : Nat) (l : Link) : Link := match f with
  | .regw _ _ => if go then { l with regSeq := some seq } else l
  | .regr _ => if go then { l with regSeq := some seq } else l
  | _ => l

/-- A preamp register write during a write operation leaves what the operation writes undefined (R56). -/
def regwUndef (a : Nat) (f : Frame) (s : State) : State := match f, wop s a with
  | .regw _ _, some o => setWop a { o with undef := true } s
  | _, _ => s

/-- A change to WRITE that is pending under a low permit lowers WKILLn_N (R63). -/
def modeKill (a : Nat) (f : Frame) (s : State) : State := match f with
  | .mode _ _ _ => wkillFall a s
  | _ => s

/-- A HEAT frame that sets HEAT_RD leaves: from now PREHEAT runs on its heads (R122). -/
def heatMark (a : Nat) (f : Frame) (s : State) : State := match f with
  | .heat mask _ => each (armHeads a) (fun h s => if mask.testBit (h % 16) then setLane h { lane s h with heatAt := some s.time } s else s) s
  | _ => s

/-- A frame that carries SEQ is sent, or waits while 16 are unacknowledged (R60). -/
def sendFrame (a : Nat) (f : Frame) (s : State) : State :=
  let l := link s a
  if 16 ≤ l.unacked.length then setLink a { l with waiting := l.waiting ++ [f] } s
  else
    let x := regMark (flag F.LANE_ALK_REG_CMD_GO a s) f l.seq
      (modePend (wkillLow s a) f l.seq { l with unacked := l.unacked ++ [⟨l.seq, f, 0⟩], seq := (l.seq + 1) % 256 })
    modeKill a f (heatMark a f (regwUndef a f (emit (.link a (framed .sop (frameBody l.seq f))) (setLink a x s))))

/-- SEQ of the next frame that will be sent on the arm. -/
def nextSeq (s : State) (a : Nat) : Nat := (link s a).seq

/-- Priority class of a frame: MODE, then HEAT, then REGW and REGR (R59). -/
def frameClass : Frame → Nat
  | .mode _ _ _ => 0
  | .heat _ _ => 1
  | _ => 2

/-- The waiting frame that leaves next, of the best class the one queued first, and the others (R59). -/
def nextWaiting (l : List Frame) : Option (Frame × List Frame) :=
  ((List.range 3).findSome? (fun c => l.findIdx? (fun f => frameClass f == c))).bind (fun i => (l[i]?).map (fun f => (f, l.eraseIdx i)))

/-- Frames that waited for room leave while there is room. -/
def sendWaiting (a : Nat) (s : State) : State :=
  upTo 16 (fun _ s =>
    let l := link s a
    match nextWaiting l.waiting with
    | none => s
    | some (f, fs) => if 16 ≤ l.unacked.length then s else sendFrame a f (setLink a { l with waiting := fs } s)) s

/-! ### Changes of personality (R44, R46–R48, R65) -/

/-- Head `h` has a write operation that still writes on it. -/
def writesOn (s : State) (h : Nat) : Bool := match wop s (armOf h) with
  | none => false
  | some o => !o.ending && o.heads.any (fun e => e.1 == h && e.2.status.isNone)

/-- Frame `f` is sent unless it waits already. -/
def sendOnce (a : Nat) (f : Frame) (s : State) : State := if (link s a).waiting.contains f then s else sendFrame a f s

/-- One change asked for on surface `f`: its MODE frame is sent once no other change is pending, the servo gate is closed, WKILLn_N permits a
change to WRITE, and no operation holds a head that is to go to SENSE; a head in WRITE or SENSE goes through READ (R44, R46, R47, R65). The
change stays asked for until its frame leaves. -/
def wantStep (a f p src : Nat) (s : State) : State :=
  let h := 16 * a + f
  let l := link s a
  if (p == 1 && !writesOn s h) || (p == 2 && l.sense.isNone) then setLink a { l with want := Tab.erase l.want f } s
  else if !linkUp s a || (Tab.get? l.pend f).isSome || (head s h).gate || (p == 1 && wkillLow s a) || (p == 2 && headBusy s h) then s
  else if persOf s h = 0 || persOf s h = p then sendOnce a (.mode (2 ^ f) p src) s
  else sendOnce a (.mode (2 ^ f) 0 0) s

/-- The changes asked for on arm `a` go as far as they can. -/
def wantSend (a : Nat) (s : State) : State := each (link s a).want (fun e s => wantStep a e.1 e.2.1 e.2.2 s) s

/-- A change of head `h` to WRITE or SENSE is asked for. -/
def askPers (h p src : Nat) (s : State) : State :=
  let a := armOf h
  let l := link s a
  wantStep a (h % 16) p src (setLink a { l with want := Tab.put l.want (h % 16) (p, src) } s)

/-- `seq` is at or before `ack` modulo 256 (R60). -/
def ackedBy (ack seq : Nat) : Bool := (ack + 256 - seq % 256) % 256 < 128

/-- A STAT or NAK acknowledges every frame at or before ACK_SEQ (R60); an acknowledged HEAT frame lets its write
operation open gates (R123), an acknowledged REGW ends its access (R56). -/
def ackFrames (a ack : Nat) (s : State) : State :=
  let l := link s a
  let done := l.unacked.filter (fun u => ackedBy ack u.seq)
  let s := setLink a { l with unacked := l.unacked.filter (fun u => !ackedBy ack u.seq) } s
  let s := match wop s a with
    | some o => if done.any (fun u => o.heat == some u.seq) then setWop a { o with heatAck := true } s else s
    | none => s
  let s := if done.any (fun u => l.regSeq == some u.seq && (match u.frame with | .regw _ _ => true | _ => false)) then
      setLink a { link s a with regSeq := none } (put F.LANE_ALK_REG_CMD_GO a 0 s)
    else s
  sendWaiting a s

/-- A preamp register access in flight fails (R56). -/
def regFail (a : Nat) (s : State) : State :=
  if flag F.LANE_ALK_REG_CMD_GO a s then
    setLink a { link s a with regSeq := none } (put F.LANE_ALK_REG_CMD_GO a 0 (put F.LANE_ALK_REG_CMD_FAIL a 1 s))
  else s

/-- What the link held for its frames is gone with the link, a HEAT_RD frame that has not left staying owed (R122); a measurement in progress asks for
its pair again, and the MUA_MISS cause stays until the STAT that removes it (R48, R61). -/
def clearFrames (a : Nat) (s : State) : State :=
  let l := link s a
  regFail a (setLink a { l with
    heatDue := l.waiting.foldl (fun m f => match f with | .heat mask _ => m ||| mask | _ => m) l.heatDue
    unacked := [], waiting := [], pend := [], fixMask := 0, disagree := 0, regSeq := none
    want := match l.sense with | some m => [(sensePair m, (2, m.src))] | none => [] } s)

/-- The timer of head `h` searches: a head that is not in READ, or has another change pending, goes to READ first, and what that undoes is asked for
again (R46, R176). -/
def searchRead (h : Nat) (s : State) : State :=
  let a := armOf h
  let l := link s a
  let goal : Nat × Nat := match Tab.get? l.pend (h % 16) with | some p => (p.pers, p.src) | none => (persOf s h, (l.sense.map (·.src)).getD 0)
  if goal.1 = 0 then s
  else sendOnce a (.mode (2 ^ (h % 16)) 0 0) (setLink a { l with want := Tab.put l.want (h % 16) goal } s)

/-- Head `h` goes from OFF to ACQ and its timer searches (R46, R189). -/
def headSearch (h : Nat) (s : State) : State := searchRead h (headAcq h s)

/-- Head `h` has come to READ while its timer searches: the servo gate opens and stays open (R46, R176). -/
def searchOpen (h : Nat) (s : State) : State :=
  let st := hst s h
  if (st == 1 || st == 3) && (head s h).samAt.isNone && !bitAt (fld2 F.SRV_HST_LOCK (armOf h) (h % 16) s) 0 && 2 ≤ fld F.LANE_STAT_STATE h s &&
      persOf s h == 0 then
    put F.LANE_STAT_SERVO h 1 (setHead h { head s h with gate := true } s)
  else s

/-- Heads that leave OFF for ACQ when the arm enters LOADING, SEEK or SETTLE (R189). -/
def acqHeads (a : Nat) (s : State) : State :=
  each (armHeads a) (fun h s =>
    if hst s h == 0 && eligible s h then headSearch h s else s) s

/-! ### Compensators (R185, R190) -/

/-- A 32-bit state; what overflows is left open (log entry 1). -/
def state32 (x : Int) : Int := if -2147483648 ≤ x ∧ x ≤ 2147483647 then x else Config.openVal 185 [x]

/-- A product of a coefficient in 2^-14 with a value of 14 fractional bits, rounded at 2^-14. -/
def mul14 (c : Int) (x : Int) : Int := roundDiv (c * x) 16384

/-- Coefficient `m`, two's complement. -/
def coefS (x : ArmSrv) (m : Nat) : Int := sext 16 (x.coef.getD m 0)
/-- Coefficient `m`, unsigned. -/
def coefU (x : ArmSrv) (m : Nat) : Nat := x.coef.getD m 0 % 65536

/-- One step of the biquad whose coefficients start at `m`: output and next states (R185). -/
def biquad (x : ArmSrv) (m : Nat) (st : Biquad) (u : Int) : Int × Biquad :=
  let y := mul14 (coefS x m) u + st.s1
  (y, ⟨state32 (mul14 (coefS x (m + 1)) u - mul14 (coefS x (m + 3)) y + st.s2),
       state32 (mul14 (coefS x (m + 2)) u - mul14 (coefS x (m + 4)) y)⟩)

/-- The output of a gain G on a value of 14 fractional bits: (G × y) >> 8. -/
def gainOut (g : Nat) (y : Int) : Int := (g : Int) * y / 4194304

/-- The VCM compensator starting at coefficient `m` on error input `u`, with the new states (R185). -/
def compensate (x : ArmSrv) (m : Nat) (q1 q2 : Biquad) (u : Int) : Int × Biquad × Biquad :=
  let r1 := biquad x m q1 (u * 16384)
  let r2 := biquad x (m + 5) q2 r1.1
  (gainOut (coefU x (m + 10)) r2.1, r1.2, r2.2)

/-- The states a compensator starts with at a hand-over from command `iLast` on input `u` (R190). -/
def handOver (x : ArmSrv) (m : Nat) (iLast u : Int) : Biquad × Biquad :=
  let g := coefU x (m + 10)
  if g = 0 then ({}, {})
  else
    let y1 := mul14 (coefS x m) (u * 16384)
    ({}, ⟨state32 (iLast * 256 / (g : Int) * 16384 - mul14 (coefS x (m + 5)) y1), 0⟩)

/-- Settle hand-over: the settle compensator takes over from the command in force at its first input (R190). -/
def settleHandOver (x : ArmSrv) : ArmSrv := { x with hand := true, settle := 0, fn := 0, far := 0 }

/-- Follow hand-over. -/
def followHandOver (x : ArmSrv) : ArmSrv := { x with hand := true, far := 0 }

/-- The compensator starting at coefficient `m` on error `e`: with a hand-over it starts from the last command, so that its first output is that
command (R190). -/
def vcmComp (x : ArmSrv) (m : Nat) (q1 q2 : Biquad) (e : Int) : Int × Biquad × Biquad :=
  let q := if x.hand then handOver x m x.lastI (-e) else (q1, q2)
  compensate x m q.1 q.2 (-e)

/-! ### Link loss and discovery -/

/-- The arm enters HOLD from SEEK, SETTLE or FOLLOW when its link goes down: the follow compensator takes over, and a seek in progress does not
reach the seek-time table (R188, R190, R192). -/
def servoLinkDown (a : Nat) (s : State) : State :=
  if 4 ≤ mode s a && mode s a ≤ 6 then
    let x := arm s a
    let y := if mode s a = 6 then x else followHandOver x
    setMode a 7 (setArm a { y with seekFrom := none, newSeek := false } s)
  else s

/-- Reads on the arm end at their next sector boundary, or with the sector cut there (R100). -/
def endReads (a : Nat) (s : State) : State :=
  each (armHeads a) (fun n s => match (lane s n).op with
    | some o => setLane n { lane s n with op := some { o with ending := true } } s
    | none => s) s

/-- The arm link goes DOWN (R72, R100): permits drop, STATE, an event, MUA frames stop, reads end. -/
def linkDown (a : Nat) (s : State) : State :=
  let s := dropWpermArm a s
  let s := setLinkState a 3 s
  let l := link s a
  let s := setLink a { l with disc := .none, auto := flag F.LANE_ALK_CTL_AUTO_RETRAIN a s,
                              autos := if l.auto then l.autos else 0 } s
  wkillFall a (servoLinkDown a (endReads a (clearFrames a s)))

/-- Discovery starts on an arm link (R68). `retrain`: the identity is compared under R69. That its first frame carries SEQ 0 is the model's
choice (DESIGN CHOICE, log entry 59). -/
def startDiscovery (a : Nat) (retrain : Bool) (s : State) : State :=
  let s := setLinkState a 1 (dropWpermArm a s)
  let s := clearFrames a s
  let s := setLink a { link s a with disc := .clock, retrain := retrain, seq := 0 } s
  let s := if retrain then count F.LANE_ALK_STAT_RETRAINS a s else s
  wkillFall a (servoLinkDown a (endReads a s))

/-- Automatic retrains of the link of arm `a` go on: AUTO_RETRAIN is 1 and fewer than three have been used (R71, R73). -/
def retrains (s : State) (a : Nat) : Bool := flag F.LANE_ALK_CTL_AUTO_RETRAIN a s && (link s a).auto && decide ((link s a).autos < 3)

/-- The fault collector judges the link of arm `a` (R71, R73): a failed link is recorded on checker 128 + a, whose FC2
action fences the arm. -/
def judgeLink (a : Nat) (s : State) : State :=
  if !(armPresent s a && armUp s a && flag F.LANE_ALK_CTL_ENABLE a s) then s
  else
    let st := fld F.LANE_ALK_STAT_STATE a s
    if st = 3 || st = 4 || st = 5 then (if retrains s a then s else report (128 + a) none 8 0 0 0 s)
    else if st = 2 then condFalls (128 + a) s
    else s

/-- The link goes down for a cause of R72, and is judged (R71, R72). -/
def linkFail (a : Nat) (s : State) : State := judgeLink a (linkDown a s)

/-- Discovery ends in ABSENT or REJECT (R69, R71). -/
def discFail (a st : Nat) (s : State) : State :=
  let s := setLink a { link s a with disc := .none } (setLinkState a st s)
  judgeLink a s

/-- The arm's heads are parked: every lane that sleeps goes to PARK, its frequency memory cleared; one that does not sleep yet goes there as it
falls asleep (R86, R105). -/
def lanesPark (a : Nat) (s : State) : State :=
  each (armHeads a) (fun n s =>
    if fld F.LANE_STAT_STATE n s = 3 then setLane n { lane s n with fmem := 0 } (put F.LANE_STAT_STATE n 1 s) else s) s

/-- The arm enters PARKED: command 0, lanes to PARK, heads OFF (R188, R189). A held LOAD is applied by SRV_LOAD's rules. -/
def enterParked (a : Nat) (s : State) : State :=
  let s := headsOff a (setVcm a 0 (setMode a 1 s))
  let s := setArm a { arm s a with phase := .none, bump := 0, errOfs := 0 } s
  lanesPark a (put F.SRV_CTL_UNLOAD a 0 s)

/-- The load conditions of R188. -/
def loadOk (s : State) (a : Nat) : Bool :=
  flag F.SPM_STAT_AT_SPEED 0 s && linkUp s a && armPresent s a && !armFenced s a &&
    120 ≤ fld F.SRV_WEDGES_WEDGES 0 s && s.geo.isSome

/-- HOFS of each head of the arm takes effect at the next group (R180). -/
def latchHofs (a : Nat) (s : State) : State :=
  each (armHeads a) (fun h s => setHead h { head s h with hofs := sext 8 (fld2 F.SRV_HCFG_HOFS a (h % 16) s) } s) s

/-- The arm enters LOADING: its lanes go from PARK to CAL, the VCM command is LOAD_I, heads search (R105, R188, R189). -/
def startLoading (a : Nat) (s : State) : State :=
  let s := each (armHeads a) (fun n s =>
    if fld F.LANE_STAT_STATE n s = 1 then put F.LANE_STAT_STATE n 2 s else s) s
  let s := setVcm a (sext 16 (fld F.SRV_LOAD_LOAD_I a s)) (setMode a 3 s)
  let s := put F.SRV_CTL_LOAD a 0 s
  let s := setArm a { arm s a with heldLoad := false, load := 0, miss := 0, offRamp := false, storedGo := none,
                                   pbar := none, vel := 0, far := 0, fn := 0, settle := 0, hand := false,
                                   mismatch := 0, retries := 0, f1 := {}, f2 := {}, t1 := {}, t2 := {}, lastI := 0 } s
  govLimits (acqHeads a (latchHofs a s))

/-- The spindle speed is at or above UNLOAD_RPM % of the geometry's RPM, or of 7,200 rpm with no geometry (R188, R202);
SPEED counts 0.01 rpm. -/
def spinAboveUnload (s : State) (a : Nat) : Bool :=
  fld F.SRV_UNLOAD_UNLOAD_RPM a s * ((s.geo.map (·.rpm)).getD 7200) ≤ fld F.SPM_MEAS_SPEED 0 s

/-- What the servo does when the link reaches UP with the STAT that ends discovery; on leaving HOLD the settle compensator takes over, and heads
not in TRACK ramp to 0 (R188, R190). -/
def servoLinkUp (a : Nat) (powerOn onRamp parked : Bool) (s : State) : State :=
  let m := mode s a
  if m = 0 then
    if powerOn && !onRamp then setMode a 2 s
    else if retractLow s then setMode a 9 s
    else if onRamp && parked then lanesPark a (setMode a 1 s) else setMode a 2 s
  else if m = 9 then
    if retractLow s then s else if onRamp && parked then lanesPark a (setMode a 1 s) else setMode a 2 s
  else if m = 7 then
    let s := setArm a (settleHandOver (arm s a)) (setMode a 5 s)
    let s := each (armHeads a) (fun h s => if hst s h == 2 then setHead h { head s h with reenter := true } s else startRamp h s) s
    acqHeads a s
  else s

/-- A LOAD held during the unload is applied in PARKED, if the load conditions then hold (R188). -/
def heldLoadApply (a : Nat) (s : State) : State :=
  if !(arm s a).heldLoad then s
  else if loadOk s a then startLoading a s
  else put F.SRV_CTL_LOAD a 0 (put F.SRV_MODE_LFAIL a 1 (setArm a { arm s a with heldLoad := false } s))

/-- What the servo does with a STAT on a link that is UP (R188, R200, R201). -/
def servoStat (a : Nat) (onRamp parked : Bool) (s : State) : State :=
  let x := arm s a
  let m := mode s a
  if m = 9 && x.judge && !retractLow s then
    setArm a { arm s a with judge := false } (if onRamp && parked then lanesPark a (setMode a 1 s) else setMode a 2 s)
  else if m = 3 && !onRamp && !x.offRamp then
    setVcm a (Int.tdiv (sext 16 (fld F.SRV_LOAD_LOAD_I a s)) 4) (setArm a { x with offRamp := true } s)
  else if m = 8 && x.phase == .ramp && onRamp then
    setVcm a (sext 16 (fld F.SRV_PARK_UNLOAD_I a s)) (setArm a { x with phase := .climb } s)
  else if m = 8 && x.phase == .park && parked then heldLoadApply a (enterParked a s)
  else s

end Sys2Proof.Machine
end

