-- ==== Sys2Proof/Machine/OpsLane.lean ====
section
/-! DEFINITION. Lane operations that several commands share: synthesizer tuning, profile loads, the start and the end of a read
operation (R81–R84, R98–R106). -/

namespace Sys2Proof.Machine

open Sys2Proof

/-! ### Synthesizers (R81–R84) -/

/-- PDIV code and value of a rate in Mb/s (R81). -/
def synPdiv (rate : Nat) : Nat × Nat :=
  if 8000 ≤ rate * 4 then (0, 4) else if 8000 ≤ rate * 8 then (1, 8) else if 8000 ≤ rate * 16 then (2, 16) else (3, 32)

/-- NINT of R81. -/
def synNint (rate : Nat) : Nat := rate * (synPdiv rate).2 / 25
/-- NFRAC of R81, halves rounded up. -/
def synNfrac (rate : Nat) : Nat := (roundDiv ((rate * (synPdiv rate).2 % 25) * 2 ^ 24 : Nat) 25).toNat

/-- The synthesizer of arm `a` is LOCKED at zone `z`. -/
def synAt (s : State) (a z : Nat) : Bool :=
  fld F.LANE_SYN_STAT_STATE a s == 2 && fld F.LANE_SYN_STAT_ZONE a s == z

/-- The retune to zone `z` starts: settings of R81, STATE LOCKING, CLK_OK low, frequency memories cleared (R86). That the arm changes zone as its
synthesizer begins another one, so that a seek across zones with AUTO = 0 clears nothing by itself, is the model's choice (R86; DESIGN CHOICE, log
entry 61). -/
def synBegin (a z : Nat) (s : State) : State :=
  match zoneOf s z with
  | none => s
  | some zn =>
    let old := fld F.LANE_SYN_STAT_ZONE a s
    let s := put F.LANE_SYN_STAT_PDIV a (synPdiv zn.rate).1 (put F.LANE_SYN_STAT_NINT a (synNint zn.rate)
      (put F.LANE_SYN_FRAC_NFRAC a (synNfrac zn.rate) (put F.LANE_SYN_STAT_ZONE a z (put F.LANE_SYN_STAT_STATE a 1 s))))
    let s := if old = z then s else each (armHeads a) (fun n s => setLane n { lane s n with fmem := 0, fmemZone := z } s) s
    permitFall a (setSyn a { syn s a with next := none } s)

/-- A tune to zone `z` is asked for: a retune to another zone that runs is not interrupted, and this one follows (R83). -/
def synTuneTo (a z : Nat) (s : State) : State :=
  let st := fld F.LANE_SYN_STAT_STATE a s
  let cur := fld F.LANE_SYN_STAT_ZONE a s
  if s.geo.isNone || !armUp s a then s
  else if st = 1 then
    if cur = z then setSyn a { syn s a with next := none } s else setSyn a { syn s a with next := some z } s
  else if st = 2 && cur = z then put F.LANE_SYN_CTL_TUNE a 0 s
  else synBegin a z s

/-- An operation whose zone the synthesizer neither holds nor tunes to starts a retune (R83, R120). That TUNE and ZONE of LANE_SYN_CTL, which firmware
wrote, stay as they are is the model's choice (R83; DESIGN CHOICE, log entry 61). -/
def synForOp (a z : Nat) (s : State) : State :=
  if synAt s a z || (fld F.LANE_SYN_STAT_STATE a s == 1 && ((syn s a).next.getD (fld F.LANE_SYN_STAT_ZONE a s)) == z) then s
  else synTuneTo a z s

/-- The zone of track `t` calls for a retune at the start of a seek to it (R83). -/
def seekTune (a t : Nat) (s : State) : State := match zoneOfTrack s t with
  | some z => if flag F.LANE_SYN_CTL_AUTO a s then synForOp a z s else s
  | none => s

/-- A read operation of lane `n` waits for the synthesizer at its zone: a retune starts where none runs to it (R83). -/
def synWait (n z : Nat) (s : State) : State :=
  let a := armOf n
  if synAt s a z then s
  else
    let s := synForOp a z s
    if synAt s a z || (syn s a).waiting.contains n then s else setSyn a { syn s a with waiting := (syn s a).waiting ++ [n] } s

/-! ### Heaters (R122) -/

/-- The HEAT_RD frame of the heads `hs`: as an arm's heads load, and after a write operation; on a link that is not UP it is owed (R122). -/
def heatRdSend (a : Nat) (hs : List Nat) (s : State) : State :=
  let on := hs.filter (fun h => flag F.WP_CTL_HEAT_EN h s)
  let mask := upTo 16 (fun f m => if on.contains (16 * a + f) then putBit m f true else m) 0
  if on.isEmpty then s
  else if !linkUp s a then setLink a { link s a with heatDue := (link s a).heatDue ||| mask } s
  else sendFrame a (.heat mask ((List.range 16).map (fun f => fld F.WP_HEAT_HEAT_RD (16 * a + f) s))) s

/-- A link that has come UP sends the HEAT_RD frame that is owed, while the arm's heads are loaded (R122). -/
def heatOwed (a : Nat) (s : State) : State :=
  let l := link s a
  let s := setLink a { l with heatDue := 0 } s
  if armLoaded s a then heatRdSend a ((armHeads a).filter (fun h => l.heatDue.testBit (h % 16))) s else s

/-- A HEAT_RD frame of head `n` is owed, or waits for room. -/
def heatWaits (s : State) (n : Nat) : Bool :=
  let l := link s (armOf n)
  l.heatDue.testBit (n % 16) || l.waiting.any (fun f => match f with | .heat mask _ => mask.testBit (n % 16) | _ => false)

/-- No read gate opens on head `n` yet: its HEAT_RD frame has not left, or less than PREHEAT µs have passed since (R122). -/
def heatHolds (s : State) (n : Nat) : Bool :=
  flag F.WP_CTL_HEAT_EN n s && (heatWaits s n || (match (lane s n).heatAt with
    | some t => decide (s.time < t + 1000 * fld F.WP_HEAT_PREHEAT n s)
    | none => false))

/-! ### Servo sampler (R76) -/

/-- The servo sampler of lane `n` is powered: in every state but OFF, in PARK only for a sense measurement on its pair. -/
def samplerOn (s : State) (n : Nat) : Bool :=
  let st := fld F.LANE_STAT_STATE n s
  2 ≤ st || (st == 1 && (match (link s (armOf n)).sense with | some m => sensePair m == n % 16 | none => false))

/-! ### Read operations -/

/-- The lane's automatic profile load is needed for an operation in zone `z` (R103). -/
def needProfile (s : State) (n z : Nat) : Bool :=
  flag F.LANE_CTL_PROF_AUTO n s && (fld F.LANE_STAT_ZONE n s != z || !flag F.LANE_STAT_PROF_OK n s)

/-- The lane result word of R98. -/
def laneWord (status runs : Nat) (ovf ta : Bool) (erased mse ofs : Nat) : Nat :=
  status * 2 ^ 56 + runs * 2 ^ 52 + ovf.toNat * 2 ^ 51 + ta.toNat * 2 ^ 50 + min 262143 erased * 2 ^ 32 +
    min 65535 mse * 2 ^ 16 + ofs % 65536

/-- The read operation of lane `n` ends: the lane stands READY and its DRAIN bit clears (R34, R105). -/
def readOpEnd (n : Nat) (s : State) : State :=
  let l := lane s n
  let s := setLane n { l with op := none, phase := .idle, slot := none, waitSlot := false } s
  let s := { s with dec := { s.dec with waitList := s.dec.waitList.filter (· != n) } }
  let s := put F.LANE_STAT_OP n 0 (if fld F.LANE_STAT_STATE n s = 6 then put F.LANE_STAT_STATE n 5 s else s)
  drainEnd n s

/-- One sector of the lane's operation ends with a result word: LANE_RES takes it and the pool receives it (R98, R154). -/
def sectorOut (n w : Nat) (soft : List Byte) (s : State) : State :=
  let l := lane s n
  match l.op with
  | none => s
  | some o =>
    let s := wr R.LANE_RES n 0 w s
    match item s o.owner with
    | none => (match l.slot with | some k => releaseSlot k s | none => s)
    | some x => poolSector x o.psa n w soft o.retry l.slot s

/-- The result word of a sector that ends before its last bit. Once its sync mark is found SYNC_OFS says where; what its other fields then say is
open (R98). -/
def cutWord (l : Lane) (psa st : Nat) : Nat := match l.phase, l.syncOfs with
  | .acquire, _ => laneWord st 0 false false 0 0 0xFFFF
  | .idle, _ => laneWord st 0 false false 0 0 0xFFFF
  | _, none => laneWord st 0 false false 0 0 0xFFFF
  | _, some p =>
    let v := fun (i : Int) => Config.openVal 98 [(psa : Int), i]
    laneWord st (v 0 % 9).toNat (v 1 % 2 == 1) (v 2 % 2 == 1) (v 3).toNat (v 4).toNat p

/-- The sector after PSA `p` on its track. -/
def trackNext (s : State) (p : Nat) : Nat := match zoneOf s (psaZone p) with
  | some zn => psaWord (psaSurf p) (psaZone p) (psaTrack p) ((psaSector p + 1) % max 1 zn.spt)
  | none => p + 1

/-- The sector that follows `p` with `n` left in the run, past those in `holes`, and what is left of the run from it on. -/
def runNext (s : State) (holes : List Nat) : Nat → Nat → Nat × Nat
  | p, 0 => (trackNext s p, 0)
  | p, n + 1 => if holes.contains (trackNext s p) then runNext s holes (trackNext s p) n else (trackNext s p, n + 1)

/-- The sector after the one in hand that a read operation reads, and the sectors left from it on (R376, R377). -/
def readNext (s : State) (o : ReadOp) : Nat × Nat := runNext s (((item s o.owner).map (·.holes)).getD []) o.psa (o.left - 1)

/-- The operation of lane `n` ends on its sector in progress, or its first one, with status `st` and no soft words; the
rest returns to the scheduler (R83, R84, R89, R94, R98, R103). -/
def readOpFail (n st : Nat) (s : State) : State :=
  match (lane s n).op with
  | none => s
  | some o =>
    let s := sectorOut n (cutWord (lane s n) o.psa st) [] s
    let q := readNext s o
    returnRest o.owner q.1 q.2 (readOpEnd n s)

/-- The write-back of GAIN and taps into the record the lane loaded (R104). -/
def profileWriteback (n : Nat) (s : State) : State :=
  match (lane s n).recAddr with
  | none => s
  | some base =>
    let agc := putBits (sramNat s (base + 4) 4) 23 12 (fld F.LANE_AGC_GAIN n s)
    let taps := (List.range 16).flatMap (fun k => bytesOf 4 (rd R.LANE_FIR n k s))
    sramWrite (base + 0x20) taps (sramWrite (base + 4) (bytesOf 4 agc) s)

/-- The operation of lane `n` ends between two sectors; the rest returns to the scheduler. After a last sector that ended OK the profile is
written back (R34, R104). -/
def readOpStop (n : Nat) (s : State) : State :=
  match (lane s n).op with
  | none => s
  | some o =>
    let s := if o.lastOk && flag F.LANE_CTL_PROF_WB n s then profileWriteback n s else s
    returnRest o.owner o.psa o.left (readOpEnd n s)

/-- The arm domain goes off, or the head is forced out of READ: a sector in progress ends CUT (R99, R105). -/
def readOpCut (n : Nat) (s : State) : State :=
  match (lane s n).phase with
  | .idle => readOpStop n s
  | _ => readOpFail n 4 s

/-! ### EXEC (R46, R47, R54, R62) -/

/-- A sense measurement one of whose changes fails ends with START cleared and without a result, which is the model's choice of what a measurement
marked failed does (R62; DESIGN CHOICE, log entry 59). -/
def senseFailed (a : Nat) (hs : List Nat) (s : State) : State := match (link s a).sense with
  | some m => if hs.contains (16 * a + sensePair m) then
      put F.LANE_ALK_SNS_START a 0 (setLink a { link s a with sense := none, want := Tab.erase (link s a).want (sensePair m) } s)
    else s
  | none => s

/-- Pending changes whose MODE frame is still unacknowledged fail at EXEC (R62): their heads need a corrective MODE; a write operation that one of
them belongs to ends MODE_FAIL there, also on a head that had written all its sectors, and WCUT elsewhere (R127); other operations are marked
failed. -/
def modeFailed (a : Nat) (bad : List (Nat × PendMode)) (s : State) : State :=
  let hs := bad.map (fun e => 16 * a + e.1)
  let l := link s a
  let s := setLink a { l with fixMask := bad.foldl (fun m e => putBit m e.1 true) l.fixMask } s
  let cut := hs.any (inWriteOp s)
  let s := failHeads a hs 5 s
  let s := senseFailed a hs (if cut then cutWrite a (fun _ => 1) s else s)
  each hs (fun h s => match (lane s h).op with
    | some o => setLane h { lane s h with op := some { o with failed := true } } s
    | none => s) s

/-- Head `h` takes personality `p`. An operation that runs on it ends, unless the change is the split that a servo gate makes, `keep` (R46, R47);
a pair that goes to SENSE opens a window of its measurement (R48), a searching head that comes to READ its servo gate (R176). -/
def persChange (h p : Nat) (keep : Option Nat) (s : State) : State :=
  let a := armOf h
  let q := persOf s h
  let s := setPers h p s
  let s := match (link s a).sense with
    | some m => if p = 2 && sensePair m = h % 16 then setLink a { link s a with sense := some { m with wins := m.wins + 1 } } s else s
    | none => s
  let s := if p = 0 then searchOpen h s else s
  if q = p || keep = some h then s
  else if q = 0 then readOpCut h s
  else if writesOn s h && p ≠ 1 then cutWrite a (fun _ => 1) s
  else s

/-- EXEC leaves: the pending changes whose MODE frames are acknowledged take effect, the others fail (R54, R62). -/
def execArm (a : Nat) (keep : Option Nat) (s : State) : State :=
  let l := link s a
  let un := fun (p : PendMode) => l.unacked.any (fun u => u.seq == p.seq)
  let good := l.pend.filter (fun e => !un e.2)
  let bad := l.pend.filter (fun e => un e.2)
  let s := emit (.link a [.exec]) (setLink a { l with pend := [] } s)
  let s := each good (fun e s => persChange (16 * a + e.1) e.2.pers keep s) s
  wkillFall a (modeFailed a bad s)

/-- The changes pending on the arm other than to READ, and head `h`'s personality if it is out of READ with none pending: what a MODE frame to READ
before the servo gate of `h` undoes (R46, R54). -/
def gateUndo (s : State) (h : Nat) : Tab (Nat × Nat) :=
  let l := link s (armOf h)
  let t := (l.pend.filter (fun e => e.2.pers != 0)).map (fun e => (e.1, e.2.pers, e.2.src))
  if (Tab.get? l.pend (h % 16)).isSome || persOf s h = 0 then t else Tab.put t (h % 16) (persOf s h, (l.sense.map (·.src)).getD 0)

/-- Head `h` goes to READ before its servo gate opens (R46, R59, R60, R62): a MODE frame takes it there, with every head of the arm whose pending
change is another, since one set of changes is pending at a time (R54); `acks` are the ACK_SEQ values heard between that frame and EXEC at the
guard point, and a change not acknowledged by then fails. What this undoes is asked for again after the gate. A frame that has found no room by
then has made no change, so no EXEC is sent. An arm whose heads are not loaded reads no wedges. -/
def readForGate (h : Nat) (acks : List (BitVec 8)) (s : State) : State :=
  let a := armOf h
  let undo := gateUndo s h
  if !(eligible s h && armLoaded s a && linkUp s a) || (undo.isEmpty && persOf s h == 0) then s
  else
    let l := link s a
    let mask := undo.foldl (fun m e => putBit m e.1 true) 0
    let s := setLink a { l with want := undo.foldl (fun w e => Tab.put w e.1 e.2) l.want } s
    let s := if mask = 0 then s else sendOnce a (.mode mask 0 0) s
    let s := acks.foldl (fun s v => ackFrames a v.toNat s) s
    if (Tab.get? (link s a).pend (h % 16)).any (fun p => p.pers == 0) && (link s a).pend.all (fun e => e.2.pers == 0) then execArm a (some h) s else s

/-- A read operation is given to lane `n` (R34, R83, R103). -/
def readOpStart (n : Nat) (o : ReadOp) (s : State) : State :=
  let s := synWait n o.zone (put F.LANE_STAT_OP n 1 (setLane n { lane s n with op := some o, phase := .idle } s))
  if 4 ≤ fld F.LANE_STAT_STATE n s && needProfile s n o.zone then
    setLane n { lane s n with loading := true, wakeFor := some o.zone } s
  else s

end Sys2Proof.Machine
end

