-- ==== Sys2Proof/Machine/ArmLink.lean ====
section
/-! DEFINITION. Commands of the lane pins and arm links (R39–R75). -/

namespace Sys2Proof.Machine

open Sys2Proof

/-- EXEC (R46, R47, R54, R62): every pending change of the arm takes effect at once and is cleared; a change whose MODE frame is not
acknowledged fails. EXEC is not sent while a servo gate is open on a head that would leave READ: the change is deferred until it closes. -/
def execExec (arm : Fin 4) (s : State) : Answer :=
  let a := arm.val
  .next (if !linkUp s a || (link s a).pend.any (fun e => e.2.pers != 0 && (head s (16 * a + e.1)).gate) then s
    else wantSend a (execArm a none s))

/-- The corrective MODE frames of R62: each head takes the personality the STAT reports. One to SENSE names the source of the measurement in
progress, or source 0, which is the model's choice: PERS names no source (DESIGN CHOICE, log entry 59). -/
def corrective (a pers : Nat) (s : State) : State :=
  let l := link s a
  if l.fixMask = 0 then s
  else
    let s := setLink a { l with fixMask := 0 } s
    each [0, 1, 2] (fun p s =>
      let m := upTo 16 (fun f m =>
        if l.fixMask.testBit f && bitsOf pers (2 * f + 1) (2 * f) == p then putBit m f true else m) 0
      if m = 0 then s else sendFrame a (.mode m p (if p = 2 then (l.sense.map (·.src)).getD 0 else 0)) s) s

/-- Heads whose PERS disagrees with the record lose their permits until the two agree (R62). -/
def persCheck (a pers : Nat) (s : State) : State :=
  let bad := (List.range 16).filter (fun f => bitsOf pers (2 * f + 1) (2 * f) != persOf s (16 * a + f))
  let s := setLink a { link s a with disagree := upTo 16 (fun f m => if bad.contains f then putBit m f true else m) 0 } s
  each bad (fun f s => dropWperm (16 * a + f) s) s

/-- A head left in SENSE with no measurement in progress and no change on its way goes back to READ (R48). -/
def senseIdle (a : Nat) (s : State) : State :=
  each (List.range 16) (fun f s =>
    let l := link s a
    if persOf s (16 * a + f) == 2 && l.sense.isNone && (Tab.get? l.pend f).isNone then sendOnce a (.mode (2 ^ f) 0 0) s else s) s

/-- The MUA_MISS cause of R61: set for the whole arm, or removed once a later MUA frame has left. -/
def muaMissCheck (a : Nat) (miss : Bool) (s : State) : State :=
  let l := link s a
  if miss then
    dropWpermArm a (count F.LANE_ALK_ERR_MUA_MISS a (setLink a { l with muaMiss := true, muaEop := false } s))
  else if l.muaMiss && l.muaEop then setLink a { l with muaMiss := false } s
  else s

/-- A writer fault on a head of the arm's write operation cuts it, and stands as the status of a head that had written all its sectors
(R127); the heads return to READ by MODE and EXEC. -/
def wfaultCheck (a wf : Nat) (s : State) : State :=
  match wop s a with
  | none => s
  | some o =>
    let hs := o.heads.map (·.1)
    let hit := (o.heads.filter (fun e => wf.testBit (e.1 % 16) && (e.2.status.getD 0 == 0))).map (·.1)
    if hit.isEmpty then s
    else
      let s := failHeads a hit 6 s
      if o.ending then s
      else sendFrame a (.mode (upTo 16 (fun f m => if hs.contains (16 * a + f) then putBit m f true else m) 0) 0 0) (cutWrite a (fun _ => 1) s)

/-- The link's receiver runs: the link trains or is UP. -/
def linkRx (s : State) (a : Nat) : Bool := fld F.LANE_ALK_STAT_STATE a s == 1 || fld F.LANE_ALK_STAT_STATE a s == 2

/-- What every good STAT gives: the flags and faults it reports, acknowledgements, and the MUA_MISS cause (R57, R60, R61). -/
def statTake (a : Nat) (f : StatFrame) (s : State) : State :=
  let fl := f.flags.toNat
  let s := put F.LANE_ALK_STAT_SUPPLY_LOW a (fl.testBit 4).toNat (put F.LANE_ALK_STAT_OVERTEMP a (fl.testBit 3).toNat
    (put F.LANE_ALK_STAT_MUA_MISS a (fl.testBit 0).toNat (put F.LANE_ALK_STAT_PARKED a (fl.testBit 2).toNat
    (put F.LANE_ALK_STAT_ON_RAMP a (fl.testBit 1).toNat s))))
  let s := setLink a { link s a with wfault := f.wfault.toNat, rfault := f.rfault.toNat } s
  muaMissCheck a (fl.testBit 0) (ackFrames a f.ackSeq.toNat s)

/-- The first STAT after the replies of a discovery: the link is UP (R42, R68, R70, R71). RAMP_DISC and PARK_DISC are taken at the first discovery
since the power-on reset that comes this far; that it need not be the power-on one, where that ended in ABSENT or REJECT, is the model's choice
(DESIGN CHOICE, log entry 59). A searching head's servo gate opens, and HEAT_RD frames that are owed leave (R122, R176). -/
def discUp (a : Nat) (f : StatFrame) (s : State) : State :=
  let l := link s a
  let onRamp := f.flags.toNat.testBit 1
  let parked := f.flags.toNat.testBit 2
  let s := if l.discDone then s else
    put F.LANE_ALK_STAT_PARK_DISC a parked.toNat (put F.LANE_ALK_STAT_RAMP_DISC a onRamp.toNat s)
  let s := setLink a { l with disc := .none, discDone := true, auto := false, autos := 0 } s
  let s := persCheck a f.pers.toNat (setLinkState a 2 (put F.LANE_ALK_PERS_PERS a 0 s))
  let s := servoLinkUp a (!l.discDone) onRamp parked s
  wantSend a (heatOwed a (judgeLink a (each (armHeads a) searchOpen s)))

/-- STAT_RECEIVED (R51, R57, R58, R60–R62, R68, R70, R74, R127, R188). -/
def execStatReceived (arm : Fin 4) (f : StatFrame) (s : State) : Answer :=
  let a := arm.val
  .next (if !linkRx s a then s
    else if !crcOk (statBytes f) f.crc then count F.LANE_ALK_ERR_CRC a s
    else
      let s := statTake a f s
      match (link s a).disc with
      | .stat => discUp a f s
      | .none =>
        if !linkUp s a then s
        else
          let s := wfaultCheck a f.wfault.toNat s
          let s := senseIdle a (persCheck a f.pers.toNat (corrective a f.pers.toNat s))
          wantSend a (servoStat a (f.flags.toNat.testBit 1) (f.flags.toNat.testBit 2) s)
      | _ => s)

/-- Every unacknowledged frame is sent again in order; a frame already resent 3 times takes the link down (R60, R72). -/
def resendAll (a : Nat) (s : State) : State :=
  let l := link s a
  if l.unacked.any (fun u => 3 ≤ u.resends) then linkFail a s
  else
    let s := setLink a { l with unacked := l.unacked.map (fun u => { u with resends := u.resends + 1 }) } s
    each l.unacked (fun u s => emit (.link a (framed .sop (frameBody u.seq u.frame))) s) s

/-- NAK_RECEIVED (R51, R57, R60, R74): it acknowledges up to ACK_SEQ and the rest is sent again. -/
def execNakReceived (arm : Fin 4) (ackSeq : BitVec 8) (crc : BitVec 16) (s : State) : Answer :=
  let a := arm.val
  .next (if !linkRx s a then s
    else if !crcOk (nakBytes ackSeq) crc then count F.LANE_ALK_ERR_CRC a s
    else wantSend a (resendAll a (ackFrames a ackSeq.toNat (count F.LANE_ALK_ERR_NAK a s))))

/-- A discovery reply is taken (R68, R69): with the fourth, LANE_ALK_ID takes the identity, and discovery waits for its STAT or ends in REJECT.
An identity that is refused after a retrain does not replace the one captured before (DEDUCED, log entry 59). -/
def discReply (a first : Nat) (got : List (Nat × Nat)) (s : State) : State :=
  let l := link s a
  let v := fun k => (got.find? (fun e => e.1 == k)).map (·.2)
  match v 0, v 1, v 2, v 3 with
  | some vid, some pid, some ver, some n =>
    let changed := l.retrain && l.idKnown &&
      (fld F.LANE_ALK_ID_VID a s != vid || fld F.LANE_ALK_ID_PID a s != pid)
    let s := setLink a { l with disc := .stat } s
    if changed then discFail a 5 s
    else
      let s := put F.LANE_ALK_ID_PID a pid (put F.LANE_ALK_ID_VID a vid (setLink a { link s a with idKnown := true } s))
      if ver ≠ 1 ∨ n ≠ 16 then discFail a 5 s else s
  | _, _, _, _ => setLink a { l with disc := .regs first got } s

/-- RDATA_RECEIVED (R51, R56, R57, R68, R69, R74): a discovery reply, or the end of a REGR access, each known by the SEQ it echoes. -/
def execRdataReceived (arm : Fin 4) (seq : BitVec 8) (addr data crc : BitVec 16) (s : State) : Answer :=
  let a := arm.val
  let l := link s a
  .next (if !linkRx s a then s
    else if !crcOk (rdataBytes seq addr data) crc then count F.LANE_ALK_ERR_CRC a s
    else match l.disc with
      | .regs first got =>
        if addr.toNat < 4 && seq.toNat == (first + addr.toNat) % 256 then
          discReply a first ((addr.toNat, data.toNat) :: got.filter (fun e => e.1 != addr.toNat)) s
        else s
      | _ =>
        if l.regSeq = some seq.toNat ∧ linkUp s a ∧ flag F.LANE_ALK_REG_CMD_READ a s then
          put F.LANE_ALK_REG_CMD_GO a 0 (put F.LANE_ALK_REG_DATA_DATA a data.toNat (setLink a { l with regSeq := none } s))
        else s)

/-- ACK_TIMEOUT (R60): every unacknowledged frame is sent again. -/
def execAckTimeout (arm : Fin 4) (s : State) : Answer :=
  .next (if linkRx s arm.val && !(link s arm.val).unacked.isEmpty then resendAll arm.val s else s)

/-- UPLINK_CODE_ERRORS (R72, R74): `n` uplink characters in a row have failed decoding or disparity; eight or more take a link that is UP down. -/
def execUplinkCodeErrors (arm : Fin 4) (n : Nat) (s : State) : Answer :=
  let a := arm.val
  .next (if !linkRx s a then s
    else
      let s := countN F.LANE_ALK_ERR_CODE a n s
      if 8 ≤ n && linkUp s a then linkFail a s else s)

/-- STAT_TIMEOUT (R72): no STAT for 8 µs takes the link down. -/
def execStatTimeout (arm : Fin 4) (s : State) : Answer :=
  .next (if linkUp s arm.val then linkFail arm.val s else s)

/-- WKILL_RELEASE (R63, R65): WKILLn_N rises when no condition holds it; changes to WRITE that waited for it get their new MODE frames. -/
def execWkillRelease (arm : Fin 4) (s : State) : Answer :=
  .next (if wkillCond s arm.val then s else wantSend arm.val (put F.LANE_ALK_STAT_WKILL arm.val 0 s))

/-- SENSE_START (R44, R47, R48): START requests a measurement; one written while busy is ignored. The pair goes to SENSE between operations, and
through READ. That a START on a link that is not UP waits, busy, until the link is UP is the model's choice (DESIGN CHOICE, log entry 59). -/
def execSenseStart (arm : Fin 4) (w : BusW) (s : State) : Answer :=
  let a := arm.val
  if flag F.LANE_ALK_SNS_START a s then
    -- the plain fields may be written, the START is ignored
    .next (busWrite R.LANE_ALK_SNS a 0 w s)
  else
    let s := busWrite R.LANE_ALK_SNS a 0 w s
    if !wrote1 31 w then .next s
    else
      let m : Sense := ⟨fld F.LANE_ALK_SNS_SURF a s, fld F.LANE_ALK_SNS_SRC a s, fld F.LANE_ALK_SNS_COUNT a s, 0⟩
      .next (askPers (16 * a + sensePair m) 2 m.src (setLink a { link s a with sense := some m } (put F.LANE_ALK_SNS_START a 1 s)))

/-- SENSE_DONE (R46, R48): the last sample is taken, the pair being in SENSE outside every servo gate; `gaps` holds the samples of each window
opened for the measurement, one between any two wedges. RESULT is the mean of all the samples, rounded down, DONE sets and EV068 + a is
raised; the pair goes back to READ. -/
def execSenseDone (arm : Fin 4) (gaps : List (List (BitVec 12))) (s : State) : Answer :=
  let a := arm.val
  match (link s a).sense with
  | none => .next s
  | some m =>
    let h := 16 * a + sensePair m
    if gaps.flatten.length ≠ m.count + 1 || gaps.length ≠ m.wins || !linkUp s a || persOf s h ≠ 2 || (head s h).gate then .next s
    else
      let sum := gaps.flatten.foldl (fun n x => n + x.toNat) 0
      let s := setLink a { link s a with sense := none } s
      let s := put F.LANE_ALK_SNS_RESULT a (sum / (m.count + 1)) (put F.LANE_ALK_SNS_DONE a 1 (put F.LANE_ALK_SNS_START a 0 s))
      .next (raiseEvent (68 + a) (sendFrame a (.mode (2 ^ sensePair m) 0 0) s))

/-- PREAMP_REG_ACCESS (R56): GO sends a REGW or REGR frame; a write to a discovery register is refused with FAIL. -/
def execPreampRegAccess (arm : Fin 4) (w : BusW) (s : State) : Answer :=
  let a := arm.val
  if flag F.LANE_ALK_REG_CMD_GO a s then .next s
  else
    let s := busWrite R.LANE_ALK_REG_CMD a 0 w s
    if !wrote1 31 w then .next s
    else
      let addr := fld F.LANE_ALK_REG_CMD_ADDR a s
      let read := flag F.LANE_ALK_REG_CMD_READ a s
      if (!read && addr < 16) || !linkUp s a then .next (put F.LANE_ALK_REG_CMD_FAIL a 1 s)
      else
        let s := put F.LANE_ALK_REG_CMD_GO a 1 (put F.LANE_ALK_REG_CMD_FAIL a 0 s)
        .next (sendFrame a (if read then .regr addr else .regw addr (fld F.LANE_ALK_REG_DATA_DATA a s)) s)

/-- LINK_ENABLE (R68): ENABLE from 0 to 1 with the arm domain up starts discovery, counted as a retrain for the identity. -/
def execLinkEnable (arm : Fin 4) (w : BusW) (s : State) : Answer :=
  let a := arm.val
  let was := flag F.LANE_ALK_CTL_ENABLE a s
  let s := busWrite R.LANE_ALK_CTL a 0 w s
  if wrote1 0 w && !was && armUp s a then
    let s := startDiscovery a false s
    .next (setLink a { link s a with retrain := true } s)
  else .next s

/-- LINK_DISABLE (R63, R71): ENABLE 0 stops the link clock, WKILLn_N is low and STATE is OFF. -/
def execLinkDisable (arm : Fin 4) (w : BusW) (s : State) : Answer :=
  let a := arm.val
  let s := busWrite R.LANE_ALK_CTL a 0 w s
  if !wrote0 0 w then .next s
  else
    let s := clearFrames a (setLinkState a 0 (dropWpermArm a s))
    let s := setLink a { link s a with disc := .none, auto := false, autos := 0 } s
    .next (condFalls (128 + a) (wkillFall a (servoLinkDown a s)))

/-- LINK_RETRAIN (R68): RETRAIN starts discovery, ignored while STATE is TRAIN. -/
def execLinkRetrain (arm : Fin 4) (w : BusW) (s : State) : Answer :=
  let a := arm.val
  let s := busWrite R.LANE_ALK_CTL a 0 w s
  .next (if wrote1 2 w && fld F.LANE_ALK_STAT_STATE a s != 1 && flag F.LANE_ALK_CTL_ENABLE a s && armUp s a
    then startDiscovery a true s else s)

/-- DISC_UPLINK_IDLE (R68): the uplink is aligned and the four discovery registers are read. -/
def execDiscUplinkIdle (arm : Fin 4) (s : State) : Answer :=
  let a := arm.val
  .next (if (link s a).disc == .clock then
      let s := setLink a { link s a with disc := .regs (nextSeq s a) [] } s
      each [0, 1, 2, 3] (fun r s => sendFrame a (.regr r) s) s
    else s)

/-- DISC_ABSENT (R69, R71, R73): no valid uplink character within 2 ms. -/
def execDiscAbsent (arm : Fin 4) (s : State) : Answer :=
  .next (if (link s arm.val).disc == .clock then discFail arm.val 4 s else s)

/-- AUTO_RETRAIN (R73): a retrain of a link that went down, at most three. -/
def execAutoRetrain (arm : Fin 4) (s : State) : Answer :=
  let a := arm.val
  let l := link s a
  let st := fld F.LANE_ALK_STAT_STATE a s
  .next (if retrains s a && (st == 3 || st == 4 || st == 5) &&
        flag F.LANE_ALK_CTL_ENABLE a s && armUp s a then
      startDiscovery a true (setLink a { l with autos := l.autos + 1 } s)
    else s)

end Sys2Proof.Machine
end

