-- ==== Sys2Proof/Machine/Blaze.lean ====
section
/-! DEFINITION. The commands of the blaze recorder's engine (R447–R456). -/

namespace Sys2Proof.Machine

open Sys2Proof

/-- BLAZE_POST (R450, R452): master c's GO queues an EVENT record, or drops it; other masters' writes are ignored. -/
def execBlazePost (m : Master) (c : Fin 5) (w : BusW) (s : State) : Answer :=
  let mine := match m with | .cp k => k.val == c.val | .lyolo => c.val == 4 | _ => false
  if !mine then .next s
  else
    let s := busWrite R.BLZ_POST_CTL c.val 0 w s
    if !wrote1 31 w then .next s
    else
      let t := blzEnter 1 (fld F.BLZ_POST_CTL_SRC c.val s + fld F.BLZ_POST_CTL_CLASS c.val s * 512) (rd R.BLZ_POST_DATA c.val 0 s) s
      .next (put F.BLZ_POST_CTL_DROPPED c.val (decide (s.blz.drop < t.blz.drop)).toNat t)

/-- Slot the next record goes to: the permanent area first, then the ring (R447). -/
def blzSlot (s : State) : Nat := if s.blz.perm < 256 then s.blz.perm else 256 + s.blz.circ

/-- The circulating slot after slot `c`; at the end of a sector it is the first one of the sector erased for it (R447, R454). -/
def circNext (s : State) (c : Nat) : Nat :=
  if c % 128 = 127 then 128 * s.blz.erased.getD ((c / 128 + 1) % 34) else c + 1

/-- The engine moves to the next slot. -/
def blzNextSlot (s : State) : State :=
  { s with blz := if s.blz.perm < 256 then { s.blz with perm := s.blz.perm + 1 } else { s.blz with circ := circNext s s.blz.circ } }

/-- The sector to erase before the first slot of a circulating sector is written, if any: its successor in the ring (R447). -/
def blzEraseNext (s : State) : Option Nat :=
  let n := s.blz.circ / 128
  if 256 ≤ s.blz.perm && s.blz.circ % 128 == 0 && s.blz.erased.all (· == n) then some ((n + 1) % 34) else none

/-- BLAZE_WRITE_START (R447, R451, R488): the body of the next queued record starts, or first the erase of the following sector; the NOR does
one program or erase at a time. -/
def execBlazeWriteStart (s : State) : Answer :=
  .next (if !s.blz.scanned || s.blz.queue.isEmpty || s.blz.phase != .idle || s.blz.erasing.isSome then s
    else match blzEraseNext s with
      | some n => put F.BLZ_STAT_ERASING 0 1 { s with blz := { s.blz with erasing := some n } }
      | none =>
        let k := blzSlot s
        let ch := if s.blz.queue.length = 1 then s.blz.chain.map (fun c => { c with slot := some k }) else s.blz.chain
        { s with blz := { s.blz with phase := .body k, chain := ch } })

/-- A NOR program or erase has failed (R454). -/
def norFailed (s : State) : State := report 208 none 0 2 0 0 (raiseEvent 141 (put F.BLZ_STAT_NOR_ERR 0 1 s))

/-- What a failed program of `n` bytes leaves is open (R454). -/
def norSpoil (a n : Nat) (s : State) : State :=
  norProgram a ((List.range n).map (fun k => byte (Config.openVal 454 [(a : Int), (k : Int), (s.time : Int)]).toNat)) s

/-- The record being written is given up in its slot: it is written again in the next one, with the repeats counted meanwhile. -/
def blzRetry (k : Nat) (s : State) : State :=
  let s := blzNextSlot (mirrorCopy (32 * k) 32 s)
  let mine := s.blz.chain.filter (fun c => c.slot == some k)
  let q := match mine with
    | some c => modifyAt (fun r => { r with rep := c.rep }) s.blz.queue 0
    | none => s.blz.queue
  let ch := s.blz.chain.map (fun c => if c.slot = some k then { c with slot := none } else c)
  norFailed { s with blz := { s.blz with phase := .idle, chain := ch, queue := q } }

/-- BLAZE_BODY_PROGRAMMED (R451, R452, R454): bytes 0x01–0x1F stand in NOR, and the MARK program starts. -/
def execBlazeBodyProgrammed (ok : Bool) (s : State) : Answer :=
  match s.blz.phase, s.blz.queue with
  | .body k, r :: _ =>
    let a := blzNorAddr k
    if ok then
      let s := mirrorCopy (32 * k) 32 (norProgram (a + 1) ((blzBytes r).drop 1) s)
      .next { s with blz := { s.blz with phase := .mark k } }
    else .next (blzRetry k (norSpoil (a + 1) 31 s))
  | _, _ => .next s

/-- A DROP record is queued once there is room (R450); its SRC is left open. -/
def blzDropRec (s : State) : State :=
  if s.blz.drop = 0 || 64 ≤ s.blz.queue.length then s
  else
    let n := s.blz.drop
    blzQueue 4 ((Config.openVal 449 [4]).toNat % 65536) (n % 2 ^ 32) none { s with blz := { s.blz with drop := 0 } }

/-- BLAZE_MARK_PROGRAMMED (R450, R451, R454): MARK reads 0x5A in the NOR and then in the mirror; the record leaves the queue. -/
def execBlazeMarkProgrammed (ok : Bool) (s : State) : Answer :=
  match s.blz.phase with
  | .mark k =>
    if ok then
      let s := mirrorCopy (32 * k) 32 (norProgram (blzNorAddr k) [0x5A] s)
      .next (blzDropRec (blzNextSlot { s with blz := { s.blz with phase := .idle, queue := s.blz.queue.drop 1 } }))
    else .next (blzRetry k (norSpoil (blzNorAddr k) 1 s))
  | _ => .next s

/-- The sector after sector `n` in the ring, past the one that is being written. -/
def eraseAfter (s : State) (n : Nat) : Nat := if (n + 1) % 34 = s.blz.circ / 128 then (n + 2) % 34 else (n + 1) % 34

/-- BLAZE_ERASE_DONE (R447, R454): the sector reads 0xFF in the NOR and the mirror; after a failed erase the engine erases the next sector, and will
pass over the failed one (log entry 39). -/
def execBlazeEraseDone (ok : Bool) (s : State) : Answer :=
  match s.blz.erasing with
  | none => .next s
  | some n =>
    let o := 0x2000 + 4096 * n
    if ok then
      let s := norErase (0x01980000 + o) 4096 s
      .next (put F.BLZ_STAT_ERASING 0 0 { s with mirror := Tab.clear s.mirror o (o + 4096), blz := { s.blz with erasing := none, erased := some n } })
    else
      .next (norFailed { s with blz := { s.blz with erasing := some (eraseAfter s n) } })

/-- SEQ from which the engine continues after the scan (R455). -/
def scanSeq (s : State) : Nat := match blzLatest (blzIn (norSlot s) 256 4608) with
  | some e => (blzSeqOf e + 1) % 2 ^ 32
  | none => match (blzIn (norSlot s) 0 256).getLast? with
    | some e => (blzSeqOf e + 1) % 2 ^ 32
    | none => 0

/-- Slots of the permanent area used, and the first circulating slot after the record of highest SEQ that reads all 0xFF (R455). -/
def scanPerm (s : State) : Nat := ((List.range 256).filter (fun k => !blzEmpty (norSlot s k))).foldl (fun _ k => k + 1) 0
def scanCirc (s : State) : Nat :=
  let a := match blzLatest (blzIn (norSlot s) 256 4608) with | some e => e.1 - 256 + 1 | none => 0
  (((List.range 4352).map (fun i => (a + i) % 4352)).find? (fun i => blzEmpty (norSlot s (256 + i)))).getD (a % 4352)

/-- Records queued before the scan ended take their place in the device's sequence (R455). -/
def renumber (base : Nat) (s : State) : State :=
  let mv := fun (n : Nat) => (n + base) % 2 ^ 32
  let q := s.blz.queue.map (fun r => { r with
    seq := mv r.seq, data := if r.ty = 2 then r.data % 2 ^ 32 + mv (r.data / 2 ^ 32) * 2 ^ 32 else r.data })
  put F.BLZ_SEQ_SEQ 0 (mv (fld F.BLZ_SEQ_SEQ 0 s)) { s with blz := { s.blz with queue := q, chain := s.blz.chain.map (fun c => { c with first := mv c.first }) } }

/-- BLAZE_SCAN_DONE (R449, R450, R455, R456): the mirror holds the NOR area, SEQ goes on from the highest one, and a POWER_ON record is queued. -/
def execBlazeScanDone (s : State) : Answer :=
  if fld F.BLZ_STAT_STATE 0 s ≠ 1 then .next s
  else
    let s := mirrorCopy 0 147456 { s with mirror := [] }
    let s := renumber (scanSeq s) { s with blz := { s.blz with scanned := true, perm := scanPerm s, circ := scanCirc s, phase := .idle, erased := none } }
    .next (blzQueue 3 ((Config.openVal 449 [3]).toNat % 65536) s.blz.lastPcycle none (put F.BLZ_STAT_STATE 0 2 s))

end Sys2Proof.Machine
end

