-- ==== Sys2Proof/Machine/OpsServo.lean ====
section
/-! DEFINITION. Servo arithmetic and hand-overs that several commands share (R178–R191). -/

namespace Sys2Proof.Machine

open Sys2Proof

/-! ### Demodulation (R175–R180) -/

/-- Binary value of a 22-bit Gray code (R175). -/
def grayToNat (g : Nat) : Nat :=
  (List.range 22).foldl (fun v i => let b := 21 - i
    if (g.testBit b) != ((v >>> (b + 1)).testBit 0) then v + 2 ^ b else v) 0

/-- Samples of a burst (R175, R178). -/
def burstLen (s : State) : Nat := fld1 F.SRV_FMT_BLEN 0 s * max 4 (fld F.SRV_FMT_SPER 0 s)

/-- Ceiling of the binary logarithm. -/
def clog2 (n : Nat) : Nat := ((List.range 64).find? (fun k => n ≤ 2 ^ k)).getD 64

/-- Burst amplitude: min(65,535, round(sqrt(I² + Q²) / 2^(L − 4))) (R178). -/
def burstAmp (l : Nat) (iq : Int × Int) : Nat :=
  let n := (iq.1 * iq.1 + iq.2 * iq.2).toNat
  min 65535 ((isqrt (4 * n * 4 ^ (4 - l)) / 2 ^ (l - 4) + 1) / 2)

/-- Offset from the track centre in 1/256 track, rounded, and whether |x| ≥ 3/8 (R178, R179). -/
def demodX (a b c d : Nat) : Int × Bool :=
  let df : Int := (a : Int) - b
  if 2 * df.natAbs < a + b ∨ a + b = 0 then (roundDiv (64 * df) (a + b), false)
  else
    let sg : Int := if df < 0 then -1 else 1
    if c + d = 0 then (sg * 64, false) else (roundDiv (sg * 128 * (c : Int)) (c + d), 3 * (c + d) ≤ 4 * c)

/-- The position nearest the predicted one among TID − 1, TID, TID + 1; a tie is left open (R179). -/
def nearestPos (cands : List Int) (pred : Int) : Int :=
  let best := (cands.map (fun p => (p - pred).natAbs)).min?.getD 0
  let l := cands.filter (fun p => (p - pred).natAbs == best)
  l.getD ((Config.openVal 179 (pred :: l)) % (max 1 l.length : Nat)).toNat (cands.headD 0)

/-- Position of a head from a demodulated wedge, in 1/256 track (R179). That a position below track 0 is kept as a negative number is the model's
choice (DESIGN CHOICE, log entry 26). -/
def wedgePos (s : State) (h : Nat) (w : Wedge) : Int :=
  let l := clog2 (burstLen s)
  let amp := fun i => burstAmp l (w.bursts.getD i (0, 0))
  let x := demodX (amp 0) (amp 1) (amp 2) (amp 3)
  let tid : Int := grayToNat w.gray.toNat
  let p := fun (t : Int) => 256 * t + x.1
  match x.2, (head s h).p1, (head s h).p2 with
  | true, some p1, some p2 => nearestPos [p (tid - 1), p tid, p (tid + 1)] (2 * p1 - p2)
  | _, _, _ => p tid

/-- 12-bit saturation. -/
def sat12 (x : Int) : Int := clampS 2048 x
/-- 16-bit saturation. -/
def sat16 (x : Int) : Int := clampS 32768 x

/-- Runout table address of head `h` at wedge `w` (R181). -/
def rroAddr (s : State) (h w : Nat) : Nat := fld F.SRV_RRO_BASE_ADDR 0 s * 65536 + h * 1024 + w

/-- The runout entry of head `h` at wedge `w` in the table: 0 outside shared SRAM (R181). -/
def rroRead (s : State) (h w : Nat) : Int :=
  if inSram (rroAddr s h w) 1 then sext 8 (sramNat s (rroAddr s h w) 1) else 0

/-- The entries fetched for wedge `w` of arm `a`. -/
def rroBank (s : State) (a w : Nat) : Option (List Int) :=
  (arm s a).rro.findSome? (fun e => if e.1 = w then some e.2 else none)

/-- The entries of the arm's heads at wedge `w` are fetched: one outside shared SRAM counts as 0 and gives a bus error (R181). -/
def rroFetch (a w : Nat) (s : State) : State :=
  if (rroBank s a w).isSome then s
  else
    let p := fld F.FLT_STAT_PENDING 0 s
    let q := fld F.FLT_FC3_PEND_PEND 0 s
    let es := (armHeads a).map (fun h => rroRead s h w)
    let s := setArm a { arm s a with rro := ((w, es) :: (arm s a).rro).take 3 } s
    each (armHeads a) (fun h s => if inSram (rroAddr s h w) 1 then s else reportAt p q false 233 none 0x0A 1 (rroAddr s h w) 0 s) s

/-- Wedge `w` follows the wedge at which the arm last fetched entries, is that wedge, or is the one before it, which another head meets later: what
the arm holds is then of this pass (R181). -/
def rroFresh (s : State) (a w : Nat) : Bool := match (arm s a).rroAt with
  | some v => w == v || w == (v + 1) % wedges s || (w + 1) % wedges s == v
  | none => false

/-- At wedge `w` of the arm the entries of the next wedge are fetched; those of `w` itself where no wedge came just before. With RRO_EN clear nothing
is fetched or kept (R181). -/
def rroAhead (a w : Nat) (s : State) : State :=
  if !flag F.SRV_CTL_RRO_EN a s then setArm a { arm s a with rro := [], rroAt := none } s
  else
    let s := if rroFresh s a w then s else setArm a { arm s a with rro := [] } s
    if (arm s a).rroAt = some ((w + 1) % wedges s) then s
    else rroFetch a ((w + 1) % wedges s) (rroFetch a w (setArm a { arm s a with rroAt := some w } s))

/-- RRO of R180: 0 with RRO_EN clear. -/
def rroOf (s : State) (h w : Nat) : Int :=
  if flag F.SRV_CTL_RRO_EN (armOf h) s then ((rroBank s (armOf h) w).map (·.getD (h % 16) 0)).getD 0 else 0

/-- e_h of R180. -/
def posError (s : State) (h w : Nat) (p : Int) : Int :=
  let a := armOf h
  sat12 (p - 256 * ((arm s a).target : Int) - (head s h).hofs - (head s h).opofs - rroOf s h w)

/-- WLIM of head `h`. -/
def wlim (s : State) (h : Nat) : Nat := fld2 F.SRV_HCFG_WLIM (h / 16) (h % 16) s

/-- The position part of R193 for errors `e` and `ePrev`. -/
def errInWindow (s : State) (h : Nat) (e : Int) (ePrev : Option Int) : Bool :=
  e.natAbs ≤ wlim s h && (match ePrev with | some q => (2 * e - q).natAbs ≤ wlim s h | none => false)

/-- Every condition of R193 for head `h`. -/
def wpermOk (s : State) (h : Nat) : Bool :=
  let a := armOf h
  let x := head s h
  mode s a == 6 && hst s h == 2 && x.yielded && errInWindow s h x.e x.ePrev && !bitAt (fld2 F.SRV_HST_MA_SAT a (h % 16) s) 0 &&
    eligible s h && !(link s a).muaMiss && !(link s a).disagree.testBit (h % 16) && linkUp s a

/-! ### Feedforward (R184) -/

/-- The baseline-corrected sample of a shock channel that feedforward uses; 0 when stuck or disabled (R184). -/
def shkSample (s : State) (c : Nat) : Int :=
  if bit F.SRV_SHK_CTL_EN 0 c s && !bit F.SRV_SHK_STAT_STUCK 0 c s then (shk s c).last - (shk s c).b / 4294967296 else 0

/-- FF of R184. -/
def feedforward (s : State) (a : Nat) : Int :=
  if !flag F.SRV_SHK_CTL_FF_EN 0 s then 0
  else
    let x := arm s a
    let ok := fun c => bit F.SRV_SHK_CTL_EN 0 c s && !bit F.SRV_SHK_STAT_STUCK 0 c s
    let sr := if ok 3 && ok 4 then openRound 184 (shkSample s 3 + shkSample s 4) 2
      else shkSample s 3 + shkSample s 4
    (coefS x 29 * shkSample s 0 + coefS x 30 * shkSample s 1 + coefS x 31 * sr) / 256

/-! ### Mode changes with a hand-over -/

/-- The arm goes to SETTLE with a settle hand-over (R188–R190). -/
def toSettle (a : Nat) (s : State) : State :=
  let s := setMode a 5 s
  acqHeads a (setArm a { settleHandOver (arm s a) with newSeek := false } s)

/-- The arm goes to SEEK with a seek hand-over: BUMP is set at the first group, heads in TRACK ramp to 0 (R189, R190). -/
def toSeek (a : Nat) (s : State) : State :=
  let s := untrack a (setMode a 4 s)
  acqHeads a (setArm a { arm s a with newSeek := true, fn := 0, settle := 0, far := 0 } s)

/-- A GO that is accepted; a seek into another zone starts its retune at its first group (R83, R188, R191). -/
def goTo (a t : Nat) (s : State) : State :=
  let x := arm s a
  let dist := ((t : Int) - (x.target : Int)).natAbs
  let m := mode s a
  let s := setArm a { x with target := t, seekFrom := some (dist, s.time), retries := 0, tune := true } s
  if m = 4 then s
  else if dist ≤ fld F.SRV_SEEK_SETTLE_DIST a s then toSettle a s
  else toSeek a s

/-- Last track of the active geometry. -/
def lastTrack (s : State) : Nat := match s.geo with
  | none => 0
  | some g => ((g.zones.getLast?).map (·.last)).getD 0

end Sys2Proof.Machine
end

