-- ==== Sys2Proof/Machine/OpsWrite.lean ====
section
/-! DEFINITION. The start of a write operation and what its commands share (R118–R144). -/

namespace Sys2Proof.Machine

open Sys2Proof

/-- A write profile load is needed on lane `n` for zone `z` (R144). -/
def needWrProfile (s : State) (n z : Nat) : Bool :=
  flag F.WP_CTL_PROF_AUTO n s && (fld F.WP_STAT_ZONE n s != z || !flag F.WP_STAT_PROF_OK n s)

/-- Sectors per track of zone `z`. -/
def sptOf (s : State) (z : Nat) : Nat := ((zoneOf s z).map (·.spt)).getD 1

/-- PSA of sector `k` of the operation on head `h`. -/
def writePsa (s : State) (o : WriteOp) (h : Nat) (x : HeadWr) (k : Nat) : Nat :=
  psaWord (h % 16) o.zone o.track ((x.first + k) % sptOf s o.zone)

/-- A write operation starts on arm `a` for item `x`: GEN advances by 1, its lanes are armed, the preamp rail's level is kept, and a
retune starts where the synthesizer needs one; AGE_WARN follows GEN (R120, R129, R134, R255, R392). -/
def writeStart (a : Nat) (x : Item) (s : State) : State :=
  let gen := (fld F.SPR_WGEN_GEN 0 s + 1) % 2 ^ 40
  let hs := x.mem.map (fun (f, b) => (16 * a + f, b))
  let tab : Tab HeadWr := each hs (fun (h, b) t =>
    Tab.put t h { first := b, profOk := !needWrProfile s h x.zone }) []
  let heatOn := hs.any (fun (h, _) => flag F.WP_CTL_HEAT_EN h s)
  let o : WriteOp := ⟨tab, x.zone, x.track, 0, x.count, gen, x.flags, ((zoneOf s x.zone).map (·.strength)).getD 0, x.id,
    none, !heatOn, 0, false, false, false⟩
  let s := put F.SPR_WGEN_GEN 0 gen (setWop a o { s with sched := { s.sched with wrBase := Tab.put s.sched.wrBase a (monMw s 4) } })
  let s := each hs (fun (h, _) s => setWbuf h [] (if fld F.WP_STAT_STATE h s = 1 then put F.WP_STAT_STATE h 2 s else s)) s
  rebind (synForOp a x.zone (stgStat s))

/-- The write operation of arm `a` with head `h` changed. -/
def setHeadWr (a h : Nat) (x : HeadWr) (s : State) : State := match wop s a with
  | none => s
  | some o => setWop a { o with heads := Tab.put o.heads h x } s

/-- The permits of WGATE of head `h` (R124). -/
def gatePermit (s : State) (h : Nat) : Bool := wperm s h && shockOk s && clkOk s (armOf h)

/-- The result word of a head of a write operation; a head that wrote all its sectors has no first one not written, whatever its status (R142). -/
def writeWord (s : State) (o : WriteOp) (x : HeadWr) : Nat :=
  let st := x.status.getD 0
  st * 2 ^ 56 + (if st = 0 ∨ o.count ≤ x.done then 0xFFF else (x.first + x.done) % sptOf s o.zone) * 2 ^ 44 + x.done % 4096 * 2 ^ 32 + o.gen % 2 ^ 32

/-- Counters, event and result register of one head at the end of its operation (R142, R143). -/
def headWriteEnd (o : WriteOp) (h : Nat) (x : HeadWr) (s : State) : State :=
  let st := x.status.getD 0
  let s := wr R.WP_RES h 0 (writeWord s o x) s
  let s := match st with
    | 1 => count F.WP_ERR_WCUT h s
    | 2 => count F.WP_ERR_UNDERRUN h s
    | 6 => count F.WP_ERR_WFAULT h s
    | 7 => count F.WP_ERR_HEAT h s
    | _ => s
  let s := put F.WP_STAT_GATE h 0 (if fld F.WP_STAT_STATE h s = 3 then put F.WP_STAT_STATE h 2 s else s)
  setWbuf h [] (if st = 0 then s else raiseEvent h s)

end Sys2Proof.Machine
end

