-- ==== Sys2Proof/Machine/Parity.lean ====
section
/-! DEFINITION. Commands of surface parity and the staging band: descriptors, staging stripes, the end of passes and rebuilds
(R246–R265, R280, R281). -/

namespace Sys2Proof.Machine

open Sys2Proof

/-! ### Descriptors (R280, R281) -/

/-- The landing ranges that hold a descriptor's data and host metadata. -/
def opBufs (s : State) (x : SprOp) : List (Nat × Nat) :=
  let n := opUnits s x
  [(x.buf, 4096 * n), (x.meta', if x.meta' = 0 then 0 else 64 * n)]

/-- The landing range that holds the entries of a WRITE_STG descriptor. -/
def opAux (x : SprOp) : List (Nat × Nat) := if x.op = 3 then [(x.aux, 32 * x.count)] else []

/-- The landing holds accesses to what a writing descriptor names (R408, R414): it is taken later. -/
def opBusy (s : State) (x : SprOp) : Bool := (opAux x ++ opBufs s x).any (fun e => 0 < e.2 && landBusy s e.1 e.2)

/-- SPR reads ranges of the landing, whose granules have the outcomes `es` in order (R406, R407, R411). -/
def sprLooks : List (Nat × Nat) → List Ecc → State → State
  | [], _, s => s
  | e :: t, es, s => sprLooks t (es.drop (granulesOf e.1 e.2).length) (hwLook 7 e.1 e.2 es s)

/-- DESC_READ_UNIT (R264, R280, R281): SPR takes a READ_UNIT descriptor, or one with a bad OP, which ends ADDR (log entry 20). -/
def execDescReadUnit (s : State) : Answer :=
  match descNext s with
  | none => .next (descIdle s)
  | some x =>
    if 2 ≤ x.op && x.op ≤ 4 then .next s
    else
      let (x, s) := descTake x s
      let r := nsEnt s x.nsid
      if x.op ≠ 1 || !r.valid || x.count = 0 || 64 < x.count || r.units < x.addr + x.count then .next (opRefuse x s)
      else .next (readUnits x ((List.range x.count).map (fun i => (i, x.addr + i))) s)

/-- DESC_READ_STG (R264, R280, R281): a unit of the staging stripe of a given SEQ. -/
def execDescReadStg (s : State) : Answer :=
  match descNext s with
  | none => .next (descIdle s)
  | some x =>
    if x.op ≠ 2 then .next s
    else
      let (x, s) := descTake x s
      let slot := x.aux % 16
      if x.addr < stgTail s || stgHead s ≤ x.addr || slot = 0 || 13 < slot then .next (opRefuse x s)
      else .next (startStaged { x with count := 1 } 0 x.addr slot (setOp { x with count := 1 } s))

/-- DESC_WRITE_STG (R28, R254, R261, R281): entries join those that wait for a staging stripe, or the descriptor ends STG_FULL, or ADDR while no
geometry is active. The granules of its entries, then of its data and metadata, read with the outcomes `ecc` (R411). -/
def execDescWriteStg (ecc : List Ecc) (s : State) : Answer :=
  match descNext s with
  | none => .next (descIdle s)
  | some x =>
    if x.op ≠ 3 || opBusy s x then .next s
    else
      let (x, s) := descTake x s
      let s := sprLooks (opAux x) ecc s
      if x.count = 0 || 32 < x.count || !(stgEntries s x).all (stgEntryOk s) then .next (opRefuse x s)
      else if s.geo.isNone then .next (opRefuse x (report 184 none 7 6 0 0 s))
      else if stgFull s then .next (opEnd x 2 s)
      else .next (stgTakeOp x (sprLooks (opBufs s x) (ecc.drop (granulesOf x.aux (32 * x.count)).length) s))

/-- DESC_WRITE_STRIPE (R246, R248, R260, R281): an in-place pass over a namespace stripe, whose data and metadata granules read with the
outcomes `ecc` (R411). -/
def execDescWriteStripe (ecc : List Ecc) (s : State) : Answer :=
  match descNext s with
  | none => .next (descIdle s)
  | some x =>
    if x.op ≠ 4 || opBusy s x then .next s
    else
      let (x, s) := descTake x s
      let r := nsEnt s x.nsid
      let n := dataOf r.red
      if !r.valid || x.addr % n ≠ 0 || r.units < x.addr + n then .next (opRefuse x s)
      else .next (stripeStart x (sprLooks (opBufs s x) ecc s))

/-! ### The staging band (R254, R255) -/

/-- STAGING_WAIT_EXPIRE (R254): the entries that wait are written without waiting for 13 units. -/
def execStagingWaitExpire (s : State) : Answer := .next (stgFlushDue (stgTake 0 0 s.spr.waiting).1.length s)

/-- STAGING_ROOM (R254): the band has room again, and staging stripes held for it are dispatched. -/
def execStagingRoom (s : State) : Answer := .next (stgStat (stgFlushDue 0 s))

/-- STG_TAIL_WRITE (R255): TAIL moves on, never back and never beyond HEAD; FULL and AGE_WARN follow. -/
def execStgTailWrite (w : BusW) (s : State) : Answer :=
  let v := merged R.SPR_STG_TAIL s.locked (rd R.SPR_STG_TAIL 0 0 s) w
  .next (if v < stgTail s || stgHead s < v then s else stgStat (wr R.SPR_STG_TAIL 0 0 v s))

/-! ### The end of a pass (R248, R256, R259–R261) -/

/-- Live entries of a stripe's units that the pass's data includes are released (R260). -/
def releaseStaged (p : Pass) (lo n : Nat) (s : State) : State :=
  { s with spr := { s.spr with live := s.spr.live.filter (fun e =>
      !(e.nsid == p.nsid && lo ≤ e.unit && e.unit < lo + n && e.committed && !genLater e.gen p.gen)) } }

/-- The fill watermark passes namespace stripe `n` when a fill pass of it has ended OK, and listed stripes after it (R342, R343). -/
def fillAdvance (nsid n : Nat) (fill : Bool) (s : State) : State := match nsr s nsid with
  | none => s
  | some r =>
    let w := if fill && r.fill = n then n + 1 else r.fill
    let w := upTo r.early.length (fun _ w => if r.early.contains w then w + 1 else w) w
    setNs nsid { r with fill := w, early := r.early.filter (fun e => w ≤ e) } s

/-- What every pass over a namespace stripe does when it ends OK: the bit of a relocated stripe, the entries and images it replaces, the
cache entries it makes safe (R248, R256, R259, R260, R268). -/
def passOk (p : Pass) (s : State) : State :=
  let zk := relocStep s true (p.zone0, p.k0)
  let s := relocDone zk.1 zk.2 (relocDone p.zone0 p.k0 s)
  let sameStripe := fun (q : Pass) => q.zone0 == p.zone0 && q.k0 == p.k0 && q.nsGen == p.nsGen && q.ended
  let from' := (Tab.vals s.spr.passes).filterMap (fun q => if sameStripe q then q.buf else none)
  let s := { s with spr := { s.spr with passes := s.spr.passes.filter (fun e => !(e.2.zone0 == p.zone0 && e.2.k0 == p.k0 && (e.2.ended || e.1 == p.id))) } }
  match ownerOf s p.zone0 p.k0 with
  | none => s
  | some (nsid, n) =>
    let d := dataOf p.red
    let s := releaseStaged p (n * d) d s
    let s := each (from' ++ p.buf.toList) (fun b s => upTo d (fun j s => cacheSafe nsid p.nsGen (n * d + j) (b + 4096 * j) s) s) s
    fillAdvance nsid n ((List.range d).all (fun j => passBody s p j == fillBody s nsid)) s

/-- Slots of the entries of a staging stripe, in their order. -/
def entrySlots (es : List StgEntry) : List (StgEntry × Nat) := (stgTake 0 0 es).1

/-- One entry of a staging stripe that stands on media (R252, R256, R261). -/
def entryOk (seq gen : Nat) (e : StgEntry × Nat) (s : State) : State :=
  let x := e.1
  let mine := fun (l : StgLive) => l.nsid == x.nsid && l.nsGen == x.nsGen && l.atom == x.atom && !l.committed
  if x.ty = 1 then
    let s := { s with spr := { s.spr with live := s.spr.live ++ [⟨x.nsid, x.nsGen, x.unit, seq, e.2, gen, x.atom, x.atom == 0, x.body, x.buf⟩] } }
    if x.atom = 0 then cacheSafe x.nsid x.nsGen x.unit x.buf s else s
  else
    let s := if x.ty = 2 then
        let ls := s.spr.live.filter mine
        let s := { s with spr := { s.spr with live := s.spr.live.map (fun l => if mine l then { l with committed := true, gen := gen } else l) } }
        each ls (fun l s => cacheSafe l.nsid l.nsGen l.unit l.buf s) s
      else { s with spr := { s.spr with live := s.spr.live.filter (fun l => !mine l) } }
    match groupOf s x with
    | none => s
    | some g => salvResume (groupEnd g s)

/-- A staging pass has ended OK. -/
def stagingOk (p : Pass) (seq : Nat) (s : State) : State :=
  let s := each (entrySlots p.entries) (entryOk seq p.gen) (dropPass p.id s)
  let s := each ((p.entries.map (·.op)).eraseDups) (fun o s =>
    let mine := p.entries.filter (fun e => e.op == o)
    entriesEnd o mine.length 0 (mine.filter (fun e => e.ty == 1)).length seq p.gen s) s
  resumeOps s

/-- A descriptor, or what else asked for the pass, learns that it ended FAILED after its third attempt, or was refused (R246, R248). -/
def passFailed (p : Pass) (st : Nat) (s : State) : State :=
  match p.use with
  | .stripe o => match sprOp s o with
    | some x => opEnd { x with gen := p.gen } st (setPass { p with ended := true } s)
    | none => setPass { p with ended := true } s
  | .staging _ => stagingLost p st s
  | .cruise => cruiseLeave (setPass { p with ended := true } s)
  | .salv i =>
    salvHalt i (report 186 none 7 6 0 i (dropPass p.id s))

/-! ### The salvage job's bookkeeping (R270, R271) -/

/-- COUNT of the job's entry. -/
def jobCount (s : State) : Nat := (jobEnt s).count

/-- A spare pass has ended OK: the stripe counts as relocated and leaves the batch (R271 steps 6 and 7). -/
def salvDone (i : Nat) (s : State) : State :=
  salvLeave i (put F.SPR_SALV_CNT_REBUILT 0 ((fld F.SPR_SALV_CNT_REBUILT 0 s + 1) % 2 ^ 32) s)

/-- A pass has ended OK. -/
def passEndOk (p : Pass) (s : State) : State :=
  match p.use with
  | .staging seq => stagingOk p seq s
  | .stripe o =>
    let s := passOk p s
    resumeOps (match sprOp s o with | some x => opEnd { x with gen := p.gen } 0 s | none => s)
  | .salv i => salvDone i (passOk p s)
  | .cruise => cruiseLeave (passOk p s)

/-- STRIPE_PASS_END (R128, R246, R248, R256, R261, R271): the oldest pass whose media operation has ended. A pass that failed is issued again
until its third failure; one that the fences now refuse ends ADDR. -/
def execStripePassEnd (s : State) : Answer :=
  match (Tab.vals s.spr.passes).find? (fun p => p.result.isSome) with
  | none => .next s
  | some p =>
    if p.result = some true then .next (startHeld (passEndOk p s))
    else
      let p := { p with fails := p.fails + 1, result := none, item := none }
      if p.fails < 3 then
        if passRefused s p then .next (startHeld (passFailed p 1 (passReport p s)))
        else .next (passIssue p (count F.SPR_ERR_REISSUE 0 s))
      else
        let s := match p.use with
          | .salv _ => s
          | _ => report 185 none 7 6 (memberPsa s p.zone p.k 0) 0 s
        .next (startHeld (passFailed p 3 s))

/-! ### Rebuild (R244, R245, R264) -/

/-- A rebuild that cannot be made is counted. -/
def countUnrec (s : State) : State := count F.SPR_ERR_UNREC 0 s

/-- The data body of role slot `j` of a stripe read, after rebuild. -/
def bodyOfSlot (s : State) (r : StripeRd) (j : Nat) : Option (List Byte) := (stripeData s r).bind (fun ds => ds[j]?)

/-- The PARITY step of a context has its stripe: the sector is delivered rebuilt, or the ladder goes on (R162, R168). -/
def ladderRebuild (c : Nat) (r : StripeRd) (s : State) : State :=
  match ctx s c with
  | none => s
  | some x =>
    match bodyOfSlot s r (roleOf s r.zone r.k (psaSurf x.key.psa)) with
    | none => ladderStep c (setCtx c { x with wait := .step } (countUnrec s))
    | some b =>
      let w := resultWord (if x.abort then 6 else 2) x.lstep x.reads x.iters 0 x.eng (x.last.getD 0) true x.lstat
      let g := stripeWgen s r ||| bodyFlags s (((sprOp s (x.it.req / 2)).map (·.nsid)).getD 0) b * 2 ^ 40
      let s := freeCtx c { s with dec := { s.dec with mse := x.mse } }
      if x.abort then sectorFinal x.it x.key.psa w 0 0 [] s
      else
        let s := put F.DEC_STEP_OK_COUNT x.lstep (min (2 ^ 32 - 1) (fld F.DEC_STEP_OK_COUNT x.lstep s + 1)) s
        deliver x.it x.key.psa w (b ++ bytesOf 8 g) s

/-- The header bytes of staging stripe `seq` carry the right MAGIC, VERSION, CHECK, COUNT and SEQ (R253). -/
def headerOk (seq : Nat) (h : List Byte) : Bool :=
  le h 0 4 == 0x4754534B && le h 4 2 == 1 && le h 0xFFC 4 == crc32c (h.take 0xFFC) && 1 ≤ le h 6 1 && le h 6 1 ≤ 32 && le h 8 8 == seq

/-- The status of a unit read from a staging slot: LOST where its copy carries FILL and full poison (R265, R267). -/
def slotSt (s : State) (r : StripeRd) (slot : Nat) (b : List Byte) : Nat :=
  match (goodMembers s r).find? (fun e => roleOf s r.zone r.k e.1 == slot) with
  | some e => if e.2.wgen.testBit 42 && le b 0x1040 8 == 2 ^ 64 - 1 then 3 else 0
  | none => 0

/-- A unit of a staging stripe (R253, R264): delivered, refused when the stripe is not valid for the SEQ, or unrecoverable when the header can
neither be read nor be rebuilt. -/
def stagedGive (o i slot seq : Nat) (r : StripeRd) (s : State) : State :=
  let lose := fun (s : State) => match sprOp s o with
    | none => s
    | some x => unitUnrec x i (countUnrec s)
  match (memBySlot s r 0).orElse (fun _ => bodyOfSlot s r 0) with
  | none => lose s
  | some h =>
    if 2 < erasures s r || !headerOk seq (h.take 4096) then unitEnd o i 5 s
    else match memBySlot s r slot, bodyOfSlot s r slot with
      | some b, _ => unitGive o i (slotSt s r slot b) b s
      | none, some b => unitGive o i (rebuiltSt b) b s
      | none, none => lose s

/-- STRIPE_REBUILD (R244, R245, R264, R265): the first read for a unit or a ladder whose members are all in. -/
def execStripeRebuild (s : State) : Answer :=
  match (Tab.vals s.spr.reads).find? (fun r => readDone r && (match r.use with | .ladder _ => true | .unit _ _ => true | .stg _ _ _ _ => true | _ => false)) with
  | none => .next s
  | some r =>
    let s := countStale r (dropRead r.id s)
    match r.use with
    | .ladder c => .next (ladderRebuild c r s)
    | .unit o i =>
      let s := noteLadder o r s
      match bodyOfSlot s r (roleOf s r.zone r.k (r.skip.getD 0)) with
      | some b => .next (unitGive o i (rebuiltSt b) b s)
      | none => .next (match sprOp s o with | none => s | some x => unitUnrec x i (countUnrec s))
    | .stg o i slot seq => .next (stagedGive o i slot seq r (noteLadder o r s))
    | _ => .next s

end Sys2Proof.Machine
end

