-- ==== Sys2Proof/Machine/OpsSched.lean ====
section
/-! DEFINITION. The scheduler's shared operations: which arm can serve an item and at what cost, the layers of a decision, reservations, and
the planning anew of items that no arm can serve (R376–R393, R398). Times are device times in ns. -/

namespace Sys2Proof.Machine

open Sys2Proof

/-- Predicted end of the item on arm `a`. -/
def itemEnd (s : State) (x : Item) (a : Nat) : Nat :=
  let r := arrive s x a
  r.1 + 1000 * fld F.GOV_SCH_MARGIN 0 s + (r.2.max?).getD 0 + x.count * revTime s / sptOf s x.zone

/-! ### Background minimums (R385, R386) -/

/-- Configured minimum of class `c`: 1 destage, 2 log write, 3 cruise, 4 salvage (R280). -/
def minCfg (s : State) (c : Nat) : Nat := match c with
  | 1 => fld F.GOV_BG_DESTAGE 0 s
  | 2 => fld F.GOV_BG_LOG 0 s
  | 3 => fld F.GOV_BG_CRUISE 0 s
  | _ => fld F.GOV_BG_SALVAGE 0 s

/-- The protected cache is filled to CACHE_HI %: the bytes of its units and of the images of in-place passes, in the protected region less its first
MiB (R248, log entry 31). -/
def cacheHigh (s : State) : Bool :=
  let n := sumOf (s.deck.cache.map (fun e => 4160 * e.count)) + 66688 * ((Tab.vals s.spr.passes).filter inPlace).length
  1 < fld F.LND_PROT_SIZE 0 s && min 100 (fld F.GOV_PRESS_CACHE_HI 0 s) * ((fld F.LND_PROT_SIZE 0 s - 1) * 1048576) ≤ 100 * n

/-- The destage boost holds. -/
def stgPress (s : State) : Bool :=
  stgTotal s < 2 * (stgHead s - stgTail s) || flag F.SPR_STG_STAT_AGE_WARN 0 s || flag F.GOV_PRESS_EARLY 0 s

/-- Minimum of class `c` in force (R386). -/
def minOf (s : State) (c : Nat) : Nat :=
  let b := min 128 (fld F.GOV_PRESS_BOOST 0 s)
  match cacheHigh s, stgPress s with
  | false, false => minCfg s c
  | true, true => if c = 1 || c = 2 then b / 2 else 0
  | true, false => if c = 2 then b - minCfg s 1 else if c = 1 then minCfg s 1 else 0
  | false, true => if c = 1 then b - minCfg s 2 else if c = 2 then minCfg s 2 else 0

/-- Arm time of class `c` in the last 100 ms, ns: of the items that have ended, and of those that run (R385). -/
def classTime (s : State) (c : Nat) : Nat :=
  let from' := s.time - 100000000
  let run := (List.range 4).filterMap (fun a => (Tab.get? s.sched.running a).bind (item s))
  sumOf ((s.sched.use.filter (fun e => e.2.2 == c)).map (fun e => e.2.1 - max e.1 from')) +
    sumOf ((run.filter (fun x => x.cls == c)).map (fun x => s.time - max x.t0 from'))

/-- Class `c` is below its minimum over the last 100 ms (R385). -/
def below (s : State) (c : Nat) : Bool := classTime s c * 256 < minOf s c * 400000000

/-! ### Reservations (R391–R393) -/

/-- Cost of the item on arm `a` (R392), its seek part apart. -/
def mwCost (s : State) (x : Item) (a : Nat) : Nat :=
  let l := x.mem.length
  if x.write then wrCost s a * l else 110 * l + 230 * (eOf s (lr s + l) - eOf s (lr s))

/-- Its seek part. -/
def mwSeek (s : State) (x : Item) (a : Nat) : Nat := if itemMove s x a = 0 then 0 else fld F.GOV_ARM_SEEK_MW a s

/-- The item is decided for arm `a` with its reservation (R382, R391, R393). -/
def decide' (x : Item) (a : Nat) (solo : Bool) (s : State) : State :=
  let y := { x with
    st := .decided a, held := mwCost s x a, seekHeld := mwSeek s x a, seekEnd := (arrive s x a).1, predEnd := itemEnd s x a, solo := solo }
  let s := setItem y { s with sched := { s.sched with decided := Tab.put s.sched.decided a x.id, urgHold := putBit s.sched.urgHold a false } }
  let s := if solo then put F.GOV_STAT_SOLO 0 1 (count F.GOV_ERR_SOLO 0 s) else s
  govLimits s

/-- The first of the items whose reservation succeeds is decided for arm `a` (R383); each that fails is counted. -/
def tryItems (a : Nat) : List Item → State → Bool × State
  | [], s => (false, s)
  | x :: t, s => match grant s (mwCost s x a + mwSeek s x a) x.urgent with
    | .yes => (true, decide' x a false s)
    | .solo => (true, decide' x a true s)
    | .no => tryItems a t (noFit s)

/-! ### The layers (R383, R384) -/

/-- What a class or function `p` offers to arm `a`, by rising cost (R383). -/
def offers (s : State) (a : Nat) (p : Item → Bool) : List Item :=
  sortBy (fun x => itemCost s x a) ((readySet s).filter (fun x =>
    p x && canServe s x a && !(x.urgent && x.bound.isSome && x.bound != some a) &&
      itemCost s x a ≤ leastCost s x + 1000 * fld F.GOV_SCH_SLACK 0 s))

/-- Weight of function `f`. -/
def weight (s : State) (f : Nat) : Nat := fld F.GOV_FN_WEIGHT f s

/-- Background classes in the order of layer 2. -/
def bgOrder : List Nat := [2, 1, 4, 3]

/-- A host item. -/
def hostOf (f : Nat) (x : Item) : Bool := x.cls == 0 && x.fn == f

/-- Groups of items in the order of layers 2 to 4, each with the function of weight 0 it belongs to, if any (R383, R384). -/
def layers (s : State) (a : Nat) : List ((Item → Bool) × Option Nat) :=
  let bg := fun (cs : List Nat) => cs.map (fun c => ((fun (x : Item) => x.cls == c), (none : Option Nat)))
  let fs := (List.range 64).filter (fun f => (readySet s).any (hostOf f))
  let hosts := sortBy (fun f => Tab.get s.sched.vtime 0 f) (fs.filter (fun f => 0 < weight s f))
  let idle := !(readySet s).any (fun x => x.cls == 0 && 0 < weight s x.fn && canServe s x a && !(x.urgent && x.bound.isSome && x.bound != some a))
  let zero := sortBy (fun f => (f + 63 - s.sched.rr) % 64) (fs.filter (fun f => weight s f == 0))
  bg (bgOrder.filter (below s)) ++ hosts.map (fun f => (hostOf f, none)) ++
    (if idle then zero.map (fun f => (hostOf f, some f)) ++ bg (bgOrder.filter (fun c => !below s c)) else [])

/-- Layers 2 to 4 tried in order. -/
def tryLayers (a : Nat) : List ((Item → Bool) × Option Nat) → State → State
  | [], s => s
  | g :: t, s =>
    let r := tryItems a (offers s a g.1) s
    if r.1 then (match g.2 with | some f => { r.2 with sched := { r.2.sched with rr := f } } | none => r.2) else tryLayers a t r.2

/-- A commit holds dispatch to arm `a` until its quiet point (R513 step 4). -/
def cfgHeld (s : State) (a : Nat) : Bool := s.cfg.stored && s.cfg.arms.contains a

/-- A decision for arm `a`: an urgent item that does not fit holds the arm (R383, R388). -/
def decideArm (a : Nat) (s : State) : State :=
  match urgentFor s a with
  | some x =>
    let r := tryItems a [x] s
    if r.1 then r.2 else { r.2 with sched := { r.2.sched with urgHold := putBit r.2.sched.urgHold a true } }
  | none => let s := { s with sched := { s.sched with urgHold := putBit s.sched.urgHold a false } }; tryLayers a (layers s a) s

/-! ### Items planned anew (R246, R264, R398) -/

/-- A sector of a read that no head can read any more: the ladder moves on, a unit is rebuilt, a member is an erasure (R264). -/
def replanSector (x : Item) (psa : Nat) (s : State) : State :=
  match x.retry with
  | some c => match ctx s c with
    | some y => ladderStep c (setCtx c { y with wait := .step } s)
    | none => s
  | none =>
    if x.req % 2 = 1 then match sread s (x.req / 2) with
      | none => s
      | some r => setRead { r with mem := Tab.put r.mem (psaSurf psa) (.erased 0) } s
    else match sprOp s (x.req / 2) with
      | none => s
      | some o => match o.units.find? (fun u => u.2 == psa) with
        | none => s
        | some u =>
          let s := setOp { o with units := o.units.filter (· != u) } s
          startRead (.unit o.id u.1) (psaZone psa) (stripeOfPsa s psa) (nsEnt s o.nsid).red (some (psaSurf psa)) (opWant o) s

/-- Sectors of an item's run on surface `f`, those it does not read among them. -/
def runOf (x : Item) (f : Nat) : Nat := (Tab.get? x.runs f).getD x.count

/-- The PSAs of an item's sectors on one surface (R376, R377). -/
def itemPsas (s : State) (x : Item) (m : Nat × Nat) : List Nat :=
  ((List.range (runOf x m.1)).map (fun i => psaWord m.1 x.zone x.track ((m.2 + i) % max 1 (sptOf s x.zone)))).filter (fun p => !x.holes.contains p)

/-- Surface `f` cannot be read at the item's track. -/
def unreadable (s : State) (x : Item) (f : Nat) : Bool := bit F.SPR_SURF_UNREACH_UNREACH 0 f s || rfenced s f x.track

/-- A read item some of whose surfaces cannot be read, or that no one arm could ever serve whole, is planned anew. -/
def replanRead (x : Item) (s : State) : State :=
  let gone := x.mem.filter (fun m => unreadable s x m.1)
  let rest := x.mem.filter (fun m => !unreadable s x m.1)
  let whole := (List.range 4).any (fun a => rest.all (fun m => eligible s (16 * a + m.1)))
  if gone.isEmpty && (whole || x.head.isSome || x.retry.isSome) then s
  else
    let s := dropItem x.id s
    let s := each (splitArms s (rest.map (·.1))) (fun g s => addItem { x with mem := rest.filter (fun m => g.contains m.1) } s) s
    each gone (fun m s => each (itemPsas s x m) (replanSector x) s) s

/-- A retry read on a head that is no longer eligible: its step is skipped (R164). -/
def replanRetry (x : Item) (s : State) : State :=
  match x.retry with
  | none => s
  | some _ =>
    let hs := (x.mem.flatMap (fun m => (List.range 4).map (fun a => 16 * a + m.1))).filter (fun h => !x.avoid.contains h)
    if (match x.head with | some h => eligible s h | none => hs.any (eligible s)) then s
    else each (x.mem.flatMap (itemPsas s x)) (replanSector x) (dropItem x.id s)

/-- A stripe pass some of whose members have become absent: it is refused, or issued without them (R246). -/
def replanPass (x : Item) (s : State) : State :=
  match (Tab.vals s.spr.passes).find? (fun p => p.item == some x.id) with
  | none => s
  | some p =>
    if !x.mem.any (fun m => absent s p.zone p.k m.1) then s
    else
      let s := dropItem x.id s
      if passRefused s p then passFailed { p with item := none } 1 (passReport p s) else passIssue { p with item := none } s

/-- Items in the ready set that no arm can serve any more are planned anew. -/
def replan (s : State) : State :=
  each (readySet s) (fun x s =>
    if s.geo.isNone then s
    else if x.write then replanPass x s
    else match item (replanRead x s) x.id with
      | none => replanRead x s
      | some y => replanRetry y (replanRead x s)) s

end Sys2Proof.Machine
end

