-- ==== Sys2Proof/Machine/Scheduler.lean ====
section
/-! DEFINITION. The commands of the scheduler and the governor (R376–R398). -/

namespace Sys2Proof.Machine

open Sys2Proof

/-! ### Decisions and dispatch (R382, R383, R398) -/

/-- DECISION_START (R381–R393, R398): items that no arm can serve are planned anew, urgent items are bound again, and arm `a` decides its
next item, unless dispatch is paused, the state is safe (R475) or it has one. -/
def execDecisionStart (arm' : Fin 4) (s : State) : Answer :=
  let a := arm'.val
  let s := freeHolds (rebind (replan s))
  .next (if flag F.DECK_CTL_PAUSE 0 s || safe s || (Tab.get? s.sched.decided a).isSome || s.geo.isNone then govLimits s else decideArm a s)

/-- The arm is sent to the item's track, unless it stands or moves there (R188). -/
def sendArm (a t : Nat) (s : State) : State :=
  if (arm s a).target = t then s
  else goTo a t (put F.SRV_TARGET_GO a 1 (put F.SRV_TARGET_REFUSED a 0 (put F.SRV_TARGET_TRACK a t s)))

/-- The item's operation starts on its heads: a read on each lane, or a write operation of the arm. -/
def startItem (a : Nat) (x : Item) (s : State) : State :=
  if x.write then writeStart a x s
  else each x.mem (fun m s =>
    let h := 16 * a + m.1
    let s := setHead h { head s h with opofs := x.opofs } s
    readOpStart h ⟨psaWord m.1 x.zone x.track m.2, runOf x m.1, x.zone, x.id, x.retry, none, false, false, false⟩ s) s

/-- A media retry is counted once, as it is dispatched (R158, R163, R437, R438). -/
def countRetry (x : Item) (s : State) : State := if !x.media then s else if x.cls = 0 then tally x.fn 9 1 s else tallyDev 18 1 s

/-- Sectors of an item whose PSA is refused end with an addressing error, recorded in FC1; each head of a write gives the result ADDR with no sector
written, its GEN open since the operation took none (R19, R28, R142, R143). -/
def refuseItem (a : Nat) (x : Item) (s : State) : State :=
  let p := (x.mem.flatMap (itemPsas s x)).headD 0
  let s := if x.write then each x.mem (fun m s => wr R.WP_RES (16 * a + m.1) 0
      (8 * 2 ^ 56 + m.2 % 4096 * 2 ^ 44 + (Config.openVal 142 [(x.id : Int)] % 2 ^ 32).toNat) s) s else s
  let s := report 184 none 7 (if x.write then 6 else 5) p 0 (dropItem x.id s)
  if x.write then match (Tab.vals s.spr.passes).find? (fun q => q.item == some x.id) with
    | some q => passFailed { q with item := none } 1 s
    | none => s
  else each (x.mem.flatMap (itemPsas s x)) (fun p s => sectorRefuse (readRefuse 2) x.req p
      (match x.retry with | some c => freeCtx c s | none => s)) s

/-- ITEM_DISPATCH (R19, R28, R37, R47, R83, R120, R129, R134, R382, R398, R513): the decided item of an arm that is free and not held for a commit is
dispatched. One that the arm can no longer serve returns to the ready set, and one on a surface or region fenced since is planned anew. -/
def execItemDispatch (arm' : Fin 4) (s : State) : Answer :=
  let a := arm'.val
  match (Tab.get? s.sched.decided a).bind (item s) with
  | none => .next s
  | some x =>
    if flag F.DECK_CTL_PAUSE 0 s || safe s || cfgHeld s a || (Tab.get? s.sched.running a).isSome then .next s
    else if !serves s x a || (x.write && (wop s a).isSome) then .next (govLimits (undecide a s))
    else if x.mem.any (fun m => unreadable s x m.1) then .next (govLimits (if x.write then replanPass x (undecide a s) else replanRead x (undecide a s)))
    else
      let s := { s with sched := { s.sched with decided := Tab.erase s.sched.decided a } }
      if !(x.mem.flatMap (itemPsas s x)).all (psaOk s) then .next (govLimits (refuseItem a x s))
      else
        let s := setItem { x with st := .running a, t0 := s.time, media := false } { s with sched := { s.sched with running := Tab.put s.sched.running a x.id } }
        .next (startItem a { x with st := .running a, media := false } (sendArm a x.track (countRetry x s)))

/-- The item's operation still runs on arm `a`. -/
def itemBusy (s : State) (x : Item) (a : Nat) : Bool :=
  if x.write then (match wop s a with | some o => o.item == x.id | none => false)
  else (armHeads a).any (fun n => match (lane s n).op with | some o => o.owner == x.id | none => false)

/-- Arm time of an item that has ended, by function, class and arm (R384, R385, R437, R438). -/
def armTime (a : Nat) (x : Item) (s : State) : State :=
  let us := (s.time - x.t0) / 1000
  if x.cls = 0 then
    let w := weight s x.fn
    let s := if w = 0 then s else { s with sched := { s.sched with
      vtime := Tab.set s.sched.vtime 0 x.fn ((Tab.get s.sched.vtime 0 x.fn + us * 256 / w) % 2 ^ 64) } }
    tallyDev (10 + a) us (tally x.fn 8 us s)
  else
    let l := s.sched.use.filter (fun e => s.time < e.2.1 + 100000000)
    tallyDev (14 + a) us { s with sched := { s.sched with use := (x.t0, s.time, x.cls) :: l } }

/-- ITEM_END (R47, R384, R388, R391, R393, R395): the item on an arm whose operation has ended leaves it; its reservation is held until its lanes and
engines leave their charged states. A change of personality that waited for the head goes on. -/
def execItemEnd (arm' : Fin 4) (s : State) : Answer :=
  let a := arm'.val
  match (Tab.get? s.sched.running a).bind (item s) with
  | none => .next s
  | some x =>
    if itemBusy s x a then .next s
    else
      let hs := x.mem.map (fun m => 16 * a + m.1)
      let l := s.sched.lastWr.filter (fun h => !hs.contains h)
      let s := { s with sched := { s.sched with running := Tab.erase s.sched.running a, lastWr := if x.write then l ++ hs else l } }
      let s := each hs (fun h s => setHead h { head s h with opofs := 0 } s) s
      let late : LateRes := ⟨hs, x.write, x.held, if x.cls = 0 then x.fn else 64 + (x.cls - 1)⟩
      let s := { s with sched := { s.sched with late := s.sched.late ++ [late] } }
      .next (wantSend a (govLimits (dropItem x.id (armTime a x s))))

/-- The recovery context whose retry read an item is carries the urgent mark with it (R161). -/
def urgentCtx (x : Item) (s : State) : State := match x.retry.bind (fun c => (ctx s c).map (fun y => (c, y))) with
  | some (c, y) => setCtx c { y with it := { y.it with urgent := true } } s
  | none => s

/-- ITEM_URGENT (R161, R379, R387): the oldest item of the ready set that is not urgent yet reaches the urgency age. -/
def execItemUrgent (s : State) : Answer :=
  match (sortBy (·.origin) ((readySet s).filter (fun x => !x.urgent))).head? with
  | none => .next s
  | some x =>
    if s.time < x.origin + 1000000 * max 100 (fld F.GOV_AGE_URGENT_MS 0 s) then .next s
    else .next (urgentCtx x (bindItem x (count F.GOV_ERR_URGENT 0 s)))

/-! ### The governor (R390–R397) -/

/-- Mean of a list of samples, its rounding left open. -/
def meanOf (l : List Int) : Int := openRound 390 (l.foldl (· + ·) 0) (max 1 l.length)

/-- Energy of `mw` over one tick of 10 µs for a tally destination, nJ (R397). -/
def energy (dst : Nat) (mw : Int) (s : State) : State :=
  { s with sched := { s.sched with rem := Tab.set s.sched.rem 0 dst (Tab.get s.sched.rem 0 dst + 10 * mw.toNat) } }

/-- Power that an item's reservation stands for: its nominal cost, a host write's writers as measured (R397, log entry 33). -/
def itemMw (s : State) (x : Item) : Int :=
  let seek : Int := if s.time < x.seekEnd then x.seekHeld else 0
  match x.st with
  | .running a =>
    if x.write && x.cls = 0 then 60 * (x.mem.length : Int) + max 0 (monMw s 4 - Tab.get s.sched.wrBase 0 a) + seek else x.held + seek
  | _ => x.held + seek

/-- Tally destination of the recovery reservations held, oldest jobs first: the function of a host read, or the class of another. -/
def drDsts (s : State) : List Nat :=
  (((Tab.vals s.dec.ctxs).filter (fun c => match c.wait with | .job _ => true | _ => false)).take s.sched.drRes).map
    (fun c => if c.it.cls = 0 then c.it.fn else 64 + (c.it.cls - 1))

/-- The energy of a tick (R397, R443): items, also those that have ended and are still charged, and recovery jobs to their functions or classes, then
charges, link, floor, guard, measured power and motor. -/
def tickEnergy (total : Int) (s : State) : State :=
  let off := s.cpr.aonSleep || flag F.CPR_PD_STAT_FAB_RET 0 s
  let its := if off then [] else heldItems s
  let s := each its (fun x s => energy (if x.cls = 0 then x.fn else 64 + (x.cls - 1)) (itemMw s x) s) s
  let s := if off then s else each s.sched.late (fun r s => energy r.dst r.mw s) (each (drDsts s) (fun d s => energy d 300 s) s)
  let lk : Nat := if linkCharged s then 1100 else 0
  let rest : Int := (heldMw s : Int) - sumOf (its.map (resNow s)) - sumOf (s.sched.late.map (·.mw)) - 300 * ((drDsts s).length : Int) - lk
  let s := if off then s else energy 68 rest s
  energy 73 (fld F.SPM_PWR_MOTOR 0 s) (energy 72 total (energy 71 guardMw (energy 70 (fld F.GOV_POWER_FLOOR_MW 0 s) (energy 69 lk s))))

/-- GOV_TICK (R389, R390, R395–R397): the monitors are read; the floor is the mean of the remainder over the last millisecond and the measured
power that of the total (log entry 34); a mean above B_eff starts an over-budget episode. -/
def execGovTick (s : State) : Answer :=
  let total := boardMw s + motorMw s
  let s := { s with sched := { s.sched with samples := ((total, boardMw s - heldMw s) :: s.sched.samples).take 100 } }
  let avg := meanOf (s.sched.samples.map (·.1))
  let floor := max 0 (meanOf (s.sched.samples.map (·.2))) + motorMw s
  let s := put F.GOV_MEAS_TOTAL_MW 0 (min 65535 avg.toNat) (put F.GOV_POWER_FLOOR_MW 0 (min 65535 floor.toNat) s)
  let s := tickEnergy total s
  let s := if (fld F.GOV_STAT_EFF_MW 0 s : Int) < avg && !flag F.GOV_STAT_OVER 0 s then
      report 200 none 0 0 0 0 (raiseEvent 83 (count F.GOV_ERR_OVER 0 (put F.GOV_STAT_OVER 0 1 s)))
    else s
  let calm := decide (avg ≤ (fld F.GOV_STAT_EFF_MW 0 s : Int) - guardMw)
  .next (govLimits { s with sched := { s.sched with under := if calm then min 100 (s.sched.under + 1) else 0 } })

/-- GOV_OVER_CLEAR (R396): the average has been at or below B_eff − GUARD for 1 ms. -/
def execGovOverClear (s : State) : Answer :=
  .next (if 100 ≤ s.sched.under then put F.GOV_STAT_OVER 0 0 s else s)

/-- MAX_MW and HOST_MW as they act (R394, R399). -/
def maxMw (s : State) : Nat := max 4000 (min 15800 (fld F.GOV_BUDGET_MAX_MW 0 s))
def hostMw (s : State) : Nat := fld F.GOV_BUDGET_HOST_MW 0 s

/-- A temperature term of R394: MAX_MW less SLOPE × 10 for each degree above KNEE, its rounding left open; `t` in 1/16 °C. -/
def derate (s : State) (slope knee : Nat) (t : Int) : Int :=
  openRound 394 ((maxMw s : Int) * 16 - slope * 10 * max 0 (t - 16 * knee)) 16

/-- The hottest on-die sensor, 1/16 °C (R491). -/
def tDie (s : State) : Int := (((List.range 8).map (fun k => sext 16 (fld F.MGT_TEMP_TEMP k s))).max?).getD 0

/-- The hottest thermistor input in T_enc, if any (R491). -/
def tEnc (s : State) : Option Int :=
  (((List.range 4).filter (fun n => flag F.MGT_THM_EN n s && fld F.MGT_THM_TEMP n s != 0x8000)).map (fun n => sext 16 (fld F.MGT_THM_TEMP n s))).max?

/-- B_eff from the limits and the temperatures of the last update (R394, R399). -/
def beffNow (s : State) : State :=
  let bd := derate s (fld F.GOV_DERATE_DIE_SLOPE 0 s) (fld F.GOV_DERATE_DIE_KNEE 0 s) (sext 16 (fld F.GOV_TEMP_DIE 0 s))
  let be := derate s (fld F.GOV_DERATE_ENC_SLOPE 0 s) (fld F.GOV_DERATE_ENC_KNEE 0 s) (sext 16 (fld F.GOV_TEMP_ENC 0 s))
  let top : Int := min (hostMw s) (maxMw s)
  let eff := max 4000 (min top (min bd be))
  govLimits (put F.GOV_STAT_EFF_MW 0 eff.toNat (put F.GOV_STAT_DERATED 0 (decide (min bd be < top)).toNat s))

/-- GOV_DERATE_UPDATE (R394, R395): the temperatures are taken; with no input in T_enc it reads 0 and derates nothing. -/
def execGovDerateUpdate (s : State) : Answer :=
  .next (beffNow (put F.GOV_TEMP_DIE 0 (lowBits 16 (tDie s)) (put F.GOV_TEMP_ENC 0 (lowBits 16 ((tEnc s).getD 0)) s)))

/-- GOV_BG_WRITE (R385): ignored with CFG_ERR when the minimums would exceed 128. -/
def execGovBgWrite (w : BusW) (s : State) : Answer :=
  let t := busWrite R.GOV_BG 0 0 w s
  .next (if 128 < minCfg t 1 + minCfg t 2 + minCfg t 3 + minCfg t 4 then put F.GOV_STAT_CFG_ERR 0 1 s else t)

end Sys2Proof.Machine
end

