-- ==== Sys2Proof/Machine/Landing.lean ====
section
/-! DEFINITION. Commands of the landing: training, fill, scrub, row remap, reads and writes, fences and atomic accesses (R405–R425). -/

namespace Sys2Proof.Machine

open Sys2Proof

/-! ### Reads and writes (R406, R411, R412, R417–R420) -/

/-- The parts of `n` bytes from `a` by 64-byte line: address and bytes. -/
def lineParts (a n : Nat) : List (Nat × Nat) :=
  (granulesOf a n).map (fun l => (max a (64 * l), min (a + n) (64 * l + 64) - max a (64 * l)))

/-- Stores of core `c` to what it caches, line by line. -/
def cpStore (c a : Nat) (bs : List Byte) (ecc : List Ecc) (s : State) : State :=
  each (lineParts a bs.length).zipIdx (fun p s => l1Store c p.1.1 ((bs.drop (p.1.1 - a)).take p.1.2) ((ecc[p.2]?).getD .ok) s) s

/-- Loads of core `c`, line by line: none when one of them fails. -/
def cpLoad (c : Nat) : List (Nat × Nat) → List Ecc → State → Option (List Byte) × State
  | [], _, s => (some [], s)
  | p :: t, es, s =>
    let r := l1Load c p.1 p.2 (es.headD .ok) s
    let q := cpLoad c t es.tail r.2
    (match r.1, q.1 with
      | some a, some b => some (a ++ b)
      | _, _ => none, q.2)

/-- Core `c` holds every line of the bytes: the access needs no landing. -/
def l1Holds (s : State) (c a n : Nat) : Bool := (granulesOf a n).all (fun l => (l1Line s c l).isSome)

/-- A held access of core `c` keeps its later ones behind it. -/
def coreHeld (s : State) (c : Fin 4) : Bool := s.lnd.held.any (fun x => match x with
  | .store _ _ _ _ _ => false
  | .write m _ _ _ _ _ => m == .cp c
  | .read m _ _ _ _ => m == .cp c
  | .amo d _ _ _ _ _ => d == c
  | .fence d _ _ _ => d == c
  | .fenceRd d _ _ => d == c)

/-- Writing back the lines that core `c` evicts needs a part of the landing that is held. -/
def evictBusy (s : State) (c : Nat) (ls : List Nat) : Bool :=
  ls.any (fun l => (l1Line s c l).any (·.dirty) && landBase ≤ 64 * l && landBusy s (64 * l) 64)

/-- A write of `bs` at `addr`: a store of a control core stays in its L1-D, and the core then evicts the lines `evict`, of the landing or of shared
SRAM; the Lyolo core gives an address of its own map; the yarder stands for every master at the point of coherence, and alone carries poison (R406,
R412, R417, R420, R485). -/
def accWrite (m : Master) (addr : Nat) (bs : List Byte) (poison : Bool) (evict : List Nat) (ecc : List Ecc) (s : State) : State :=
  let x : LndAcc := .write m addr bs poison evict ecc
  match m with
  | .cp c =>
    if addr < landBase then s
    else if coreHeld s c || (landBusy s addr bs.length && (!l1Holds s c.val addr bs.length || (granulesOf addr bs.length).any evict.contains)) ||
        evictBusy s c.val evict then hold x s
    else relocSeen s (l1Evict c.val evict (cpStore c.val addr bs ecc s))
  | .lyolo => match lyoAddr s addr with
    | none => if lyoOwn addr then s else busError 5 2 addr s
    | some a =>
      if a < landBase then s
      else if landBusy s a bs.length then hold x s
      else if landOk s a bs.length then landPut a bs false ecc s else busError 5 2 a s
  | .yarder =>
    if addr < landBase then s
    else if landBusy s addr bs.length then hold x s
    else if landOk s addr bs.length then landPut addr bs poison ecc s else busError 6 2 addr s
  | .host _ => s

/-- A read of `n` bytes at `addr`; a control core then evicts the lines `evict` (R406, R411, R419, R420, R485). -/
def accRead (m : Master) (addr n : Nat) (evict : List Nat) (ecc : List Ecc) (s : State) : State :=
  let x : LndAcc := .read m addr n evict ecc
  match m with
  | .cp c =>
    if addr < landBase then s
    else if coreHeld s c || (landBusy s addr n && !l1Holds s c.val addr n) || evictBusy s c.val evict then hold x s
    else match cpLoad c.val (lineParts addr n) ecc s with
      | (some bs, t) => relocSeen s (l1Evict c.val evict (emit (.data addr (clean bs)) t))
      | (none, t) => relocSeen s (l1Evict c.val evict t)
  | .lyolo => match lyoAddr s addr with
    | none => if lyoOwn addr then s else busError 5 1 addr s
    | some a =>
      if a < landBase then s
      else if landBusy s a n then hold x s
      else if !landOk s a n then busError 5 1 a s
      else match eccReads 5 (granulesOf a n) ecc s with
        | (true, s) => s
        | (false, s) => emit (.data addr (clean (landRead s a n))) s
  | .yarder =>
    if addr < landBase then s
    else if landBusy s addr n then hold x s
    else if !landOk s addr n then busError 6 1 addr s
    else
      let s := (eccReads 6 (granulesOf addr n) ecc s).2
      emit (.data addr (landMarks s addr n)) s
  | .host _ => s

/-! ### Fences (R421–R423) -/

/-- What operation `op` does with the lines it names: CLEAN, INVAL, CLEAN_INVAL and DRAIN, the last flushing the merge buffer (R418, R421). -/
def fenceDo (op c : Nat) (l : List Nat) (ecc : List Ecc) (s : State) : State :=
  if op = 1 || op = 5 then relocSeen s (each l (l1Clean c) s)
  else if op = 2 then each l (l1Drop c) s
  else if op = 3 || op = 6 then relocSeen s (each l (fun x s => l1Drop c x (l1Clean c x s)) s)
  else if op = 4 then drain ecc s
  else s

/-- Operation `op` on lines of core `c`; it waits behind accesses of the core that the landing holds, and for the landing where it must write there
(R408). -/
def accFence (c : Fin 4) (op : Nat) (l : List Nat) (ecc : List Ecc) (s : State) : State :=
  let dirty := l.filter (fun x => (l1Line s c.val x).any (·.dirty) && landBase ≤ 64 * x)
  let waits := coreHeld s c || (op != 2 && dirty.any (fun x => landBusy s (64 * x) 64)) || (op == 4 && s.lnd.mrg.any (fun e => landBusy s (64 * e.g) 64))
  if waits then hold (.fence c op l ecc) s else fenceDo op c.val l ecc s

/-- Core `c` has an operation of its fence register that is not complete. -/
def fenceBusy (s : State) (c : Fin 4) : Bool := s.lnd.held.any (fun x => match x with
  | .fence d _ _ _ => d == c
  | _ => false)

/-- A read of LND_FFENCE_c at `addr` returns BUSY = 0 once the operation last written has completed (R421, R422). -/
def fenceRead (c : Fin 4) (addr n : Nat) (s : State) : State :=
  if coreHeld s c && fenceBusy s c then hold (.fenceRd c addr n) s
  else emit (.value addr (rd R.LND_FFENCE c.val 0 s / 256 ^ (addr - R.LND_FFENCE.addr c.val 0) % 256 ^ n)) s

/-- A write of operation `op` by core c itself to its fence register; one from another master is ignored. -/
def fence (op : Nat) (c : Fin 4) (m : Master) (w : BusW) (all : Bool) (ecc : List Ecc) (s : State) : State :=
  if m ≠ .cp c then s
  else
    let s := put F.LND_FFENCE_OP c.val op (busWrite R.LND_FFENCE c.val 0 w s)
    accFence c op (if all then l1Lines s c.val else fenceLines s c.val) ecc s

/-! ### Atomic accesses (R425) -/

/-- What an AMO stores, from the old value and the operand, both `b` bits. -/
def amoNew (op : AmoOp) (b old x : Nat) : Nat :=
  let so := sext b old
  let sx := sext b x
  let x := x % 2 ^ b
  match op with
  | .lr => old
  | .sc => x
  | .swap => x
  | .add => (old + x) % 2 ^ b
  | .xor => old ^^^ x
  | .and => old &&& x
  | .or => old ||| x
  | .min => if so ≤ sx then old else x
  | .max => if sx ≤ so then old else x
  | .minu => min old x
  | .maxu => max old x

/-- Core `c` holds a reservation on line `l`. -/
def reserved (s : State) (c l : Nat) : Bool := Tab.get? s.lnd.resv c == some l

/-- The access itself at the point of coherence: the old value of `k` bytes is returned and the new one stored; LR takes a reservation, SC
stores only under one and returns 0 when it does, else 1; SC ends the core's reservation. -/
def amoDo (c : Nat) (op : AmoOp) (a k x : Nat) (s : State) : State :=
  let old := if inSram a k then sramNat s a k else natOf (landRead s a k)
  let store := fun (v : Nat) (s : State) => if inSram a k then relocSeen s (sramWrite a (bytesOf k v) s) else landPut a (bytesOf k v) false [] s
  let noResv := fun (s : State) => { s with lnd := { s.lnd with resv := Tab.erase s.lnd.resv c } }
  let out := fun (v : Nat) (s : State) => emit (.value a v) s
  match op with
  | .lr => out (lowBits 64 (sext (8 * k) old)) { s with lnd := { s.lnd with resv := Tab.put s.lnd.resv c (a / 64) } }
  | .sc => if reserved s c (a / 64) then out 0 (noResv (store x s)) else out 1 (noResv s)
  | _ => out (lowBits 64 (sext (8 * k) old)) (store (amoNew op (8 * k) old x) s)

/-- An atomic access: the line is cleaned and invalidated in the core's own L1-D, then accessed at the point of coherence. A misaligned access is the
core's own exception; one outside shared SRAM and the landing meets the bus error of R10. -/
def accAmo (c' : Fin 4) (op : AmoOp) (addr : Nat) (dbl : Bool) (x : BitVec 64) (e : Ecc) (s : State) : State :=
  let c := c'.val
  let k := if dbl then 8 else 4
  let l := addr / 64
  if addr % k ≠ 0 then s
  else if coreHeld s c' || (landBase ≤ addr && landBusy s addr k) then hold (.amo c' op addr dbl x e) s
  else
    let s := if cached addr then l1Drop c l (l1Clean c l s) else s
    if inSram addr k then amoDo c op addr k x.toNat s
    else if !landOk s addr k then busError (1 + c) 4 addr s
    else match eccRead (1 + c) l e s with
      | (true, s) => s
      | (false, s) => amoDo c op addr k x.toNat s

/-! ### What waited (R408, R414, R415) -/

/-- The class of a held access (R415): 0 media, 1 transfer, 2 processor. -/
def accClass (x : LndAcc) : Nat := match x with
  | .store _ _ _ _ _ => 0
  | .write m _ _ _ _ _ => if m == .yarder then 1 else 2
  | .read m _ _ _ _ => if m == .yarder then 1 else 2
  | _ => 2

/-- Granules of the landing that a held access names; a fence and the read behind it keep every other access of their core in order only. -/
def accGranules (s : State) (x : LndAcc) : List Nat := match x with
  | .store _ a bs _ _ => granulesOf a bs.length
  | .write m a bs _ _ _ => granulesOf (if m == .lyolo then (lyoAddr s a).getD a else a) bs.length
  | .read m a n _ _ => granulesOf (if m == .lyolo then (lyoAddr s a).getD a else a) n
  | .amo _ _ a _ _ _ => [a / 64]
  | .fence _ _ l _ => l
  | .fenceRd _ _ _ => []

/-- Two held accesses stay in the order in which they arrived: they name one granule (R419), or are of one class. -/
def accTied (s : State) (x y : LndAcc) : Bool := accClass x == accClass y || (accGranules s x).any (accGranules s y).contains

/-- The held accesses that no earlier one keeps behind it, with those before each. -/
def accFree (s : State) : List LndAcc → List LndAcc → List LndAcc
  | _, [] => []
  | before, x :: t => if before.any (accTied s x) then accFree s (before ++ [x]) t else x :: accFree s (before ++ [x]) t

/-- The access that grant `k` goes to: strict priority by class, but the 16th of every 16 grants to a processor that waits (R415). -/
def accNext (s : State) (k : Nat) (l : List LndAcc) : Option LndAcc :=
  let c := accFree s [] l
  let proc := c.find? (fun x => accClass x == 2)
  if k % 16 = 15 && proc.isSome then proc else (sortBy accClass c).head?

/-- A held access is made. -/
def accRun (x : LndAcc) (s : State) : State := match x with
  | .store m a bs marks mask => hwWrite m a bs marks mask s
  | .write m a bs p ev ecc => accWrite m a bs p ev ecc s
  | .read m a n ev ecc => accRead m a n ev ecc s
  | .amo c op a d v e => accAmo c op a d v e s
  | .fence c op l ecc => accFence c op l ecc s
  | .fenceRd c a n => fenceRead c a n s

/-- Held accesses are served grant by grant; one that the landing still holds stays. -/
def heldGo : Nat → Nat → List LndAcc → State → State
  | 0, _, _, s => s
  | n + 1, k, l, s => match accNext s k l with
    | none => s
    | some x => heldGo n (k + 1) (l.erase x) (accRun x s)

/-- The accesses that the landing holds are served, and then what the deck could not read goes on (R408, R414, R415). -/
def heldRun (s : State) : State :=
  let s := heldGo s.lnd.held.length 0 s.lnd.held { s with lnd := { s.lnd with held := [] } }
  each (Tab.vals s.deck.cmds) (fun x s => if writeClass x then (if x.due then writeCommit x.slot s else s) else readFinish x.slot s) s

/-! ### Accesses by command -/

/-- LANDING_WRITE (R406, R412, R417, R420, R485). -/
def execLandingWrite (m : Master) (addr : Nat) (bs : List Byte) (poison : Bool) (evict : List Nat) (ecc : List Ecc) (s : State) : Answer :=
  .next (accWrite m addr bs poison evict ecc s)

/-- LANDING_READ (R406, R411, R419, R420, R485). -/
def execLandingRead (m : Master) (addr n : Nat) (evict : List Nat) (ecc : List Ecc) (s : State) : Answer := .next (accRead m addr n evict ecc s)

/-- AMO_ACCESS (R425). -/
def execAmoAccess (c : Fin 4) (op : AmoOp) (addr : Nat) (dbl : Bool) (x : BitVec 64) (e : Ecc) (s : State) : Answer :=
  .next (accAmo c op addr dbl x e s)

/-- MERGE_EVICT_AGE (R418): the oldest entry, once held for AGE µs, is evicted; `ecc` is how its granule reads where the entry is partial. -/
def execMergeEvictAge (ecc : Ecc) (s : State) : Answer := .next (match s.lnd.mrg with
  | [] => s
  | e :: _ =>
    if s.time < e.t + 1000 * fld1 F.LND_MRG_AGE 0 s || landBusy s (64 * e.g) 64 then s else evictEcc ecc e s)

/-- FFENCE_CLEAN (R421, R422). -/
def execFfenceClean (c : Fin 4) (m : Master) (w : BusW) (s : State) : Answer := .next (fence 1 c m w false [] s)

/-- FFENCE_INVAL (R421, R423): dirty data in the lines is lost. -/
def execFfenceInval (c : Fin 4) (m : Master) (w : BusW) (s : State) : Answer := .next (fence 2 c m w false [] s)

/-- FFENCE_CLEAN_INVAL (R421). -/
def execFfenceCleanInval (c : Fin 4) (m : Master) (w : BusW) (s : State) : Answer := .next (fence 3 c m w false [] s)

/-- FFENCE_DRAIN (R418, R421): every earlier write has reached its point of coherence, and the merge buffer is flushed; `ecc` are
the outcomes of the old granules of its partial entries. -/
def execFfenceDrain (c : Fin 4) (m : Master) (w : BusW) (ecc : List Ecc) (s : State) : Answer := .next (fence 4 c m w false ecc s)

/-- FFENCE_CLEAN_ALL (R421). -/
def execFfenceCleanAll (c : Fin 4) (m : Master) (w : BusW) (s : State) : Answer := .next (fence 5 c m w true [] s)

/-- FFENCE_CLEAN_INVAL_ALL (R421). -/
def execFfenceCleanInvalAll (c : Fin 4) (m : Master) (w : BusW) (s : State) : Answer := .next (fence 6 c m w true [] s)

/-! ### Bring-up, fill, scrub and remap (R407–R414) -/

/-- LND_TRAIN_START (R407): LND_CTL.START from OFF or FAILED with the DRAM domain up. -/
def execLndTrainStart (w : BusW) (s : State) : Answer :=
  let s := busWrite R.LND_CTL 0 0 w s
  let st := fld F.LND_STAT_STATE 0 s
  .next (if wrote1 0 w && (st = 0 || st = 4) && s.cpr.stage != 0 then put F.LND_CTL_START 0 1 (put F.LND_STAT_STATE 0 1 s) else s)

/-- LND_TRAIN_DONE (R407): READY, or FAILED with the failing channel and step, recorded by checker 56. -/
def execLndTrainDone (ok : Bool) (chFail : BitVec 2) (step : BitVec 4) (s : State) : Answer :=
  if fld F.LND_STAT_STATE 0 s ≠ 1 then .next s
  else
    let s := put F.LND_CTL_START 0 0 s
    .next (if ok then raiseEvent 132 (put F.LND_STAT_STEP 0 0 (put F.LND_STAT_CH_FAIL 0 0 (put F.LND_STAT_STATE 0 2 s)))
      else
        let s := put F.LND_STAT_STEP 0 step.toNat (put F.LND_STAT_CH_FAIL 0 chFail.toNat (put F.LND_STAT_STATE 0 4 s))
        report 56 none 0 0 0 0 (raiseEvent 132 s))

/-- LND_FILL_GO (R409): while the fill runs the contents of its range are undefined. -/
def execLndFillGo (w : BusW) (s : State) : Answer :=
  let run := flag F.LND_FILL_CTL_GO 0 s
  let s := busWrite R.LND_FILL_CTL 0 0 w s
  let g := fld F.LND_FILL_BASE_VALUE 0 s
  let n := fld F.LND_FILL_LEN_VALUE 0 s
  .next (if wrote1 31 w && !run then
      { (rowsLost g n (put F.LND_FILL_CTL_GO 0 1 s)) with lnd := { (rowsLost g n (put F.LND_FILL_CTL_GO 0 1 s)).lnd with fill := some (g, n) } }
    else s)

/-- LND_FILL_DONE (R409): the granules of the range in the data area are zero and clean, but for those that another master wrote meanwhile, which stay
undefined; a range that leaves the data area meets the bus error of R406. -/
def execLndFillDone (s : State) : Answer :=
  let a := 64 * (s.lnd.fill.getD (0, 0)).1
  let n := (s.lnd.fill.getD (0, 0)).2
  if !flag F.LND_FILL_CTL_GO 0 s || landBusy s a (64 * n) then .next s
  else
    let zero : Granule := ⟨List.replicate 64 0, false⟩
    let hit := fun (s : State) (g : Nat) => (Tab.get? s.land g).isSome || s.lnd.mrg.any (fun e => e.g == g)
    let s := upTo n (fun i s =>
      let g := a / 64 + i
      if !landOk s (64 * g) 64 then s else if hit s g then rowsLost g 1 s else putGranule g zero s) { s with lnd := { s.lnd with fill := none } }
    let s := if n = 0 || (landOk s a (64 * n)) then s else busError 15 2 a s
    .next (raiseEvent 134 (put F.LND_FILL_CTL_DONE 0 1 (put F.LND_FILL_CTL_GO 0 0 s)))

/-- LND_SCRUB_STEP (R413): the next granule of the range is read; a pass begins HOURS after the one before. -/
def execLndScrubStep (e : Ecc) (s : State) : Answer :=
  let lo := fld F.LND_SCRUB_RNG_FIRST 0 s * 2 ^ 14
  let hi := (fld F.LND_SCRUB_RNG_LAST 0 s + 1) * 2 ^ 14
  let first := s.lnd.scrub < lo || hi ≤ s.lnd.scrub
  let early := first && s.lnd.scrubAt.any (fun t => s.time < t + fld1 F.LND_SCRUB_CTL_HOURS 0 s * 3600000000000)
  let g := if first then lo else s.lnd.scrub
  if !flag F.LND_SCRUB_CTL_EN 0 s || hi ≤ lo || early || landBusy s (64 * g) 64 then .next s
  else
    let s := { s with lnd := { s.lnd with scrub := g + 1, scrubAt := if first then some s.time else s.lnd.scrubAt } }
    .next (if landOk s (64 * g) 64 then (eccRead 15 g e s).2 else busError 15 1 (64 * g) s)

/-- A write to LND_RMAP_k; ADDR keeps its value while VALID or COPY is 1 (R414). -/
def rmapWrite (k : Nat) (w : BusW) (s : State) : State :=
  let a := fld F.LND_RMAP_ADDR k s
  let t := busWrite R.LND_RMAP k 0 w s
  if flag F.LND_RMAP_VALID k s || flag F.LND_RMAP_COPY k s then put F.LND_RMAP_ADDR k a t else t

/-- LND_RMAP_COPY (R414). -/
def execLndRmapCopy (k : Fin 32) (w : BusW) (s : State) : Answer :=
  let s := rmapWrite k.val w s
  .next (if wrote1 62 w then put F.LND_RMAP_COPY k.val 1 s else s)

/-- Two valid entries name block `b`, or no longer do (R414). -/
def rmapDup (b : Nat) (on : Bool) (s : State) : State :=
  { s with lnd := { s.lnd with dup := (s.lnd.dup.filter (· != b)) ++ (if on then [b] else []) } }

/-- A granule as a copy leaves it in the spare block; its merge buffer entry stays. -/
def stamp (g : Nat) (x : Granule) (s : State) : State :=
  { s with land := Tab.put s.land g x, lnd := { s.lnd with bad := s.lnd.bad.filter (· != g) } }

/-- LND_RMAP_COPY_DONE (R414): the block's contents stand in the spare block; uncorrectable granules are recorded and stored poisoned. A block
that another valid entry names has undefined contents. -/
def execLndRmapCopyDone (k : Fin 32) (ecc : List Ecc) (s : State) : Answer :=
  let k := k.val
  if !flag F.LND_RMAP_COPY k s || landHeld s then .next s
  else
    let g := rmapFirst s k
    let twice := (List.range 32).any (fun j => j != k && flag F.LND_RMAP_VALID j s && rmapFirst s j == g)
    let s := upTo 128 (fun i s =>
      let r := eccRead 15 (g + i) ((ecc[i]?).getD .ok) s
      if r.1 then stamp (g + i) { stored r.2 (g + i) with poison := true } r.2 else r.2) s
    let s := if twice then rmapDup (g / 128) true (rowsLost g 128 s) else s
    .next (heldRun (raiseEvent 134 (put F.LND_RMAP_VALID k 1 (put F.LND_RMAP_COPY k 0 s))))

/-- LND_RMAP_CLEAR (R414): accesses return to the original rows, whose contents are undefined. -/
def execLndRmapClear (k : Fin 32) (w : BusW) (s : State) : Answer :=
  let k := k.val
  let s := rmapWrite k w s
  .next (if wrote1 61 w && flag F.LND_RMAP_VALID k s then put F.LND_RMAP_VALID k 0 (rmapDup (rmapFirst s k / 128) false (rowsLost (rmapFirst s k) 128 s)) else s)

end Sys2Proof.Machine
end

