-- ==== Sys2Proof/Machine/OpsCpr.lean ====
section
/-! DEFINITION. What the clock, power and reset commands share: sleep levels, arm domains, the power-loss signal, the resets of the whole part
and the layout of the dump (R521–R546). -/

namespace Sys2Proof.Machine

open Sys2Proof

/-! ### The landing in self-refresh, and sleep (R408, R523, R529, R530) -/

/-- The landing goes into self-refresh with its contents. -/
def dramSleep (s : State) : State :=
  let s := put F.CPR_PD_STAT_DRAM_SR 0 1 s
  if fld F.LND_STAT_STATE 0 s = 2 then put F.LND_STAT_STATE 0 3 s else s

/-- The core/fabric PLL or the DRAM PLL is lost. -/
def dramClockLost (s : State) : Bool := bit F.CPR_CLKMON_LOST 0 3 s || bit F.CPR_CLKMON_LOST 0 4 s

/-- The landing leaves self-refresh and serves the accesses it held, unless a clock it needs is lost or Scetus is in STANDBY. -/
def dramWake (s : State) : State :=
  if dramClockLost s || flag F.CPR_PD_STAT_FAB_RET 0 s then s
  else
    let s := put F.CPR_PD_STAT_DRAM_SR 0 0 s
    if fld F.LND_STAT_STATE 0 s = 3 then heldRun (put F.LND_STAT_STATE 0 2 s) else s

/-- Shock sensing starts: baselines are initialised before SHOCK_OK can rise (R197). -/
def shockStart (s : State) : State :=
  let s := put F.SRV_SHK_STAT_INIT 0 1 (put F.SRV_SHK_STAT_SHOCK_OK 0 0 s)
  let s := upTo 4 permitFall { s with shock := {} }
  upTo 5 (fun c s => setShk c { shk s c with calm := 0, n := 0, sum := 0, lo := 2047, hi := -2048, means := [] } s) s

/-- The fabric domain is off: Scetus is in STANDBY (R527, R529). -/
def fabOff (s : State) : Bool := flag F.CPR_PD_STAT_FAB_RET 0 s

/-- STANDBY ends: fabric, core and landing run again (R530). The request is taken back (log entry 12). -/
def standbyWake (s : State) : State :=
  if !fabOff s then s
  else
    let s := put F.CPR_PD_STAT_LEVEL 0 0 (put F.CPR_PD_STAT_FAB_RET 0 0 (put F.CPR_PD_STANDBY 0 0 s))
    shockStart (dramWake (if spmSt s = 0 then spmEnter 1 s else s))

/-- The host domain takes no TLP: its link is frozen, or the domain is off (R522, R527). -/
def deaf (s : State) : Bool := s.cpr.frozen || s.cpr.hostOff || s.cpr.aonSleep

/-- A TLP arrives: it ends STANDBY and brings the link out of L1 (R319, R530). -/
def inbound (s : State) : State := wakeLink (standbyWake s)

/-- The rules of R520 hold of the core, DRAM and fabric clocks: f_core is 3,200 MHz / CORE_DIV, f_DRAM is six times the figure of R517, in sixths of a
MHz, and the core/fabric PLL's depth is in 1/2,000. -/
def ratiosOk (s : State) : Bool :=
  let div := max 2 (min 8 (fld F.CPR_CLK_CORE_DIV 0 s))
  let dram := [6400, 5625, 4800, 3200].getD (fld F.LND_CFG_RATE 0 s) 0
  let low := 2000 - min 10 (fld F.CPR_SSC_CF_DEPTH 0 s)
  (div == 2 || div == 4) && decide (dram * div * 2000 ≤ 19200 * low) && decide (3 * dram * 2000 ≤ 4 * 4800 * low)

/-! ### Registers that outlast a restart -/

/-- Registers of an address range. -/
def keepRange (lo hi : Nat) (t : Tab Word) : Tab Word := t.filter (fun e => lo ≤ e.1 && e.1 < hi)

/-- Registers retained in the AON domain: FLT, CPR but for CPR_DUMP_BLK_k, and the power-on seconds (R527, R531). -/
def aonRegs (s : State) : Tab Word :=
  keepRange 0x40B00000 0x40C00000 s.regs ++ keepRange R.BLZ_TIME.base (R.BLZ_TIME.base + 8) s.regs ++ keepRange 0x40F00000 0x40F00100 s.regs

/-- The part after a power-on reset: NOR, fuses, NAND and what stands outside the chip remain, and with the NOR and the media the namespace
records and wear histories that firmware keeps there (log entry 13). Committed entries of the staging band stand on media, but for those whose stripe
has been written again (R257, R258). Memories have lost their contents. -/
def powerOnReset (s : State) : State :=
  { State.reset with
    free := s.free
    out := s.out
    sramEra := s.sramEra + 1
    landEra := s.landEra + 1
    nor := s.nor
    fuse := s.fuse
    spr := { jobs := s.spr.jobs }
    mgt := { wear := s.mgt.wear, wearChange := s.mgt.wearChange }
    deck := { nss := s.deck.nss, nsGen := s.deck.nsGen, cmbEra := s.deck.cmbEra + 1 }
    cpr := {
      perst := s.cpr.perst
      testMode := s.cpr.testMode
      nand := s.cpr.nand
      dumpLost := s.cpr.dumpLost
      savedCache := s.cpr.savedCache
      savedImages := s.cpr.savedImages
      band := s.cpr.band.filter (fun e => stgHead s ≤ e.seq % stgTotal s) ++ s.spr.live.filter (·.committed) }
    pending := s.pending }

/-- Every domain but AON restarts (R531). -/
def aonRestart (s : State) : State :=
  let t := powerOnReset s
  { t with regs := (aonRegs s).foldl (fun r e => Tab.put r e.1 e.2) [], flt := s.flt, cpr := { t.cpr with unseen := putBit s.cpr.unseen 1 true } }

/-- The domains but AON are unpowered: what they held is gone. -/
def domainsOff (s : State) : State := put F.CPR_PD_STAT_LEVEL 0 0 (put F.CPR_PD_STAT_FAB_RET 0 0 (put F.CPR_PD_STAT_DRAM_SR 0 0 (put F.CPR_PD_STAT_ARM_UP 0 0 (aonRestart s))))

/-- PERST_N rises in AON_SLEEP: every domain but AON restarts from step 3 of R532 (R531). -/
def aonExit (s : State) : State :=
  let s := put F.CPR_RST_CAUSE 0 2 s
  { s with cpr := { s.cpr with aonSleep := false, perst := false } }

/-! ### Arm domains (R105, R129, R188, R527, R528) -/

/-- The domain of arm `a` comes up: lanes PARK with their frequency memories cleared (R86), write paths IDLE, a tune that TUNE asks for starts, and
discovery runs on an enabled link (R68, R82, R105, R129). -/
def armOn (a : Nat) (s : State) : State :=
  let s := putFBit F.CPR_PD_STAT_ARM_UP 0 a true s
  let s := each (armHeads a) (fun n s => setLane n { lane s n with fmem := 0 } (put F.WP_STAT_STATE n 1 (put F.LANE_STAT_STATE n 1 s))) s
  let s := if flag F.LANE_SYN_CTL_TUNE a s then synTuneTo a (fld F.LANE_SYN_CTL_ZONE a s) s else s
  if flag F.LANE_ALK_CTL_ENABLE a s then startDiscovery a false s else s

/-- The domain of arm `a` goes off: its operations are cut, lanes and write paths are OFF, the synthesizer and the link are off, WKILLn_N is
low and the arm's loops stop. -/
def armOff (a : Nat) (s : State) : State :=
  let s := cutWrite a (fun _ => 9) s
  let s := each (armHeads a) (fun n s => put F.WP_STAT_STATE n 0 (put F.LANE_STAT_STATE n 0 (readOpCut n s))) s
  let s := put F.LANE_SYN_STAT_STATE a 0 (setSyn a {} s)
  let s := clearFrames a (setLinkState a 0 (dropWpermArm a s))
  let s := setLink a { link s a with disc := .none, auto := false, autos := 0 } s
  let s := putFBit F.CPR_PD_STAT_ARM_UP 0 a false (stopLoops a 0 s)
  govLimits (put F.FLT_CHK_LIVE (128 + a) 0 (wkillFall a s))

/-! ### Power loss (R537, R538) -/

/-- The host domain goes off without notice: the link is down. -/
def hostDomainOff (s : State) : State :=
  let s := put F.HIF_LINK_STAT_LSTATE 0 0 (put F.HIF_LINK_STAT_FLIT 0 0 (put F.HIF_LINK_STAT_WIDTH 0 0 (put F.HIF_LINK_STAT_SPEED 0 0 s)))
  { s with cpr := { s.cpr with hostOff := true } }

/-- The power-loss signal, steps 1 to 4 of R538. -/
def powerLoss (s : State) : State :=
  if flag F.CPR_PL_LOSS 0 s then s
  else
    let s := standbyWake s
    let s := retractCause 2 (upTo 4 permitFall (put F.CPR_PL_LOSS 0 1 s))
    let s := yrdAbortAll (spmPowerLoss s)
    let s := { s with cpr := { s.cpr with cpHeld := true, warm := false } }
    let s := hostDomainOff (upTo 4 (fun a s => if armUp s a then armOff a s else s) s)
    reportEvicted s (dumpStart 0 s)

/-! ### The pages of a dump (R539, R540, R543) -/

def pageBytes : Nat := 16384

/-- Indexes of the VALID block entries in order. -/
def dumpEntries (s : State) : List Nat := (List.range 64).filter (fun k => flag F.CPR_DUMP_BLK_VALID k s)

/-- Entries that a dump needs: whole blocks of every way. -/
def dumpNeed (s : State) : Nat := ceilDiv (ceilDiv (dumpPages s) (dumpWays s)) (dumpPpb s) * dumpWays s

/-- Block entry and page in it of dump page `p`, before remaps: none past the entries. -/
def dumpPlace (s : State) (p : Nat) : Option (Nat × Nat) :=
  let w := dumpWays s
  let q := p / w
  ((dumpEntries s)[p % w + w * (q / dumpPpb s)]?).map (fun e => (e, q % dumpPpb s))

/-- Remaps followed from an entry and a page: entry, first page moved, spare. -/
def followRemap : Nat → List (Nat × Nat × Nat) → Nat × Nat → Nat × Nat
  | 0, _, p => p
  | n + 1, l, (e, g) => match l.find? (fun r => r.1 == e && r.2.1 ≤ g) with
    | some (_, f, sp) => followRemap n l (sp, g - f)
    | none => (e, g)

/-- Entry and page where dump page `p` goes. -/
def dumpAt (s : State) (l : List (Nat × Nat × Nat)) (p : Nat) : Option (Nat × Nat) := (dumpPlace s p).map (followRemap 9 l)

/-- NAND row of a page of an entry's block. -/
def dumpRow (s : State) (eg : Nat × Nat) : Nat := fld F.CPR_DUMP_BLK_ROW eg.1 s + eg.2

/-- The spare that follows the `n` already used. -/
def dumpSpare (s : State) (n : Nat) : Option Nat := (dumpEntries s)[dumpNeed s + n]?

/-- A page of data, of the poison map, or of the CRC table; a whole list of bits or words padded with zeros. LND_PROT changed under live
contents makes the pages open (R416). -/
def dumpPage (s : State) (p : Nat) : List Byte :=
  let nd := dumpData s
  let b := protBase s
  if s.cpr.protMoved then (List.range pageBytes).map (fun i => byte (Config.openVal 416 [p, i]).toNat)
  else if p < nd then landRead s (b + pageBytes * p) pageBytes
  else if p < nd + dumpMap s then
    let g0 := (p - nd) * pageBytes * 8
    (List.range pageBytes).map (fun i => byte (upTo 8 (fun k m =>
      let g := g0 + 8 * i + k
      if g < nd * 256 && (granule s (b / 64 + g)).poison then m + 2 ^ k else m) 0))
  else
    let t0 := (p - nd - dumpMap s) * (pageBytes / 4)
    (List.range (pageBytes / 4)).flatMap (fun i => bytesOf 4 (if t0 + i < nd then crc32c (landRead s (b + pageBytes * (t0 + i)) pageBytes) else 0))

/-- The pages `lo` to `lo + n - 1` as bytes. -/
def dumpSpan (f : Nat → List Byte) (lo n : Nat) : List Byte := (List.range n).flatMap (fun i => f (lo + i))

/-- The dump header (R543), 256 bytes. -/
def dumpHeader (s : State) (d : DumpRun) : List Byte :=
  let nd := dumpData s
  let maps := (d.remaps.map (fun r => bytesOf 1 r.1 ++ bytesOf 2 r.2.1 ++ bytesOf 1 r.2.2 ++ bytesOf 4 0)).flatten
  let h := bytesOf 4 0x504D444B ++ bytesOf 2 1 ++ bytesOf 1 d.cause ++ bytesOf 1 d.remaps.length ++ bytesOf 4 ((fld F.CPR_DUMP_SEQ_DSEQ 0 s + 1) % 2 ^ 32) ++
    bytesOf 4 (fld F.LND_PROT_SIZE 0 s) ++ bytesOf 8 (fld F.LND_PROT_BASE 0 s) ++ bytesOf 8 d.ownTime ++
    bytesOf 8 (rd R.SPR_STG_HEAD 0 0 s) ++ bytesOf 8 (rd R.SPR_STG_TAIL 0 0 s) ++ bytesOf 8 (rd R.SPR_STG_TGEN 0 0 s) ++ bytesOf 8 (rd R.SPR_WGEN 0 0 s) ++
    bytesOf 4 (rd R.SPR_FENCE_HEAD 0 0 s) ++ bytesOf 4 (rd R.SPR_FENCE_HEAD 1 0 s) ++ bytesOf 4 (rd R.SPR_FENCE_ARM 0 0 s % 16) ++
    bytesOf 4 (rd R.SPR_SALV_STAT 0 0 s) ++ bytesOf 4 (rd R.SPR_SALV_CTL 0 0 s) ++
    bytesOf 4 (crc32c (dumpSpan (dumpPage s) nd (dumpMap s))) ++ bytesOf 4 (crc32c (dumpSpan (dumpPage s) (nd + dumpMap s) (dumpCrc s))) ++ bytesOf 4 0 ++
    maps
  let h := h ++ List.replicate (0xFC - h.length) 0
  h ++ bytesOf 4 (crc32c h)

/-- The 256 bytes are a valid header. -/
def dumpHeaderOk (b : List Byte) : Bool := le b 0 4 == 0x504D444B && le b 4 2 == 1 && le b 0xFC 4 == crc32c (b.take 0xFC)

/-- One page of the safe store; a page nothing has programmed reads erased. -/
def nandRead (s : State) (row : Nat) : List Byte := (Tab.get? s.cpr.nand row).getD (List.replicate pageBytes 0xFF)

/-- A page is programmed. -/
def nandProgram (row : Nat) (b : List Byte) (s : State) : State :=
  let b := b ++ List.replicate (pageBytes - b.length) 0
  emit (.nand row b) { s with cpr := { s.cpr with nand := Tab.put s.cpr.nand row b } }

end Sys2Proof.Machine
end

