-- ==== Sys2Proof/Machine/Tally.lean ====
section
/-! DEFINITION. The tally: scales and the crossing from the measurement domain (R436–R444). -/

namespace Sys2Proof.Machine

open Sys2Proof

/-- A scale is requested (R440); in STANDBY the request wakes the device (R530), and the latch then waits for the handshake pending. -/
def scaleAsk (s : State) : State :=
  if s.sched.scale ≠ 0 then s
  else
    let t := standbyWake s
    { t with sched := { t.sched with scale := if fabOff s then 2 else 1 } }

/-- TLY_SCALE_GO (R440): GO written 1 reads 1 until the latch. -/
def execTlyScaleGo (w : BusW) (s : State) : Answer :=
  .next (if wrote1 31 w then scaleAsk (put F.TLY_SCALE_GO 0 1 s) else s)

/-- TALLY_PERIOD_EXPIRE (R440): PERIOD seconds of device time have passed since the last latch. -/
def execTallyPeriodExpire (s : State) : Answer :=
  let p := fld F.TLY_CTL_PERIOD 0 s
  .next (if p = 0 || s.time < fld F.TLY_SHD_TIME_TIME 0 s + 1000000000 * p then s else scaleAsk s)

/-- Every live counter is copied into the shadow bank, with the epoch, device time and PCYCLE (R439). -/
def latch (s : State) : State :=
  let t := s
  let s := upTo 64 (fun f s => upTo 16 (fun k s => put2 F.TLY_SHD_COUNT f k (fld2 F.TLY_LIVE_COUNT f k t) s) s) s
  let s := upTo 64 (fun k s => put F.TLY_DSHD_COUNT k (fld F.TLY_DLIVE_COUNT k t) s) s
  put F.TLY_EPOCH_EPOCH 0 ((fld F.TLY_EPOCH_EPOCH 0 t + 1) % 2 ^ 32)
    (put F.TLY_SHD_TIME_TIME 0 t.time (put F.TLY_SHD_PCY_PCYCLE 0 (fld F.BLZ_TIME_PCYCLE 0 t) s))

/-- TALLY_LATCH (R439, R440): the scale that was requested; after a wake of the fabric domain it waits for the handshake that is pending.
Every request before it takes its epoch, Tally Scale commands in DW0. -/
def execTallyLatch (s : State) : Answer :=
  if s.sched.scale = 0 || fabOff s || (s.sched.scale = 2 && flag F.TLY_XING_PEND 0 s) then .next s
  else
    let s := latch s
    let s := put F.TLY_SCALE_GO 0 0 { s with sched := { s.sched with scale := 0 } }
    .next (each (Tab.vals s.deck.cmds) (fun x s =>
      if isAdmin x && opc x == 0xC1 && x.txn && x.phase == .active then admEnd x 0 (fld F.TLY_EPOCH_EPOCH 0 s) s else s) s)

/-- TALLY_SCALE (R440): C1h from PF0 waits for the latch. -/
def execTallyScale (slot : Fin 4096) (s : State) : Answer :=
  .next (match adm s slot.val 0xC1 with
    | none => s
    | some x => scaleAsk (setCmd { x with phase := .active, txn := true } s))

/-- Whole microjoules that fit the 16-bit increments of the handshake register, taken out of the amounts held (R397, R442). -/
def takeMicro (t : Tab Nat) : Tab Nat × Tab Nat :=
  let r := t.map (fun e => (e.1, min 65535 (e.2 / 1000)))
  (r.filter (fun e => e.2 != 0), (t.map (fun e => (e.1, e.2 - 1000 * min 65535 (e.2 / 1000)))).filter (fun e => e.2 != 0))

/-- TALLY_HANDSHAKE_REQ (R442, R443): the tick's whole microjoules are offered; while the last handshake is pending they stay with the
measurement domain, and the tick counts in LATE; while the fabric domain is off they stay there too. -/
def execTallyHandshakeReq (s : State) : Answer :=
  if flag F.TLY_XING_PEND 0 s then .next (count F.TLY_XING_LATE 0 s)
  else if fabOff s then .next s
  else
    let r := takeMicro s.sched.rem
    .next (put F.TLY_XING_PEND 0 1 { s with sched := { s.sched with hs := r.1, rem := r.2 } })

/-- TALLY_HANDSHAKE_APPLY (R437, R438, R442, R443): every increment is added in one cycle, and ACK toggles; not while the fabric domain is off. -/
def execTallyHandshakeApply (s : State) : Answer :=
  if !flag F.TLY_XING_PEND 0 s || fabOff s then .next s
  else
    let s := each s.sched.hs (fun e s => if e.1 < 64 then tally e.1 11 e.2 s else tallyDev (e.1 - 64) e.2 s) s
    .next (put F.TLY_XING_PEND 0 0 { s with sched := { s.sched with hs := [] } })

/-- A counter of function `f`, or device counter, of a bank. -/
def cnt (s : State) (live : Bool) (f k : Nat) : Nat := if live then fld2 F.TLY_LIVE_COUNT f k s else fld2 F.TLY_SHD_COUNT f k s
def cntDev (s : State) (live : Bool) (k : Nat) : Nat := if live then fld F.TLY_DLIVE_COUNT k s else fld F.TLY_DSHD_COUNT k s

/-- TALLY_READ (R437, R441, R444): a VF reads its own counters alone. -/
def execTallyRead (slot : Fin 4096) (s : State) : Answer :=
  .next (match adm s slot.val 0xC2 with
    | none => s
    | some x =>
      let n := cdw x 10 % 256
      let live := (cdw x 10).testBit 8
      if !outReady s x then s
      else if x.fn ≠ 0 && n ≠ x.fn then admEnd x stPermit 0 s
      else if 64 ≤ n && n ≠ 255 then admEnd x stField 0 s
      else
        let cs := if n = 255 then (List.range 64).map (cntDev s live) else (List.range 16).map (cnt s live n)
        let h := bytesOf 4 (fld F.TLY_EPOCH_EPOCH 0 s) ++ bytesOf 3 (fld F.TLY_SHD_PCY_PCYCLE 0 s) ++ bytesOf 1 live.toNat ++
          bytesOf 8 (if live then s.time else fld F.TLY_SHD_TIME_TIME 0 s)
        admSend x (h ++ cs.flatMap (bytesOf 8)) (fld F.TLY_EPOCH_EPOCH 0 s) s)

end Sys2Proof.Machine
end

