-- ==== Sys2Proof/Machine/Mgmt.lean ====
section
/-! DEFINITION. Lyolo: firmware download and activation, the watchdog, the life record, sensors, wear models and fuses (R484–R505). -/

namespace Sys2Proof.Machine

open Sys2Proof

/-! ### Download and commit (R498, R502) -/

/-- FW_IMAGE_DOWNLOAD (R502): the data lies at its dword offset of the activation buffer; a part beyond the 6 MiB of an image is refused (log
entry 11). -/
def execFwImageDownload (slot : Fin 4096) (s : State) : Answer :=
  .next (match adm s slot.val 0x11 with
    | none => s
    | some x =>
      if !inReady x then s
      else if 0x600000 < 4 * cdw x 11 + adminIn x then admEnd x stField 0 s
      else
        let s := hwWrite 13 (actBuf s + 4 * cdw x 11) (x.data.take (adminIn x)) 0 0 s
        admEnd x 0 0 { s with mgt := { s.mgt with fresh := true } })

/-- Commit action and firmware slot of a Firmware Commit. -/
def fwAct (x : Cmd) : Nat := cdw x 10 / 8 % 8
def fwSlot (x : Cmd) : Nat := cdw x 10 % 8

def stFwSlot : Nat := 0x106 + dnr
def stFwImage : Nat := 0x107 + dnr
/-- The image is activated by a reset of the NVM subsystem. -/
def stFwReset : Nat := 0x110

/-- The slot a storing action writes: the one named, or for 0 one the controller chooses among those that did not boot. -/
def fwTarget (s : State) (x : Cmd) : Nat :=
  if fwSlot x ≠ 0 then fwSlot x
  else
    let l := [1, 2, 3, 4].filter (· != fld F.MGT_STAT_BOOT_SLOT 0 s)
    l.getD ((Config.openVal 502 [s.mgt.life]).toNat % l.length) 1

/-- The slot may be written. -/
def fwSlotOk (s : State) (k : Nat) : Bool := 1 ≤ k && k ≤ 4 && k != fld F.MGT_STAT_BOOT_SLOT 0 s

/-- The downloaded image is written to a slot. -/
def fwStore (k : Nat) (s : State) : State :=
  let a := slotAddr k
  let s := norProgram a (hwBytes s (actBuf s) (imgLen s (.land (actBuf s)))) (norErase a 0x600000 s)
  { s with mgt := { s.mgt with fresh := false } }

/-- ACTIVE of the selector in use. -/
def selActive (s : State) : Nat := ((selector s).map (·.active)).getD 0

/-- A storing action: the image is checked, the slot is judged, and the image is stored; `go` is what follows. -/
def fwStoring (x : Cmd) (go : Nat → State → State) (s : State) : State :=
  let r := if s.mgt.fresh then imgCheck (.land (actBuf s)) s else (false, s)
  let k := fwTarget r.2 x
  if !r.1 then admEnd x stFwImage 0 r.2
  else if !fwSlotOk r.2 k then admEnd x stFwSlot 0 r.2
  else go k (fwStore k r.2)

/-- The Firmware Commit of action `a` in a slot, ready to be carried out. -/
def fwCmd (s : State) (slot : Fin 4096) (a : Nat) : Option Cmd := (adm s slot.val 0x10).bind (fun x => if fwAct x == a then some x else none)

/-- FW_COMMIT_STORE (R502). -/
def execFwCommitStore (slot : Fin 4096) (s : State) : Answer :=
  .next (match fwCmd s slot 0 with
    | none => s
    | some x => fwStoring x (fun _ s => admEnd x 0 0 s) s)

/-- FW_COMMIT_STORE_NEXT (R502): the slot becomes NEXT; a reset of the part activates it. -/
def execFwCommitStoreNext (slot : Fin 4096) (s : State) : Answer :=
  .next (match fwCmd s slot 1 with
    | none => s
    | some x => fwStoring x (fun k s => admEnd x stFwReset 0 (selWrite (selActive s) k s)) s)

/-- FW_COMMIT_SLOT_NEXT (R502): the image that the slot holds is checked and the slot becomes NEXT. -/
def execFwCommitSlotNext (slot : Fin 4096) (s : State) : Answer :=
  .next (match fwCmd s slot 2 with
    | none => s
    | some x =>
      let k := fwTarget s x
      if 4 < k then admEnd x stFwSlot 0 s
      else
        let r := imgCheck (.nor (slotAddr k)) s
        if !r.1 then admEnd x stFwImage 0 r.2 else admEnd x stFwReset 0 (selWrite (selActive r.2) k r.2))

/-- FW_COMMIT_ACTIVATE (R502, R503 steps 1 and 2): the downloaded image is stored, or with none the image of the slot is taken; the command
waits for the activation, and a second activation for the first. -/
def execFwCommitActivate (slot : Fin 4096) (s : State) : Answer :=
  .next (match fwCmd s slot 3 with
    | none => s
    | some x =>
      let start := fun (k : Nat) (s : State) => setCmd { x with phase := .active } { s with mgt := { s.mgt with act := some ⟨1, x.num, k, false, 0⟩ } }
      if s.mgt.act.isSome then s
      else if s.mgt.fresh then fwStoring x start s
      else
        let k := fwTarget s x
        if 4 < k then admEnd x stFwSlot 0 s
        else
          let r := imgCheck (.nor (slotAddr k)) s
          if !r.1 then admEnd x stFwImage 0 r.2 else start k r.2)

/-! ### Activation without reset (R503–R505) -/

/-- The Firmware Commit that waits for the activation ends; a command resolved by a reset gets no completion. -/
def actEnd (num st : Nat) (s : State) : State :=
  match (Tab.vals s.deck.cmds).find? (fun x => isAdmin x && opc x == 0x10 && x.num == num && x.phase == .active) with
  | some x => admEnd x st 0 s
  | none => s

def setAct (x : Option Activation) (s : State) : State := { s with mgt := { s.mgt with act := x } }

/-- ACT_STAGED (R503 steps 2 and 3): the segments are staged beside a copy of the running image, and every function is told. -/
def execActStaged (s : State) : Answer :=
  .next (match s.mgt.act with
    | some x =>
      if x.phase ≠ 1 then s
      else
        let b := fld F.MGT_STAT_BOOT_SLOT 0 s
        let p : ImgAt := .nor (slotAddr b)
        let q : ImgAt := .nor (slotAddr x.slot)
        let s := hwWrite 5 (actBuf s) (imgBytes s q 0 (min 0x600000 (imgLen s q))) 0 0 s
        let s := if b = 0 then s else hwWrite 5 (prevBuf s) (imgBytes s p 0 (min 0x600000 (imgLen s p))) 0 0 s
        asyncAll 2 1 (setAct (some { x with phase := 2 }) s)
    | none => s)

/-- The cores are held, take the new control-processor segments and are released; TMO counts from then (R503 step 5). -/
def actRelease (x : Activation) (s : State) : State :=
  let s := segsLoad false (.land (actBuf s)) (warmReset s)
  setAct (some { x with phase := 3, go := false, t := s.time }) { s with cpr := { s.cpr with cpHeld := false, warm := false } }

/-- A GO that waited for a commit goes on (R505). -/
def actWaiting (s : State) : State :=
  match s.mgt.act with
  | some x => if x.phase = 2 && x.go && fld F.CFG_TXN_STAT_STATE 0 s != 2 then actRelease x s else s
  | none => s

/-- ACT_GO (R503 steps 4 and 5, R505). -/
def execActGo (w : BusW) (s : State) : Answer :=
  let s := busWrite R.MGT_ACT 0 0 w s
  .next (if !wrote1 31 w then s
    else
      let s := put F.MGT_ACT_GO 0 1 s
      match s.mgt.act with
      | some x => if x.phase = 2 then actWaiting (setAct (some { x with go := true }) s) else s
      | none => s)

/-- ACT_DONE (R503 steps 6 and 7): the slot becomes ACTIVE, Firmware Commit completes, and Lyolo segments take effect by a Lyolo reset. -/
def execActDone (w : BusW) (s : State) : Answer :=
  let s := busWrite R.MGT_ACT 0 0 w s
  .next (if !wrote1 30 w then s
    else
      let s := put F.MGT_ACT_DONE 0 1 s
      match s.mgt.act with
      | some x =>
        if x.phase ≠ 3 then s
        else
          let s := selWrite x.slot (((selector s).map (·.next)).getD 0) s
          let s := actEnd x.num 0 (put F.MGT_ACT_GO 0 0 (put F.MGT_ACT_DONE 0 0 (put F.MGT_STAT_BOOT_SLOT 0 x.slot (setAct none s))))
          if (imgSegs s (.nor (slotAddr x.slot))).any (fun g => g.target == 1) then lyoloReset s else s
      | none => s)

/-- ACT_TIMEOUT (R504): DONE has not come within TMO ms of the release; the previous image's segments are reloaded and the cores released. -/
def execActTimeout (s : State) : Answer :=
  .next (match s.mgt.act with
    | some x =>
      if x.phase ≠ 3 || s.time < x.t + 1000000 * min 120 (fld1 F.MGT_ACT_TMO 0 s) then s
      else
        let s := segsLoad false (.land (prevBuf s)) s
        let s := put F.MGT_ACT_GO 0 0 (put F.MGT_ACT_DONE 0 0 (put F.MGT_ACT_REVERTED 0 1 (setAct none s)))
        blzEnter 1 (Config.openVal 504 [0]).toNat (Config.openVal 504 [1]).toNat (actEnd x.num stFwImage s)
    | none => s)

/-! ### Watchdog and life record (R486, R490) -/

/-- WDT_KICK (R486): a write of 0 to EN is ignored while management firmware runs with the watchdog on. -/
def execWdtKick (w : BusW) (s : State) : Answer :=
  let on := flag F.MGT_WDT_EN 0 s && !s.cpr.lyHeld
  let s := busWrite R.MGT_WDT 0 0 w s
  let s := if on then put F.MGT_WDT_EN 0 1 s else s
  .next (if wrote1 31 w then { s with mgt := { s.mgt with wdt := s.time } } else s)

/-- WDT_EXPIRE (R486): TMO ms have passed without a kick. -/
def execWdtExpire (s : State) : Answer :=
  .next (if flag F.MGT_WDT_EN 0 s && !s.cpr.lyHeld && s.mgt.wdt + 1000000 * fld1 F.MGT_WDT_TMO 0 s ≤ s.time then report 216 none 5 0 0 0 { s with mgt := { s.mgt with wdt := s.time } } else s)

/-- LIFE_RECORD_SAVE (R490): SAVE_S seconds have passed since the last record. -/
def execLifeRecordSave (s : State) : Answer :=
  .next (if mgtRuns s && s.mgt.saved + fld1 F.MGT_CTL_SAVE_S 0 s ≤ fld F.BLZ_TIME_SECONDS 0 s then lifeSave s else s)

/-! ### Sensors (R336, R471, R491–R493) -/

/-- The management domain is powered (R527, R538). -/
def mgtOn (s : State) : Bool := 1 ≤ s.cpr.stage && !s.cpr.aonSleep

/-- A temperature in 1/16 °C in kelvin; the spec states no rounding. -/
def kelvin (t : Int) : Int := openRound 336 (100 * t + 16 * 27315) 1600

/-- The composite temperature has crossed a threshold of function `f`: over the one, or under the other (R336, R371). -/
def tempEvents (old new : Int) (s : State) : State :=
  upTo 64 (fun f s =>
    let hi : Int := (feature s f 4 % 65536 : Nat)
    let lo : Int := (((Tab.get? (fnr s f).feat 0x104).getD 0) % 65536 : Nat)
    if fnOn s f && ((kelvin old < hi && hi ≤ kelvin new) || (lo < kelvin old && kelvin new ≤ lo)) then asyncEvent f 1 1 s else s) s

/-- Checkers 20 and 21 over a die temperature, reported in one cycle (R460, R472). -/
def dieCheckers (t : Int) (s : State) : State :=
  let pend := fld F.FLT_STAT_PENDING 0 s
  let fc3 := fld F.FLT_FC3_PEND_PEND 0 s
  let hot : Int := 16 * (fld F.FLT_THERM_HOT 0 s : Int)
  let trip : Int := 16 * (max (fld F.FLT_THERM_TRIP 0 s) (fld F.FLT_THERM_HOT 0 s + 5) : Nat)
  let s := if hot ≤ t then reportAt pend fc3 false 20 none 0 0 0 0 s else if t < hot - 80 then condFalls 20 s else s
  if trip ≤ t then reportAt pend fc3 false 21 none 0 0 0 0 s else condFalls 21 s

/-- THERMAL_SAMPLE (R491): eight temperatures in 1/16 °C. -/
def execThermalSample (t : List (BitVec 16)) (s : State) : Answer :=
  .next (if !mgtOn s then s
    else
      let old := tDie s
      let s := upTo 8 (fun k s => put F.MGT_TEMP_TEMP k (t.getD k 0).toNat s) s
      dieCheckers (tDie s) (tempEvents old (tDie s) s))

/-- Checkers 22 to 25: thermistor input `n` against ENC_HOT. -/
def thmChecker (n : Nat) (s : State) : State :=
  let t := fld F.MGT_THM_TEMP n s
  if t ≠ 0x8000 && (16 * fld F.FLT_THERM_ENC_HOT 0 s : Nat) ≤ sext 16 t then report (22 + n) none 0 0 0 0 s else condFalls (22 + n) s

/-- One bit of a binary logarithm: `m` in [2^63, 2^64) is squared. -/
def logBits : Nat → Nat → Nat → Nat
  | 0, _, acc => acc
  | k + 1, m, acc =>
    let p := m * m / 2 ^ 63
    if 2 ^ 64 ≤ p then logBits k (p / 2) (2 * acc + 1) else logBits k p (2 * acc)

/-- ln(q / 2^32) for q ≥ 1, in 2^-40: 40 bits of the binary logarithm times ln 2 (log entry 8). -/
def lnFix (q : Nat) : Int :=
  let e := Nat.log2 q
  (((e : Int) - 32) * 2 ^ 40 + (logBits 40 (q * 2 ^ 63 / 2 ^ e) 0 : Int)) * 762123384786 / 2 ^ 40

/-- The temperature of R491, 1/16 °C: T = 1 / (1/298.15 + ln q / BETA) − 273.15, its rounding left open, and the value open where the formula or its
16 bits give none. -/
def thmTemp (q beta : Nat) : Nat :=
  let den : Int := 100 * beta * 2 ^ 40 + 29815 * lnFix q
  let t := openRound 491 (16 * (29815 * beta * 2 ^ 40 * 100 - 27315 * den)) (100 * den).toNat
  if q = 0 || beta = 0 || den ≤ 0 || 32767 < t || t ≤ -32768 then (Config.openVal 491 [q, beta]).toNat % 2 ^ 16 else lowBits 16 t

/-- THERMISTOR_SAMPLE (R491, R559): the input's ball at `v` nV gives the ratio q = V / (1.20 − V), here in 2^-32, or stands at a rail. -/
def execThermistorSample (n : Fin 4) (v : Int) (s : State) : Answer :=
  let rail := v ≤ 0 || 1200000000 ≤ v
  let q := (v * 2 ^ 32 / (1200000000 - v)).toNat
  .next (if !mgtOn s then s
    else
      let s := { s with mgt := { s.mgt with rails := Tab.set s.mgt.rails 0 n.val (if rail then min 100 (Tab.get s.mgt.rails 0 n.val + 1) else 0) } }
      let s := if !flag F.MGT_THM_EN n.val s then put F.MGT_THM_TEMP n.val 0x8000 s
        else if rail && flag F.MGT_THM_OPEN n.val s then s
        else put F.MGT_THM_OPEN n.val 0 (put F.MGT_THM_TEMP n.val (thmTemp q (fld F.MGT_THM_BETA n.val s)) s)
      thmChecker n.val s)

/-- THERMISTOR_OPEN (R491): at a rail for 1 s, 100 samples. -/
def execThermistorOpen (n : Fin 4) (s : State) : Answer :=
  .next (if !mgtOn s || !flag F.MGT_THM_EN n.val s || flag F.MGT_THM_OPEN n.val s || Tab.get s.mgt.rails 0 n.val < 100 then s
    else thmChecker n.val (raiseEvent 139 (put F.MGT_THM_OPEN n.val 1 (put F.MGT_THM_TEMP n.val 0x8000 s))))

/-- Checkers 14 to 19: outside the window on two samples 10 µs apart, without a power-loss signal (R460, R492). -/
def monChecker (n v : Nat) (s : State) : State :=
  if fld F.MGT_MON_LO n s ≤ v && v ≤ fld F.MGT_MON_HI n s then condFalls (14 + n) { s with mgt := { s.mgt with monOut := Tab.erase s.mgt.monOut n } }
  else
    let k := min 2 (Tab.get s.mgt.monOut 0 n + 1)
    let s := { s with mgt := { s.mgt with monOut := Tab.put s.mgt.monOut n k } }
    if 2 ≤ k && !flag F.CPR_PL_LOSS 0 s then report (14 + n) none 0 0 0 0 s else s

/-- MONITOR_SAMPLE (R492, R537, R559): the balls of monitor `n` at `volt` and `amp` nV; monitor 3 below THR on two consecutive samples raises
the power-loss signal. -/
def execMonitorSample (n : Fin 6) (volt amp : Int) (s : State) : Answer :=
  let v := voltCode 4095 volt
  let i := senseCode amp
  .next (if !mgtOn s then s
    else
      let s := put F.MGT_MON_V n.val v.toNat (put F.MGT_MON_I n.val i.toNat s)
      let low := if n.val ≠ 3 then s.mgt.low else if v.toNat < fld F.CPR_PL_THR 0 s then min 2 (s.mgt.low + 1) else 0
      let s := { s with mgt := { s.mgt with low := low } }
      let s := if n.val = 3 && low = 2 && flag F.CPR_PL_MON_EN 0 s then powerLoss s else s
      monChecker n.val v.toNat s)

/-- RO_SAMPLE (R493). -/
def execRoSample (slow : List (BitVec 16)) (s : State) : Answer :=
  .next (if !mgtOn s then s else upTo 16 (fun k s => put F.MGT_RO_SLOW k (slow.getD k 0).toNat s) s)

/-! ### Wear (R494–R496) -/

def noHours : Nat := 0xFFFFFFFF

/-- Sums over the samples: n, Σt, Σm, Σt², Σtm, Σm². -/
structure Sums where
  n : Int
  t : Int
  m : Int
  tt : Int
  tm : Int
  mm : Int

def sumsOf (h : List (Nat × Nat)) : Sums :=
  h.foldl (fun (a : Sums) e => ⟨a.n + 1, a.t + e.1, a.m + e.2, a.tt + (e.1 : Int) * e.1, a.tm + (e.1 : Int) * e.2, a.mm + (e.2 : Int) * e.2⟩)
    ⟨0, 0, 0, 0, 0, 0⟩

/-- Hours `t + a / (b + √c)`, floored as in R496's example; the root is taken to 2^-64. A figure outside 32 bits is open. -/
def eolAt (t a b c : Int) : Nat :=
  let w : Int := 2 ^ 64
  let den := b * w + (if 0 ≤ c then (isqrtFrom 255 (c.natAbs * 2 ^ 128) 0 : Int) else -(isqrtFrom 255 (c.natAbs * 2 ^ 128) 0 : Int))
  if den ≤ 0 then noHours
  else
    let e := t + a * w / den
    if 0 ≤ e && e < 2 ^ 32 - 1 then e.toNat else (Config.openVal 495 [e]).toNat % 2 ^ 32

/-- Percent used and metric of a fit `num / (den · 2^32)`, saturating; the spec states neither for a negative fit. -/
def usedOf (num den : Int) : Nat := let u := 100 * num / (den * 2 ^ 32); if u < 0 then (Config.openVal 496 [0, u]).toNat % 256 else min 255 u.toNat
def metricOf (num den : Int) : Nat := let u := 65536 * num / (den * 2 ^ 32); if u < 0 then (Config.openVal 496 [1, u]).toNat % 2 ^ 32 else min 0xFFFFFFFF u.toNat

/-- The least-squares line through the samples and what it predicts at hour `t` (R495). With D = nΣt² − (Σt)² and N = nΣtm − ΣtΣm the slope is
N / D, the fit's value is (ΣmD + N(nt − Σt)) / (nD), and the slope's variance is ((nΣm² − (Σm)²)D − N²) / ((n − 2)D²). Samples of a single
hour leave the slope open. -/
def wearFit (t : Nat) (x : WearRec) : WearRec :=
  let a := sumsOf x.hist
  let d := a.n * a.tt - a.t * a.t
  let nn := a.n * a.tm - a.t * a.m
  let num := if d = 0 then a.m else a.m * d + nn * (a.n * t - a.t)
  let den := if d = 0 then a.n else a.n * d
  let x := { x with used := usedOf num den, metric := metricOf num den, updated := t, eol := noHours, lo := noHours, hi := noHours }
  let slope := if d = 0 then Config.openVal 495 [a.n, a.t, a.m] else nn
  if a.n < 8 then { x with state := 0 }
  else if den * 2 ^ 32 ≤ num then { x with state := 3, eol := t, lo := t, hi := t }
  else if slope ≤ 0 then { x with state := 1 }
  else if d = 0 then
    let e := fun (k : Int) => (Config.openVal 495 [k, a.n, a.t, a.m]).toNat % 2 ^ 32
    { x with state := 2, eol := e 0, lo := e 1, hi := e 2 }
  else
    let rest := den * 2 ^ 32 - num
    let q := 4 * a.n * a.n * ((a.n * a.mm - a.m * a.m) * d - nn * nn) * (a.n - 2)
    let b := a.n * nn * (a.n - 2)
    { x with state := 2, eol := eolAt t rest (a.n * nn) 0, lo := eolAt t (rest * (a.n - 2)) b q, hi := eolAt t (rest * (a.n - 2)) b (-q) }

/-- Record of log page C0h that is fenced (R495): 0–63 heads, 64–67 arms. -/
def wearFenced (s : State) (r : Nat) : Bool :=
  if r < 64 then bit F.SPR_FENCE_HEAD_FENCE (r / 32) (r % 32) s
  else if r < 68 then armFenced s (r - 64) || !armPresent s (r - 64) else false

/-- Model `r` is due at hour `t` (R494): every 24 h of power-on for kinds 1, 2, 3 and 6, kind 3 in RUN at AT_SPEED; at power-on and every 168 h for
kind 4; kind 5 follows dumps and self-tests. -/
def wearDue (s : State) (r t : Nat) : Bool :=
  let x := Tab.get s.mgt.wear {} r
  if r = 70 then true
  else if r = 69 then !s.mgt.capSeen || x.updated + 168 ≤ t
  else (x.hist.isEmpty || x.updated + 24 ≤ t) && (r != 68 || (spmSt s == 7 && flag F.SPM_STAT_AT_SPEED 0 s))

/-- A part has reached WORN (R495): the event, the blaze record and the reliability event. -/
def wornNow (s : State) : State :=
  asyncAll 1 0 (blzEnter 1 (Config.openVal 495 [10]).toNat (Config.openVal 495 [11]).toNat (raiseEvent 140 s))

/-- WEAR_SAMPLE (R494, R495): model `r` (0–63 heads, 64–67 arms, then kinds 3 to 6), when it is due, takes the metric `m`, in 2^-32; what management
firmware makes of blob 2 and its inputs is its own. -/
def execWearSample (r : Fin 72) (m : Nat) (s : State) : Answer :=
  .next (if !mgtRuns s || !flag F.MGT_CTL_WEAR_EN 0 s || wearFenced s r.val || !wearDue s r.val (powerHours s) then s
    else
      let x := Tab.get s.mgt.wear {} r.val
      let t := powerHours s
      let y := wearFit t { x with hist := ((t, m) :: x.hist).take 64 }
      let s := { s with mgt := { s.mgt with wear := Tab.put s.mgt.wear r.val y, wearChange := (s.mgt.wearChange + 1) % 2 ^ 32, capSeen := s.mgt.capSeen || r.val = 69 } }
      if y.state = 3 && x.state ≠ 3 then wornNow s else s)

/-- STATE of a record as it is published. -/
def wearState (s : State) (r : Nat) : Nat := if wearFenced s r then 4 else (Tab.get s.mgt.wear {} r).state

/-- Records of kinds 3 to 6. -/
def devRecs (s : State) : List WearRec := (List.range 4).map (fun k => Tab.get s.mgt.wear {} (68 + k))

/-- DEVICE_EOL and DEVICE_USED (R496). -/
def deviceEol (s : State) : Nat := (devRecs s).foldl (fun a x => min a x.eol) noHours
def deviceUsed (s : State) : Nat := (devRecs s).foldl (fun a x => max a x.used) 0

/-- Some part is WORN. -/
def anyWorn (s : State) : Bool := (List.range 72).any (fun r => wearState s r == 3)

/-! ### Fuses and the lock (R498, R511) -/

/-- FUSE_BURN (R498): GO is ignored while FUSE_EN is 0 or a burn runs. -/
def execFuseBurn (w : BusW) (s : State) : Answer :=
  let s := busWrite R.MGT_FUSE 0 0 w s
  .next (if !wrote1 31 w || !flag F.MGT_CTL_FUSE_EN 0 s || s.mgt.burn.isSome then s
    else
      let op := fld F.MGT_FUSE_OP 0 s
      let v := if op = 0 then fld F.MGT_FUSE_SVN 0 s else fld F.MGT_FUSE_KEY 0 s
      put F.MGT_FUSE_GO 0 1 { s with mgt := { s.mgt with burn := some (op, v) } })

/-- Fuses after a burn that has ended well: an SVN above 64 has no meaning, and its result is open. -/
def fuseSet (op v : Nat) (x : Fuse) : Fuse :=
  if op = 1 then { x with revoked := putBit x.revoked v true }
  else if v ≤ x.svn then x
  else if 64 < v then { x with svn := max x.svn ((Config.openVal 498 [v]).toNat % 65) }
  else { x with svn := v }

/-- Fuses after a burn that has failed: some of the bits to be burnt may be, and none falls. -/
def fuseFailed (op v : Nat) (x : Fuse) : Fuse :=
  let z := (Config.openVal 498 [op, v, x.svn, x.revoked]).toNat
  if op = 1 then { x with revoked := if z % 2 = 1 then putBit x.revoked v true else x.revoked }
  else { x with svn := x.svn + z % (min 64 v - min x.svn (min 64 v) + 1) }

/-- FUSE_BURN_DONE (R498). -/
def execFuseBurnDone (ok : Bool) (s : State) : Answer :=
  .next (match s.mgt.burn with
    | none => s
    | some (op, v) =>
      let fuse' := if ok then fuseSet op v s.fuse else fuseFailed op v s.fuse
      put F.MGT_FUSE_GO 0 0 (put F.MGT_FUSE_DONE 0 1 (put F.MGT_FUSE_FAIL 0 (!ok).toNat { s with fuse := fuse', mgt := { s.mgt with burn := none } })))

/-- CFG_LOCK (R511). -/
def execCfgLock (w : BusW) (s : State) : Answer := .next (if wrote1 0 w then bootCommit s else s)

end Sys2Proof.Machine
end

