-- ==== Sys2Proof/Machine/ReadChannel.lean ====
section
/-! DEFINITION. Commands of the read channel (R76–R106) and of the servo gates that split sectors (R115, R176). -/

namespace Sys2Proof.Machine

open Sys2Proof

/-- LANE_WAKE (R103, R105): a lane in SLEEP wakes for its operation, or because PWR holds it awake. -/
def execLaneWake (n : Fin 64) (s : State) : Answer :=
  let l := lane s n
  .next (govLimits (if fld F.LANE_STAT_STATE n s = 3 then
      let s := put F.LANE_STAT_STATE n 4 s
      match l.op with
      | some o =>
        if needProfile s n o.zone then setLane n { l with loading := true, wakeFor := some o.zone } s else s
      | none => if fld F.LANE_CTL_PWR n s = 1 then s else put F.LANE_STAT_STATE n 3 s
    else s))

/-- LANE_WAKE_DONE (R105): WAKE becomes READY. -/
def execLaneWakeDone (n : Fin 64) (s : State) : Answer :=
  .next (if fld F.LANE_STAT_STATE n s = 4 then put F.LANE_STAT_STATE n 5 s else s)

/-- LANE_READY_HOLD (R105): READY with no read gate due and PWR 0 becomes SLEEP; with the arm's heads parked, PARK. -/
def execLaneReadyHold (n : Fin 64) (s : State) : Answer :=
  .next (if fld F.LANE_STAT_STATE n s = 5 && fld F.LANE_CTL_PWR n s = 0 then
      govLimits (if !armParked s (armOf n) then put F.LANE_STAT_STATE n 3 s
        else setLane n { lane s n with fmem := 0 } (put F.LANE_STAT_STATE n 1 s))
    else s)

/-- The registers a profile record loads (R102, R103). -/
def loadProfile (n z base : Nat) (s : State) : State :=
  let w := fun o => sramNat s (base + o) 4
  let s := wr R.LANE_AFE n 0 (w 0 &&& R.LANE_AFE.rw) s
  let hold := fld F.LANE_AGC_HOLD n s
  let s := put F.LANE_AGC_HOLD n hold (wr R.LANE_AGC n 0 (w 4 &&& R.LANE_AGC.rw) s)
  let s := wr R.LANE_TGT_LO n 0 (w 8 &&& R.LANE_TGT_LO.rw) s
  let s := wr R.LANE_TGT_MID n 0 (w 0xC &&& R.LANE_TGT_MID.rw) s
  let s := wr R.LANE_TGT_HI n 0 (w 0x10 &&& R.LANE_TGT_HI.rw) s
  let s := wr R.LANE_DET n 0 (w 0x14 &&& R.LANE_DET.rw) s
  let s := wr R.LANE_FIR_CTL n 0 (w 0x18 &&& R.LANE_FIR_CTL.rw) s
  let s := upTo 16 (fun k s => wr R.LANE_FIR n k (w (0x20 + 4 * k) &&& R.LANE_FIR.rw) s) s
  let s := setLane n { lane s n with recAddr := some base, startGain := fld F.LANE_AGC_GAIN n s } s
  put F.LANE_STAT_ZONE n z (put F.LANE_STAT_PROF_OK n 1 s)

/-- PROFILE_LOAD_DONE (R101–R103): the record is loaded; one that is not valid ends the operation PROFILE and is recorded in FC1, and one outside
shared SRAM ends it so with the bus error. -/
def execProfileLoadDone (n : Fin 64) (s : State) : Answer :=
  let l := lane s n
  match l.loading, l.wakeFor with
  | true, some z =>
    let s := setLane n { l with loading := false, wakeFor := none } s
    let base := fld F.LANE_PROF_BASE_ADDR 0 s * 4096 + (n.val * 64 + z) * 128
    let inside := inSram base 128
    if inside && (sramNat s (base + 0x1C) 4).testBit 0 then .next (loadProfile n z base s)
    else
      let psa := (l.op.map (·.psa)).getD 0
      let s := if inside then report (140 + armOf n) none 8 5 psa 6 s else report 233 none 8 1 base 0 s
      .next (readOpFail n 6 (put F.LANE_STAT_PROF_OK n 0 s))
  | _, _ => .next s

/-- The gate opens for the next sector: the lane takes the registers of R103, the loops start (R78, R86). `first`: the operation's first gate,
where AGC starts from the value last written. -/
def gateStart (n : Nat) (o : ReadOp) (first : Bool) (s : State) : State :=
  let s := if first then put F.LANE_AGC_GAIN n (lane s n).startGain s else s
  let l := lane s n
  let f := if l.fmemZone = o.zone then l.fmem else 0
  let gain := if first then (l.startGain : Int) * 256 else l.chan.gain
  setLane n { l with phase := .acquire, op := some { o with missed := none }, cfg := laneCfg s n, chan := chanStart s n gain (sext 16 f),
                     syncOfs := none, gaps := [], acqGaps := [], sp := {} }
    (put F.LANE_STAT_STATE n 6 (put F.LANE_TR_STAT_FOFS n f s))

/-- READ_GATE (R78, R83, R86, R89, R103, R105, R122): the gate opens for the next sector of the lane's operation, once the synthesizer stands at
its zone; the target is checked at the operation's first gate. -/
def execReadGate (n : Fin 64) (s : State) : Answer :=
  let l := lane s n
  let st := fld F.LANE_STAT_STATE n s
  match l.op with
  | none => .next s
  | some o =>
    if l.phase != .idle then .next s
    else if o.ending then .next (readOpStop n s)
    else if o.failed then .next (readOpFail n 4 s)
    else if (st != 5 && st != 6) || l.loading || persOf s n != 0 || heatHolds s n then .next s
    else if !synAt s (armOf n) o.zone then .next (synWait n o.zone s)
    else
      let tlen := fld F.LANE_TGT_HI_TLEN n s
      if st = 5 && (tlen < 3 || 5 < tlen) then
        .next (readOpFail n 6 (report (140 + armOf n) none 8 5 o.psa 6 s))
      else .next (gateStart n o (st == 5) s)

/-- GAIN, FOFS, PHASE and, where adaptation is on, the taps take what the channel holds (R78, R86, R88). -/
def chanRegs (n : Nat) (h : Chan) (s : State) : State :=
  let s := put F.LANE_AGC_GAIN n (h.gain / 256).toNat s
  let s := put F.LANE_TR_STAT_FOFS n (lowBits 16 (chanFofs h)) (put F.LANE_TR_STAT_PHASE n (chanPhase h) s)
  if fld F.LANE_FIR_CTL_ADAPT n s = 0 then s
  else upTo 16 (fun k s => put2 F.LANE_FIR_TAP_ODD n k (lowBits 12 (h.taps.getD (2 * k + 1) 0))
    (put2 F.LANE_FIR_TAP_EVEN n k (lowBits 12 (h.taps.getD (2 * k) 0)) s)) s

/-- SYNC_FOUND (R78, R85, R86, R88, R90, R149): `bits` are those from the read gate to the last bit of the sync mark; where they match within the
window, codeword bit 0 is fixed and the lane asks for a soft-store slot. -/
def execSyncFound (n : Fin 64) (bits : List BitIn) (s : State) : Answer :=
  let l := lane s n
  let c := chanCfg s n ((l.op.map (·.psa)).getD 0)
  let h := chanRun c false bits l.chan
  let p := bits.length - acqEnd c - 1
  if l.phase != .acquire || h.wide || syncPos s n c bits != some p then .next s
  else
    let s := chanRegs n h (setLane n { l with phase := .data, syncOfs := some p, chan := chanSync h } s)
    .next (match lowestFree s.dec.slots 128, s.dec.waitList with
      | some k, [] => takeSlot k n s
      | _, _ => { (setLane n { lane s n with waitSlot := true } s) with
          dec := { s.dec with waitList := s.dec.waitList ++ [n.val] } })

/-! ### The end of a sector (R92–R100) -/

/-- The registers at the end of a sector: gain, taps, frequency offset, runs, counts, trims (R80, R86, R97, R98). -/
def sectorRegs (n : Nat) (z : Nat) (runs : List (Nat × Nat)) (h : Chan) (moves : List SubTrim) (s : State) : State :=
  let s := upTo 8 (fun k s => wr R.LANE_RUN n k
    (match runs[k]? with | some (a, b) => (b + 1 - a) % 65536 * 65536 + a % 65536 | none => 0) s) s
  let s := chanRegs n h (countN F.LANE_ERR_DEF n h.drops.length (countN F.LANE_ERR_TA n h.asps.length s))
  let l := lane s n
  setLane n { l with fmem := fld F.LANE_TR_STAT_FOFS n s, fmemZone := z,
                     trims := if flag F.LANE_ADC_CAL_BG n s then trimStep l.trims moves else l.trims } s

/-- STATUS of a sector's result (R62, R85, R90, R91, R94, R97, R99); `sync`: its sync mark was found; `waits`: its lane still waits for a soft-store
slot. With a missed resync and EMAX exceeded together the spec leaves open which of the two is reported. -/
def sectorStatus (s : State) (n : Nat) (o : ReadOp) (sync waits : Bool) (h : Chan) (erased : Nat) : Nat :=
  let ovf := fld F.LANE_ERA_EMAX n s < erased
  let miss := o.missed.isSome || h.wide
  if o.failed then 4
  else if !sync then 1
  else if h.full || waits then 7
  else if miss && ovf then (if Config.openVal 97 [o.psa] = 0 then 2 else 3)
  else if miss then 2
  else if ovf then 3 else 0

/-- The sector's registers, counters and result word, its soft words to the pool where STATUS lets them go, and the lane ready for the next
sector (R92, R96–R100). -/
def sectorRecord (n : Nat) (l : Lane) (o : ReadOp) (r : SectorRead) (s : State) : State × Nat :=
  let bits := codeN ((zoneOf s o.zone).map (·.strength) |>.getD 0)
  let c := chanCfg s n o.psa
  let sync := l.phase != .acquire
  let h := chanClose c (chanRun c sync r.bits l.chan)
  let runs := if sync then mergeRuns (erasureRanges s n bits o.missed h) else []
  let erased := erasedBits runs
  let st := sectorStatus s n o sync l.waitSlot h erased
  let sent := st = 0 || st = 2 || st = 3
  let w := laneWord st (min 8 runs.length) (8 < runs.length) (!h.asps.isEmpty) erased (if sync then chanMse h else 0) (l.syncOfs.getD 0xFFFF)
  let s := sectorRegs n o.zone runs h r.moves s
  let s := if st = 1 then count F.LANE_ERR_SYNC n s else if st = 2 then count F.LANE_ERR_RESYNC n s else s
  let s := if st = 7 then report (144 + armOf n) none 8 5 o.psa 7 s else s
  let s := sectorOut n w (if sent then markSoft bits runs h.soft.reverse else []) s
  let s := setLane n { lane s n with phase := .idle, slot := none, waitSlot := false, chan := h,
                                     op := some { o with psa := (readNext s o).1, left := (readNext s o).2, missed := none, lastOk := st == 0 } } s
  ({ s with dec := { s.dec with waitList := s.dec.waitList.filter (· != n) } }, st)

/-- SECTOR_READ_END (R85, R90, R92–R100, R104, R149): the sector's last bit has passed, or its sync search has ended without a match; its result
leaves the lane. The operation ends with its last sector, or early. -/
def execSectorReadEnd (n : Fin 64) (r : SectorRead) (s : State) : Answer :=
  let l := lane s n
  match l.op with
  | none => .next s
  | some o =>
    let c := chanCfg s n o.psa
    -- a sync mark that stands in the window is SYNC_FOUND's to take
    if l.phase == .idle || (l.phase == .acquire && !o.failed && !(chanRun c false r.bits l.chan).wide && (syncPos s n c r.bits).isSome) then .next s
    else
      let x := sectorRecord n l o r s
      if o.left ≤ 1 || x.2 = 7 || x.2 = 4 || o.ending || !linkUp x.1 (armOf n) then .next (readOpStop n x.1)
      else .next x.1

/-- A sector being written on head `h` is split by a servo gate that opens `pos` bit periods after its first preamble bit: the field in progress stops
at the split point, the postamble follows and the write gate closes (R115, R116). With too small an SLEAD what the sector holds on media is
undefined (R117). -/
def splitWrite (h : Nat) (pos : Int) (s : State) : State :=
  let a := armOf h
  match wop s a with
  | none => s
  | some o => match Tab.get? o.heads h, wbuf s h with
    | some x, b :: _ =>
      if !x.sgate || x.split then s
      else
        let fs := slotBits s h b.code
        let k := splitAt s h pos fs.length x.sp
        let und := o.undef || x.undef || sleadLow s h o.zone
        let bs := x.lead ++ (fs.drop x.sp.next).take (k - x.sp.next)
        let r := written (flag F.WP_CTL_PC_EN h s) (rd R.WP_PC h 0 s) x.hist (bs ++ postamble s h (bs.getLast?.getD false))
        let s := emit (.medium h b.psa (mediaBits und b.psa r.1)) s
        put F.WP_STAT_GATE h 0 (setWop a { o with heads := Tab.put o.heads h { x with split := true, sp := ⟨k, pos⟩, lead := [], hist := [], undef := und } } s)
    | _, _ => s

/-- A sector being read on lane `n` is split by a servo gate (R87, R91, R115). -/
def splitRead (n : Nat) (pos : Int) (s : State) : State :=
  let l := lane s n
  if l.phase == .idle then s
  else
    let total := headBits s n + codeN (((l.op.bind (fun o => zoneOf s o.zone)).map (·.strength)).getD 0)
    let k := splitAt s n pos total l.sp
    setLane n { l with phase := if l.phase == .data then .resync else l.phase, sp := ⟨k, pos⟩ } s

/-- SERVO_GATE_OPEN (R46, R62, R76, R87, R115, R116, R176): a servo gate opens on a head whose servo sampler is on, `pos` bit periods after the first
preamble bit of the sector in progress. Timing, AGC and adaptation hold; a sector being written or read is split; the head goes to READ before,
`acks` being what was acknowledged between its MODE frame and EXEC. -/
def execServoGateOpen (h : Fin 64) (pos : Int) (acks : List (BitVec 8)) (s : State) : Answer :=
  if !samplerOn s h then .next s
  else
    let s := readForGate h acks (splitRead h pos (splitWrite h pos s))
    .next (setHead h { head s h with gate := true, gateAt := pos } (put F.LANE_STAT_SERVO h 1 s))

/-- Bits taken since the read gate where a servo gate opens before the sync mark, `at'` bit periods after the sector's first preamble bit; where in
the preamble the read gate opened is open (R87, R89). -/
def acqIndex (l : Lane) (at' : Int) : Int :=
  max 0 (at' - Config.openVal 89 [((l.op.map (·.psa)).getD 0 : Nat)] - (l.acqGaps.foldl (fun n g => n + g.2) 0 : Nat))

/-- SERVO_GATE_CLOSE (R46, R87, R91, R115, R116, R176): after `len` bit periods the gate closes; that of a timer that is not locked stays
open. A split sector goes on RSOFS after it, a head that was writing is asked back to WRITE, and changes held back by the gate are sent. -/
def execServoGateClose (h : Fin 64) (len : Nat) (s : State) : Answer :=
  let a := armOf h
  let y := head s h
  if !y.gate || (hst s h != 0 && !bitAt (fld2 F.SRV_HST_LOCK (armOf h) (h.val % 16) s) 0) then .next s
  else
    let close := y.gateAt + len
    let s := setHead h { y with gate := false } (put F.LANE_STAT_SERVO h 0 s)
    let l := lane s h
    let s := if l.phase == .idle then s
      else
        let b := l.sp.next - headBits s h
        setLane h { l with sp := splitOn s h close l.sp.next, gaps := if l.phase == .resync then l.gaps ++ [(b, len)] else l.gaps,
                           acqGaps := if l.phase == .acquire then l.acqGaps ++ [(acqIndex l y.gateAt, len)] else l.acqGaps } s
    let s := match wop s a with
      | none => s
      | some o => match Tab.get? o.heads h.val with
        | some x => if x.split then setWop a { o with heads := Tab.put o.heads h.val { x with sp := splitOn s h close x.sp.next } } s else s
        | none => s
    let s := match wop s a with
      | some o => match Tab.get? o.heads h.val with
        | some x => if x.sgate && x.split && !o.ending then askPers h 1 0 s else s
        | none => s
      | none => s
    .next (wantSend a s)

/-- RESYNC_FOUND (R91): the search around the place that the held phase predicts is over; `decs` are the decisions from RWIN bits before it on.
Bit timing goes on, or every later codeword bit is erased. -/
def execResyncFound (n : Fin 64) (decs : List Bool) (s : State) : Answer :=
  let l := lane s n
  .next (match l.phase, l.op with
    | .resync, some o =>
      if (head s n).gate then s
      else
        let b := ((l.gaps.getLast?).map (·.1)).getD 0
        setLane n { l with phase := .data, op := some { o with missed := if resyncHit s n decs || o.missed.isSome then o.missed else some b } } s
    | _, _ => s)

/-- LANE_CAL_REQUEST (R79, R105): CAL written in SLEEP or PARK starts a foreground calibration; ignored elsewhere. -/
def execLaneCalRequest (n : Fin 64) (s : State) : Answer :=
  let st := fld F.LANE_STAT_STATE n s
  .next (if st = 1 ∨ st = 3 then
      govLimits (put F.LANE_STAT_STATE n 2 (put F.LANE_CTL_CAL n 1 s))
    else s)

/-- LANE_CAL_DONE (R79, R86, R105): the eight sub-converters take their trims; a residual offset above 64 LSB or skew above 10 ps fails the
calibration. A lane whose arm has its heads parked goes to PARK. -/
def execLaneCalDone (n : Fin 64) (subs : List SubCal) (s : State) : Answer :=
  if fld F.LANE_STAT_STATE n s ≠ 2 then .next s
  else
    let ofs := subs.foldl (fun m c => max m c.resOfs) 0
    let skew := subs.foldl (fun m c => max m c.resSkew) 0
    let s := setLane n { lane s n with trims := subs.map (·.trim) } s
    let s := put F.LANE_CTL_CAL n 0 (put F.LANE_ADC_OFS_MAX n (min 255 ofs) (put F.LANE_ADC_SKEW_MAX n (min 255 skew) s))
    if 64 < ofs ∨ 100 < skew then
      let s := put F.LANE_STAT_STATE n 1 (put F.LANE_STAT_CAL_FAIL n 1 s)
      .next (report (64 + n) none 8 0 0 0 (raiseEvent n (govLimits (setLane n { lane s n with fmem := 0 } s))))
    else
      let s := put F.LANE_STAT_CAL_FAIL n 0 s
      .next (govLimits (if !armParked s (armOf n) then put F.LANE_STAT_STATE n 3 s
        else setLane n { lane s n with fmem := 0 } (put F.LANE_STAT_STATE n 1 s)))

/-- SYN_TUNE (R81–R83): TUNE written 1 tunes to ZONE; ignored with no geometry active. -/
def execSynTune (arm : Fin 4) (w : BusW) (s : State) : Answer :=
  let a := arm.val
  let s := busWrite R.LANE_SYN_CTL a 0 w s
  .next (if wrote1 6 w && s.geo.isSome then
      synTuneTo a (fld F.LANE_SYN_CTL_ZONE a s) (put F.LANE_SYN_CTL_TUNE a 1 s)
    else s)

/-- SYN_LOCKED (R82, R83): LOCKED at its zone, unless another retune follows. -/
def execSynLocked (arm : Fin 4) (s : State) : Answer :=
  let a := arm.val
  if fld F.LANE_SYN_STAT_STATE a s ≠ 1 then .next s
  else match (syn s a).next with
    | some z => .next (synBegin a z s)
    | none =>
      let s := put F.LANE_SYN_CTL_TUNE a 0 (put F.LANE_SYN_STAT_STATE a 2 s)
      .next (setSyn a { syn s a with waiting := (syn s a).waiting.filter (fun n => match (lane s n).op with
        | some o => !synAt s a o.zone
        | none => false) } s)

/-- The synthesizer of arm `a` loses lock (R84, R125): the operations of the arm's active lanes end, a sector in progress with LOCK_LOST,
with EV072 + a and FC1, judged against the pending state given; it relocks by itself. -/
def synLost (pend fc3 a : Nat) (s : State) : State :=
  if fld F.LANE_SYN_STAT_STATE a s ≠ 2 then s
  else
    let s := permitFall a (put F.LANE_SYN_STAT_STATE a 1 s)
    let s := each (armHeads a) (fun n s => if fld F.LANE_STAT_STATE n s = 6 then
      (if (lane s n).phase == .idle then readOpStop n s else readOpFail n 5 s) else s) s
    reportAt pend fc3 false (140 + a) none 8 0 0 5 (raiseEvent (72 + a) s)

/-- SYN_LOCK_LOST (R84, R125). -/
def execSynLockLost (arm : Fin 4) (s : State) : Answer :=
  .next (synLost (fld F.FLT_STAT_PENDING 0 s) (fld F.FLT_FC3_PEND_PEND 0 s) arm.val s)

/-- SYN_WAIT_TIMEOUT (R83, R120): operations that still wait for the lock end LOCK_LOST on their first sector. -/
def execSynWaitTimeout (arm : Fin 4) (s : State) : Answer :=
  let a := arm.val
  let ws := (syn s a).waiting
  let s := setSyn a { syn s a with waiting := [] } s
  let s := each ws (fun n s => match (lane s n).op with
    | some o => if synAt s a o.zone then s else readOpFail n 5 s
    | none => s) s
  .next (match wop s a with
    | some o => if o.gated || o.ending || synAt s a o.zone then s else cutWrite a (fun _ => 3) s
    | none => s)

/-- SLOT_GRANT (R149): the lane that has waited longest takes a freed slot. -/
def execSlotGrant (s : State) : Answer :=
  .next (match s.dec.waitList, lowestFree s.dec.slots 128 with
    | n :: ns, some k => takeSlot k n { s with dec := { s.dec with waitList := ns } }
    | _, _ => s)

end Sys2Proof.Machine
end

