-- ==== Sys2Proof/Machine/Clocks.lean ====
section
/-! DEFINITION. Clock monitors, RETRACT_N, arm domains, sleep levels, power-up and the resets of the cores (R517–R536, R551). -/

namespace Sys2Proof.Machine

open Sys2Proof

/-! ### Clock monitors (R521–R524) -/

/-- The monitor of source `i` (checker 8 + i) is armed (R521); in L1.1 and L1.2 CLKREQ_N is high. -/
def monArmed (s : State) (i : Nat) : Bool :=
  if i = 0 then true
  else if i = 2 then 2000000000 ≤ s.time || s.cpr.aonSleep || fld F.CPR_RST_CAUSE 0 s == 2
  else if i = 3 then 2 ≤ s.cpr.stage && !fabOff s
  else if i = 4 then 2 ≤ s.cpr.stage && !flag F.CPR_PD_STAT_DRAM_SR 0 s
  else
    let l := fld F.HIF_LINK_STAT_LSTATE 0 s
    !s.cpr.unseen.testBit 1 && !s.cpr.perst && l != 5 && l != 6

/-- A running dump stops without a header; the previous one stands (R546). -/
def dumpStop (s : State) : State :=
  if fld F.CPR_DUMP_CTL_STATE 0 s ≠ 2 then s
  else put F.CPR_DUMP_CTL_STATE 0 0 (put F.CPR_DUMP_CTL_ARM 0 0 { s with cpr := { s.cpr with dump := none } })

/-- The further effects of a loss (R523). -/
def clkFurther (i pend fc3 : Nat) (s : State) : State :=
  if i = 0 then upTo 4 (synLost pend fc3) (put F.CPR_CLK_BKO 0 1 (put F.CPR_CLKMON_HOLDOVER 0 1 s))
  else if i = 2 then put F.MGT_STAT_RC_TIME 0 1 s
  else if i = 3 || i = 4 then dumpStop (dramSleep s)
  else s

/-- CLOCK_SOURCE_LOST (R521–R523, R530): the asynchronous response, then the record by checker 8 + i. A loss ends STANDBY. -/
def execClockSourceLost (i : Fin 6) (s : State) : Answer :=
  let i := i.val
  .next (if !monArmed s i || bit F.CPR_CLKMON_LOST 0 i s then s
    else
      let pend := fld F.FLT_STAT_PENDING 0 s
      let fc3 := fld F.FLT_FC3_PEND_PEND 0 s
      clkFurther i pend fc3 (reportAt pend fc3 false (8 + i) none 0 0 0 0 (clkSafe i (standbyWake s))))

/-- The frozen link goes through Recovery, and what waited for it is sent (R522). -/
def linkThaw (s : State) : State :=
  if !s.cpr.frozen then s
  else
    let l := fld F.HIF_LINK_STAT_LSTATE 0 s
    let s := if 2 ≤ l && l ≤ 6 then put F.HIF_LINK_STAT_LSTATE 0 3 s else s
    each s.cpr.held emit { s with cpr := { s.cpr with frozen := false, held := [] } }

/-- CLOCK_SOURCE_RETURNED (R524 steps 1 and 2). RETRACT_N stays low. -/
def execClockSourceReturned (i : Fin 6) (s : State) : Answer :=
  let i := i.val
  .next (if !bit F.CPR_CLKMON_LOST 0 i s then s
    else
      let s := raiseEvent 142 (condFalls (8 + i) (putFBit F.CPR_CLKMON_LOST 0 i false s))
      let s := if i = 0 then put F.CPR_CLK_BKO 0 0 (put F.CPR_CLKMON_HOLDOVER 0 0 s) else s
      let s := if fld F.CPR_CLKMON_LOST 0 s = 0 then linkThaw (putFBit F.CPR_RETRACT_CAUSE 0 1 false s) else s
      if i = 3 || i = 4 then dramWake s else s)

/-! ### RETRACT_N (R203, R525) -/

/-- CPR_RETRACT_SET (R525). -/
def execCprRetractSet (w : BusW) (s : State) : Answer := .next (if wrote1 0 w then retractCause 4 s else s)

/-- CPR_RETRACT_REL (R188, R203, R525): RETRACT_N rises unless a clock loss, a power loss or the safe state holds; each arm then leaves RETRACT
by what its first STAT reports, and one that unloads takes its command up. -/
def execCprRetractRel (w : BusW) (s : State) : Answer :=
  let c := fld F.CPR_RETRACT_CAUSE 0 s
  .next (if !wrote1 1 w || c.testBit 1 || c.testBit 2 || c.testBit 3 || !retractLow s then s
    else
      let s := put F.CPR_RETRACT_CAUSE 0 0 (put F.CPR_RETRACT_LOW 0 0 s)
      upTo 4 (fun a s =>
        let i := match (arm s a).phase with
          | .climb => fld F.SRV_PARK_UNLOAD_I a s
          | .park => fld F.SRV_PARK_PARK_I a s
          | _ => 0
        if mode s a = 9 then setArm a { arm s a with judge := true } s
        else if mode s a = 8 then setVcm a (sext 16 i) s else s) s)

/-! ### Arm domains (R528) -/

/-- A write to CPR_PD's plain fields other than ARM_ON and STANDBY, which have rows. -/
def pdWrite (w : BusW) (s : State) : State :=
  let t := busWrite R.CPR_PD 0 0 w s
  put F.CPR_PD_ARM_ON 0 (fld F.CPR_PD_ARM_ON 0 s) (put F.CPR_PD_STANDBY 0 (fld F.CPR_PD_STANDBY 0 s) t)

/-- ARM_DOMAIN_ON (R528). -/
def execArmDomainOn (arm : Fin 4) (w : BusW) (s : State) : Answer :=
  let a := arm.val
  let s := pdWrite w s
  .next (if !wrote1 a w || armUp s a || flag F.CPR_PL_LOSS 0 s then s else armOn a (putFBit F.CPR_PD_ARM_ON 0 a true s))

/-- ARM_DOMAIN_OFF (R528): ignored unless the arm is OFF or PARKED. -/
def execArmDomainOff (arm : Fin 4) (w : BusW) (s : State) : Answer :=
  let a := arm.val
  let s := pdWrite w s
  .next (if !wrote0 a w || 2 ≤ mode s a then s
    else
      let s := putFBit F.CPR_PD_ARM_ON 0 a false s
      if armUp s a then armOff a s else s)

/-! ### Sleep (R529–R531) -/

/-- STANDBY_REQUEST (R530): the request stands until STANDBY is entered, or is written 0. -/
def execStandbyRequest (w : BusW) (s : State) : Answer :=
  let s := pdWrite w s
  .next (if wrote1 8 w then put F.CPR_PD_STANDBY 0 1 s else if wrote0 8 w then put F.CPR_PD_STANDBY 0 0 s else s)

/-- What STANDBY waits for (R530). -/
def standbyOk (s : State) : Bool :=
  flag F.CPR_PD_STANDBY 0 s && s.cpr.stage == 3 && s.deck.cmds.isEmpty && (List.range 32).all (fun n => (ych s n).cur.isNone && yrdAvail s n == 0) && s.spr.ops.isEmpty && (descNext s).isNone &&
    fld F.CPR_PD_STAT_ARM_UP 0 s == 0 && spmSt s == 1 && fld F.HIF_LINK_STAT_LSTATE 0 s == 6 &&
    (List.range 64).all (fun f => !fnOn s f || fld F.CFG_PSTATE f s == 3)

/-- STANDBY_ENTER (R530): core and fabric in retention, the landing in self-refresh. -/
def execStandbyEnter (s : State) : Answer :=
  .next (if fabOff s || !standbyOk s then s
    else dramSleep (put F.CPR_PD_STAT_LEVEL 0 1 (put F.CPR_PD_STAT_FAB_RET 0 1 (spmEnter 0 s))))

/-- STANDBY_WAKE (R530): a TLP or a PERST_N change at the host domain. -/
def execStandbyWake (s : State) : Answer := .next (standbyWake s)

/-- CPR_WAKE (R530): a Lyolo request. -/
def execCprWake (w : BusW) (s : State) : Answer :=
  let s := pdWrite w s
  .next (if wrote1 10 w then standbyWake s else s)

/-- AON_SLEEP_ENTER (R531): PERST_N has been low for PERST_MS ms. -/
def execAonSleepEnter (s : State) : Answer :=
  .next (if s.cpr.aonSleep || !s.cpr.perst || !flag F.CPR_PD_AON_OK 0 s || s.cpr.stage = 0 || s.time < s.cpr.perstAt + 1000000 * fld1 F.CPR_PD_PERST_MS 0 s then s
    else
      let s := domainsOff s
      { s with cpr := { s.cpr with aonSleep := true } })

/-- AON_SLEEP_EXIT (R531). -/
def execAonSleepExit (s : State) : Answer := .next (if s.cpr.aonSleep then aonExit s else s)

/-! ### Power-up (R500, R532, R551) -/

/-- AON_POWER_ON (R532 steps 1 and 2, R557): `test`, TESTMODE is high. -/
def execAonPowerOn (test : Bool) (s : State) : Answer :=
  .next (if s.cpr.supplies then s
    else
      let s := powerOnReset s
      { s with cpr := { s.cpr with supplies := true, testMode := test } })

/-- AON_SUPPLY_FALL (R551): power-on reset is held in every domain. -/
def execAonSupplyFall (s : State) : Answer :=
  .next (if !s.cpr.supplies then s
    else
      let s := powerOnReset s
      { s with cpr := { s.cpr with supplies := false } })

/-- DOMAINS_POWER_UP (R218, R527, R528, R532 step 3): with the fabric the spindle is STOPPED and shock sensing starts. Arm domains whose
ARM_ON has outlasted AON_SLEEP come up. -/
def execDomainsPowerUp (s : State) : Answer :=
  .next (if !s.cpr.supplies || s.cpr.aonSleep || s.cpr.stage ≠ 0 || flag F.CPR_PL_LOSS 0 s then s
    else
      let s := shockStart (spmEnter 1 { s with cpr := { s.cpr with stage := 1 } })
      upTo 4 (fun a s => if bit F.CPR_PD_ARM_ON 0 a s then armOn a s else s) s)

/-- The boot ROM takes the first slot of an order whose image passes (R500 step 3). -/
def bootPick (l : List Nat) (s : State) : Nat × State :=
  l.foldl (fun (r : Nat × State) k =>
    if r.1 ≠ 0 then r
    else
      let c := imgCheck (.nor (slotAddr k)) r.2
      (if c.1 then k else 0, c.2)) (0, s)

/-- The life record ring is read, PCYCLE advances, and a record of the new values is written (R490). -/
def lifeBoot (s : State) : State :=
  let best := lifeBest s
  let pc := (best.map (·.1)).getD 0
  let sec := (best.map (fun e => e.2.1)).getD 0
  let aon := fld F.CPR_RST_CAUSE 0 s = 2
  let s := put F.BLZ_TIME_PCYCLE 0 (min 16777215 (pc + 1)) (if aon then s else put F.BLZ_TIME_SECONDS 0 sec s)
  lifeSave { s with mgt := { s.mgt with life := lifeNext s }, blz := { s.blz with lastPcycle := pc } }

/-- PLLS_LOCKED (R447, R490, R500 steps 1 to 3, R532 step 4, R557): the boot ROM starts, and the blaze scans its NOR; with TESTMODE high at
power-on reset Scetus does not boot. -/
def execPllsLocked (s : State) : Answer :=
  .next (if s.cpr.stage ≠ 1 || s.cpr.testMode then s
    else
      let s := lifeBoot { s with cpr := { s.cpr with stage := 2, lyHeld := false } }
      let next := ((selector s).map (·.next)).getD 0
      let r := bootPick (bootOrder s) (put F.BLZ_STAT_STATE 0 1 s)
      { r.2 with mgt := { r.2.mgt with boot := r.1, next := r.1 ≠ 0 && r.1 = next } })

/-! ### Cores (R535, R536) -/

/-- Slots a reload tries: ACTIVE, then those of FALLBACK. -/
def reloadOrder (s : State) : List Nat := match selector s with
  | none => []
  | some x => (x.active :: x.fall).filter (fun k => 1 ≤ k && k ≤ 4)

/-- WARM_RESET (R535 step 1). -/
def execWarmReset (w : BusW) (s : State) : Answer :=
  .next (if wrote1 0 w && s.cpr.stage = 3 then warmReset s else s)

/-- WARM_RESET_RELOAD_DONE (R535 steps 2 and 3): the segments come from the ACTIVE slot, or the next that passes; with none the cores stay
held. -/
def execWarmResetReloadDone (s : State) : Answer :=
  .next (if !s.cpr.warm || flag F.FLT_STAT_SAFE 0 s || flag F.CPR_PL_LOSS 0 s then s
    else
      let r := bootPick (reloadOrder s) s
      if r.1 = 0 then r.2
      else
        let s := segsLoad false (.nor (slotAddr r.1)) r.2
        { s with cpr := { s.cpr with cpHeld := false, warm := false } })

/-- LYOLO_RESET (R536): writes from the Lyolo core are ignored. -/
def execLyoloReset (m : Master) (w : BusW) (s : State) : Answer :=
  .next (if m = .lyolo || !wrote1 1 w || s.cpr.stage ≠ 3 then s else lyoloReset s)

/-- The Lyolo core itself caused the safe state: it stays held (R476). -/
def lyFault (s : State) : Bool :=
  let k := fld2 F.FLT_FIRST_CAPTURE 4 0 s % 256
  flag F.FLT_STAT_SAFE 0 s && (k == 216 || k == 217)

/-- LYOLO_BOOT_DONE (R486, R536): the management segments are reloaded and management firmware starts, its watchdog running. -/
def execLyoloBootDone (s : State) : Answer :=
  .next (if !s.cpr.lyHeld || s.cpr.stage ≠ 3 || lyFault s || flag F.CPR_PL_LOSS 0 s then s
    else
      let r := bootPick (reloadOrder s) s
      if r.1 = 0 then r.2
      else
        let s := put F.MGT_WDT_EN 0 1 (segsLoad true (.nor (slotAddr r.1)) r.2)
        { s with cpr := { s.cpr with lyHeld := false }, mgt := { s.mgt with wdt := s.time } })

end Sys2Proof.Machine
end

