-- ==== Sys2Proof/Machine/Decoder.lean ====
section
/-! DEFINITION. Commands of the decoder pool (R145–R174). -/

namespace Sys2Proof.Machine

open Sys2Proof

/-- Ready slots in order of readiness (R152). -/
def readySlots (s : State) : List (Nat × Slot) :=
  sortBy (fun x => x.2.ready) (s.dec.slots.filter (fun e => e.2.full && e.2.engine.isNone && !e.2.capped))

/-- The fast engine that takes a codeword: the lowest-numbered one that is awake, not fenced and has an input buffer free (R152). -/
def freeFast (s : State) : Option Nat :=
  (List.range 16).find? (fun e => (eng s e).awake && !engFenced s e && !engOver s e && (eng s e).slots.length < 2)

/-- A fast engine that can be woken for a codeword: asleep, not fenced, within the limit. That the lowest-numbered one is taken is the model's
choice (R152; DESIGN CHOICE, log entry 60). -/
def sleepFast (s : State) : Option Nat :=
  (List.range 16).find? (fun e => !(eng s e).awake && !(eng s e).waking && !engFenced s e && engAwake s e < engLimit s e)

/-- FAST_DECODE_START (R149, R151, R152): the slot that has been ready longest goes to a fast engine with its iteration cap, or, with none
available, to one that is asleep and wakes for it. -/
def execFastDecodeStart (k : Fin 128) (s : State) : Answer :=
  match (readySlots s).head? with
  | none => .next s
  | some (j, sl) =>
    if j ≠ k.val then .next s
    else match (freeFast s).or (sleepFast s) with
      | none => .next s
      | some e =>
        let s := engWake e (setSlot j { sl with engine := some e, cap := nextCap s } s)
        .next (setEng e { eng s e with slots := (eng s e).slots ++ [j] } s)

/-- ENGINE_WAKE_DONE (R172): the engine is awake; beyond its limit and without work it sleeps again. -/
def execEngineWakeDone (e : Fin 18) (s : State) : Answer :=
  let x := eng s e
  .next (if x.waking then surplusSleep e (setEng e { x with waking := false, awake := !engFenced s e } s) else s)

/-- ALPHA and ET of DEC_ALG (R150). -/
def algAlpha (s : State) : Nat := if fld F.DEC_ALG_ALPHA 0 s = 0 then 16 else min 16 (fld F.DEC_ALG_ALPHA 0 s)
def algEt (s : State) : Bool := flag F.DEC_ALG_ET 0 s

/-- Strength step of the zone of a sector (R146). -/
def stepOfPsa (s : State) (psa : Nat) : Nat := ((zoneOf s (psaZone psa)).map (·.strength)).getD 0

/-- The fast decode of a slot's soft words within its cap (R150, R151). -/
def fastDecode (s : State) (sl : Slot) : Decoded :=
  let v := sl.soft.map softVal
  decode (stepOfPsa s sl.key.psa) (algAlpha s) (algEt s) sl.cap v v

/-- A recovery job on its context (R159, R160). That the input values which FLIPS of an ERASE decode compares with are the context's accumulated
values, before widening, LTHR marking and peeling, is the model's choice (R170; DESIGN CHOICE, log entry 62). -/
def jobDecode (s : State) (x : Ctx) (j : JobKind) : Decoded :=
  let st := stepOfPsa s x.key.psa
  let v := List.zipWith (fun a e => if e then 0 else a) x.acc x.eras
  decode st (algAlpha s) (algEt s) (min 64 (fld1 F.DEC_ALG_DR_MAX 0 s)) v (match j with
    | .erase pad lthr => eraseStart st pad lthr x.runs x.acc x.eras
    | _ => v)

/-- A soft-store error met while a slot was loaded (R149). -/
def slotEcc (ecc : Ecc) (s : State) : State := if ecc = .ok then s else report 178 none 9 0 0 0 (count F.DEC_ERR_SLOT 0 s)

/-- FAST_DECODE_END (R149, R150, R154–R158, R163): the codeword at the front of the engine is decoded; it converges and is checked and
delivered, or the sector goes to the ladder. A double-bit slot error is a non-media failure. -/
def execFastDecodeEnd (e : Fin 16) (ecc : Ecc) (s : State) : Answer :=
  match (eng s e).awake, (eng s e).slots with
  | false, _ => .next s
  | _, [] => .next s
  | true, k :: ks =>
    let s := surplusSleep e (setEng e { eng s e with slots := ks } s)
    match slot s k with
    | none => .next s
    | some sl =>
      let d := fastDecode s sl
      let s := slotEcc ecc s
      if ecc = .bad then .next (nonMediaFail sl.it sl.key.psa sl.lane (bitsOf sl.res 63 56) sl.retry (releaseSlot k s))
      else
      let r := sectorCheck sl.key.psa d s
      let s := r.2
      let p := pastOf s sl.key (bitsOf sl.res 63 56)
      let lst := p.lstat
      let s := if d.converged then s else count F.DEC_ERR_CAPPED 0 s
      match r.1, sl.retry with
      | some blk, none =>
        let s := releaseSlot k { s with dec := { s.dec with mse := bitsOf sl.res 31 16 } }
        if sl.it.aborted then .next (sectorFinal sl.it sl.key.psa (resultWord 6 0 1 d.iters 0 e sl.lane false lst) 0 0 [] s)
        else .next (deliver sl.it sl.key.psa (resultWord 0 0 1 d.iters d.flips e sl.lane false lst) blk
          (put F.DEC_CNT_OK_COUNT 0 (fld F.DEC_CNT_OK_COUNT 0 s + 1) s))
      | some blk, some c => .next (ladderOk c e d blk (releaseSlot k s))
      | none, none =>
        if sl.it.aborted then
          .next (sectorFinal sl.it sl.key.psa (resultWord 6 0 1 d.iters 0 e sl.lane false lst) 0 0 [] (releaseSlot k s))
        else .next (ladderEnter sl.it sl.key.psa (some k) sl.lane { p with iters := d.iters, eng := e } s)
      | none, some c =>
        let s := match ctx s c with
          | some x => setCtx c { x with iters := d.iters, eng := e } s
          | none => s
        .next (retryFailed c sl.soft (releaseSlot k s))

/-- A double-bit error in the slot that a context is copied from: the sector leaves its context and goes back as a non-media failure (R149, R154). -/
def copyBad (c : Nat) (x : Ctx) (hd : Nat) (s : State) : State :=
  let p : Past := ⟨x.lstat, x.iters, x.eng, x.used.take (x.used.length - 1)⟩
  let s := freeCtx c { s with dec := { s.dec with past := (x.key, p) :: s.dec.past.filter (fun e => e.1 != x.key) } }
  nonMediaFail { x.it with aborted := x.it.aborted || x.abort } x.key.psa hd x.lstat none s

/-- CONTEXT_COPY_DONE (R149, R154, R158, R159): the soft words stand in the context, the slot is free, and the ladder begins. -/
def execContextCopyDone (k : Fin 128) (ecc : Ecc) (s : State) : Answer :=
  match s.dec.ctxs.find? (fun e => e.2.wait == .copy k.val), slot s k with
  | some (c, x), some sl =>
    let s := slotEcc ecc (releaseSlot k s)
    .next (if ecc = .bad then copyBad c x sl.lane s else ladderStep c (setCtx c { addRead sl.soft x with wait := .step } s))
  | _, _ => .next s

/-- A recovery job waits in context `x`. -/
def jobOf (x : Ctx) : Option JobKind := match x.wait with | .job j => some j | _ => none

/-- Recovery jobs that no engine has, urgent items first, then in order of readiness (R161). -/
def waitingJobs (s : State) : List (Nat × JobKind) :=
  let taken := [16, 17].filterMap (fun e => (eng s e).job.map (·.1))
  let js := s.dec.ctxs.filterMap (fun (c, x) => (jobOf x).map (fun j => (c, x, j)))
  let js := js.filter (fun (c, _, _) => !taken.contains c)
  ((sortBy (fun e => e.2.1.ready) (js.filter (fun e => e.2.1.it.urgent))) ++ (sortBy (fun e => e.2.1.ready) (js.filter (fun e => !e.2.1.it.urgent)))).map
    (fun (c, _, j) => (c, j))

/-- RECOVERY_JOB_START (R161, R169, R172): the first waiting job goes to a recovery engine that is free, awake and not fenced; with none awake one
is woken. That DR0 comes first where both could is the model's choice (DESIGN CHOICE, log entry 60). With both fenced the attempts end. -/
def execRecoveryJobStart (s : State) : Answer :=
  match waitingJobs s with
  | [] => .next s
  | (c, j) :: _ =>
    if drFenced s then .next (drFail s)
    else match [16, 17].find? (fun e => (eng s e).awake && !engFenced s e && !engOver s e && (eng s e).job.isNone) with
    | some e => .next (setEng e { eng s e with job := some (c, j) } s)
    | none => .next (match [16, 17].find? (fun e => !(eng s e).awake && !(eng s e).waking && !engFenced s e) with
      | some e => engWake e s
      | none => s)

/-- RECOVERY_JOB_END (R155, R160–R163): the job's decode recovers the sector or the ladder goes on. -/
def execRecoveryJobEnd (e : Fin 2) (s : State) : Answer :=
  let en := 16 + e.val
  match (eng s en).job with
  | none => .next s
  | some (c, j) =>
    let s := surplusSleep en (setEng en { eng s en with job := none } s)
    match ctx s c with
    | none => .next s
    | some x =>
      let d := jobDecode s x j
      let s := setCtx c { x with iters := d.iters, eng := en, wait := .step } s
      let r := sectorCheck x.key.psa d s
      match r.1 with
      | some blk => .next (ladderOk c en d blk r.2)
      | none => .next (ladderStep c r.2)

/-- LADDER_TMAX (R167): TMAX has passed; steps not yet started except PARITY are skipped. -/
def execLadderTmax (c : Fin 32) (s : State) : Answer :=
  .next (match ctx s c with
    | none => s
    | some x => if fld F.DEC_LADDER_CTL_TMAX 0 s = 0 || s.time < x.entered + 1000000 * fld F.DEC_LADDER_CTL_TMAX 0 s then s else setCtx c { x with tmax := true } s)

/-- ENGINE_SLEEP (R172): an idle engine goes to sleep. -/
def execEngineSleep (e : Fin 18) (s : State) : Answer :=
  let x := eng s e
  .next (if x.awake && x.slots.isEmpty && x.job.isNone then setEng e { x with awake := false } s else s)

/-- DEC_FENCE_WRITE (R169, R173). -/
def execDecFenceWrite (w : BusW) (s : State) : Answer := .next (drFail (fenceChange s (busWrite R.DEC_FENCE 0 0 w s)))

/-- ENGINE_PARITY_ERROR (R173): checker 160 + e or 176 + e records it in FC2, whose action fences the engine. -/
def execEngineParityError (e : Fin 18) (s : State) : Answer :=
  let chk := if e.val < 16 then 160 + e.val else 176 + (e.val - 16)
  let t := report chk none 9 0 0 0 s
  .next (drFail (fenceChange s t))

/-- DEC_BIST_START (R174): ignored unless the engine is fenced and idle. -/
def execDecBistStart (w : BusW) (s : State) : Answer :=
  let s := busWrite R.DEC_BIST 0 0 w s
  let e := fld F.DEC_BIST_ENG 0 s
  let x := eng s e
  .next (if wrote1 31 w && s.dec.bist.isNone && e < 18 && engFenced s e && x.slots.isEmpty && x.job.isNone then
      put F.DEC_BIST_START 0 1 { s with dec := { s.dec with bist := some e } }
    else s)

/-- DEC_BIST_DONE (R174): DONE sets, PASS shows the result, EV135. -/
def execDecBistDone (pass : Bool) (s : State) : Answer :=
  .next (match s.dec.bist with
    | none => s
    | some _ => raiseEvent 135 (put F.DEC_BIST_PASS 0 pass.toNat (put F.DEC_BIST_DONE 0 1 (put F.DEC_BIST_START 0 0
        { s with dec := { s.dec with bist := none } }))))

end Sys2Proof.Machine
end

