-- ==== Sys2Proof/Machine/Dump.lean ====
section
/-! DEFINITION. The power-loss signal, the dump to the safe store and its restore (R537–R546). -/

namespace Sys2Proof.Machine

open Sys2Proof

/-- POWER_LOSS_SIGNAL (R537): PWRFAIL_N low. -/
def execPowerLossSignal (s : State) : Answer :=
  .next (if flag F.CPR_PL_PWRFAIL_EN 0 s && s.cpr.stage ≠ 0 then powerLoss s else s)

/-- A page whose program failed holds open data. -/
def nandSpoil (row : Nat) (s : State) : State :=
  let bs := (List.range pageBytes).map (fun k => byte (Config.openVal 540 [(row : Int), (k : Int), (s.time : Int)]).toNat)
  { s with cpr := { s.cpr with nand := Tab.put s.cpr.nand row bs } }

def setDump (d : Option DumpRun) (s : State) : State := { s with cpr := { s.cpr with dump := d } }

/-- The dump is over: the engine is IDLE and no longer armed. -/
def dumpIdle (s : State) : State :=
  let t := put F.CPR_DUMP_CTL_STATE 0 0 (put F.CPR_DUMP_CTL_ARM 0 0 (setDump none s))
  { t with cpr := { t.cpr with protMoved := false } }

/-- The spares are exhausted: no header (R546). -/
def dumpFail (s : State) : State := put F.CPR_DUMP_CTL_ERR 0 4 (dumpIdle s)

/-- The dump engine reads the granules of data page `p`, with their outcomes: one that is uncorrectable is dumped poisoned (R411, R416). -/
def dumpLook (p : Nat) (ecc : List Ecc) (s : State) : State :=
  if dumpData s ≤ p then s else (eccReads 14 (granulesOf (protBase s + pageBytes * p) pageBytes) ecc s).2

/-- DUMP_PAGE_DONE (R411, R539, R540): the next page before the header has been read, with outcomes `ecc`, and its program ends; a failed one moves
the rest of its block to the next spare. -/
def execDumpPageDone (ok : Bool) (ecc : List Ecc) (s : State) : Answer :=
  .next (match s.cpr.dump with
    | none => s
    | some d =>
      if fld F.CPR_DUMP_CTL_STATE 0 s ≠ 2 || dumpPages s ≤ d.page + 1 then s
      else match dumpAt s d.remaps d.page with
        | none => dumpFail s
        | some eg =>
          let s := dumpLook d.page ecc s
          if ok then
            setDump (some { d with page := d.page + 1 }) (put F.CPR_DUMP_STAT_PAGES 0 (d.page + 1) (nandProgram (dumpRow s eg) (dumpPage s d.page) s))
          else
            let t := nandSpoil (dumpRow s eg) s
            match dumpSpare s d.spares with
            | none => dumpFail t
            | some sp =>
              if 8 ≤ d.remaps.length then dumpFail t
              else
                let r := d.remaps ++ [(eg.1, eg.2, sp)]
                setDump (some { d with remaps := r, spares := d.spares + 1 }) (put F.CPR_DUMP_STAT_REMAPS 0 r.length t))

/-- Where the header goes: its own page, or page 0 of the spare a failed program has moved it to. -/
def dumpHeaderAt (s : State) (d : DumpRun) : Option (Nat × Nat) := match d.header with
  | some e => some (e, 0)
  | none => dumpAt s d.remaps d.page

/-- Steps 5 and 6 of R538: the domains are unpowered, and with the supplies still there a power-on reset follows the end of a power-loss
dump. -/
def powerOff (cause : Nat) (supplies : Bool) (s : State) : State :=
  if !flag F.CPR_PL_LOSS 0 s then s
  else if supplies && cause = 0 then put F.CPR_RST_CAUSE 0 1 (powerOnReset s)
  else domainsOff s

/-- What the dump holds of the write cache and the images of in-place passes (R257, R258); of a region that LND_PROT has left, nothing is said (R416).
-/
def dumpSave (s : State) : State :=
  let keep := fun (i : Nat) => !s.cpr.protMoved || Config.openVal 416 [1, i] != 0
  let images := (Tab.vals s.spr.passes).filter inPlace
  { s with cpr := { s.cpr with
    savedCache := (s.deck.cache.zipIdx.filter (fun e => keep (2 * e.2))).map (·.1)
    savedImages := (images.zipIdx.filter (fun e => keep (2 * e.2 + 1))).map (·.1) } }

/-- DUMP_END (R538–R540, R543, R546): the header is programmed once every page is, and the domains go. A failed program moves the header.
After a power-loss signal with no dump running only steps 5 and 6 of R538 are left. -/
def execDumpEnd (ok supplies : Bool) (s : State) : Answer :=
  .next (match s.cpr.dump with
    | none => if s.cpr.stage = 0 then s else powerOff 0 supplies s
    | some d =>
      if fld F.CPR_DUMP_CTL_STATE 0 s ≠ 2 || d.page + 1 ≠ dumpPages s then s
      else match dumpHeaderAt s d with
        | none => powerOff d.cause supplies (dumpFail s)
        | some eg =>
          if ok then
            let s := put F.CPR_DUMP_STAT_PAGES 0 (d.page + 1) (nandProgram (dumpRow s eg) (dumpHeader s d) s)
            powerOff d.cause supplies (dumpIdle (dumpSave s))
          else
            let t := nandSpoil (dumpRow s eg) s
            match dumpSpare s d.spares with
            | none => powerOff d.cause supplies (dumpFail t)
            | some sp => setDump (some { d with header := some sp, spares := d.spares + 1 }) t)

/-- A write to CPR_DUMP_CTL without the effects of ARM and RESTORE. -/
def dumpCtlWrite (w : BusW) (s : State) : State := put F.CPR_DUMP_CTL_ARM 0 (fld F.CPR_DUMP_CTL_ARM 0 s) (busWrite R.CPR_DUMP_CTL 0 0 w s)

/-- DUMP_ARM (R545): ignored with ERR unless enough entries are VALID; written 0, it disarms. -/
def execDumpArm (w : BusW) (s : State) : Answer :=
  let s := dumpCtlWrite w s
  let st := fld F.CPR_DUMP_CTL_STATE 0 s
  .next (if 2 ≤ st then s
    else if wrote1 0 w then
      if st = 1 then s
      else if (dumpEntries s).length < dumpNeed s then put F.CPR_DUMP_CTL_ERR 0 5 s
      else put F.CPR_DUMP_CTL_ERR 0 0 (put F.CPR_DUMP_CTL_STATE 0 1 (put F.CPR_DUMP_CTL_ARM 0 1 s))
    else if wrote0 0 w then put F.CPR_DUMP_CTL_STATE 0 0 (put F.CPR_DUMP_CTL_ARM 0 0 s)
    else s)

/-- DUMP_RESTORE (R544): ignored unless the engine is IDLE. -/
def execDumpRestore (w : BusW) (s : State) : Answer :=
  let s := dumpCtlWrite w s
  .next (if wrote1 1 w && fld F.CPR_DUMP_CTL_STATE 0 s = 0 && !flag F.CPR_PL_LOSS 0 s then put F.CPR_DUMP_CTL_ERR 0 0 (put F.CPR_DUMP_CTL_STATE 0 3 s) else s)

/-! ### Restore (R544) -/

/-- Rows where a header may stand: its own page, then the pages of the spares. -/
def headerRows (s : State) : List Nat :=
  let own := ((dumpPlace s (dumpPages s - 1)).map (dumpRow s)).toList
  own ++ ((dumpEntries s).drop (dumpNeed s)).flatMap (fun e => (List.range (dumpPpb s)).map (fun g => dumpRow s (e, g)))

/-- The header found: the first valid one. -/
def headerFind (s : State) : Option (List Byte) :=
  ((headerRows s).map (fun r => (nandRead s r).take 256)).find? dumpHeaderOk

/-- The remaps of a header. -/
def headerRemaps (b : List Byte) : List (Nat × Nat × Nat) :=
  (List.range (min 8 (le b 7 1))).map (fun i => (le b (0x60 + 8 * i) 1, le b (0x61 + 8 * i) 2, le b (0x63 + 8 * i) 1))

/-- Page `p` of the dump as the store returns it. -/
def restorePage (s : State) (b : List Byte) (p : Nat) : List Byte := match dumpAt s (headerRemaps b) p with
  | some eg => nandRead s (dumpRow s eg)
  | none => List.replicate pageBytes 0xFF

/-- The map and the table of the dump agree with the header, and the device could read them. -/
def restoreOk (s : State) (b : List Byte) (bad : List Nat) : Bool :=
  let nd := dumpData s
  let m := dumpMap s
  !bad.any (fun p => nd ≤ p && p + 1 < dumpPages s) &&
    crc32c (dumpSpan (restorePage s b) nd m) == le b 0x54 4 && crc32c (dumpSpan (restorePage s b) (nd + m) (dumpCrc s)) == le b 0x58 4

/-- One data page goes into the region; one that is bad is written zero with every granule poisoned. -/
def restoreData (old : State) (b : List Byte) (bad : List Nat) (p : Nat) (s : State) : State :=
  let nd := dumpData old
  let a := protBase old + pageBytes * p
  let bs := restorePage old b p
  let t := restorePage old b (nd + dumpMap old + p / 4096)
  if bad.contains p || crc32c bs != le t (4 * (p % 4096)) 4 then
    landStore a (List.replicate pageBytes 0) (2 ^ 256 - 1) (count F.CPR_DUMP_STAT_RDERR 0 s)
  else
    let g := 256 * p
    let m := restorePage old b (nd + g / 131072)
    landStore a bs (le m (g % 131072 / 8) 32) s

/-- The salvage engine at power-up: its control and its state come from the header, a job RUN or PAUSED runs on as AUTO_RESUME says, and POS
finds its place again over the bits set in the bitmap (R270), at once or when the relocation table stands again (`relocSeen`). -/
def salvRestore (b : List Byte) (s : State) : State :=
  let ctl := le b 0x50 4 % 2 ^ 28
  let st := le b 0x4C 4 % 8
  let s := wr R.SPR_SALV_POS 0 0 0 (wr R.SPR_SALV_STAT 0 0 (le b 0x4C 4) (wr R.SPR_SALV_CTL 0 0 ctl s))
  let s := c4Change 0 (if st = 1 || st = 2 then salvSet (if ctl.testBit 6 then 1 else 2) s else s)
  relocSeen s s

/-- The restore ends: with ERR, or with none. -/
def restoreEnd (err : Nat) (s : State) : State :=
  raiseEvent 143 (put F.CPR_DUMP_CTL_DONE 0 1 (put F.CPR_DUMP_CTL_ERR 0 err (put F.CPR_DUMP_CTL_STATE 0 0 s)))

/-- The staging registers take their values from the header (R258 step 1), SPR_WGEN a value later than its own (R137, step 2), and the index is what
the stripes from TAIL to HEAD − 1 hold (step 4). -/
def stgRestore (b : List Byte) (s : State) : State :=
  let s := wr R.SPR_WGEN 0 0 ((le b 0x38 8 + 1) % 2 ^ 40) (wr R.SPR_STG_TGEN 0 0 (le b 0x30 8) (wr R.SPR_STG_TAIL 0 0 (le b 0x28 8) (wr R.SPR_STG_HEAD 0 0 (le b 0x20 8) s)))
  stgStat { s with
    spr := { s.spr with live := s.cpr.band.filter (fun e => stgTail s ≤ e.seq && e.seq < stgHead s) }
    cpr := { s.cpr with band := [] } }

/-- What a restore of the dump with header `b` puts back (R257, R258, R270, R544): the protected region and its header page, where
the landing takes them (R406), the remaps, DSEQ, with the region the write cache and the pass images that it holds, and what drive firmware then
writes back from the header (log entry 13). -/
def restored (s : State) (b : List Byte) (bad : List Nat) : State :=
  let t := put F.CPR_DUMP_STAT_RDERR 0 0 s
  let t := if landOk s (protBase s) (protSize s * 2 ^ 20) then
      landStore (protBase s + (protSize s - 1) * 2 ^ 20) b 0 (upTo (dumpData s) (restoreData s b bad) t)
    else busError 14 2 (protBase s) t
  let t := put F.CPR_DUMP_STAT_PAGES 0 (dumpPages s) (put F.CPR_DUMP_STAT_REMAPS 0 (le b 7 1 % 16) (put F.CPR_DUMP_SEQ_DSEQ 0 (le b 8 4) t))
  let images := s.cpr.savedImages.map (fun x => (x.id, { x with ended := true, item := none, result := none }))
  restoreEnd 0 <| salvRestore b <| stgRestore b { t with
    deck := { t.deck with cache := s.cpr.savedCache }
    spr := { t.spr with passes := each images (fun e l => Tab.put l e.1 e.2) t.spr.passes, nextId := images.foldl (fun n e => max n (e.1 + 1)) t.spr.nextId } }

/-- DUMP_RESTORE_DONE (R544): `bad` are the pages that the device could not read. -/
def execDumpRestoreDone (bad : List Nat) (s : State) : Answer :=
  .next (if fld F.CPR_DUMP_CTL_STATE 0 s ≠ 3 then s
    else match (if bad.contains (dumpPages s - 1) then none else headerFind s) with
      | none => restoreEnd 1 s
      | some b =>
        if !later32 (le b 8 4) (fld F.CPR_DUMP_SEQ_DSEQ 0 s) then restoreEnd 2 s
        else if !restoreOk s b bad then restoreEnd 3 s
        else restored s b bad)

end Sys2Proof.Machine
end

