-- ==== Sys2Proof/Machine/Endpoint.lean ====
section
/-! DEFINITION. Commands of the PCI Express endpoint: resets, the link, doorbells, controller registers, the CMB, bus mastering, SR-IOV, power
states, interrupts and completions (R282–R319, R321, R324, R326, R327, R568). -/

namespace Sys2Proof.Machine

open Sys2Proof

/-! ### Resets and the link (R282, R313, R314, R317, R533, R568) -/

/-- PERST_ASSERT (R313, R530): PERST_N falls. -/
def execPerstAssert (s : State) : Answer :=
  .next (if s.cpr.perst then s else
    let s := standbyWake s
    hostReset { s with cpr := { s.cpr with perst := true, perstAt := s.time } })

/-- PERST_DEASSERT (R530, R531, R533, R568): PERST_N rises; PF0 is not ready yet, and once the control cores have started, the link leaves Detect. -/
def execPerstDeassert (s : State) : Answer :=
  if s.cpr.aonSleep then .next (aonExit s)
  else
  let s := standbyWake s
  let s := setFn 0 { fnr s 0 with resetting := true } { s with cpr := { s.cpr with perst := false } }
  .next (if s.cpr.stage = 3 && fld F.HIF_LINK_STAT_LSTATE 0 s = 0 then put F.HIF_LINK_STAT_LSTATE 0 1 s else s)

/-- LINK_RESET_EVENT (R298, R313, R568): a hot reset, link down or surprise down; the link re-enters Detect at once and leaves it. -/
def execLinkResetEvent (kind : LinkReset) (s : State) : Answer :=
  let s := match kind with
    | .hotReset => s
    | .linkDown => count F.HIF_LINK_ERR_DOWN 0 s
    | .surprise =>
      let s := count F.HIF_LINK_ERR_DOWN 0 (report 35 (some 0) 12 0 0 0 s)
      putFBit F.UE_STS 0 5 true (if fld F.UE_STS 0 s = 0 then put F.AER_FIRST 0 5 s else s)
  let s := hostReset s
  .next (if s.cpr.perst then s else put F.HIF_LINK_STAT_LSTATE 0 1 s)

/-- The board gives the host and Scetus separate reference clocks: the board's own wiring, so open. -/
def boardSris : Bool := Config.openVal 284 [] != 0

/-- LINK_TRAINED (R282–R284): training ends at a rate and width within the caps; at 64 GT/s the link is in FLIT mode. With a clocking mode
that does not match the board the link is undefined. -/
def execLinkTrained (speed width : Fin 8) (flit : Bool) (s : State) : Answer :=
  let w := width.val
  let ok := !s.cpr.perst && !s.cpr.frozen && !s.cpr.hostOff && fld F.HIF_LINK_STAT_LSTATE 0 s ≠ 0 && 1 ≤ speed.val && speed.val ≤ capSpeed s && (w == 1 || w == 2 || w == 4) && w ≤ capWidth s
  if !ok then .next s
  else if flag F.HIF_LINK_CAP_SRIS 0 s != boardSris then
    let r := takeFree s
    .next (wr R.HIF_LINK_STAT 0 0 (r.1 % 2 ^ 12) r.2)
  else
    let s := put F.HIF_LINK_STAT_SPEED 0 speed.val (put F.HIF_LINK_STAT_WIDTH 0 w s)
    let s := put F.HIF_LINK_STAT_FLIT 0 (flit || speed.val == 6).toNat (put F.HIF_LINK_STAT_LSTATE 0 2 s)
    .next { s with cpr := { s.cpr with unseen := putBit s.cpr.unseen 1 false } }

/-- ASPM_L1_ENTRY (R317): the link goes to L1, or to L1.1 where that is enabled, when the link partner has ASPM L1 enabled. -/
def execAspmL1Entry (s : State) : Answer :=
  let on := (rd R.CFG_LINKCTL 0 0 s).testBit 1
  .next (if fld F.HIF_LINK_STAT_LSTATE 0 s = 2 && fld F.HIF_LINK_CTL_L1_IDLE 0 s ≠ 0 && on then
      put F.HIF_LINK_STAT_LSTATE 0 (if (rd R.CFG_L1PMCTL 0 0 s).testBit 3 then 5 else 4) s
    else s)

/-- A configuration request to a function that is not ready completes with Request Retry Status, one to a VF that is not enabled with Unsupported
Request (R288, R314, R568). -/
def cfgWait (f : Nat) (s : State) : State :=
  if s.cpr.perst then s else toHost (if fnOn s f then .rrs f else .ur f) s

/-- FLR (R313, R314): of PF0 with every VF, or of one VF; the function is not ready until FLR_READY. -/
def execFlr (f : Fin 64) (s : State) : Answer :=
  let f := f.val
  if deaf s then .next s else
  let s := inbound s
  if !cfgReady s f then .next (cfgWait f s)
  else
    let s := if f = 0 then resetVfs s else s
    let s := fnReset f s
    .next (setFn f { fnr s f with resetting := true } s)

/-- FLR_READY (R314, R568): the function accepts requests again, after an FLR or a conventional reset. -/
def execFlrReady (f : Fin 64) (s : State) : Answer := .next (setFn f.val { fnr s f.val with resetting := false } s)

/-! ### Doorbells (R291, R296, R324, R325) -/

/-- A request to `n` bytes at `a` in a BAR of function `f` that is not enabled, or not ready after a reset, is an Unsupported Request: a posted one is
dropped (R294, R314). -/
def barDrop (f : Nat) (posted : Bool) (a n : Nat) (s : State) : State :=
  if fnOn s f && !s.cpr.perst then unsupported f posted (memHdr s a n posted false) (report 35 (some f) 12 (if posted then 2 else 1) 0 0 s) else s

/-- A doorbell write that is ignored (R324): information 00h for a queue that does not exist, 01h for a bad value. -/
def doorbellBad (f info : Nat) (s : State) : State := asyncEvent f 0 info (count F.DECK_ERR_DBELL 0 s)

/-- SQ_TAIL_DOORBELL (R296, R324, R325): the tail moves, and entries in host memory are fetched. -/
def execSqTailDoorbell (f : Fin 64) (q : Fin 65) (v : BitVec 32) (s : State) : Answer :=
  let (f, q) := (f.val, q.val)
  if deaf s then .next s else
  let s := inbound s
  if !memEnabled s f then .next (barDrop f true (bar0 s f + 0x1000 + 8 * q) 4 s)
  else if flag F.FLT_STAT_SAFE 0 s then .next s
  else match sq s f q with
    | none => .next (doorbellBad f 0 s)
    | some x =>
      let t := v.toNat % 65536
      if x.size ≤ t || ringSpan x.size x.head t < ringSpan x.size x.head x.tail then .next (doorbellBad f 1 s)
      else .next (fetchSq f q (setSq f q { x with tail := t } s))

/-- CQ_HEAD_DOORBELL (R311, R324): entries of the queue are free again. -/
def execCqHeadDoorbell (f : Fin 64) (q : Fin 65) (v : BitVec 32) (s : State) : Answer :=
  let (f, q) := (f.val, q.val)
  if deaf s then .next s else
  let s := inbound s
  if !memEnabled s f then .next (barDrop f true (bar0 s f + 0x1004 + 8 * q) 4 s)
  else if flag F.FLT_STAT_SAFE 0 s then .next s
  else match cq s f q with
    | none => .next (doorbellBad f 0 s)
    | some c =>
      let h := v.toNat % 65536
      if c.size ≤ h || ringSpan c.size c.head c.tail < ringSpan c.size c.head h then .next (doorbellBad f 1 s)
      else
        let s := setCq f q { c with head := h } s
        .next (if f = 0 then intxUpdate s else s)

/-! ### Controller registers (R310, R321, R359) -/

/-- CC_ENABLE (R321): the admin queues come into being, and RDY rises when it may. -/
def execCcEnable (f : Fin 64) (w : BusW) (s : State) : Answer :=
  let f := f.val
  if deaf s then .next s else
  let s := inbound s
  if !memEnabled s f then .next (barDrop f true (bar0 s f + 0x14) 4 s)
  else
    let s := busWrite R.NVME_CC f 0 w s
    .next (if wrote1 0 w && !flag F.CC_EN f s then readyUpdate f (adminQueues f (put F.CC_EN f 1 s)) else s)

/-- CC_DISABLE (R313, R359): an NVMe controller reset. -/
def execCcDisable (f : Fin 64) (w : BusW) (s : State) : Answer :=
  let f := f.val
  if deaf s then .next s else
  let s := inbound s
  if !memEnabled s f then .next (barDrop f true (bar0 s f + 0x14) 4 s)
  else
    let s := busWrite R.NVME_CC f 0 w s
    .next (if wrote0 0 w && flag F.CC_EN f s then
        let s := fnResetDeck f (put F.CC_EN f 0 s)
        wr R.NVME_CSTS f 0 0 (wr R.VFW_STAT f 0 0 s)
      else s)

/-- CC_SHUTDOWN (R321): a shutdown notification stops admission, and SHST reads complete. -/
def execCcShutdown (f : Fin 64) (w : BusW) (s : State) : Answer :=
  let f := f.val
  if deaf s then .next s else
  let s := inbound s
  if !memEnabled s f then .next (barDrop f true (bar0 s f + 0x14) 4 s)
  else
    let s := busWrite R.NVME_CC f 0 w s
    if !w.be.testBit 1 then .next s
    else
      let n := bitsOf w.data 15 14
      let s := put F.CC_SHN f n s
      .next (if n = 1 || n = 2 then put F.CSTS_SHST f 2 s else s)

/-- INTMS_WRITE (R310, R311): vectors are masked. -/
def execIntmsWrite (f : Fin 64) (w : BusW) (s : State) : Answer :=
  let f := f.val
  if deaf s then .next s else
  let s := inbound s
  if !memEnabled s f then .next (barDrop f true (bar0 s f + 0x0C) 4 s)
  else
    let s := put F.INTMS f (fld F.INTMS f s ||| (w.data &&& beMask 4 w.be)) s
    .next (if f = 0 then intxUpdate (msiPend s) else s)

/-- INTMC_WRITE (R310, R311): vectors are unmasked, and held messages are sent. -/
def execIntmcWrite (f : Fin 64) (w : BusW) (s : State) : Answer :=
  let f := f.val
  if deaf s then .next s else
  let s := inbound s
  if !memEnabled s f then .next (barDrop f true (bar0 s f + 0x10) 4 s)
  else
    let m := fld F.INTMS f s
    let s := put F.INTMS f (m - (m &&& (w.data &&& beMask 4 w.be))) s
    .next (if f = 0 then intxUpdate (flushMsi s) else s)

/-! ### The CMB (R292, R301, R302, R327) -/

/-- CMB_WRITE (R292, R301): the bytes enabled, within the share; a poisoned payload marks every granule it touches, and a clean one that
covers a granule clears its mark. -/
def execCmbWrite (f : Fin 64) (off : BitVec 22) (bs : List (Option Byte)) (ep : Bool) (s : State) : Answer :=
  let f := f.val
  if deaf s then .next s else
  let s := inbound s
  if !memEnabled s f then .next (barDrop f true (bar2 s f + off.toNat) bs.length s)
  else
    let s := if ep then poisIn f (memHdr s (bar2 s f + off.toNat) bs.length true true) s else s
    let b := (share s f).1
    let n := if barOpen s f then (share s f).2 else 0
    let ws := bs.zipIdx.filterMap (fun e => match e.1 with
      | some v => if off.toNat + e.2 < n then some (b + off.toNat + e.2, v) else none
      | none => none)
    let gs := (ws.map (fun e => e.1 / 64)).eraseDups
    let whole := fun (g : Nat) => (List.range 64).all (fun k => ws.any (fun e => e.1 == 64 * g + k))
    let pois := if ep then s.deck.cmbPois ++ gs.filter (fun g => !s.deck.cmbPois.contains g)
      else s.deck.cmbPois.filter (fun g => !(gs.contains g && whole g))
    .next { s with deck := { s.deck with cmb := each ws (fun e t => Tab.put t e.1 e.2) s.deck.cmb, cmbPois := pois } }

/-- The programmed Read Completion Boundary: Link Control of PF0. -/
def rcb (s : State) : Nat := if (rd R.CFG_LINKCTL 0 0 s).testBit 3 then 128 else 64

/-- Bytes with marks cut into completions: at the last multiple of the Read Completion Boundary `b` that the Max Payload Size `m` reaches, and
where the mark changes (R285, R302). -/
def cutCpls (b m addr : Nat) (bs : List (Byte × Bool)) : List (List Byte × Bool) :=
  ((bs.zipIdx.foldl (fun (acc : List (List Byte × Bool)) e => match acc with
    | [] => [([e.1.1], e.1.2)]
    | (ds, p) :: t => if p == e.1.2 && ((addr + e.2) % b != 0 || ds.length + b ≤ m) then (ds ++ [e.1.1], p) :: t else ([e.1.1], e.1.2) :: acc) [])).reverse

/-- CMB_READ (R292, R302): bytes of the share, zero beyond it, poisoned granules in TLPs of their own. -/
def execCmbRead (f : Fin 64) (off : BitVec 22) (n : Fin 4097) (s : State) : Answer :=
  let f := f.val
  if deaf s then .next s else
  let s := inbound s
  if !memEnabled s f then .next (barDrop f false (bar2 s f + off.toNat) n.val s)
  else
    let b := (share s f).1
    let m := if barOpen s f then (share s f).2 else 0
    let bs := (List.range n.val).map (fun k =>
      if off.toNat + k < m then (cmbByte s (b + off.toNat + k), s.deck.cmbPois.contains ((b + off.toNat + k) / 64)) else ((0 : Byte), false))
    .next (each (cutCpls (rcb s) (mps s f) off.toNat bs) (fun t s => poisOut t.2 (toHost (.cpl f t.1 t.2) s)) s)

/-! ### Bus mastering and power states (R303–R307, R316) -/

/-- BME_CLEAR (R303, R307). -/
def execBmeClear (f : Fin 64) (s : State) : Answer :=
  let f := f.val
  if deaf s then .next s else
  let s := inbound s
  .next (if !cfgReady s f then cfgWait f s else if flag F.CFG_BME f s then stallStart f (put F.CFG_BME f 0 s) else s)

/-- BME_SET (R305, R307): ends a stall unless the function is in D3hot. -/
def execBmeSet (f : Fin 64) (s : State) : Answer :=
  let f := f.val
  if deaf s then .next s else
  let s := inbound s
  if !cfgReady s f then .next (cfgWait f s)
  else
    let s := put F.CFG_BME f 1 s
    let s := setFn f { fnr s f with bmeSeen := true } s
    .next (if fld F.CFG_PSTATE f s = 0 then stallEnd f s else s)

/-- BME_STALL_EXPIRE (R303, R306, R359, R360): the stall has lasted LIMIT ms; writes whose data is all there go on to media, every other
command is dropped, the queues go, and the controller is fatal and silent until a reset. -/
def execBmeStallExpire (f : Fin 64) (s : State) : Answer :=
  let f := f.val
  let running := match (fnr s f).stall with
    | some t => decide (s.time < t + 1000000 * fld1 F.HIF_BME_LIMIT_MS 0 s)
    | none => true
  if running then .next s
  else
    let inOrder := fun (s : State) => sortBy (·.ord) (Tab.vals s.deck.cmds)
    let s := each (inOrder s) (fun x s => if x.fn == f then writeCommit x.slot s else s) s
    let s := each (inOrder s) (fun x s => if fullWrite s f x then setCmd { x with det := true } s else s) s
    let s := fnResetDeck f s
    let s := each (inOrder s) (fun x s => if x.fn == f && detached x then writeCommit x.slot s else s) s
    let s := setFn f { fnr s f with silent := true } s
    .next (restLink (fatalNow f (report 41 (some f) 12 0 0 0 (put F.VFW_STAT_BME_FATAL f 1 s))))

/-- POWER_STATE_D3HOT (R307, R316): acts as a clear of Bus Master Enable; with every function in D3hot and no request
pending the link rests in L1. -/
def execPowerStateD3hot (f : Fin 64) (s : State) : Answer :=
  let f := f.val
  if deaf s then .next s else
  let s := inbound s
  if !cfgReady s f then .next (cfgWait f s)
  else
    .next (restLink (if busMaster s f then stallStart f (put F.CFG_PSTATE f 3 s) else put F.CFG_PSTATE f 3 s))

/-- POWER_STATE_D0 (R307, R313). -/
def execPowerStateD0 (f : Fin 64) (s : State) : Answer :=
  let f := f.val
  if deaf s then .next s else
  let s := inbound s
  if !cfgReady s f then .next (cfgWait f s)
  else
    let s := wakeLink (put F.CFG_PSTATE f 0 s)
    .next (if flag F.CFG_BME f s && (fnr s f).stall.isSome then stallEnd f s else s)

/-! ### SR-IOV (R288, R313) -/

/-- VF_ENABLE (R288). -/
def execVfEnable (w : BusW) (s : State) : Answer :=
  if deaf s then .next s else
  let s := inbound s
  if !cfgReady s 0 then .next (cfgWait 0 s)
  else
    let s := busWrite R.CFG_SRIOVCTL 0 0 w s
    .next (if wrote1 0 w then put F.VF_EN 0 1 s else s)

/-- VF_DISABLE (R288, R313): every VF is reset. -/
def execVfDisable (w : BusW) (s : State) : Answer :=
  if deaf s then .next s else
  let s := inbound s
  if !cfgReady s 0 then .next (cfgWait 0 s)
  else
    let s := busWrite R.CFG_SRIOVCTL 0 0 w s
    .next (if wrote0 0 w && flag F.VF_EN 0 s then restLink (put F.VF_EN 0 0 (resetVfs s)) else s)

/-! ### Interrupts (R308–R312) -/

/-- MSIX_UNMASK (R293, R294, R309): a vector is unmasked in the table of BAR4, or with none the function in its configuration space. -/
def execMsixUnmask (f : Fin 64) (v : Option (Fin 2048)) (s : State) : Answer :=
  let f := f.val
  if deaf s then .next s else
  let s := inbound s
  .next (match v with
    | some v =>
      if !memEnabled s f then barDrop f true (bar4 s f + 16 * v.val + 12) 4 s
      else if barOpen s f && v.val ≤ fld F.MSIX_SIZE f s then flushMsix f (put2 F.MSIX_MASK f v.val 0 s) else s
    | none => if !cfgReady s f then cfgWait f s else flushMsix f (put F.MSIX_FMASK f 0 s))

/-- INT_MODE_CHANGE (R308, R312): the enables of the three modes are written; a change of mode discards what is pending. -/
def execIntModeChange (f : Fin 64) (msix msi intxOff : Bool) (s : State) : Answer :=
  let f := f.val
  if deaf s then .next s else
  let s := inbound s
  if !cfgReady s f then .next (cfgWait f s)
  else
    let old := intMode s f
    let s := put F.MSIX_EN f msix.toNat s
    let s := if f = 0 then put F.CFG_INTDIS 0 intxOff.toNat (put F.MSI_EN 0 msi.toNat s) else s
    if intMode s f = old then .next (if f = 0 then intxUpdate s else s)
    else
      let s := upTo 32 (fun k s => put2 F.MSIX_PBA f k 0 s) s
      .next (if f = 0 then intxUpdate (put F.MSI_PEND 0 0 { s with deck := { s.deck with intPend := [] } }) else s)

/-! ### Completions of Scetus's requests (R285, R298–R300, R314) -/

/-- The key of a completed fetch of queue `q` of function `f`, whose tag is free again: above every tag. -/
def doneKey (f q : Nat) : Nat := 2 ^ 20 + 65 * f + q

/-- COMPLETION_RECEIVED (R285, R298, R299, R314): a completion for a request by its tag, with data that may be poisoned, or with Unsupported
Request. -/
def execCompletionReceived (f : Fin 64) (tag : Nat) (bs : List Byte) (ep ur : Bool) (s : State) : Answer :=
  let f := f.val
  let key := tagKey f tag
  if deaf s then .next s else
  let s := inbound s
  let fin := fun (s : State) => (.next (restLink (tagGo s)) : Answer)
  let unexpected := fun (s : State) =>
    let g := if fnOn s f then f else 0
    aerUnc g 16 true (cplHdr s f tag (!bs.isEmpty) ep ur) (report 34 (some g) 12 1 0 0 s)
  match (if tag < 16384 then Tab.get? s.deck.reqs key else none) with
  | none =>
    match Tab.get? s.deck.flushed key with
    | some n => fin { s with deck := { s.deck with flushed := if ur || n ≤ bs.length then Tab.erase s.deck.flushed key else Tab.put s.deck.flushed key (n - bs.length) } }
    | none => .next (unexpected s)
  | some r =>
    if ur then fin (reqFail key (abortIn f r.kind (cplHdr s f tag false false true) s))
    else
      let s := if ep then dataParity f true (poisIn f (cplHdr s f tag true true false) s) else s
      let off := r.got.length
      let got := r.got ++ bs.take (r.len - off)
      let full := r.len ≤ got.length
      let keep := fun (s : State) => { s with deck := { s.deck with reqs := Tab.put s.deck.reqs key { r with got := got } } }
      let drop := fun (s : State) => { s with deck := { s.deck with reqs := Tab.erase s.deck.reqs key } }
      let s := if full then drop s else keep s
      match r.kind with
      | .sqFetch q _ =>
        if ep then fin (fetchFatal f (drop s))
        else fin (if full then { s with deck := { s.deck with reqs := Tab.put s.deck.reqs (doneKey f q) { r with got := got, done := true } } } else s)
      | .list k =>
        if ep then fin (cmdFail k stXfer s)
        else fin (if full then match cmd s k with
            | some x => xferGo k (setCmd { x with lbuf := x.lbuf ++ got } s)
            | none => s
          else s)
      | .data k o => fin (xferGo k (cmdTake k (o + off) ((bs.take (r.len - off)).map (fun b => (b, ep))) s))
      | .yrd n => fin (yrdData n (bs.take (r.len - off)) ep s)

/-- COMPLETION_TIMEOUT (R285, R298, R300): a read is not completed in time; with the timeout disabled none expires. -/
def execCompletionTimeout (f : Fin 64) (tag : Nat) (s : State) : Answer :=
  match (if tag < 16384 then Tab.get? s.deck.reqs (tagKey f.val tag) else none) with
  | none =>
    .next (if flag F.CFG_CTODIS f.val s || (Tab.get? s.deck.flushed (tagKey f.val tag)).isNone then s
      else restLink (tagGo { s with deck := { s.deck with flushed := Tab.erase s.deck.flushed (tagKey f.val tag) } }))
  | some r =>
    if flag F.CFG_CTODIS f.val s then .next s
    else .next (restLink (tagGo (reqFail (tagKey f.val tag) (aerUnc f.val 14 true [] (report 34 (some f.val) 12 1 r.addr 0 s)))))

/-- SQ_ENTRY_FETCHED (R325, R331): a fetch has completed, and its entries wait to be admitted. -/
def execSqEntryFetched (f : Fin 64) (q : Fin 65) (s : State) : Answer :=
  let (f, q) := (f.val, q.val)
  match Tab.get? s.deck.reqs (doneKey f q), sq s f q with
  | some r, some x =>
    let es := (List.range (r.len / 64)).map (fun i => (r.got.drop (64 * i)).take 64)
    let s := { s with deck := { s.deck with reqs := Tab.erase s.deck.reqs (doneKey f q) } }
    .next (restLink <| fetchAfter f q (setSq f q { x with got := x.got ++ es } s))
  | _, _ => .next s

end Sys2Proof.Machine
end

