-- ==== Sys2Proof/Machine/Faults.lean ====
section
/-! DEFINITION. The commands of the fault collector and the event fabric (R459–R483). -/

namespace Sys2Proof.Machine

open Sys2Proof

/-! ### Faults -/

/-- The AER record of a HIF checker's report (R297, R298): bits 0–13 of the correctable register, 32 + b for bit b of the uncorrectable one. -/
def hifLog (r : Report) (s : State) : State := match r.aer with
  | none => s
  | some b =>
    let f := (r.fn.map (·.val)).getD 0
    if b.val < 32 then
      let s := if b.val = 0 || b.val = 6 || b.val = 7 then count F.HIF_LINK_ERR_RXERR 0 s
        else if b.val = 8 || b.val = 12 then count F.HIF_LINK_ERR_REPLAY 0 s else s
      aerCor 0 b.val s
    else aerUnc f (b.val - 32) (b.val = 44 || b.val = 46 || b.val = 48 || b.val = 52) [] s

/-- The report of least checker number first. -/
def insertReport (r : Report) : List Report → List Report
  | [] => [r]
  | q :: t => if r.chk.val < q.chk.val then r :: q :: t else q :: insertReport r t

/-- T_die, and a thermistor input's temperature, against a limit in °C (R460, R472). -/
def dieAt (s : State) (limit : Int) : Bool := decide (16 * limit ≤ ((((List.range 8).map (fun k => sext 16 (fld F.MGT_TEMP_TEMP k s))).max?).getD 0))
def thmAt (s : State) (n : Nat) : Bool :=
  fld F.MGT_THM_TEMP n s != 0x8000 && decide ((16 * fld F.FLT_THERM_ENC_HOT 0 s : Nat) ≤ sext 16 (fld F.MGT_THM_TEMP n s))

/-- The condition of a condition checker as the state has it (R460): a lost clock source, a supply outside its window, temperatures, a
failed arm link, a stuck shock channel. -/
def condNow (s : State) (chk : Nat) : Bool :=
  let hot := fld F.FLT_THERM_HOT 0 s
  if chk ≤ 13 then bit F.CPR_CLKMON_LOST 0 (chk - 8) s
  else if chk ≤ 19 then
    let v := fld F.MGT_MON_V (chk - 14) s
    !flag F.CPR_PL_LOSS 0 s && (decide (v < fld F.MGT_MON_LO (chk - 14) s) || decide (fld F.MGT_MON_HI (chk - 14) s < v))
  else if chk = 20 then dieAt s hot || (flag F.FLT_CHK_LIVE 20 s && dieAt s (hot - 5))
  else if chk = 21 then dieAt s (max (fld F.FLT_THERM_TRIP 0 s) (hot + 5))
  else if chk ≤ 25 then thmAt s (chk - 22)
  else if chk ≤ 131 then
    let a := chk - 128
    armPresent s a && armUp s a && flag F.LANE_ALK_CTL_ENABLE a s && 3 ≤ fld F.LANE_ALK_STAT_STATE a s
  else bit F.SRV_SHK_STAT_STUCK 0 (chk - 148) s

/-- An injection forces the condition of checker `chk` (R478). -/
def condForced (s : State) (chk : Nat) : Bool :=
  flag F.FLT_INJ_ARM 0 s && fld F.FLT_INJ_MODE 0 s == 2 && fld F.FLT_INJ_CHK 0 s == chk

/-- A report that can come: an event, or a condition that holds. -/
def reportReal (s : State) (chk : Nat) : Bool := match chkInfo chk with
  | none => false
  | some c => !c.cond || condNow s chk

/-- An uncorrectable CMB granule, by its internal address, reads poisoned from then on (R460, checker 39). -/
def cmbUnc (r : Report) (s : State) : State :=
  if r.chk.val = 39 && r.unc && inCmb r.addr 1 then
    let g := cmbKey s (r.addr - cmbBase) / 64
    { s with deck := { s.deck with cmbPois := if s.deck.cmbPois.contains g then s.deck.cmbPois else g :: s.deck.cmbPois } }
  else s

/-- CHECKER_REPORT (R459–R471): the checkers that report in one fabric cycle are recorded in ascending number, each against the pending
state at the start of the cycle; a condition checker reports while its condition holds. `fec`: FLIT errors that FEC corrected meanwhile, in units of
1,024, which no checker reports (R298). Items whose surfaces a report has fenced are planned anew (R398). -/
def execCheckerReport (rs : List Report) (fec : Nat) (s : State) : Answer :=
  let p := fld F.FLT_STAT_PENDING 0 s
  let q := fld F.FLT_FC3_PEND_PEND 0 s
  let t := each (rs.foldr insertReport []) (fun r s =>
    if !reportReal s r.chk.val then s
    else hifLog r (cmbUnc r (reportAt p q false r.chk.val (r.fn.map (·.val)) r.master r.access r.addr r.detail s))) (countN F.HIF_LINK_ERR_FEC 0 fec s)
  .next (if rd R.SPR_FENCE_HEAD 0 0 t = rd R.SPR_FENCE_HEAD 0 0 s && rd R.SPR_FENCE_HEAD 1 0 t = rd R.SPR_FENCE_HEAD 1 0 s &&
      rd R.SPR_FENCE_ARM 0 0 t = rd R.SPR_FENCE_ARM 0 0 s then t else replan t)

/-- CHECKER_CONDITION_FALSE (R469): the condition of the checker has become false. -/
def execCheckerConditionFalse (chk : Fin 256) (s : State) : Answer :=
  .next (match chkInfo chk.val with
    | none => s
    | some c => if c.cond && !condNow s chk.val && !condForced s chk.val then condFalls chk.val s else s)

/-- PENDING bit 3 and ACTIVE bit 3 follow FLT_FC3_PEND and FLT_FC3. -/
def fc3Bits (s : State) : State :=
  putFBit F.FLT_STAT_PENDING 0 3 (fld F.FLT_FC3_PEND_PEND 0 s != 0) (putFBit F.FLT_STAT_ACTIVE 0 3 (fld F.FLT_FC3_ACTIVE 0 s != 0) s)

/-- Class `c` is acknowledged; class 3 on every function (R462). -/
def ackClass (c : Nat) (s : State) : State :=
  if c = 3 then fc3Bits (put F.FLT_FC3_PEND_PEND 0 0 s) else putFBit F.FLT_STAT_PENDING 0 c false s

/-- The classes of a mask are acknowledged. -/
def ackClasses (m : Nat) (s : State) : State := upTo 5 (fun c s => if m.testBit c then ackClass c s else s) s

/-- FLT_ACK_WRITE (R462). -/
def execFltAckWrite (w : BusW) (s : State) : Answer :=
  .next (ackClasses (if w.be.testBit 0 then w.data % 32 else 0) s)

/-- A capture no longer holds a fault. -/
def capClear (which i : Nat) (s : State) : State :=
  put2 (capReg which) i 0 (putBit (fld2 (capReg which) i 0 s) 63 false) s

/-- FC3 of function `f` is left, unless its controller reports CFS (R461). -/
def fc3Clear (f : Nat) (s : State) : State :=
  if bit F.HIF_FATAL_CFS 0 f s || !bit F.FLT_FC3_ACTIVE 0 f s then s
  else fc3Bits (capClear 1 f (putFBit F.FLT_FC3_PEND_PEND 0 f false (putFBit F.FLT_FC3_ACTIVE 0 f false s)))

/-- Some condition checker whose last fault was recorded in FC2 reads LIVE = 1. -/
def fc2Live (s : State) : Bool := s.flt.cls.any (fun e => e.2 == 3 && flag F.FLT_CHK_LIVE e.1 s)

/-- Class `c` is cleared, as R461 allows. -/
def clearClass (c : Nat) (s : State) : State :=
  if c = 4 then s
  else if c = 3 then capClear 0 3 (upTo 64 fc3Clear s)
  else if c = 2 && fc2Live s then s
  else
    let s := capClear 0 c (putFBit F.FLT_STAT_ACTIVE 0 c false (putFBit F.FLT_STAT_PENDING 0 c false s))
    if c = 2 then degradedUpdate s else s

/-- FLT_CLR_WRITE (R461, R462). -/
def execFltClrWrite (w : BusW) (s : State) : Answer :=
  let m := if w.be.testBit 0 then w.data % 32 else 0
  .next (upTo 5 (fun c s => if m.testBit c then clearClass c s else s) s)

/-- FLT_FC3_CLEAR (R461): writing 1 to bit f. -/
def execFltFc3Clear (w : BusW) (s : State) : Answer :=
  .next (upTo 64 (fun f s => if wrote1 f w then fc3Clear f s else s) s)

/-- FLT_FC3_ACK_WRITE (R462): writing 1 to bit f. -/
def execFltFc3AckWrite (w : BusW) (s : State) : Answer :=
  .next (fc3Bits (upTo 64 (fun f s => if wrote1 f w then putFBit F.FLT_FC3_PEND_PEND 0 f false s else s) s))

/-- Checkers that guard a correcting code and report its uncorrectable words alone. -/
def corrects (chk : Nat) : Bool := chk = 38 || (57 ≤ chk && chk ≤ 59) || chk = 217 || (228 ≤ chk && chk ≤ 232)

/-- FLT_INJ_ARM (R478): with INJ_EN = 1 the checker chosen sees one bad check, at its next check (log entry 9); BITS = 1 takes the corrected path
of a correcting code. A ONCE condition falls at once, a CONTINUOUS one once MODE is no longer CONTINUOUS. The function that a function-fatal
checker names is open. -/
def execFltInjArm (w : BusW) (s : State) : Answer :=
  if !flag F.FLT_CTL_INJ_EN 0 s then .next s
  else
    let was := flag F.FLT_INJ_ARM 0 s
    let old := fld F.FLT_INJ_CHK 0 s
    let s := busWrite R.FLT_INJ 0 0 w s
    let m := fld F.FLT_INJ_MODE 0 s
    let s := if was && m ≠ 2 then put F.FLT_INJ_ARM 0 0 (condFalls old s) else s
    let chk := fld F.FLT_INJ_CHK 0 s
    match chkInfo chk with
    | none => .next s
    | some c =>
      if !wrote1 31 w || m = 0 || m = 3 || ((selfDamage s).testBit 3 && (selfOpen 3 chk s).testBit 0) then .next s
      else
        let one := fld F.FLT_INJ_BITS 0 s != 2
        let r := takeFree s
        let fn := if c.base = 3 then some (r.1 % 64) else none
        let s := if c.base = 3 then r.2 else s
        let t := if one && corrects chk then (if 57 ≤ chk && chk ≤ 59 then count F.LND_ECC_CNT_CE 0 s else s)
          else reportAt (fld F.FLT_STAT_PENDING 0 s) (fld F.FLT_FC3_PEND_PEND 0 s) true chk fn 0 0 0 0 s
        let t := put F.FLT_INJ_FIRED 0 1 (put F.FLT_INJ_ARM 0 (if m = 2 then 1 else 0) t)
        .next (if m = 1 && c.cond then condFalls chk t else t)

/-- FLT_CHK_LATCH_CLEAR (R469): writing 1 to LATCHED clears LATCHED and TRANSIENT. -/
def execFltChkLatchClear (chk : Fin 256) (w : BusW) (s : State) : Answer :=
  .next (if wrote1 9 w && (chkInfo chk.val).isSome then put F.FLT_CHK_LATCHED chk.val 0 (put F.FLT_CHK_TRANSIENT chk.val 0 s) else s)

/-! ### Events -/

/-- The lowest source pending and enabled for receiver `r`. -/
def claimable (s : State) (r : Nat) : Option Nat :=
  (List.range 512).find? (fun n => bit F.EVT_PEND_PEND (n / 32) (n % 32) s && (fld2 F.EVT_EN_EN r (n / 32) s).testBit (n % 32))

/-- The external interrupt input of receiver `r`: high while a source is pending and enabled for it (R483). -/
def extIrq (s : State) (r : Nat) : Bool := (claimable s r).isSome

/-- EVENT_CLAIM (R483): a read of all of EVT_CLAIM_r returns and clears the lowest source pending and enabled for r. -/
def execEventClaim (r : Fin 5) (s : State) : Answer :=
  .next (match claimable s r.val with
    | none => emit (.value (R.EVT_CLAIM.addr r.val 0) 0) s
    | some n => emit (.value (R.EVT_CLAIM.addr r.val 0) (2 ^ 31 + n)) (putFBit F.EVT_PEND_PEND (n / 32) (n % 32) false s))

/-- EVENT_PEND_CLEAR (R483): writing 1 to a bit of EVT_PEND_k. -/
def execEventPendClear (k : Fin 16) (w : BusW) (s : State) : Answer :=
  .next (upTo 32 (fun b s => if wrote1 b w then putFBit F.EVT_PEND_PEND k.val b false s else s) s)

/-- SOFTWARE_EVENT (R483): writing bit i of EVT_SWSET raises EV(240 + i). -/
def execSoftwareEvent (w : BusW) (s : State) : Answer :=
  .next (upTo 16 (fun i s => if wrote1 i w then raiseEvent (240 + i) s else s) s)

end Sys2Proof.Machine
end

