-- ==== Sys2Proof/Machine/Geometry.lean ====
section
/-! DEFINITION. Loading geometry and the fence registers: GEO_LOAD, GEO_LOAD_DONE, SPR_FENCE_HEAD_WRITE, SPR_FENCE_ARM_WRITE
(R26–R36). -/

namespace Sys2Proof.Machine

open Sys2Proof

/-- A lane operation, a seek, which runs from its GO until FOLLOW (R192), or a stripe pass is in flight (R29). -/
def mediaInFlight (s : State) : Bool :=
  (Tab.vals s.lanes).any (fun l => l.op.isSome) || !s.wops.isEmpty ||
    (List.range 4).any (fun a => flag F.SRV_TARGET_GO a s || mode s a == 4) ||
    (Tab.vals s.sched.items).any (fun i => i.pass && (match i.st with | .running _ => true | _ => false))

/-- GEO_LOAD (R28, R29): a LOAD starts the read and check of the image at ADDR. -/
def execGeoLoad (s : State) : Answer :=
  .next (
    if flag F.SPR_GEO_CTL_BUSY 0 s then s
    else if mediaInFlight s then put F.SPR_GEO_STAT_ERR 0 0x0B s
    else { (put F.SPR_GEO_CTL_BUSY 0 1 s) with geoImg := some (fld F.SPR_GEO_BASE_ADDR 0 s * 64) })

/-- The zone entries of an image with its stripe map (R26). -/
def imageZones (m : List Byte) (n zo mo : Nat) : List Zone :=
  (List.range n).map (fun i =>
    let z := zo + 32 * i
    ⟨le m z 4, le m (z + 4) 4, le m (z + 8) 2, le m (z + 10) 1, le m (z + 12) 2, le m (z + 14) 2, le m (z + 16) 1 % 16,
      (List.range 16).map (fun f => le m (mo + 32 * i + 2 * f) 2)⟩)

/-- The region entries of an image (R26). -/
def imageRegions (m : List Byte) (n ro : Nat) : List Region :=
  (List.range n).map (fun i => ⟨le m (ro + 16 * i) 4, le m (ro + 16 * i + 4) 4, le m (ro + 16 * i + 8) 1⟩)

/-- Zones run from track 0 without gaps up to a last track that fits a PSA (R20). -/
def zonesContiguous : Nat → List Zone → Bool
  | _, [] => true
  | t, z :: zs => z.first == t && z.first ≤ z.last && z.last ≤ 4194303 && zonesContiguous (z.last + 1) zs

/-- Azimuths of the arms present stand at least 4,096 angle units apart around the turn. -/
def azOk (mask : Nat) (az : List Nat) : Bool :=
  (List.range 4).all (fun a => (List.range a).all (fun b =>
    !(mask.testBit a && mask.testBit b) ||
      (let d := ((az[a]?).getD 0 + 65536 - (az[b]?).getD 0) % 65536
       4096 ≤ d && d ≤ 61440)))

/-- Regions lie inside one zone, do not overlap, have TYPE 1 to 3, and STAGING and SPARE are present (R25). That an entry with LAST below
FIRST fails here too, with ERR 0x0A, is the model's choice (DESIGN CHOICE, log entry 58). -/
def regionsOk (zs : List Zone) (rs : List Region) : Bool :=
  rs.all (fun r => 1 ≤ r.ty && r.ty ≤ 3 && r.first ≤ r.last && zs.any (fun z => z.first ≤ r.first && r.last ≤ z.last)) &&
    rs.zipIdx.all (fun (r, i) => rs.zipIdx.all (fun (q, j) => i == j || r.last < q.first || q.last < r.first)) &&
    rs.any (fun r => r.ty == 1) && rs.any (fun r => r.ty == 2)

/-- A table of `len` bytes at offset `o` is aligned to 32 and inside the image (R27). -/
def tableOk (o len total : Nat) : Bool := o % 32 == 0 && o + len ≤ total

/-- The checks of R31 in their order over an image: `have' n` says that its first n bytes are there, `rd' n` reads them. The first failure,
or the geometry. ERR 0x03 for a TOTAL_LEN below the 64-byte header is the model's choice (DESIGN CHOICE, log entry 58). -/
def checkBytes (have' : Nat → Bool) (rd' : Nat → List Byte) : Nat × Option Geometry :=
  if !have' 64 then (3, none)
  else
    let h := rd' 64
    let total := le h 0x20 4
    let nz := le h 0x0A 1
    let nr := le h 0x0B 1
    let ao := le h 0x10 4
    let zo := le h 0x14 4
    let mo := le h 0x18 4
    let ro := le h 0x1C 4
    let mask := le h 0x08 1 % 16
    let rpm := le h 0x0C 2
    if le h 0 4 ≠ 0x4F45474B then (1, none)
    else if le h 4 2 ≠ 1 ∨ le h 6 2 ≠ 64 then (2, none)
    else if !(tableOk ao 32 total && tableOk zo (32 * nz) total && tableOk mo (32 * nz) total &&
        tableOk ro (16 * nr) total && have' total && 64 ≤ total) then (3, none)
    else
      let m := rd' total
      if crc32c (m.take 0x3C ++ bytesOf 4 0 ++ m.drop 0x40) ≠ le m 0x3C 4 then (4, none)
      else if le h 9 1 ≠ 16 ∨ nz = 0 ∨ 64 < nz ∨ nr = 0 ∨ 64 < nr ∨ rpm < 5400 ∨ 10000 < rpm ∨ popcount 4 mask < 2 then (5, none)
      else
        let az := (List.range 4).map (fun a => le m (ao + 8 * a) 2)
        let zs := imageZones m nz zo mo
        let rs := imageRegions m nr ro
        if !azOk mask az then (6, none)
        else if !zonesContiguous 0 zs then (7, none)
        else if !zs.all (fun z => 64 ≤ z.spt && z.spt ≤ 4095 && 400 ≤ z.rate && z.rate ≤ 4000 && z.strength < 8) then (8, none)
        else if !zs.all (fun z => z.rot.all (fun r => r < z.spt)) then (9, none)
        else if !regionsOk zs rs then (10, none)
        else (0, some ⟨mask, az, zs, rs, rpm, le m 0x24 4⟩)

/-- The checks over the image at `base` of shared SRAM. -/
def checkImage (s : State) (base : Nat) : Nat × Option Geometry := checkBytes (inSram base) (sramRead s base)

/-- A geometry has become the active one: reachability, the staging counts and the arms' links are judged anew, and a loaded arm that it has
absent unloads as one that is fenced; items that no arm can serve any more are planned anew (R31, R32, R36, R71, R205, R398). -/
def loadedGeometry (old t : State) : State :=
  let same := fld F.SPR_SURF_UNREACH_UNREACH 0 t == unreachMask t && unreachMask t != 0
  let u := eligibilityChanged old t
  let v := upTo 4 judgeLink (if same then raiseEvent 84 u else u)
  replan (stgStat (upTo 4 (fun a s => if !armShut old a && armShut s a then unloadByMode a s else s) v))

/-- GEO_LOAD_DONE (R28, R31, R33, R71): the load that runs ends. The active geometry is what the copy in shared SRAM held at this moment; that a
later edit of the copy has no effect is the model's choice (DESIGN CHOICE, log entry 58). -/
def execGeoLoadDone (s : State) : Answer :=
  .next (match s.geoImg with
    | none => s
    | some base =>
      let u := put F.SPR_GEO_STAT_ERR 0 (checkImage s base).1 (put F.SPR_GEO_CTL_BUSY 0 0 { s with geoImg := none })
      match (checkImage s base).2 with
      | none => u
      | some g => loadedGeometry u (put F.SPR_GEO_STAT_GEN 0 (g.gen % 65536) (put F.SPR_GEO_CTL_ACTIVE 0 1 { u with geo := some g })))

/-- SPR_FENCE_HEAD_WRITE (R34, R36, R398): head fences are set or cleared. -/
def execSprFenceHeadWrite (k : Fin 2) (w : BusW) (s : State) : Answer :=
  .next (replan (eligibilityChanged s (busWrite R.SPR_FENCE_HEAD k.val 0 w s)))

/-- SPR_FENCE_ARM_WRITE (R34, R36, R188, R205, R398): arm fences are set or cleared; an arm newly fenced while loaded unloads. -/
def execSprFenceArmWrite (w : BusW) (s : State) : Answer :=
  let t := eligibilityChanged s (busWrite R.SPR_FENCE_ARM 0 0 w s)
  .next (replan (upTo 4 (fun a t => if !armFenced s a && armFenced t a then unloadByMode a t else t) t))

end Sys2Proof.Machine
end

