-- ==== Sys2Proof/Machine/OpsCfg.lean ====
section
/-! DEFINITION. Setpoint records and their items (R507–R510, R513, R515). -/

namespace Sys2Proof.Machine

open Sys2Proof

/-- Largest record, and the NOR offset of copy 0 (A) or 1 (B) (R487, R507). -/
def recMax : Nat := 262144
def copyAddr (c : Nat) : Nat := 0x01900000 + c * 0x40000

/-- An item: TYPE, KEY, and the bytes after its header. -/
structure RecItem where
  ty : Nat
  key : Nat
  body : List Byte
deriving DecidableEq, Repr

/-- The item keeps R508: a known TYPE, a LEN that fits it, and an aligned KEY. -/
def itemShape (ty len key : Nat) : Bool :=
  if ty = 1 then len == 16 && key % 4 == 0
  else if ty = 2 then len == 24 && key % 8 == 0
  else ty == 3 && 8 ≤ len && len % 8 == 0

/-- The items that bytes spell, all of them whole and well formed; none otherwise. -/
def parseItems : Nat → List Byte → Option (List RecItem)
  | 0, bs => if bs.isEmpty then some [] else none
  | fuel + 1, bs =>
    if bs.isEmpty then some []
    else
      let len := le bs 2 2
      if bs.length < 8 || bs.length < len || !itemShape (le bs 0 1) len (le bs 4 4) then none
      else (parseItems fuel (bs.drop len)).map (fun t => ⟨le bs 0 1, le bs 4 4, (bs.drop 8).take (len - 8)⟩ :: t)

/-- The items of bytes. -/
def itemsOf (bs : List Byte) : Option (List RecItem) := parseItems (bs.length / 8 + 1) bs

/-- The bytes of an item. -/
def itemBytes (x : RecItem) : List Byte := [byte x.ty, 0] ++ bytesOf 2 (8 + x.body.length) ++ bytesOf 4 x.key ++ x.body

/-- VALUE and MASK of a register item, and the bytes it names. -/
def itemSize (x : RecItem) : Nat := if x.ty = 1 then 4 else 8
def itemValue (x : RecItem) : Nat := le x.body 0 (itemSize x)
def itemMask (x : RecItem) : Nat := le x.body (itemSize x) (itemSize x)

/-- Addresses `a` to `a + n - 1` meet some instance of `r`. -/
def meets (r : RegDef) (a n : Nat) : Bool := (List.range n).any (fun k => (r.locate (a + k)).isSome)

/-- CFG refuses the KEY (R509): outside the block windows, inside CFG, or inside a capture of FLT. -/
def keyRefused (x : RecItem) : Bool :=
  x.ty != 3 && (x.key < 0x40000000 || 0x41200000 < x.key + itemSize x || (0x41000000 ≤ x.key && x.key < 0x41100000) ||
    meets R.FLT_FIRST x.key (itemSize x) || meets R.FLT_FNCAP x.key (itemSize x) || meets R.FLT_RING x.key (itemSize x))

/-- A record's check word: CHECK taken as 0. -/
def recCrc (b : List Byte) : Nat := crc32c (b.take 0x3C ++ bytesOf 4 0 ++ b.drop 0x40)

/-- The record that `rd' n` reads the first n bytes of, when it passes the checks of R510. -/
def recordOf (rd' : Nat → List Byte) : Option (List Byte) :=
  let h := rd' 64
  let len := le h 0x0C 4
  if le h 0 4 ≠ 0x5450534B || le h 4 2 ≠ 1 || le h 6 2 ≠ 64 || len % 8 ≠ 0 || len < 64 || recMax < len then none
  else
    let b := rd' len
    if recCrc b ≠ le b 0x3C 4 then none
    else match itemsOf (b.drop 64) with
      | some l => if l.length = le b 0x10 4 then some b else none
      | none => none

/-- GEN of a record, and its items. -/
def recGen (b : List Byte) : Nat := le b 8 4
def recItems (b : List Byte) : List RecItem := (itemsOf (b.drop 64)).getD []

/-- A record of items. -/
def recordBytes (gen : Nat) (l : List RecItem) : List Byte :=
  let body := l.flatMap itemBytes
  let h := bytesOf 4 0x5450534B ++ bytesOf 2 1 ++ bytesOf 2 64 ++ bytesOf 4 gen ++ bytesOf 4 (64 + body.length) ++ bytesOf 4 l.length ++
    List.replicate 40 0
  h ++ bytesOf 4 (recCrc (h ++ bytesOf 4 0 ++ body)) ++ body

/-- An item drops an earlier one of the same KEY: a register item whose MASK it covers, or a blob (R513 step 1). -/
def drops (x old : RecItem) : Bool :=
  x.key == old.key && (if x.ty = 3 then old.ty == 3 else old.ty != 3 && (itemMask x &&& itemMask old) == itemMask old)

/-- Items merged in order. -/
def mergeItems (l : List RecItem) : List RecItem := l.foldl (fun acc x => acc.filter (fun o => !drops x o) ++ [x]) []

/-- The check of an item at a commit (R513 step 2, R515): 0, or ERR. -/
def itemErr (x : RecItem) : Nat :=
  if !itemShape x.ty (8 + x.body.length) x.key then 1
  else if keyRefused x then 2
  else if x.ty = 3 && x.key = 1 && (checkBytes (· ≤ x.body.length) (fun n => x.body.take n)).1 ≠ 0 then 4
  else 0

/-- The blob of an ID in the record in use. -/
def recBlob (s : State) (id : Nat) : List Byte :=
  (((recItems s.cfg.rec').filter (fun x => x.ty == 3 && x.key == id)).getLast?.map (·.body)).getD []

/-- The arms whose registers an item names (R513 step 4): the arm of a lane or of an arm instance of LANE or SRV, all four for the registers
common to the arms, none for a register of no arm. -/
def itemArms (x : RecItem) : List Nat :=
  let o := x.key - 0x40000000
  if x.ty = 3 then []
  else if 0x500000 ≤ o && o < 0x540000 then [(o - 0x500000) / 0x10000]
  else if 0x540000 ≤ o && o < 0x544000 then [(o - 0x540000) / 0x1000]
  else if 0x548000 ≤ o && o < 0x549000 then [0, 1, 2, 3]
  else if 0x83F000 ≤ o && o < 0x83F100 then [0, 1, 2, 3]
  else if 0x800000 ≤ o && o < 0x900000 then [(o - 0x800000) / 0x40000]
  else []

end Sys2Proof.Machine
end

