-- ==== Sys2Proof/Machine/Mi.lean ====
section
/-! DEFINITION. The management endpoint: MCTP control and NVMe-MI messages (R506). Message layouts are those of the MCTP base and NVMe-MI
specifications (log entry 8). -/

namespace Sys2Proof.Machine

open Sys2Proof

/-! ### Health (R496, R506) -/

/-- Stripes of the SPARE regions of zone `zn`. -/
def zoneSpare (g : Geometry) (zn : Zone) : Nat :=
  sumOf ((g.regions.filter (fun r => r.ty == 2 && zn.first ≤ r.first && r.last ≤ zn.last)).map (fun r => (r.last - r.first + 1) * zn.spt))

/-- Available spare: free spare stripes ÷ all spare stripes × 100, rounded down (R496); open while no geometry is active. -/
def sparePct (s : State) : Nat := match s.geo with
  | none => (Config.openVal 496 [2]).toNat % 101
  | some g =>
    let all := sumOf (g.zones.map (zoneSpare g))
    let used := sumOf (((List.range (relocCount s)).map (relocEnt s)).map (fun x => if x.flags.testBit 0 then x.count else 0))
    if all = 0 then (Config.openVal 496 [3]).toNat % 101 else (all - used) * 100 / all

/-- Composite temperature in kelvin. -/
def composite (s : State) : Nat := (kelvin (tDie s)).toNat

/-- Critical warning: bit 0 spare below its threshold of 10, bit 1 temperature beyond a threshold of function `f`, bit 2 reliability (R506). -/
def critWarn (s : State) (f : Nat) : Nat :=
  let hot := feature s f 4 % 65536 ≤ composite s || composite s ≤ ((Tab.get? (fnr s f).feat 0x104).getD 0) % 65536
  (decide (sparePct s < 10)).toNat + 2 * hot.toNat + 4 * (isDegraded s || anyWorn s).toNat

/-! ### Messages -/

/-- The endpoint answers (R506). -/
def miUp (s : State) : Bool := mgtRuns s && flag F.MGT_MI_EN 0 s

/-- An MCTP control response: header bytes, command code, completion code and data. `h`: request, datagram and instance byte. -/
def mctpSend (h : Byte) (code cc : Nat) (bs : List Byte) (s : State) : State :=
  if miUp s then emit (.mi ([0, byte (h.toNat % 64), byte code, byte cc] ++ bs)) s else s

/-- An NVMe-MI response with its integrity check. `h`: the NMP byte of the request. -/
def miSend (h : Byte) (status : Nat) (res : List Byte) (bs : List Byte) (s : State) : State :=
  let m := [0x84, byte (h.toNat % 128 + 128), 0, 0, byte status] ++ res ++ bs
  if miUp s then emit (.mi (m ++ bytesOf 4 (crc32c m))) s else s

/-- Invalid Command Opcode and Invalid Parameter. -/
def miOpcode : Nat := 3
def miParam : Nat := 4

/-- A response whose management field holds the length of its data. -/
def miData (h : Byte) (bs : List Byte) (s : State) : State := miSend h 0 (bytesOf 2 bs.length ++ [0]) bs s

/-- MCTP_SET_ENDPOINT_ID (R506): operations 0 and 1 set the ID; the others, and the null, broadcast and reserved IDs, are invalid. -/
def execMctpSetEndpointId (h : Byte) (op : BitVec 2) (eid : BitVec 8) (s : State) : Answer :=
  .next (
    if !miUp s then s
    else if 2 ≤ op.toNat || eid.toNat < 8 || eid.toNat = 255 then mctpSend h 1 2 [] s
    else mctpSend h 1 0 [0, eid, 0] { s with mgt := { s.mgt with eid := eid.toNat } })

/-- MCTP_GET_ENDPOINT_ID (R506). -/
def execMctpGetEndpointId (h : Byte) (s : State) : Answer := .next (mctpSend h 2 0 [byte s.mgt.eid, 0, 0] s)

/-- MCTP_GET_VERSION_SUPPORT (R506): one version, which the spec leaves open, for the base, control and NVMe-MI message types. -/
def execMctpGetVersionSupport (h ty : Byte) (s : State) : Answer :=
  .next (if [0xFF, 0, 4].contains ty then mctpSend h 4 0 (1 :: bytesOf 4 (Config.openVal 506 [0, ty.toNat]).toNat) s else mctpSend h 4 0x80 [] s)

/-- MCTP_GET_MESSAGE_TYPE_SUPPORT (R506): NVMe-MI. -/
def execMctpGetMessageTypeSupport (h : Byte) (s : State) : Answer := .next (mctpSend h 5 0 [1, 4] s)

/-- Controllers the endpoint lists: PF0 and every enabled VF. -/
def miFns (s : State) : List Nat := (List.range 64).filter (fnOn s)

/-- NVM Subsystem Information: two ports; the version is open. -/
def miSubsystem : List Byte := structOf 32 [(0, 1, 1), (1, 1, (Config.openVal 506 [1]).toNat % 256), (2, 1, (Config.openVal 506 [2]).toNat % 256)]

/-- Largest MCTP transmission unit of the endpoint: at least the baseline 64, else open. -/
def miMtuMax : Nat := 64 + (Config.openVal 506 [3]).toNat % 65472

/-- Port Information: 0 PCIe, with the rates and the width advertised (R283), 1 SMBus. -/
def miPort (s : State) (p : Nat) : List Byte :=
  if p = 0 then structOf 32 [(0, 1, 1), (2, 2, miMtuMax), (8, 1, fld F.CFG_MPS 0 s), (9, 1, 2 ^ capSpeed s - 1),
    (10, 1, fld F.HIF_LINK_STAT_SPEED 0 s), (11, 1, capWidth s), (12, 1, fld F.HIF_LINK_STAT_WIDTH 0 s), (13, 1, 0)]
  else structOf 32 [(0, 1, 2), (2, 2, miMtuMax), (10, 1, fld F.MGT_MI_ADDR 0 s), (11, 1, 2)]

/-- Controller Information of function `f`. -/
def miCtrl (s : State) (f : Nat) : List Byte :=
  structOf 32 [(0, 1, 0), (5, 1, 1), (6, 2, f), (8, 2, 0x1E9C), (10, 2, if f = 0 then 0x7464 else rd R.CFG_VFDEV 0 0 s / 65536), (12, 2, fld F.HIF_ID_SSVID 0 s), (14, 2, fld F.HIF_ID_SSID 0 s)]

/-- READ_NVME_MI_DATA_STRUCTURE (R506): subsystem, port, controller list, controller. -/
def execReadNvmeMiDataStructure (h : Byte) (ty port : BitVec 8) (ctl : BitVec 16) (s : State) : Answer :=
  .next (
    if ty = 0 then miData h miSubsystem s
    else if ty = 1 then (if port.toNat ≤ 1 then miData h (miPort s port.toNat) s else miSend h miParam [0, 0, 0] [] s)
    else if ty = 2 then
      let l := (miFns s).filter (fun f => ctl.toNat ≤ f + 1)
      miData h (bytesOf 2 l.length ++ l.flatMap (fun f => bytesOf 2 (f + 1))) s
    else if ty = 3 then (match (miFns s).find? (fun f => f + 1 == ctl.toNat) with
      | some f => miData h (miCtrl s f) s
      | none => miSend h miParam [0, 0, 0] [] s)
    else miSend h miParam [0, 0, 0] [] s)

/-- Composite temperature in °C as the subsystem poll codes it: 0 to 126, 127 for more, and below 0 as two's complement. -/
def miTemp (s : State) : Nat := let c : Int := (composite s : Int) - 273; if 127 ≤ c then 127 else if c < -60 then 0xC4 else lowBits 8 c

/-- SUBSYSTEM_HEALTH_POLL (R475, R506): the drive functions and needs no reset unless it is in the safe state; the rest of the composite
controller status is open. -/
def execSubsystemHealthPoll (h : Byte) (s : State) : Answer :=
  .next (
    let bad := flag F.FLT_STAT_SAFE 0 s
    let nss := 32 * (!bad).toNat + 16 * (!bad).toNat + 8 * (hostLinkUp s).toNat
    let rdy := (miFns s).any (fun f => flag F.CSTS_RDY f s)
    let cfs := (miFns s).any (fun f => flag F.CSTS_CFS f s)
    let ccs := rdy.toNat + 2 * cfs.toNat + 4 * ((Config.openVal 506 [4]).toNat % 2 ^ 14)
    miData h (bytesOf 1 nss ++ bytesOf 1 (255 - critWarn s 0) ++ bytesOf 1 (miTemp s) ++ bytesOf 1 (deviceUsed s) ++ bytesOf 2 ccs ++ bytesOf 2 0) s)

/-- Health of one controller. -/
def miHealth (s : State) (f : Nat) : List Byte :=
  let sts := rd R.NVME_CSTS f 0 s % 64
  structOf 16 [(0, 2, f + 1), (2, 2, sts), (4, 2, composite s), (6, 1, deviceUsed s), (7, 1, sparePct s), (8, 1, critWarn s f)]

/-- CONTROLLER_HEALTH_POLL (R506): from controller `first` on, at most `max' + 1`. -/
def execControllerHealthPoll (h : Byte) (first : BitVec 16) (max' : BitVec 8) (s : State) : Answer :=
  .next (
    let l := ((miFns s).filter (fun f => first.toNat ≤ f + 1)).take (max'.toNat + 1)
    miSend h 0 [0, 0, byte l.length] (l.flatMap (miHealth s)) s)

/-- CONFIGURATION_GET (R506): 1 SMBus frequency, 3 transmission unit. -/
def execConfigurationGet (h : Byte) (id port : BitVec 8) (s : State) : Answer :=
  .next (
    if id = 1 && port = 1 then miSend h 0 [if flag F.MGT_MI_FAST 0 s then 2 else 1, 0, 0] [] s
    else if id = 3 && port = 1 then miSend h 0 (bytesOf 2 s.mgt.mtu ++ [0]) [] s
    else miSend h miParam [0, 0, 0] [] s)

/-- CONFIGURATION_SET (R506): 100 kHz or 400 kHz; a transmission unit from 64 bytes to the endpoint's largest. -/
def execConfigurationSet (h : Byte) (id port : BitVec 8) (v : BitVec 16) (s : State) : Answer :=
  .next (
    if !miUp s then s
    else if id = 1 && port = 1 && (v = 1 || v = 2) then miSend h 0 [0, 0, 0] [] (put F.MGT_MI_FAST 0 (v.toNat - 1) s)
    else if id = 3 && port = 1 && 64 ≤ v.toNat && v.toNat ≤ miMtuMax then miSend h 0 [0, 0, 0] [] { s with mgt := { s.mgt with mtu := v.toNat } }
    else miSend h miParam [0, 0, 0] [] s)

/-- VPD_READ (R506): blob 3, up to 256 bytes. -/
def execVpdRead (h : Byte) (off len : BitVec 16) (s : State) : Answer :=
  .next (
    let v := (recBlob s 3).take 256
    if v.length < off.toNat + len.toNat then miSend h miParam [0, 0, 0] [] s
    else miData h ((v.drop off.toNat).take len.toNat) s)

/-- MI_UNSUPPORTED (R506). -/
def execMiUnsupported (h : Byte) (s : State) : Answer := .next (miSend h miOpcode [0, 0, 0] [] s)

end Sys2Proof.Machine
end

