-- ==== Sys2Proof/Machine/Salvage.lean ====
section
/-! DEFINITION. Commands of the salvage engine, the lost ring and cruise (R266–R279). -/

namespace Sys2Proof.Machine

open Sys2Proof

/-! ### Control of the job (R269, R270) -/

/-- STATE of the salvage engine. -/
def salvState (s : State) : Nat := fld F.SPR_SALV_STAT_STATE 0 s

/-- A write of SPR_SALV_CTL's plain fields; ENTRY keeps its value while a job is RUN or PAUSED. -/
def salvCtlWrite (w : BusW) (s : State) : State :=
  let e := fld F.SPR_SALV_CTL_ENTRY 0 s
  let t := busWrite R.SPR_SALV_CTL 0 0 w s
  if salvState s = 1 || salvState s = 2 then put F.SPR_SALV_CTL_ENTRY 0 e t else t

/-- Some VALID region fence on the entry's surface covers every track of its range (R269). -/
def salvFenced (s : State) (x : RelocEnt) : Bool := match zoneOf s x.zone with
  | none => false
  | some zn =>
    let a := stripeTrack zn x.firstK
    let b := stripeTrack zn (x.firstK + x.count - 1)
    (List.range 64).any (fun n =>
      flag F.SPR_RFENCE_VALID n s && fld F.SPR_RFENCE_SURF n s == x.surf && fld F.SPR_RFENCE_FIRST n s ≤ a && b ≤ fld F.SPR_RFENCE_LAST n s)

/-- SPR_SALV_START (R269, R270, R277). -/
def execSprSalvStart (w : BusW) (s : State) : Answer :=
  let s := salvCtlWrite w s
  if !wrote1 31 w then .next s
  else if salvState s = 1 || salvState s = 2 || !salvFenced s (jobEnt s) then .next (put F.SPR_SALV_STAT_ERR 0 1 s)
  else
    let s := wr R.SPR_SALV_POS 0 0 0 (wr R.SPR_SALV_CNT 0 0 0 (put F.SPR_SALV_STAT_ERR 0 0 (salvSet 1 s)))
    .next (c4Change 0 { s with spr := { s.spr with
      pausing := false, aborting := false, jobs := Tab.put s.spr.jobs (fld F.SPR_SALV_CTL_ENTRY 0 s) (1, 0) } })

/-- SPR_SALV_PAUSE (R270): the batch in hand completes first. -/
def execSprSalvPause (w : BusW) (s : State) : Answer :=
  let s := salvCtlWrite w s
  .next (if wrote1 30 w && salvState s = 1 then batchDone { s with spr := { s.spr with pausing := true } } else s)

/-- SPR_SALV_RESUME (R270). -/
def execSprSalvResume (w : BusW) (s : State) : Answer :=
  let s := salvCtlWrite w s
  .next (if wrote1 29 w && salvState s = 2 then c4Change 0 (salvSet 1 s) else s)

/-- SPR_SALV_ABORT (R270): the batch in hand completes first; the bitmap is kept. -/
def execSprSalvAbort (w : BusW) (s : State) : Answer :=
  let s := salvCtlWrite w s
  .next (
    if !wrote1 28 w then s
    else if salvState s = 2 then c4Change 0 (salvSet 4 s)
    else if salvState s = 1 then batchDone { s with spr := { s.spr with aborting := true } }
    else s)

/-! ### Batches (R270–R274) -/

/-- Stripe `i` of the job joins the batch: one that holds no data has its bit set, another asks for its exclusive choker (R271). -/
def batchTake (i : Nat) (s : State) : State :=
  let x := jobEnt s
  let k := x.firstK + i
  if relocBit s x i then s
  else if unowned s x.zone k then relocDone x.zone k s
  else match ownerOf s x.zone k with
    | none => s
    | some (nsid, n) =>
      if (chkFree s).isNone then s
      else
        let d := dataOf (nsEnt s nsid).red
        chkEnter nsid (n * d) (n * d + d - 1) true (.salv i) { s with spr := { s.spr with batch := s.spr.batch ++ [(i, .choke)] } }

/-- SALVAGE_BATCH (R270, R271): with no batch in hand, the job takes the next stripes from POS, or is DONE. -/
def execSalvageBatch (s : State) : Answer :=
  if salvState s ≠ 1 || !s.spr.batch.isEmpty then .next s
  else
    let s := salvAdvance s
    let p := fld F.SPR_SALV_POS_POS 0 s
    let x := jobEnt s
    if x.count ≤ p then
      let a := fld F.SPR_RELOC_BASE_ADDR 0 s * 32 + 32 * fld F.SPR_SALV_CTL_ENTRY 0 s + 7
      let s := sramWrite a [byte (x.flags ||| 2)] s
      .next (degradedUpdate (c4Change 0 (raiseEvent 86 (salvSet 3 s))))
    else
      let n := min (fld1 F.SPR_SALV_CTL_BATCH 0 s) (x.count - p)
      .next (salvAdvance (upTo n (fun i s => batchTake (p + i) s) s))

/-- The data bodies of a stripe that salvage has read, and the slots that are lost: where members were not read because staged entries replace them,
only erased slots that none replaces (R271, R272). -/
def salvBodies (s : State) (r : StripeRd) : List (List Byte) × List Nat :=
  let kept := keptMembers r
  let need := (erasedData s r).filter (fun q => !kept.contains (surfOf s r.zone r.k q))
  if kept.isEmpty then judged s r
  else ((List.range (dataOf r.red)).map (fun q => (memBySlot s r q).getD (if need.contains q then lostSector else zeroBody)), need)

/-- The members that staged entries replace are read after all: an erased slot that none replaces can be rebuilt with them (R271). -/
def salvNeeds (s : State) (r : StripeRd) : Bool :=
  let kept := keptMembers r
  !kept.isEmpty && !(salvBodies s r).2.isEmpty && erasures s r ≤ r.red + kept.length

/-- Units lost in the job are counted, in SPR and in the record of its entry (R272, R276). -/
def salvCount (n : Nat) (s : State) : State :=
  if n = 0 then s
  else
    let e := fld F.SPR_SALV_CTL_ENTRY 0 s
    let j := (Tab.get? s.spr.jobs e).getD (0, 0)
    let s := put F.SPR_SALV_CNT_LOST 0 ((fld F.SPR_SALV_CNT_LOST 0 s + n) % 2 ^ 32) (tallyDev 20 n s)
    c4Change 0 { s with spr := { s.spr with jobs := Tab.put s.spr.jobs e (j.1, j.2 + n) } }

/-- The outcome of stripe `i`, whose read is `r` (R271, R272); the stripe waits while the lost ring has no room for its lost units. Its spare pass
waits for the rest of the batch. -/
def salvJudge (i : Nat) (r : StripeRd) (s : State) : State :=
  let x := jobEnt s
  let k0 := x.firstK + i
  if relocBit s x i || unowned s x.zone k0 then startHeld (salvSkip i (dropRead r.id s))
  else match ownerOf s x.zone k0 with
  | none => s
  | some (nsid, n) =>
    let ent := nsEnt s nsid
    if salvNeeds s r then readKept r ⟨4, 0, false, false, s.time⟩ s
    else
    let j := salvBodies s r
    let lost := j.2.filter (fun q => (newerCopy s nsid (n * dataOf r.red + q)).isNone)
    if lostRoom s < lost.length then setPhase i .lostWait s
    else
      let s := dropRead r.id s
      let s := if j.2.isEmpty then s else countUnrec s
      let s := salvCount lost.length (each lost (fun q s => lostRecord nsid (n * dataOf r.red + q) 1 ent.gen s) s)
      let ds := withStaged s nsid n j.1
      let wz := relocate s true (x.zone, k0)
      let mem := passMembers s wz.1 wz.2 r.red 8 ds (fun q => bodyFlags s nsid (ds.getD q []))
      let q := sprId s
      let p : Pass := ⟨q.1, .salv i, wz.1, wz.2, x.zone, k0, r.red, nsid, mem, 4, 0, false, 0, none, true, false, none, 0, [], ent.gen, none, s.time⟩
      if passRefused q.2 p then passFailed p 1 (passReport p (setPass p q.2))
      else startHeld (setPhase i .write (setPass p q.2))

/-- SALVAGE_STRIPE_JUDGE (R271–R274): the first stripe of the batch whose reads have all ended. -/
def execSalvageStripeJudge (s : State) : Answer :=
  let find := (Tab.vals s.spr.reads).findSome? (fun r => match r.use with
    | .salv i => if readDone r && s.spr.batch.contains (i, .read) then some (i, r) else none
    | _ => none)
  match find with
  | none => .next s
  | some (i, r) => .next (salvJudge i r (countStale r s))

/-! ### Cruise (R278, R279) -/

/-- Tracks of zone `z` before track `t` that are MAIN (R25). -/
def mainTracks (g : Geometry) (zn : Zone) (t : Nat) : Nat :=
  (t - zn.first) - ((g.regions.map (fun r => if zn.first ≤ r.first && r.first ≤ zn.last then (min t (r.last + 1)) - r.first else 0)).foldl (· + ·) 0)

/-- Ordinal of stripe `k` of zone `z` among the MAIN stripes, in zone order and then k order (R278). -/
def mainOrd (g : Geometry) (z k : Nat) : Nat :=
  let before := ((g.zones.take z).map (fun zn => mainTracks g zn (zn.last + 1) * zn.spt)).foldl (· + ·) 0
  match g.zones[z]? with
  | none => before
  | some zn => before + mainTracks g zn (stripeTrack zn k) * zn.spt + k % zn.spt

/-- A run of owned stripes: first ordinal, count, namespace, first namespace stripe, zone, first stripe index. -/
structure OwnRun where
  ord : Nat
  count : Nat
  nsid : Nat
  n : Nat
  zone : Nat
  k : Nat
deriving DecidableEq, Repr

/-- The part of a run from namespace stripe `a` up to `b`. -/
def runPart (r : OwnRun) (a b : Nat) : OwnRun :=
  let lo := max a r.n
  let hi := min b (r.n + r.count)
  { r with ord := r.ord + (lo - r.n), count := hi - lo, n := lo, k := r.k + (lo - r.n) }

/-- The runs of owned stripes that hold data. -/
def ownRuns (s : State) (g : Geometry) : List OwnRun :=
  ((List.range 256).map (· + 1)).flatMap (fun nsid =>
    let x := nsEnt s nsid
    if !x.valid then []
    else
      let es := nsExtents s x
      let total := ceilDiv x.units (dataOf x.red)
      let rs := es.zipIdx.map (fun ((b, z, k), i) => (⟨mainOrd g z k, ((es[i + 1]?).map (·.1)).getD total - b, nsid, b, z, k⟩ : OwnRun))
      match nsr s nsid with
      | none => rs
      | some r => (rs.map (fun q => runPart q 0 r.fill)) ++ (r.early.flatMap (fun e => rs.map (fun q => runPart q e (e + 1)))))

/-- Runs without the range of a salvage job that is RUN or PAUSED (R277). -/
def skipJob (s : State) (rs : List OwnRun) : List OwnRun :=
  if salvState s ≠ 1 && salvState s ≠ 2 then rs
  else
    let x := jobEnt s
    rs.flatMap (fun r => if r.zone ≠ x.zone then [r]
      else [runPart r 0 (r.n + (x.firstK - r.k)), runPart r (r.n + (x.firstK + x.count - r.k)) (r.n + r.count)])

/-- The next stripe for cruise at or after ordinal `p`. -/
def cruiseNext (s : State) (p : Nat) : Option (Nat × OwnRun) := match s.geo with
  | none => none
  | some g =>
    let cs := ((skipJob s (ownRuns s g)).filter (fun r => 0 < r.count && p < r.ord + r.count)).map (fun r => (max p r.ord, r))
    cs.foldl (fun b c => match b with | none => some c | some d => if c.1 < d.1 then some c else b) none

/-- CRUISE_VISIT (R277, R278): the next owned MAIN stripe is taken under a shared choker; past the last one the pass is complete. -/
def execCruiseVisit (s : State) : Answer :=
  if !flag F.SPR_CRUISE_CTL_EN 0 s || s.spr.cruise.isSome || (chkFree s).isNone then .next s
  else
    let p := fld F.SPR_CRUISE_POS_POS 0 s
    match cruiseNext s p with
    | none => .next (if s.geo.isNone then s else
        put F.SPR_CRUISE_POS_POS 0 0 (put F.SPR_CRUISE_POS_PASS 0 ((fld F.SPR_CRUISE_POS_PASS 0 s + 1) % 2 ^ 24) s))
    | some (o, r) =>
      let d := dataOf (nsEnt s r.nsid).red
      let n := r.n + (o - r.ord)
      let c : Cruise := ⟨r.zone, r.k + (o - r.ord), r.nsid, n, 0, .choke, []⟩
      let s := put F.SPR_CRUISE_POS_POS 0 ((o + 1) % 2 ^ 40) { s with spr := { s.spr with cruise := some c } }
      .next (chkEnter r.nsid (n * d) (n * d + d - 1) false .cruise s)

/-- A cruise stripe's class (R278). -/
inductive CruiseCls where
  | loss | rebuild | mismatch (fix : Option (List (List Byte))) | weak | clean

/-- The data bodies of a stripe whose parity does not verify, with the one bad member put right; none where it cannot be located (R278). -/
def locateBad (s : State) (r : StripeRd) : Option (List (List Byte)) :=
  let n := dataOf r.red
  let ds := (List.range n).map (fun j => (memBySlot s r j).getD zeroBody)
  let sp := xorBytes ((memBySlot s r n).getD zeroBody) (parityP ds)
  let sq := xorBytes ((memBySlot s r (n + 1)).getD zeroBody) (parityQ ds)
  let z := fun (l : List Byte) => l.all (· == 0)
  if r.red ≠ 2 then none
  else if z sq || z sp then some ds
  else match (List.range 14).find? (fun x => sq == gfScale (gfPow x) sp) with
    | none => none
    | some x => some (modifyAt (fun d => xorBytes d sp) ds x)

/-- A member makes the stripe WEAK (R278). -/
def weakMember (s : State) (m : MemState) : Bool := match m with
  | .got _ w mse => (w.testBit 12 && fld F.SPR_CRUISE_CTL_LAD_REF 0 s ≤ bitsOf w 55 52) || fld F.SPR_CRUISE_CTL_MSE_REF 0 s * 256 ≤ mse
  | _ => false

/-- The class of a stripe that cruise has read (R278). -/
def cruiseClass (s : State) (r : StripeRd) : CruiseCls :=
  let n := dataOf r.red
  if erasures s r = 0 then
    let ds := (List.range n).map (fun j => (memBySlot s r j).getD zeroBody)
    if memBySlot s r n == some (parityP ds) && (r.red ≠ 2 || memBySlot s r (n + 1) == some (parityQ ds)) then
      if r.mem.any (fun e => weakMember s e.2) then .weak else .clean
    else .mismatch (locateBad s r)
  else if (stripeData s r).isSome then .rebuild
  else .loss

/-- The data bodies a rewrite carries. -/
def cruiseBodies (s : State) (r : StripeRd) : List (List Byte) := match cruiseClass s r with
  | .mismatch (some ds) => ds
  | _ => (judged s r).1

/-- Cruise gives up its shared choker and asks for an exclusive one (R279). -/
def cruiseExclusive (c : Cruise) (gen : Nat) (s : State) : State :=
  let d := dataOf (nsEnt s c.nsid).red
  chkEnter c.nsid (c.n * d) (c.n * d + d - 1) true .cruise
    (chkRelease .cruise { s with spr := { s.spr with cruise := some { c with phase := .exclusive, gen := gen } } })

/-- What cruise finds is recorded in FC1, with its event (R278). -/
def cruiseBad (r : StripeRd) (s : State) : State := report 187 none 7 5 (memberPsa s r.zone r.k 0) 0 s

/-- A parity mismatch whose bad member cannot be named: recorded and not rewritten; under 14+2 it counts as a LOSS of nothing too (R278). -/
def cruiseUnlocated (r : StripeRd) (s : State) : State :=
  let s := count F.SPR_CRUISE_CNT_MISMATCH 0 s
  cruiseLeave (cruiseBad r (if r.red = 2 then count F.SPR_CRUISE_CNT_LOSS 0 s else s))

/-- Slots that a rewrite makes lost sectors: no newer copy of their units goes with it (R260, R272). -/
def cruiseLost (s : State) (c : Cruise) (r : StripeRd) : List Nat :=
  (judged s r).2.filter (fun j => (newerCopy s c.nsid (c.n * dataOf r.red + j)).isNone)

/-- The slots `lost` are recorded as lost units, with cause CRUISE (R275). -/
def cruiseRecord (c : Cruise) (r : StripeRd) (lost : List Nat) (s : State) : State :=
  each lost (fun j s => lostRecord c.nsid (c.n * dataOf r.red + j) 2 (nsEnt s c.nsid).gen s) (tallyDev 20 lost.length s)

/-- A stripe of class LOSS is counted and recorded (R278). -/
def cruiseLoss (c : Cruise) (r : StripeRd) (lost : List Nat) (s : State) : State :=
  cruiseBad r (countUnrec (count F.SPR_CRUISE_CNT_LOSS 0 (cruiseRecord c r lost s)))

/-- A stripe that cruise has read is classified (R278); a LOSS waits while the lost ring has no room. -/
def cruiseJudge (c : Cruise) (r : StripeRd) (s : State) : State :=
  let gen := stripeGen r
  if !cruiseOwns s c then cruiseLeave (dropRead r.id s)
  else match cruiseClass s r with
  | .loss =>
    let lost := cruiseLost s c r
    if lostRoom s < lost.length then { s with spr := { s.spr with cruise := some { c with phase := .lostWait } } }
    else cruiseExclusive { c with lost := lost } gen (cruiseLoss c r lost (dropRead r.id s))
  | .rebuild => cruiseExclusive c gen (count F.SPR_CRUISE_CNT_REBUILD 0 (dropRead r.id s))
  | .mismatch none => cruiseUnlocated r (dropRead r.id s)
  | .mismatch (some _) => cruiseExclusive c gen (count F.SPR_CRUISE_CNT_MISMATCH 0 (dropRead r.id s))
  | .weak => cruiseExclusive c gen (count F.SPR_CRUISE_CNT_WEAK 0 (dropRead r.id s))
  | .clean => cruiseLeave (dropRead r.id s)

/-- The read of cruise, or of its reread, once all members are in. -/
def cruiseRead (s : State) (again : Bool) : Option StripeRd :=
  (Tab.vals s.spr.reads).find? (fun r => readDone r && r.use == (if again then .cruise2 else .cruise))

/-- CRUISE_CLASSIFY (R275, R278). -/
def execCruiseClassify (s : State) : Answer :=
  match s.spr.cruise, cruiseRead s false with
  | some c, some r => .next (if c.phase = .read then cruiseJudge c r (countStale r s) else s)
  | _, _ => .next s

/-- The second read of a stripe that cruise rewrites is in: the rewrite starts as an in-place pass, or is dropped when the stripe's GEN has changed.
Units that only this read shows lost are recorded first, for which it waits while the lost ring has no room (R272, R275, R279). -/
def cruiseWrite (c : Cruise) (r : StripeRd) (s : State) : State :=
  let lost := cruiseLost s c r
  let fresh := lost.filter (fun j => !c.lost.contains j)
  if stripeGen r ≠ c.gen then cruiseLeave (countStale r (dropRead r.id s))
  else if lostRoom s < fresh.length then s
  else
    let s := countStale r (dropRead r.id s)
    match cruiseClass s r with
    | .mismatch none => cruiseUnlocated r s
    | _ =>
      let s := if fresh.isEmpty then s else if c.lost.isEmpty then cruiseLoss c r fresh s else cruiseBad r (cruiseRecord c r fresh s)
      let ds := withStaged s c.nsid c.n (cruiseBodies s r)
      let wz := relocate s true (c.zone, c.k)
      let mem := passMembers s wz.1 wz.2 r.red 0 ds (fun q => bodyFlags s c.nsid (ds.getD q []))
      let q := sprId { s with spr := { s.spr with cruise := some { c with phase := .write } } }
      let w := cruiseWant s
      let p : Pass := ⟨q.1, .cruise, wz.1, wz.2, c.zone, c.k, r.red, c.nsid, mem, w.cls, w.fn, false, 0, none, false, false, none, 0, [],
        (nsEnt s c.nsid).gen, none, w.org⟩
      if passRefused q.2 p then passFailed p 1 (passReport p (setPass p q.2)) else passStart p q.2

/-- CRUISE_REWRITE (R260, R279, R343): with the exclusive choker granted the stripe is read again; once that read is in, the rewrite waits for open
groups and for room in the early lists, and starts. A stripe whose namespace is gone is left. -/
def execCruiseRewrite (s : State) : Answer :=
  match s.spr.cruise, chkOf s .cruise with
  | some c, some k =>
    if !k.granted then .next s
    else if c.phase = .exclusive then
      if !cruiseOwns s c then .next (cruiseLeave s)
      else
        let zk := relocate s false (c.zone, c.k)
        .next (startRead .cruise2 zk.1 zk.2 (nsEnt s c.nsid).red none (cruiseWant s)
          { s with spr := { s.spr with cruise := some { c with phase := .reread } } })
    else match cruiseRead s true with
      | none => .next s
      | some r =>
        let d := dataOf r.red
        if c.phase ≠ .reread then .next s
        else if !cruiseOwns s c then .next (cruiseLeave (dropRead r.id s))
        else if groupCovers s c.nsid (c.n * d) d || earlyHolds s c.nsid c.n then .next s
        else .next (cruiseWrite c r s)
  | _, _ => .next s

/-! ### The lost ring (R275) -/

/-- LOST_RING_ROOM (R275): salvage, cruise and destage that waited for room in the lost ring go on. -/
def execLostRingRoom (s : State) : Answer :=
  let s := each s.spr.batch (fun e s => if e.2 = .lostWait then
      match (Tab.vals s.spr.reads).find? (fun r => r.use == .salv e.1) with
      | some r => salvJudge e.1 r s
      | none => s
    else s) s
  let s := match s.spr.cruise, cruiseRead s false with
    | some c, some r => if c.phase = .lostWait then cruiseJudge c r s else s
    | _, _ => s
  .next (resumeOps s)

end Sys2Proof.Machine
end

