-- ==== Sys2Proof/Machine/LogPages.lean ====
section
/-! DEFINITION. Log pages and GET_LOG_PAGE (R276, R373–R375, R404, R445, R458, R481, R496). Pages 01h to 05h have the layout of the NVM Express
specification (log entry 8). -/

namespace Sys2Proof.Machine

open Sys2Proof

/-! ### Pages of the specification -/

/-- Error Information, 64 entries (R367). -/
def pageErrors (s : State) (f : Nat) : List Byte :=
  let l := (fnr s f).errLog
  l.flatten ++ List.replicate (64 * (64 - l.length)) 0

/-- Data units of a byte count: thousands of 512 bytes, rounded up. -/
def dataUnits (n : Nat) : Nat := ceilDiv n 512000

/-- SMART / Health Information (R373, R496): a function's own data units and commands, from its tally; the rest is of the device. What no
register of Scetus holds is open. -/
def pageSmart (s : State) (f : Nat) : List Byte :=
  let c := fun (k : Nat) => fld2 F.TLY_LIVE_COUNT f k s
  let o := fun (k : Nat) => (Config.openVal 373 [k]).toNat
  structOf 512 ([(0, 1, critWarn s f), (1, 2, composite s), (3, 1, sparePct s), (4, 1, 10), (5, 1, deviceUsed s),
    (32, 16, dataUnits (c 0)), (48, 16, dataUnits (c 1)), (64, 16, c 3), (80, 16, c 4), (96, 16, o 96), (112, 16, fld F.BLZ_TIME_PCYCLE 0 s),
    (128, 16, powerHours s), (144, 16, o 144), (160, 16, fld F.TLY_DLIVE_COUNT 19 s), (176, 16, (fnr s f).errCount), (192, 4, o 192), (196, 4, o 196)] ++
    (List.range 8).map (fun k => (200 + 2 * k, 2, (kelvin (sext 16 (fld F.MGT_TEMP_TEMP k s))).toNat)))

/-- Firmware Slot Information: the slot booted, NEXT, and the revision of each slot that holds an image. -/
def pageFirmware (s : State) : List Byte :=
  let next := ((selector s).map (·.next)).getD 0
  let l := structOf 512 [(0, 1, fld F.MGT_STAT_BOOT_SLOT 0 s + 16 * next)]
  ([1, 2, 3, 4] : List Nat).foldl (fun l k => let r := fwRev s k; if r == List.replicate 8 0xFF then l else layAt l (8 * k) r) l

/-- Changed Namespace List. -/
def pageChanged (s : State) (f : Nat) : List Byte :=
  let l := (sortBy id (fnr s f).nsChanged).flatMap (bytesOf 4)
  l ++ List.replicate (4096 - l.length) 0

/-- Commands Supported and Effects: bit 0 for each opcode the function may issue, bit 1 for those that change logical blocks. -/
def pageEffects (f : Nat) : List Byte :=
  let adm := ([0x00, 0x01, 0x02, 0x04, 0x05, 0x06, 0x08, 0x09, 0x0A, 0x0C, 0x80, 0xC2, 0xC5] : List Nat) ++
    (if f = 0 then [0x0D, 0x10, 0x11, 0x15, 0x1C, 0xC0, 0xC1, 0xC4, 0xC6, 0xC8, 0xC9, 0xCA] else [])
  structOf 4096 (adm.map (fun o => (4 * o, 4, if o = 0x80 then 3 else 1)) ++
    ([0x00, 0x01, 0x02, 0x05, 0x08, 0x0C, 0x81, 0x82, 0x84] : List Nat).map (fun o => (1024 + 4 * o, 4, if o = 1 || o = 8 || o = 0x81 then 3 else 1)))

/-! ### C0h Health and Wear (R496) -/

/-- One record: its kind and index follow from its place. -/
def wearRecord (s : State) (r : Nat) : List Byte :=
  let x := Tab.get s.mgt.wear {} r
  let ki := if r < 64 then (1, r) else if r < 68 then (2, r - 64) else (r - 65, 0)
  structOf 32 [(0, 1, ki.1), (1, 1, ki.2), (2, 1, wearState s r), (3, 1, x.used), (4, 2, x.hist.length), (8, 4, x.metric), (12, 4, x.eol), (16, 4, x.lo),
    (20, 4, x.hi), (24, 4, x.updated)]

def pageWear (s : State) : List Byte :=
  structOf 64 [(0, 2, 1), (2, 2, 72), (4, 4, powerHours s), (8, 4, s.mgt.wearChange), (12, 4, deviceEol s), (16, 1, deviceUsed s)] ++
    (List.range 72).flatMap (wearRecord s)

/-! ### C1h Tally Snapshot (R445) and C6h Latency Histogram (R404) -/

/-- Functions a page shows to function `f`. -/
def pageFns (f : Nat) : List Nat := if f = 0 then List.range 64 else [f]

def pageTally (s : State) (f : Nat) : List Byte :=
  structOf 64 [(0, 2, 1), (2, 1, (pageFns f).length), (3, 1, (f == 0).toNat), (4, 4, fld F.TLY_EPOCH_EPOCH 0 s), (8, 8, fld F.TLY_SHD_TIME_TIME 0 s),
    (16, 3, fld F.TLY_SHD_PCY_PCYCLE 0 s)] ++
    (pageFns f).flatMap (fun g => bytesOf 8 g ++ (List.range 16).flatMap (fun k => bytesOf 8 (fld2 F.TLY_SHD_COUNT g k s))) ++
    (if f = 0 then (List.range 64).flatMap (fun k => bytesOf 8 (fld F.TLY_DSHD_COUNT k s)) else [])

def pageHist (s : State) (f : Nat) : List Byte :=
  structOf 64 [(0, 2, 1), (2, 2, (pageFns f).length), (8, 8, s.time)] ++
    (pageFns f).flatMap (fun g => bytesOf 8 g ++ (List.range 64).flatMap (fun b => bytesOf 8 (Tab.get s.sched.hist 0 (64 * g + b))))

/-! ### C2h Blaze (R458) -/

def pageBlaze (s : State) : List Byte :=
  let p := permRecs s
  let c := circRecs s
  structOf 64 [(0, 2, 1), (2, 2, p.length), (4, 2, c.length), (8, 4, le (c.headD []) 4 4), (12, 4, fld F.BLZ_SEQ_SEQ 0 s), (16, 8, blzTime s),
    (24, 4, fld F.BLZ_STAT_DROP 0 s)] ++ p.flatten ++ c.flatten

/-! ### C3h Fault Capture (R481) -/

/-- Bytes of a capture. -/
def capBytes (s : State) (which i : Nat) : List Byte := (List.range 4).flatMap (fun w => bytesOf 8 (fld2 (capReg which) i w s))

/-- Ring entries that function `f` sees, oldest FSEQ first. -/
def capsSeen (s : State) (f : Nat) : List Nat :=
  let w := fld F.FLT_RING_PTR_WR 0 s
  ((List.range 64).map (fun k => (w + k) % 64)).filter (fun k =>
    let x := fld2 (capReg 2) k 0 s
    capValid s 2 k && (f == 0 || (bitsOf x 10 8 == 3 && x.testBit 22 && bitsOf x 21 16 == f)))

def pageFaults (s : State) (f : Nat) : List Byte :=
  let l := capsSeen s f
  structOf 64 [(0, 2, 1), (2, 2, l.length), (4, 4, s.flt.change), (8, 4, fld F.FLT_FSEQ_FSEQ 0 s)] ++ l.flatMap (capBytes s 2)

/-! ### C4h Salvage Status and Lost-LBA list (R276) -/

/-- VALID relocation entries, by number. -/
def validJobs (s : State) : List Nat := (List.range (relocCount s)).filter (fun e => (relocEnt s e).flags.testBit 0)

/-- A job record: an entry that no job has taken is IDLE and has lost nothing. -/
def jobRecord (s : State) (e : Nat) : List Byte :=
  let x := relocEnt s e
  let j := (Tab.get? s.spr.jobs e).getD (0, 0)
  let st := if x.flags.testBit 1 then 3 else j.1
  let done := if x.flags.testBit 1 then x.count else ((List.range x.count).filter (relocBit s x)).length
  let tr := match zoneOf s x.zone with
    | some zn => (stripeTrack zn x.firstK, stripeTrack zn (x.firstK + x.count - 1))
    | none => (0, 0)
  structOf 32 [(0, 1, x.surf), (1, 1, st), (2, 1, x.zone), (4, 4, tr.1), (8, 4, tr.2), (16, 4, done), (20, 4, x.count), (24, 8, j.2)]

/-- Lost records that function `f` sees, ascending by NSID and then SLBA: NSID, SLBA, NLB, CAUSE. -/
def lostSeen (s : State) (f : Nat) : List (Nat × Nat × Nat × Nat) :=
  (s.spr.lost.filter (fun e => f == 0 || attachedTo s e.1 f)).take 1048576

def pageSalvHead (s : State) (f : Nat) : List Byte :=
  structOf 64 [(0, 2, 1), (2, 2, if f = 0 then (validJobs s).length else 0), (4, 4, s.spr.change), (8, 4, (lostSeen s f).length),
    (12, 4, (decide (1048576 < s.spr.lost.length)).toNat + 2 * (isDegraded s).toNat), (16, 8, s.spr.lostTotal), (24, 2, fld F.SPR_SURF_UNREACH_UNREACH 0 s)]

def pageSalvage (s : State) (f : Nat) : List Byte :=
  pageSalvHead s f ++ (if f = 0 then (validJobs s).flatMap (jobRecord s) else []) ++
    (lostSeen s f).flatMap (fun e => structOf 16 [(0, 8, e.2.1), (8, 4, e.2.2.1), (12, 2, e.1), (14, 1, e.2.2.2)])

/-! ### C5h Arm/Head/Surface Map (R374) -/

def pageMap (s : State) : List Byte :=
  let g := s.geo
  let fences := (List.range 64).filter (fun n => flag F.SPR_RFENCE_VALID n s)
  structOf 64 [(0, 2, 1), (4, 4, (g.map (·.gen)).getD 0), (8, 1, (g.map (·.armMask)).getD 0), (9, 1, fld F.SPR_FENCE_ARM_FENCE 0 s),
    (10, 2, fld F.SPR_SURF_UNREACH_UNREACH 0 s), (12, 1, fences.length),
    (16, 4, fld F.SPR_FENCE_HEAD_FENCE 0 s), (20, 4, fld F.SPR_FENCE_HEAD_FENCE 1 s), (24, 4, fld F.SPR_FENCE_DRAIN_DRAIN 0 s), (28, 4, fld F.SPR_FENCE_DRAIN_DRAIN 1 s),
    (32, 8, upTo 64 (fun h m => if eligible s h then putBit m h true else m) 0), (40, 4, s.deck.change)] ++
    (List.range 4).flatMap (fun a => structOf 16 [(0, 1, fld F.LANE_ALK_STAT_STATE a s), (1, 1, mode s a), (2, 1, fld F.SRV_MODE_TRACKING a s),
      (4, 2, (g.map (fun x => x.az.getD a 0)).getD 0)]) ++
    (List.range 64).flatMap (fun n => structOf 16 [(0, 1, fld F.SPR_RFENCE_SURF n s), (1, 1, fld F.SPR_RFENCE_VALID n s), (4, 4, fld F.SPR_RFENCE_FIRST n s),
      (8, 4, fld F.SPR_RFENCE_LAST n s)])

/-! ### Get Log Page (R372, R373, R375) -/

/-- The page of a log identifier for function `f`; none where it does not exist or is not allowed. -/
def logPage (s : State) (f lid : Nat) : Option (List Byte) :=
  match lid with
  | 0x01 => some (pageErrors s f)
  | 0x02 => some (pageSmart s f)
  | 0x03 => some (pageFirmware s)
  | 0x04 => some (pageChanged s f)
  | 0x05 => some (pageEffects f)
  | 0xC0 => if f = 0 then some (pageWear s) else none
  | 0xC1 => some (pageTally s f)
  | 0xC2 => if f = 0 then some (pageBlaze s) else none
  | 0xC3 => some (pageFaults s f)
  | 0xC4 => some (pageSalvage s f)
  | 0xC5 => if f = 0 then some (pageMap s) else none
  | 0xC6 => some (pageHist s f)
  | _ => none

/-- A read with RAE = 0 lets the events of the page be raised again, and empties the list of changed namespaces. -/
def pageRead (f lid : Nat) (s : State) : State :=
  let x := fnr s f
  setFn f { x with raised := x.raised.filter (fun k => k % 256 != lid), nsChanged := if lid = 4 then [] else x.nsChanged } s

def stLogPage : Nat := 0x109 + dnr

/-- GET_LOG_PAGE (R372–R375): the page as it stands, from the offset given; an offset beyond the page is an invalid field. -/
def execGetLogPage (slot : Fin 4096) (s : State) : Answer :=
  .next (match adm s slot.val 0x02 with
    | none => s
    | some x =>
      let lid := cdw x 10 % 256
      let off := cdw x 12 + cdw x 13 * 2 ^ 32
      if !outReady s x then s
      else match logPage s x.fn lid with
        | none => admEnd x stLogPage 0 s
        | some b =>
          if off % 4 ≠ 0 || b.length ≤ off then admEnd x stField 0 s
          else admSend x (b.drop off) 0 (if (cdw x 10).testBit 15 then s else pageRead x.fn lid s))

end Sys2Proof.Machine
end

