-- ==== Sys2Proof/Machine/Namespaces.lean ====
section
/-! DEFINITION. Namespace Management, Namespace Attachment and Format NVM (R339–R343). -/

namespace Sys2Proof.Machine

open Sys2Proof

/-- A format takes a protection setting (R339). -/
def dpsOk (flbas dps : Nat) : Bool := dps % 8 ≤ 3 && dps < 16 && (dps % 8 == 0 && dps == 0 || [1, 3, 4].contains (flbas % 16) && dps % 8 != 0)

/-- SPR's entry of namespace `n` as it stands in the table: 32 bytes (R239). -/
def nsEntry (r : NsRec) (addr : Nat) (valid : Bool) : List Byte :=
  let u := ceilDiv r.nsze (lpu r)
  bytesOf 1 (valid.toNat + (if r.profile = 1 then 2 else 0) + (if fmtL r.flbas = 512 then 4 else 0)) ++ bytesOf 1 r.exts.length ++ bytesOf 2 0 ++
    bytesOf 4 r.gen ++ bytesOf 4 addr ++ bytesOf 4 0 ++ bytesOf 8 u ++ bytesOf 8 0

/-- Address of the entry of NSID `n`. -/
def nsEntryAt (s : State) (n : Nat) : Nat := fld F.SPR_NS_BASE_ADDR 0 s * 32 + 32 * (n - 1)

/-- Namespace stripes of a record. -/
def nsStripes (r : NsRec) : Nat := ceilDiv (ceilDiv r.nsze (lpu r)) (dataOf (if r.profile = 1 then 2 else 1))

/-- MAIN stripes, and those no namespace owns. -/
def mainStripes (s : State) : Nat := match s.geo with
  | none => 0
  | some g => mainOrd g g.zones.length 0
def ownedStripes (s : State) : Nat :=
  (s.deck.nss.map (fun e => nsStripes e.2)).foldl (· + ·) 0

/-- The functions of a mask learn that namespace `n` has changed (R371). -/
def nsNotice (m n : Nat) (s : State) : State :=
  asyncMask m 2 0 (upTo 64 (fun f s => if m.testBit f && !(fnr s f).nsChanged.contains n then
    setFn f { fnr s f with nsChanged := (fnr s f).nsChanged ++ [n] } s else s) s)

/-- The stripes of extents that hold `n` stripes: zone, first stripe index, count (R240). -/
def extRuns (exts : List (Nat × Nat × Nat)) (n : Nat) : List (Nat × Nat × Nat) :=
  exts.zipIdx.map (fun e => (e.1.2.1, e.1.2.2, ((exts[e.2 + 1]?).map (·.1)).getD n - e.1.1))

/-- Two runs of stripes share one. -/
def runsMeet (a b : Nat × Nat × Nat) : Bool := a.1 == b.1 && a.2.1 < b.2.1 + b.2.2 && b.2.1 < a.2.1 + a.2.2

/-- A run lies in MAIN: in its zone, on no track of a reserved region (R25). -/
def runMain (g : Geometry) (a : Nat × Nat × Nat) : Bool := match g.zones[a.1]? with
  | none => false
  | some zn =>
    let t0 := stripeTrack zn a.2.1
    let t1 := stripeTrack zn (a.2.1 + a.2.2 - 1)
    0 < a.2.2 && t1 ≤ zn.last && !g.regions.any (fun r => r.first ≤ t1 && t0 ≤ r.last)

/-- Drive firmware's choice of extents for `n` stripes: ascending from 0, in MAIN, on stripes that no namespace owns (R240, R339). -/
def extsOk (s : State) (exts : List (Nat × Nat × Nat)) (n : Nat) : Bool :=
  let rs := extRuns exts n
  let own := (Tab.vals s.deck.nss).flatMap (fun r => extRuns r.exts (nsStripes r))
  match s.geo with
  | none => false
  | some g =>
    (exts.head?.map (·.1)) == some 0 && exts.length ≤ 64 && (exts.zip exts.tail).all (fun e => e.1.1 < e.2.1) && exts.all (fun e => e.1 < n) &&
      rs.all (runMain g) && rs.all (fun a => !own.any (runsMeet a)) && rs.zipIdx.all (fun a => rs.zipIdx.all (fun b => a.2 == b.2 || !runsMeet a.1 b.1))

/-- NS_CREATE (R239, R240, R339): the host's data structure makes a namespace on the extents drive firmware chose, whose list stands at `addr`;
extents it could not choose have no effect (log entry 17). -/
def execNsCreate (slot : Fin 4096) (addr : Nat) (exts : List (Nat × Nat × Nat)) (s : State) : Answer :=
  .next (match admAct s slot.val 0x0D 0 with
    | none => s
    | some x =>
      if !inReady x then s
      else
        let d := x.data
        let nsze := le d 0 8
        let fl := le d 26 1
        let dps := le d 29 1
        let prof := le d 0x180 1
        let awu := le d 0x181 1
        if nsze ≠ le d 8 8 || nsze = 0 || 1 < prof || 64 < awu || 32 ≤ fl || !dpsOk fl dps then admEnd x stField 0 s
        else if 5 < fl % 16 then admEnd x (0x10A + dnr) 0 s
        else match ((List.range 256).map (· + 1)).find? (fun n => (nsr s n).isNone) with
          | none => admEnd x (0x116 + dnr) 0 s
          | some n =>
            let gen := ((Tab.get? s.deck.nsGen n).getD 0 + 1) % 2 ^ 32
            let r : NsRec := ⟨nsze, fl, dps, le d 30 1 % 2, prof, if awu = 0 then 64 else awu, gen, 0, exts, 0, []⟩
            let need := nsStripes r
            if mainStripes s < ownedStripes s + need then admEnd x (0x115 + dnr) 0 s
            else if !extsOk s exts need then s
            else
              let s := { s with deck := { s.deck with nss := Tab.put s.deck.nss n r, nsGen := Tab.put s.deck.nsGen n gen } }
              let s := each exts.zipIdx (fun e s =>
                sramWrite (addr + 16 * e.2) (bytesOf 5 e.1.1 ++ bytesOf 1 e.1.2.1 ++ bytesOf 2 0 ++ bytesOf 5 e.1.2.2 ++ bytesOf 3 0) s) s
              admEnd x 0 n (sramWrite (nsEntryAt s n) (nsEntry r addr true) s))

/-- What deletion and Format do to a namespace's newer copies and records (R341). -/
def nsDrop (n : Nat) (s : State) : State :=
  let gs := s.spr.groups.filter (fun g => g.nsid == n)
  let s := { s with
    spr := { s.spr with
      live := s.spr.live.filter (fun e => e.nsid != n)
      unrec := s.spr.unrec.filter (fun e => e.1 != n)
      passes := s.spr.passes.filter (fun e => !(e.2.nsid == n && e.2.ended)) }
    deck := { s.deck with
      orphans := s.deck.orphans.filter (fun o => o.nsid != n)
      cache := s.deck.cache.filter (fun e => e.nsid != n) } }
  let s := each gs groupEnd s
  let lost := s.spr.lost.any (fun e => e.1 == n)
  let s := { s with spr := { s.spr with lost := s.spr.lost.filter (fun e => e.1 != n) } }
  if lost then c4Change 0 s else s

/-- A command on the namespace that was submitted before Format or deletion has not ended: the transfer of a read, whose choker is free (R341, R346).
-/
def nsEarlier (s : State) (x : Cmd) : Bool :=
  (Tab.vals s.deck.cmds).any (fun c => !isAdmin c && nsidOf c == nsidOf x && c.num < x.num && (readClass c || writeClass c) && c.phase != .done)

/-- What the records of a namespace barred goes on: held passes and operations, and the pressure of the early lists (R277, R343). -/
def nsAfter (s : State) : State := earlyPress (resumeOps (startHeld s))

/-- NS_DELETE (R341): under its choker the namespace goes; commands on it that wait behind end with Invalid Namespace or Format. -/
def execNsDelete (slot : Fin 4096) (s : State) : Answer :=
  .next (match cmd s slot.val with
    | none => s
    | some x =>
      if !(isAdmin x && opc x == 0x0D && cdw x 10 % 16 == 1 && x.phase == .granted) || nsEarlier s x then s
      else
        let n := nsidOf x
        match nsr s n with
        | none => admEnd x stNs 0 (chkRelease (.cmd x.slot) s)
        | some r =>
          let s := nsDrop n s
          let s := each (Tab.vals s.deck.cmds) (fun c s => if !isAdmin c && nsidOf c == n && c.phase != .done && opc c != 0 then resolveWith stNs c s else s) s
          let s := nsAfter { s with deck := { s.deck with nss := Tab.erase s.deck.nss n } }
          let a := nsEntryAt s n
          let s := sramWrite a [byte ((le (sramRead s a 1) 0 1) / 2 * 2)] s
          admEnd x 0 0 (nsNotice r.attached n (chkRelease (.cmd x.slot) s)))

/-- FORMAT_NVM (R339, R341): a new generation with the new format, under the whole-namespace choker. -/
def execFormatNvm (slot : Fin 4096) (s : State) : Answer :=
  .next (match cmd s slot.val with
    | none => s
    | some x =>
      if !(isAdmin x && opc x == 0x80 && x.phase == .granted) || nsEarlier s x then s
      else
        let n := nsidOf x
        let w := cdw x 10
        let fl := w % 16 + (if w.testBit 4 then 16 else 0)
        let dps := w / 32 % 8 + (if w.testBit 8 && w / 32 % 8 ≠ 0 then 8 else 0)
        let done := fun (st : Nat) (s : State) => admEnd x st 0 (chkRelease (.cmd x.slot) s)
        match nsr s n with
        | none => done stNs s
        | some r =>
          if w / 512 % 8 ≠ 0 then done stField s
          else if 5 < w % 16 || w / 4096 % 4 ≠ 0 then done (0x10A + dnr) s
          else if !dpsOk fl dps then done stField s
          else
            let gen := (r.gen + 1) % 2 ^ 32
            let u := ceilDiv r.nsze (lpu r)
            let t := { r with flbas := fl, dps := dps, gen := gen, fill := 0, early := [] }
            let t := { t with nsze := u * lpu t }
            let s := nsDrop n s
            let s := nsAfter { s with deck := { s.deck with nss := Tab.put s.deck.nss n t, nsGen := Tab.put s.deck.nsGen n gen } }
            let a := nsEntryAt s n
            let s := sramWrite a (nsEntry t (le (sramRead s (a + 8) 4) 0 4) true) s
            done 0 (nsNotice t.attached n s))

/-- The controllers that an attachment names, as a mask of functions; none for a list that is not valid. -/
def attachMask (d : List Byte) : Option Nat :=
  let ids := (List.range (min 64 (le d 0 2))).map (fun i => le d (2 + 2 * i) 2)
  if le d 0 2 = 0 || 64 < le d 0 2 || ids.any (fun c => c = 0 || 64 < c) then none
  else some (ids.foldl (fun m c => putBit m (c - 1) true) 0)

/-- NS_ATTACH (R340). -/
def execNsAttach (slot : Fin 4096) (s : State) : Answer :=
  .next (match admAct s slot.val 0x15 0 with
    | none => s
    | some x =>
      if !inReady x then s
      else match attachMask x.data, nsr s (nsidOf x) with
        | some m, some r =>
          if m &&& r.attached ≠ 0 then admEnd x (0x118 + dnr) 0 s
          else if r.nmic = 0 && 1 < popcount 64 (m ||| r.attached) then admEnd x (0x119 + dnr) 0 s
          else admEnd x 0 0 (nsNotice (r.attached ||| m) (nsidOf x) (setNs (nsidOf x) { r with attached := r.attached ||| m } s))
        | none, _ => admEnd x (0x11C + dnr) 0 s
        | _, none => admEnd x stNs 0 s)

/-- NS_DETACH (R340). -/
def execNsDetach (slot : Fin 4096) (s : State) : Answer :=
  .next (match admAct s slot.val 0x15 1 with
    | none => s
    | some x =>
      if !inReady x then s
      else match attachMask x.data, nsr s (nsidOf x) with
        | some m, some r =>
          if m &&& r.attached ≠ m then admEnd x (0x11A + dnr) 0 s
          else admEnd x 0 0 (nsNotice r.attached (nsidOf x) (setNs (nsidOf x) { r with attached := r.attached - m } s))
        | none, _ => admEnd x (0x11C + dnr) 0 s
        | _, none => admEnd x stNs 0 s)

end Sys2Proof.Machine
end

