-- ==== Sys2Proof/Machine/Servo.lean ====
section
/-! DEFINITION. Commands of the servo sequencers (R175–R195, R200–R209). -/

namespace Sys2Proof.Machine

open Sys2Proof

/-- The speed over an eighth of a revolution of the servo's angle, taken as it ends; `total` counts the revolutions too (R229). -/
def thetaSpeed (known : Bool) (total now : Nat) (x : ArmSrv) : ArmSrv :=
  if !known || total < x.thMark.1 then { x with thMark := (total, now) }
  else if total < x.thMark.1 + 8192 then x
  else { x with thMark := (total, now),
                thSpeed := (openRound 229 ((total - x.thMark.1) * 6000000000000 : Nat) (65536 * (now - x.thMark.2))).toNat }

/-- SRV_THETA takes wedge `w` of head `h` when that head gives the angle. REV counts each pass of the angle from 65,535 to 0; a correction of the
interpolated angle that takes it back over 0 takes that count back (R209; the last is DEDUCED, log entry 26). The wedge period is that from the
last SAM, over the wedges missed since (R176). -/
def thetaUpdate (h w : Nat) (s : State) : State :=
  if thetaHead s ≠ some h then s
  else
    let az := ((s.geo.map (fun g => g.az.getD (armOf h) 0)).getD 0)
    let th := (w * 65536 / wedges s + 65536 - az) % 65536
    let old := thetaNow s
    let rev := if fld F.SRV_THETA_SRC 0 s = 0 then old.2
      else if th + 32768 < old.1 then old.2 + 1
      else if old.1 + 32768 < th ∧ fld F.SRV_THETA_REV 0 s ≠ old.2 then old.2 + 2 ^ 32 - 1 else old.2
    let per := match (head s h).samAt with | some t => (s.time - t) / ((head s h).skipped + 1) | none => 0
    let s' := setArm 0 { thetaSpeed (fld F.SRV_THETA_SRC 0 s = 1) (rev * 65536 + th) s.time (arm s 0) with thAt := s.time, thPer := per } s
    put F.SRV_THETA_THETA 0 th (put F.SRV_THETA_REV 0 (rev % 2 ^ 32) (put F.SRV_THETA_SRC 0 1 s'))

/-- A wedge of head `h` is missed (R177, R181, R193, R207). -/
def missWedge (h : Nat) (s : State) : State :=
  let a := armOf h
  let f := h % 16
  let s := match (head s h).widx with | some w => rroAhead a w s | none => s
  let x := head s h
  let s := count F.SRV_ERR_MISS a (put2 F.SRV_HST_MISS a f (min 15 (fld2 F.SRV_HST_MISS a f s + 1)) s)
  let s := setHead h { x with yielded := false, ePrev := none, agree := 0, skipped := x.skipped + 1, widx := x.widx.map (fun w => (w + 1) % wedges s) } s
  dropWperm h s

/-- SERVO_WEDGE_MISS (R177): a servo gate closes without a valid SAM, parity or index. Three wedges whose indices agree with
each other and not with the timer relock it. -/
def execServoWedgeMiss (h : Fin 64) (c : MissCause) (s : State) : Answer :=
  let a := armOf h
  if hst s h = 0 then .next s
  else
    let s := match c with | .parity => count F.SRV_ERR_TIDPAR a s | _ => s
    let old := (head s h).seen
    let s := missWedge h s
    let x := head s h
    match c with
    | .index w =>
      let seen := match old with
        | v :: _ => if (v + 1) % wedges s = w.toNat then w.toNat :: old else [w.toNat]
        | [] => [w.toNat]
      if 3 ≤ seen.length then
        .next (put2 F.SRV_HST_LOCK a (h % 16) 1 (setHead h { x with seen := [], widx := some ((w.toNat + 1) % wedges s) } s))
      else .next (setHead h { x with seen := seen } s)
    | _ => .next (setHead h { x with seen := [] } s)

/-- Consecutive wedges met on time with the expected index while the timer is not locked (R176). -/
def wedgeAgree (h : Nat) (w : Wedge) (s : State) : Nat :=
  if w.onTime && (head s h).widx == some w.widx.toNat then (head s h).agree + 1 else 0

/-- A wedge met: a lost head acquires again, and the timer locks on two consecutive wedges met on time with the expected index (R176). -/
def wedgeLock (h : Nat) (w : Wedge) (s : State) : State :=
  let agree := wedgeAgree h w s
  let s := if hst s h = 3 then setHst h 1 s else s
  if 2 ≤ agree then put2 F.SRV_HST_LOCK (armOf h) (h % 16) 1 s else s

/-- The position and the position error of a wedge, in the head's and the arm's registers (R179, R180, R186). -/
def wedgeRecord (h : Nat) (w : Wedge) (agree : Nat) (s : State) : State :=
  let a := armOf h
  let x := head s h
  let wi := w.widx.toNat
  let p := wedgePos s h w
  let e := posError s h wi p
  let s := setHead h { x with p2 := x.p1, p1 := some p, e := e, eOp := x.opofs, samAt := some s.time, rearm := false, ePrev := if x.p1.isSome then x.ePrev else none, yielded := true, skipped := 0,
                              agree := agree, seen := [], widx := some ((wi + 1) % wedges s) } s
  put2 F.SRV_HST_PES a (h % 16) (lowBits 12 e) (put2 F.SRV_HST_MISS a (h % 16) 0 s)

/-- SERVO_WEDGE (R46, R76, R176–R181, R189, R193, R194, R209): a head's wedge gives its position and error; a permit that breaks R193
falls at once. A head that is not in READ, or whose servo sampler is off, misses its wedge. -/
def execServoWedge (h : Fin 64) (w : Wedge) (s : State) : Answer :=
  let locked := bitAt (fld2 F.SRV_HST_LOCK (armOf h) (h.val % 16) s) 0
  if hst s h = 0 then .next s
  else if persOf s h ≠ 0 || !samplerOn s h then execServoWedgeMiss h .noSam s
  else if locked && (head s h).widx.isSome && (head s h).widx != some w.widx.toNat then
    execServoWedgeMiss h (.index w.widx) s
  else
    let t := wedgeRecord h w (wedgeAgree h w s) (thetaUpdate h w.widx.toNat (rroAhead (armOf h) w.widx.toNat (wedgeLock h w s)))
    .next (if errInWindow t h (head t h).e (head t h).ePrev then t else dropWperm h t)

/-! ### The wedge group (R182–R191) -/

/-- Displacement d_h of the command that the preamp applies (R182, R206). -/
def displacement (s : State) (h : Nat) : Int :=
  applied s h * (fld2 F.SRV_HCFG_MGAIN (h / 16) (h % 16) s : Int) / 1024

/-- a_h of R182. -/
def armError (s : State) (h : Nat) : Int := (head s h).e + (head s h).eOp - displacement s h

/-- e_v over a list of arm errors: the mean or the mid-range, rounded toward zero (R182). -/
def evOf (center : Bool) (l : List Int) : Int :=
  if l.isEmpty then 0
  else if center then Int.tdiv (l.foldl max (l.headD 0) + l.foldl min (l.headD 0)) 2
  else Int.tdiv (l.foldl (· + ·) 0) l.length

/-- The heads of the error set: ACQ or TRACK with a position at this wedge (R182). -/
def errorSet (s : State) (a : Nat) : List Nat :=
  (armHeads a).filter (fun h => (hst s h == 1 || hst s h == 2) && (head s h).yielded)

/-- The step rule of R190: a head that joined or left the set other than by a missed wedge gives BUMP, and the error offset that the following
groups subtract, each before it is halved. The follow gain
path is what the follow compensator passes of a step at once (DEDUCED, log entry 26). -/
def setStep (a : Nat) (ev : Int) (s : State) : State :=
  let now := errorSet s a
  let before := (armHeads a).filter (fun h => (head s h).inSet && (head s h).yielded)
  let changed := (armHeads a).any (fun h => (head s h).yielded && ((head s h).inSet != now.contains h))
  let s := each (armHeads a) (fun h s => let x := head s h
    if x.yielded then setHead h { x with inSet := now.contains h } s else s) s
  if !changed || before.isEmpty || now.isEmpty then s
  else
    let d := ev - evOf (flag F.SRV_CTL_CENTER a s) (before.map (armError s))
    let x := arm s a
    setArm a { x with bump := x.bump + (compensate x 0 {} {} d).1, errNew := d } s

/-- v_ref of R191. -/
def vRef (s : State) (a : Nat) (d : Int) : Int :=
  let v : Int := min (256 * fld F.SRV_SEEK_VMAX a s) (isqrt (2 * 16 * fld F.SRV_SEEK_ACC a s * d.natAbs))
  if d < 0 then -v else if d = 0 then 0 else v

/-- The velocity law of R191 for a reference velocity, less FF and BUMP. That KV, coefficient 28, is unsigned is the model's choice (DESIGN CHOICE,
log entry 26). -/
def velCmd (x : ArmSrv) (vr v : Int) : Int := (coefU x 28 : Int) * (vr - v) / 256

/-- The law's output `c` with FF and BUMP becomes the command; I_last is that command less both (R184, R190). -/
def vcmOut (a : Nat) (c ff : Int) (x : ArmSrv) (s : State) : State :=
  let i := sat16 (c + ff + x.bump)
  setVcm a i (setArm a { x with lastI := i - ff - x.bump } s)

/-- The group's command in SETTLE. -/
def settleVcm (a : Nat) (ev ff : Int) (s : State) : State :=
  let x := arm s a
  let r := vcmComp x 11 x.t1 x.t2 (ev - x.errOfs)
  vcmOut a r.1 ff { x with t1 := r.2.1, t2 := r.2.2, hand := false } s

/-- The VCM command that the group gives: SEEK, SETTLE, FOLLOW, HOLD and the drive of a normal unload (R184, R191, R201). A group
with no position repeats the last command (R207). A seek whose first group meets the settle condition hands over from the command in force
(R190). That the last command stays while the microactuators ramp in step 1 of a normal unload is the model's choice (R201; DESIGN CHOICE, log
entry 26). -/
def vcmGroup (a : Nat) (any : Bool) (ev v : Int) (pbar : Option Int) (s : State) : State :=
  let x := arm s a
  let m := mode s a
  let ff := feedforward s a
  if !any then s
  else if m = 4 then
    let d := 256 * (x.target : Int) - pbar.getD 0
    let c := velCmd x (vRef s a d) v
    if d.natAbs ≤ 256 * fld F.SRV_SEEK_SETTLE_DIST a s && v.natAbs ≤ fld F.SRV_SETTLE_SETTLE_VEL a s then settleVcm a ev ff (toSettle a s)
    else vcmOut a c ff (if x.newSeek then { x with bump := x.lastI - c, newSeek := false } else x) s
  else if m = 5 then settleVcm a ev ff s
  else if m = 6 || m = 7 then
    let r := vcmComp x 0 x.f1 x.f2 (ev - x.errOfs)
    vcmOut a r.1 ff { x with f1 := r.2.1, f2 := r.2.2, hand := false } s
  else if m = 8 && x.phase == .ramp && (armHeads a).all (fun h => (head s h).ramp.isNone) then
    vcmOut a (velCmd x (-(256 * (fld F.SRV_UNLOAD_UNLOAD_VEL a s : Int))) v) ff x s
  else s

/-- The microactuator command that the group forms for head `h` (R183, R189, R190). That a head in TRACK whose wedge is missed repeats the command
applied is the model's choice (R183; DESIGN CHOICE, log entry 26). -/
def maGroup (a h : Nat) (s : State) : State :=
  let x := head s h
  let m := mode s a
  let active := m == 5 || m == 6
  let st := hst s h
  -- ACQ to TRACK after two groups inside MA_WIN
  let near := active && st == 1 && x.yielded && x.e.natAbs ≤ fld F.SRV_TRK_MA_WIN a s
  let acq := if near then x.acq + 1 else 0
  let enter := near && 2 ≤ acq
  let st := if enter then 2 else st
  let s := if enter then setHst h 2 s else s
  let again := x.reenter && active && st == 2 && x.yielded
  let q : Biquad := if enter then {}
    else if again then
      (let g := coefU (arm s a) 27
       if g = 0 then {} else ⟨state32 (applied s h * 256 / (g : Int) * 16384 - mul14 (coefS (arm s a) 22) (-(x.e) * 16384)), 0⟩)
    else x.ma
  let x := { x with acq := acq, ma := q, ramp := if enter then none else x.ramp, reenter := x.reenter && !again }
  let r : HeadSrv × Int :=
    match x.ramp with
    | some (u0, j) =>
      let len : Int := fld1 F.SRV_TRK_MA_RAMP a s
      let u := Int.tdiv (u0 * (len - (j + 1 : Nat))) len
      if len ≤ (j + 1 : Nat) || u = 0 then ({ x with ramp := none }, 0) else ({ x with ramp := some (u0, j + 1) }, u)
    | none =>
      if active && st == 2 then
        if x.yielded then
          let b := biquad (arm s a) 22 x.ma (-(x.e) * 16384)
          ({ x with ma := b.2 }, sat12 (gainOut (coefU (arm s a) 27) b.1))
        else (x, applied s h)
      else (x, 0)
  let lim := active && st == 2 && (r.2 == -2048 || r.2 == 2047)
  put2 F.SRV_HST_MA_SAT a (h % 16) lim.toNat (setHead h { r.1 with cmd := r.2, sat := if lim then r.1.sat + 1 else 0 } s)

/-- At the close, each head's permit condition is judged, whether the permit may rise, and its error is kept (R193, R194). -/
def permGroup (h : Nat) (s : State) : State :=
  let x := head s h
  let s := if wpermOk s h then setHead h { x with good := x.good + 1, rearm := decide (fld1 F.SRV_TRK_WREARM (armOf h) s ≤ x.good + 1) } s
    else dropWperm h s
  let x := head s h
  setHead h { x with ePrev := if x.yielded then some x.e else none, yielded := false } s

/-- A fenced head goes to OFF at the group, one whose fence was cleared back to ACQ (R189, R204). -/
def fenceGroup (a : Nat) (s : State) : State :=
  each (armHeads a) (fun h s =>
    if !eligible s h && hst s h != 0 then headOff h s
    else if eligible s h && hst s h == 0 && 3 ≤ mode s a && mode s a ≤ 8 then headSearch h s
    else s) s

/-- The control work of a closing group: the coefficient swap, the retune of a new seek or of a GO that went straight to SETTLE (R83), the errors, the
step of the mode, the VCM command, the counts of the mode and the microactuators (R182–R191, R201, R208). In the first group after some without a
position v is the whole change of the mean position, as one group's, which is the model's choice (R191; DESIGN CHOICE, log entry 26). -/
def groupControl (a : Nat) (isense : BitVec 12) (s : State) : State :=
  -- coefficients swap at the group boundary (R185)
  let s := if flag F.SRV_CTL_COEF_SWAP a s then
      put F.SRV_CTL_COEF_SWAP a 0 (setArm a { arm s a with coef := (List.range 32).map (fun m => fld2 F.SRV_COEF_VALUE a m s) } s)
    else s
  let s := if (arm s a).tune then setArm a { arm s a with tune := false } (if mode s a = 4 ∨ mode s a = 5 then seekTune a (arm s a).target s else s) else s
  let old := vcm s a
  let s := fenceGroup a s
  let set := errorSet s a
  let any := !set.isEmpty
  let ev := if any then evOf (flag F.SRV_CTL_CENTER a s) (set.map (armError s)) else (arm s a).ev
  let s := setStep a ev s
  let ps := set.filterMap (fun h => (head s h).p1)
  let pbar := if any then some (openRound 191 (ps.foldl (· + ·) 0) (max 1 ps.length)) else (arm s a).pbar
  let v := match any, pbar, (arm s a).pbar with | true, some p, some q => p - q | _, _, _ => (arm s a).vel
  let m := mode s a
  let s := vcmGroup a any ev v pbar s
  -- counts of the mode
  let x := arm s a
  let inWin := any && ev.natAbs ≤ fld F.SRV_SETTLE_FWIN a s
  let far := m == 6 && any && 4 * fld F.SRV_SETTLE_FWIN a s < ev.natAbs
  let bad := 2048 < (old - 16 * sext 12 isense.toNat).natAbs
  let s := setArm a { x with
    ev := ev, pbar := pbar, vel := v, bump := Int.tdiv x.bump 2, errOfs := Int.tdiv x.errOfs 2 + x.errNew, errNew := 0,
    fn := if m = 5 ∧ mode s a = 5 then (if inWin then x.fn + 1 else 0) else x.fn,
    settle := if m = 5 ∧ mode s a = 5 then x.settle + 1 else x.settle,
    far := if far then x.far + 1 else 0,
    miss := if any || m = 3 then 0 else x.miss + 1,
    load := if m = 3 then (if max 1 (min 16 (fld F.SRV_LOAD_LOAD_MIN a s)) ≤ set.length then x.load + 1 else 0) else 0,
    mismatch := if bad then x.mismatch + 1 else 0 } s
  let s := put F.SRV_VCM_ISENSE a isense.toNat s
  -- a normal unload without wedges goes on to the ramp climb (R201)
  let s := if m = 8 && (arm s a).phase == .ramp && fld1 F.SRV_TRK_ARM_MISS a s ≤ (arm s a).miss then
      setVcm a (sext 16 (fld F.SRV_PARK_UNLOAD_I a s)) (setArm a { arm s a with phase := .climb, miss := 0 } s)
    else s
  -- two groups beyond 4 × FWIN return FOLLOW to SETTLE (R188)
  let s := if m = 6 && 2 ≤ (arm s a).far then toSettle a s else s
  -- microactuators and the MUA frame
  let s := if m = 7 then s else each (armHeads a) (maGroup a) s
  latchHofs a (setTracking a s)

/-- The group is counted in SRV_WCNT (R209). -/
def groupCount (a : Nat) (s : State) : State := put F.SRV_WCNT_COUNT a ((fld F.SRV_WCNT_COUNT a s + 1) % 2 ^ 32) s

/-- The MUA frame of the group goes out on a link that is UP, except in HOLD and under retract (R182, R188). -/
def groupSend (a : Nat) (s : State) : State :=
  if linkUp s a && mode s a != 7 && !retractLow s then
    let wc := fld F.SRV_WCNT_COUNT a s
    let cmd := muaCmd ((armHeads a).map (fun h => (head s h).cmd))
    let s := each (armHeads a) (fun h s =>
      let x := head s h
      put2 F.SRV_HST_UCMD a (h % 16) (lowBits 12 x.cmd) (setHead h { x with uPrev := applied s h, u := x.cmd } s)) s
    emit (.link a (muaChars (wc % 256) cmd)) (setLink a { link s a with tag := wc % 256, cmds := cmd, muaEop := true } s)
  else s

/-- At a servo group the spindle's mechanical angle is made the servo's (R233). -/
def mechFollows (s : State) : State :=
  if fld F.SRV_THETA_SRC 0 s = 1 && spmTracked s then
    let m := (fld F.SPM_ANGLE_PPIDX 0 s * 65536 + s.spm.theta) / fld1 F.SPM_MOTOR_POLE_PAIRS 0 s
    let s := put F.SPM_ANGLE_OFS_OK 0 1 (put F.SPM_ANGLE_OFS 0 (((thetaNow s).1 + 65536 - m % 65536) % 65536) s)
    put F.SPM_ANGLE_MECH 0 (spmMech s) s
  else s

/-- SERVO_GROUP_CLOSE (R53, R59, R61, R182–R186, R189–R191, R193, R194, R201, R204, R206–R208, R233). -/
def execServoGroupClose (arm' : Fin 4) (isense : Int) (s : State) : Answer :=
  let a := arm'.val
  if !armLoaded s a || mode s a = 2 then .next s
  else .next (mechFollows (each (armHeads a) permGroup (groupSend a (groupCount a (groupControl a (senseCode isense) s)))))

/-! ### Requests -/

/-- SRV_LOAD (R32, R188, R205): in PARKED the arm loads if the load conditions hold; in UNLOADING the request is held. -/
def execSrvLoad (arm' : Fin 4) (s : State) : Answer :=
  let a := arm'.val
  .next (if mode s a = 1 then
      if loadOk s a then startLoading a s else put F.SRV_MODE_LFAIL a 1 s
    else if armShut s a then put F.SRV_MODE_LFAIL a 1 s
    else if mode s a = 8 then put F.SRV_CTL_LOAD a 1 (setArm a { arm s a with heldLoad := true } s)
    else s)

/-- SRV_UNLOAD (R188, R201). -/
def execSrvUnload (arm' : Fin 4) (s : State) : Answer := .next (unloadByMode arm'.val s)

/-- SRV_GO (R188, R191): accepted in SEEK, SETTLE and FOLLOW, stored in LOADING, refused elsewhere and beyond the last track. -/
def execSrvGo (arm' : Fin 4) (w : BusW) (s : State) : Answer :=
  let a := arm'.val
  let s := busWrite R.SRV_TARGET a 0 w s
  if !wrote1 31 w then .next s
  else
    let t := fld F.SRV_TARGET_TRACK a s
    let m := mode s a
    let s := put F.SRV_TARGET_REFUSED a 0 s
    if s.geo.isNone || lastTrack s < t || m < 3 || 6 < m then .next (put F.SRV_TARGET_REFUSED a 1 s)
    else
      let s := put F.SRV_TARGET_GO a 1 s
      .next (if m = 3 then setArm a { arm s a with storedGo := some t } s else goTo a t s)

/-- COEF_SWAP (R185): the shadow bank becomes active at the next group boundary. -/
def execCoefSwap (arm' : Fin 4) (s : State) : Answer := .next (put F.SRV_CTL_COEF_SWAP arm'.val 1 s)

/-! ### Timed and counted events -/

/-- LOAD_ACQUIRED (R122, R188, R200): the heads are loaded and go to HEAT_RD; TARGET is the track nearest the mean position; settle hand-over. -/
def execLoadAcquired (arm' : Fin 4) (s : State) : Answer :=
  let a := arm'.val
  let x := arm s a
  .next (if mode s a = 3 && 2 ≤ x.load then
      let t := ((x.pbar.getD 0 + 128) / 256).toNat
      let s := put F.SRV_TARGET_TRACK a t (setArm a { x with target := t, lastI := vcm s a - feedforward s a, bump := 0, errOfs := 0 } s)
      toSettle a (heatRdSend a (armHeads a) s)
    else s)

/-- LOAD_TIMEOUT (R188): EV076 + a, FC2, the arm is fenced and unloads by the emergency profile, LFAIL sets. -/
def execLoadTimeout (arm' : Fin 4) (s : State) : Answer :=
  let a := arm'.val
  .next (if mode s a = 3 then
      report (132 + a) none 0x0A 0 0 0 (raiseEvent (76 + a) (put F.SRV_MODE_LFAIL a 1 (startUnload a true s)))
    else s)

/-- UNLOAD_PHASE_END (R201): the command becomes PARK_I. -/
def execUnloadPhaseEnd (arm' : Fin 4) (s : State) : Answer :=
  let a := arm'.val
  .next (if mode s a = 8 && (arm s a).phase == .climb then
      setVcm a (sext 16 (fld F.SRV_PARK_PARK_I a s)) (setArm a { arm s a with phase := .park } s)
    else s)

/-- PARK_TIMEOUT (R188): command 0, PFAIL, EV076 + a, FC2 and the arm is fenced; PARKED, where a held LOAD is applied. -/
def execParkTimeout (arm' : Fin 4) (s : State) : Answer :=
  let a := arm'.val
  .next (if mode s a = 8 && (arm s a).phase == .park then
      heldLoadApply a (report (132 + a) none 0x0A 0 0 0 (raiseEvent (76 + a) (put F.SRV_MODE_PFAIL a 1 (enterParked a s))))
    else s)

/-- SEEKTAB takes the time of a seek that reached FOLLOW (R192). -/
def seekTab (a dist t : Nat) (s : State) : State :=
  if dist = 0 then s
  else
    let k := min 21 (Nat.log2 dist)
    let mean : Int := fld2 F.SRV_SEEKTAB_MEAN a k s
    let s := put2 F.SRV_SEEKTAB_MEAN a k (min 65535 (mean + Int.tdiv ((t : Int) - mean) 16).toNat) s
    put2 F.SRV_SEEKTAB_MAX a k (min 65535 (max t (fld2 F.SRV_SEEKTAB_MAX a k s))) s

/-- FOLLOW_ENTRY (R188, R190, R192): FN groups inside FWIN with a head in TRACK; a GO stored in LOADING is applied. -/
def execFollowEntry (arm' : Fin 4) (s : State) : Answer :=
  let a := arm'.val
  let x := arm s a
  if mode s a = 5 ∧ fld1 F.SRV_SETTLE_FN a s ≤ x.fn ∧ (armHeads a).any (fun h => hst s h == 2) then
    let s := setMode a 6 (setArm a (followHandOver x) s)
    let s := match x.seekFrom with
      | some (d, t0) => if x.retries = 0 then seekTab a d ((s.time - t0) / 1000) s else s
      | none => s
    let y := arm s a
    let s := setArm a { y with seekFrom := none, retries := 0, storedGo := none } s
    .next (match y.storedGo with
      | some t => goTo a t s
      | none => put F.SRV_TARGET_GO a 0 s)
  else .next s

/-- SETTLE_TIMEOUT (R188): SEEK_ERR counts; the seek is retried, or the arm is fenced and unloads. -/
def execSettleTimeout (arm' : Fin 4) (s : State) : Answer :=
  let a := arm'.val
  let x := arm s a
  if mode s a = 5 ∧ fld1 F.SRV_SETTLE_SETTLE_TMO a s ≤ x.settle then
    let s := put F.SRV_MODE_SEEK_ERR a 1 (count F.SRV_ERR_SEEK_ERR a s)
    if x.retries < fld F.SRV_SETTLE_SEEK_RETRY a s then
      .next (toSeek a (setArm a { x with retries := x.retries + 1, tune := true } s))
    else .next (report (132 + a) none 0x0A 0 0 0 (raiseEvent (76 + a) (startUnload a false s)))
  else .next s

/-- ARM_MISS_TIMEOUT (R188): no position on ARM_MISS groups: EV076 + a, FC2, fenced, emergency unload. -/
def execArmMissTimeout (arm' : Fin 4) (s : State) : Answer :=
  let a := arm'.val
  .next (if 4 ≤ mode s a && mode s a ≤ 7 && fld1 F.SRV_TRK_ARM_MISS a s ≤ (arm s a).miss then
      report (132 + a) none 0x0A 0 0 0 (raiseEvent (76 + a) (startUnload a true s))
    else s)

/-- HEAD_LOST (R176, R189): ramp to 0, timer unlocked and its gate held open, EV076 + a, FC1. -/
def execHeadLost (h : Fin 64) (s : State) : Answer :=
  let a := armOf h
  let f := h.val % 16
  .next (if (hst s h = 1 ∨ hst s h = 2) ∧ fld1 F.SRV_TRK_HMISS a s ≤ fld2 F.SRV_HST_MISS a f s then
      let s := searchRead h (timerFree h true (startRamp h (setHst h 3 s)))
      let s := dropWperm h (setTracking a s)
      report (136 + a) none 0x0A 0 0 0 (raiseEvent (76 + a) s)
    else s)

/-- MA_SAT_EXPIRE (R189): eight consecutive groups at a limit return a head to ACQ with a ramp. -/
def execMaSatExpire (h : Fin 64) (s : State) : Answer :=
  .next (if hst s h = 2 ∧ 8 ≤ (head s h).sat then
      dropWperm h (setTracking (armOf h) (setHst h 1 (startRamp h s)))
    else s)

/-- WPERM_REARM (R61, R193, R194): the permit rises at the close of a group after WREARM groups that satisfy R193, while no other-chapter cause
holds. -/
def execWpermRearm (h : Fin 64) (s : State) : Answer :=
  let a := armOf h
  .next (if (head s h).rearm && mode s a == 6 && hst s h == 2 && eligible s h &&
        !(link s a).muaMiss && !(link s a).disagree.testBit (h.val % 16) && linkUp s a then
      putFBit F.SRV_WPERM_WPERM a (h.val % 16) true s
    else s)

/-- VCM_MISMATCH (R208): 16 groups of current mismatch: EV076 + a, FC2, fenced, emergency unload. -/
def execVcmMismatch (arm' : Fin 4) (s : State) : Answer :=
  let a := arm'.val
  .next (if armLoaded s a && 16 ≤ (arm s a).mismatch then
      let s := setArm a { arm s a with mismatch := 0 } s
      let s := if mode s a = 8 && (arm s a).phase != .ramp then s
        else
          let held := (arm s a).heldLoad
          let s := startUnload a true s
          setArm a { arm s a with heldLoad := held } s
      report (132 + a) none 0x0A 0 0 0 (raiseEvent (76 + a) s)
    else s)

end Sys2Proof.Machine
end

