-- ==== Sys2Proof/Machine/ShockSensor.lean ====
section
/-! DEFINITION. Commands of the shock block (R196–R199). -/

namespace Sys2Proof.Machine

open Sys2Proof

/-- Kb of R196. -/
def shkKb (s : State) : Nat := (roundDiv 4294967296 (fld1 F.SRV_SHK_CTL_BTAU 0 s * 100000)).toNat

/-- Channel `c` is enabled and not stuck. -/
def shkLive (s : State) (c : Nat) : Bool := bit F.SRV_SHK_CTL_EN 0 c s && !bit F.SRV_SHK_STAT_STUCK 0 c s

/-- SHOCK_OK falls: writes are cut on every arm, and after its first rise a windthrow begins (R198, R127). -/
def shockFall (s : State) : State :=
  if !shockOk s then s
  else
    let s := put F.SRV_SHK_STAT_SHOCK_OK 0 0 s
    let s := undecideWrites (upTo 4 permitFall s)
    if s.shock.risen then
      tallyDev 21 1 <| count F.SRV_SHK_STAT_EPISODES 0 (raiseEvent 80 { s with shock := { s.shock with blow := true } })
    else s

/-- A baseline is stored with its integer part in BASE. -/
def setBase (c : Nat) (b : Int) (s : State) : State :=
  put F.SRV_SHK_BASE_BASE c (lowBits 12 (b / 4294967296)) (setShk c { shk s c with b := b } s)

/-- The last second of raw samples of a stuck channel frees it (R199). -/
def unstick (s : State) (c : Nat) : Bool :=
  let l := (shk s c).recent
  let lo := l.foldl min 2047
  let hi := l.foldl max (-2048)
  4 * (fld F.SRV_SHK_CTL_STUCK_PP 0 s : Int) < hi - lo && l.all (fun x => x != -2048 && x != 2047)

/-- Samples of the stuck window of R199: STUCK_MIN minutes at 100 kS/s. -/
def stuckLen (s : State) : Nat := fld1 F.SRV_SHK_CTL_STUCK_MIN 0 s * 6000000

/-- A sample joins the window of those taken while the spindle was at speed (R199). -/
def spanTake (w : Nat) (v : Int) (k : ShockCh) : ShockCh :=
  let n := k.atSpeed + 1
  let recent := fun (l : List (Nat × Int)) => l.filter (fun e => n < e.1 + w)
  { k with atSpeed := n, peaks := recent ((n, v) :: k.peaks.dropWhile (fun e => e.2 ≤ v)), dips := recent ((n, v) :: k.dips.dropWhile (fun e => v ≤ e.2)) }

/-- Channel `c` is stuck by R199: too small a span over the window at speed, or 1,000 samples at a limit. -/
def foundStuck (s : State) (c : Nat) : Bool :=
  let k := shk s c
  1000 ≤ k.limit || (stuckLen s ≤ k.atSpeed &&
    (match k.peaks.getLast?, k.dips.getLast? with
     | some p, some d => decide (p.2 - d.2 ≤ (fld F.SRV_SHK_CTL_STUCK_PP 0 s : Int))
     | _, _ => false))

/-- STUCK_POLICY 1 holds SHOCK_OK low while an enabled channel is stuck (R199). -/
def stuckHolds (s : State) : Bool :=
  flag F.SRV_SHK_CTL_STUCK_POLICY 0 s &&
    (List.range 5).any (fun c => bit F.SRV_SHK_CTL_EN 0 c s && bit F.SRV_SHK_STAT_STUCK 0 c s)

/-- A raw sample of channel `c` is kept, and a stuck channel that moves again is no longer stuck (R199). -/
def shockTake (c : Nat) (v : Int) (s : State) : State :=
  let k := shk s c
  let k := if flag F.SPM_STAT_AT_SPEED 0 s then spanTake (stuckLen s) v k else k
  let s := setShk c { k with last := v, limit := if v = -2048 || v = 2047 then k.limit + 1 else 0, recent := (v :: k.recent).take 100000 } s
  if bit F.SRV_SHK_STAT_STUCK 0 c s && unstick s c then condFalls (148 + c) (putFBit F.SRV_SHK_STAT_STUCK 0 c false s) else s

/-- A sample of the initialisation window (R197). -/
def shockGather (c : Nat) (v : Int) (s : State) : State :=
  let k := shk s c
  if 1024 ≤ k.n then s else setShk c { k with n := k.n + 1, sum := k.sum + v, lo := min k.lo v, hi := max k.hi v } s

/-- Deviation of sample `v` from the baseline of channel `c` (R196). -/
def shockDev (s : State) (c : Nat) (v : Int) : Nat := (v - (shk s c).b / 4294967296).natAbs

/-- A sample against the baseline: OVER, the samples in a row at or below REARM, the peak, and the baseline's step while SHOCK_OK is 1 (R196). -/
def shockTrack (c : Nat) (v : Int) (s : State) : State :=
  let k := shk s c
  let b := k.b
  let s := setShk c { k with calm := if shockDev s c v ≤ fld F.SRV_SHK_THR_REARM c s then k.calm + 1 else 0 } s
  let s := put F.SRV_SHK_BASE_PEAK c (max (shockDev s c v) (fld F.SRV_SHK_BASE_PEAK c s))
    (putFBit F.SRV_SHK_STAT_OVER 0 c (fld F.SRV_SHK_THR_TRIP c s < shockDev s c v) s)
  if shockOk s then setBase c (b + openRound 196 ((v * 4294967296 - b) * (shkKb s : Int)) 4294967296) s else s

/-- SHOCK_SAMPLE (R196–R199, R559): a sample of an enabled channel, its ball at `v` nV. -/
def execShockSample (ch : Fin 5) (v : Int) (s : State) : Answer :=
  let x := senseCode v
  let c := ch.val
  let t := shockTake c x.toInt s
  .next (if !bit F.SRV_SHK_CTL_EN 0 c s then s
    else if flag F.SRV_SHK_STAT_INIT 0 t then shockGather c x.toInt t
    else
      let u := shockTrack c x.toInt t
      if shkLive u c && fld F.SRV_SHK_THR_TRIP c u < shockDev t c x.toInt then shockFall u else u)

/-- SHOCK_REARM (R197–R199): every enabled channel that is not stuck has stayed at or below REARM for QUIET ms; SHOCK_OK rises. -/
def execShockRearm (s : State) : Answer :=
  let calm := (List.range 5).all (fun c => !shkLive s c || 100 * fld1 F.SRV_SHK_CTL_QUIET 0 s ≤ (shk s c).calm)
  .next (if !shockOk s && !flag F.SRV_SHK_STAT_INIT 0 s && calm && !stuckHolds s then
      let blow := s.shock.blow
      let s := rebind { (put F.SRV_SHK_STAT_SHOCK_OK 0 1 s) with shock := { s.shock with blow := false, risen := true } }
      if blow then raiseEvent 80 s else s
    else s)

/-- The median of the window means, rounded toward zero to a whole code (R197). -/
def medianCode (l : List Int) : Int :=
  let t := sortBy (fun x => (x + 1099511627776).toNat) l
  Int.tdiv (t.getD 7 0 + t.getD 8 0) 2048

/-- SHOCK_INIT_WINDOW (R197): a window of 1,024 samples ends. -/
def execShockInitWindow (s : State) : Answer :=
  let en := (List.range 5).filter (fun c => bit F.SRV_SHK_CTL_EN 0 c s)
  if !flag F.SRV_SHK_STAT_INIT 0 s || !en.all (fun c => (shk s c).n == 1024) then .next s
  else
    let still := en.all (fun c => (shk s c).hi - (shk s c).lo ≤ 2 * (fld F.SRV_SHK_THR_REARM c s : Int))
    let clear := fun (c : Nat) (s : State) =>
      let k := shk s c
      setShk c { k with n := 0, sum := 0, lo := 2047, hi := -2048, calm := 0, means := k.sum :: k.means } s
    if still then
      let s := each en (fun c s => setBase c ((shk s c).sum * 4194304) s) s
      .next (put F.SRV_SHK_STAT_INIT 0 0 (each en clear s))
    else
      let s := each en clear s
      let n := s.shock.windows + 1
      let s := { s with shock := { s.shock with windows := n } }
      if n < 16 then .next s
      else
        let s := each en (fun c s => setBase c (medianCode (shk s c).means * 4294967296) s) s
        .next (put F.SRV_SHK_STAT_OFS_VIB 0 1 (put F.SRV_SHK_STAT_INIT 0 0 s))

/-- SHOCK_STUCK (R199): a channel found stuck: its STUCK bit sets, EV081, FC2; under policy 1 SHOCK_OK is held low. -/
def execShockStuck (ch : Fin 5) (s : State) : Answer :=
  let c := ch.val
  .next (if !bit F.SRV_SHK_CTL_EN 0 c s || bit F.SRV_SHK_STAT_STUCK 0 c s || !foundStuck s c then s
    else
      let s := putFBit F.SRV_SHK_STAT_STUCK 0 c true s
      let s := if flag F.SRV_SHK_CTL_STUCK_POLICY 0 s then shockFall s else s
      report (148 + c) none 0x0A 0 0 0 (raiseEvent 81 s))

end Sys2Proof.Machine
end

