-- ==== Sys2Proof/Machine/OpsSpindle.lean ====
section
/-! DEFINITION. Spindle operations that several commands share (R211–R236). -/

namespace Sys2Proof.Machine

open Sys2Proof

/-- FAILED with its FAIL code: gates off, EV082, FC2 on checker 193; DETAIL is the row of R236 (R218, R236). -/
def spmFail (code row : Nat) (s : State) : State :=
  let s := put F.SPM_STAT_FAIL 0 code (spmEnter 11 (gatesOff s))
  let s := { s with spm := { s.spm with locked := false, genPend := false, overspeed := false } }
  report 193 none 0x0B 0 0 row (raiseEvent 82 s)

/-- An overcurrent (row 1) or loss of sync (row 2); a second one within 10 s of another fails in any state (R218, R236). -/
def spmTrip (row : Nat) (s : State) : State :=
  let run := spmSt s = 7
  let again : Bool := match s.spm.lastTrip with | some t => s.time ≤ t + 10000000000 | none => false
  let s := if row = 1 then count F.SPM_ERR_OC 0 s else count F.SPM_ERR_SYNC 0 s
  let s := { s with spm := { s.spm with lastTrip := some s.time } }
  if again then spmFail 4 3 s
  else
    let s := spmCoast run s
    report 192 none 0x0B 0 0 row (if run then raiseEvent 82 s else s)

end Sys2Proof.Machine
end

