-- ==== Sys2Proof/Machine/Foc.lean ====
section
/-! DEFINITION. The arithmetic of the spindle controller: PWM timing, the shunt samples, the back-EMF observer and the current loop (R210–R217,
R221–R225, R229, R237). The number formats of its trigonometry and the board's scales are open (log entry 6). -/

namespace Sys2Proof.Machine

open Sys2Proof

/-! ### Trigonometry and scales -/

/-- cos of `n` thirds of an electrical unit, in 2^-30; its number format is open (log entry 6). -/
def cosT (n : Int) : Int := Config.openVal 210 [n % 196608]
/-- sin of `n` thirds of an electrical unit. -/
def sinT (n : Int) : Int := cosT (n - 49152)

/-- µA per current code and µV per voltage code of the board (log entry 6). -/
def boardUa : Int := Config.openVal 213 [0]
def boardUv : Int := Config.openVal 213 [1]

/-- d and q of three phase values in the frame at angle `t`, in electrical units. -/
def park (t : Int) (x : List Int) : Int × Int :=
  let sum := fun (g : Int → Int) => ([0, 1, 2].map (fun k => x.getD k 0 * g (3 * t - 65536 * k))).foldl (· + ·) 0
  (openRound 217 (2 * sum cosT) (3 * 2 ^ 30), openRound 217 (-2 * sum sinT) (3 * 2 ^ 30))

/-- The three phase values of a vector d, q in the frame at angle `t`. -/
def unpark (t : Int) (d q : Int) : List Int :=
  [0, 1, 2].map (fun k => openRound 217 (d * cosT (3 * t - 65536 * k) - q * sinT (3 * t - 65536 * k)) (2 ^ 30))

/-! ### PWM (R211–R215) -/

/-- T and DEAD in cycles. -/
def pwmT (s : State) : Nat := max 8000 (fld F.SPM_PWM_PER 0 s)
def pwmDead (s : State) : Nat := max 16 (fld F.SPM_PWM_DEAD 0 s)

/-- Phases in order of duty, highest first, the lower letter first on a tie (R213). -/
def dutyOrder (d : List Int) : List Nat := sortBy (fun i => (1099511627776 - d.getD i 0).toNat) [0, 1, 2]

/-- The phase in the middle of that order. -/
def midPhase (d : List Int) : Nat := (dutyOrder d).getD 1 0

/-- High-side on-time of duty `d` (2^-17) in cycles. -/
def tHigh (s : State) (d : Int) : Int := openRound 211 (d * pwmT s) 131072

/-- Low-side on-time of duty `d` in cycles (R211). -/
def tLow (s : State) (d : Int) : Int := (pwmT s : Int) - tHigh s d - 2 * (pwmDead s : Int)

/-- Duties of a voltage command by phase, in 2^-16, with min-max centring: D_max + D_min = 1 (R211). -/
def centred (v : List Int) : List Int :=
  let v := [v.getD 0 0, v.getD 1 0, v.getD 2 0]
  let m := v.foldl max (v.headD 0) + v.foldl min (v.headD 0)
  v.map (fun x => 65536 + 2 * x - m)

/-- The voltage vector is scaled down until t_lo of the middle-duty phase is W / 2, where it is shorter; with whether it was (R215). -/
def scaled (s : State) (d : List Int) : List Int × Bool :=
  let m := d.getD (midPhase d) 0
  if tLow s m < 480 ∧ m ≠ 65536 then
    let m' := openRound 215 (((pwmT s : Int) - 2 * pwmDead s - 480) * 131072) (pwmT s)
    (d.map (fun x => 65536 + openRound 215 ((x - 65536) * (m' - 65536)) (m - 65536).toNat), true)
  else (d, false)

/-- Each duty within 0 to (T − 2 × DEAD) / T (R211). -/
def limited (s : State) (d : List Int) : List Int :=
  d.map (fun x => max 0 (min (openRound 211 (((pwmT s : Int) - 2 * pwmDead s) * 131072) (pwmT s)) x))

/-- The edges of one phase in a period: the high-side halves with the low side between them, DEAD cycles from either; the first half is `dh` cycles
longer than nominal (R211, R214). -/
def gateTimes (s : State) (d dh : Int) : GateTimes :=
  let h := tHigh s d
  let h1 := h / 2 + dh
  let h2 := h - h / 2
  ⟨h1, h1 + pwmDead s, pwmT s - h2 - pwmDead s, pwmT s - h2⟩

/-- The gates as a period begins: the high side of each phase that has a first half. -/
def startGates (p : List GateTimes) : Nat := upTo 3 (fun k m => if (p[k]?).any (fun g => 0 < g.hiOff) then putBit m (2 * k) true else m) 0

/-- Δ of shift mode for duties `d`: W − t_lo of the middle-duty phase in whole cycles, rounded up; 0 where the window fits (R211, R214). -/
def shiftBy (s : State) (d : List Int) : Int :=
  let gap := (960 + 2 * (pwmDead s : Int)) * 131072 - (131072 - d.getD (midPhase d) 0) * (pwmT s : Int)
  max 0 ((gap + 131071) / 131072)

/-- A period of kind `k` begins with duties `d` (R211, R214). -/
def pwmRun (k : PwmKind) (d : List Int) (s : State) : State :=
  let dh := match k with | .shift => -(shiftBy s d) | .comp => shiftBy s d | _ => 0
  let p := [0, 1, 2].map (fun i => gateTimes s (d.getD i 0) (if i = midPhase d then dh else 0))
  { s with spm := { s.spm with kind := k, duty := d, phases := p, gates := startGates p } }

/-- A new voltage command takes effect: a shift period where the window does not fit, else a normal one (R214). -/
def pwmBegin (d : List Int) (s : State) : State :=
  let shift := 0 < shiftBy s d
  put F.SPM_STAT_SHIFT 0 (decide shift).toNat (pwmRun (if shift then .shift else .normal) d s)

/-- The duties of a voltage command in the frame at angle `t`; VLIM sets where the vector was scaled (R211, R215). -/
def dutiesOf (t vd vq : Int) (s : State) : List Int × State :=
  let r := scaled s (centred (unpark t vd vq))
  (limited s r.1, if r.2 then put F.SPM_STAT_VLIM 0 1 s else s)

/-! ### Currents (R210, R213, R220, R236) -/

/-- Phase currents of a sample: offsets removed, the highest-duty phase from the other two (R210, R213). -/
def phaseCurrents (s : State) (adc : Abc) : List Int :=
  let raw := [adc.a, adc.b, adc.c].zipIdx.map (fun (v, k) => clampS 2048 ((senseCode v).toInt - s.spm.offs.getD k 0))
  let h := (dutyOrder s.spm.duty).headD 0
  let sum := raw.foldl (· + ·) 0 - raw.getD h 0
  raw.zipIdx.map (fun (v, k) => if k = h then clampS 2048 (-sum) else v)

/-- The currents of a sample in SPM_ISAMP, and how many samples in a row stand above OC_TRIP (R213, R220, R236). -/
def pwmSample (i : List Int) (s : State) : State :=
  let run := if i.any (fun x => (fld F.SPM_ILIM_OC_TRIP 0 s : Int) < x.natAbs) then s.spm.ocRun + 1 else 0
  let s := put F.SPM_ISAMP_IA 0 (lowBits 12 (i.getD 0 0)) (put F.SPM_ISAMP_IB 0 (lowBits 12 (i.getD 1 0))
    (put F.SPM_ISAMP_IC 0 (lowBits 12 (i.getD 2 0)) s))
  { s with spm := { s.spm with iPrev := s.spm.iNow, iNow := i, ocRun := run } }

/-! ### The observer (R217) -/

/-- Commanded phase voltages in µV with dead-time compensation, V_bus from supply monitor 3; none is commanded with the gates off or all low sides on
(R217, R232, R492). -/
def phaseVolts (s : State) : List Int :=
  let bus := 1000 * monMv s 3
  if s.spm.kind = .off ∨ s.spm.kind = .low then [0, 0, 0]
  else [0, 1, 2].map (fun k =>
    let i := s.spm.iNow.getD k 0
    openRound 217 (s.spm.duty.getD k 0 * bus) 131072 + Int.sign i * openRound 217 (bus * pwmDead s) (pwmT s))

/-- ê in µV over a loop period of `c` cycles: v* − RS·i − LS·(i − i_prev) / T_loop (R217). -/
def emf (s : State) (c : Nat) : Int × Int :=
  let v := park 0 (phaseVolts s)
  let i := park 0 (s.spm.iNow.map (· * boardUa))
  let p := park 0 (s.spm.iPrev.map (· * boardUa))
  let e := fun (v i p : Int) => v - openRound 217 (fld F.SPM_MOTOR_RS 0 s * i) 1000 - openRound 217 (fld F.SPM_MOTOR_LS 0 s * (i - p) * 800) c
  (e v.1 i.1 p.1, e v.2 i.2 p.2)

/-- The observer's step over a loop period of `n` PWM periods: whether the estimate is valid, ε, ω̂ in 2^-16 unit per PWM period and θ̂ in 2^-16 unit
(R217; the unit of ω̂ is the model's, log entry 6). -/
def observe (s : State) (n : Nat) : Bool × Int × Int × Nat :=
  let x := s.spm
  let e := emf s (n * pwmT s)
  let mag := isqrt (e.1 * e.1 + e.2 * e.2).toNat
  let ok := decide (fld F.SPM_OBS_EMF_MIN 0 s * boardUv ≤ (mag : Int)) && mag != 0
  -- radians to electrical units: 65,536 / 2π
  let eps := if ok then openRound 217 ((-e.1 * cosT (3 * x.theta) - e.2 * sinT (3 * x.theta)) * 20860757) (mag * 2 ^ 30 * 2000) else 0
  let om := x.omega + openRound 217 (eps * 65536) (2 ^ fld F.SPM_OBS_KI_PLL 0 s)
  let th := (x.theta * 65536 + x.thetaLo : Nat) + om * n + openRound 217 (eps * 65536) (2 ^ fld F.SPM_OBS_KP_PLL 0 s)
  (ok, eps, om, (th % 4294967296).toNat)

/-- The speed of ω̂ in 0.01 rpm, negative backward (R229). -/
def omegaSpeed (s : State) : Int := openRound 229 (s.spm.omega * 4800000000000) (2 ^ 32 * pwmT s * polePairs s)

/-- The electrical frequency of ω̂ is at least `f` Hz forward. -/
def omegaAtLeast (s : State) (f : Nat) : Bool := decide (((f * 2 ^ 32 * pwmT s : Nat) : Int) ≤ s.spm.omega * 800000000)

/-- The motor's electrical power in mW: v* × i over the phases (R237). -/
def motorPower (s : State) : Int :=
  let p := ((phaseVolts s).zip s.spm.iNow).foldl (fun a e => a + e.1 * (e.2 * boardUa)) 0
  if p < 0 then Config.openVal 237 [p] else openRound 237 p 1000000000

/-! ### The current loop -/

/-- Current of ALIGN and RAMP: that of STICTION in a landed start (R221, R222, R225). -/
def startI (f : Field) (s : State) : Int := if flag F.SPM_STAT_LANDED 0 s then fld F.SPM_STICK_I_STICK 0 s else fld f 0 s

/-- Frequency of θ_ol in Hz × 8 × 10^8: RAMP_ACC over the time in RAMP, up to F_OLMAX (R222). -/
def fOl (s : State) : Nat := min (fld F.SPM_RAMP_RAMP_ACC 0 s * s.spm.cyc) (fld F.SPM_RAMP_F_OLMAX 0 s * 800000000)

/-- No agreement in time: HO_TMO ms have passed since f_ol reached F_HO, or ω̂ has been negative for one electrical cycle of θ_ol (R218). -/
def hoExpired (s : State) : Bool :=
  let acc := fld F.SPM_RAMP_RAMP_ACC 0 s
  let ho := fld F.SPM_RAMP_F_HO 0 s
  (decide (ho ≤ fld F.SPM_RAMP_F_OLMAX 0 s) && decide (ho * 800000000 + acc * (800000 * fld F.SPM_HO_HO_TMO 0 s) ≤ acc * s.spm.cyc)) ||
    s.spm.negFrom.any (fun n => n + 65536 * 640000000000000000 ≤ s.spm.olAcc)

/-- θ_ol: the align angle and what the open-loop frequency has added (R222). -/
def thetaOl (s : State) : Int := ((s.spm.align + s.spm.olAcc / 640000000000000000) % 65536 : Nat)

/-- The stiction pulse in force: its number, and whether it stands, or the gates are off for the 1 ms after it or after the last of STICK_N
pulses (R225). -/
def stickPulse (s : State) : Nat × Bool :=
  let on := 800000 * fld F.SPM_STICK_STICK_T 0 s
  let p := s.spm.cyc / (on + 800000)
  (p, decide (s.spm.cyc % (on + 800000) < on) && decide (p < fld1 F.SPM_STICK_STICK_N 0 s))

/-- STICK_N pulses have been applied, with 1 ms between them (R225). -/
def stickDone (s : State) : Bool :=
  let n := fld1 F.SPM_STICK_STICK_N 0 s
  decide (800000 * (fld F.SPM_STICK_STICK_T 0 s * n + (n - 1)) ≤ s.spm.cyc)

/-- The amplitude of stiction pulse `p`, from I_ALIGN to I_STICK; that of a single pulse is open (R225). -/
def stickI (s : State) (p : Nat) : Int :=
  let n := fld1 F.SPM_STICK_STICK_N 0 s
  let a : Int := fld F.SPM_ALIGN_I_ALIGN 0 s
  let b : Int := fld F.SPM_STICK_I_STICK 0 s
  if n = 1 then Config.openVal 225 [a, b] else a + openRound 225 ((b - a) * (min p (n - 1) : Nat)) (n - 1)

/-- The frame of the current loop and its references i_d*, i_q* (R221, R222, R224, R225, R228, R232, R235). -/
def currentRefs (s : State) : Int × Int × Int :=
  let x := s.spm
  match spmSt s with
  | 2 =>
    let p := (stickPulse s).1
    (x.align + (if p % 2 = 0 then 16384 else -16384), stickI s p, 0)
  | 3 =>
    let i := startI F.SPM_ALIGN_I_ALIGN s
    let q := 200000 * fld1 F.SPM_ALIGN_T_ALIGN 0 s
    (x.align, if x.cyc < q then openRound 221 (i * x.cyc) q else i, 0)
  | 4 => (thetaOl s, 0, startI F.SPM_RAMP_I_RAMP s)
  | _ => (x.theta, x.id, x.iq)

/-- One step of the current loop: the integrators, and the voltage command in 2^-16 duty (SPM_ILOOP). -/
def currentLoop (s : State) : State :=
  let r := currentRefs s
  let i := park r.1 s.spm.iNow
  let ki : Int := fld F.SPM_ILOOP_KI 0 s
  let kp : Int := fld F.SPM_ILOOP_KP 0 s
  let di := s.spm.dInt + ki * (r.2.1 - i.1)
  let qi := s.spm.qInt + ki * (r.2.2 - i.2)
  { s with spm := { s.spm with dInt := di, qInt := qi, vd := di + kp * (r.2.1 - i.1), vq := qi + kp * (r.2.2 - i.2) } }

/-- In the last half of T_ALIGN a phase whose current is below 1/8 of its commanded share, while the other two conduct, may be open (R221). -/
def openCheck (s : State) : State :=
  let x := s.spm
  if spmSt s ≠ 3 || x.cyc < 400000 * fld1 F.SPM_ALIGN_T_ALIGN 0 s then s
  else
    let i := startI F.SPM_ALIGN_I_ALIGN s
    let low := (List.range 3).filter (fun k =>
      8 * ((x.iNow.getD k 0).natAbs : Int) < (openRound 221 (i * cosT (3 * x.align - 65536 * k)) (2 ^ 30)).natAbs)
    { s with spm := { x with openMask := if low.length = 1 then x.openMask &&& 2 ^ low.headD 0 else 0, openSeen := true } }

/-- A phase has stayed open over the last half of T_ALIGN (R221). -/
def openPhase (s : State) : Bool := s.spm.openSeen && s.spm.openMask != 0

end Sys2Proof.Machine
end

