-- ==== Sys2Proof/Machine/Spindle.lean ====
section
/-! DEFINITION. Commands of the spindle controller (R210–R237). -/

namespace Sys2Proof.Machine

open Sys2Proof

/-- An arm is LANDED (R225). -/
def anyLanded (s : State) : Bool := (List.range 4).any (fun a => mode s a == 2)

/-- The align angle of attempt `k` (R226). -/
def alignAngle (s : State) (k : Nat) : Nat := (fld F.SPM_START_ALIGN_ANG 0 s + k * fld F.SPM_START_ALIGN_STEP 0 s) % 65536

/-- The largest line-to-line voltage of a conversion, in codes (R219). -/
def lineMax (v : Abc) : Nat :=
  let d := fun (x y : Int) => ((voltCode 4096 x).toNat - (voltCode 4096 y).toNat : Int).natAbs
  max (d v.a v.b) (max (d v.b v.c) (d v.c v.a))

/-- The rotor turns: a line-to-line voltage of the last conversion exceeds CATCH_V (R219). -/
def turning (s : State) (vs : List Abc) : Bool := vs.getLast?.any (fun v => fld F.SPM_VSNS_CATCH_V 0 s < lineMax v)

/-- The rotor is still: all three line-to-line voltages have stayed below STILL_V over the 50 ms of conversions `vs` (R219). -/
def still (s : State) (vs : List Abc) : Bool := !vs.isEmpty && vs.all (fun v => lineMax v < fld F.SPM_VSNS_STILL_V 0 s)

/-- SPM_START (R218–R220, R225, R236): START by the rotor's motion as the phase voltages of the last 50 ms show it; ignored in CATCH, STICTION, ALIGN,
RAMP, RETRY, RUN and GEN. Between the two thresholds the rotor neither turns nor is still, and no row of R218 applies (DEDUCED, log entry 6). -/
def execSpmStart (vs : List Abc) (s : State) : Answer :=
  let st := spmSt s
  if st = 8 then .next (spmEnter 6 (gatesOff s))
  else if (st ≠ 1 ∧ st ≠ 10 ∧ st ≠ 11) || !(turning s vs || still s vs) then .next s
  else
    let landed := anyLanded s
    let s := if st = 11 then put F.SPM_STAT_FAIL 0 0 (put F.SPM_STAT_ATTEMPT 0 0 s) else s
    let s := put F.SPM_STAT_LANDED 0 landed.toNat { s with spm := { s.spm with locked := false, genPend := false } }
    if turning s vs then .next (spmEnter 6 (gatesOff s))
    else
      let s := gatesOff (spmEnter (if landed then 2 else 3) (put F.SPM_STAT_ATTEMPT 0 0 s))
      .next { s with spm := { s.spm with calibrating := true, align := alignAngle s 0,
                                          id := 0, iq := 0, idStep := 0 } }

/-- SPM_STOP (R218, R232): STOP_REF unless every arm is in OFF, PARKED or RETRACT; regenerative braking from RUN. -/
def execSpmStop (s : State) : Answer :=
  .next (if (List.range 4).all (fun a => mode s a == 0 || mode s a == 1 || mode s a == 9) then
      if spmSt s ≠ 7 then s
      else
      let s := spmEnter 8 s
      { s with spm := { s.spm with iq := -(fld F.SPM_ILIM_IQ_BRAKE 0 s : Int), id := 0 } }
    else put F.SPM_STAT_STOP_REF 0 1 s)

/-! ### The PWM period (R211–R217, R233, R236) -/

/-- θ̂ moves: wraps count in PPIDX, MECH follows, and SRV_THETA takes it while no servo timer is locked (R209, R233). -/
def spmAngle (theta : Nat) (s : State) : State :=
  let old := s.spm.theta
  let pp := polePairs s
  let idx := fld F.SPM_ANGLE_PPIDX 0 s
  let tracked := spmTracked s
  let idx := if !tracked then idx
    else if theta + 32768 < old then (idx + 1) % pp
    else if old + 32768 < theta then (idx + pp - 1) % pp else idx
  let s := put F.SPM_ANGLE_PPIDX 0 idx (put F.SPM_ANGLE_THETA_E 0 theta { s with spm := { s.spm with theta := theta } })
  if !tracked then s
  else
    let s := put F.SPM_ANGLE_MECH 0 (spmMech s) s
    if (thetaHead s).isSome then s else thetaSpindle s

/-- The observer's step from RAMP on, over a loop period of `n` PWM periods (R217, R236). -/
def pwmObserve (n : Nat) (s : State) : State :=
  let st := spmSt s
  if 4 ≤ st then
      let r := observe s n
      let x := { s.spm with omega := r.2.2.1, emfOk := r.1, eps := r.2.1, thetaLo := r.2.2.2 % 65536,
                            epsOver := s.spm.epsOver && 10923 < r.2.1.natAbs }
      spmAngle (r.2.2.2 / 65536) { s with spm := { x with locked := x.locked && st != 4 } }
    else s

/-- Generator mode starts in the PWM period after the power-loss signal when the observer is locked; i_q* stands within −IQ_GEN to 0 at once
(R235). -/
def genEnter (s : State) : State :=
  if s.spm.genPend && s.spm.locked && (spmSt s = 7 || spmSt s = 8) then
    let s := spmEnter 9 s
    { s with spm := { s.spm with genPend := false, id := 0, idStep := 0, iq := max (-(fld F.SPM_ILIM_IQ_GEN 0 s : Int)) (min 0 s.spm.iq) } }
  else s

/-- A PWM period passes in STICTION, ALIGN or RAMP: their time, θ_ol with its wraps in whole turns from the align angle, and how long ω̂ has been
negative in RAMP (R218, R222, R223). -/
def pwmClock (s : State) : State :=
  let x := s.spm
  let acc := if spmSt s = 4 then x.olAcc + 65536 * fOl s * pwmT s else x.olAcc
  let turn := 65536 * 640000000000000000
  { s with spm := { x with cyc := x.cyc + pwmT s, olAcc := acc, negFrom := if spmSt s = 4 ∧ x.omega < 0 then some (x.negFrom.getD x.olAcc) else none, wrapDue := x.wrapDue || decide (x.olAcc / turn < acc / turn) } }

/-- The gates of BRAKE below 300 rpm: all three low sides on, until the rotor is still (R232). -/
def brakeLow (s : State) : State :=
  put F.SPM_STAT_SHIFT 0 0 { s with spm := { s.spm with kind := .low, duty := [0, 0, 0], phases := [], gates := 0x2A } }

/-- The sample of a period that has one, over a loop period of `n`: the observer, the current loop, and the period that follows (R213, R214, R217). -/
def pwmLoop (n : Nat) (adc : Abc) (s : State) : State :=
  let t := pwmSample (phaseCurrents s adc) s
  if 2 ≤ t.spm.ocRun then spmTrip 1 { t with spm := { t.spm with ocRun := 0 } }
  else
    let u := currentLoop (openCheck (pwmObserve n t))
    if spmSt u = 8 && (s.spm.kind = .low || fld F.SPM_MEAS_SPEED 0 u < 30000) then brakeLow u
    else
      let r := dutiesOf (currentRefs u).1 u.spm.vd u.spm.vq u
      if s.spm.kind = .shift then { (pwmRun .comp s.spm.duty r.2) with spm := { (pwmRun .comp s.spm.duty r.2).spm with next := r.1 } }
      else pwmBegin r.1 r.2

/-- SPM_PWM_PERIOD (R211–R217, R221, R222, R225, R232, R233, R235, R236): one PWM period in a state that drives the motor. The first one
after the gates were off only starts them; a compensation period takes no sample. -/
def execSpmPwmPeriod (adc : Abc) (s : State) : Answer :=
  let st := spmSt s
  if !(st = 2 || st = 3 || st = 4 || st = 7 || st = 8 || st = 9) || s.spm.calibrating then .next s
  else
    let t := genEnter (pwmClock s)
    .next (if st = 2 && !(stickPulse t).2 then gatesOff t
      else match s.spm.kind with
        | .off =>
          let r := dutiesOf (currentRefs t).1 t.spm.dInt t.spm.qInt t
          pwmBegin r.1 r.2
        | .comp => pwmBegin t.spm.next t
        | .shift => pwmLoop 2 adc t
        | .normal => pwmLoop 1 adc t
        | .low => pwmLoop 1 adc t)

/-- i_d* falls linearly to 0 over the blend (R224). -/
def blendId (x : Spm) : Spm :=
  if x.idStep = 0 then { x with id := 0 }
  else { x with id := openRound 224 (x.id * (x.idStep - 1 : Nat)) x.idStep, idStep := x.idStep - 1 }

/-- The PI speed loop (R225, R228). -/
def speedLoop (speed : Int) (s : State) : State :=
  let err := (spmTarget s : Int) * 100 - speed
  let int' := s.spm.spInt + (fld F.SPM_SLOOP_KI 0 s : Int) * err
  let lim : Int := if anyLanded s then min (fld F.SPM_ILIM_IQ_LAND 0 s) (fld F.SPM_ILIM_IQ_MAX 0 s) else fld F.SPM_ILIM_IQ_MAX 0 s
  let iq := max (-lim) (min lim (openRound 228 ((fld F.SPM_SLOOP_KP 0 s : Int) * err + int') 65536))
  let iq := if s.spm.overspeed then -(fld F.SPM_ILIM_IQ_BRAKE 0 s : Int) else iq
  { s with spm := blendId { s.spm with spInt := int', iq := iq } }

/-- SPIN_LOW and the unload of loaded arms (R231), and the emergency unload of landed arms (R188, R202). -/
def spinChecks (speed : Nat) (s : State) : State :=
  let low := (List.range 4).filter (fun a => 3 ≤ mode s a && mode s a ≤ 7 &&
    speed < fld F.SRV_UNLOAD_UNLOAD_RPM a s * spmTarget s)
  let s := if low.isEmpty then s
    else raiseEvent 82 (put F.SPM_STAT_SPIN_LOW 0 1
      (each low (fun a s => unloadByMode a (put F.SRV_CTL_UNLOAD a 1 s)) s))
  upTo 4 (fun a s => if mode s a = 2 ∧ spinAboveUnload s a then startUnload a true s else s) s

/-- AT_SPEED counts electrical cycles within TOL ppm, and clears beyond 4 × TOL ppm (R230). -/
def atSpeedCheck (speed : Nat) (s : State) : State :=
  let t := spmTarget s * 100
  let d := ((speed : Int) - (t : Int)).natAbs * 1000000
  let tol := fld F.SPM_SPEED_TOL 0 s * t
  let s := { s with spm := { s.spm with revs := if d ≤ tol then s.spm.revs + 1 else 0 } }
  if 4 * tol < d then atSpeedFall s else s

/-- The measured speed in 0.01 rpm, negative backward: from the servo's angle while it has one, else from ω̂ (R229). -/
def measured (s : State) : Int := if fld F.SRV_THETA_SRC 0 s = 1 then (arm s 0).thSpeed else omegaSpeed s

/-- Electrical cycles in a row through which |ε| stayed above 60° (R236). -/
def syncCount (s : State) : State :=
  { s with spm := { s.spm with epsRun := if s.spm.epsOver then s.spm.epsRun + 1 else 0, epsOver := true } }

/-- SPM_SPEED_LOOP (R228–R231, R235–R237): once per electrical cycle. -/
def execSpmSpeedLoop (s : State) : Answer :=
  let st := spmSt s
  let v := measured s
  let speed := v.natAbs
  let s := put F.SPM_MEAS_SPEED 0 (min 16777215 speed) (put F.SPM_MEAS_DIR 0 (decide (v < 0)).toNat
    (put F.SPM_MEAS_SRC 0 (if fld F.SRV_THETA_SRC 0 s = 1 then 1 else 0) (put F.SPM_PWR_MOTOR 0 (min 65535 (motorPower s).toNat) (syncCount s))))
  if (st = 7 ∨ st = 9 ∨ st = 6 ∨ st = 10) ∧ 1050000 < speed then .next (spmFail 5 5 s)
  else
    let s := spinChecks speed s
    if st = 7 then
      let t := spmTarget s * 100
      let s := if !s.spm.overspeed && t * 105 < speed * 100 then
          report 192 none 0x0B 0 0 4 (count F.SPM_ERR_OVERSPEED 0 { s with spm := { s.spm with overspeed := true } })
        else if s.spm.overspeed && speed * 100 < t * 101 then { s with spm := { s.spm with overspeed := false } } else s
      .next (atSpeedCheck speed (speedLoop v s))
    else if st = 9 then
      if speed < fld F.SPM_GEN_GEN_MIN 0 s * 100 || !s.spm.emfOk then .next (spmCoast false s)
      else
        -- the gains of the hold-up loop are not stated: i_q* is open within its limit
        let g := fld F.SPM_ILIM_IQ_GEN 0 s
        .next { s with spm := { s.spm with id := 0, iq := -(Config.openVal 235 [s.spm.iq, speed] % (g + 1 : Nat)) } }
    else .next s

/-- SPM_LOSS_OF_SYNC (R236): in RUN the angle error has stayed above 60° for 4 electrical cycles, or the back-EMF is too small at F_HO or more. -/
def execSpmLossOfSync (s : State) : Answer :=
  .next (if spmSt s = 7 && (4 ≤ s.spm.epsRun || (!s.spm.emfOk && omegaAtLeast s (fld F.SPM_RAMP_F_HO 0 s))) then spmTrip 2 s else s)

/-- The mean of a channel's calibration samples (R220). -/
def calMean (l : List Int) : Int := openRound 220 ((l.map (fun v => (senseCode v).toInt)).foldl (· + ·) 0) 256

/-- SPM_OFFSET_CAL_DONE (R220): the means of the 256 samples become the offsets, or the start fails with FAIL = OFFSET. -/
def execSpmOffsetCalDone (adc : List Abc) (s : State) : Answer :=
  let means := [calMean (adc.map (·.a)), calMean (adc.map (·.b)), calMean (adc.map (·.c))]
  .next (if !s.spm.calibrating then s
    else if means.any (fun m => 256 < m.natAbs) then spmFail 3 9 s
    else { s with spm := { s.spm with calibrating := false, offs := means } })

/-- SPM_STICTION_END (R218, R225): the sequence of STICK_N pulses has ended. -/
def execSpmStictionEnd (s : State) : Answer :=
  .next (if spmSt s = 2 && !s.spm.calibrating && stickDone s then spmEnter 3 s else s)

/-- SPM_ALIGN_END (R218, R221, R222): RAMP starts at the align angle, or an open phase fails the start. -/
def execSpmAlignEnd (s : State) : Answer :=
  .next (if spmSt s ≠ 3 ∨ s.spm.calibrating then s
    else if openPhase s then spmFail 2 8 s
    else
      let s := spmEnter 4 s
      { s with spm := { s.spm with agree := 0, locked := false } })

/-- err of R223 in electrical units. -/
def rampErr (s : State) : Int := (thetaOl s - s.spm.theta + 32768) % 65536 - 32768

/-- The hand-over of R224 at angle error `err`: the current vector in force in the new frame, the integrators keep the voltage in force. -/
def handOverRun (err : Int) (s : State) : State :=
  let i := startI F.SPM_RAMP_I_RAMP s
  let c := cosT (3 * err)
  let n := sinT (3 * err)
  let iq := roundDiv (i * c) (2 ^ 30)
  let s := spmEnter 7 s
  let x := s.spm
  { s with spm := { x with locked := true, id := roundDiv (-i * n) (2 ^ 30), iq := iq, spInt := iq * 65536,
                           dInt := openRound 224 (x.vd * c - x.vq * n) (2 ^ 30), qInt := openRound 224 (x.vd * n + x.vq * c) (2 ^ 30),
                           idStep := fld1 F.SPM_HO_HO_BLEND 0 s, revs := 0, overspeed := false, epsOver := false, epsRun := 0 } }

/-- SPM_RAMP_WRAP (R222–R224): agreement at a wrap of θ_ol, and the bumpless hand-over after HO_CYC of them. -/
def execSpmRampWrap (s : State) : Answer :=
  if spmSt s ≠ 4 || !s.spm.wrapDue then .next s
  else
    let err := rampErr s
    let good := fld F.SPM_RAMP_F_HO 0 s * 800000000 ≤ fOl s && s.spm.emfOk && err.natAbs < fld F.SPM_HO_HO_ERR 0 s
    let n := if good then s.spm.agree + 1 else 0
    let s := { s with spm := { s.spm with wrapDue := false, agree := n } }
    .next (if fld1 F.SPM_HO_HO_CYC 0 s ≤ n then handOverRun err s else s)

/-- SPM_HO_TIMEOUT (R218): no agreement in time, or the rotor turns backward: gates off, ATTEMPT + 1, RETRY. -/
def execSpmHoTimeout (s : State) : Answer :=
  .next (if spmSt s = 4 && hoExpired s then
      count F.SPM_ERR_RETRY 0 (put F.SPM_STAT_ATTEMPT 0 (min 5 (fld F.SPM_STAT_ATTEMPT 0 s + 1)) (spmEnter 5 (gatesOff s)))
    else s)

/-- SPM_ROTOR_STILL (R218, R219, R226): the phase voltages of 50 ms find the rotor still. -/
def execSpmRotorStill (vs : List Abc) (s : State) : Answer :=
  let st := spmSt s
  .next (if !still s vs then s
    else if st = 5 then
      let k := fld F.SPM_STAT_ATTEMPT 0 s
      if k ≤ 4 then
        let s := spmEnter 3 s
        { s with spm := { s.spm with align := alignAngle s k } }
      else spmFail 1 7 s
    else if st = 8 ∨ st = 10 then
      let s := spmEnter 1 (gatesOff s)
      { s with spm := { s.spm with genPend := false } }
    else s)

/-- SPM_RETRY_TIMEOUT (R218): 2 s without stillness fails the start. -/
def execSpmRetryTimeout (s : State) : Answer := .next (if spmSt s = 5 then spmFail 1 7 s else s)

/-- What the zero crossings of the line-to-line voltages give (R227): θ̂ at the last one, and ω̂ from the intervals between them. Crossing k
is that at 30 + 60 k electrical degrees: C to A rising, B to C falling, A to B rising, C to A falling, B to C rising, A to B falling; `xs`
holds each with the cycles since the one before, in the order they came. -/
def crossings (s : State) (xs : List (Fin 6 × Nat)) : Nat × Int :=
  let th := match xs.getLast? with
    | some e => (openRound 227 (65536 * (1 + 2 * e.1.val) : Nat) 12 % 65536).toNat
    | none => s.spm.theta
  let iv := xs.drop 1
  let w := openRound 227 (4294967296 * pwmT s * iv.length : Nat) (6 * (iv.map (·.2)).foldl (· + ·) 0)
  match xs.reverse with
  | e :: d :: _ => (th, if iv.all (fun x => x.2 = 0) then 0 else if e.1 = d.1 + 1 then w else if d.1 = e.1 + 1 then -w else 0)
  | _ => (th, 0)

/-- The rotor that CATCH found is engaged: the current loop gives the voltage of zero current, whose value is open (R227). -/
def engage (st : Nat) (s : State) : State :=
  let s := spmEnter st s
  let v := fun (k : Int) => Config.openVal 227 [k, (s.spm.theta : Int), s.spm.omega]
  { s with spm := { s.spm with genPend := false, locked := true, emfOk := true, id := 0, iq := 0, spInt := 0, idStep := 0, revs := 0,
                               overspeed := false, dInt := v 0, qInt := v 1, epsOver := false, epsRun := 0 } }

/-- SPM_CATCH_LOCK (R218, R227, R235): the turning rotor is engaged in RUN, or in GEN after a power loss once the crossings give a speed, or goes to
RETRY. -/
def execSpmCatchLock (xs : List (Fin 6 × Nat)) (s : State) : Answer :=
  let st := spmSt s
  if !(st = 6 || (st = 10 && s.spm.genPend)) then .next s
  else
    let r := crossings s xs
    let s := put F.SPM_ANGLE_THETA_E 0 r.1 { s with spm := { s.spm with theta := r.1, thetaLo := 0, omega := r.2 } }
    .next (if s.spm.genPend then (if r.2 = 0 then s else engage 9 s)
      else if 0 < r.2 && omegaAtLeast s (fld F.SPM_RAMP_F_HO 0 s) then engage 7 s
      else spmEnter 5 (gatesOff s))

/-- SPM_STAGE_FAULT (R218, R234, R236): SPG_FLT_N low. -/
def execSpmStageFault (s : State) : Answer :=
  .next (if spmSt s = 0 ∨ spmSt s = 11 then s else spmFail 6 6 s)

/-- SPM_AUTO_RESTART (R218): COAST entered from RUN by a trip catches the rotor again. -/
def execSpmAutoRestart (s : State) : Answer :=
  .next (if spmSt s = 10 && s.spm.tripCoast && !s.spm.lostSince && flag F.SPM_CTL_AUTO_RESTART 0 s then spmEnter 6 (gatesOff s) else s)

/-- SPM_AT_SPEED (R230): AT_SPEED sets after 16 revolutions within TOL ppm of TARGET. -/
def execSpmAtSpeed (s : State) : Answer :=
  .next (if spmSt s = 7 && 16 * polePairs s ≤ s.spm.revs && !flag F.SPM_STAT_AT_SPEED 0 s then
      releaseWrites (put F.SPM_STAT_AT_SPEED 0 1 s)
    else s)

end Sys2Proof.Machine
end

