-- ==== Sys2Proof/Machine/Vendor.lean ====
section
/-! DEFINITION. Vendor admin commands: blaze, faults, salvage, fences, budget and sensors (R355–R357, R399, R400, R458, R479, R480, R493). What
they ask of drive firmware is done as drive firmware does it, by its register writes. -/

namespace Sys2Proof.Machine

open Sys2Proof

/-- The state a meaning answers. -/
def stateOf (a : Answer) (s : State) : State := match a with
  | .next t => t
  | _ => s

/-- The vendor command of opcode `o` and action `a` in a slot, ready to be carried out and to return data. -/
def vendorAct (s : State) (slot : Fin 4096) (o a : Nat) : Option Cmd := (admAct s slot.val o a).bind (fun x => if outReady s x then some x else none)

/-! ### Blaze Read, Fault Status, Sensor Read (R458, R479, R480, R493) -/

/-- BLAZE_READ (R458): permanent records first, from the one whose SEQ is asked for, else from the oldest circulating record. -/
def execBlazeRead (slot : Fin 4096) (s : State) : Answer :=
  .next (match adm s slot.val 0xC4 with
    | none => s
    | some x =>
      if !outReady s x then s
      else
        let p := permRecs s
        let l := p ++ circRecs s
        let i := (l.findIdx? (fun r => le r 4 4 == cdw x 10)).getD p.length
        let r := (l.drop i).take (cdw x 11)
        admSend x r.flatten r.length s)

/-- The CHK word of checker `n`. -/
def chkWord (s : State) (n : Nat) : Nat :=
  fld F.FLT_CHK_COUNT n s + fld F.FLT_CHK_BASE n s * 2 ^ 16 + fld F.FLT_CHK_KIND n s * 2 ^ 19 + fld F.FLT_CHK_LATCHED n s * 2 ^ 20 +
    fld F.FLT_CHK_LIVE n s * 2 ^ 21 + fld F.FLT_CHK_TRANSIENT n s * 2 ^ 22 + fld F.FLT_CHK_EN n s * 2 ^ 23 + fld F.FLT_CHK_ESC n s * 2 ^ 24

/-- The fault data that function `f` is given (R479). -/
def faultData (s : State) (f : Nat) : List Byte :=
  let pf := f = 0
  let own := (fld F.FLT_FC3_ACTIVE 0 s).testBit f
  let act := if pf then fld F.FLT_STAT_ACTIVE 0 s else 4 * (bit F.FLT_STAT_ACTIVE 0 2 s).toNat + 8 * own.toNat
  let fix := structOf 64 [(0, 2, 1), (2, 1, act), (3, 1, if pf then fld F.FLT_STAT_PENDING 0 s else 0),
    (4, 1, if pf then fld F.FLT_STAT_SELF_ERR 0 s + 2 * fld F.FLT_CTL_INJ_EN 0 s else 0), (8, 8, s.time),
    (16, 8, if pf then fld F.FLT_FC3_ACTIVE 0 s else own.toNat * 2 ^ f),
    (24, 4, fld F.SPR_FENCE_HEAD_FENCE 0 s), (28, 4, fld F.SPR_FENCE_HEAD_FENCE 1 s), (32, 4, rd R.DEC_FENCE 0 0 s), (36, 1, fld F.SPR_FENCE_ARM_FENCE 0 s),
    (38, 2, fld F.SPR_SURF_UNREACH_UNREACH 0 s), (40, 4, if pf then fld F.FLT_FSEQ_FSEQ 0 s else 0)]
  fix ++ (if pf then (List.range 5).flatMap (capBytes s 0) else List.replicate 160 0) ++ capBytes s 1 f ++
    (if pf then (List.range 256).flatMap (fun n => bytesOf 4 (chkWord s n)) else List.replicate 1024 0) ++ List.replicate 2816 0

/-- FAULT_STATUS (R462, R479, R480): the data shows the state before the acknowledgement, which also clears FC0 and FC1. -/
def execFaultStatus (slot : Fin 4096) (s : State) : Answer :=
  .next (match adm s slot.val 0xC5 with
    | none => s
    | some x =>
      let ack := (cdw x 10).testBit 0
      let m := cdw x 11 % 16
      if !outReady s x then s
      else if ack && x.fn ≠ 0 then admEnd x stPermit 0 s
      else
        let b := faultData s x.fn
        let t := if ack then upTo 2 (fun c s => if m.testBit c then clearClass c s else s) (ackClasses m s) else s
        admSend x b (le b 2 1) t)

/-- SENSOR_READ (R493). -/
def execSensorRead (slot : Fin 4096) (s : State) : Answer :=
  .next (match adm s slot.val 0xCA with
    | none => s
    | some x =>
      if !outReady s x then s
      else
        let flags := upTo 4 (fun n m => if fld F.MGT_THM_TEMP n s = 0x8000 then m + 2 ^ (n + 1) else m) (fld F.MGT_STAT_RC_TIME 0 s)
        let sec := fld F.BLZ_TIME_SECONDS 0 s % 2 ^ 32
        let b := structOf 48 [(0, 2, 1), (2, 2, flags), (4, 4, sec), (8, 8, s.time)]
        let b := layAt b 16 ((List.range 8).flatMap (fun k => bytesOf 2 (fld F.MGT_TEMP_TEMP k s)))
        let b := layAt b 32 ((List.range 4).flatMap (fun n => bytesOf 2 (fld F.MGT_THM_TEMP n s)))
        let mon := (List.range 6).flatMap (fun n => bytesOf 2 (lowBits 16 (monMv s n)) ++ bytesOf 2 (lowBits 16 (monMa s n)) ++ bytesOf 4 (lowBits 32 (monMw s n)))
        let ro := (List.range 16).flatMap (fun k => bytesOf 4 (lowBits 32 (sext 16 (fld F.MGT_RO_SLOW k s))))
        admSend x (b ++ mon ++ ro) sec s)

/-! ### Salvage Control (R356) -/

/-- A Salvage Control command ends with the header of log page C4h and SPR_SALV_STAT. -/
def salvEnd (x : Cmd) (s : State) : State := admSend x (pageSalvHead s 0) (rd R.SPR_SALV_STAT 0 0 s) s

/-- Drive firmware's write of one bit of SPR_SALV_CTL. -/
def salvBit (b : Nat) (s : State) : BusW := ⟨15, rd R.SPR_SALV_CTL 0 0 s ||| 2 ^ b⟩

/-- SALVAGE_STATUS (R356). -/
def execSalvageStatus (slot : Fin 4096) (s : State) : Answer :=
  .next (match vendorAct s slot 0xC6 0 with
    | none => s
    | some x => salvEnd x s)

/-- The zone that holds tracks `a` to `b` of one range. -/
def rangeZone (s : State) (a b : Nat) : Option (Nat × Zone) := match s.geo with
  | none => none
  | some g => (g.zones.zipIdx.find? (fun e => e.1.first ≤ a && a ≤ b && b ≤ e.1.last)).map (fun e => (e.2, e.1))

/-- A VALID region fence on a surface that covers tracks `a` to `b`. -/
def regionFenced (s : State) (f a b : Nat) : Bool :=
  (List.range 64).any (fun n => flag F.SPR_RFENCE_VALID n s && fld F.SPR_RFENCE_SURF n s == f && fld F.SPR_RFENCE_FIRST n s ≤ a && b ≤ fld F.SPR_RFENCE_LAST n s)

/-- Lowest region fence entry not in force. -/
def rfenceFree (s : State) : Option Nat := (List.range 64).find? (fun n => !flag F.SPR_RFENCE_VALID n s)

/-- A region fence entry is put in force; VALID is written last (R38). -/
def rfencePut (n f a b : Nat) (s : State) : State :=
  mapChange (put F.SPR_RFENCE_VALID n 1 (put F.SPR_RFENCE_SURF n f (put F.SPR_RFENCE_LAST n b (put F.SPR_RFENCE_FIRST n a s))))

/-- The relocation entry of a job over whole tracks, with an empty bitmap (R266). -/
def relocPut (p : SalvPlan) (f z : Nat) (zn : Zone) (a b : Nat) (s : State) : State :=
  let n := (b - a + 1) * zn.spt
  let e := bytesOf 5 ((a - zn.first) * zn.spt) ++ bytesOf 1 z ++ bytesOf 1 p.spareZone.val ++ [1] ++ bytesOf 5 p.spareK ++ bytesOf 1 f ++ bytesOf 2 0 ++
    bytesOf 4 n ++ bytesOf 4 0 ++ bytesOf 8 p.bitmap
  let s := sramWrite (fld F.SPR_RELOC_BASE_ADDR 0 s * 32 + 32 * p.entry.val) e (hwWrite 7 p.bitmap (List.replicate (8 * ceilDiv n 64) 0) 0 0 s)
  put F.SPR_RELOC_CNT_COUNT 0 (max (fld F.SPR_RELOC_CNT_COUNT 0 s) (p.entry.val + 1)) s

/-- SALVAGE_CTL_START (R269, R356): drive firmware fences the range where no fence covers it, builds the entry of its plan and starts the engine. It
has no plan where no spare stripes are left for the range. -/
def execSalvageCtlStart (slot : Fin 4096) (p : Option SalvPlan) (s : State) : Answer :=
  .next (match vendorAct s slot 0xC6 1 with
    | none => s
    | some x =>
      let f := cdw x 11 % 16
      let a := cdw x 12
      let b := cdw x 13
      match rangeZone s a b, p with
      | some (z, zn), some p =>
        let fenced := regionFenced s f a b
        if salvState s = 1 || salvState s = 2 || (!fenced && (rfenceFree s).isNone) then admEnd x stSalvage (rd R.SPR_SALV_STAT 0 0 s) s
        else
          let t := match rfenceFree s with
            | some n => if fenced then s else rfencePut n f a b s
            | none => s
          let t := put F.SPR_SALV_CTL_ENTRY 0 p.entry.val (relocPut p f z zn a b t)
          let t := stateOf (execSprSalvStart (salvBit 31 t) t) t
          salvEnd x (replan (degradedUpdate t))
      | _, _ => admEnd x stSalvage (rd R.SPR_SALV_STAT 0 0 s) s)

/-- SALVAGE_CTL_PAUSE (R270, R356). -/
def execSalvageCtlPause (slot : Fin 4096) (s : State) : Answer :=
  .next (match vendorAct s slot 0xC6 2 with
    | none => s
    | some x => salvEnd x (stateOf (execSprSalvPause (salvBit 30 s) s) s))

/-- SALVAGE_CTL_RESUME (R270, R356). -/
def execSalvageCtlResume (slot : Fin 4096) (s : State) : Answer :=
  .next (match vendorAct s slot 0xC6 3 with
    | none => s
    | some x => salvEnd x (stateOf (execSprSalvResume (salvBit 29 s) s) s))

/-- SALVAGE_CTL_ABORT (R270, R356). -/
def execSalvageCtlAbort (slot : Fin 4096) (s : State) : Answer :=
  .next (match vendorAct s slot 0xC6 4 with
    | none => s
    | some x => salvEnd x (stateOf (execSprSalvAbort (salvBit 28 s) s) s))

/-- CLEAR_LOST (R276, R356): the records of a namespace, or all, leave the page; LOST_TOTAL counts from here on. -/
def execClearLost (slot : Fin 4096) (s : State) : Answer :=
  .next (match vendorAct s slot 0xC6 5 with
    | none => s
    | some x =>
      let n := cdw x 14
      salvEnd x (c4Change 0 { s with spr := { s.spr with lost := s.spr.lost.filter (fun e => n != 0xFFFFFFFF && e.1 != n), lostTotal := 0 } }))

/-! ### Fence Control (R357) -/

/-- A Fence Control command ends with log page C5h and SPR_SURF_UNREACH. -/
def mapEnd (x : Cmd) (s : State) : State := admSend x (pageMap s) (rd R.SPR_SURF_UNREACH 0 0 s) s

/-- A refusal carries SPR_SURF_UNREACH too. -/
def mapRefuse (x : Cmd) (st : Nat) (s : State) : State := admEnd x st (rd R.SPR_SURF_UNREACH 0 0 s) s

/-- The change from `s` to `t` makes a surface unreachable. -/
def losesSurface (s t : State) : Bool := (List.range 16).any (fun f => (unreachMask t).testBit f && !(unreachMask s).testBit f)

/-- FENCE_QUERY (R357). -/
def execFenceQuery (slot : Fin 4096) (s : State) : Answer :=
  .next (match vendorAct s slot 0xC8 0 with
    | none => s
    | some x => mapEnd x s)

/-- FENCE_HEAD (R34, R357): refused where it would make a surface unreachable, unless FORCE is 1. -/
def execFenceHead (slot : Fin 4096) (s : State) : Answer :=
  .next (match vendorAct s slot 0xC8 1 with
    | none => s
    | some x =>
      let h := cdw x 11
      if 64 ≤ h then mapRefuse x stField s
      else if losesSurface s (putFBit F.SPR_FENCE_HEAD_FENCE (h / 32) (h % 32) true s) && !(cdw x 10).testBit 8 then mapRefuse x stFence s
      else mapEnd x (replan (fenceHead h s)))

/-- UNFENCE_HEAD (R36, R357). `ok`: drive firmware's checks pass. -/
def execUnfenceHead (slot : Fin 4096) (ok : Bool) (s : State) : Answer :=
  .next (match vendorAct s slot 0xC8 2 with
    | none => s
    | some x =>
      let h := cdw x 11
      if 64 ≤ h then mapRefuse x stField s
      else if !ok then mapRefuse x stFence s
      else mapEnd x (replan (eligibilityChanged s (putFBit F.SPR_FENCE_HEAD_FENCE (h / 32) (h % 32) false s))))

/-- FENCE_ARM (R34, R205, R357). -/
def execFenceArm (slot : Fin 4096) (s : State) : Answer :=
  .next (match vendorAct s slot 0xC8 3 with
    | none => s
    | some x =>
      let a := cdw x 11
      if 4 ≤ a then mapRefuse x stField s
      else if losesSurface s (putFBit F.SPR_FENCE_ARM_FENCE 0 a true s) && !(cdw x 10).testBit 8 then mapRefuse x stFence s
      else mapEnd x (replan (fenceArm a s)))

/-- UNFENCE_ARM (R36, R357). -/
def execUnfenceArm (slot : Fin 4096) (ok : Bool) (s : State) : Answer :=
  .next (match vendorAct s slot 0xC8 4 with
    | none => s
    | some x =>
      let a := cdw x 11
      if 4 ≤ a then mapRefuse x stField s
      else if !ok then mapRefuse x stFence s
      else mapEnd x (replan (eligibilityChanged s (putFBit F.SPR_FENCE_ARM_FENCE 0 a false s))))

/-- FENCE_REGION (R37, R38, R357). -/
def execFenceRegion (slot : Fin 4096) (s : State) : Answer :=
  .next (match vendorAct s slot 0xC8 5 with
    | none => s
    | some x =>
      let f := cdw x 11
      if 16 ≤ f || (rangeZone s (cdw x 12) (cdw x 13)).isNone then mapRefuse x stField s
      else match rfenceFree s with
        | none => mapRefuse x stFence s
        | some n => mapEnd x (replan (rfencePut n f (cdw x 12) (cdw x 13) s)))

/-- UNFENCE_REGION (R36, R357). -/
def execUnfenceRegion (slot : Fin 4096) (ok : Bool) (s : State) : Answer :=
  .next (match vendorAct s slot 0xC8 6 with
    | none => s
    | some x =>
      let same := fun (n : Nat) => flag F.SPR_RFENCE_VALID n s && fld F.SPR_RFENCE_SURF n s == cdw x 11 && fld F.SPR_RFENCE_FIRST n s == cdw x 12 &&
        fld F.SPR_RFENCE_LAST n s == cdw x 13
      match (List.range 64).find? same with
      | none => mapRefuse x stField s
      | some n => if !ok then mapRefuse x stFence s else mapEnd x (replan (mapChange (put F.SPR_RFENCE_VALID n 0 s))))

/-! ### Budget Control (R399, R400) -/

/-- The budget in force. -/
def effMw (s : State) : Nat := fld F.GOV_STAT_EFF_MW 0 s

/-- BUDGET_QUERY (R399). -/
def execBudgetQuery (slot : Fin 4096) (s : State) : Answer :=
  .next (match admAct s slot.val 0xC9 0 with
    | none => s
    | some x => admEnd x 0 (effMw s) s)

/-- SET_BUDGET (R399). -/
def execSetBudget (slot : Fin 4096) (s : State) : Answer :=
  .next (match admAct s slot.val 0xC9 1 with
    | none => s
    | some x =>
      if cdw x 11 < 4000 || 15800 < cdw x 11 then admEnd x stBudget (effMw s) s
      else
        let s := beffNow (put F.GOV_BUDGET_HOST_MW 0 (cdw x 11) s)
        admEnd x 0 (effMw s) s)

/-- SET_SHARES (R400): the table is taken or refused as a whole. -/
def execSetShares (slot : Fin 4096) (s : State) : Answer :=
  .next (match admAct s slot.val 0xC9 2 with
    | none => s
    | some x =>
      let b := x.data
      let u := le b 4 4
      if !inReady x then s
      else if le b 0 2 ≠ 1 || (u ≠ 0 && (u < 100 || 60000 < u)) || 128 < le b 8 1 + le b 9 1 + le b 10 1 + le b 11 1 then admEnd x stField (effMw s) s
      else
        let s := if u = 0 then s else put F.GOV_AGE_URGENT_MS 0 u s
        let s := put F.GOV_BG_DESTAGE 0 (le b 8 1) (put F.GOV_BG_LOG 0 (le b 9 1) (put F.GOV_BG_CRUISE 0 (le b 10 1) (put F.GOV_BG_SALVAGE 0 (le b 11 1) s)))
        admEnd x 0 (effMw s) (upTo 64 (fun f s => put F.GOV_FN_WEIGHT f (le b (64 + 2 * f) 2) s) s))

end Sys2Proof.Machine
end

