-- ==== Sys2Proof/Machine/WritePath.lean ====
section
/-! DEFINITION. Commands of the write path (R107–R144). -/

namespace Sys2Proof.Machine

open Sys2Proof

/-- The profile of one head: loaded when its record is valid and inside shared SRAM (R144). -/
def loadWrProfile (a z h : Nat) (x : HeadWr) (s : State) : State :=
  let base := fld F.WP_PROF_BASE_ADDR 0 s * 4096 + (h * 64 + z) * 16
  let inside := inSram base 16
  if inside && (sramNat s (base + 8) 4).testBit 0 then
    let s := wr R.WP_PC h 0 (sramNat s base 4 &&& R.WP_PC.rw) s
    let s := wr R.WP_HEAT h 0 (sramNat s (base + 4) 4 &&& R.WP_HEAT.rw) s
    setHeadWr a h { x with profOk := true } (put F.WP_STAT_ZONE h z (put F.WP_STAT_PROF_OK h 1 s))
  else
    put F.WP_STAT_PROF_OK h 0 (if inside then s else report 233 none 8 1 base 0 s)

/-- WP_PROFILE_LOAD_DONE (R127, R129, R144): the records of the operation's heads are loaded; one that is not valid ends the
operation PROFILE there and WCUT elsewhere. -/
def execWpProfileLoadDone (arm : Fin 4) (s : State) : Answer :=
  let a := arm.val
  match wop s a with
  | none => .next s
  | some o =>
    let need := o.heads.filter (fun e => !e.2.profOk)
    if need.isEmpty || o.ending then .next s
    else
      let s := each need (fun e s => loadWrProfile a o.zone e.1 e.2 s) s
      match wop s a with
      | none => .next s
      | some o' =>
        if o'.heads.all (fun e => e.2.profOk) then .next s
        else .next (cutWrite a (fun h => if ((Tab.get? o'.heads h).map (·.profOk)).getD true then 1 else 4) s)

/-- WP_ARMED_HOLD (R129): ARMED with no write operation armed becomes IDLE. -/
def execWpArmedHold (n : Fin 64) (s : State) : Answer :=
  let used := match wop s (armOf n) with | some o => o.heads.any (fun e => e.1 == n.val) | none => false
  .next (if fld F.WP_STAT_STATE n s = 2 && !used then put F.WP_STAT_STATE n 1 s else s)

/-- SECTOR_FEED_DONE (R110–R114, R118, R119, R135, R138–R140): the block of the lane's next sector, as the landing holds it, is complete,
scrambled and encoded with the code of the operation's step; `ecc` are the outcomes of its data granules and its metadata granule. Before
the first one the change to WRITE is asked for. -/
def execSectorFeedDone (n : Fin 64) (ecc : List Ecc) (s : State) : Answer :=
  let a := armOf n
  match wop s a with
  | none => .next s
  | some o => match Tab.get? o.heads n.val, feedBlock s o.item (n.val % 16) with
    | some x, some m =>
      let buf := wbuf s n
      let k := x.done + buf.length
      if o.ending || x.status.isSome || x.late || 3 ≤ buf.length || o.count ≤ k || fld F.WP_STAT_STATE n s < 2 then .next s
      else
        let psa := writePsa s o n x k
        let data := m.body.take 4096
        let hm := (m.body.drop 4096).take 64
        let q := feedEcc o.item (n.val % 16) ecc s
        let poison := le m.body 0x1040 8 ||| q.1
        let wgen := m.wgen + o.gen
        let schk := schkOf psa (blockBytes data hm poison wgen 0)
        let s := setWbuf n (buf ++ [⟨psa, data, hm, poison, wgen, schk, codeword o.step psa (blockBytes data hm poison wgen schk)⟩]) q.2
        .next (if k = 0 then askPers n 1 0 s else s)
    | _, _ => .next s

/-- BLOCK_LATE (R118, R127): the next sector's block is not in the buffer, so the operation ends UNDERRUN there; a sector in progress
is written to its end first. -/
def execBlockLate (n : Fin 64) (s : State) : Answer :=
  let a := armOf n
  .next (match wop s a with
    | none => s
    | some o => match Tab.get? o.heads n.val with
      | none => s
      | some x =>
        if o.ending || x.status.isSome then s
        else if x.sgate && (wbuf s n).length = 1 && x.done + 1 < o.count then setHeadWr a n { x with late := true } s
        else if !(wbuf s n).isEmpty then s
        else cutWrite a (fun h => if h = n.val then 2 else 1) s)

/-- HEAT_SEND (R122): the operation's one HEAT frame with HEAT_WR for the heads of the arm's write operation. -/
def execHeatSend (arm : Fin 4) (s : State) : Answer :=
  let a := arm.val
  .next (match wop s a with
    | none => s
    | some o =>
      let hs := (o.heads.map (·.1)).filter (fun h => flag F.WP_CTL_HEAT_EN h s)
      if hs.isEmpty || o.ending || o.heatAck || o.heat.isSome || !linkUp s a || 16 ≤ (link s a).unacked.length then s
      else
        let mask := upTo 16 (fun f m => if hs.contains (16 * a + f) then putBit m f true else m) 0
        let codes := (List.range 16).map (fun f => fld F.WP_HEAT_HEAT_WR (16 * a + f) s)
        let q := nextSeq s a
        let s := sendFrame a (.heat mask codes) (setWop a { o with heat := some q } s)
        each hs (fun h s => setLane h { lane s h with heatAt := none } s) s)

/-- HEAT_HOLD (R123): the first failure holds the operation one revolution, the second ends it HEAT. -/
def execHeatHold (arm : Fin 4) (s : State) : Answer :=
  let a := arm.val
  .next (match wop s a with
    | none => s
    | some o =>
      if o.ending || o.gated || o.heatAck then s
      else if o.heatFails = 0 then setWop a { o with heatFails := 1 } s
      else cutWrite a (fun _ => 7) s)

/-- WRITE_GATE_OPEN (R108, R115, R116, R120, R123, R124, R127): SGATE rises for the lane's next sector, or for the rest of a split one, and
the gate opens, once the synthesizer stands at the zone; a permit of any head of the operation that is low then ends the operation WCUT (R195).
`lead` counts the bit periods from the opening of a split sector's gate to RSOFS after the servo gate, which the preamble pattern fills; that the
pattern starts there at the first 1 of 1100 is the model's choice (R115; DESIGN CHOICE, log entry 24). -/
def execWriteGateOpen (n : Fin 64) (lead : Nat) (s : State) : Answer :=
  let a := armOf n
  match wop s a with
  | none => .next s
  | some o => match Tab.get? o.heads n.val with
    | none => .next s
    | some x =>
      let ready := persOf s n == 1 && !wkillLow s a && !(head s n).gate && !(wbuf s n).isEmpty && o.heatAck &&
        o.heads.all (fun e => e.2.profOk) && 2 ≤ fld F.WP_STAT_STATE n s
      if o.ending || x.status.isSome || (x.sgate && !x.split) then .next s
      else if !synAt s a o.zone then .next (synForOp a o.zone s)
      else if !o.heads.all (fun e => gatePermit s e.1) then .next (cutWrite a (fun _ => 1) s)
      else if !ready then .next s
      else
        let pre := if !x.split then []
          else pattern 0 (min lead (rsofsBits s n)) ++ (if x.sp.next = 0 then [] else patBits 16 (fld F.WP_SYNC_PAT_PAT n s))
        let s := setWop a { o with gated := true, heads := Tab.put o.heads n.val { x with sgate := true, split := false, lead := pre, hist := [] } } s
        .next (put F.WP_STAT_STATE n 3 (put F.WP_STAT_GATE n 1 s))

/-- SECTOR_WRITE_END (R107, R108, R115, R118, R121, R127, R128): the rest of the sector and its postamble are on media, and `gap` bit periods of the
preamble pattern up to the next sector; where that pattern starts is open. After the last sector the gate closes and the head goes to READ; before a
sector whose block was late the operation ends UNDERRUN. -/
def execSectorWriteEnd (n : Fin 64) (gap : Nat) (s : State) : Answer :=
  let a := armOf n
  match wop s a with
  | none => .next s
  | some o => match Tab.get? o.heads n.val, wbuf s n with
    | some x, b :: bs =>
      if !x.sgate || x.split || o.ending then .next s
      else
        let last := o.count ≤ x.done + 1
        let body := x.lead ++ (slotBits s n b.code).drop x.sp.next
        let fill := if last || x.late then [] else pattern (Config.openVal 108 [(gap : Int)] % 4).toNat gap
        let r := written (flag F.WP_CTL_PC_EN n s) (rd R.WP_PC n 0 s) x.hist (body ++ fill)
        let s := emit (.medium n b.psa (mediaBits (o.undef || x.undef) b.psa r.1)) (setWbuf n bs s)
        let s := setHeadWr a n { x with done := x.done + 1, sgate := !last, status := (if last then some 0 else none),
                                        sp := {}, lead := [], hist := r.2, undef := false } s
        if last then .next (sendFrame a (.mode (2 ^ (n.val % 16)) 0 0) (put F.WP_STAT_GATE n 0 s))
        else if x.late then .next (cutWrite a (fun h => if h = n.val then 2 else 1) s)
        else .next s
    | _, _ => .next s

/-- The fault of a write operation, recorded once for its worst class (R143). -/
def writeFault (a : Nat) (sts : List Nat) (psa : Nat) (s : State) : State :=
  let s := match sts.find? (fun x => x == 3 || x == 4 || x == 6) with
    | some st => report (140 + a) none 8 6 psa st s
    | none => s
  match sts.find? (fun x => x == 2 || x == 5 || x == 7) with
  | some st => report (144 + a) none 8 6 psa st s
  | none => s

/-- WRITE_OP_END (R122, R127, R128, R142, R143): every head has ended; results go to SPR, HEAT_RD follows. -/
def execWriteOpEnd (arm : Fin 4) (s : State) : Answer :=
  let a := arm.val
  match wop s a with
  | none => .next s
  | some o =>
    if !o.heads.all (fun e => e.2.status.isSome) then .next s
    else
      let hs := o.heads.map (·.1)
      let sts := o.heads.map (fun e => e.2.status.getD 0)
      let s := each o.heads (fun e s => headWriteEnd o e.1 e.2 s) s
      let s := rebind (dropWop a s)
      let s := each hs drainEnd s
      -- heads still in WRITE, with no change to READ on its way, go back to READ
      let inWr := upTo 16 (fun f m => if hs.contains (16 * a + f) && persOf s (16 * a + f) == 1 && !((Tab.get? (link s a).pend f).any (fun p => p.pers == 0)) then putBit m f true else m) 0
      let s := if inWr = 0 || !linkUp s a then s else sendFrame a (.mode inWr 0 0) s
      let s := heatRdSend a hs s
      let s := writeFault a sts (psaWord (hs.headD 0 % 16) o.zone o.track o.first) s
      .next (sprWriteEnd o.item o.gen (o.heads.map (fun e => (e.1, e.2.status.getD 0))) (learnWr a hs.length s))

end Sys2Proof.Machine
end

