-- ==== Sys2Proof/Machine/Yarder.lean ====
section
/-! DEFINITION. Commands of the yarder's channels: doorbells, descriptors taken, reset and resume (R426–R429, R432–R435). -/

namespace Sys2Proof.Machine

open Sys2Proof

/-- Bytes of an access by width code (R429). -/
def yrdWidth (mode : Nat) : Nat := [1, 2, 4, 8, 16, 64].getD (mode % 8) 0

/-- An internal end keeps the rules of R429 for a transfer of `n` bytes; a host end takes any address. -/
def yrdEndOk (mode a n : Nat) : Bool :=
  let w := yrdWidth mode
  mode.testBit 4 || (mode % 8 ≤ 5 && a % w == 0 && n % w == 0 && (!mode.testBit 3 || mode % 8 ≤ 3))

/-- The descriptor keeps the rules of R427, R429 and R432. -/
def yrdDescOk (s : State) (d : YDesc) : Bool :=
  1 ≤ d.len && d.len ≤ 16777216 && !(d.srcMode.testBit 4 && d.dstMode.testBit 4) &&
    yrdEndOk d.srcMode d.src d.len && yrdEndOk d.dstMode d.dst d.len &&
    (!(d.srcMode.testBit 4 || d.dstMode.testBit 4) || (fnr s d.fn).bmeSeen)

/-- A descriptor ends with a status that R432 counts and records. -/
def yrdFinish (n status : Nat) (s : State) : State :=
  match (ych s n).cur with
  | none => s
  | some d =>
    let st := status % 128
    let s := if st = 1 then report 60 none 6 0 d.addr status (count F.YRD_ERR_DESC 0 s)
      else if st = 2 then report 61 none 6 0 d.addr status (count F.YRD_ERR_BUS 0 s)
      else if st = 3 then report 62 none 6 0 d.addr status (count F.YRD_ERR_POISON 0 s)
      else if st = 4 then count F.YRD_ERR_HOST 0 s
      else s
    yrdEnd n status s

/-- Staging chunks that channel `n` may still take (R428). -/
def yrdRoom (s : State) (n : Nat) : Nat := min (fld1 F.YRD_CH_CTL_CHUNKS n s - fld F.YRD_CH_STAT_HELD n s) (fld F.YRD_STAT_CHUNK_FREE 0 s)

/-- The read engine may start the next descriptor beside the one in progress: the source of that one has been read and it only writes, and the next
one does not carry WAIT (R428). -/
def yrdAheadOk (s : State) (n : Nat) : Bool :=
  let x := ych s n
  x.cur.any (fun d => d.srcMode.testBit 4 && d.fail.isNone && !yrdReading d) && x.ahead.isNone &&
    !(le (sramRead s (yrdAt s n (fld F.YRD_CH_STAT_NEXT n s)) 1) 0 1).testBit 2

/-- Channel `n` waits for its next descriptor to be taken, and may take chunks. -/
def yrdReady (s : State) (n : Nat) : Bool :=
  flag F.YRD_CTL_ENABLE 0 s && flag F.YRD_CH_CTL_ENABLE n s && !flag F.YRD_CH_STAT_HALTED n s && (ych s n).look && yrdRoom s n != 0 &&
    ((ych s n).cur.isNone || yrdAheadOk s n)

/-- Another channel goes before channel `n`: one that waits with a higher priority, or with the same one and the earlier turn (R428). -/
def yrdBehind (s : State) (n : Nat) : Bool :=
  let p := fld F.YRD_CH_CTL_PRI n s
  let turn := fun (m : Nat) => (m + 31 - Tab.get s.lnd.yrdLast 31 p) % 32
  (List.range 32).any (fun m => m != n && yrdReady s m &&
    (p < fld F.YRD_CH_CTL_PRI m s || (fld F.YRD_CH_CTL_PRI m s == p && turn m < turn n)))

/-- YRD_DOORBELL (R426): the channel looks for descriptors. -/
def execYrdDoorbell (n : Fin 32) (s : State) : Answer := .next (setYch n.val { ych s n.val with look := true } s)

/-- YRD_DESC_START (R426–R429, R432, R434, R435): the next descriptor is taken when OWN reads 1. One of a function reset meanwhile ends ABORT, one
that breaks a rule ends DESC; the others hold chunks, and a host source starts reading. While the one before it only writes, it ends after that one
and reads already. -/
def execYrdDescStart (n : Fin 32) (s : State) : Answer :=
  let n := n.val
  let x := ych s n
  if !yrdReady s n || yrdBehind s n then .next s
  else
    let i := fld F.YRD_CH_STAT_NEXT n s
    let a := yrdAt s n i
    let b := sramRead s a 64
    if le b 0 1 % 2 = 0 then .next (setYch n { x with look := false } s)
    else
      let len := le b 8 4
      let k := min (max 1 (ceilDiv len 4096)) (yrdRoom s n)
      let m := le b 2 1
      let m' := le b 3 1
      let d : YDesc := ⟨a, i, (le b 0 1).testBit 1, m, m', le b 4 1 % 64, len, le b 16 8, le b 24 8, [], 0, none, k, 0, false⟩
      let gone := x.aborts.any (fun e => 0 < e.2 && yrdNames d e.1)
      let st := if gone then some 5 else if yrdDescOk s d then none else some 1
      let left := (x.aborts.map (fun e => (e.1, e.2 - 1))).filter (fun e => 0 < e.2)
      let x := if x.cur.isNone then { x with cur := some { d with fail := st }, aborts := left } else { x with ahead := some { d with fail := st }, aborts := left }
      let s := { s with lnd := { s.lnd with yrdLast := Tab.put s.lnd.yrdLast (fld F.YRD_CH_CTL_PRI n s) n } }
      let s := put F.YRD_CH_STAT_NEXT n ((i + 1) % yrdSize s n) (setYch n x s)
      let s := put F.YRD_STAT_CHUNK_FREE 0 (fld F.YRD_STAT_CHUNK_FREE 0 s - k) (put F.YRD_CH_STAT_HELD n (fld F.YRD_CH_STAT_HELD n s + k) (put F.YRD_CH_STAT_BUSY n 1 s))
      .next (match st with
        | some e => if x.ahead.isNone then yrdFinish n e s else s
        | none => yrdAsk n s)

/-- A write to YRD_CH_n_CTL; SIZE keeps its value while ENABLE is 1. -/
def ychWrite (n : Nat) (w : BusW) (s : State) : State :=
  let t := busWrite R.YRD_CH_CTL n 0 w s
  if flag F.YRD_CH_CTL_ENABLE n s then put F.YRD_CH_CTL_SIZE n (fld F.YRD_CH_CTL_SIZE n s) t else t

/-- A halted channel goes on. -/
def yrdUnhalt (n : Nat) (s : State) : State := putFBit F.YRD_HALT_HALTED 0 n false (put F.YRD_CH_STAT_HALTED n 0 s)

/-- YRD_CH_RESET (R433): the descriptor in progress ends ABORT, HALTED clears and NEXT becomes 0. -/
def execYrdChReset (n : Fin 32) (w : BusW) (s : State) : Answer :=
  let n := n.val
  let s := ychWrite n w s
  if !wrote1 31 w then .next s
  else
    let s := flushReqs (fun r => match r.kind with | .yrd m => m == n | _ => false) (yrdClose n 5 (yrdClose n 5 s))
    .next (put F.YRD_CH_STAT_NEXT n 0 (yrdUnhalt n (setYch n { ych s n with look := false, aborts := [] } s)))

/-- YRD_CH_RESUME (R433). -/
def execYrdChResume (n : Fin 32) (w : BusW) (s : State) : Answer :=
  let n := n.val
  let s := ychWrite n w s
  .next (if wrote1 30 w then yrdUnhalt n s else s)

end Sys2Proof.Machine
end

