-- ==== Sys2Proof/Machine/BusAct.lean ====
section
/-! DEFINITION. What a write to each internal register does beside its access codes: the rows a register's own bits stand for, and the conditions
under which the spec has a write ignored (R9, R565). -/

namespace Sys2Proof.Machine

open Sys2Proof

/-- Instance number `k` of `n`. -/
def fin (n : Nat) [NeZero n] (k : Nat) : Fin n := Fin.ofNat n k

/-- The effect of a row whose bit a write has named. -/
def act (f : State → Answer) (s : State) : State := stateOf (f s) s

/-- Field `f` keeps the value it had in `old` when `c` holds: the write to it is ignored. -/
def keepFld (c : Bool) (f : Field) (i : Nat) (old s : State) : State := if c then put f i (fld f i old) s else s

/-! ### SPR (chapters 01, 04, 08) -/

/-- Record `i` of the lost ring as log page C4h keeps it: NSID, SLBA, NLB and CAUSE; none for a namespace that is gone (R241, R275, R276). -/
def lostAt (s : State) (i : Nat) : Option (Nat × Nat × Nat × Nat) :=
  let b := hwBytes s (fld F.SPR_LOST_BASE_ADDR 0 s * 64 + 16 * (i % 4096)) 16
  let n := le b 8 2
  match nsr s n with
  | none => none
  | some r => if r.gen = le b 12 4 then some (n, le b 0 8 % 2 ^ 45 * lpu r, lpu r, le b 10 1) else none

/-- RD of the lost ring moves: drive firmware has drained the records before it into log page C4h (R275, R276). -/
def lostDrain (w : BusW) (s : State) : State :=
  let old := fld F.SPR_LOST_PTR_RD 0 s
  let s := busWrite R.SPR_LOST_PTR 0 0 w s
  let n := min ((fld F.SPR_LOST_PTR_RD 0 s + 4096 - old) % 4096) ((fld F.SPR_LOST_PTR_WR 0 s + 4096 - old) % 4096)
  let es := (List.range n).filterMap (fun i => lostAt s (old + i))
  if es.isEmpty then s
  else
    let fns := upTo 64 (fun f m => if f = 0 || es.any (fun e => attachedTo s e.1 f) then putBit m f true else m) 0
    let lost := sortBy (fun e => e.1 * 2 ^ 64 + e.2.1) (s.spr.lost ++ es)
    c4Change fns { s with spr := { s.spr with lost := lost, lostTotal := s.spr.lostTotal + (es.map (fun e => e.2.2.1)).foldl (· + ·) 0 } }

/-- Writes to SPR (R28, R29, R34–R38, R137, R254, R255, R269, R270, R275, R278, R280). -/
def busSpr (r : RegDef) (i j : Nat) (w : BusW) (s : State) : State :=
  let b := r.base
  let on := flag F.SPR_CTL_ENABLE 0 s
  if b = R.SPR_GEO_BASE.base then if flag F.SPR_GEO_CTL_BUSY 0 s then s else busWrite r i j w s
  else if b = R.SPR_GEO_CTL.base then if wrote1 0 w then act execGeoLoad s else s
  else if b = R.SPR_FENCE_HEAD.base then act (execSprFenceHeadWrite (fin 2 i) w) s
  else if b = R.SPR_FENCE_ARM.base then act (execSprFenceArmWrite w) s
  else if b = R.SPR_RFENCE.base then replan (mapChange (busWrite r i j w s))
  else if b = R.SPR_WGEN.base then if s.wops.isEmpty then stgStat (busWrite r i j w s) else s
  else if b = R.SPR_STG_HEAD.base then if on then s else stgStat (busWrite r i j w s)
  else if b = R.SPR_STG_TAIL.base then act (execStgTailWrite w) s
  else if b = R.SPR_STG_TGEN.base then stgStat (busWrite r i j w s)
  else if b = R.SPR_SALV_CTL.base then
    act (execSprSalvAbort w) (act (execSprSalvResume w) (act (execSprSalvPause w) (act (execSprSalvStart w) s)))
  else if b = R.SPR_LOST_PTR.base then lostDrain w s
  else if b = R.SPR_CRUISE_POS.base then if flag F.SPR_CRUISE_CTL_EN 0 s then s else busWrite r i j w s
  else if b = R.SPR_RING_BASE.base || b = R.SPR_RING_CTL.base then if on then s else busWrite r i j w s
  else if b = R.SPR_RING_DB.base then if w.be = 0 then s else { s with spr := { s.spr with look := true } }
  else if b = R.SPR_RELOC_BASE.base || b = R.SPR_RELOC_CNT.base then degradedUpdate (busWrite r i j w s)
  else busWrite r i j w s

/-! ### LANE (chapters 02, 03, 04) -/

/-- LANE_ALK_CTL_n: ENABLE and RETRAIN (R68, R71). -/
def busLink (a : Fin 4) (w : BusW) (s : State) : State :=
  if wrote0 0 w then act (execLinkDisable a w) s
  else if wrote1 0 w && !flag F.LANE_ALK_CTL_ENABLE a.val s then act (execLinkEnable a w) s
  else act (execLinkRetrain a w) s

/-- The registers that a read profile load writes (R102, R103). -/
def profRegs : List RegDef := [R.LANE_AFE, R.LANE_AGC, R.LANE_TGT_LO, R.LANE_TGT_MID, R.LANE_TGT_HI, R.LANE_DET, R.LANE_FIR_CTL, R.LANE_FIR]

/-- A write profile load of head `h` runs (R144). -/
def wpLoading (s : State) (h : Nat) : Bool := match wop s (armOf h) with
  | none => false
  | some o => !o.ending && o.heads.any (fun e => e.1 == h && !e.2.profOk)

/-- LANE_AGC_n: a write to GAIN is the value each operation starts from, and a read of it gives the gain in force (R78). -/
def busAgc (n : Nat) (w : BusW) (s : State) : State :=
  let g := fld F.LANE_AGC_GAIN n s
  let s := busWrite R.LANE_AGC n 0 w s
  let s := if fld F.LANE_STAT_STATE n s = 6 then put F.LANE_AGC_GAIN n g s else s
  if w.be.testBit 1 || w.be.testBit 2 then
    let g := merged R.LANE_AGC s.locked (put F.LANE_AGC_GAIN n (lane s n).startGain s |> rd R.LANE_AGC n 0) w
    setLane n { lane s n with startGain := bitsOf g 23 12 } s
  else s

/-- LANE_FIR_n_k: a tap written while a sector's adaptation runs holds an undefined value; with adaptation off it acts at once (R88, R89). -/
def busFir (n k : Nat) (w : BusW) (s : State) : State :=
  let s := busWrite R.LANE_FIR n k w s
  if (lane s n).phase == .idle then s
  else
    let hit := fun (f : Field) => (List.range 4).any (fun b => w.be.testBit b && f.lo ≤ 8 * b + 7 && 8 * b ≤ f.hi)
    let one := fun (f : Field) (i : Nat) (s : State) => if !hit f then s
      else
        let s := if fld F.LANE_FIR_CTL_ADAPT n s = 0 then s else (let r := takeFree s; put2 f n k r.1 r.2)
        let l := lane s n
        setLane n { l with chan := { l.chan with taps := l.chan.taps.set i (sext 12 (fld2 f n k s)) } } s
    one F.LANE_FIR_TAP_ODD (2 * k + 1) (one F.LANE_FIR_TAP_EVEN (2 * k) s)

/-- Writes to LANE (R48, R56, R68, R71, R78, R79, R81, R89, R103, R144). -/
def busLane (r : RegDef) (i j : Nat) (w : BusW) (s : State) : State :=
  let b := r.base
  if b = R.LANE_ALK_CTL.base then busLink (fin 4 i) w s
  else if b = R.LANE_ALK_SNS.base then act (execSenseStart (fin 4 i) w) s
  else if b = R.LANE_ALK_REG_CMD.base then act (execPreampRegAccess (fin 4 i) w) s
  else if b = R.LANE_SYN_CTL.base then act (execSynTune (fin 4 i) w) s
  else if b = R.LANE_CTL.base then
    let s := busWrite r i j w s
    if wrote1 3 w then act (execLaneCalRequest (fin 64 i)) s else s
  else if (profRegs.any (fun q => q.base == b)) && (lane s i).loading then s
  else if (b = R.WP_PC.base || b = R.WP_HEAT.base) && wpLoading s i then s
  else if b = R.LANE_AGC.base then busAgc i w s
  else if b = R.LANE_FIR.base then busFir i j w s
  else busWrite r i j w s

/-! ### DEC (chapter 05) -/

/-- The ladder is written while sectors are in it: their sequence of steps is open from here on (R166). -/
def ladderOpen (s : State) : State :=
  each (s.dec.ctxs.map (·.1)) (fun c s => match ctx s c with
    | none => s
    | some x => let (v, s) := takeFree s; setCtx c { x with step := v % 16 } s) s

/-- Writes to DEC (R166, R169, R172–R174). -/
def busDec (r : RegDef) (i j : Nat) (w : BusW) (s : State) : State :=
  let b := r.base
  if b = R.DEC_FENCE.base then act (execDecFenceWrite w) s
  else if b = R.DEC_BIST.base then act (execDecBistStart w) s
  else if b = R.DEC_PWR.base then limitSleep (busWrite r i j w s)
  else if b = R.DEC_LADDER.base then ladderOpen (busWrite r i j w s)
  else busWrite r i j w s

/-! ### SRV and SPM (chapters 06, 07) -/

/-- Writes to SRV (R185, R188). -/
def busSrv (r : RegDef) (i j : Nat) (w : BusW) (s : State) : State :=
  let b := r.base
  if b = R.SRV_CTL.base then
    let s := busWrite r i j w s
    let s := if wrote1 7 w then act (execCoefSwap (fin 4 i)) s else s
    let load := fun (s : State) => if wrote1 3 w then act (execSrvLoad (fin 4 i)) s else s
    let unload := fun (s : State) => if wrote1 4 w then act (execSrvUnload (fin 4 i)) s else s
    -- requests of one write are handled in the order of R188's table
    if mode s i = 1 then unload (load s) else load (unload s)
  else if b = R.SRV_TARGET.base then act (execSrvGo (fin 4 i) w) s
  else if b = R.SRV_SHK_CTL.base then
    let s := busWrite r i j w s
    if stuckHolds s then shockFall s else s
  else busWrite r i j w s

/-- Writes to SPM (R218–R220, R232): the phase voltages at START are the motor's, an open value here. -/
def busSpm (r : RegDef) (i j : Nat) (w : BusW) (s : State) : State :=
  if r.base = R.SPM_CTL.base then
    let s := busWrite r i j w s
    let s := if !wrote1 0 w then s
      else
        let (x, s) := takeFree s
        let (y, s) := takeFree s
        let (z, s) := takeFree s
        act (execSpmStart [⟨x, y, z⟩]) s
    if wrote1 1 w then act execSpmStop s else s
  else busWrite r i j w s

/-! ### GOV, DECK, CHK (chapters 10, 11) -/

/-- Writes to GOV (R385, R394, R395). -/
def busGov (r : RegDef) (i j : Nat) (w : BusW) (s : State) : State :=
  if r.base = R.GOV_BG.base then act (execGovBgWrite w) s
  else if r.base = R.GOV_BUDGET.base then beffNow (busWrite r i j w s)
  else busWrite r i j w s

/-- Writes to DECK and CHK (R321, R329, R331, R348, R361, R511). -/
def busDeck (r : RegDef) (i j : Nat) (w : BusW) (s : State) : State :=
  let b := r.base
  if b = R.DECK_CTL.base then act (execDeckAdminEn w) (act (execDeckPause w) (act (execDeckIoEn w) s))
  else if b = R.DECK_FN.base then act (execDeckFnWrite (fin 64 i) w) s
  else if b = R.CHK_PORT_CTL.base then act (execChkPortGo (fin 4 i) w) s
  else if b = R.CHK_PORT_REL.base then act (execChkPortRel (fin 4 i) w) s
  else busWrite r i j w s

/-! ### LND and YRD (chapter 12) -/

/-- LND_FFENCE_c: a write of the byte that holds OP performs it; one of the other bytes only writes its fields, from core c alone (R421). -/
def busFfence (m : Master) (c : Fin 4) (w : BusW) (s : State) : State :=
  if m ≠ .cp c then s
  else if !w.be.testBit 0 then busWrite R.LND_FFENCE c.val 0 w s
  else match w.data % 8 with
    | 1 => act (execFfenceClean c m w) s
    | 2 => act (execFfenceInval c m w) s
    | 3 => act (execFfenceCleanInval c m w) s
    | 4 => act (execFfenceDrain c m w []) s
    | 5 => act (execFfenceCleanAll c m w) s
    | 6 => act (execFfenceCleanInvalAll c m w) s
    | _ => busWrite R.LND_FFENCE c.val 0 w s

/-- Live contents stand in the protected region (R248, R256, R258, R268, R416): the write cache, an image, or the bitmap of an entry whose salvage has
not ended. -/
def protLive (s : State) : Bool :=
  !s.deck.cache.isEmpty || (Tab.vals s.spr.passes).any inPlace ||
    (List.range (relocCount s)).any (fun e => let x := relocEnt s e; x.flags.testBit 0 && !x.flags.testBit 1)

/-- Writes to LND (R407, R409, R414, R416, R421). -/
def busLnd (m : Master) (r : RegDef) (i j : Nat) (w : BusW) (s : State) : State :=
  let b := r.base
  if b = R.LND_CTL.base then act (execLndTrainStart w) s
  else if b = R.LND_FILL_BASE.base || b = R.LND_FILL_LEN.base then if flag F.LND_FILL_CTL_GO 0 s then s else busWrite r i j w s
  else if b = R.LND_FILL_CTL.base then act (execLndFillGo w) s
  else if b = R.LND_FFENCE.base then busFfence m (fin 4 i) w s
  else if b = R.LND_RMAP.base then act (execLndRmapClear (fin 32 i) w) (act (execLndRmapCopy (fin 32 i) w) s)
  else if b = R.LND_PROT.base then
    let t := busWrite r i j w s
    if protLive s && rd R.LND_PROT 0 0 t != rd R.LND_PROT 0 0 s then { t with cpr := { t.cpr with protMoved := true } } else t
  else busWrite r i j w s

/-- Writes to YRD (R426, R433). -/
def busYrd (r : RegDef) (i j : Nat) (w : BusW) (s : State) : State :=
  let b := r.base
  if b = R.YRD_CH_CTL.base then
    let s := ychWrite i w s
    let s := if wrote1 31 w then act (execYrdChReset (fin 32 i) w) s else s
    if wrote1 30 w then act (execYrdChResume (fin 32 i) w) s else s
  else if b = R.YRD_CH_BASE.base then if flag F.YRD_CH_CTL_ENABLE i s then s else busWrite r i j w s
  else if b = R.YRD_CH_DB.base then if w.be = 0 then s else act (execYrdDoorbell (fin 32 i)) s
  else busWrite r i j w s

/-! ### TLY, BLZ, EVT, FLT (chapters 13, 14) -/

/-- Master c of BLZ_POST: the control cores, then the Lyolo core (R450). -/
def postMine (m : Master) (c : Nat) : Bool := match m with
  | .cp k => k.val == c
  | .lyolo => c == 4
  | _ => false

/-- Writes to TLY and BLZ (R440, R450). -/
def busBlz (m : Master) (r : RegDef) (i j : Nat) (w : BusW) (s : State) : State :=
  let b := r.base
  if b = R.TLY_SCALE.base then act (execTlyScaleGo w) s
  else if b = R.BLZ_POST_CTL.base then act (execBlazePost m (fin 5 i) w) s
  else if b = R.BLZ_POST_DATA.base then if postMine m i then busWrite r i j w s else s
  else busWrite r i j w s

/-- The bits of word `k` that stand for sources never raised (R482). -/
def evReservedBits (k : Nat) : Nat := upTo 32 (fun b m => if evReserved (32 * k + b) then putBit m b true else m) 0

/-- Writes to EVT (R482, R483). -/
def busEvt (r : RegDef) (i j : Nat) (w : BusW) (s : State) : State :=
  let b := r.base
  if b = R.EVT_PEND.base then act (execEventPendClear (fin 16 i) w) s
  else if b = R.EVT_SWSET.base then act (execSoftwareEvent w) s
  else if b = R.EVT_EN.base then
    let t := busWrite r i j w s
    put2 F.EVT_EN_EN i j (fld2 F.EVT_EN_EN i j t &&& (2 ^ 32 - 1 - evReservedBits j)) t
  else busWrite r i j w s

/-- Writes to FLT (R460–R462, R469, R478): EN of checkers 0 to 31 is not written, nor anything of a reserved number. -/
def busFlt (r : RegDef) (i j : Nat) (w : BusW) (s : State) : State :=
  let b := r.base
  if b = R.FLT_ACK.base then act (execFltAckWrite w) s
  else if b = R.FLT_CLR.base then act (execFltClrWrite w) s
  else if b = R.FLT_FC3.base then act (execFltFc3Clear w) s
  else if b = R.FLT_FC3_ACK.base then act (execFltFc3AckWrite w) s
  else if b = R.FLT_INJ.base then act (execFltInjArm w) s
  else if b = R.FLT_CHK.base then
    if (chkInfo i).isNone then s
    else
      let t := keepFld (decide (i < 32)) F.FLT_CHK_EN i s (wr r i j (merged { R.FLT_CHK with w1c := 0 } s.locked (rd r i j s) w) s)
      act (execFltChkLatchClear (fin 256 i) w) t
  else busWrite r i j w s

/-! ### MGT and CPR (chapters 15, 16) -/

/-- Writes to MGT (R486, R491, R498, R503): a thermistor input with EN = 0 reads 0x8000. -/
def busMgt (r : RegDef) (i j : Nat) (w : BusW) (s : State) : State :=
  let b := r.base
  if b = R.MGT_WDT.base then act (execWdtKick w) s
  else if b = R.MGT_FUSE.base then act (execFuseBurn w) s
  else if b = R.MGT_ACT.base then act (execActDone w) (act (execActGo w) s)
  else if b = R.MGT_THM.base then
    let t := busWrite r i j w s
    if flag F.MGT_THM_EN i t then t else put F.MGT_THM_TEMP i 0x8000 t
  else busWrite r i j w s

/-- CPR_PD: the arm domains, STANDBY and WAKE (R528, R530). -/
def busPd (w : BusW) (s : State) : State :=
  let s := upTo 4 (fun a s => act (execArmDomainOff (fin 4 a) w) (act (execArmDomainOn (fin 4 a) w) s)) s
  act (execCprWake w) (act (execStandbyRequest w) s)

/-- Writes to CPR (R525, R528, R530, R535, R536, R540, R544, R545). -/
def busCpr (m : Master) (r : RegDef) (i j : Nat) (w : BusW) (s : State) : State :=
  let b := r.base
  if b = R.CPR_RETRACT.base then act (execCprRetractRel w) (act (execCprRetractSet w) s)
  else if b = R.CPR_PD.base then busPd w s
  else if b = R.CPR_RST.base then act (execLyoloReset m w) (act (execWarmReset w) s)
  else if b = R.CPR_DUMP_CTL.base then act (execDumpRestore w) (act (execDumpArm w) s)
  else if b = R.CPR_DUMP_BLK.base then
    keepFld (fld F.CPR_DUMP_CTL_STATE 0 s != 0) F.CPR_DUMP_BLK_VALID i s (busWrite r i j w s)
  else busWrite r i j w s

/-! ### All blocks -/

/-- A write of master `m` to instance (i, j) of internal register `r` outside CFG (R9, R10, R565). -/
def busAct (m : Master) (r : RegDef) (i j : Nat) (w : BusW) (s : State) : State :=
  match (r.base - 0x40000000) / 0x100000 with
  | 1 => busDeck r i j w s
  | 2 => busDeck r i j w s
  | 3 => busLnd m r i j w s
  | 4 => busYrd r i j w s
  | 5 => busLane r i j w s
  | 6 => busDec r i j w s
  | 7 => busSpr r i j w s
  | 8 => busSrv r i j w s
  | 9 => busSpm r i j w s
  | 10 => busGov r i j w s
  | 11 => busFlt r i j w s
  | 12 => busBlz m r i j w s
  | 13 => busBlz m r i j w s
  | 14 => busMgt r i j w s
  | 15 => busCpr m r i j w s
  | 17 => busEvt r i j w s
  | _ => busWrite r i j w s

/-! ### From addresses to registers (R565) -/

/-- The register that holds internal byte address `a`: its description, instance and byte. -/
def regAt (regs : List RegDef) (a : Nat) : Option (RegDef × Nat × Nat × Nat) :=
  regs.findSome? (fun r => (r.locate a).map (fun p => (r, p)))

/-- The bytes of a write gathered by register, in order of address. -/
def gather (regs : List RegDef) (a data : Nat) : Nat → Nat → List (RegDef × Nat × Nat × BusW) → List (RegDef × Nat × Nat × BusW)
  | 0, _, acc => acc.reverse
  | n + 1, k, acc =>
    let v := data / 256 ^ k % 256
    gather regs a data n (k + 1) (match regAt regs (a + k) with
      | none => acc
      | some (r, i, j, b) => match acc with
        | (q, i', j', w) :: t =>
          if q.base = r.base && i' = i && j' = j then (q, i', j', ⟨putBit w.be b true, w.data + v * 256 ^ b⟩) :: t
          else (r, i, j, ⟨2 ^ b, v * 256 ^ b⟩) :: acc
        | [] => [(r, i, j, ⟨2 ^ b, v * 256 ^ b⟩)])

/-- The registers that a write of `n` bytes at `a` reaches, each with the bytes it names. -/
def pieces (regs : List RegDef) (a n data : Nat) : List (RegDef × Nat × Nat × BusW) := gather regs a data n 0 []

end Sys2Proof.Machine
end

