-- ==== Sys2Proof/Machine/Txn.lean ====
section
/-! DEFINITION. Applying a setpoint record, setpoint transactions, and the end of boot (R500, R501, R509–R516). -/

namespace Sys2Proof.Machine

open Sys2Proof

/-! ### Items applied (R509, R514) -/

/-- The bits of the RC fields of a register. -/
def rcBits (r : RegDef) : Nat := r.rc.foldl (fun m f => m ||| ((2 ^ (f.1 + 1 - f.2) - 1) <<< f.2)) 0

/-- One register of an item: unmasked bits keep their value, masked bits take VALUE; what a masked RC, W1C, W1S or WO bit does is open
(R509). Scetus itself is the writer, so it is no core of R421 or R450. -/
def itemPart (r : RegDef) (i j be v m : Nat) (s : State) : State :=
  if be = 0 then s
  else
    let actn := r.w1c ||| r.w1s ||| r.wo
    let all := 2 ^ (8 * r.bytes) - 1
    let (z, s) := if m &&& (actn ||| rcBits r) = 0 then (0, s) else takeFree s
    let d := (rd r i j s &&& (all - (all &&& (m ||| actn)))) ||| (v &&& m &&& (all - (all &&& actn))) ||| (z &&& m &&& actn)
    let s := busAct .yarder r i j ⟨be, d⟩ s
    let c := m &&& rcBits r
    if c = 0 then s else wr r i j ((rd r i j s &&& (all - (all &&& c))) ||| (z &&& c)) s

/-- Registers an item reaches: instance, VALUE and MASK bits, the lower address first. -/
def itemRegs (x : RecItem) : List (RegDef × Nat × Nat × Nat × Nat) :=
  if x.ty = 3 then []
  else
    List.zipWith (fun (p q : RegDef × Nat × Nat × BusW) => (p.1, p.2.1, p.2.2.1, p.2.2.2.data, q.2.2.2.data))
      (pieces allRegs x.key (itemSize x) (itemValue x)) (pieces allRegs x.key (itemSize x) (itemMask x))

/-- The bytes of a mask that are not 0. -/
def maskBytes (n m : Nat) : Nat := upTo n (fun k b => if m / 256 ^ k % 256 = 0 then b else putBit b k true) 0

/-- A register item is applied (R509). -/
def itemApply (x : RecItem) (s : State) : State :=
  each (itemRegs x) (fun e s => itemPart e.1 e.2.1 e.2.2.1 (maskBytes e.1.bytes e.2.2.2.2) e.2.2.2.1 e.2.2.2.2 s) s

/-- Items applied in record order. -/
def itemsApply (l : List RecItem) (s : State) : State := each l itemApply s

/-- The item writes RWL bits (R514). -/
def itemRwl (x : RecItem) : Bool := (itemRegs x).any (fun e => e.2.2.2.2 &&& e.1.rwl != 0)

/-! ### The copies of the record (R510) -/

/-- The record of copy `c`, when it passes its checks. -/
def recCopy (s : State) (c : Nat) : Option (List Byte) := recordOf (norRead s (copyAddr c))

/-- The factory record in OTP fuses, when it passes its checks (log entry 3). -/
def recFactory : Option (List Byte) :=
  (recordOf (fun n => (List.range n).map (Config.partByte 0x190))).bind (fun b =>
    if b.length ≤ 2048 && (recItems b).all (fun x => x.ty == 1) then some b else none)

/-- A record becomes the one in use. -/
def recUse (b : List Byte) (s : State) : State := put F.CFG_STAT_GEN 0 (recGen b % 2 ^ 24) { s with cfg := { s.cfg with rec' := b } }

/-- CFG chooses a record at power-on and applies it (R510, R511). -/
def cfgBoot (s : State) : State :=
  let use := fun (b : List Byte) (s : State) => itemsApply (recItems b) (recUse b s)
  match recCopy s 0, recCopy s 1 with
  | some a, some b => if later32 (recGen b) (recGen a) then use b (put F.CFG_STAT_SELECTED 0 1 s) else use a (put F.CFG_STAT_SELECTED 0 0 s)
  | some a, none => use a (raiseEvent 136 (put F.CFG_STAT_B_BAD 0 1 (put F.CFG_STAT_SELECTED 0 0 s)))
  | none, some b => use b (raiseEvent 136 (put F.CFG_STAT_A_BAD 0 1 (put F.CFG_STAT_SELECTED 0 1 s)))
  | none, none =>
    let s := report 219 none 0 0 0 0 (raiseEvent 136 <| put F.CFG_STAT_A_BAD 0 1 (put F.CFG_STAT_B_BAD 0 1 (put F.CFG_STAT_DEFAULTED 0 1 s)))
    match recFactory with
    | some b => use b s
    | none => put F.CFG_STAT_FUSE_BAD 0 1 s

/-! ### The end of boot (R500, R501, R533, R545) -/

/-- The slot's segments are copied, it is shown, and a NEXT slot becomes ACTIVE; with no slot the recovery program starts. -/
def bootSlot (s : State) : State :=
  let k := s.mgt.boot
  if k = 0 then put F.MGT_STAT_RECOVERY 0 1 s
  else
    let s := segsLoad false (.nor (slotAddr k)) (segsLoad true (.nor (slotAddr k)) s)
    let s := put F.MGT_STAT_BOOT_SLOT 0 k s
    if s.mgt.next then selWrite k 0 s else s

/-- What follows once the boot ROM has loaded a slot and its configuration: the cores are released, the watchdog starts unless the boot is a
recovery, a waiting link starts to train, and a dump that was lost is recorded (R486, R500, R535, R545, R568). -/
def bootRelease (s : State) : State :=
  let s := { s with cpr := { s.cpr with stage := 3, cpHeld := false, lyHeld := false }, mgt := { s.mgt with next := false } }
  let s := if flag F.MGT_STAT_RECOVERY 0 s then s else put F.MGT_WDT_EN 0 1 { s with mgt := { s.mgt with wdt := s.time } }
  let s := if !s.cpr.perst && fld F.HIF_LINK_STAT_LSTATE 0 s = 0 then put F.HIF_LINK_STAT_LSTATE 0 1 s else s
  if s.cpr.dumpLost && mgtRuns s then
    blzEnter 1 (Config.openVal 545 [0]).toNat (Config.openVal 545 [1]).toNat { s with cpr := { s.cpr with dumpLost := false } }
  else s

/-- Clocks that break the ratio rules leave the fabric's memory and the landing with open contents (R520, log entry 63). -/
def ratioCheck (s : State) : State :=
  if ratiosOk s then s else { s with sram := [], sramEra := s.sramEra + 1, land := [], landEra := s.landEra + 1 }

/-- BOOT_COMPLETE (R500 steps 4 and 5, R501, R510, R511, R520, R533, R545). -/
def execBootComplete (s : State) : Answer :=
  .next (if s.cpr.stage ≠ 2 || flag F.CPR_PL_LOSS 0 s then s else bootRelease (ratioCheck (cfgBoot (bootSlot s))))

/-! ### Who asks (R512) -/

/-- The transaction's state: 0 IDLE, 1 OPEN, 2 COMMITTING. -/
def txnState (s : State) : Nat := fld F.CFG_TXN_STAT_STATE 0 s

/-- A request for action `a`: by the Setpoint Transaction command in a slot, or by a write of CFG_TXN_CTL; a GO written while GO reads 1
asks for nothing. -/
def txnAsk (slot : Option (Fin 4096)) (w : BusW) (a : Nat) (s : State) : Option (Option Cmd) × State := match slot with
  | some k => ((admAct s k.val 0xC0 a).map some, s)
  | none =>
    let t := busWrite R.CFG_TXN_CTL 0 0 w s
    (if wrote1 31 w && !flag F.CFG_TXN_CTL_GO 0 s && fld F.CFG_TXN_CTL_ACT 0 t = a then some none else none, t)

/-- A request ends: the command with a status and DW0, a firmware request with GO back at 0. -/
def txnEnd (o : Option Cmd) (st dw0 : Nat) (s : State) : State := match o with
  | some x => admEnd x st dw0 s
  | none => put F.CFG_TXN_CTL_GO 0 0 s

/-- What a command that names another TXID ends with (R512). -/
def txnOther (x : Cmd) (s : State) : State := admEnd x (if s.cfg.timedOut.contains (cdw x 11) then stTxnTimeout else stField) 0 s

/-- A request of the open transaction: one of another TXID, of the other owner, or while COMMITTING is turned away (R512). -/
def txnOn (o : Option Cmd) (f : State → State) (s : State) : State :=
  let own := flag F.CFG_TXN_STAT_OWNER 0 s
  match o with
  | some x =>
    if txnState s = 0 || cdw x 11 ≠ fld F.CFG_TXN_ID_TXID 0 s then txnOther x s
    else if own || txnState s = 2 then admEnd x stTxnConflict 0 s
    else f s
  | none => if txnState s ≠ 1 || !own then txnEnd none 0 0 s else f s

/-! ### Actions (R512, R513) -/

/-- TXN_BEGIN (R512). -/
def execTxnBegin (slot : Option (Fin 4096)) (w : BusW) (s : State) : Answer :=
  .next (match txnAsk slot w 0 s with
    | (none, s) => s
    | (some o, s) =>
      if txnState s ≠ 0 then txnEnd o stTxnConflict 0 s
      else
        let id := (fld F.CFG_TXN_ID_TXID 0 s + 1) % 2 ^ 32
        let s := put F.CFG_TXN_ID_TXID 0 id (put F.CFG_TXN_STAT_OWNER 0 o.isNone.toNat (put F.CFG_TXN_STAT_STATE 0 1 s))
        txnEnd o 0 id { s with cfg := { s.cfg with stage := [], timer := s.time, timedOut := s.cfg.timedOut.filter (· != id) } })

/-- The bytes a STAGE names: none when its length or place is bad. -/
def stageBytes (o : Option Cmd) (s : State) : Option (List Byte) := match o with
  | some x => if 65536 < cdw x 12 then none else some (x.data.take (cdw x 12))
  | none =>
    let a := fld F.CFG_TXN_BUF_VALUE 0 s
    let n := fld F.CFG_TXN_LEN_VALUE 0 s
    if a % 8 = 0 && n ≤ 65536 && inSram a n then some (sramRead s a n) else none

/-- The items are appended, or that STAGE's items are discarded; the timer restarts. -/
def stageItems (o : Option Cmd) (s : State) : State :=
  let s := { s with cfg := { s.cfg with timer := s.time } }
  match stageBytes o s with
  | none => txnEnd o stField 0 s
  | some b =>
    if (itemsOf b).isNone || recMax < s.cfg.stage.length + b.length then txnEnd o stField 0 s
    else txnEnd o 0 0 { s with cfg := { s.cfg with stage := s.cfg.stage ++ b } }

/-- TXN_STAGE (R508, R512): a command's data must all have arrived. -/
def execTxnStage (slot : Option (Fin 4096)) (w : BusW) (s : State) : Answer :=
  .next (match txnAsk slot w 1 s with
    | (none, s) => s
    | (some o, s) => if (o.map (fun x => !inReady x && cdw x 12 ≤ 65536)).getD false then s else txnOn o (stageItems o) s)

/-- TXN_ROLLBACK (R512). -/
def execTxnRollback (slot : Option (Fin 4096)) (w : BusW) (s : State) : Answer :=
  .next (match txnAsk slot w 3 s with
    | (none, s) => s
    | (some o, s) => txnOn o (fun s => txnEnd o 0 0 (txnIdle s)) s)

/-- TXN_QUERY (R512): of the open or the last transaction; DW0 is CFG_TXN_STAT without OWNER. -/
def execTxnQuery (slot : Option (Fin 4096)) (w : BusW) (s : State) : Answer :=
  .next (match txnAsk slot w 4 s with
    | (none, s) => s
    | (some none, s) => txnEnd none 0 0 s
    | (some (some x), s) =>
      if cdw x 11 ≠ fld F.CFG_TXN_ID_TXID 0 s || s.cfg.timedOut.contains (cdw x 11) then txnOther x s else admEnd x 0 (putBits (rd R.CFG_TXN_STAT 0 0 s) 4 4 0) s)

/-- A commit ends: the command that waits for it, or GO; then an activation that waited goes on (R505). -/
def commitEnd (num : Option Nat) (err item st : Nat) (s : State) : State :=
  let s := put F.CFG_TXN_STAT_ERR 0 err (put F.CFG_TXN_STAT_ITEM 0 item (put F.CFG_TXN_STAT_STATE 0 0 s))
  let s := { s with cfg := { s.cfg with stage := [], merged := [], num := none, stored := false, arms := [], blob := false } }
  let s := match num with
    | none => put F.CFG_TXN_CTL_GO 0 0 s
    | some n => match (Tab.vals s.deck.cmds).find? (fun x => isAdmin x && opc x == 0xC0 && x.num == n && x.phase == .active) with
      | some x => admEnd x st 0 s
      | none => s
  actWaiting s

/-- The copy a commit writes: the one not in use, or A when both are bad (R513 step 3). -/
def copyTarget (s : State) : Nat :=
  if flag F.CFG_STAT_A_BAD 0 s && flag F.CFG_STAT_B_BAD 0 s then 0 else 1 - fld F.CFG_STAT_SELECTED 0 s

/-- The staged items. -/
def staged (s : State) : List RecItem := (itemsOf s.cfg.stage).getD []

/-- The first item of a list that fails its check, with ERR and its index (R513 step 2). -/
def itemsErr : List RecItem → Nat → Nat × Nat
  | [], _ => (0, 0)
  | x :: t, i => if itemErr x ≠ 0 then (itemErr x, i) else itemsErr t (i + 1)

/-- Steps 1 and 2 of a commit, and the start of step 3: the first erase makes the copy fail its check until the record is whole (R513, R516). -/
def commitStart (o : Option Cmd) (s : State) : State :=
  let l := mergeItems (recItems s.cfg.rec' ++ staged s)
  let b := recordBytes ((recGen s.cfg.rec' + 1) % 2 ^ 32) l
  let e := if recMax < b.length then (3, 0) else itemsErr l 0
  let num := o.map (·.num)
  let s := match o with
    | some x => setCmd { x with phase := .active } s
    | none => put F.CFG_TXN_CTL_GO 0 1 s
  if e.1 ≠ 0 then commitEnd num e.1 (e.2 % 65536) stField s
  else norErase (copyAddr (copyTarget s)) 4096 (put F.CFG_TXN_STAT_STATE 0 2 { s with cfg := { s.cfg with merged := b, num := num, stored := false } })

/-- TXN_COMMIT (R512, R513 steps 1 and 2, R515). -/
def execTxnCommit (slot : Option (Fin 4096)) (w : BusW) (s : State) : Answer :=
  .next (match txnAsk slot w 2 s with
    | (none, s) => s
    | (some o, s) => txnOn o (commitStart o) s)

/-- Step 6: the new copy is in use, and COMMIT completes. -/
def commitDone (s : State) : State :=
  let c := copyTarget s
  let s := put (if c = 0 then F.CFG_STAT_A_BAD else F.CFG_STAT_B_BAD) 0 0 (put F.CFG_STAT_DEFAULTED 0 0 (recUse s.cfg.merged s))
  commitEnd s.cfg.num 0 0 0 (put F.CFG_STAT_SELECTED 0 c s)

/-- Step 5, once every arm has had its quiet point: a changed blob raises EV138 and waits for drive firmware. -/
def commitBlobs (s : State) : State :=
  if !s.cfg.arms.isEmpty then s else if s.cfg.blob then raiseEvent 138 s else commitDone s

/-- Step 4 for items of no arm: they are applied at once, and the arms that the others name are held (R513, R514). -/
def commitApply (s : State) : State :=
  let l := staged s
  let reboot := s.locked && l.any itemRwl
  let blob := l.any (fun x => x.ty == 3 && recBlob s x.key != x.body)
  let arms := (List.range 4).filter (fun a => l.any (fun x => (itemArms x).contains a))
  let s := itemsApply (l.filter (fun x => (itemArms x).isEmpty)) (if reboot then put F.CFG_TXN_STAT_REBOOT 0 1 s else s)
  commitBlobs { s with cfg := { s.cfg with stored := true, arms := arms, blob := blob } }

/-- COMMIT_STORED (R454, R488, R513 steps 3 and 4, R515, R516): the record is in NOR and read back, or a program failed and the copy's contents
are open. -/
def execCommitStored (ok : Bool) (s : State) : Answer :=
  if txnState s ≠ 2 || s.cfg.stored then .next s
  else
    let a := copyAddr (copyTarget s)
    let b := s.cfg.merged
    let s := norErase a (ceilDiv b.length 4096 * 4096) s
    if !ok then
      let junk := (List.range b.length).map (fun k => byte (Config.openVal 515 [(s.time : Int), (k : Int)]).toNat)
      .next (commitEnd s.cfg.num 5 0 stField (norProgram a junk s))
    else
      let s := norProgram a b s
      .next (if flag F.FLT_STAT_SAFE 0 s then commitEnd s.cfg.num 0 0 0 s else commitApply s)

/-- No operation runs on arm `a`. -/
def armQuiet (s : State) (a : Nat) : Bool :=
  (Tab.get? s.sched.running a).isNone && (wop s a).isNone && (armHeads a).all (fun n => (lane s n).op.isNone)

/-- COMMIT_ARM_QUIET (R513 step 4): at the quiet point of a held arm its items are applied and dispatch resumes. -/
def execCommitArmQuiet (arm' : Fin 4) (s : State) : Answer :=
  let a := arm'.val
  .next (if txnState s ≠ 2 || !cfgHeld s a || !armQuiet s a then s
    else
      let s := itemsApply ((staged s).filter (fun x => (itemArms x).contains a)) s
      commitBlobs { s with cfg := { s.cfg with arms := s.cfg.arms.filter (· != a) } })

/-- CFG_BLOB_DONE (R513 steps 5 and 6). -/
def execCfgBlobDone (w : BusW) (s : State) : Answer :=
  .next (if wrote1 1 w && txnState s = 2 && s.cfg.stored && s.cfg.arms.isEmpty && s.cfg.blob then commitDone s else s)

/-- TXN_ROLLBACK_TIMEOUT (R512): CFG_TXN_TMO ms have passed since BEGIN or the last STAGE. -/
def execTxnRollbackTimeout (s : State) : Answer :=
  .next (if txnState s ≠ 1 || s.time < s.cfg.timer + 1000000 * max 1000 (fld F.CFG_TXN_TMO_MS 0 s) then s
    else raiseEvent 137 (txnIdle { s with cfg := { s.cfg with timedOut := fld F.CFG_TXN_ID_TXID 0 s :: s.cfg.timedOut } }))

end Sys2Proof.Machine
end

