-- ==== Sys2Proof/Machine/Registers.lean ====
section
/-! DEFINITION. Reads and writes of registers and of the internal map by every master: what a register reads as, the side effects of a read, the
access rules of R565, and the host's configuration space, BAR0 and BAR4 (R6, R9–R11, R291–R294, R485, R565). -/

namespace Sys2Proof.Machine

open Sys2Proof

/-! ### What a register reads as -/

/-- Field `f` of a value. -/
def lay (f : Field) (x v : Nat) : Nat := putBits v f.hi f.lo (min x (2 ^ (f.hi + 1 - f.lo) - 1))

/-- A mask of the numbers below `n` for which `p` holds. -/
def maskOf (n : Nat) (p : Nat → Bool) : Nat := upTo n (fun k m => if p k then putBit m k true else m) 0

/-- MSI-X vectors assigned to function `f` (R289). -/
def vecsOf (s : State) (f : Nat) : Nat := if f = 0 then 65 else (fnr s f).nv

/-- Pool units of the CMB not assigned (R326). -/
def cmbFree (s : State) : Nat :=
  64 - min 64 (fld F.DECK_CMB_PF_UNITS 0 s) - ((List.range 63).map (fun i => (fnr s (i + 1)).cmbUnits)).foldl (· + ·) 0

/-- CMBSZ of a function with CMBMSC.CRE = 1 (R327): SZU 1, SZ its units, SQS, LISTS and WDS. -/
def cmbsz (s : State) (f : Nat) : Nat :=
  let u := (share s f).2 / 65536
  if u = 0 then 0 else u * 4096 + 0x100 + 0x15

/-- The value of an internal register whose fields follow other state. -/
def viewInt (r : RegDef) (i v : Nat) (s : State) : Nat :=
  let b := r.base
  if b = R.CPR_TIME.base then s.time
  else if b = R.SRV_THETA.base then lay F.SRV_THETA_THETA (thetaNow s).1 (lay F.SRV_THETA_REV (thetaNow s).2 v)
  else if b = R.WP_STAT.base then
    lay F.WP_STAT_CLK_OK (clkOk s (armOf i)).toNat (lay F.WP_STAT_SHOCK_OK (shockOk s).toNat (lay F.WP_STAT_WPERM (wperm s i).toNat v))
  else if b = R.DEC_STAT.base then
    lay F.DEC_STAT_QWAIT (qwait s) (lay F.DEC_STAT_FREE (128 - s.dec.slots.length) (lay F.DEC_STAT_CTX_FREE (32 - s.dec.ctxs.length)
      (lay F.DEC_STAT_CAP (nextCap s) v)))
  else if b = R.DEC_AWAKE.base then maskOf 18 (fun e => (eng s e).awake)
  else if b = R.DECK_STAT.base then
    lay F.DECK_STAT_SLOT_FREE (4096 - s.deck.cmds.length) (lay F.DECK_STAT_CHK_FREE (2048 - s.deck.chk.length) v)
  else if b = R.DECK_CMB.base then lay F.DECK_CMB_FREE (cmbFree s) v
  else if b = R.DECK_ORPH_CNT.base then s.deck.orphans.length
  else if b = R.DECK_FNUSE.base then
    lay F.DECK_FNUSE_CHOKERS (fnChk s i) (lay F.DECK_FNUSE_SLOTS ((s.deck.cmds.filter (fun e => e.2.fn == i)).length) v)
  else if b = R.BLZ_STAT.base then lay F.BLZ_STAT_QUEUE s.blz.queue.length v
  else if b = R.BLZ_NEXT.base then
    if !s.blz.scanned then v
    else if s.blz.perm < 256 then lay F.BLZ_NEXT_PERM 1 (lay F.BLZ_NEXT_SLOT s.blz.perm v) else lay F.BLZ_NEXT_PERM 0 (lay F.BLZ_NEXT_SLOT s.blz.circ v)
  else if b = R.GOV_POWER.base then lay F.GOV_POWER_HELD_MW (min 65535 (heldMw s)) v
  else if b = R.GOV_FN.base then
    lay F.GOV_FN_URG ((Tab.vals s.sched.items).any (fun x => x.urgent && x.cls == 0 && x.st != .results && x.fn == i)).toNat v
  else if b = R.LND_MRG.base then lay F.LND_MRG_INUSE s.lnd.mrg.length v
  else if b = R.EVT_CLAIM.base then match claimable s i with
    | none => 0
    | some n => 2 ^ 31 + n
  else if b = R.MGT_STAT.base then lay F.MGT_STAT_REVOKED s.fuse.revoked (lay F.MGT_STAT_SVN s.fuse.svn v)
  else v

/-- The value of a host-visible register whose fields follow other state. -/
def viewHost (r : RegDef) (i v : Nat) (s : State) : Nat :=
  let b := r.base
  if b = R.VFW_ID.base then lay F.VFW_ID_NVEC (vecsOf s i) v
  else if b = R.VFW_TIME.base then s.time
  else if b = R.VFW_STAT.base then
    lay F.VFW_STAT_STALL (fnr s i).stall.isSome.toNat (lay F.VFW_STAT_D3 (fld F.CFG_PSTATE i s == 3).toNat v)
  else if b = R.CFG_CMD.base then if i = 0 then putBit v 19 s.deck.intx else v
  else if b = R.CFG_SUBSYS.base then rd R.HIF_ID 0 0 s
  else if b = R.CFG_DEVCTL.base then putBit v 21 ((pendingReqs s).any (fun t => t / 16384 == i))
  else if b = R.CFG_DSNLO.base then natOf ((List.range 4).map (Config.partByte 286))
  else if b = R.CFG_DSNHI.base then natOf ((List.range 4).map (fun k => Config.partByte 286 (4 + k)))
  else if b = R.CFG_LINKCAP.base then putBits (putBits v 3 0 (capSpeed s)) 9 4 (capWidth s)
  else if b = R.CFG_LINKCAP2.base then putBits v 7 1 (2 ^ capSpeed s - 1)
  else if b = R.CFG_LINKCTL.base then
    if i = 0 then putBits (putBits v 19 16 (fld F.HIF_LINK_STAT_SPEED 0 s)) 25 20 (fld F.HIF_LINK_STAT_WIDTH 0 s) else v
  else if b = R.NVME_INTMC.base then fld F.INTMS i s
  else if b = R.NVME_CMBLOC.base then if flag F.CMBMSC_CRE i s then 2 else 0
  else if b = R.NVME_CMBSZ.base then if flag F.CMBMSC_CRE i s then cmbsz s i else 0
  else if b = R.NVME_CMBSTS.base then (flag F.CMBMSC_CMSE i s && !cmbOn s i).toNat
  else v

/-- What instance (i, j) of register `r` reads as. -/
def view (r : RegDef) (i j : Nat) (s : State) : Nat :=
  if r.base < 2 ^ 32 then viewInt r i (rd r i j s) s else viewHost r i (rd r i j s) s

/-! ### Reads (R9, R469, R483, R565) -/

/-- The bytes that hold bits [hi:lo] are all named. -/
def namesAll (be hi lo : Nat) : Bool := (List.range (hi / 8 + 1 - lo / 8)).all (fun k => be.testBit (lo / 8 + k))

/-- The side effects of a read that names the bytes `be`: RC fields named whole are cleared, a claim is made, and a checker's register has been
read. -/
def readEffect (r : RegDef) (i j be : Nat) (s : State) : State :=
  let s := each r.rc (fun f s => if namesAll be f.1 f.2 then wr r i j (putBits (rd r i j s) f.1 f.2 0) s else s) s
  if r.base = R.EVT_CLAIM.base && be % 16 = 15 then match claimable s i with
    | none => s
    | some n => putFBit F.EVT_PEND_PEND (n / 32) (n % 32) false s
  else if r.base = R.FLT_CHK.base && be ≠ 0 then { s with flt := { s.flt with read := Tab.put s.flt.read i 1 } }
  else s

/-- A read of some bytes of one register: those bytes at their places, and its side effects. -/
def busRead (r : RegDef) (i j be : Nat) (s : State) : Nat × State := (view r i j s &&& beMask r.bytes be, readEffect r i j be s)

/-- The registers of a read, the lower address first: the value at `a` and the side effects. -/
def readParts (a : Nat) : List (RegDef × Nat × Nat × BusW) → State → Nat × State
  | [], s => (0, s)
  | e :: t, s =>
    let p := busRead e.1 e.2.1 e.2.2.1 e.2.2.2.be s
    let q := readParts a t p.2
    let x := e.1.addr e.2.1 e.2.2.1
    ((if a ≤ x then p.1 * 256 ^ (x - a) else p.1 / 256 ^ (a - x)) + q.1, q.2)

/-- `n` bytes of the read-only windows of BLZ and CFG at internal address `a`: the NOR mirror and the record in use (R447, R509). -/
def windowRead (s : State) (a n : Nat) : Nat :=
  natOf ((List.range n).map (fun k =>
    let x := a + k
    if 0x40D40000 ≤ x && x < 0x40D64000 then Tab.get s.mirror 0xFF (x - 0x40D40000)
    else if 0x41080000 ≤ x && x < 0x410C0000 then (s.cfg.rec'[x - 0x41080000]?).getD 0
    else 0))

/-- An access that a block window accepts (R565). -/
def busAligned (a n : Nat) : Bool := [1, 2, 4, 8].contains n && a % n == 0

/-- The address lies in a block register window (R10). -/
def inBlock (a : Nat) : Bool := 0x40000000 ≤ a && a < 0x41200000

/-- An aligned read of a block window. -/
def blockRead (a n : Nat) (s : State) : Nat × State :=
  let r := readParts a (pieces allRegs a n 0) s
  (r.1 + windowRead s a n, r.2)

/-! ### Writes to every block -/

/-- A write of CFG_TXN_CTL performs the action it names. -/
def busTxn (w : BusW) (s : State) : State :=
  match fld F.CFG_TXN_CTL_ACT 0 (busWrite R.CFG_TXN_CTL 0 0 w s) with
  | 0 => act (execTxnBegin none w) s
  | 1 => act (execTxnStage none w) s
  | 2 => act (execTxnCommit none w) s
  | 3 => act (execTxnRollback none w) s
  | 4 => act (execTxnQuery none w) s
  | _ => busWrite R.CFG_TXN_CTL 0 0 w s

/-- A write of master `m` to any internal register. -/
def busAll (m : Master) (r : RegDef) (i j : Nat) (w : BusW) (s : State) : State :=
  if r.base = R.CFG_CTL.base then act (execCfgBlobDone w) (act (execCfgLock w) s)
  else if r.base = R.CFG_TXN_CTL.base then busTxn w s
  else busAct m r i j w s

/-- An aligned write of a block window. -/
def blockWrite (m : Master) (a n data : Nat) (s : State) : State :=
  each (pieces allRegs a n data) (fun e s => busAll m e.1 e.2.1 e.2.2.1 e.2.2.2 s) s

/-! ### The internal map (R10, R485) -/

/-- A write of `n` bytes to shared SRAM by a master: a control core's stays in its L1-D. -/
def sramStore (m : Master) (a : Nat) (bs : List Byte) (s : State) : State := match m with
  | .cp c => cpStore c.val a bs [] s
  | _ => relocSeen s (sramWrite a bs s)

/-- A write at internal address `a` below the landing. -/
def intWrite (m : Master) (a n data : Nat) (s : State) : State :=
  if inBlock a then if busAligned a n then blockWrite m a n data s else busError (masterCode m) 2 a s
  else if inSram a n then sramStore m a (bytesOf n data) s
  else if inCmb a n then cmbStore a (clean (bytesOf n data)) s
  else busError (masterCode m) 2 a s

/-- The core whose fence register a read names while an operation of it is not complete: the read waits for it (R421). -/
def fenceWaits (s : State) (a n : Nat) : Option (Fin 4) :=
  (pieces allRegs a n 0).findSome? (fun e => if e.1.base == R.LND_FFENCE.base && fenceBusy s (fin 4 e.2.1) then some (fin 4 e.2.1) else none)

/-- A read at internal address `a` below the landing. -/
def intRead (m : Master) (a n : Nat) (s : State) : State :=
  if inBlock a then
    if !busAligned a n then busError (masterCode m) 1 a s
    else match fenceWaits s a n with
      | some c => hold (.fenceRd c a n) s
      | none => let r := blockRead a n s; emit (.value a r.1) r.2
  else if inSram a n then match m with
    | .cp c => match cpLoad c.val (lineParts a n) [] s with
      | (some bs, s) => emit (.data a (clean bs)) s
      | (none, s) => s
    | _ => emit (.data a (clean (sramRead s a n))) s
  else if inCmb a n then emit (.data a (cmbBytes s a n)) s
  else busError (masterCode m) 1 a s

/-- Lyolo's own SRAM: its offset there (R485). -/
def lyoSram (a n : Nat) : Option Nat := if 0x10000000 ≤ a && a + n ≤ 0x10080000 then some (a - 0x10000000) else none

/-- A write by the Lyolo core at an address of its own map; its boot ROM ignores writes. -/
def lyoWrite (a n data : Nat) (s : State) : State :=
  if a + n ≤ 0x10000 then s
  else match lyoSram a n with
    | some o => { s with lyo := putBytes s.lyo o (bytesOf n data) }
    | none =>
      if 0x80000000 ≤ a then act (execLandingWrite .lyolo a (bytesOf n data) false [] []) s
      else if 0x20000000 ≤ a then intWrite .lyolo a n data s
      else busError 5 2 a s

/-- A read by the Lyolo core; what its boot ROM holds is the part's. -/
def lyoRead (a n : Nat) (s : State) : State :=
  if a + n ≤ 0x10000 then emit (.data a (clean ((List.range n).map (fun k => Config.partByte 0x191 (a + k))))) s
  else match lyoSram a n with
    | some o => emit (.data a (clean ((List.range n).map (fun k => (Tab.get? s.lyo (o + k)).getD (Config.unwritten 3 0 (o + k)))))) s
    | none =>
      if 0x80000000 ≤ a then act (execLandingRead .lyolo a n [] []) s
      else if 0x20000000 ≤ a then intRead .lyolo a n s
      else busError 5 1 a s

/-! ### The host (R11, R288, R291–R294, R301, R308–R314) -/

/-- Command: Bus Master Enable and Interrupt Disable (R303, R305, R311). -/
def busCmd (f : Fin 64) (w : BusW) (s : State) : State :=
  let s := busWrite R.CFG_CMD f.val 0 w s
  let s := if wrote1 2 w && !flag F.CFG_BME f.val s then act (execBmeSet f) s else s
  let s := if wrote0 2 w && flag F.CFG_BME f.val s then act (execBmeClear f) s else s
  if w.be.testBit 1 && f.val = 0 then act (execIntModeChange f (flag F.MSIX_EN 0 s) (flag F.MSI_EN 0 s) (w.data.testBit 10)) s else s

/-- PowerState (R307, R316). -/
def busPower (f : Fin 64) (w : BusW) (s : State) : State :=
  let p := fld F.CFG_PSTATE f.val s
  if !w.be.testBit 0 then s
  else if w.data % 4 = 3 && p ≠ 3 then act (execPowerStateD3hot f) s
  else if w.data % 4 = 0 && p ≠ 0 then act (execPowerStateD0 f) s
  else s

/-- MSI-X Message Control: MSI-X Enable and Function Mask (R308, R309, R312). -/
def busMsix (f : Fin 64) (w : BusW) (s : State) : State :=
  let was := flag F.MSIX_FMASK f.val s
  let s := busWrite R.CFG_MSIXCTL f.val 0 w s
  if !w.be.testBit 3 then s
  else
    let s := act (execIntModeChange f (w.data.testBit 31) (flag F.MSI_EN 0 s) (flag F.CFG_INTDIS 0 s)) s
    if was && !flag F.MSIX_FMASK f.val s then act (execMsixUnmask f none) s else s

/-- NumVFs: above 63, or with VF Enable 1, the write is ignored (R288). -/
def busNumVfs (w : BusW) (s : State) : State :=
  let t := busWrite R.CFG_NUMVFS 0 0 w s
  if flag F.VF_EN 0 s || 63 < fld F.NUM_VFS 0 t then s else t

/-- VF BAR2: bits below its size read 0 (R290). -/
def busVfBar2 (w : BusW) (s : State) : State :=
  let t := busWrite R.CFG_VFBAR2 0 0 w s
  let v := rd R.CFG_VFBAR2 0 0 t
  wr R.CFG_VFBAR2 0 0 (v / bar2Size s 1 * bar2Size s 1 + v % 16) t

/-- An entry of the MSI-X table within its size (R289, R293, R309). -/
def busMsixEntry (r : RegDef) (f : Fin 64) (j : Nat) (w : BusW) (s : State) : State :=
  if fld F.MSIX_SIZE f.val s < j then s
  else if r.base = R.MSIX_CTL.base && wrote0 0 w && fld2 F.MSIX_MASK f.val j s = 1 then act (execMsixUnmask f (some (fin 2048 j))) s
  else busWrite r f.val j w s

/-- A write of the host to a register of function `f`. -/
def busHost (r : RegDef) (f : Fin 64) (j : Nat) (w : BusW) (s : State) : State :=
  let b := r.base
  if b = R.CFG_CMD.base then busCmd f w s
  else if b = R.CFG_PMCSR.base then busPower f w (busWrite r f.val j w s)
  else if b = R.CFG_MSICTL.base then
    let s := busWrite r f.val j w s
    if w.be.testBit 2 then act (execIntModeChange f (flag F.MSIX_EN 0 s) (w.data.testBit 16) (flag F.CFG_INTDIS 0 s)) s else s
  else if b = R.CFG_MSIMASK.base then flushMsi (busWrite r f.val j w s)
  else if b = R.CFG_MSIXCTL.base then busMsix f w s
  else if b = R.CFG_DEVCTL.base then
    let s := busWrite r f.val j w s
    if wrote1 15 w then act (execFlr f) s else s
  else if b = R.CFG_DEVCTL2.base || b = R.CFG_DEV3CTL.base then tagGo (busWrite r f.val j w s)
  else if b = R.CFG_SRIOVCTL.base then act (execVfDisable w) (act (execVfEnable w) s)
  else if b = R.CFG_NUMVFS.base then busNumVfs w s
  else if b = R.CFG_VFBAR2.base then busVfBar2 w s
  else if b = R.NVME_CC.base then act (execCcShutdown f w) (act (execCcDisable f w) (act (execCcEnable f w) s))
  else if b = R.NVME_INTMS.base then act (execIntmsWrite f w) s
  else if b = R.NVME_INTMC.base then act (execIntmcWrite f w) s
  else if b = R.MSIX_ADDR.base || b = R.MSIX_DATA.base || b = R.MSIX_CTL.base then busMsixEntry r f j w s
  else busWrite r f.val j w s

/-- A doorbell of BAR0 at offset `o` (R291). -/
def doorbell (f : Fin 64) (o v : Nat) (s : State) : State :=
  let q := fin 65 ((o - 0x1000) / 8)
  if o / 4 % 2 = 0 then act (execSqTailDoorbell f q (BitVec.ofNat 32 v)) s else act (execCqHeadDoorbell f q (BitVec.ofNat 32 v)) s

/-- The space of the host's keys that holds `a`: 1 configuration, 2 BAR0, 3 BAR4 of function `f`; 0 none (log entry 4). -/
def hostSpace (f a : Nat) : Nat :=
  if a / 0x1000 = 0x100000 + f then 1 else if a / 0x10000 = 0x20000 + f then 2 else if a / 0x10000 = 0x30000 + f then 3 else 0

/-- Registers that the host reaches in BAR0, BAR4 and configuration space. -/
def hostAll : List RegDef := hostRegs ++ [R.VFW_ID, R.VFW_STAT, R.VFW_TIME]

/-- A write by the host to function `f` (R6, R291, R293, R294, R301). -/
def hostWrite (f : Fin 64) (a n data : Nat) (ep : Bool) (s : State) : State :=
  if deaf s then s else
  let s := inbound s
  let go := fun (s : State) => each (pieces hostRegs a n data) (fun e s => busHost e.1 f e.2.2.1 e.2.2.2 s) s
  match hostSpace f.val a with
  | 1 =>
    if !cfgReady s f.val then cfgWait f.val s
    else if ep then toHost (.ur f.val) (poisIn f.val (cfgHdr s f.val a) s)
    else if [1, 2, 4].contains n && a % n == 0 then go s else s
  | 2 =>
    let at' := bar0 s f.val + a % 0x10000
    if !memEnabled s f.val then barDrop f.val true at' n s
    else if ep then poisIn f.val (memHdr s at' n true true) s
    else if !([4, 8].contains n && a % n == 0) then s
    else
      let o := a % 0x10000
      if o < 0x1000 then go s
      else if o < 0x1208 then
        upTo (n / 4) (fun k s => if o + 4 * k < 0x1208 then doorbell f (o + 4 * k) (data / 2 ^ (32 * k) % 2 ^ 32) s else s) s
      else s
  | 3 =>
    let at' := bar4 s f.val + a % 0x10000
    if !memEnabled s f.val then barDrop f.val true at' n s
    else if ep then poisIn f.val (memHdr s at' n true true) s
    else if [4, 8].contains n && a % n == 0 && barOpen s f.val then go s else s
  | _ => s

/-- A read by the host from function `f` (R291, R293, R294). -/
def hostRead (f : Fin 64) (a n : Nat) (s : State) : State :=
  if deaf s then s else
  let s := inbound s
  let go := fun (s : State) => let r := readParts a (pieces hostAll a n 0) s; emit (.value a r.1) r.2
  match hostSpace f.val a with
  | 1 => if cfgReady s f.val then (if [1, 2, 4].contains n && a % n == 0 then go s else s) else cfgWait f.val s
  | 2 => if !memEnabled s f.val then barDrop f.val false (bar0 s f.val + a % 0x10000) n s else if [4, 8].contains n && a % n == 0 then go s else emit (.value a 0) s
  | 3 =>
    if !memEnabled s f.val then barDrop f.val false (bar4 s f.val + a % 0x10000) n s
    else if [4, 8].contains n && a % n == 0 && barOpen s f.val && (0x8000 ≤ a % 0x10000 || a % 0x10000 / 16 ≤ fld F.MSIX_SIZE f.val s) then go s
    else emit (.value a 0) s
  | _ => s

/-! ### The commands -/

/-- REGISTER_WRITE (R6, R9–R11, R485, R565): a write of `size` bytes; `ep`: a poisoned TLP of the host. Bits of a register that have a row of
their own act as that row does. -/
def execRegisterWrite (m : Master) (addr size data : Nat) (ep : Bool) (s : State) : Answer :=
  .next (match m with
    | .host f => hostWrite f addr size data ep s
    | .lyolo => lyoWrite addr size data s
    | _ => if landBase ≤ addr then act (execLandingWrite m addr (bytesOf size data) false [] []) s else intWrite m addr size data s)

/-- READ_CLEAR (R9–R11, R74, R469, R485, R565): a read of `size` bytes; RC fields named whole are cleared. -/
def execReadClear (m : Master) (addr size : Nat) (s : State) : Answer :=
  .next (match m with
    | .host f => hostRead f addr size s
    | .lyolo => lyoRead addr size s
    | _ => if landBase ≤ addr then act (execLandingRead m addr size [] []) s else intRead m addr size s)

end Sys2Proof.Machine
end

