-- ==== Sys2Proof/Machine/YrdMove.lean ====
section
/-! DEFINITION. The move of a yarder descriptor and its end (R426–R435). -/

namespace Sys2Proof.Machine

open Sys2Proof

/-- An access of the yarder at internal address `a` is accepted (R10, R406, R565). -/
def yrdReach (s : State) (a w : Nat) : Bool :=
  if inBlock a then busAligned a w else inSram a w || inCmb a w || (landBase ≤ a && landOk s a w)

/-- One access of the read engine: `w` bytes with their poison marks. A landing granule is read once, with the outcome given (R411, R431). -/
def yrdGet (a w : Nat) (e : Option Ecc) (s : State) : List (Byte × Bool) × State :=
  if inBlock a then let r := blockRead a w s; (clean (bytesOf w r.1), r.2)
  else if inSram a w then (clean (sramRead s a w), s)
  else if inCmb a w then (cmbBytes s a w, s)
  else
    let s := match e with
      | some e => (eccRead 6 (a / 64) e s).2
      | none => s
    (landMarks s a w, s)

/-- The read engine makes `k` accesses from `a`, `step` bytes apart: the bytes read up to a bus error, whether one met it, the landing granule
last read, and the outcomes of those still to come; `g` and `es` are those before. -/
def yrdReads (w step : Nat) : Nat → Nat → Nat → List Ecc → State → (List (Byte × Bool) × Bool × Nat × List Ecc) × State
  | 0, _, g, es, s => (([], false, g, es), s)
  | k + 1, a, g, es, s =>
    if !yrdReach s a w then (([], true, g, es), busError 6 1 a s)
    else
      let fresh := landBase ≤ a && a / 64 != g
      let p := yrdGet a w (if fresh then some (es.headD .ok) else none) s
      let q := yrdReads w step k (a + step) (if landBase ≤ a then a / 64 else g) (if fresh then es.tail else es) p.2
      ((p.1 ++ q.1.1, q.1.2), q.2)

/-- One access of the write engine (R412, R417, R431). -/
def yrdPut (a : Nat) (bs : List (Byte × Bool)) (s : State) : State :=
  let d := bs.map (·.1)
  if inBlock a then blockWrite .yarder a d.length (natOf d) s
  else if inSram a d.length then relocSeen s (sramWrite a d s)
  else if inCmb a d.length then cmbStore a bs s
  else landPut a d (bs.any (·.2)) [] s

/-- The write engine makes accesses of `w` bytes while that many are left: the bytes written up to a bus error, and whether one met it. -/
def yrdWrites (w step : Nat) : Nat → Nat → List (Byte × Bool) → State → (Nat × Bool) × State
  | 0, _, _, s => ((0, false), s)
  | k + 1, a, bs, s =>
    if bs.length < w then ((0, false), s)
    else if !yrdReach s a w then ((0, true), busError 6 2 a s)
    else
      let q := yrdWrites w step k (a + step) (bs.drop w) (yrdPut a (bs.take w) s)
      ((w + q.1.1, q.1.2), q.2)

/-- Bytes between accesses of an end: none with FIXED = 1 (R430). -/
def yrdStep (mode : Nat) : Nat := if mode.testBit 3 then 0 else yrdWidth mode

/-- Address of an end of a descriptor once its first `d.done` bytes have moved. -/
def yrdAddr (mode a : Nat) (d : YDesc) : Nat := if mode.testBit 3 && !mode.testBit 4 then a else a + d.done

/-- What the read engine fills the descriptor's chunks with: the bytes that host requests returned, or those its accesses read. -/
def yrdSource (d : YDesc) (g : Nat) (ecc : List Ecc) (s : State) : (List (Byte × Bool) × Bool × Nat × List Ecc) × State :=
  if d.srcMode.testBit 4 then ((d.data, false, g, ecc), s)
  else yrdReads (yrdWidth d.srcMode) (yrdStep d.srcMode) (min (d.len - d.done) (4096 * d.chunks) / yrdWidth d.srcMode) (yrdAddr d.srcMode d.src d) g ecc s

/-- The write engine drains bytes to a descriptor's destination. -/
def yrdDest (d : YDesc) (bs : List (Byte × Bool)) (s : State) : (Nat × Bool) × State :=
  if d.dstMode.testBit 4 then ((bs.length, false), sendData d.fn (yrdAddr d.dstMode d.dst d) false bs s)
  else yrdWrites (yrdWidth d.dstMode) (yrdStep d.dstMode) (bs.length / yrdWidth d.dstMode) (yrdAddr d.dstMode d.dst d) bs s

/-- The chunks of a descriptor are filled and drained once: the descriptor after it, with what the next reads start from. -/
def yrdFill (d : YDesc) (g : Nat) (ecc : List Ecc) (s : State) : (YDesc × Nat × List Ecc) × State :=
  let r := yrdSource d g ecc s
  let w := yrdDest d r.1.1 r.2
  let fail := if d.fail.isNone && (r.1.2.1 || w.1.2) then some 2 else d.fail
  let d := { d with done := d.done + w.1.1, data := r.1.1.drop w.1.1, pois := d.pois || (r.1.1.take w.1.1).any (·.2), fail := fail }
  ((d, r.1.2.2.1, r.1.2.2.2), w.2)

/-- The chunks of a descriptor with two internal ends, or a host destination, are filled and drained until all bytes have moved or one access failed
(R428). -/
def yrdFills : Nat → YDesc → Nat → List Ecc → State → YDesc × State
  | 0, d, _, _, s => (d, s)
  | k + 1, d, g, es, s =>
    if d.len ≤ d.done || d.fail.isSome then (d, s)
    else
      let r := yrdFill d g es s
      yrdFills k r.1.1 r.1.2.1 r.1.2.2 r.2

/-- Shared SRAM and block windows hold no poison marks (R431). -/
def yrdNoMark (d : YDesc) : Bool := !d.dstMode.testBit 4 && (inBlock d.dst || inSram d.dst 1)

/-- A descriptor moves what its chunks bring and ends, or asks for more of its host source; drained chunks that it needs no more return (log
entry 45). -/
def yrdMove (n : Nat) (d : YDesc) (ecc : List Ecc) (s : State) : State :=
  let r : YDesc × State := if d.fail.any (· != 4) then (d, s)
    else if d.srcMode.testBit 4 then ((yrdFill d (2 ^ 64) ecc s).1.1, (yrdFill d (2 ^ 64) ecc s).2)
    else yrdFills (ceilDiv d.len (4096 * d.chunks)) d (2 ^ 64) ecc s
  let d := r.1
  let keep := min d.chunks (max 1 (ceilDiv (d.len - d.done) 4096))
  let s := chunksBack n (d.chunks - keep) (setYch n { ych r.2 n with cur := some { d with chunks := keep } } r.2)
  if d.fail.isSome || d.len ≤ d.done then
    yrdFinish n (d.fail.getD (if d.pois && yrdNoMark d then 3 else 0) + if d.pois then 128 else 0) s
  else yrdAsk n s

/-- An end of the descriptor lies where the landing holds accesses (R408, R414). -/
def yrdHeld (s : State) (d : YDesc) : Bool :=
  (!d.srcMode.testBit 4 && landBase ≤ d.src && landBusy s d.src d.len) || (!d.dstMode.testBit 4 && landBase ≤ d.dst && landBusy s d.dst d.len)

/-- YRD_DESC_END (R426, R428–R435): the descriptor in progress moves its bytes and ends, once all its data has come or something has failed. While its
function may issue no request it holds with STALL. -/
def execYrdDescEnd (n : Fin 32) (ecc : List Ecc) (s : State) : Answer :=
  let n := n.val
  match (ych s n).cur with
  | none => .next s
  | some d =>
    .next (
      if d.fail.any (· != 4) then yrdMove n d ecc s
      else if yrdHeld s d then s
      else if d.dstMode.testBit 4 && !canIssue s d.fn then put F.YRD_CH_STAT_STALL n 1 s
      else yrdMove n d ecc s)

end Sys2Proof.Machine
end

