-- ==== Sys2Proof/Machine/Dispatch.lean ====
section
/-! DEFINITION. Which meaning each command has: one arm per row of spec/opcode_table.json. -/

namespace Sys2Proof.Machine

open Sys2Proof

/-- The effect of a command on everything but the queue of commands that wait. -/
def exec (i : Instr) (s : State) : Host.Outcome State Fault Refusal :=
  match i with
  | .registerWrite m addr size data ep => Sys2Proof.Machine.execRegisterWrite m addr size data ep s
  | .readClear m addr size => Sys2Proof.Machine.execReadClear m addr size s
  | .geoLoad => Sys2Proof.Machine.execGeoLoad s
  | .geoLoadDone => Sys2Proof.Machine.execGeoLoadDone s
  | .sprFenceHeadWrite k w => Sys2Proof.Machine.execSprFenceHeadWrite k w s
  | .sprFenceArmWrite w => Sys2Proof.Machine.execSprFenceArmWrite w s
  | .exec arm => Sys2Proof.Machine.execExec arm s
  | .statReceived arm f => Sys2Proof.Machine.execStatReceived arm f s
  | .nakReceived arm ackSeq crc => Sys2Proof.Machine.execNakReceived arm ackSeq crc s
  | .rdataReceived arm seq addr data crc => Sys2Proof.Machine.execRdataReceived arm seq addr data crc s
  | .ackTimeout arm => Sys2Proof.Machine.execAckTimeout arm s
  | .uplinkCodeErrors arm n => Sys2Proof.Machine.execUplinkCodeErrors arm n s
  | .statTimeout arm => Sys2Proof.Machine.execStatTimeout arm s
  | .wkillRelease arm => Sys2Proof.Machine.execWkillRelease arm s
  | .senseStart arm w => Sys2Proof.Machine.execSenseStart arm w s
  | .senseDone arm gaps => Sys2Proof.Machine.execSenseDone arm gaps s
  | .preampRegAccess arm w => Sys2Proof.Machine.execPreampRegAccess arm w s
  | .linkEnable arm w => Sys2Proof.Machine.execLinkEnable arm w s
  | .linkDisable arm w => Sys2Proof.Machine.execLinkDisable arm w s
  | .linkRetrain arm w => Sys2Proof.Machine.execLinkRetrain arm w s
  | .discUplinkIdle arm => Sys2Proof.Machine.execDiscUplinkIdle arm s
  | .discAbsent arm => Sys2Proof.Machine.execDiscAbsent arm s
  | .autoRetrain arm => Sys2Proof.Machine.execAutoRetrain arm s
  | .laneWake lane => Sys2Proof.Machine.execLaneWake lane s
  | .laneWakeDone lane => Sys2Proof.Machine.execLaneWakeDone lane s
  | .laneReadyHold lane => Sys2Proof.Machine.execLaneReadyHold lane s
  | .profileLoadDone lane => Sys2Proof.Machine.execProfileLoadDone lane s
  | .readGate lane => Sys2Proof.Machine.execReadGate lane s
  | .syncFound lane bits => Sys2Proof.Machine.execSyncFound lane bits s
  | .sectorReadEnd lane r => Sys2Proof.Machine.execSectorReadEnd lane r s
  | .servoGateOpen head pos acks => Sys2Proof.Machine.execServoGateOpen head pos acks s
  | .servoGateClose head len => Sys2Proof.Machine.execServoGateClose head len s
  | .resyncFound lane decs => Sys2Proof.Machine.execResyncFound lane decs s
  | .laneCalRequest lane => Sys2Proof.Machine.execLaneCalRequest lane s
  | .laneCalDone lane subs => Sys2Proof.Machine.execLaneCalDone lane subs s
  | .synTune arm w => Sys2Proof.Machine.execSynTune arm w s
  | .synLocked arm => Sys2Proof.Machine.execSynLocked arm s
  | .synLockLost arm => Sys2Proof.Machine.execSynLockLost arm s
  | .synWaitTimeout arm => Sys2Proof.Machine.execSynWaitTimeout arm s
  | .wpProfileLoadDone arm => Sys2Proof.Machine.execWpProfileLoadDone arm s
  | .wpArmedHold lane => Sys2Proof.Machine.execWpArmedHold lane s
  | .sectorFeedDone lane ecc => Sys2Proof.Machine.execSectorFeedDone lane ecc s
  | .blockLate lane => Sys2Proof.Machine.execBlockLate lane s
  | .heatSend arm => Sys2Proof.Machine.execHeatSend arm s
  | .heatHold arm => Sys2Proof.Machine.execHeatHold arm s
  | .writeGateOpen lane lead => Sys2Proof.Machine.execWriteGateOpen lane lead s
  | .sectorWriteEnd lane gap => Sys2Proof.Machine.execSectorWriteEnd lane gap s
  | .writeOpEnd arm => Sys2Proof.Machine.execWriteOpEnd arm s
  | .slotGrant => Sys2Proof.Machine.execSlotGrant s
  | .fastDecodeStart slot => Sys2Proof.Machine.execFastDecodeStart slot s
  | .engineWakeDone eng => Sys2Proof.Machine.execEngineWakeDone eng s
  | .fastDecodeEnd eng ecc => Sys2Proof.Machine.execFastDecodeEnd eng ecc s
  | .contextCopyDone slot ecc => Sys2Proof.Machine.execContextCopyDone slot ecc s
  | .recoveryJobStart => Sys2Proof.Machine.execRecoveryJobStart s
  | .recoveryJobEnd eng => Sys2Proof.Machine.execRecoveryJobEnd eng s
  | .ladderTmax ctx => Sys2Proof.Machine.execLadderTmax ctx s
  | .engineSleep eng => Sys2Proof.Machine.execEngineSleep eng s
  | .decFenceWrite w => Sys2Proof.Machine.execDecFenceWrite w s
  | .engineParityError eng => Sys2Proof.Machine.execEngineParityError eng s
  | .decBistStart w => Sys2Proof.Machine.execDecBistStart w s
  | .decBistDone pass => Sys2Proof.Machine.execDecBistDone pass s
  | .servoWedge head x => Sys2Proof.Machine.execServoWedge head x s
  | .servoWedgeMiss head c => Sys2Proof.Machine.execServoWedgeMiss head c s
  | .servoGroupClose arm isense => Sys2Proof.Machine.execServoGroupClose arm isense s
  | .srvLoad arm => Sys2Proof.Machine.execSrvLoad arm s
  | .srvUnload arm => Sys2Proof.Machine.execSrvUnload arm s
  | .srvGo arm w => Sys2Proof.Machine.execSrvGo arm w s
  | .coefSwap arm => Sys2Proof.Machine.execCoefSwap arm s
  | .loadAcquired arm => Sys2Proof.Machine.execLoadAcquired arm s
  | .loadTimeout arm => Sys2Proof.Machine.execLoadTimeout arm s
  | .unloadPhaseEnd arm => Sys2Proof.Machine.execUnloadPhaseEnd arm s
  | .parkTimeout arm => Sys2Proof.Machine.execParkTimeout arm s
  | .followEntry arm => Sys2Proof.Machine.execFollowEntry arm s
  | .settleTimeout arm => Sys2Proof.Machine.execSettleTimeout arm s
  | .armMissTimeout arm => Sys2Proof.Machine.execArmMissTimeout arm s
  | .headLost head => Sys2Proof.Machine.execHeadLost head s
  | .maSatExpire head => Sys2Proof.Machine.execMaSatExpire head s
  | .wpermRearm head => Sys2Proof.Machine.execWpermRearm head s
  | .vcmMismatch arm => Sys2Proof.Machine.execVcmMismatch arm s
  | .shockSample ch x => Sys2Proof.Machine.execShockSample ch x s
  | .shockRearm => Sys2Proof.Machine.execShockRearm s
  | .shockInitWindow => Sys2Proof.Machine.execShockInitWindow s
  | .shockStuck ch => Sys2Proof.Machine.execShockStuck ch s
  | .spmStart vs => Sys2Proof.Machine.execSpmStart vs s
  | .spmStop => Sys2Proof.Machine.execSpmStop s
  | .spmPwmPeriod adc => Sys2Proof.Machine.execSpmPwmPeriod adc s
  | .spmSpeedLoop => Sys2Proof.Machine.execSpmSpeedLoop s
  | .spmLossOfSync => Sys2Proof.Machine.execSpmLossOfSync s
  | .spmOffsetCalDone adc => Sys2Proof.Machine.execSpmOffsetCalDone adc s
  | .spmStictionEnd => Sys2Proof.Machine.execSpmStictionEnd s
  | .spmAlignEnd => Sys2Proof.Machine.execSpmAlignEnd s
  | .spmRampWrap => Sys2Proof.Machine.execSpmRampWrap s
  | .spmHoTimeout => Sys2Proof.Machine.execSpmHoTimeout s
  | .spmRotorStill vs => Sys2Proof.Machine.execSpmRotorStill vs s
  | .spmRetryTimeout => Sys2Proof.Machine.execSpmRetryTimeout s
  | .spmCatchLock xs => Sys2Proof.Machine.execSpmCatchLock xs s
  | .spmStageFault => Sys2Proof.Machine.execSpmStageFault s
  | .spmAutoRestart => Sys2Proof.Machine.execSpmAutoRestart s
  | .spmAtSpeed => Sys2Proof.Machine.execSpmAtSpeed s
  | .descReadUnit => Sys2Proof.Machine.execDescReadUnit s
  | .descReadStg => Sys2Proof.Machine.execDescReadStg s
  | .descWriteStg ecc => Sys2Proof.Machine.execDescWriteStg ecc s
  | .descWriteStripe ecc => Sys2Proof.Machine.execDescWriteStripe ecc s
  | .stagingWaitExpire => Sys2Proof.Machine.execStagingWaitExpire s
  | .stagingRoom => Sys2Proof.Machine.execStagingRoom s
  | .stgTailWrite w => Sys2Proof.Machine.execStgTailWrite w s
  | .stripePassEnd => Sys2Proof.Machine.execStripePassEnd s
  | .stripeRebuild => Sys2Proof.Machine.execStripeRebuild s
  | .sprSalvStart w => Sys2Proof.Machine.execSprSalvStart w s
  | .sprSalvPause w => Sys2Proof.Machine.execSprSalvPause w s
  | .sprSalvResume w => Sys2Proof.Machine.execSprSalvResume w s
  | .sprSalvAbort w => Sys2Proof.Machine.execSprSalvAbort w s
  | .salvageBatch => Sys2Proof.Machine.execSalvageBatch s
  | .salvageStripeJudge => Sys2Proof.Machine.execSalvageStripeJudge s
  | .lostRingRoom => Sys2Proof.Machine.execLostRingRoom s
  | .cruiseVisit => Sys2Proof.Machine.execCruiseVisit s
  | .cruiseClassify => Sys2Proof.Machine.execCruiseClassify s
  | .cruiseRewrite => Sys2Proof.Machine.execCruiseRewrite s
  | .perstAssert => Sys2Proof.Machine.execPerstAssert s
  | .perstDeassert => Sys2Proof.Machine.execPerstDeassert s
  | .linkResetEvent kind => Sys2Proof.Machine.execLinkResetEvent kind s
  | .linkTrained speed width flit => Sys2Proof.Machine.execLinkTrained speed width flit s
  | .aspmL1Entry => Sys2Proof.Machine.execAspmL1Entry s
  | .sqTailDoorbell f q v => Sys2Proof.Machine.execSqTailDoorbell f q v s
  | .cqHeadDoorbell f q v => Sys2Proof.Machine.execCqHeadDoorbell f q v s
  | .ccEnable f w => Sys2Proof.Machine.execCcEnable f w s
  | .ccDisable f w => Sys2Proof.Machine.execCcDisable f w s
  | .ccShutdown f w => Sys2Proof.Machine.execCcShutdown f w s
  | .intmsWrite f w => Sys2Proof.Machine.execIntmsWrite f w s
  | .intmcWrite f w => Sys2Proof.Machine.execIntmcWrite f w s
  | .cmbWrite f off bs ep => Sys2Proof.Machine.execCmbWrite f off bs ep s
  | .cmbRead f off n => Sys2Proof.Machine.execCmbRead f off n s
  | .flr f => Sys2Proof.Machine.execFlr f s
  | .flrReady f => Sys2Proof.Machine.execFlrReady f s
  | .bmeClear f => Sys2Proof.Machine.execBmeClear f s
  | .bmeSet f => Sys2Proof.Machine.execBmeSet f s
  | .bmeStallExpire f => Sys2Proof.Machine.execBmeStallExpire f s
  | .vfEnable w => Sys2Proof.Machine.execVfEnable w s
  | .vfDisable w => Sys2Proof.Machine.execVfDisable w s
  | .powerStateD3hot f => Sys2Proof.Machine.execPowerStateD3hot f s
  | .powerStateD0 f => Sys2Proof.Machine.execPowerStateD0 f s
  | .msixUnmask f v => Sys2Proof.Machine.execMsixUnmask f v s
  | .intModeChange f msix msi intxOff => Sys2Proof.Machine.execIntModeChange f msix msi intxOff s
  | .completionReceived f tag bs ep ur => Sys2Proof.Machine.execCompletionReceived f tag bs ep ur s
  | .completionTimeout f tag => Sys2Proof.Machine.execCompletionTimeout f tag s
  | .sqEntryFetched f q => Sys2Proof.Machine.execSqEntryFetched f q s
  | .admitEntry => Sys2Proof.Machine.execAdmitEntry s
  | .chokerEntryTake => Sys2Proof.Machine.execChokerEntryTake s
  | .chokerGrant => Sys2Proof.Machine.execChokerGrant s
  | .deckIoEn w => Sys2Proof.Machine.execDeckIoEn w s
  | .deckPause w => Sys2Proof.Machine.execDeckPause w s
  | .deckAdminEn w => Sys2Proof.Machine.execDeckAdminEn w s
  | .deckFnWrite f w => Sys2Proof.Machine.execDeckFnWrite f w s
  | .chkPortGo c w => Sys2Proof.Machine.execChkPortGo c w s
  | .chkPortRel c w => Sys2Proof.Machine.execChkPortRel c w s
  | .createIoSq slot => Sys2Proof.Machine.execCreateIoSq slot s
  | .createIoCq slot => Sys2Proof.Machine.execCreateIoCq slot s
  | .deleteIoSq slot => Sys2Proof.Machine.execDeleteIoSq slot s
  | .deleteIoCq slot => Sys2Proof.Machine.execDeleteIoCq slot s
  | .getLogPage slot => Sys2Proof.Machine.execGetLogPage slot s
  | .identify slot => Sys2Proof.Machine.execIdentify slot s
  | .abort slot => Sys2Proof.Machine.execAbort slot s
  | .setFeatures slot => Sys2Proof.Machine.execSetFeatures slot s
  | .getFeatures slot => Sys2Proof.Machine.execGetFeatures slot s
  | .asyncEventRequest slot => Sys2Proof.Machine.execAsyncEventRequest slot s
  | .nsCreate slot addr exts => Sys2Proof.Machine.execNsCreate slot addr exts s
  | .nsDelete slot => Sys2Proof.Machine.execNsDelete slot s
  | .nsAttach slot => Sys2Proof.Machine.execNsAttach slot s
  | .nsDetach slot => Sys2Proof.Machine.execNsDetach slot s
  | .formatNvm slot => Sys2Proof.Machine.execFormatNvm slot s
  | .fwImageDownload slot => Sys2Proof.Machine.execFwImageDownload slot s
  | .fwCommitStore slot => Sys2Proof.Machine.execFwCommitStore slot s
  | .fwCommitStoreNext slot => Sys2Proof.Machine.execFwCommitStoreNext slot s
  | .fwCommitSlotNext slot => Sys2Proof.Machine.execFwCommitSlotNext slot s
  | .fwCommitActivate slot => Sys2Proof.Machine.execFwCommitActivate slot s
  | .vmSecondaryOffline slot => Sys2Proof.Machine.execVmSecondaryOffline slot s
  | .vmSecondaryAssign slot => Sys2Proof.Machine.execVmSecondaryAssign slot s
  | .vmSecondaryOnline slot => Sys2Proof.Machine.execVmSecondaryOnline slot s
  | .vmPrimaryFlex slot => Sys2Proof.Machine.execVmPrimaryFlex slot s
  | .txnBegin slot w => Sys2Proof.Machine.execTxnBegin slot w s
  | .txnStage slot w => Sys2Proof.Machine.execTxnStage slot w s
  | .txnCommit slot w => Sys2Proof.Machine.execTxnCommit slot w s
  | .txnRollback slot w => Sys2Proof.Machine.execTxnRollback slot w s
  | .txnQuery slot w => Sys2Proof.Machine.execTxnQuery slot w s
  | .txnRollbackTimeout => Sys2Proof.Machine.execTxnRollbackTimeout s
  | .commitStored ok => Sys2Proof.Machine.execCommitStored ok s
  | .commitArmQuiet arm => Sys2Proof.Machine.execCommitArmQuiet arm s
  | .cfgBlobDone w => Sys2Proof.Machine.execCfgBlobDone w s
  | .tallyScale slot => Sys2Proof.Machine.execTallyScale slot s
  | .tallyRead slot => Sys2Proof.Machine.execTallyRead slot s
  | .blazeRead slot => Sys2Proof.Machine.execBlazeRead slot s
  | .faultStatus slot => Sys2Proof.Machine.execFaultStatus slot s
  | .salvageStatus slot => Sys2Proof.Machine.execSalvageStatus slot s
  | .salvageCtlStart slot p => Sys2Proof.Machine.execSalvageCtlStart slot p s
  | .salvageCtlPause slot => Sys2Proof.Machine.execSalvageCtlPause slot s
  | .salvageCtlResume slot => Sys2Proof.Machine.execSalvageCtlResume slot s
  | .salvageCtlAbort slot => Sys2Proof.Machine.execSalvageCtlAbort slot s
  | .clearLost slot => Sys2Proof.Machine.execClearLost slot s
  | .fenceQuery slot => Sys2Proof.Machine.execFenceQuery slot s
  | .fenceHead slot => Sys2Proof.Machine.execFenceHead slot s
  | .unfenceHead slot ok => Sys2Proof.Machine.execUnfenceHead slot ok s
  | .fenceArm slot => Sys2Proof.Machine.execFenceArm slot s
  | .unfenceArm slot ok => Sys2Proof.Machine.execUnfenceArm slot ok s
  | .fenceRegion slot => Sys2Proof.Machine.execFenceRegion slot s
  | .unfenceRegion slot ok => Sys2Proof.Machine.execUnfenceRegion slot ok s
  | .budgetQuery slot => Sys2Proof.Machine.execBudgetQuery slot s
  | .setBudget slot => Sys2Proof.Machine.execSetBudget slot s
  | .setShares slot => Sys2Proof.Machine.execSetShares slot s
  | .sensorRead slot => Sys2Proof.Machine.execSensorRead slot s
  | .flush slot => Sys2Proof.Machine.execFlush slot s
  | .write slot l => Sys2Proof.Machine.execWrite slot l s
  | .read slot l => Sys2Proof.Machine.execRead slot l s
  | .compare slot l => Sys2Proof.Machine.execCompare slot l s
  | .writeZeroes slot l => Sys2Proof.Machine.execWriteZeroes slot l s
  | .verify slot l => Sys2Proof.Machine.execVerify slot l s
  | .orderedWrite slot l => Sys2Proof.Machine.execOrderedWrite slot l s
  | .orderedRead slot l => Sys2Proof.Machine.execOrderedRead slot l s
  | .barrier slot => Sys2Proof.Machine.execBarrier slot s
  | .writeDataReceived slot => Sys2Proof.Machine.execWriteDataReceived slot s
  | .completionPost f q => Sys2Proof.Machine.execCompletionPost f q s
  | .tlerExpire slot => Sys2Proof.Machine.execTlerExpire slot s
  | .coalesceTimeout f v => Sys2Proof.Machine.execCoalesceTimeout f v s
  | .decisionStart arm' => Sys2Proof.Machine.execDecisionStart arm' s
  | .itemDispatch arm' => Sys2Proof.Machine.execItemDispatch arm' s
  | .itemEnd arm' => Sys2Proof.Machine.execItemEnd arm' s
  | .itemUrgent => Sys2Proof.Machine.execItemUrgent s
  | .govTick => Sys2Proof.Machine.execGovTick s
  | .govOverClear => Sys2Proof.Machine.execGovOverClear s
  | .govDerateUpdate => Sys2Proof.Machine.execGovDerateUpdate s
  | .govBgWrite w => Sys2Proof.Machine.execGovBgWrite w s
  | .lndTrainStart w => Sys2Proof.Machine.execLndTrainStart w s
  | .lndTrainDone ok chFail step => Sys2Proof.Machine.execLndTrainDone ok chFail step s
  | .lndFillGo w => Sys2Proof.Machine.execLndFillGo w s
  | .lndFillDone => Sys2Proof.Machine.execLndFillDone s
  | .lndScrubStep e => Sys2Proof.Machine.execLndScrubStep e s
  | .lndRmapCopy k w => Sys2Proof.Machine.execLndRmapCopy k w s
  | .lndRmapCopyDone k ecc => Sys2Proof.Machine.execLndRmapCopyDone k ecc s
  | .lndRmapClear k w => Sys2Proof.Machine.execLndRmapClear k w s
  | .landingWrite m addr bs poison evict ecc => Sys2Proof.Machine.execLandingWrite m addr bs poison evict ecc s
  | .landingRead m addr n evict ecc => Sys2Proof.Machine.execLandingRead m addr n evict ecc s
  | .mergeEvictAge ecc => Sys2Proof.Machine.execMergeEvictAge ecc s
  | .ffenceClean c m w => Sys2Proof.Machine.execFfenceClean c m w s
  | .ffenceInval c m w => Sys2Proof.Machine.execFfenceInval c m w s
  | .ffenceCleanInval c m w => Sys2Proof.Machine.execFfenceCleanInval c m w s
  | .ffenceDrain c m w ecc => Sys2Proof.Machine.execFfenceDrain c m w ecc s
  | .ffenceCleanAll c m w => Sys2Proof.Machine.execFfenceCleanAll c m w s
  | .ffenceCleanInvalAll c m w => Sys2Proof.Machine.execFfenceCleanInvalAll c m w s
  | .amoAccess c op addr dbl x e => Sys2Proof.Machine.execAmoAccess c op addr dbl x e s
  | .yrdDoorbell n => Sys2Proof.Machine.execYrdDoorbell n s
  | .yrdDescStart n => Sys2Proof.Machine.execYrdDescStart n s
  | .yrdDescEnd n ecc => Sys2Proof.Machine.execYrdDescEnd n ecc s
  | .yrdChReset n w => Sys2Proof.Machine.execYrdChReset n w s
  | .yrdChResume n w => Sys2Proof.Machine.execYrdChResume n w s
  | .tlyScaleGo w => Sys2Proof.Machine.execTlyScaleGo w s
  | .tallyPeriodExpire => Sys2Proof.Machine.execTallyPeriodExpire s
  | .tallyLatch => Sys2Proof.Machine.execTallyLatch s
  | .tallyHandshakeReq => Sys2Proof.Machine.execTallyHandshakeReq s
  | .tallyHandshakeApply => Sys2Proof.Machine.execTallyHandshakeApply s
  | .blazePost m c w => Sys2Proof.Machine.execBlazePost m c w s
  | .blazeWriteStart => Sys2Proof.Machine.execBlazeWriteStart s
  | .blazeBodyProgrammed ok => Sys2Proof.Machine.execBlazeBodyProgrammed ok s
  | .blazeMarkProgrammed ok => Sys2Proof.Machine.execBlazeMarkProgrammed ok s
  | .blazeEraseDone ok => Sys2Proof.Machine.execBlazeEraseDone ok s
  | .blazeScanDone => Sys2Proof.Machine.execBlazeScanDone s
  | .checkerReport rs fec => Sys2Proof.Machine.execCheckerReport rs fec s
  | .checkerConditionFalse chk => Sys2Proof.Machine.execCheckerConditionFalse chk s
  | .fltAckWrite w => Sys2Proof.Machine.execFltAckWrite w s
  | .fltClrWrite w => Sys2Proof.Machine.execFltClrWrite w s
  | .fltFc3Clear w => Sys2Proof.Machine.execFltFc3Clear w s
  | .fltFc3AckWrite w => Sys2Proof.Machine.execFltFc3AckWrite w s
  | .fltInjArm w => Sys2Proof.Machine.execFltInjArm w s
  | .fltChkLatchClear chk w => Sys2Proof.Machine.execFltChkLatchClear chk w s
  | .eventClaim r => Sys2Proof.Machine.execEventClaim r s
  | .eventPendClear k w => Sys2Proof.Machine.execEventPendClear k w s
  | .softwareEvent w => Sys2Proof.Machine.execSoftwareEvent w s
  | .wdtKick w => Sys2Proof.Machine.execWdtKick w s
  | .wdtExpire => Sys2Proof.Machine.execWdtExpire s
  | .lifeRecordSave => Sys2Proof.Machine.execLifeRecordSave s
  | .thermalSample t => Sys2Proof.Machine.execThermalSample t s
  | .thermistorSample n v => Sys2Proof.Machine.execThermistorSample n v s
  | .thermistorOpen n => Sys2Proof.Machine.execThermistorOpen n s
  | .monitorSample n v amps => Sys2Proof.Machine.execMonitorSample n v amps s
  | .roSample slow => Sys2Proof.Machine.execRoSample slow s
  | .wearSample r m => Sys2Proof.Machine.execWearSample r m s
  | .bootComplete => Sys2Proof.Machine.execBootComplete s
  | .cfgLock w => Sys2Proof.Machine.execCfgLock w s
  | .actStaged => Sys2Proof.Machine.execActStaged s
  | .actGo w => Sys2Proof.Machine.execActGo w s
  | .actDone w => Sys2Proof.Machine.execActDone w s
  | .actTimeout => Sys2Proof.Machine.execActTimeout s
  | .fuseBurn w => Sys2Proof.Machine.execFuseBurn w s
  | .fuseBurnDone ok => Sys2Proof.Machine.execFuseBurnDone ok s
  | .mctpSetEndpointId h op eid => Sys2Proof.Machine.execMctpSetEndpointId h op eid s
  | .mctpGetEndpointId h => Sys2Proof.Machine.execMctpGetEndpointId h s
  | .mctpGetVersionSupport h ty => Sys2Proof.Machine.execMctpGetVersionSupport h ty s
  | .mctpGetMessageTypeSupport h => Sys2Proof.Machine.execMctpGetMessageTypeSupport h s
  | .readNvmeMiDataStructure h ty port ctl => Sys2Proof.Machine.execReadNvmeMiDataStructure h ty port ctl s
  | .subsystemHealthPoll h => Sys2Proof.Machine.execSubsystemHealthPoll h s
  | .controllerHealthPoll h first max' => Sys2Proof.Machine.execControllerHealthPoll h first max' s
  | .configurationGet h id port => Sys2Proof.Machine.execConfigurationGet h id port s
  | .configurationSet h id port v => Sys2Proof.Machine.execConfigurationSet h id port v s
  | .vpdRead h off len => Sys2Proof.Machine.execVpdRead h off len s
  | .miUnsupported h => Sys2Proof.Machine.execMiUnsupported h s
  | .clockSourceLost src => Sys2Proof.Machine.execClockSourceLost src s
  | .clockSourceReturned src => Sys2Proof.Machine.execClockSourceReturned src s
  | .cprRetractSet w => Sys2Proof.Machine.execCprRetractSet w s
  | .cprRetractRel w => Sys2Proof.Machine.execCprRetractRel w s
  | .armDomainOn arm w => Sys2Proof.Machine.execArmDomainOn arm w s
  | .armDomainOff arm w => Sys2Proof.Machine.execArmDomainOff arm w s
  | .standbyRequest w => Sys2Proof.Machine.execStandbyRequest w s
  | .standbyEnter => Sys2Proof.Machine.execStandbyEnter s
  | .standbyWake => Sys2Proof.Machine.execStandbyWake s
  | .cprWake w => Sys2Proof.Machine.execCprWake w s
  | .aonSleepEnter => Sys2Proof.Machine.execAonSleepEnter s
  | .aonSleepExit => Sys2Proof.Machine.execAonSleepExit s
  | .aonPowerOn test => Sys2Proof.Machine.execAonPowerOn test s
  | .domainsPowerUp => Sys2Proof.Machine.execDomainsPowerUp s
  | .pllsLocked => Sys2Proof.Machine.execPllsLocked s
  | .warmReset w => Sys2Proof.Machine.execWarmReset w s
  | .warmResetReloadDone => Sys2Proof.Machine.execWarmResetReloadDone s
  | .lyoloReset m w => Sys2Proof.Machine.execLyoloReset m w s
  | .lyoloBootDone => Sys2Proof.Machine.execLyoloBootDone s
  | .powerLossSignal => Sys2Proof.Machine.execPowerLossSignal s
  | .dumpPageDone ok ecc => Sys2Proof.Machine.execDumpPageDone ok ecc s
  | .dumpEnd ok supplies => Sys2Proof.Machine.execDumpEnd ok supplies s
  | .dumpArm w => Sys2Proof.Machine.execDumpArm w s
  | .dumpRestore w => Sys2Proof.Machine.execDumpRestore w s
  | .dumpRestoreDone bad => Sys2Proof.Machine.execDumpRestoreDone bad s
  | .aonSupplyFall => Sys2Proof.Machine.execAonSupplyFall s

end Sys2Proof.Machine
end

