-- ==== Sys2Proof/Machine/Tick.lean ====
section
/-! DEFINITION. What happens while no command waits: one edge of the 25 MHz reference. -/

namespace Sys2Proof.Machine

open Sys2Proof

/-- Device time after one edge of the reference: 40 ns later, in 64 bits (R518). -/
def nextTime (t : Nat) : Nat := (t + 40) % 2 ^ 64

/-- One edge of the 25 MHz reference while the AON supply is present: device time advances by 40 ns (R518), and power-on
seconds count each whole second of it (R489). Without the supply nothing counts. -/
def tick (s : State) : State :=
  if s.cpr.supplies then
    let s' := { s with time := nextTime s.time }
    if (s.time + 40) / 1000000000 = s.time / 1000000000 then s'
    else put F.BLZ_TIME_SECONDS 0 (fld F.BLZ_TIME_SECONDS 0 s + 1) s'
  else s

end Sys2Proof.Machine
end

