-- ==== Sys2Proof/Machine/Step.lean ====
section
/-! DEFINITION. One step: the command at the front of the queue is carried out; with an empty queue device time advances. -/

namespace Sys2Proof.Machine

open Sys2Proof

/-- One step of the block. An empty queue lets one edge of the 25 MHz reference pass (log entry 14). -/
def step (s : State) : Host.Outcome State Fault Refusal :=
  match s.pending with
  | [] => .next (tick s)
  | c :: rest => exec c { s with pending := rest }

/-- The command that a word spells, put at the front of the queue. No row of the command table gives its command bits,
so no word spells one and the state stays as it is (log entry 15). -/
def State.withFetchWord (s : State) (nbits w : Nat) : State :=
  match Sys2Proof.decodeTableWord nbits w with
  | some c => { s with pending := c :: s.pending }
  | none => s

end Sys2Proof.Machine
end

