-- ==== Sys2Proof/WellFormed.lean ====
section
/-! DEFINITION. Which commands are well formed: operands within the widths and counts the spec gives them. -/

namespace Sys2Proof

/-- Byte enables for at most eight bytes, data of at most 64 bits (R565). -/
def BusW.wf (w : BusW) : Bool := w.be < 2 ^ 8 && w.data < 2 ^ 64

/-- A power-of-two access of 1 to 8 bytes (R10). -/
def accessSize (n : Nat) : Bool := n == 1 || n == 2 || n == 4 || n == 8

/-- Samples, envelope and baseline within the ADC's range (R77, R95, R96). -/
def BitIn.wf (b : BitIn) : Bool := b.env < 2 ^ 12 && -2048 ≤ b.base && b.base < 2048

/-- The moves of the eight sub-converters (R80), and bits that are well formed. -/
def SectorRead.wf (r : SectorRead) : Bool := r.moves.length == 8 && r.bits.all BitIn.wf

/-- Landing areas start on granules (R405). -/
def LandBufs.wf (l : LandBufs) : Bool := l.buf % 64 == 0 && l.md % 64 == 0 && l.scr % 64 == 0 && l.scrMd % 64 == 0

/-- A report's fields fit the record of R466. -/
def Report.wf (r : Report) : Bool := r.master < 256 && r.access < 256 && r.addr < 2 ^ 64 && r.detail < 2 ^ 32

/-- The command's operands are within their widths and counts. A command that is not well formed is no behaviour of the
hardware or of those who command it. -/
def Instr.wf (i : Instr) : Bool :=
  match i with

  | .registerWrite _ addr size data _ => addr < 2 ^ 64 && accessSize size && data < 256 ^ size
  | .readClear _ addr size => addr < 2 ^ 64 && accessSize size
  | .uplinkCodeErrors _ n => 1 ≤ n
  | .senseDone _ gaps => 1 ≤ gaps.flatten.length && gaps.flatten.length ≤ 256
  | .syncFound _ bits => bits.all BitIn.wf
  | .sectorReadEnd _ r => r.wf
  | .laneCalDone _ subs => subs.length == 8
  | .sectorFeedDone _ ecc => ecc.length ≤ 65
  | .servoWedge _ x => x.bursts.length == 4
  | .spmStart vs => 1 ≤ vs.length
  | .spmOffsetCalDone adc => adc.length == 256
  | .spmRotorStill vs => 1 ≤ vs.length
  | .spmCatchLock xs => xs.length ≤ 25
  | .cmbWrite _ _ bs _ => 1 ≤ bs.length && bs.length ≤ 4096
  | .cmbRead _ _ n => 1 ≤ n.val
  | .completionReceived _ tag bs _ _ => tag < 2 ^ 14 && bs.length ≤ 4096
  | .completionTimeout _ tag => tag < 2 ^ 14
  | .nsCreate _ addr exts => addr < 2 ^ 64 && 1 ≤ exts.length && exts.length ≤ 64
  | .salvageCtlStart _ p => p.all (fun x => x.bitmap < 2 ^ 64)
  | .lndTrainDone ok ch step => ok || (ch.toNat != 0 && 1 ≤ step.toNat && step.toNat ≤ 4)
  | .lndRmapCopyDone _ ecc => ecc.length == 128
  | .landingWrite _ addr bs _ _ _ => addr < 2 ^ 64 && 1 ≤ bs.length
  | .landingRead _ addr n _ _ => addr < 2 ^ 64 && 1 ≤ n
  | .amoAccess _ _ addr _ _ _ => addr < 2 ^ 64
  | .checkerReport rs fec => (1 ≤ rs.length || 1 ≤ fec) && rs.all Report.wf
  | .thermalSample t => t.length == 8
  | .roSample slow => slow.length == 16
  | .wearSample _ m => m < 2 ^ 64
  | .sprFenceHeadWrite _ w | .sprFenceArmWrite w | .senseStart _ w | .preampRegAccess _ w | .linkEnable _ w
  | .linkDisable _ w | .linkRetrain _ w | .synTune _ w | .decFenceWrite w | .decBistStart w | .srvGo _ w | .stgTailWrite w
  | .sprSalvStart w | .sprSalvPause w | .sprSalvResume w | .sprSalvAbort w | .ccEnable _ w | .ccDisable _ w
  | .ccShutdown _ w | .intmsWrite _ w | .intmcWrite _ w | .vfEnable w | .vfDisable w | .deckIoEn w | .deckPause w
  | .deckAdminEn w | .deckFnWrite _ w | .chkPortGo _ w | .chkPortRel _ w | .govBgWrite w | .lndTrainStart w | .lndFillGo w
  | .lndRmapCopy _ w | .lndRmapClear _ w | .ffenceClean _ _ w | .ffenceInval _ _ w | .ffenceCleanInval _ _ w
  | .ffenceDrain _ _ w _ | .ffenceCleanAll _ _ w | .ffenceCleanInvalAll _ _ w | .yrdChReset _ w | .yrdChResume _ w
  | .tlyScaleGo w | .blazePost _ _ w | .fltAckWrite w | .fltClrWrite w | .fltFc3Clear w | .fltFc3AckWrite w | .fltInjArm w
  | .fltChkLatchClear _ w | .eventPendClear _ w | .softwareEvent w | .txnBegin _ w | .txnStage _ w | .txnCommit _ w
  | .txnRollback _ w | .txnQuery _ w | .cfgBlobDone w | .wdtKick w | .cfgLock w | .actGo w | .actDone w | .fuseBurn w
  | .cprRetractSet w | .cprRetractRel w | .armDomainOn _ w | .armDomainOff _ w | .standbyRequest w | .cprWake w
  | .warmReset w | .lyoloReset _ w | .dumpArm w | .dumpRestore w => w.wf
  | .write _ l | .read _ l | .compare _ l | .writeZeroes _ l | .verify _ l | .orderedWrite _ l | .orderedRead _ l => l.wf
  | .geoLoad | .geoLoadDone | .exec _ | .statReceived _ _ | .nakReceived _ _ _ | .rdataReceived _ _ _ _ _ | .ackTimeout _
  | .statTimeout _ | .wkillRelease _ | .discUplinkIdle _ | .discAbsent _ | .autoRetrain _ | .laneWake _ | .laneWakeDone _
  | .laneReadyHold _ | .profileLoadDone _ | .readGate _ | .servoGateOpen _ _ _ | .servoGateClose _ _ | .resyncFound _ _
  | .laneCalRequest _ | .synLocked _ | .synLockLost _ | .synWaitTimeout _ | .wpProfileLoadDone _ | .wpArmedHold _
  | .blockLate _ | .heatSend _ | .heatHold _ | .writeGateOpen _ _ | .sectorWriteEnd _ _ | .writeOpEnd _ | .slotGrant
  | .fastDecodeStart _ | .engineWakeDone _ | .fastDecodeEnd _ _ | .contextCopyDone _ _ | .recoveryJobStart
  | .recoveryJobEnd _ | .ladderTmax _ | .engineSleep _ | .engineParityError _ | .decBistDone _ | .servoWedgeMiss _ _
  | .servoGroupClose _ _ | .srvLoad _ | .srvUnload _ | .coefSwap _ | .loadAcquired _ | .loadTimeout _ | .unloadPhaseEnd _
  | .parkTimeout _ | .followEntry _ | .settleTimeout _ | .armMissTimeout _ | .headLost _ | .maSatExpire _ | .wpermRearm _
  | .vcmMismatch _ | .shockSample _ _ | .shockRearm | .shockInitWindow | .shockStuck _ | .spmStop | .spmPwmPeriod _
  | .spmSpeedLoop | .spmLossOfSync | .spmStictionEnd | .spmAlignEnd | .spmRampWrap | .spmHoTimeout | .spmRetryTimeout
  | .spmStageFault | .spmAutoRestart | .spmAtSpeed | .linkResetEvent _ | .linkTrained _ _ _ | .flr _ | .flrReady _
  | .sqTailDoorbell _ _ _ | .cqHeadDoorbell _ _ _ | .bmeClear _ | .bmeSet _ | .bmeStallExpire _ | .powerStateD3hot _
  | .powerStateD0 _ | .msixUnmask _ _ | .intModeChange _ _ _ _ | .sqEntryFetched _ _ | .chokerEntryTake | .flush _
  | .barrier _ | .writeDataReceived _ | .completionPost _ _ | .tlerExpire _ | .coalesceTimeout _ _ | .createIoSq _
  | .createIoCq _ | .deleteIoSq _ | .deleteIoCq _ | .getLogPage _ | .identify _ | .abort _ | .setFeatures _ | .getFeatures _
  | .asyncEventRequest _ | .nsDelete _ | .nsAttach _ | .nsDetach _ | .formatNvm _ | .vmSecondaryOffline _
  | .vmSecondaryAssign _ | .vmSecondaryOnline _ | .vmPrimaryFlex _ | .blazeRead _ | .faultStatus _ | .salvageStatus _
  | .salvageCtlPause _ | .salvageCtlResume _ | .salvageCtlAbort _ | .clearLost _ | .fenceQuery _ | .fenceHead _
  | .unfenceHead _ _ | .fenceArm _ | .unfenceArm _ _ | .fenceRegion _ | .unfenceRegion _ _ | .budgetQuery _ | .setBudget _
  | .setShares _ | .sensorRead _ | .tallyScale _ | .tallyRead _ | .decisionStart _ | .itemDispatch _ | .itemEnd _
  | .lndFillDone | .lndScrubStep _ | .mergeEvictAge _ | .yrdDoorbell _ | .yrdDescStart _ | .yrdDescEnd _ _
  | .blazeBodyProgrammed _ | .blazeMarkProgrammed _ | .blazeEraseDone _ | .checkerConditionFalse _ | .eventClaim _
  | .fwImageDownload _ | .fwCommitStore _ | .fwCommitStoreNext _ | .fwCommitSlotNext _ | .fwCommitActivate _
  | .commitStored _ | .commitArmQuiet _ | .thermistorSample _ _ | .thermistorOpen _ | .monitorSample _ _ _ | .fuseBurnDone _
  | .mctpSetEndpointId _ _ _ | .mctpGetEndpointId _ | .mctpGetVersionSupport _ _ | .mctpGetMessageTypeSupport _
  | .readNvmeMiDataStructure _ _ _ _ | .subsystemHealthPoll _ | .controllerHealthPoll _ _ _ | .configurationGet _ _ _
  | .configurationSet _ _ _ _ | .vpdRead _ _ _ | .miUnsupported _ | .clockSourceLost _ | .clockSourceReturned _
  | .dumpPageDone _ _ | .dumpEnd _ _ | .dumpRestoreDone _ | .descReadUnit | .descReadStg | .descWriteStg _ | .descWriteStripe _
  | .stagingWaitExpire | .stagingRoom | .stripePassEnd | .stripeRebuild | .salvageBatch | .salvageStripeJudge
  | .lostRingRoom | .cruiseVisit | .cruiseClassify | .cruiseRewrite | .perstAssert | .perstDeassert | .aspmL1Entry
  | .admitEntry | .chokerGrant | .txnRollbackTimeout | .itemUrgent | .govTick | .govOverClear | .govDerateUpdate
  | .tallyPeriodExpire | .tallyLatch | .tallyHandshakeReq | .tallyHandshakeApply | .blazeWriteStart | .blazeScanDone
  | .wdtExpire | .lifeRecordSave | .bootComplete | .actStaged | .actTimeout | .standbyEnter | .standbyWake | .aonSleepEnter
  | .aonSleepExit | .aonPowerOn _ | .domainsPowerUp | .pllsLocked | .warmResetReloadDone | .lyoloBootDone | .powerLossSignal
  | .aonSupplyFall => true

end Sys2Proof
end

