-- ==== Sys2Proof/Safety.lean ====
section
/-! DEFINITION. The canonical form of the register table and the memories, and the other invariants that statements name. -/

namespace Sys2Proof

open Sys2Proof.Machine

/-- No entry of a table equals what an unlisted key reads as. -/
def Tab.lists {α : Type} [DecidableEq α] (d : α) (t : Tab α) : Bool := t.all (fun e => e.2 != d)

/-- The memories are in canonical form: addresses strictly rise, and no byte of the serial NOR or of the blaze mirror is listed
with the value that an unlisted byte of it reads as. -/
def memWf (s : State) : Bool :=
  Tab.rising s.sram && Tab.rising s.land && Tab.rising s.tcm && Tab.rising s.lyo &&
    (Tab.rising s.nor && Tab.lists 0xFF s.nor) && (Tab.rising s.mirror && Tab.lists 0xFF s.mirror)

/-- The register table is in canonical form: addresses strictly rise. -/
def regsWf (s : State) : Bool := Tab.rising s.regs

/-- Every command that waits is well formed. -/
def queueWf (s : State) : Bool := s.pending.all Instr.wf

/-- From `s` to `t` the queue, device time, the fuses and the active geometry are as they were. -/
def kept (s t : State) : Prop := t.pending = s.pending ∧ t.time = s.time ∧ t.fuse = s.fuse ∧ t.geo = s.geo

/-- `n` steps one after another, ending early at a step that answers no next state. -/
def run : Nat → State → Answer
  | 0, s => .next s
  | n + 1, s => match step s with
    | .next t => run n t
    | o => o

end Sys2Proof
end

