-- ==== Sys2Proof/Certificates/Slice0/Obligations.lean ====
section
/-! DEFINITION. What this model states of Scetus: the statements for the provers. -/

open Sys2Proof Sys2Proof.Machine

/-- For every operand and in every state each command named answers a next state: the register accesses, the end of a geometry
load, the fences, the arm links, the lanes and synthesizers, the write path and the decoder pool. No operand and no state
makes one of them stop, fault or be refused; where the spec ignores a command, that is the next state. The queue, device
time, the fuses and the active geometry stay as they were, but for the part of them that the command itself changes (a
geometry load, a fuse burn, a loss of power or sleep), which its clause leaves out. (R9, R28, R48, R60, R68, R83, R101,
R118, R150, R161) -/
def Obligations.MediaCommandsComplete : Prop :=
  (∀ m addr size data ep s, ∃ t, exec (.registerWrite m addr size data ep) s = .next t ∧ kept s t) ∧
  (∀ m addr size s, ∃ t, exec (.readClear m addr size) s = .next t ∧ kept s t) ∧
  (∀ s, ∃ t, exec .geoLoadDone s = .next t ∧ t.pending = s.pending ∧ t.time = s.time ∧ t.fuse = s.fuse) ∧
  (∀ k w s, ∃ t, exec (.sprFenceHeadWrite k w) s = .next t ∧ kept s t) ∧
  (∀ w s, ∃ t, exec (.sprFenceArmWrite w) s = .next t ∧ kept s t) ∧
  (∀ arm s, ∃ t, exec (.exec arm) s = .next t ∧ kept s t) ∧
  (∀ arm f s, ∃ t, exec (.statReceived arm f) s = .next t ∧ kept s t) ∧
  (∀ arm ackSeq crc s, ∃ t, exec (.nakReceived arm ackSeq crc) s = .next t ∧ kept s t) ∧
  (∀ arm seq addr data crc s, ∃ t, exec (.rdataReceived arm seq addr data crc) s = .next t ∧ kept s t) ∧
  (∀ arm s, ∃ t, exec (.ackTimeout arm) s = .next t ∧ kept s t) ∧
  (∀ arm n s, ∃ t, exec (.uplinkCodeErrors arm n) s = .next t ∧ kept s t) ∧
  (∀ arm s, ∃ t, exec (.statTimeout arm) s = .next t ∧ kept s t) ∧
  (∀ arm w s, ∃ t, exec (.senseStart arm w) s = .next t ∧ kept s t) ∧
  (∀ arm gaps s, ∃ t, exec (.senseDone arm gaps) s = .next t ∧ kept s t) ∧
  (∀ arm w s, ∃ t, exec (.preampRegAccess arm w) s = .next t ∧ kept s t) ∧
  (∀ arm w s, ∃ t, exec (.linkEnable arm w) s = .next t ∧ kept s t) ∧
  (∀ arm w s, ∃ t, exec (.linkDisable arm w) s = .next t ∧ kept s t) ∧
  (∀ arm w s, ∃ t, exec (.linkRetrain arm w) s = .next t ∧ kept s t) ∧
  (∀ arm s, ∃ t, exec (.discAbsent arm) s = .next t ∧ kept s t) ∧
  (∀ arm s, ∃ t, exec (.autoRetrain arm) s = .next t ∧ kept s t) ∧
  (∀ lane s, ∃ t, exec (.laneWake lane) s = .next t ∧ kept s t) ∧
  (∀ lane s, ∃ t, exec (.laneReadyHold lane) s = .next t ∧ kept s t) ∧
  (∀ lane s, ∃ t, exec (.profileLoadDone lane) s = .next t ∧ kept s t) ∧
  (∀ lane s, ∃ t, exec (.readGate lane) s = .next t ∧ kept s t) ∧
  (∀ lane r s, ∃ t, exec (.sectorReadEnd lane r) s = .next t ∧ kept s t) ∧
  (∀ head pos acks s, ∃ t, exec (.servoGateOpen head pos acks) s = .next t ∧ kept s t) ∧
  (∀ head len s, ∃ t, exec (.servoGateClose head len) s = .next t ∧ kept s t) ∧
  (∀ lane s, ∃ t, exec (.laneCalRequest lane) s = .next t ∧ kept s t) ∧
  (∀ lane subs s, ∃ t, exec (.laneCalDone lane subs) s = .next t ∧ kept s t) ∧
  (∀ arm w s, ∃ t, exec (.synTune arm w) s = .next t ∧ kept s t) ∧
  (∀ arm s, ∃ t, exec (.synLocked arm) s = .next t ∧ kept s t) ∧
  (∀ arm s, ∃ t, exec (.synLockLost arm) s = .next t ∧ kept s t) ∧
  (∀ arm s, ∃ t, exec (.synWaitTimeout arm) s = .next t ∧ kept s t) ∧
  (∀ arm s, ∃ t, exec (.wpProfileLoadDone arm) s = .next t ∧ kept s t) ∧
  (∀ lane ecc s, ∃ t, exec (.sectorFeedDone lane ecc) s = .next t ∧ kept s t) ∧
  (∀ arm s, ∃ t, exec (.heatSend arm) s = .next t ∧ kept s t) ∧
  (∀ lane gap s, ∃ t, exec (.sectorWriteEnd lane gap) s = .next t ∧ kept s t) ∧
  (∀ arm s, ∃ t, exec (.writeOpEnd arm) s = .next t ∧ kept s t) ∧
  (∀ eng ecc s, ∃ t, exec (.fastDecodeEnd eng ecc) s = .next t ∧ kept s t) ∧
  (∀ slot ecc s, ∃ t, exec (.contextCopyDone slot ecc) s = .next t ∧ kept s t) ∧
  (∀ s, ∃ t, exec .recoveryJobStart s = .next t ∧ kept s t) ∧
  (∀ eng s, ∃ t, exec (.recoveryJobEnd eng) s = .next t ∧ kept s t) ∧
  (∀ w s, ∃ t, exec (.decFenceWrite w) s = .next t ∧ kept s t) ∧
  (∀ eng s, ∃ t, exec (.engineParityError eng) s = .next t ∧ kept s t) ∧
  (∀ pass s, ∃ t, exec (.decBistDone pass) s = .next t ∧ kept s t)

/-- For every operand and in every state each command named answers a next state: the servo wedges and groups, the requests
and modes of the arms, the shock sensor, the spindle, the descriptors and passes of surface parity, salvage and cruise. No
operand and no state makes one of them stop, fault or be refused; where the spec ignores a command, that is the next state.
The queue, device time, the fuses and the active geometry stay as they were, but for the part of them that the command
itself changes (a geometry load, a fuse burn, a loss of power or sleep), which its clause leaves out. (R182, R188, R192,
R199, R217, R218, R242, R249, R258, R262, R271) -/
def Obligations.MechanicsCommandsComplete : Prop :=
  (∀ head x s, ∃ t, exec (.servoWedge head x) s = .next t ∧ kept s t) ∧
  (∀ head c s, ∃ t, exec (.servoWedgeMiss head c) s = .next t ∧ kept s t) ∧
  (∀ arm isense s, ∃ t, exec (.servoGroupClose arm isense) s = .next t ∧ kept s t) ∧
  (∀ arm s, ∃ t, exec (.srvLoad arm) s = .next t ∧ kept s t) ∧
  (∀ arm s, ∃ t, exec (.srvUnload arm) s = .next t ∧ kept s t) ∧
  (∀ arm w s, ∃ t, exec (.srvGo arm w) s = .next t ∧ kept s t) ∧
  (∀ arm s, ∃ t, exec (.loadAcquired arm) s = .next t ∧ kept s t) ∧
  (∀ arm s, ∃ t, exec (.loadTimeout arm) s = .next t ∧ kept s t) ∧
  (∀ arm s, ∃ t, exec (.parkTimeout arm) s = .next t ∧ kept s t) ∧
  (∀ arm s, ∃ t, exec (.followEntry arm) s = .next t ∧ kept s t) ∧
  (∀ arm s, ∃ t, exec (.settleTimeout arm) s = .next t ∧ kept s t) ∧
  (∀ arm s, ∃ t, exec (.armMissTimeout arm) s = .next t ∧ kept s t) ∧
  (∀ head s, ∃ t, exec (.headLost head) s = .next t ∧ kept s t) ∧
  (∀ head s, ∃ t, exec (.maSatExpire head) s = .next t ∧ kept s t) ∧
  (∀ arm s, ∃ t, exec (.vcmMismatch arm) s = .next t ∧ kept s t) ∧
  (∀ ch x s, ∃ t, exec (.shockSample ch x) s = .next t ∧ kept s t) ∧
  (∀ s, ∃ t, exec .shockRearm s = .next t ∧ kept s t) ∧
  (∀ s, ∃ t, exec .shockInitWindow s = .next t ∧ kept s t) ∧
  (∀ ch s, ∃ t, exec (.shockStuck ch) s = .next t ∧ kept s t) ∧
  (∀ vs s, ∃ t, exec (.spmStart vs) s = .next t ∧ kept s t) ∧
  (∀ s, ∃ t, exec .spmStop s = .next t ∧ kept s t) ∧
  (∀ adc s, ∃ t, exec (.spmPwmPeriod adc) s = .next t ∧ kept s t) ∧
  (∀ s, ∃ t, exec .spmSpeedLoop s = .next t ∧ kept s t) ∧
  (∀ s, ∃ t, exec .spmLossOfSync s = .next t ∧ kept s t) ∧
  (∀ adc s, ∃ t, exec (.spmOffsetCalDone adc) s = .next t ∧ kept s t) ∧
  (∀ s, ∃ t, exec .spmStictionEnd s = .next t ∧ kept s t) ∧
  (∀ s, ∃ t, exec .spmAlignEnd s = .next t ∧ kept s t) ∧
  (∀ s, ∃ t, exec .spmRampWrap s = .next t ∧ kept s t) ∧
  (∀ s, ∃ t, exec .spmHoTimeout s = .next t ∧ kept s t) ∧
  (∀ vs s, ∃ t, exec (.spmRotorStill vs) s = .next t ∧ kept s t) ∧
  (∀ s, ∃ t, exec .spmRetryTimeout s = .next t ∧ kept s t) ∧
  (∀ xs s, ∃ t, exec (.spmCatchLock xs) s = .next t ∧ kept s t) ∧
  (∀ s, ∃ t, exec .spmStageFault s = .next t ∧ kept s t) ∧
  (∀ s, ∃ t, exec .spmAutoRestart s = .next t ∧ kept s t) ∧
  (∀ w s, ∃ t, exec (.stgTailWrite w) s = .next t ∧ kept s t) ∧
  (∀ w s, ∃ t, exec (.sprSalvStart w) s = .next t ∧ kept s t) ∧
  (∀ w s, ∃ t, exec (.sprSalvPause w) s = .next t ∧ kept s t) ∧
  (∀ w s, ∃ t, exec (.sprSalvResume w) s = .next t ∧ kept s t) ∧
  (∀ w s, ∃ t, exec (.sprSalvAbort w) s = .next t ∧ kept s t) ∧
  (∀ s, ∃ t, exec .descReadUnit s = .next t ∧ kept s t) ∧
  (∀ s, ∃ t, exec .descReadStg s = .next t ∧ kept s t) ∧
  (∀ ecc s, ∃ t, exec (.descWriteStg ecc) s = .next t ∧ kept s t) ∧
  (∀ ecc s, ∃ t, exec (.descWriteStripe ecc) s = .next t ∧ kept s t) ∧
  (∀ s, ∃ t, exec .stagingWaitExpire s = .next t ∧ kept s t) ∧
  (∀ s, ∃ t, exec .stagingRoom s = .next t ∧ kept s t) ∧
  (∀ s, ∃ t, exec .stripePassEnd s = .next t ∧ kept s t) ∧
  (∀ s, ∃ t, exec .stripeRebuild s = .next t ∧ kept s t) ∧
  (∀ s, ∃ t, exec .salvageBatch s = .next t ∧ kept s t) ∧
  (∀ s, ∃ t, exec .salvageStripeJudge s = .next t ∧ kept s t) ∧
  (∀ s, ∃ t, exec .lostRingRoom s = .next t ∧ kept s t) ∧
  (∀ s, ∃ t, exec .cruiseVisit s = .next t ∧ kept s t) ∧
  (∀ s, ∃ t, exec .cruiseClassify s = .next t ∧ kept s t) ∧
  (∀ s, ∃ t, exec .cruiseRewrite s = .next t ∧ kept s t)

/-- For every operand and in every state each command named answers a next state: the host link and its resets, doorbells,
controller registers, the controller memory buffer, bus mastering, interrupts, completions, admission, and the NVMe commands
of the deck. No operand and no state makes one of them stop, fault or be refused; where the spec ignores a command, that is
the next state. The queue, device time, the fuses and the active geometry stay as they were, but for the part of them that
the command itself changes (a geometry load, a fuse burn, a loss of power or sleep), which its clause leaves out. (R291,
R298, R303, R313, R324, R333, R335, R341, R343, R355) -/
def Obligations.HostCommandsComplete : Prop :=
  (∀ kind s, ∃ t, exec (.linkResetEvent kind) s = .next t ∧ kept s t) ∧
  (∀ f s, ∃ t, exec (.flr f) s = .next t ∧ kept s t) ∧
  (∀ f q v s, ∃ t, exec (.sqTailDoorbell f q v) s = .next t ∧ kept s t) ∧
  (∀ f q v s, ∃ t, exec (.cqHeadDoorbell f q v) s = .next t ∧ kept s t) ∧
  (∀ f w s, ∃ t, exec (.ccEnable f w) s = .next t ∧ kept s t) ∧
  (∀ f w s, ∃ t, exec (.ccDisable f w) s = .next t ∧ kept s t) ∧
  (∀ f w s, ∃ t, exec (.ccShutdown f w) s = .next t ∧ kept s t) ∧
  (∀ f w s, ∃ t, exec (.intmsWrite f w) s = .next t ∧ kept s t) ∧
  (∀ f w s, ∃ t, exec (.intmcWrite f w) s = .next t ∧ kept s t) ∧
  (∀ f off bs ep s, ∃ t, exec (.cmbWrite f off bs ep) s = .next t ∧ kept s t) ∧
  (∀ f off n s, ∃ t, exec (.cmbRead f off n) s = .next t ∧ kept s t) ∧
  (∀ f s, ∃ t, exec (.bmeClear f) s = .next t ∧ kept s t) ∧
  (∀ f s, ∃ t, exec (.bmeSet f) s = .next t ∧ kept s t) ∧
  (∀ f s, ∃ t, exec (.bmeStallExpire f) s = .next t ∧ kept s t) ∧
  (∀ f s, ∃ t, exec (.powerStateD3hot f) s = .next t ∧ kept s t) ∧
  (∀ f s, ∃ t, exec (.powerStateD0 f) s = .next t ∧ kept s t) ∧
  (∀ w s, ∃ t, exec (.vfEnable w) s = .next t ∧ kept s t) ∧
  (∀ w s, ∃ t, exec (.vfDisable w) s = .next t ∧ kept s t) ∧
  (∀ f v s, ∃ t, exec (.msixUnmask f v) s = .next t ∧ kept s t) ∧
  (∀ f msix msi intxOff s, ∃ t, exec (.intModeChange f msix msi intxOff) s = .next t ∧ kept s t) ∧
  (∀ f tag bs ep ur s, ∃ t, exec (.completionReceived f tag bs ep ur) s = .next t ∧ kept s t) ∧
  (∀ f tag s, ∃ t, exec (.completionTimeout f tag) s = .next t ∧ kept s t) ∧
  (∀ slot l s, ∃ t, exec (.write slot l) s = .next t ∧ kept s t) ∧
  (∀ slot l s, ∃ t, exec (.read slot l) s = .next t ∧ kept s t) ∧
  (∀ slot l s, ∃ t, exec (.compare slot l) s = .next t ∧ kept s t) ∧
  (∀ slot l s, ∃ t, exec (.writeZeroes slot l) s = .next t ∧ kept s t) ∧
  (∀ slot l s, ∃ t, exec (.verify slot l) s = .next t ∧ kept s t) ∧
  (∀ slot l s, ∃ t, exec (.orderedWrite slot l) s = .next t ∧ kept s t) ∧
  (∀ slot l s, ∃ t, exec (.orderedRead slot l) s = .next t ∧ kept s t) ∧
  (∀ slot s, ∃ t, exec (.barrier slot) s = .next t ∧ kept s t) ∧
  (∀ slot s, ∃ t, exec (.writeDataReceived slot) s = .next t ∧ kept s t) ∧
  (∀ f q s, ∃ t, exec (.completionPost f q) s = .next t ∧ kept s t) ∧
  (∀ slot s, ∃ t, exec (.tlerExpire slot) s = .next t ∧ kept s t) ∧
  (∀ slot s, ∃ t, exec (.deleteIoSq slot) s = .next t ∧ kept s t) ∧
  (∀ slot s, ∃ t, exec (.abort slot) s = .next t ∧ kept s t) ∧
  (∀ slot addr exts s, ∃ t, exec (.nsCreate slot addr exts) s = .next t ∧ kept s t) ∧
  (∀ slot s, ∃ t, exec (.nsDelete slot) s = .next t ∧ kept s t) ∧
  (∀ slot s, ∃ t, exec (.formatNvm slot) s = .next t ∧ kept s t) ∧
  (∀ slot s, ∃ t, exec (.vmSecondaryOffline slot) s = .next t ∧ kept s t) ∧
  (∀ slot s, ∃ t, exec (.faultStatus slot) s = .next t ∧ kept s t) ∧
  (∀ slot p s, ∃ t, exec (.salvageCtlStart slot p) s = .next t ∧ kept s t) ∧
  (∀ slot s, ∃ t, exec (.salvageCtlPause slot) s = .next t ∧ kept s t) ∧
  (∀ slot s, ∃ t, exec (.salvageCtlResume slot) s = .next t ∧ kept s t) ∧
  (∀ slot s, ∃ t, exec (.salvageCtlAbort slot) s = .next t ∧ kept s t) ∧
  (∀ slot s, ∃ t, exec (.clearLost slot) s = .next t ∧ kept s t) ∧
  (∀ slot s, ∃ t, exec (.fenceHead slot) s = .next t ∧ kept s t) ∧
  (∀ slot ok s, ∃ t, exec (.unfenceHead slot ok) s = .next t ∧ kept s t) ∧
  (∀ slot s, ∃ t, exec (.fenceArm slot) s = .next t ∧ kept s t) ∧
  (∀ slot ok s, ∃ t, exec (.unfenceArm slot ok) s = .next t ∧ kept s t) ∧
  (∀ slot s, ∃ t, exec (.setBudget slot) s = .next t ∧ kept s t) ∧
  (∀ slot s, ∃ t, exec (.tallyScale slot) s = .next t ∧ kept s t) ∧
  (∀ s, ∃ t, exec .perstAssert s = .next t ∧ kept s t) ∧
  (∀ s, ∃ t, exec .perstDeassert s = .next t ∧ kept s t) ∧
  (∀ s, ∃ t, exec .admitEntry s = .next t ∧ kept s t) ∧
  (∀ s, ∃ t, exec .chokerGrant s = .next t ∧ kept s t)

/-- For every operand and in every state each command named answers a next state: the scheduler, the landing and its bring-up,
the accesses and fences of the cores, the yarder, the tallies, the blaze and the faults and events. No operand and no state
makes one of them stop, fault or be refused; where the spec ignores a command, that is the next state. The queue, device
time, the fuses and the active geometry stay as they were, but for the part of them that the command itself changes (a
geometry load, a fuse burn, a loss of power or sleep), which its clause leaves out. (R385, R394, R409, R418, R421, R425,
R434, R442, R449, R467) -/
def Obligations.FabricCommandsComplete : Prop :=
  (∀ arm' s, ∃ t, exec (.decisionStart arm') s = .next t ∧ kept s t) ∧
  (∀ arm' s, ∃ t, exec (.itemDispatch arm') s = .next t ∧ kept s t) ∧
  (∀ arm' s, ∃ t, exec (.itemEnd arm') s = .next t ∧ kept s t) ∧
  (∀ ok chFail step s, ∃ t, exec (.lndTrainDone ok chFail step) s = .next t ∧ kept s t) ∧
  (∀ s, ∃ t, exec .lndFillDone s = .next t ∧ kept s t) ∧
  (∀ e s, ∃ t, exec (.lndScrubStep e) s = .next t ∧ kept s t) ∧
  (∀ k ecc s, ∃ t, exec (.lndRmapCopyDone k ecc) s = .next t ∧ kept s t) ∧
  (∀ k w s, ∃ t, exec (.lndRmapClear k w) s = .next t ∧ kept s t) ∧
  (∀ m addr bs poison evict ecc s, ∃ t, exec (.landingWrite m addr bs poison evict ecc) s = .next t ∧ kept s t) ∧
  (∀ m addr n evict ecc s, ∃ t, exec (.landingRead m addr n evict ecc) s = .next t ∧ kept s t) ∧
  (∀ ecc s, ∃ t, exec (.mergeEvictAge ecc) s = .next t ∧ kept s t) ∧
  (∀ c m w s, ∃ t, exec (.ffenceClean c m w) s = .next t ∧ kept s t) ∧
  (∀ c m w s, ∃ t, exec (.ffenceInval c m w) s = .next t ∧ kept s t) ∧
  (∀ c m w s, ∃ t, exec (.ffenceCleanInval c m w) s = .next t ∧ kept s t) ∧
  (∀ c m w ecc s, ∃ t, exec (.ffenceDrain c m w ecc) s = .next t ∧ kept s t) ∧
  (∀ c m w s, ∃ t, exec (.ffenceCleanAll c m w) s = .next t ∧ kept s t) ∧
  (∀ c m w s, ∃ t, exec (.ffenceCleanInvalAll c m w) s = .next t ∧ kept s t) ∧
  (∀ c op addr dbl x e s, ∃ t, exec (.amoAccess c op addr dbl x e) s = .next t ∧ kept s t) ∧
  (∀ n s, ∃ t, exec (.yrdDescStart n) s = .next t ∧ kept s t) ∧
  (∀ n ecc s, ∃ t, exec (.yrdDescEnd n ecc) s = .next t ∧ kept s t) ∧
  (∀ n w s, ∃ t, exec (.yrdChReset n w) s = .next t ∧ kept s t) ∧
  (∀ w s, ∃ t, exec (.tlyScaleGo w) s = .next t ∧ kept s t) ∧
  (∀ m c w s, ∃ t, exec (.blazePost m c w) s = .next t ∧ kept s t) ∧
  (∀ ok s, ∃ t, exec (.blazeBodyProgrammed ok) s = .next t ∧ kept s t) ∧
  (∀ ok s, ∃ t, exec (.blazeMarkProgrammed ok) s = .next t ∧ kept s t) ∧
  (∀ ok s, ∃ t, exec (.blazeEraseDone ok) s = .next t ∧ kept s t) ∧
  (∀ rs fec s, ∃ t, exec (.checkerReport rs fec) s = .next t ∧ kept s t) ∧
  (∀ w s, ∃ t, exec (.fltClrWrite w) s = .next t ∧ kept s t) ∧
  (∀ w s, ∃ t, exec (.fltInjArm w) s = .next t ∧ kept s t) ∧
  (∀ w s, ∃ t, exec (.softwareEvent w) s = .next t ∧ kept s t) ∧
  (∀ s, ∃ t, exec .govTick s = .next t ∧ kept s t) ∧
  (∀ s, ∃ t, exec .tallyPeriodExpire s = .next t ∧ kept s t) ∧
  (∀ s, ∃ t, exec .tallyLatch s = .next t ∧ kept s t) ∧
  (∀ s, ∃ t, exec .blazeScanDone s = .next t ∧ kept s t)

/-- For every operand and in every state each command named answers a next state: firmware images, configuration transactions,
sensors, activations, fuses, clocks, RETRACT_N, power, sleep and the power-loss dump. No operand and no state makes one of
them stop, fault or be refused; where the spec ignores a command, that is the next state. The queue, device time, the fuses
and the active geometry stay as they were, but for the part of them that the command itself changes (a geometry load, a fuse
burn, a loss of power or sleep), which its clause leaves out. (R486, R492, R498, R507, R511, R522, R525, R529, R532, R540,
R543) -/
def Obligations.ManagementCommandsComplete : Prop :=
  (∀ slot s, ∃ t, exec (.fwImageDownload slot) s = .next t ∧ kept s t) ∧
  (∀ slot s, ∃ t, exec (.fwCommitStore slot) s = .next t ∧ kept s t) ∧
  (∀ slot s, ∃ t, exec (.fwCommitStoreNext slot) s = .next t ∧ kept s t) ∧
  (∀ slot s, ∃ t, exec (.fwCommitSlotNext slot) s = .next t ∧ kept s t) ∧
  (∀ slot s, ∃ t, exec (.fwCommitActivate slot) s = .next t ∧ kept s t) ∧
  (∀ slot w s, ∃ t, exec (.txnBegin slot w) s = .next t ∧ kept s t) ∧
  (∀ slot w s, ∃ t, exec (.txnStage slot w) s = .next t ∧ kept s t) ∧
  (∀ slot w s, ∃ t, exec (.txnCommit slot w) s = .next t ∧ kept s t) ∧
  (∀ slot w s, ∃ t, exec (.txnRollback slot w) s = .next t ∧ kept s t) ∧
  (∀ ok s, ∃ t, exec (.commitStored ok) s = .next t ∧ kept s t) ∧
  (∀ arm s, ∃ t, exec (.commitArmQuiet arm) s = .next t ∧ kept s t) ∧
  (∀ w s, ∃ t, exec (.cfgBlobDone w) s = .next t ∧ kept s t) ∧
  (∀ ts s, ∃ t, exec (.thermalSample ts) s = .next t ∧ kept s t) ∧
  (∀ n v s, ∃ t, exec (.thermistorSample n v) s = .next t ∧ kept s t) ∧
  (∀ n s, ∃ t, exec (.thermistorOpen n) s = .next t ∧ kept s t) ∧
  (∀ n v amps s, ∃ t, exec (.monitorSample n v amps) s = .next t ∧ kept s t) ∧
  (∀ r m s, ∃ t, exec (.wearSample r m) s = .next t ∧ kept s t) ∧
  (∀ w s, ∃ t, exec (.actGo w) s = .next t ∧ kept s t) ∧
  (∀ w s, ∃ t, exec (.actDone w) s = .next t ∧ kept s t) ∧
  (∀ ok s, ∃ t, exec (.fuseBurnDone ok) s = .next t ∧ t.pending = s.pending ∧ t.time = s.time ∧ t.geo = s.geo) ∧
  (∀ h id port v s, ∃ t, exec (.configurationSet h id port v) s = .next t ∧ kept s t) ∧
  (∀ src s, ∃ t, exec (.clockSourceLost src) s = .next t ∧ kept s t) ∧
  (∀ src s, ∃ t, exec (.clockSourceReturned src) s = .next t ∧ kept s t) ∧
  (∀ w s, ∃ t, exec (.cprRetractSet w) s = .next t ∧ kept s t) ∧
  (∀ arm w s, ∃ t, exec (.armDomainOn arm w) s = .next t ∧ kept s t) ∧
  (∀ arm w s, ∃ t, exec (.armDomainOff arm w) s = .next t ∧ kept s t) ∧
  (∀ w s, ∃ t, exec (.cprWake w) s = .next t ∧ kept s t) ∧
  (∀ ok supplies s, ∃ t, exec (.dumpEnd ok supplies) s = .next t ∧ t.pending = s.pending ∧ t.fuse = s.fuse) ∧
  (∀ bad s, ∃ t, exec (.dumpRestoreDone bad) s = .next t ∧ kept s t) ∧
  (∀ s, ∃ t, exec .txnRollbackTimeout s = .next t ∧ kept s t) ∧
  (∀ s, ∃ t, exec .wdtExpire s = .next t ∧ kept s t) ∧
  (∀ s, ∃ t, exec .lifeRecordSave s = .next t ∧ kept s t) ∧
  (∀ s, ∃ t, exec .bootComplete s = .next t ∧ kept s t) ∧
  (∀ s, ∃ t, exec .actStaged s = .next t ∧ kept s t) ∧
  (∀ s, ∃ t, exec .actTimeout s = .next t ∧ kept s t) ∧
  (∀ s, ∃ t, exec .standbyEnter s = .next t ∧ kept s t) ∧
  (∀ s, ∃ t, exec .standbyWake s = .next t ∧ kept s t) ∧
  (∀ s, ∃ t, exec .aonSleepEnter s = .next t ∧ t.pending = s.pending ∧ t.fuse = s.fuse) ∧
  (∀ test s, ∃ t, exec (.aonPowerOn test) s = .next t ∧ t.pending = s.pending ∧ t.fuse = s.fuse) ∧
  (∀ s, ∃ t, exec .domainsPowerUp s = .next t ∧ kept s t) ∧
  (∀ s, ∃ t, exec .pllsLocked s = .next t ∧ kept s t) ∧
  (∀ s, ∃ t, exec .warmResetReloadDone s = .next t ∧ kept s t) ∧
  (∀ s, ∃ t, exec .lyoloBootDone s = .next t ∧ kept s t) ∧
  (∀ s, ∃ t, exec .powerLossSignal s = .next t ∧ kept s t) ∧
  (∀ s, ∃ t, exec .aonSupplyFall s = .next t ∧ t.pending = s.pending ∧ t.fuse = s.fuse)

/-- For every command c and state s, a step of s with c at the front of its queue is exec c on s with the queue's rest: the
per-command statements reach a run through this one. The queue is the model's (log entry 14). -/
def Obligations.StepRunsTheFrontCommand : Prop :=
  ∀ (c : Instr) (rest : List Instr) (s : State), step { s with pending := c :: rest } = exec c { s with pending := rest }

/-- On an empty queue a step answers a next state: with the AON supply present device time advances by 40 ns in 64 bits,
power-on seconds count only where a whole second of device time begins, and nothing but device time and the register table
changes; without the supply the state stays. That an idle step is one edge is the model's choice (log entry 14); what an
edge counts is R518 and R489. (R489, R518) -/
def Obligations.IdleStepIsOneReferenceEdge : Prop :=
  (∀ s : State, s.pending = [] → s.cpr.supplies = true → ∃ t, step s = .next t ∧ t = { s with time := t.time, regs := t.regs } ∧
    t.time = (s.time + 40) % 2 ^ 64 ∧ fld F.BLZ_TIME_SECONDS 0 t =
      (fld F.BLZ_TIME_SECONDS 0 s + if (s.time + 40) / 1000000000 = s.time / 1000000000 then 0 else 1) % 2 ^ 40) ∧
  (∀ s : State, s.pending = [] → s.cpr.supplies = false → step s = .next s)

/-- In State.reset every instance of every register holds the reset value of its description (the spec's, and where the spec
gives none the value that log entry 8 and log entry 16 name), no geometry is active, no lock is made, the cores are held and
the queue is empty. (R9, R30, R166, R486, R532) -/
def Obligations.ResetRegisterValues : Prop :=
  (∀ r ∈ allRegs, ∀ i j, rd r i j State.reset = r.reset i j % 2 ^ 64) ∧
  State.reset.geo = none ∧ State.reset.locked = false ∧ State.reset.time = 0 ∧ State.reset.cpr.cpHeld = true ∧
  State.reset.cpr.lyHeld = true ∧ State.reset.pending = [] ∧ rd R.DEC_LADDER 1 0 State.reset = 0x01000033

/-- The invariant that every step keeps holds in State.reset. (R409, R447, R487) -/
def Obligations.ResetMeetsTheInvariant : Prop :=
  memWf State.reset = true ∧ regsWf State.reset = true ∧ queueWf State.reset = true

/-- From every state whose memories and register table are canonical (addresses strictly rise; the serial NOR and the blaze
mirror list no erased byte) and whose waiting commands are well formed, a step that answers a next state answers one that is
again so: no command, fault, reset, power loss or restore leaves two entries for one address. That equal memories are equal
data is the model's convention; every later claim about what an address reads rests on it. (R8, R9, R409, R447, R454, R487)
-/
def Obligations.StepKeepsCanonicalTables : Prop :=
  ∀ s t : State, memWf s = true → regsWf s = true → queueWf s = true → step s = .next t →
  memWf t = true ∧ regsWf t = true ∧ queueWf t = true

/-- For every command c of the table and every state s there is a t with exec c s = next t, and the queue of t is that of s: a
command whose conditions do not hold has the effect the spec gives that case, and none stops the machine. (R7, R9) -/
def Obligations.EveryCommandAnswers : Prop :=
  ∀ (c : Instr) (s : State), ∃ t, exec c s = .next t ∧ t.pending = s.pending

/-- From every state, a run of as many steps as commands wait answers a next state with an empty queue, and after k steps with
k no larger than the queue the first k commands are gone and the rest wait in their order. The queue is the model's (log
entry 14); what it says of the part is that no command blocks those after it. -/
def Obligations.QueueDrainsInOrder : Prop :=
  ∀ (s : State) (k : Nat), k ≤ s.pending.length → ∃ t, run k s = .next t ∧ t.pending = s.pending.drop k

/-- Whatever command runs, the active geometry is as it was, unless the command is GEO_LOAD_DONE, AON_SLEEP_ENTER,
AON_POWER_ON, AON_SUPPLY_FALL or DUMP_END; while a geometry load runs or a fence changes, and during every reset of the host
side or of the cores, sectors keep their addresses. (R28, R29, R529, R532, R543) -/
def Obligations.OnlyGeometryLoadsChangeTheGeometry : Prop :=
  ∀ (c : Instr) (s t : State), exec c s = .next t → c ≠ .geoLoadDone → c ≠ .aonSleepEnter → (∀ b, c ≠ .aonPowerOn b) → c ≠ .aonSupplyFall →
  (∀ ok sup, c ≠ .dumpEnd ok sup) → t.geo = s.geo

/-- Whatever command runs, device time stands still within it and RWL fields that the boot setpoint commit has locked stay
locked, unless the command takes the power or puts AON to sleep (AON_SLEEP_ENTER, AON_POWER_ON, AON_SUPPLY_FALL, DUMP_END).
That device time passes only in idle steps is the model's choice (log entry 14). (R511, R518, R529, R532, R543) -/
def Obligations.DeviceTimeAndLockHold : Prop :=
  ∀ (c : Instr) (s t : State), exec c s = .next t → c ≠ .aonSleepEnter → (∀ b, c ≠ .aonPowerOn b) → c ≠ .aonSupplyFall →
  (∀ ok sup, c ≠ .dumpEnd ok sup) → t.time = s.time ∧ (s.locked = true → t.locked = true)

/-- Whatever command runs, in whatever state, the security version number in the fuses does not fall and a key slot that is
revoked stays revoked, through every reset and power loss; what a failed burn leaves is a free value within that bound (log
entry 1). (R498) -/
def Obligations.FusesAreNeverCleared : Prop :=
  ∀ (c : Instr) (s t : State), exec c s = .next t → s.fuse.svn ≤ t.fuse.svn ∧
  ∀ k, s.fuse.revoked.testBit k = true → t.fuse.revoked.testBit k = true

/-- A write of the bytes named to a register whose masks are apart: a W1C bit clears where 1 is written, a RW bit takes the
written value, a RWL bit does until the setpoint lock, every other bit and every bit of a byte not named stays; other
registers, and everything but the register table, stay as they were. (R9, R511) -/
def Obligations.RegisterWriteByAccessCode : Prop :=
  ∀ (r : RegDef) (i j : Nat) (w : BusW) (s : State), r.bytes ≤ 8 → (r.rw ||| r.rwl) &&& r.w1c = 0 →
  (∀ k, k < 8 * r.bytes → (rd r i j (busWrite r i j w s)).testBit k =
    if w.be.testBit (k / 8) = false then (rd r i j s).testBit k
    else if r.w1c.testBit k = true then (rd r i j s).testBit k && !w.data.testBit k
    else if r.rw.testBit k = true ∨ (r.rwl.testBit k = true ∧ s.locked = false) then w.data.testBit k
    else (rd r i j s).testBit k) ∧
  (∀ (q : RegDef) (i' j' : Nat), r.addr i j ≠ q.addr i' j' → rd q i' j' (busWrite r i j w s) = rd q i' j' s) ∧
  busWrite r i j w s = { s with regs := (busWrite r i j w s).regs }

/-- A write of bytes inside shared SRAM reads back, and every byte outside them reads as before; a granule written whole reads
back with its mark, even where it had read uncorrectable or had a merge buffer entry, and every other granule reads as
before. (R3, R405, R409, R412, R418, R419) -/
def Obligations.MemoriesReadWhatWasWritten : Prop :=
  (∀ (a : Nat) (bs : List Byte) (s : State), inSram a bs.length = true → sramRead (sramWrite a bs s) a bs.length = bs) ∧
  (∀ (a b : Nat) (bs : List Byte) (s : State), b < a ∨ a + bs.length ≤ b → sramByte (sramWrite a bs s) b = sramByte s b) ∧
  (∀ (g : Nat) (x : Granule) (s : State), granule (putGranule g x s) g = x) ∧
  (∀ (g h : Nat) (x : Granule) (s : State), g ≠ h → granule (putGranule g x s) h = granule s h)

/-- After a program of the NOR every bit that is 1 was 1 before, in every byte; after an erase each byte of the range reads
0xFF and every byte outside it is as it was. (R447, R454, R487) -/
def Obligations.NorProgramsOnlyClearBits : Prop :=
  (∀ (a b : Nat) (bs : List Byte) (s : State), norByte (norProgram a bs s) b &&& norByte s b = norByte (norProgram a bs s) b) ∧
  (∀ (a n b : Nat) (s : State), a ≤ b → b < a + n → norByte (norErase a n s) b = 0xFF) ∧
  (∀ (a n b : Nat) (s : State), b < a ∨ a + n ≤ b → norByte (norErase a n s) b = norByte s b)

/-- A head is eligible exactly when its fence bit and its arm's fence bit are 0 and its arm is in ARM_MASK; bit f of the mask
of unreachable surfaces is 1 exactly when a geometry is active and heads f, 16 + f, 32 + f and 48 + f are not eligible; and
a write of the head fences leaves SPR_SURF_UNREACH at that mask when it differs. (R2, R32, R33) -/
def Obligations.UnreachableSurfaces : Prop :=
  (∀ (s : State) (h : Nat), eligible s h = true ↔ bit F.SPR_FENCE_HEAD_FENCE (h / 32) (h % 32) s = false ∧
    bit F.SPR_FENCE_ARM_FENCE 0 (h / 16) s = false ∧ ∃ g, s.geo = some g ∧ g.armMask.testBit (h / 16) = true) ∧
  (∀ (s : State) (f : Nat), f < 16 → ((unreachMask s).testBit f = true ↔
    s.geo.isSome = true ∧ ∀ a, a < 4 → eligible s (16 * a + f) = false))

/-- Raising event n of a source that is not reserved leaves its bit of EVT_PEND set; raising a reserved one changes nothing.
(R482, R483) -/
def Obligations.EventsArePending : Prop :=
  (∀ (n : Nat) (s : State), evReserved n = false → bit F.EVT_PEND_PEND (n / 32) (n % 32) (raiseEvent n s) = true) ∧
  (∀ (n : Nat) (s : State), evReserved n = true → raiseEvent n s = s)

/-- A context whose ladder ends without the data, its read not aborted, delivers zero data with a result word whose STATUS is
4 (UNC_LR) if a step was skipped under LR, otherwise 5 (UNC_TIME) if a step was skipped under TMAX, otherwise 3 (UNC), for
step, engine, head and lane status within their fields. (R168) -/
def Obligations.LadderFinalStatus : Prop :=
  ∀ (c : Nat) (x : Ctx) (s : State), ctx s c = some x → x.abort = false → x.lstep < 16 → x.eng < 32 → x.last.getD 0 < 64 →
  x.lstat < 4096 → ∃ w, bitsOf w 63 56 = (if x.skipLr = true then 4 else if x.skipTmax = true then 5 else 3) ∧
    ladderFail c s = deliverZero x.it x.key.psa w (tallyDev 19 1 (count F.DEC_CNT_UNC_COUNT 0 (freeCtx c s)))

/-- For a function that is there and not in reset, with Memory Space Enable 0 or in D3hot once the request has woken the
block: a read of BAR4 memory or of BAR0 completes with Unsupported Request (the completion leaves while the link is up and
not frozen), and each posted write (the doorbells, the controller registers, the CMB, an MSI-X mask, a register of BAR0 or
BAR4) has the effect of a dropped request at its address and length whatever data it carries: the Unsupported Request bit of
that function's uncorrectable status is set, and no memory and no queue of commands changes. (R294) -/
def Obligations.DisabledMemorySpace : Prop :=
  ∀ (f : Fin 64) (s u : State), deaf s = false → u = inbound s → fnOn u f.val = true → u.cpr.perst = false → (fnr u f.val).resetting = false →
  fld F.CFG_PSTATE f.val u = 3 ∨ (if f.val = 0 then flag F.CFG_MSE 0 u else flag F.VF_MSE 0 u) = false →
  (∀ off n, exec (.cmbRead f off n) s = .next (barDrop f.val false (bar2 u f.val + off.toNat) n.val u)) ∧
  (∀ a n, hostSpace f.val a = 2 → exec (.readClear (.host f) a n) s = .next (barDrop f.val false (bar0 u f.val + a % 0x10000) n u)) ∧
  (∀ a n, hostSpace f.val a = 3 → exec (.readClear (.host f) a n) s = .next (barDrop f.val false (bar4 u f.val + a % 0x10000) n u)) ∧
  (∀ a n r, r = report 35 (some f.val) 12 1 0 0 u → deaf r = false → hostLinkUp r = true → .ur f.val ∈ (barDrop f.val false a n u).out) ∧
  (∀ q v, exec (.sqTailDoorbell f q v) s = .next (barDrop f.val true (bar0 u f.val + 0x1000 + 8 * q.val) 4 u)) ∧
  (∀ q v, exec (.cqHeadDoorbell f q v) s = .next (barDrop f.val true (bar0 u f.val + 0x1004 + 8 * q.val) 4 u)) ∧
  (∀ w, exec (.ccEnable f w) s = .next (barDrop f.val true (bar0 u f.val + 0x14) 4 u) ∧
    exec (.ccDisable f w) s = .next (barDrop f.val true (bar0 u f.val + 0x14) 4 u) ∧
    exec (.ccShutdown f w) s = .next (barDrop f.val true (bar0 u f.val + 0x14) 4 u) ∧
    exec (.intmsWrite f w) s = .next (barDrop f.val true (bar0 u f.val + 0x0C) 4 u) ∧
    exec (.intmcWrite f w) s = .next (barDrop f.val true (bar0 u f.val + 0x10) 4 u)) ∧
  (∀ v : Fin 2048, exec (.msixUnmask f (some v)) s = .next (barDrop f.val true (bar4 u f.val + 16 * v.val + 12) 4 u)) ∧
  (∀ off bs ep, exec (.cmbWrite f off bs ep) s = .next (barDrop f.val true (bar2 u f.val + off.toNat) bs.length u)) ∧
  (∀ a n d ep, hostSpace f.val a = 2 →
    exec (.registerWrite (.host f) a n d ep) s = .next (barDrop f.val true (bar0 u f.val + a % 0x10000) n u)) ∧
  (∀ a n d ep, hostSpace f.val a = 3 →
    exec (.registerWrite (.host f) a n d ep) s = .next (barDrop f.val true (bar4 u f.val + a % 0x10000) n u)) ∧
  (∀ a n, bit F.UE_STS f.val 20 (barDrop f.val true a n u) = true)

/-- The word built of a surface, zone, track and sector gives back each of them, and stays within 44 bits. (R17) -/
def Obligations.AddressWordFields : Prop :=
  ∀ surf zone track sector : Nat, surf < 16 → zone < 64 → track < 2 ^ 22 → sector < 4096 →
  psaSurf (psaWord surf zone track sector) = surf ∧ psaZone (psaWord surf zone track sector) = zone ∧
  psaTrack (psaWord surf zone track sector) = track ∧ psaSector (psaWord surf zone track sector) = sector ∧
  psaWord surf zone track sector < 2 ^ 44

/-- Each command named answers a next state in which every memory, unit record, queue and output is as it was: only the
register table may differ. They are the ends of timers, permits and requests that only set, clear or count fields of
registers. (R63, R105, R185, R193, R288, R329, R361, R385, R407, R462, R469, R483) -/
def Obligations.CommandsThatWriteRegistersOnly : Prop :=
  (∀ lane s, ∃ t, exec (.laneWakeDone lane) s = .next t ∧ t = { s with regs := t.regs }) ∧
  (∀ lane s, ∃ t, exec (.wpArmedHold lane) s = .next t ∧ t = { s with regs := t.regs }) ∧
  (∀ arm s, ∃ t, exec (.coefSwap arm) s = .next t ∧ t = { s with regs := t.regs }) ∧
  (∀ head s, ∃ t, exec (.wpermRearm head) s = .next t ∧ t = { s with regs := t.regs }) ∧
  (∀ s, ∃ t, exec .aspmL1Entry s = .next t ∧ t = { s with regs := t.regs }) ∧
  (∀ w s, ∃ t, exec (.deckPause w) s = .next t ∧ t = { s with regs := t.regs }) ∧
  (∀ f w s, ∃ t, exec (.deckFnWrite f w) s = .next t ∧ t = { s with regs := t.regs }) ∧
  (∀ s, ∃ t, exec .govOverClear s = .next t ∧ t = { s with regs := t.regs }) ∧
  (∀ w s, ∃ t, exec (.govBgWrite w) s = .next t ∧ t = { s with regs := t.regs }) ∧
  (∀ w s, ∃ t, exec (.lndTrainStart w) s = .next t ∧ t = { s with regs := t.regs }) ∧
  (∀ k w s, ∃ t, exec (.lndRmapCopy k w) s = .next t ∧ t = { s with regs := t.regs }) ∧
  (∀ n w s, ∃ t, exec (.yrdChResume n w) s = .next t ∧ t = { s with regs := t.regs }) ∧
  (∀ chk s, ∃ t, exec (.checkerConditionFalse chk) s = .next t ∧ t = { s with regs := t.regs }) ∧
  (∀ w s, ∃ t, exec (.fltAckWrite w) s = .next t ∧ t = { s with regs := t.regs }) ∧
  (∀ w s, ∃ t, exec (.fltFc3Clear w) s = .next t ∧ t = { s with regs := t.regs }) ∧
  (∀ w s, ∃ t, exec (.fltFc3AckWrite w) s = .next t ∧ t = { s with regs := t.regs }) ∧
  (∀ chk w s, ∃ t, exec (.fltChkLatchClear chk w) s = .next t ∧ t = { s with regs := t.regs }) ∧
  (∀ k w s, ∃ t, exec (.eventPendClear k w) s = .next t ∧ t = { s with regs := t.regs }) ∧
  (∀ slow s, ∃ t, exec (.roSample slow) s = .next t ∧ t = { s with regs := t.regs }) ∧
  (∀ w s, ∃ t, exec (.standbyRequest w) s = .next t ∧ t = { s with regs := t.regs }) ∧
  (∀ w s, ∃ t, exec (.dumpArm w) s = .next t ∧ t = { s with regs := t.regs }) ∧
  (∀ w s, ∃ t, exec (.dumpRestore w) s = .next t ∧ t = { s with regs := t.regs })

/-- Each command named answers a next state, with every operand and in every state, in which nothing differs but the parts of
the state named for it (the decoder pool, the deck, the lanes, the arm links, the scheduler, a yarder channel, management,
the landing, outputs, the register table): every other memory and unit is as it was. The dump page, FENCE_REGION,
UNFENCE_REGION and Flush can report faults of the landing or the media, whose effects reach other units, so their clauses
name those too. Where a command of the host also ends STANDBY, or all recovery engines are fenced, or a fence register is
written by another master, the clause says so as its condition. (R123, R149, R172, R307, R323, R328, R331, R336, R340, R348,
R357, R506) -/
def Obligations.CommandsThatStayInTheirUnit : Prop :=
  (∀ arm s, ∃ t, exec (.wkillRelease arm) s = .next t ∧ t = { s with regs := t.regs, out := t.out, links := t.links, lanes := t.lanes, wops := t.wops, heads := t.heads }) ∧
  (∀ w s, fabOff s = false → ∃ t, exec (.vfEnable w) s = .next t ∧ t = { s with cpr := t.cpr, out := t.out, regs := t.regs }) ∧
  (∀ w s, ∃ t, exec (.lndFillGo w) s = .next t ∧ t = { s with land := t.land, landEra := t.landEra, lnd := t.lnd, regs := t.regs }) ∧
  (∀ m w s, ∃ t, exec (.lyoloReset m w) s = .next t ∧ t = { s with cpr := t.cpr }) ∧
  (∀ slot s, ∃ t, exec (.fastDecodeStart slot) s = .next t ∧ t = { s with dec := t.dec }) ∧
  (∀ eng s, ∃ t, exec (.engineWakeDone eng) s = .next t ∧ t = { s with dec := t.dec }) ∧
  (∀ s, drFenced s = false → ∃ t, exec .recoveryJobStart s = .next t ∧ t = { s with dec := t.dec }) ∧
  (∀ ctx s, ∃ t, exec (.ladderTmax ctx) s = .next t ∧ t = { s with dec := t.dec }) ∧
  (∀ eng s, ∃ t, exec (.engineSleep eng) s = .next t ∧ t = { s with dec := t.dec }) ∧
  (∀ f s, ∃ t, exec (.flrReady f) s = .next t ∧ t = { s with deck := t.deck }) ∧
  (∀ s, ∃ t, exec .chokerEntryTake s = .next t ∧ t = { s with deck := t.deck }) ∧
  (∀ slot s, ∃ t, exec (.createIoSq slot) s = .next t ∧ t = { s with deck := t.deck }) ∧
  (∀ slot s, ∃ t, exec (.createIoCq slot) s = .next t ∧ t = { s with deck := t.deck }) ∧
  (∀ slot s, ∃ t, exec (.deleteIoCq slot) s = .next t ∧ t = { s with cpr := t.cpr, deck := t.deck, out := t.out, regs := t.regs }) ∧
  (∀ slot s, ∃ t, exec (.setFeatures slot) s = .next t ∧ t = { s with deck := t.deck }) ∧
  (∀ slot s, ∃ t, exec (.getFeatures slot) s = .next t ∧ t = { s with deck := t.deck }) ∧
  (∀ slot s, ∃ t, exec (.asyncEventRequest slot) s = .next t ∧ t = { s with deck := t.deck }) ∧
  (∀ slot s, ∃ t, exec (.nsAttach slot) s = .next t ∧ t = { s with deck := t.deck }) ∧
  (∀ slot s, ∃ t, exec (.nsDetach slot) s = .next t ∧ t = { s with deck := t.deck }) ∧
  (∀ slot s, ∃ t, exec (.vmSecondaryAssign slot) s = .next t ∧ t = { s with deck := t.deck }) ∧
  (∀ slot s, ∃ t, exec (.vmPrimaryFlex slot) s = .next t ∧ t = { s with deck := t.deck }) ∧
  (∀ slot s, ∃ t, exec (.budgetQuery slot) s = .next t ∧ t = { s with deck := t.deck }) ∧
  (∀ lane decs s, ∃ t, exec (.resyncFound lane decs) s = .next t ∧ t = { s with lanes := t.lanes }) ∧
  (∀ h s, ∃ t, exec (.mctpGetEndpointId h) s = .next t ∧ t = { s with out := t.out }) ∧
  (∀ h ty s, ∃ t, exec (.mctpGetVersionSupport h ty) s = .next t ∧ t = { s with out := t.out }) ∧
  (∀ h s, ∃ t, exec (.mctpGetMessageTypeSupport h) s = .next t ∧ t = { s with out := t.out }) ∧
  (∀ h ty port ctl s, ∃ t, exec (.readNvmeMiDataStructure h ty port ctl) s = .next t ∧ t = { s with out := t.out }) ∧
  (∀ h s, ∃ t, exec (.subsystemHealthPoll h) s = .next t ∧ t = { s with out := t.out }) ∧
  (∀ h first max' s, ∃ t, exec (.controllerHealthPoll h first max') s = .next t ∧ t = { s with out := t.out }) ∧
  (∀ h id port s, ∃ t, exec (.configurationGet h id port) s = .next t ∧ t = { s with out := t.out }) ∧
  (∀ h off len s, ∃ t, exec (.vpdRead h off len) s = .next t ∧ t = { s with out := t.out }) ∧
  (∀ h s, ∃ t, exec (.miUnsupported h) s = .next t ∧ t = { s with out := t.out }) ∧
  (∀ n s, ∃ t, exec (.yrdDoorbell n) s = .next t ∧ t = { s with ychs := t.ychs }) ∧
  (∀ arm s, ∃ t, exec (.unloadPhaseEnd arm) s = .next t ∧ t = { s with arms := t.arms, regs := t.regs }) ∧
  (∀ w s, ∃ t, exec (.cprRetractRel w) s = .next t ∧ t = { s with arms := t.arms, regs := t.regs }) ∧
  (∀ s, ∃ t, exec .blazeWriteStart s = .next t ∧ t = { s with blz := t.blz, regs := t.regs }) ∧
  (∀ s, fabOff s = false → ∃ t, exec .perstDeassert s = .next t ∧ t = { s with cpr := t.cpr, deck := t.deck, regs := t.regs }) ∧
  (∀ speed width flit s, ∃ t, exec (.linkTrained speed width flit) s = .next t ∧ t = { s with cpr := t.cpr, free := t.free, regs := t.regs }) ∧
  (∀ s, ∃ t, exec .aonSleepExit s = .next t ∧ t = { s with cpr := t.cpr, regs := t.regs }) ∧
  (∀ w s, ∃ t, exec (.warmReset w) s = .next t ∧ t = { s with cpr := t.cpr, regs := t.regs }) ∧
  (∀ lane bits s, ∃ t, exec (.syncFound lane bits) s = .next t ∧ t = { s with dec := t.dec, lanes := t.lanes, regs := t.regs }) ∧
  (∀ s, ∃ t, exec .slotGrant s = .next t ∧ t = { s with dec := t.dec, lanes := t.lanes }) ∧
  (∀ w s, drFenced (fenceChange s (busWrite R.DEC_FENCE 0 0 w s)) = false → ∃ t, exec (.decFenceWrite w) s = .next t ∧ t = { s with dec := t.dec, regs := t.regs }) ∧
  (∀ w s, ∃ t, exec (.decBistStart w) s = .next t ∧ t = { s with dec := t.dec, regs := t.regs }) ∧
  (∀ f s, fabOff s = false → ∃ t, exec (.bmeClear f) s = .next t ∧ t = { s with cpr := t.cpr, deck := t.deck, out := t.out, regs := t.regs }) ∧
  (∀ f s, fabOff s = false → ∃ t, exec (.powerStateD3hot f) s = .next t ∧ t = { s with cpr := t.cpr, deck := t.deck, out := t.out, regs := t.regs }) ∧
  (∀ w s, ∃ t, exec (.deckIoEn w) s = .next t ∧ t = { s with deck := t.deck, regs := t.regs }) ∧
  (∀ c w s, ∃ t, exec (.chkPortGo c w) s = .next t ∧ t = { s with deck := t.deck, regs := t.regs }) ∧
  (∀ c w s, ∃ t, exec (.chkPortRel c w) s = .next t ∧ t = { s with deck := t.deck, regs := t.regs }) ∧
  (∀ slot s, ∃ t, exec (.vmSecondaryOnline slot) s = .next t ∧ t = { s with deck := t.deck, regs := t.regs }) ∧
  (∀ slot w s, ∃ t, exec (.txnQuery slot w) s = .next t ∧ t = { s with deck := t.deck, regs := t.regs }) ∧
  (∀ slot s, ∃ t, exec (.setShares slot) s = .next t ∧ t = { s with deck := t.deck, regs := t.regs }) ∧
  (∀ s, ∃ t, exec .geoLoad s = .next t ∧ t = { s with geoImg := t.geoImg, regs := t.regs }) ∧
  (∀ arm s, ∃ t, exec (.discUplinkIdle arm) s = .next t ∧ t = { s with regs := t.regs, out := t.out, links := t.links, lanes := t.lanes, wops := t.wops, heads := t.heads }) ∧
  (∀ c m w s, m ≠ .cp c → exec (.ffenceInval c m w) s = .next s) ∧
  (∀ w s, ∃ t, exec (.deckAdminEn w) s = .next t ∧ t = { s with locked := t.locked, regs := t.regs }) ∧
  (∀ w s, ∃ t, exec (.cfgLock w) s = .next t ∧ t = { s with locked := t.locked, regs := t.regs }) ∧
  (∀ h op eid s, ∃ t, exec (.mctpSetEndpointId h op eid) s = .next t ∧ t = { s with mgt := t.mgt, out := t.out }) ∧
  (∀ w s, ∃ t, exec (.wdtKick w) s = .next t ∧ t = { s with mgt := t.mgt, regs := t.regs }) ∧
  (∀ w s, ∃ t, exec (.fuseBurn w) s = .next t ∧ t = { s with mgt := t.mgt, regs := t.regs }) ∧
  (∀ f v s, fabOff s = false → memEnabled (inbound s) f.val = true → ∃ t, exec (.msixUnmask f v) s = .next t ∧ t = { s with cpr := t.cpr, out := t.out, regs := t.regs }) ∧
  (∀ r s, ∃ t, exec (.eventClaim r) s = .next t ∧ t = { s with out := t.out, regs := t.regs }) ∧
  (∀ s, ∃ t, exec .spmAtSpeed s = .next t ∧ t = { s with regs := t.regs, sched := t.sched }) ∧
  (∀ s, ∃ t, exec .itemUrgent s = .next t ∧ t = { s with dec := t.dec, regs := t.regs, sched := t.sched }) ∧
  (∀ s, ∃ t, exec .govDerateUpdate s = .next t ∧ t = { s with dec := t.dec, regs := t.regs, sched := t.sched }) ∧
  (∀ s, ∃ t, exec .tallyHandshakeReq s = .next t ∧ t = { s with regs := t.regs, sched := t.sched }) ∧
  (∀ s, ∃ t, exec .tallyHandshakeApply s = .next t ∧ t = { s with regs := t.regs, sched := t.sched }) ∧
  (∀ lane s, ∃ t, exec (.blockLate lane) s = .next t ∧ t = { s with heads := t.heads, regs := t.regs, wops := t.wops }) ∧
  (∀ arm s, ∃ t, exec (.heatHold arm) s = .next t ∧ t = { s with heads := t.heads, regs := t.regs, wops := t.wops }) ∧
  (∀ lane lead s, ∃ t, exec (.writeGateOpen lane lead) s = .next t ∧ t = { s with heads := t.heads, lanes := t.lanes, links := t.links, regs := t.regs, syns := t.syns, wops := t.wops }) ∧
  (∀ ok ecc s, ∃ t, exec (.dumpPageDone ok ecc) s = .next t ∧ t = { s with regs := t.regs, free := t.free, out := t.out, sram := t.sram, nor := t.nor, mirror := t.mirror, land := t.land, landEra := t.landEra, links := t.links, lanes := t.lanes, wops := t.wops, dec := t.dec, arms := t.arms, heads := t.heads, spm := t.spm, sched := t.sched, spr := t.spr, deck := t.deck, cpr := t.cpr, lnd := t.lnd, ychs := t.ychs, blz := t.blz, flt := t.flt, cfg := t.cfg }) ∧
  (∀ f msix msi intxOff s, fabOff s = false → ∃ t, exec (.intModeChange f msix msi intxOff) s = .next t ∧ t = { s with cpr := t.cpr, deck := t.deck, out := t.out, regs := t.regs }) ∧
  (∀ f q s, ∃ t, exec (.sqEntryFetched f q) s = .next t ∧ t = { s with cpr := t.cpr, deck := t.deck, out := t.out, regs := t.regs }) ∧
  (∀ slot s, ∃ t, exec (.getLogPage slot) s = .next t ∧ t = { s with cpr := t.cpr, deck := t.deck, out := t.out, regs := t.regs }) ∧
  (∀ slot s, ∃ t, exec (.identify slot) s = .next t ∧ t = { s with cpr := t.cpr, deck := t.deck, out := t.out, regs := t.regs }) ∧
  (∀ slot s, ∃ t, exec (.tallyRead slot) s = .next t ∧ t = { s with cpr := t.cpr, deck := t.deck, out := t.out, regs := t.regs }) ∧
  (∀ slot s, ∃ t, exec (.blazeRead slot) s = .next t ∧ t = { s with cpr := t.cpr, deck := t.deck, out := t.out, regs := t.regs }) ∧
  (∀ slot s, ∃ t, exec (.salvageStatus slot) s = .next t ∧ t = { s with cpr := t.cpr, deck := t.deck, out := t.out, regs := t.regs }) ∧
  (∀ slot s, ∃ t, exec (.fenceQuery slot) s = .next t ∧ t = { s with cpr := t.cpr, deck := t.deck, out := t.out, regs := t.regs }) ∧
  (∀ slot s, ∃ t, exec (.fenceRegion slot) s = .next t ∧ t = { s with regs := t.regs, free := t.free, out := t.out, sram := t.sram, nor := t.nor, mirror := t.mirror, land := t.land, landEra := t.landEra, links := t.links, lanes := t.lanes, wops := t.wops, dec := t.dec, arms := t.arms, heads := t.heads, spm := t.spm, sched := t.sched, spr := t.spr, deck := t.deck, cpr := t.cpr, lnd := t.lnd, ychs := t.ychs, blz := t.blz, flt := t.flt, cfg := t.cfg }) ∧
  (∀ slot ok s, ∃ t, exec (.unfenceRegion slot ok) s = .next t ∧ t = { s with regs := t.regs, free := t.free, out := t.out, sram := t.sram, nor := t.nor, mirror := t.mirror, land := t.land, landEra := t.landEra, links := t.links, lanes := t.lanes, wops := t.wops, dec := t.dec, arms := t.arms, heads := t.heads, spm := t.spm, sched := t.sched, spr := t.spr, deck := t.deck, cpr := t.cpr, lnd := t.lnd, ychs := t.ychs, blz := t.blz, flt := t.flt, cfg := t.cfg }) ∧
  (∀ slot s, ∃ t, exec (.sensorRead slot) s = .next t ∧ t = { s with cpr := t.cpr, deck := t.deck, out := t.out, regs := t.regs }) ∧
  (∀ slot s, ∃ t, exec (.flush slot) s = .next t ∧ t = { s with regs := t.regs, free := t.free, out := t.out, sram := t.sram, nor := t.nor, mirror := t.mirror, land := t.land, landEra := t.landEra, links := t.links, lanes := t.lanes, wops := t.wops, dec := t.dec, arms := t.arms, heads := t.heads, spm := t.spm, sched := t.sched, spr := t.spr, deck := t.deck, cpr := t.cpr, lnd := t.lnd, ychs := t.ychs, blz := t.blz, flt := t.flt, cfg := t.cfg }) ∧
  (∀ f v s, ∃ t, exec (.coalesceTimeout f v) s = .next t ∧ t = { s with cpr := t.cpr, deck := t.deck, out := t.out, regs := t.regs })

/-- SPR_GEO_CTL.LOAD with no load running and no media in flight sets BUSY and takes the image at SPR_GEO_BASE; its end leaves
BUSY 0 and either makes the checked geometry the active one or records the first failed check; a write of the head or arm
fences is followed by the change of reachability, and an arm newly fenced unloads, and items are planned again. Where an
update is written out, everything else of the state is unchanged. (R28, R29, R31, R33, R34, R36, R71, R188, R205, R398) -/
def Obligations.GeometryLoadAndFences : Prop :=
  (∀ (s : State), flag F.SPR_GEO_CTL_BUSY 0 s = false → mediaInFlight s = false →
    exec .geoLoad s = .next ({ put F.SPR_GEO_CTL_BUSY 0 1 s with geoImg := some (fld F.SPR_GEO_BASE_ADDR 0 s * 64) })) ∧
  (∀ (base : Nat) (s : State), s.geoImg = some base →
    let u := put F.SPR_GEO_STAT_ERR 0 (checkImage s base).1 (put F.SPR_GEO_CTL_BUSY 0 0 { s with geoImg := none });
    exec .geoLoadDone s = .next (match (checkImage s base).2 with | none => u | some g => loadedGeometry u (put
                                                                                F.SPR_GEO_STAT_GEN 0 (g.gen % 65536) (put
                                                                                F.SPR_GEO_CTL_ACTIVE 0 1
                                                                                { u with geo := some g })))) ∧
  (∀ (k : Fin 2) (w : BusW) (s : State),
    exec (.sprFenceHeadWrite k w) s = .next (replan (eligibilityChanged s (busWrite R.SPR_FENCE_HEAD k 0 w s)))) ∧
  (∀ (w : BusW) (s : State),
    exec (.sprFenceArmWrite w) s = .next (replan (upTo 4 (fun a t => if !armFenced s a && armFenced t a then unloadByMode a t
      else t) (eligibilityChanged s (busWrite R.SPR_FENCE_ARM 0 0 w s)))))

/-- EXEC on an UP link with nothing unacknowledged, and no pending change of a head whose servo gate is open to WRITE or
SENSE, is sent and makes every pending personality change; a STAT, NAK or RDATA with a bad CRC only counts; a good STAT on a
link that is UP takes its flags, faults, acknowledgement and MUA_MISS has writer faults and personalities judged, sends a
head left in SENSE back to READ and lets waiting changes go; a NAK counts, acknowledges, resends the rest and lets waiting
changes go; the reply to a REGR access ends it; an ACK timeout resends. Eight code errors in a row or no STAT take an UP
link down and have it judged, fewer are counted; WKILLn_N rises when no condition holds it; ENABLE from 0 to 1 and RETRAIN
start discovery; ENABLE 0 turns the link OFF; uplink IDLE sends the four discovery reads; no uplink makes it ABSENT; a
failed link is retrained at most three times. START of an idle sense measurement records surface, source and count and asks
for the SENSE personality of the pair; its end, once every gap has its conversions on an UP link and outside a servo gate,
gives the mean rounded down, sets DONE, raises EV068 + a and sends the pair back to READ; GO of a register read sends REGR,
and a write to a discovery register is refused with FAIL. (R46, R47, R51, R56, R57, R60, R62, R63, R68, R72, R73, R74) -/
def Obligations.ArmLinks : Prop :=
  (∀ (a : Fin 4) (s : State), linkUp s a = true → (link s a).unacked = [] → (link s a).pend.any (fun e => e.2.pers != 0 &&
    (head s (16 * a + e.1)).gate) = false →
    exec (.exec a) s = .next (wantSend a (wkillFall a (modeFailed a [] (each (link s a).pend (fun e v => persChange (16 * a +
      e.1) e.2.pers none v) (emit (.link a [.exec]) (setLink a { link s a with pend := [] } s))))))) ∧
  (∀ (a : Fin 4) (f : StatFrame) (s : State), linkRx s a = true → crcOk (statBytes f) f.crc = false →
    exec (.statReceived a f) s = .next (count F.LANE_ALK_ERR_CRC a s)) ∧
  (∀ (a : Fin 4) (f : StatFrame) (s : State), linkUp s a = true → crcOk (statBytes f) f.crc = true →
    let u := statTake a f s;
    (link u a).disc = .none → linkUp u a = true →
    exec (.statReceived a f) s = .next (wantSend a (servoStat a (f.flags.toNat.testBit 1) (f.flags.toNat.testBit 2) (senseIdle
      a (persCheck a f.pers.toNat (corrective a f.pers.toNat (wfaultCheck a f.wfault.toNat u))))))) ∧
  (∀ (a : Fin 4) (q : BitVec 8) (x : BitVec 16) (s : State), linkRx s a = true → crcOk [0x83, q] x = true →
    exec (.nakReceived a q x) s = .next (wantSend a (resendAll a (ackFrames a q.toNat (count F.LANE_ALK_ERR_NAK a s))))) ∧
  (∀ (a : Fin 4) (q : BitVec 8) (x : BitVec 16) (y : BitVec 16) (z : BitVec 16) (s : State), linkUp s a = true → crcOk ([0x81,
    q] ++ bytesOf 2 x.toNat ++ bytesOf 2 y.toNat) z = true → (link s a).disc = .none → (link s a).regSeq = some q.toNat → flag
    F.LANE_ALK_REG_CMD_READ a s = true →
    exec (.rdataReceived a q x y z) s = .next (put F.LANE_ALK_REG_CMD_GO a 0 (put F.LANE_ALK_REG_DATA_DATA a y.toNat (setLink
      a { link s a with regSeq := none } s)))) ∧
  (∀ (a : Fin 4) (s : State), linkRx s a = true → (link s a).unacked.isEmpty = false →
    exec (.ackTimeout a) s = .next (resendAll a s)) ∧
  (∀ (a : Fin 4) (q : BitVec 8) (x : BitVec 16) (s : State), linkRx s a = true → crcOk [0x83, q] x = false →
    exec (.nakReceived a q x) s = .next (count F.LANE_ALK_ERR_CRC a s)) ∧
  (∀ (a : Fin 4) (q : BitVec 8) (x : BitVec 16) (y : BitVec 16) (z : BitVec 16) (s : State), linkRx s a = true → crcOk ([0x81,
    q] ++ bytesOf 2 x.toNat ++ bytesOf 2 y.toNat) z = false →
    exec (.rdataReceived a q x y z) s = .next (count F.LANE_ALK_ERR_CRC a s)) ∧
  (∀ (a : Fin 4) (n : Nat) (s : State), linkUp s a = true →
    let u := countN F.LANE_ALK_ERR_CODE a n s;
    linkUp u a = true → 8 ≤ n →
    exec (.uplinkCodeErrors a n) s = .next (judgeLink a (linkDown a u))) ∧
  (∀ (a : Fin 4) (s : State), linkUp s a = true → exec (.statTimeout a) s = .next (judgeLink a (linkDown a s))) ∧
  (∀ (a : Fin 4) (s : State), wkillCond s a = false →
    exec (.wkillRelease a) s = .next (wantSend a (put F.LANE_ALK_STAT_WKILL a 0 s))) ∧
  (∀ (a : Fin 4) (w : BusW) (s : State), wrote1 0 w = true → flag F.LANE_ALK_CTL_ENABLE a s = false → armUp (busWrite
    R.LANE_ALK_CTL a 0 w s) a = true →
    let u := startDiscovery a false (busWrite R.LANE_ALK_CTL a 0 w s);
    exec (.linkEnable a w) s = .next (setLink a { link u a with retrain := true } u)) ∧
  (∀ (a : Fin 4) (w : BusW) (s : State), wrote0 0 w = true →
    exec (.linkDisable a w) s = .next (condFalls (128 + a) (wkillFall a (servoLinkDown a (setLink a
      { link (clearFrames a (setLinkState a 0 (dropWpermArm a (busWrite R.LANE_ALK_CTL a 0 w s)))) a with disc := .none, auto
                                                                                                            := false, autos :=
                                                                                                            0 } (clearFrames a
      (setLinkState a 0 (dropWpermArm a (busWrite R.LANE_ALK_CTL a 0 w s))))))))) ∧
  (∀ (a : Fin 4) (w : BusW) (s : State), wrote1 2 w = true → fld F.LANE_ALK_STAT_STATE a (busWrite R.LANE_ALK_CTL a 0 w s) ≠ 1
    → flag F.LANE_ALK_CTL_ENABLE a (busWrite R.LANE_ALK_CTL a 0 w s) = true → armUp (busWrite R.LANE_ALK_CTL a 0 w s) a = true
    →
    exec (.linkRetrain a w) s = .next (startDiscovery a true (busWrite R.LANE_ALK_CTL a 0 w s))) ∧
  (∀ (a : Fin 4) (s : State), (link s a).disc = .clock →
    exec (.discUplinkIdle a) s = .next (each [0, 1, 2, 3] (fun r v => sendFrame a (.regr r) v) (setLink a
      { link s a with disc := .regs (nextSeq s a) [] } s))) ∧
  (∀ (a : Fin 4) (s : State), (link s a).disc = .clock → exec (.discAbsent a) s = .next (discFail a 4 s)) ∧
  (∀ (a : Fin 4) (s : State), (link s a).auto = true → (link s a).autos < 3 → (fld F.LANE_ALK_STAT_STATE a s = 3 ∨ fld
    F.LANE_ALK_STAT_STATE a s = 4 ∨ fld F.LANE_ALK_STAT_STATE a s = 5) → flag F.LANE_ALK_CTL_AUTO_RETRAIN a s = true → flag
    F.LANE_ALK_CTL_ENABLE a s = true → armUp s a = true →
    exec (.autoRetrain a) s = .next (startDiscovery a true (setLink a { link s a with autos := (link s a).autos + 1 } s))) ∧
  (∀ (a : Fin 4) (n : Nat) (s : State), linkRx s a = true → n < 8 →
    exec (.uplinkCodeErrors a n) s = .next (countN F.LANE_ALK_ERR_CODE a n s)) ∧
  (∀ (a : Fin 4) (w : BusW) (s : State), flag F.LANE_ALK_SNS_START a s = false → wrote1 31 w = true →
    let u := busWrite R.LANE_ALK_SNS a 0 w s;
    let m := (⟨fld F.LANE_ALK_SNS_SURF a u, fld F.LANE_ALK_SNS_SRC a u, fld F.LANE_ALK_SNS_COUNT a u, 0⟩ : Sense);
    exec (.senseStart a w) s = .next (askPers (16 * a + sensePair m) 2 m.src (setLink a { link u a with sense := some m } (put
      F.LANE_ALK_SNS_START a 1 u)))) ∧
  (∀ (a : Fin 4) (xs : List (List (BitVec 12))) (m : Sense) (s : State), (link s a).sense = some m → xs.flatten.length =
    m.count + 1 → xs.length = m.wins → linkUp s a = true → persOf s (16 * a + sensePair m) = 2 → (head s (16 * a + sensePair
    m)).gate = false →
    exec (.senseDone a xs) s = .next (raiseEvent (68 + a) (sendFrame a (.mode (2 ^ sensePair m) 0 0) (put
      F.LANE_ALK_SNS_RESULT a (xs.flatten.foldl (fun n x => n + x.toNat) 0 / (m.count + 1)) (put F.LANE_ALK_SNS_DONE a 1 (put
      F.LANE_ALK_SNS_START a 0 (setLink a { link s a with sense := none } s))))))) ∧
  (∀ (a : Fin 4) (w : BusW) (s : State), flag F.LANE_ALK_REG_CMD_GO a s = false → wrote1 31 w = true → flag
    F.LANE_ALK_REG_CMD_READ a (busWrite R.LANE_ALK_REG_CMD a 0 w s) = false → fld F.LANE_ALK_REG_CMD_ADDR a (busWrite
    R.LANE_ALK_REG_CMD a 0 w s) < 16 →
    exec (.preampRegAccess a w) s = .next (put F.LANE_ALK_REG_CMD_FAIL a 1 (busWrite R.LANE_ALK_REG_CMD a 0 w s))) ∧
  (∀ (a : Fin 4) (w : BusW) (s : State), flag F.LANE_ALK_REG_CMD_GO a s = false → wrote1 31 w = true →
    let u := busWrite R.LANE_ALK_REG_CMD a 0 w s;
    flag F.LANE_ALK_REG_CMD_READ a u = true → linkUp u a = true →
    exec (.preampRegAccess a w) s = .next (sendFrame a (.regr (fld F.LANE_ALK_REG_CMD_ADDR a u)) (put F.LANE_ALK_REG_CMD_GO a
      1 (put F.LANE_ALK_REG_CMD_FAIL a 0 u))))

/-- A lane asleep wakes when asked, is READY when its waking is done, goes back to SLEEP or PARK after its hold time, is
calibrated from SLEEP or PARK; calibration stores the trims of the sub-converters and the largest residuals, and residuals
within limits end it well; a valid profile in SRAM is loaded. TUNE with an active geometry tunes the arm's synthesizer to
the zone written; a lock with no retune waiting sets LOCKED, ends TUNE and frees the reads that wait for that zone, with one
waiting the next tune starts; a lock lost is handled as R84 says; a wait that runs out fails every waiting read whose zone
is not locked. (R79, R81, R82, R83, R84, R86, R101, R102, R103, R105, R120, R125) -/
def Obligations.LanesAndSynthesizers : Prop :=
  (∀ (n : Fin 64) (s : State), fld F.LANE_STAT_STATE n s = 3 → (lane s n).op = none → fld F.LANE_CTL_PWR n (put
    F.LANE_STAT_STATE n 4 s) = 1 →
    exec (.laneWake n) s = .next (govLimits (put F.LANE_STAT_STATE n 4 s))) ∧
  (∀ (n : Fin 64) (s : State), fld F.LANE_STAT_STATE n s = 4 →
    exec (.laneWakeDone n) s = .next (put F.LANE_STAT_STATE n 5 s)) ∧
  (∀ (n : Fin 64) (s : State), fld F.LANE_STAT_STATE n s = 5 → fld F.LANE_CTL_PWR n s = 0 → armParked s (armOf n) = false →
    exec (.laneReadyHold n) s = .next (govLimits (put F.LANE_STAT_STATE n 3 s))) ∧
  (∀ (n : Fin 64) (s : State), fld F.LANE_STAT_STATE n s = 5 → fld F.LANE_CTL_PWR n s = 0 → armParked s (armOf n) = true →
    exec (.laneReadyHold n) s = .next (govLimits (setLane n { lane s n with fmem := 0 } (put F.LANE_STAT_STATE n 1 s)))) ∧
  (∀ (n : Fin 64) (s : State), (fld F.LANE_STAT_STATE n s = 1 ∨ fld F.LANE_STAT_STATE n s = 3) →
    exec (.laneCalRequest n) s = .next (govLimits (put F.LANE_STAT_STATE n 2 (put F.LANE_CTL_CAL n 1 s)))) ∧
  (∀ (n : Fin 64) (l : List SubCal) (s : State), fld F.LANE_STAT_STATE n s = 2 → armParked s (armOf n) = false →
    let o := l.foldl (fun m c => max m c.resOfs) 0;
    let k := l.foldl (fun m c => max m c.resSkew) 0;
    o ≤ 64 → k ≤ 100 →
    exec (.laneCalDone n l) s = .next (govLimits (put F.LANE_STAT_STATE n 3 (put F.LANE_STAT_CAL_FAIL n 0 (put F.LANE_CTL_CAL
      n 0 (put F.LANE_ADC_OFS_MAX n (min 255 o) (put F.LANE_ADC_SKEW_MAX n (min 255 k) (setLane n
      { lane s n with trims := l.map (·.trim) } s)))))))) ∧
  (∀ (n : Fin 64) (z : Nat) (b : Nat) (s : State), (lane s n).loading = true → (lane s n).wakeFor = some z → b = fld
    F.LANE_PROF_BASE_ADDR 0 s * 4096 + (n * 64 + z) * 128 → inSram b 128 = true → (sramNat s (b + 0x1C) 4).testBit 0 = true →
    exec (.profileLoadDone n) s = .next (loadProfile n z b (setLane n { lane s n with loading := false, wakeFor := none } s))) ∧
  (∀ (n : Fin 64) (l : List SubCal) (s : State), fld F.LANE_STAT_STATE n s = 2 →
    let o := l.foldl (fun m c => max m c.resOfs) 0;
    let k := l.foldl (fun m c => max m c.resSkew) 0;
    64 < o →
    exec (.laneCalDone n l) s = .next (report (64 + n) none 8 0 0 0 (raiseEvent n
      (let u := put F.LANE_STAT_STATE n 1 (put F.LANE_STAT_CAL_FAIL n 1 (put F.LANE_CTL_CAL n 0 (put F.LANE_ADC_OFS_MAX n (min
         255 o) (put F.LANE_ADC_SKEW_MAX n (min 255 k) (setLane n { lane s n with trims := l.map (·.trim) } s))))); govLimits
         (setLane n { lane u n with fmem := 0 } u))))) ∧
  (∀ (a : Fin 4) (w : BusW) (s : State), wrote1 6 w = true → s.geo.isSome = true →
    exec (.synTune a w) s = .next (synTuneTo a (fld F.LANE_SYN_CTL_ZONE a (busWrite R.LANE_SYN_CTL a 0 w s)) (put
      F.LANE_SYN_CTL_TUNE a 1 (busWrite R.LANE_SYN_CTL a 0 w s)))) ∧
  (∀ (a : Fin 4) (z : Nat) (s : State), fld F.LANE_SYN_STAT_STATE a s = 1 → (syn s a).next = some z →
    exec (.synLocked a) s = .next (synBegin a z s)) ∧
  (∀ (a : Fin 4) (s : State), fld F.LANE_SYN_STAT_STATE a s = 1 → (syn s a).next = none → (syn s a).waiting = [] →
    exec (.synLocked a) s = .next (setSyn a { syn s a with waiting := [] } (put F.LANE_SYN_CTL_TUNE a 0 (put
      F.LANE_SYN_STAT_STATE a 2 s)))) ∧
  (∀ (a : Fin 4) (s : State), fld F.LANE_SYN_STAT_STATE a s = 2 →
    exec (.synLockLost a) s = .next (reportAt (fld F.FLT_STAT_PENDING 0 s) (fld F.FLT_FC3_PEND_PEND 0 s) false (140 + a) none
      8 0 0 5 (raiseEvent (72 + a) (each (armHeads a) (fun n v => if fld F.LANE_STAT_STATE n v = 6 then (if (lane v n).phase
      == .idle then readOpStop n v else readOpFail n 5 v) else v) (permitFall a (put F.LANE_SYN_STAT_STATE a 1 s)))))) ∧
  (∀ (a : Fin 4) (s : State), wop s a = none → (syn s a).waiting = [] →
    exec (.synWaitTimeout a) s = .next (setSyn a { syn s a with waiting := [] } s)) ∧
  (∀ (a : Fin 4) (n : Nat) (o : ReadOp) (s : State), (syn s a).waiting = [n] → (lane s n).op = some o → synAt s a o.zone =
    false → wop (readOpFail n 5 (setSyn a { syn s a with waiting := [] } s)) a = none →
    exec (.synWaitTimeout a) s = .next (readOpFail n 5 (setSyn a { syn s a with waiting := [] } s))) ∧
  (∀ (a : Fin 4) (o : WriteOp) (s : State), (syn s a).waiting = [] → wop s a = some o → o.gated = false → o.ending = false →
    synAt s a o.zone = false →
    exec (.synWaitTimeout a) s = .next (cutWrite a (fun _ => 3) (setSyn a { syn s a with waiting := [] } s)))

/-- A read gate opens on an active lane whose synthesizer stands at the zone, with the gain and the frequency in force; the
sync mark found at the last bit given gives the sector the lowest free slot, or makes it wait for one; after a servo gap the
resync field is matched against the pattern and a miss is noted at the gap; a freed slot goes to the first waiting lane; a
sector ends with its result and the next is awaited, or the operation ends. A servo gate opens on a head whose sampler is
powered: a sector being read or written is split at its position, the head goes to READ, and SERVO is set; a head without
sampler power has none; when it closes, a read notes the gap and goes on after it, and a head that was writing is asked back
to WRITE with the sector's next field placed after the gate. (R46, R78, R83, R85, R86, R87, R90, R91, R115, R116, R149,
R176) -/
def Obligations.SectorReadAndServoGates : Prop :=
  (∀ (n : Fin 64) (o : ReadOp) (s : State), (lane s n).op = some o → (lane s n).phase = .idle → o.ending = false → o.failed =
    false → fld F.LANE_STAT_STATE n s = 6 → (lane s n).loading = false → persOf s n = 0 → heatHolds s n = false → synAt s
    (armOf n) o.zone = true →
    exec (.readGate n) s = .next (gateStart n o false s)) ∧
  (∀ (n : Fin 64) (l : List BitIn) (k : Nat) (s : State),
    let c := chanCfg s n ((lane s n).op.map (·.psa) |>.getD 0);
    let h := chanRun c false l (lane s n).chan;
    let p := l.length - acqEnd c - 1;
    (lane s n).phase = .acquire → h.wide = false → syncPos s n c l = some p → lowestFree s.dec.slots 128 = some k →
      s.dec.waitList = [] →
    exec (.syncFound n l) s = .next (takeSlot k n (chanRegs n h (setLane n
      { lane s n with phase := .data, syncOfs := some p, chan := chanSync h } s)))) ∧
  (∀ (n : Fin 64) (l : List BitIn) (s : State),
    let c := chanCfg s n ((lane s n).op.map (·.psa) |>.getD 0);
    let h := chanRun c false l (lane s n).chan;
    let p := l.length - acqEnd c - 1;
    (lane s n).phase = .acquire → h.wide = false → syncPos s n c l = some p → lowestFree s.dec.slots 128 = none →
    ∃ t, exec (.syncFound n l) s = .next t ∧ (lane t n).phase = .data ∧ (lane t n).waitSlot = true ∧ (lane t n).syncOfs = some
      p ∧ t.dec.waitList = s.dec.waitList ++ [n.val] ∧ t = { s with lanes := t.lanes, dec := t.dec, regs := t.regs }) ∧
  (∀ (n : Fin 64) (o : ReadOp) (l : List Bool) (s : State), (lane s n).phase = .resync → (lane s n).op = some o → (head s
    n).gate = false →
    exec (.resyncFound n l) s = .next (setLane n { lane s n with phase := .data, op := some
                                                                   { o with missed := if resyncHit s n l || o.missed.isSome
                                                                              then o.missed else some (((lane s
                                                                              n).gaps.getLast?).map (·.1) |>.getD 0) } } s)) ∧
  (∀ (ns : List Nat) (n : Nat) (k : Nat) (s : State), s.dec.waitList = n :: ns → lowestFree s.dec.slots 128 = some k →
    exec .slotGrant s = .next (takeSlot k n { s with dec := { s.dec with waitList := ns } })) ∧
  (∀ (n : Fin 64) (o : ReadOp) (r : SectorRead) (s : State), (lane s n).op = some o → (lane s n).phase = .data → 2 ≤ o.left →
    o.ending = false → (sectorRecord n (lane s n) o r s).2 ≠ 7 → (sectorRecord n (lane s n) o r s).2 ≠ 4 → linkUp
    (sectorRecord n (lane s n) o r s).1 (armOf n) = true →
    exec (.sectorReadEnd n r) s = .next ((sectorRecord n (lane s n) o r s).1)) ∧
  (∀ (n : Fin 64) (o : ReadOp) (r : SectorRead) (s : State), (lane s n).op = some o → (lane s n).phase = .data → o.left ≤ 1 →
    exec (.sectorReadEnd n r) s = .next (readOpStop n (sectorRecord n (lane s n) o r s).1)) ∧
  (∀ (h : Fin 64) (p : Int) (q : List (BitVec 8)) (s : State), samplerOn s h = true →
    let u := readForGate h q (splitRead h p (splitWrite h p s));
    exec (.servoGateOpen h p q) s = .next (setHead h { head u h with gate := true, gateAt := p } (put F.LANE_STAT_SERVO h 1
      u))) ∧
  (∀ (h : Fin 64) (n : Nat) (s : State), (head s h).gate = true → hst s h = 0 →
    let v := setHead h { head s h with gate := false } (put F.LANE_STAT_SERVO h 0 s);
    (lane s h).phase = .resync → wop s (armOf h) = none →
    exec (.servoGateClose h n) s = .next (wantSend (armOf h) (setLane h
      { lane s h with sp := splitOn v h ((head s h).gateAt + n) (lane s h).sp.next, gaps := (lane s h).gaps ++ [((lane s
                        h).sp.next - headBits v h, n)] } v))) ∧
  (∀ (h : Fin 64) (n : Nat) (o : WriteOp) (x : HeadWr) (s : State), (head s h).gate = true → hst s h = 0 →
    let v := setHead h { head s h with gate := false } (put F.LANE_STAT_SERVO h 0 s);
    (lane s h).phase = .idle → wop s (armOf h) = some o → o.ending = false → Tab.get? o.heads h.val = some x → x.sgate = true
      → x.split = true →
    exec (.servoGateClose h n) s = .next (wantSend (armOf h) (askPers h 1 0 (setWop (armOf h)
      { o with heads := Tab.put o.heads h.val { x with sp := splitOn v h ((head s h).gateAt + n) x.sp.next } } v)))) ∧
  (∀ (h : Fin 64) (n : Nat) (s : State), (head s h).gate = false → exec (.servoGateClose h n) s = .next (s)) ∧
  (∀ (h : Fin 64) (p : Int) (q : List (BitVec 8)) (s : State), samplerOn s h = false →
    exec (.servoGateOpen h p q) s = .next (s))

/-- A write profile that does not load cuts the operation; an armed head rests at the end of its hold; a fed block waits with
its codeword, poison, generation and check word; a block that is late at a sector boundary cuts the operation, or is
remembered; the HEAT frame names the heads and codes and clears their preheat; HEAT_HOLD holds the operation once and then
cuts it; a write gate opens with every permit of every head of the operation, and writes nothing before the sector's own
fields; the end of a sector puts its preamble, sync mark, codeword, postamble and gap pattern on the medium with their
precompensation, and the last sector closes the gate with a MODE to READ; WRITE_OP_END acts when every head has its status.
(R108, R110, R111, R112, R115, R118, R122, R123, R127, R128, R129, R144) -/
def Obligations.WriteOperationProgress : Prop :=
  (∀ (a : Fin 4) (o : WriteOp) (p : WriteOp) (s : State), wop s a = some o → o.ending = false →
    let n := o.heads.filter (fun e => !e.2.profOk);
    let u := each n (fun e v => loadWrProfile a o.zone e.1 e.2 v) s;
    n.isEmpty = false → wop u a = some p → p.heads.all (fun e => e.2.profOk) = false →
    exec (.wpProfileLoadDone a) s = .next (cutWrite a (fun h => if ((Tab.get? p.heads h).map (·.profOk)).getD true then 1 else
      4) u)) ∧
  (∀ (n : Fin 64) (s : State), fld F.WP_STAT_STATE n s = 2 → wop s (armOf n) = none →
    exec (.wpArmedHold n) s = .next (put F.WP_STAT_STATE n 1 s)) ∧
  (∀ (n : Fin 64) (l : List Ecc) (o : WriteOp) (x : HeadWr) (m : MemBlk) (s : State), wop s (armOf n) = some o → Tab.get?
    o.heads n.val = some x → feedBlock s o.item (n.val % 16) = some m → o.ending = false → x.status = none → x.late = false →
    (wbuf s n).length < 3 → 1 ≤ x.done + (wbuf s n).length → x.done + (wbuf s n).length < o.count → 2 ≤ fld F.WP_STAT_STATE n
    s →
    let psa := writePsa s o n x (x.done + (wbuf s n).length);
    let q := feedEcc o.item (n.val % 16) l s;
    let d := m.body.take 4096;
    let hm := (m.body.drop 4096).take 64;
    let po := le m.body 0x1040 8 ||| q.1;
    let ck := schkOf psa (blockBytes d hm po (m.wgen + o.gen) 0);
    exec (.sectorFeedDone n l) s = .next (setWbuf n (wbuf s n ++ [⟨psa, d, hm, po, m.wgen + o.gen, ck, codeword o.step psa
      (blockBytes d hm po (m.wgen + o.gen) ck)⟩]) q.2)) ∧
  (∀ (n : Fin 64) (o : WriteOp) (x : HeadWr) (s : State), wop s (armOf n) = some o → Tab.get? o.heads n = some x → o.ending =
    false → x.status = none → wbuf s n = [] →
    exec (.blockLate n) s = .next (cutWrite (armOf n) (fun h => if h = n.val then 2 else 1) s)) ∧
  (∀ (n : Fin 64) (o : WriteOp) (x : HeadWr) (b : InfoBlock) (s : State), wop s (armOf n) = some o → Tab.get? o.heads n = some
    x → o.ending = false → x.status = none → wbuf s n = [b] → x.sgate = true → x.done + 1 < o.count →
    exec (.blockLate n) s = .next (setHeadWr (armOf n) n { x with late := true } s)) ∧
  (∀ (a : Fin 4) (o : WriteOp) (s : State), wop s a = some o →
    let hs := (o.heads.map (·.1)).filter (fun h => flag F.WP_CTL_HEAT_EN h s);
    hs.isEmpty = false → o.ending = false → o.heatAck = false → o.heat = none → linkUp s a = true → (link s a).unacked.length
      < 16 →
    exec (.heatSend a) s = .next (each hs (fun h v => setLane h { lane v h with heatAt := none } v) (sendFrame a (.heat (upTo
      16 (fun f m => if hs.contains (16 * a + f) then putBit m f true else m) 0) ((List.range 16).map (fun f => fld
      F.WP_HEAT_HEAT_WR (16 * a + f) s))) (setWop a { o with heat := some (nextSeq s a) } s)))) ∧
  (∀ (a : Fin 4) (o : WriteOp) (s : State), wop s a = some o → o.ending = false → o.gated = false → o.heatAck = false →
    o.heatFails = 0 →
    exec (.heatHold a) s = .next (setWop a { o with heatFails := 1 } s)) ∧
  (∀ (a : Fin 4) (o : WriteOp) (s : State), wop s a = some o → o.ending = false → o.gated = false → o.heatAck = false →
    o.heatFails ≠ 0 →
    exec (.heatHold a) s = .next (cutWrite a (fun _ => 7) s)) ∧
  (∀ (n : Fin 64) (k : Nat) (o : WriteOp) (x : HeadWr) (s : State), wop s (armOf n) = some o → Tab.get? o.heads n.val = some x
    → o.ending = false → x.status = none → x.sgate = false → x.split = false → synAt s (armOf n) o.zone = true → o.heads.all
    (fun e => gatePermit s e.1) = true → persOf s n = 1 → wkillLow s (armOf n) = false → (head s n).gate = false → (wbuf s
    n).isEmpty = false → o.heatAck = true → o.heads.all (fun e => e.2.profOk) = true → 2 ≤ fld F.WP_STAT_STATE n s →
    exec (.writeGateOpen n k) s = .next (put F.WP_STAT_STATE n 3 (put F.WP_STAT_GATE n 1 (setWop (armOf n)
      { o with gated := true, heads := Tab.put o.heads n { x with sgate := true, split := false, lead := [], hist := [] } }
      s)))) ∧
  (∀ (n : Fin 64) (k : Nat) (o : WriteOp) (x : HeadWr) (b : InfoBlock) (bs : List InfoBlock) (s : State), wop s (armOf n) =
    some o → Tab.get? o.heads n.val = some x → wbuf s n = b :: bs → x.sgate = true → x.split = false → o.ending = false →
    x.done + 1 < o.count → x.late = false →
    let y := x.lead ++ (slotBits s n b.code).drop x.sp.next;
    let r := written (flag F.WP_CTL_PC_EN n s) (rd R.WP_PC n 0 s) x.hist (y ++ pattern (Config.openVal 108 [(k : Int)] %
      4).toNat k);
    exec (.sectorWriteEnd n k) s = .next (setHeadWr (armOf n) n
      { x with done := x.done + 1, sgate := true, status := none, sp := {}, lead := [], hist := r.2, undef := false } (emit
      (.medium n b.psa (mediaBits (o.undef || x.undef) b.psa r.1)) (setWbuf n bs s)))) ∧
  (∀ (a : Fin 4) (o : WriteOp) (s : State), wop s a = some o → o.heads.all (fun e => e.2.status.isSome) = false →
    exec (.writeOpEnd a) s = .next (s)) ∧
  (∀ (n : Fin 64) (k : Nat) (o : WriteOp) (x : HeadWr) (b : InfoBlock) (bs : List InfoBlock) (s : State), wop s (armOf n) =
    some o → Tab.get? o.heads n.val = some x → wbuf s n = b :: bs → x.sgate = true → x.split = false → o.ending = false →
    o.count ≤ x.done + 1 →
    let y := x.lead ++ (slotBits s n b.code).drop x.sp.next;
    let r := written (flag F.WP_CTL_PC_EN n s) (rd R.WP_PC n 0 s) x.hist (y ++ []);
    exec (.sectorWriteEnd n k) s = .next (sendFrame (armOf n) (.mode (2 ^ (n.val % 16)) 0 0) (put F.WP_STAT_GATE n 0
      (setHeadWr (armOf n) n { x with done := x.done + 1, sgate := false, status := some 0, sp := {}, lead := [], hist := r.2,
                                        undef := false } (emit (.medium n b.psa (mediaBits (o.undef || x.undef) b.psa r.1))
      (setWbuf n bs s)))))) ∧
  (∀ (a : Fin 4) (o : WriteOp) (s : State), wop s a = some o → o.heads.all (fun e => e.2.status.isSome) = true →
    ∃ t, exec (.writeOpEnd a) s = .next t ∧ t.pending = s.pending ∧ t.geo = s.geo ∧ t.time = s.time)

/-- The slot that has been ready longest goes to a free fast engine, or to a sleeping one that wakes for it, with its
iteration cap; with neither it stays; waking ends with the engine awake unless it is fenced or one too many; the codeword at
the front of the engine is decoded from its soft words, and a converged one that passes its check is counted, its slot freed
and its block delivered, another enters the ladder; a double-bit slot error is a non-media failure; a finished copy frees
the slot and begins the ladder, and a double-bit error in the copy fails the sector as no medium's fault. The recovery job
at the head of the queue goes to the first free recovery engine, and with both recovery engines fenced every waiting job
fails; a job decodes its context's accumulated words, frees its engine, and the ladder goes on or delivers; TMAX marks its
context once that time has passed since its entry and not before; an idle engine sleeps; a write of DEC_FENCE is followed by
the change of the fenced set; an array error of an engine is reported to its checker; START runs the self-test of an idle
fenced engine, whose end raises EV135. (R149, R151, R154, R155, R158, R161, R163, R167, R169, R172, R173, R174) -/
def Obligations.DecoderPool : Prop :=
  (∀ (k : Fin 128) (sl : Slot) (e : Nat) (s : State), (readySlots s).head? = some (k.val, sl) → (freeFast s).or (sleepFast s)
    = some e →
    let u := engWake e (setSlot k { sl with engine := some e, cap := nextCap s } s);
    exec (.fastDecodeStart k) s = .next (setEng e { eng u e with slots := (eng u e).slots ++ [k.val] } u)) ∧
  (∀ (k : Fin 128) (sl : Slot) (s : State), (readySlots s).head? = some (k.val, sl) → freeFast s = none → sleepFast s = none →
    exec (.fastDecodeStart k) s = .next (s)) ∧
  (∀ (e : Fin 18) (s : State), (eng s e).waking = true →
    exec (.engineWakeDone e) s = .next (surplusSleep e (setEng e { eng s e with waking := false, awake := !engFenced s e }
      s))) ∧
  (∀ (e : Fin 16) (k : Nat) (ks : List Nat) (sl : Slot) (s : State), (eng s e).awake = true → (eng s e).slots = k :: ks →
    let u := surplusSleep e (setEng e { eng s e with slots := ks } s);
    let d := fastDecode u sl;
    slot u k = some sl → sl.retry = none → sl.it.aborted = false →
    exec (.fastDecodeEnd e .ok) s = .next (match sectorCheck sl.key.psa d u with | (some blk, v) =>
                                                                                   (let v := if d.converged then v else count
                                                                                      F.DEC_ERR_CAPPED 0 v;
                                                                                      let z := releaseSlot k
                                                                                        { v with dec := { v.dec with mse :=
                                                                                                                       bitsOf
                                                                                                                       sl.res
                                                                                                                       31 16 }
                                                                                                   }; deliver sl.it sl.key.psa
                                                                                      (resultWord 0 0 1 d.iters d.flips e
                                                                                      sl.lane false (pastOf (sectorCheck
                                                                                      sl.key.psa d u).2 sl.key (bitsOf sl.res
                                                                                      63 56)).lstat) blk (put
                                                                                      F.DEC_CNT_OK_COUNT 0 (fld
                                                                                      F.DEC_CNT_OK_COUNT 0 z + 1) z)) | (none,
                                                                                                                        v) =>
                                                                                                                        ladderEnter
                                                                                                                        sl.it
                                                                                                                        sl.key.psa
                                                                                                                        (some
                                                                                                                        k)
                                                                                                                        sl.lane
                                                                                                                        {
                                                                                                                            pastOf
                                                                                                                            v
                                                                                                                            sl.key
                                                                                                                            (bitsOf
                                                                                                                            sl.res
                                                                                                                            63
                                                                                                                            56)
                                                                                                                            with
                                                                                                                            iters
                                                                                                                              :=
                                                                                                                              d.iters,
                                                                                                                              eng
                                                                                                                              :=
                                                                                                                              e
                                                                                                                              }
                                                                                                                        (if
                                                                                                                        d.converged
                                                                                                                        then v
                                                                                                                        else
                                                                                                                        count
                                                                                                                        F.DEC_ERR_CAPPED
                                                                                                                        0 v))) ∧
  (∀ (e : Fin 16) (k : Nat) (ks : List Nat) (sl : Slot) (s : State), (eng s e).awake = true → (eng s e).slots = k :: ks →
    let u := surplusSleep e (setEng e { eng s e with slots := ks } s);
    slot u k = some sl →
    exec (.fastDecodeEnd e .bad) s = .next (nonMediaFail sl.it sl.key.psa sl.lane (bitsOf sl.res 63 56) sl.retry (releaseSlot
      k (slotEcc .bad u)))) ∧
  (∀ (k : Fin 128) (q : Ecc) (cn : Nat) (x : Ctx) (sl : Slot) (s : State), s.dec.ctxs.find? (fun e => e.2.wait == .copy k.val)
    = some (cn, x) → slot s k = some sl → q ≠ .bad →
    exec (.contextCopyDone k q) s = .next (ladderStep cn (setCtx cn { addRead sl.soft x with wait := .step } (slotEcc q
      (releaseSlot k s))))) ∧
  (∀ (k : Fin 128) (cn : Nat) (x : Ctx) (sl : Slot) (s : State), s.dec.ctxs.find? (fun e => e.2.wait == .copy k.val) = some
    (cn, x) → slot s k = some sl →
    exec (.contextCopyDone k .bad) s = .next (copyBad cn x sl.lane (slotEcc .bad (releaseSlot k s)))) ∧
  (∀ (cn : Nat) (j : JobKind) (l : List (Nat × JobKind)) (e : Nat) (s : State), waitingJobs s = (cn, j) :: l → drFenced s =
    false → [16, 17].find? (fun e => (eng s e).awake && !engFenced s e && !engOver s e && (eng s e).job.isNone) = some e →
    exec .recoveryJobStart s = .next (setEng e { eng s e with job := some (cn, j) } s)) ∧
  (∀ (cn : Nat) (j : JobKind) (l : List (Nat × JobKind)) (s : State), waitingJobs s = (cn, j) :: l → drFenced s = true →
    exec .recoveryJobStart s = .next (drFail s)) ∧
  (∀ (e : Fin 2) (cn : Nat) (j : JobKind) (x : Ctx) (s : State), (eng s (16 + e)).job = some (cn, j) →
    let u := surplusSleep (16 + e) (setEng (16 + e) { eng s (16 + e) with job := none } s);
    ctx u cn = some x →
    let d := jobDecode u x j;
    exec (.recoveryJobEnd e) s = .next (match sectorCheck x.key.psa d (setCtx cn
      { x with iters := d.iters, eng := 16 + e, wait := .step } u) with | (some blk, v) => ladderOk cn (16 + e) d blk v |
                                                                                                                          (none,
                                                                                                                          v)
                                                                                                                          =>
                                                                                                                          ladderStep
                                                                                                                          cn
                                                                                                                          v)) ∧
  (∀ (c : Fin 32) (x : Ctx) (s : State), ctx s c = some x → fld F.DEC_LADDER_CTL_TMAX 0 s ≠ 0 → x.entered + 1000000 * fld
    F.DEC_LADDER_CTL_TMAX 0 s ≤ s.time →
    exec (.ladderTmax c) s = .next (setCtx c { x with tmax := true } s)) ∧
  (∀ (e : Fin 18) (s : State), (eng s e).awake = true → (eng s e).slots = [] → (eng s e).job = none →
    exec (.engineSleep e) s = .next (setEng e { eng s e with awake := false } s)) ∧
  (∀ (w : BusW) (s : State), exec (.decFenceWrite w) s = .next (drFail (fenceChange s (busWrite R.DEC_FENCE 0 0 w s)))) ∧
  (∀ (e : Fin 18) (s : State), e.val < 16 →
    exec (.engineParityError e) s = .next (drFail (fenceChange s (report (160 + e) none 9 0 0 0 s)))) ∧
  (∀ (e : Fin 18) (s : State), 16 ≤ e.val →
    exec (.engineParityError e) s = .next (drFail (fenceChange s (report (160 + e) none 9 0 0 0 s)))) ∧
  (∀ (w : BusW) (s : State),
    let u := busWrite R.DEC_BIST 0 0 w s;
    wrote1 31 w = true → u.dec.bist = none → fld F.DEC_BIST_ENG 0 u < 18 → engFenced u (fld F.DEC_BIST_ENG 0 u) = true → (eng
      u (fld F.DEC_BIST_ENG 0 u)).slots = [] → (eng u (fld F.DEC_BIST_ENG 0 u)).job = none →
    exec (.decBistStart w) s = .next (put F.DEC_BIST_START 0 1
      { u with dec := { u.dec with bist := some (fld F.DEC_BIST_ENG 0 u) } })) ∧
  (∀ (pass : Bool) (e : Nat) (s : State), s.dec.bist = some e →
    exec (.decBistDone pass) s = .next (raiseEvent 135 (put F.DEC_BIST_PASS 0 pass.toNat (put F.DEC_BIST_DONE 0 1 (put
      F.DEC_BIST_START 0 0 { s with dec := { s.dec with bist := none } }))))) ∧
  (∀ (c : Fin 32) (x : Ctx) (s : State), ctx s c = some x → s.time < x.entered + 1000000 * fld F.DEC_LADDER_CTL_TMAX 0 s →
    exec (.ladderTmax c) s = .next (s))

/-- A head in OFF takes no part; a wedge that the locked timer expects is recorded with its position error in SRV_HST, and a
permit falls when the error leaves its window; a wedge missed counts, with TID parity errors counted besides; the close of a
group of a loaded arm does the control work, counts the group, sends the MUA frame and judges the permits; COEF_SWAP is
remembered. (R46, R76, R176, R177, R178, R179, R180, R181, R185, R189, R193, R194) -/
def Obligations.ServoSampling : Prop :=
  (∀ (h : Fin 64) (w : Wedge) (s : State), hst s h ≠ 0 → persOf s h = 0 → samplerOn s h = true → (bitAt (fld2 F.SRV_HST_LOCK
    (armOf h) (h.val % 16) s) 0 = false ∨ (head s h).widx = some w.widx.toNat) →
    let u := wedgeRecord h w (wedgeAgree h w s) (thetaUpdate h w.widx.toNat (rroAhead (armOf h) w.widx.toNat (wedgeLock h w
      s)));
    exec (.servoWedge h w) s = .next (if errInWindow u h (head u h).e (head u h).ePrev then u else dropWperm h u)) ∧
  (∀ (h : Fin 64) (s : State), hst s h ≠ 0 →
    exec (.servoWedgeMiss h .noSam) s = .next (setHead h { head (missWedge h s) h with seen := [] } (missWedge h s))) ∧
  (∀ (h : Fin 64) (s : State), hst s h ≠ 0 →
    let u := missWedge h (count F.SRV_ERR_TIDPAR (armOf h) s);
    exec (.servoWedgeMiss h .parity) s = .next (setHead h { head u h with seen := [] } u)) ∧
  (∀ (a : Fin 4) (i : Int) (s : State), armLoaded s a = true → mode s a ≠ 2 →
    exec (.servoGroupClose a i) s = .next (mechFollows (each (armHeads a) permGroup (groupSend a (groupCount a (groupControl a
      (senseCode i) s)))))) ∧
  (∀ (a : Fin 4) (s : State), exec (.coefSwap a) s = .next (put F.SRV_CTL_COEF_SWAP a 1 s))

/-- LOAD of a parked arm starts loading when its conditions hold and sets LFAIL otherwise; UNLOAD unloads by the mode; GO of a
track on the arm in SETTLE, SEEK or FOLLOW goes there, and one beyond the geometry, or in another mode, is refused; a GO
while loading is stored. An arm that has acquired while loading goes to SETTLE at the track it stands on; loading, parking,
settling and tracking that run out of time or wedges set their flags, unload the arm, raise EV076 + a and are reported to
checker 132 + a; the climb of an unload goes on to the park drive; a settled arm with a tracking head enters FOLLOW. (R32,
R122, R188, R190, R191, R192, R200, R201, R205, R208) -/
def Obligations.ArmRequestsAndModes : Prop :=
  (∀ (a : Fin 4) (s : State), mode s a = 1 → loadOk s a = true → exec (.srvLoad a) s = .next (startLoading a s)) ∧
  (∀ (a : Fin 4) (s : State), mode s a = 1 → loadOk s a = false →
    exec (.srvLoad a) s = .next (put F.SRV_MODE_LFAIL a 1 s)) ∧
  (∀ (a : Fin 4) (s : State), exec (.srvUnload a) s = .next (unloadByMode a s)) ∧
  (∀ (a : Fin 4) (w : BusW) (s : State), wrote1 31 w = true →
    let u := busWrite R.SRV_TARGET a 0 w s;
    u.geo.isSome = true → fld F.SRV_TARGET_TRACK a u ≤ lastTrack u → 4 ≤ mode u a → mode u a ≤ 6 →
    let v := put F.SRV_TARGET_GO a 1 (put F.SRV_TARGET_REFUSED a 0 u);
    exec (.srvGo a w) s = .next (goTo a (fld F.SRV_TARGET_TRACK a u) v)) ∧
  (∀ (a : Fin 4) (w : BusW) (s : State), wrote1 31 w = true →
    let u := busWrite R.SRV_TARGET a 0 w s;
    u.geo = none →
    exec (.srvGo a w) s = .next (put F.SRV_TARGET_REFUSED a 1 (put F.SRV_TARGET_REFUSED a 0 u))) ∧
  (∀ (a : Fin 4) (s : State), mode s a = 3 → 2 ≤ (arm s a).load →
    let t := (((arm s a).pbar.getD 0 + 128) / 256).toNat;
    let x := { arm s a with target := t, lastI := vcm s a - feedforward s a, bump := 0, errOfs := 0 };
    exec (.loadAcquired a) s = .next (toSettle a (heatRdSend a (armHeads a) (put F.SRV_TARGET_TRACK a t (setArm a x s))))) ∧
  (∀ (a : Fin 4) (s : State), mode s a = 3 →
    exec (.loadTimeout a) s = .next (report (132 + a) none 0x0A 0 0 0 (raiseEvent (76 + a) (put F.SRV_MODE_LFAIL a 1
      (startUnload a true s))))) ∧
  (∀ (a : Fin 4) (s : State), mode s a = 8 → (arm s a).phase = .climb →
    exec (.unloadPhaseEnd a) s = .next (setVcm a (sext 16 (fld F.SRV_PARK_PARK_I a s)) (setArm a
      { arm s a with phase := .park } s))) ∧
  (∀ (a : Fin 4) (s : State), mode s a = 8 → (arm s a).phase = .park →
    exec (.parkTimeout a) s = .next (heldLoadApply a (report (132 + a) none 0x0A 0 0 0 (raiseEvent (76 + a) (put
      F.SRV_MODE_PFAIL a 1 (enterParked a s)))))) ∧
  (∀ (a : Fin 4) (s : State), mode s a = 5 → fld1 F.SRV_SETTLE_FN a s ≤ (arm s a).fn → (armHeads a).any (fun h => hst s h ==
    2) = true → (arm s a).seekFrom = none →
    let u := setMode a 6 (setArm a (followHandOver (arm s a)) s);
    let y := { arm u a with seekFrom := none, retries := 0, storedGo := none };
    (arm s a).storedGo = none →
    exec (.followEntry a) s = .next (put F.SRV_TARGET_GO a 0 (setArm a y u))) ∧
  (∀ (a : Fin 4) (s : State), mode s a = 5 → fld1 F.SRV_SETTLE_SETTLE_TMO a s ≤ (arm s a).settle → (arm s a).retries < fld
    F.SRV_SETTLE_SEEK_RETRY a (put F.SRV_MODE_SEEK_ERR a 1 (count F.SRV_ERR_SEEK_ERR a s)) →
    exec (.settleTimeout a) s = .next (toSeek a (setArm a { arm s a with retries := (arm s a).retries + 1, tune := true } (put
      F.SRV_MODE_SEEK_ERR a 1 (count F.SRV_ERR_SEEK_ERR a s))))) ∧
  (∀ (a : Fin 4) (s : State), mode s a = 5 → fld1 F.SRV_SETTLE_SETTLE_TMO a s ≤ (arm s a).settle → fld F.SRV_SETTLE_SEEK_RETRY
    a (put F.SRV_MODE_SEEK_ERR a 1 (count F.SRV_ERR_SEEK_ERR a s)) ≤ (arm s a).retries →
    exec (.settleTimeout a) s = .next (report (132 + a) none 0x0A 0 0 0 (raiseEvent (76 + a) (startUnload a false (put
      F.SRV_MODE_SEEK_ERR a 1 (count F.SRV_ERR_SEEK_ERR a s)))))) ∧
  (∀ (a : Fin 4) (s : State), 4 ≤ mode s a → mode s a ≤ 7 → fld1 F.SRV_TRK_ARM_MISS a s ≤ (arm s a).miss →
    exec (.armMissTimeout a) s = .next (report (132 + a) none 0x0A 0 0 0 (raiseEvent (76 + a) (startUnload a true s)))) ∧
  (∀ (a : Fin 4) (s : State), armLoaded s a = true → 16 ≤ (arm s a).mismatch → mode s a ≠ 8 →
    let u := setArm a { arm s a with mismatch := 0 } s;
    let v := startUnload a true u;
    exec (.vcmMismatch a) s = .next (report (132 + a) none 0x0A 0 0 0 (raiseEvent (76 + a) (setArm a
      { arm v a with heldLoad := (arm u a).heldLoad } v))))

/-- A head in ACQ or TRACK that has missed HMISS wedges is lost, with its lock, its permit and EV076 + a; eight groups at a
limit put a tracking head back to ACQ; WREARM good groups of a head in TRACK of an arm in FOLLOW set its permit again. A
sample of an enabled channel is kept; in the initialisation window it is gathered, and after it the baseline follows and a
live channel beyond TRIP drops SHOCK_OK; calm channels raise it again; a still window gives each baseline its mean; a stuck
channel is marked, raises EV081 and is reported to checker 148 + ch. (R61, R176, R189, R193, R194, R196, R197, R198, R199,
R559) -/
def Obligations.PermitsAndShock : Prop :=
  (∀ (h : Fin 64) (s : State), (hst s h = 1 ∨ hst s h = 2) → fld1 F.SRV_TRK_HMISS (armOf h) s ≤ fld2 F.SRV_HST_MISS (armOf h)
    (h.val % 16) s →
    exec (.headLost h) s = .next (report (136 + armOf h) none 0x0A 0 0 0 (raiseEvent (76 + armOf h) (dropWperm h (setTracking
      (armOf h) (searchRead h (timerFree h true (startRamp h (setHst h 3 s))))))))) ∧
  (∀ (h : Fin 64) (s : State), hst s h = 2 → 8 ≤ (head s h).sat →
    exec (.maSatExpire h) s = .next (dropWperm h (setTracking (armOf h) (setHst h 1 (startRamp h s))))) ∧
  (∀ (h : Fin 64) (s : State), (head s h).rearm = true → mode s (armOf h) = 6 → hst s h = 2 → eligible s h = true → (link s
    (armOf h)).muaMiss = false → (link s (armOf h)).disagree.testBit (h.val % 16) = false → linkUp s (armOf h) = true →
    exec (.wpermRearm h) s = .next (putFBit F.SRV_WPERM_WPERM (armOf h) (h.val % 16) true s)) ∧
  (∀ (h : Fin 64) (s : State), (head s h).rearm = false → exec (.wpermRearm h) s = .next (s)) ∧
  (∀ (ch : Fin 5) (x : Int) (s : State), bit F.SRV_SHK_CTL_EN 0 ch s = true →
    let v := (senseCode x).toInt;
    flag F.SRV_SHK_STAT_INIT 0 (shockTake ch v s) = true →
    exec (.shockSample ch x) s = .next (shockGather ch v (shockTake ch v s))) ∧
  (∀ (ch : Fin 5) (x : Int) (s : State), bit F.SRV_SHK_CTL_EN 0 ch s = true →
    let y := (senseCode x).toInt;
    let u := shockTake ch y s;
    flag F.SRV_SHK_STAT_INIT 0 u = false →
    let v := shockTrack ch y u;
    shkLive v ch = true → fld F.SRV_SHK_THR_TRIP ch v < shockDev u ch y →
    exec (.shockSample ch x) s = .next (shockFall v)) ∧
  (∀ (s : State), shockOk s = false → flag F.SRV_SHK_STAT_INIT 0 s = false → (List.range 5).all (fun c => !shkLive s c || 100
    * fld1 F.SRV_SHK_CTL_QUIET 0 s ≤ (shk s c).calm) = true → stuckHolds s = false → s.shock.blow = false →
    exec .shockRearm s = .next (rebind { put F.SRV_SHK_STAT_SHOCK_OK 0 1 s with shock := { s.shock with blow := false, risen
                                                                                                          := true } })) ∧
  (∀ (ch : Nat) (s : State), flag F.SRV_SHK_STAT_INIT 0 s = true → (List.range 5).filter (fun c => bit F.SRV_SHK_CTL_EN 0 c s)
    = [ch] → (shk s ch).n = 1024 → (shk s ch).hi - (shk s ch).lo ≤ 2 * (fld F.SRV_SHK_THR_REARM ch s : Int) →
    ∃ t, exec .shockInitWindow s = .next t ∧ flag F.SRV_SHK_STAT_INIT 0 t = false ∧ t =
      { s with regs := t.regs, shockCh := t.shockCh }) ∧
  (∀ (ch : Fin 5) (s : State), bit F.SRV_SHK_CTL_EN 0 ch s = true → bit F.SRV_SHK_STAT_STUCK 0 ch s = false → foundStuck s ch
    = true →
    let u := putFBit F.SRV_SHK_STAT_STUCK 0 ch true s;
    flag F.SRV_SHK_CTL_STUCK_POLICY 0 u = false →
    exec (.shockStuck ch) s = .next (report (148 + ch) none 0x0A 0 0 0 (raiseEvent 81 u))) ∧
  (∀ (ch : Fin 5) (s : State), foundStuck s ch = false → exec (.shockStuck ch) s = .next (s))

/-- START catches a turning rotor, and starts a still one with the offset calibration and then STICTION or ALIGN; STOP in RUN
brakes when every arm is OFF, PARKED or in RETRACT, and is refused with STOP_REF otherwise; a trip coasts until the
automatic restart; a target held for 16 electrical revolutions raises AT_SPEED. STICTION ends in ALIGN once its pulses have
been applied, and ALIGN in RAMP at the align angle; an open phase fails with code 2; HO_CYC agreeing wraps hand over to RUN;
the hand-over timeout retries, a rotor still in RETRY aligns at the next angle up to four attempts, and BRAKE and COAST end
in STOPPED; a catch of a fast forward rotor enters RUN; a stage fault fails with code 6. (R218, R219, R220, R221, R222,
R223, R224, R225, R226, R230, R232, R236) -/
def Obligations.SpindleRequestsAndStart : Prop :=
  (∀ (v : List Abc) (s : State), (spmSt s = 1 ∨ spmSt s = 10) → turning s v = true →
    exec (.spmStart v) s = .next (spmEnter 6 (gatesOff (put F.SPM_STAT_LANDED 0 (anyLanded s).toNat
      { s with spm := { s.spm with locked := false, genPend := false } })))) ∧
  (∀ (v : List Abc) (s : State), spmSt s = 8 → exec (.spmStart v) s = .next (spmEnter 6 (gatesOff s))) ∧
  (∀ (v : List Abc) (s : State), (spmSt s = 1 ∨ spmSt s = 10) → turning s v = false → still s v = true →
    let u := gatesOff (spmEnter (if anyLanded s then 2 else 3) (put F.SPM_STAT_ATTEMPT 0 0 (put F.SPM_STAT_LANDED 0 (anyLanded
      s).toNat { s with spm := { s.spm with locked := false, genPend := false } })));
    exec (.spmStart v) s = .next ({ u with spm := { u.spm with calibrating := true, align := alignAngle u 0, id := 0, iq := 0,
                                                                 idStep := 0 } })) ∧
  (∀ (s : State), spmSt s = 7 → (List.range 4).all (fun a => mode s a == 0 || mode s a == 1 || mode s a == 9) = true →
    exec .spmStop s = .next ({ spmEnter 8 s with spm := { (spmEnter 8 s).spm with iq := -(fld F.SPM_ILIM_IQ_BRAKE 0 (spmEnter
                                                                                    8 s) : Int), id := 0 } })) ∧
  (∀ (s : State), spmSt s = 7 → (List.range 4).all (fun a => mode s a == 0 || mode s a == 1 || mode s a == 9) = false →
    exec .spmStop s = .next (put F.SPM_STAT_STOP_REF 0 1 s)) ∧
  (∀ (s : State), spmSt s = 10 → s.spm.tripCoast = true → s.spm.lostSince = false → flag F.SPM_CTL_AUTO_RESTART 0 s = true →
    exec .spmAutoRestart s = .next (spmEnter 6 (gatesOff s))) ∧
  (∀ (s : State), spmSt s = 7 → 16 * polePairs s ≤ s.spm.revs → flag F.SPM_STAT_AT_SPEED 0 s = false →
    exec .spmAtSpeed s = .next (releaseWrites (put F.SPM_STAT_AT_SPEED 0 1 s))) ∧
  (∀ (s : State), spmSt s = 7 → 4 ≤ s.spm.epsRun → exec .spmLossOfSync s = .next (spmTrip 2 s)) ∧
  (∀ (v : List Abc) (s : State), spmSt s = 1 → turning s v = false → still s v = false → exec (.spmStart v) s = .next (s)) ∧
  (∀ (s : State), s.spm.epsRun < 4 → s.spm.emfOk = true → exec .spmLossOfSync s = .next (s)) ∧
  (∀ (s : State), spmSt s = 2 → s.spm.calibrating = false → stickDone s = true →
    exec .spmStictionEnd s = .next (spmEnter 3 s)) ∧
  (∀ (s : State), spmSt s = 3 → s.spm.calibrating = false → openPhase s = true →
    exec .spmAlignEnd s = .next (spmFail 2 8 s)) ∧
  (∀ (s : State), spmSt s = 3 → s.spm.calibrating = false → openPhase s = false →
    let u := spmEnter 4 s;
    exec .spmAlignEnd s = .next ({ u with spm := { u.spm with agree := 0, locked := false } })) ∧
  (∀ (s : State), spmSt s = 4 → s.spm.wrapDue = true → s.spm.emfOk = true → fld F.SPM_RAMP_F_HO 0 s * 800000000 ≤ fOl s →
    (rampErr s).natAbs < fld F.SPM_HO_HO_ERR 0 s → s.spm.agree + 1 < fld1 F.SPM_HO_HO_CYC 0 s →
    exec .spmRampWrap s = .next ({ s with spm := { s.spm with wrapDue := false, agree := s.spm.agree + 1 } })) ∧
  (∀ (s : State), spmSt s = 4 → hoExpired s = true →
    exec .spmHoTimeout s = .next (count F.SPM_ERR_RETRY 0 (put F.SPM_STAT_ATTEMPT 0 (min 5 (fld F.SPM_STAT_ATTEMPT 0 s + 1))
      (spmEnter 5 (gatesOff s))))) ∧
  (∀ (s : State), hoExpired s = false → exec .spmHoTimeout s = .next (s)) ∧
  (∀ (v : List Abc) (s : State), still s v = true → spmSt s = 5 → fld F.SPM_STAT_ATTEMPT 0 s ≤ 4 →
    let u := spmEnter 3 s;
    exec (.spmRotorStill v) s = .next ({ u with spm := { u.spm with align := alignAngle u (fld F.SPM_STAT_ATTEMPT 0 s) } })) ∧
  (∀ (v : List Abc) (s : State), still s v = true → spmSt s = 5 → 5 ≤ fld F.SPM_STAT_ATTEMPT 0 s →
    exec (.spmRotorStill v) s = .next (spmFail 1 7 s)) ∧
  (∀ (v : List Abc) (s : State), still s v = true → (spmSt s = 8 ∨ spmSt s = 10) →
    let u := spmEnter 1 (gatesOff s);
    exec (.spmRotorStill v) s = .next ({ u with spm := { u.spm with genPend := false } })) ∧
  (∀ (s : State), spmSt s = 5 → exec .spmRetryTimeout s = .next (spmFail 1 7 s)) ∧
  (∀ (l : List (Fin 6 × Nat)) (s : State), spmSt s = 6 → s.spm.genPend = false →
    let r := crossings s l;
    let u := put F.SPM_ANGLE_THETA_E 0 r.1 { s with spm := { s.spm with theta := r.1, thetaLo := 0, omega := r.2 } };
    0 < r.2 → omegaAtLeast u (fld F.SPM_RAMP_F_HO 0 u) = true →
    exec (.spmCatchLock l) s = .next (engage 7 u)) ∧
  (∀ (s : State), spmSt s ≠ 0 → spmSt s ≠ 11 → exec .spmStageFault s = .next (spmFail 6 6 s)) ∧
  (∀ (s : State), spmSt s = 4 → s.spm.wrapDue = true → s.spm.emfOk = true → fld F.SPM_RAMP_F_HO 0 s * 800000000 ≤ fOl s →
    (rampErr s).natAbs < fld F.SPM_HO_HO_ERR 0 s → fld1 F.SPM_HO_HO_CYC 0 s ≤ s.spm.agree + 1 →
    exec .spmRampWrap s = .next (handOverRun (rampErr s)
      { s with spm := { s.spm with wrapDue := false, agree := s.spm.agree + 1 } })) ∧
  (∀ (s : State), spmSt s = 4 → s.spm.wrapDue = true → s.spm.emfOk = false →
    exec .spmRampWrap s = .next ({ s with spm := { s.spm with wrapDue := false, agree := 0 } })) ∧
  (∀ (v : List Abc) (s : State), still s v = false → exec (.spmRotorStill v) s = .next (s)) ∧
  (∀ (l : List (Fin 6 × Nat)) (s : State), spmSt s = 6 → s.spm.genPend = false →
    let r := crossings s l;
    let u := put F.SPM_ANGLE_THETA_E 0 r.1 { s with spm := { s.spm with theta := r.1, thetaLo := 0, omega := r.2 } };
    r.2 ≤ 0 →
    exec (.spmCatchLock l) s = .next (spmEnter 5 (gatesOff u)))

/-- A period that drives samples the currents, trips when two samples in a row stand above OC_TRIP, and else takes the
observer's step and sets the duties, generator mode starting at its beginning where it is due; a brake whose low sides are
on keeps them on; a compensation period keeps its voltage command; a speed beyond 10,500 rpm fails; calibrated offsets
within 256 codes are taken and larger ones fail with code 3. (R211, R217, R220, R221, R222, R225, R228, R229, R232, R233,
R235, R236) -/
def Obligations.SpindlePeriods : Prop :=
  (∀ (x : Abc) (s : State), spmSt s ∈ [3, 4, 7, 8, 9] → s.spm.calibrating = false → s.spm.kind = .comp →
    let t := genEnter (pwmClock s);
    exec (.spmPwmPeriod x) s = .next (pwmBegin t.spm.next t)) ∧
  (∀ (x : Abc) (s : State), spmSt s ∈ [3, 4, 7, 8, 9] → s.spm.calibrating = false → s.spm.kind = .normal →
    let t := genEnter (pwmClock s);
    let u := pwmSample (phaseCurrents t x) t;
    u.spm.ocRun < 2 →
    let w := currentLoop (openCheck (pwmObserve 1 u));
    let r := dutiesOf (currentRefs w).1 w.spm.vd w.spm.vq w;
    exec (.spmPwmPeriod x) s = .next (if spmSt w = 8 && fld F.SPM_MEAS_SPEED 0 w < 30000 then brakeLow w else pwmBegin r.1
      r.2)) ∧
  (∀ (x : Abc) (s : State), spmSt s ∈ [3, 4, 7, 8, 9] → s.spm.calibrating = false → s.spm.kind = .normal →
    let t := genEnter (pwmClock s);
    let u := pwmSample (phaseCurrents t x) t;
    2 ≤ u.spm.ocRun →
    exec (.spmPwmPeriod x) s = .next (spmTrip 1 { u with spm := { u.spm with ocRun := 0 } })) ∧
  (∀ (s : State), (spmSt s = 7 ∨ spmSt s = 9 ∨ spmSt s = 6 ∨ spmSt s = 10) → 1050000 < (measured s).natAbs →
    exec .spmSpeedLoop s = .next (spmFail 5 5 (put F.SPM_MEAS_SPEED 0 (min 16777215 (measured s).natAbs) (put F.SPM_MEAS_DIR 0
      (decide (measured s < 0)).toNat (put F.SPM_MEAS_SRC 0 (if fld F.SRV_THETA_SRC 0 s = 1 then 1 else 0) (put
      F.SPM_PWR_MOTOR 0 (min 65535 (motorPower s).toNat) (syncCount s))))))) ∧
  (∀ (s : State), spmSt s = 3 →
    let u := (put F.SPM_MEAS_SPEED 0 (min 16777215 (measured s).natAbs) (put F.SPM_MEAS_DIR 0 (decide (measured s < 0)).toNat
      (put F.SPM_MEAS_SRC 0 (if fld F.SRV_THETA_SRC 0 s = 1 then 1 else 0) (put F.SPM_PWR_MOTOR 0 (min 65535 (motorPower
      s).toNat) (syncCount s)))));
    exec .spmSpeedLoop s = .next (spinChecks (measured s).natAbs u)) ∧
  (∀ (l : List Abc) (s : State), s.spm.calibrating = true →
    let m := [calMean (l.map (·.a)), calMean (l.map (·.b)), calMean (l.map (·.c))];
    m.any (fun z => 256 < z.natAbs) = false →
    exec (.spmOffsetCalDone l) s = .next ({ s with spm := { s.spm with calibrating := false, offs := m } })) ∧
  (∀ (l : List Abc) (s : State), s.spm.calibrating = true →
    let m := [calMean (l.map (·.a)), calMean (l.map (·.b)), calMean (l.map (·.c))];
    m.any (fun z => 256 < z.natAbs) = true →
    exec (.spmOffsetCalDone l) s = .next (spmFail 3 9 s)) ∧
  (∀ (x : Abc) (s : State), spmSt s ∈ [3, 4, 7, 8, 9] → s.spm.calibrating = false → s.spm.kind = .off →
    let t := genEnter (pwmClock s);
    let r := dutiesOf (currentRefs t).1 t.spm.dInt t.spm.qInt t;
    exec (.spmPwmPeriod x) s = .next (pwmBegin r.1 r.2)) ∧
  (∀ (x : Abc) (s : State), spmSt s = 8 → s.spm.genPend = false → s.spm.calibrating = false → s.spm.kind = .low →
    let t := pwmClock s;
    let u := pwmSample (phaseCurrents t x) t;
    u.spm.ocRun < 2 →
    exec (.spmPwmPeriod x) s = .next (brakeLow (currentLoop (openCheck (pwmObserve 1 u)))))

/-- A descriptor with OWN set is taken and NEXT moves on; a READ_UNIT of 1 to 64 units inside its namespace is read, and one
outside it is refused; a READ_STG of a slot 1 to 13 of a live staging stripe reads it; a writing descriptor is read from the
landing, whose accesses may find errors, and WRITE_STG entries that pass their checks are taken, or end STG_FULL when the
band is full; a WRITE_STRIPE of an aligned stripe starts its pass. Entries that wait too long are dispatched; room in the
band dispatches full stripes; TAIL moves to a value from TAIL to HEAD and not back; a pass whose media operation ended OK
does its end, one that failed fewer than three times is issued again and counted, and a third failure is reported to checker
185; a rebuilt unit is delivered. (R28, R128, R246, R248, R254, R255, R260, R261, R264, R280, R281, R411) -/
def Obligations.SurfaceParity : Prop :=
  (∀ (x : SprOp) (s : State), descNext s = some x → x.op = 1 →
    let y := (descTake x s).1;
    let u := (descTake x s).2;
    (nsEnt u y.nsid).valid = true → 1 ≤ y.count → y.count ≤ 64 → y.addr + y.count ≤ (nsEnt u y.nsid).units →
    exec .descReadUnit s = .next (readUnits y ((List.range y.count).map (fun i => (i, y.addr + i))) u)) ∧
  (∀ (x : SprOp) (s : State), descNext s = some x → x.op = 1 →
    let y := (descTake x s).1;
    let u := (descTake x s).2;
    (nsEnt u y.nsid).units < y.addr + y.count →
    exec .descReadUnit s = .next (opRefuse y u)) ∧
  (∀ (s : State), descNext s = none → flag F.SPR_CTL_ENABLE 0 s = true →
    exec .descReadUnit s = .next ({ s with spr := { s.spr with look := false } })) ∧
  (∀ (x : SprOp) (s : State), descNext s = some x → x.op = 2 →
    let y := (descTake x s).1;
    let u := (descTake x s).2;
    stgTail u ≤ y.addr → y.addr < stgHead u → 1 ≤ y.aux % 16 → y.aux % 16 ≤ 13 →
    exec .descReadStg s = .next (startStaged { y with count := 1 } 0 y.addr (y.aux % 16) (setOp { y with count := 1 } u))) ∧
  (∀ (x : SprOp) (l : List Ecc) (s : State), descNext s = some x → x.op = 3 → opBusy s x = true →
    exec (.descWriteStg l) s = .next (s)) ∧
  (∀ (x : SprOp) (l : List Ecc) (s : State), descNext s = some x → x.op = 3 → opBusy s x = false →
    let y := (descTake x s).1;
    let v := sprLooks (opAux y) l (descTake x s).2;
    1 ≤ y.count → y.count ≤ 32 → (stgEntries v y).all (stgEntryOk v) = true → v.geo.isSome = true → stgFull v = false →
    exec (.descWriteStg l) s = .next (stgTakeOp y (sprLooks (opBufs v y) (l.drop (granulesOf y.aux (32 * y.count)).length)
      v))) ∧
  (∀ (x : SprOp) (l : List Ecc) (s : State), descNext s = some x → x.op = 3 → opBusy s x = false →
    let y := (descTake x s).1;
    let v := sprLooks (opAux y) l (descTake x s).2;
    1 ≤ y.count → y.count ≤ 32 → (stgEntries v y).all (stgEntryOk v) = true → v.geo.isSome = true → stgFull v = true →
    exec (.descWriteStg l) s = .next (opEnd y 2 v)) ∧
  (∀ (x : SprOp) (l : List Ecc) (s : State), descNext s = some x → x.op = 4 → opBusy s x = false →
    let y := (descTake x s).1;
    let u := (descTake x s).2;
    (nsEnt u y.nsid).valid = true → y.addr % dataOf (nsEnt u y.nsid).red = 0 → y.addr + dataOf (nsEnt u y.nsid).red ≤ (nsEnt u
      y.nsid).units →
    exec (.descWriteStripe l) s = .next (stripeStart y (sprLooks (opBufs u y) l u))) ∧
  (∀ (x : SprOp) (l : List Ecc) (s : State), descNext s = some x → x.op = 3 → opBusy s x = false →
    let y := (descTake x s).1;
    let v := sprLooks (opAux y) l (descTake x s).2;
    1 ≤ y.count → y.count ≤ 32 → (stgEntries v y).all (stgEntryOk v) = true → v.geo = none →
    exec (.descWriteStg l) s = .next (opRefuse y (report 184 none 7 6 0 0 v))) ∧
  (∀ (s : State), exec .stagingWaitExpire s = .next (stgFlushDue (stgTake 0 0 s.spr.waiting).1.length s)) ∧
  (∀ (s : State), exec .stagingRoom s = .next (stgStat (stgFlushDue 0 s))) ∧
  (∀ (w : BusW) (s : State),
    let v := merged R.SPR_STG_TAIL s.locked (rd R.SPR_STG_TAIL 0 0 s) w;
    stgTail s ≤ v → v ≤ stgHead s →
    exec (.stgTailWrite w) s = .next (stgStat (wr R.SPR_STG_TAIL 0 0 v s))) ∧
  (∀ (w : BusW) (s : State),
    let v := merged R.SPR_STG_TAIL s.locked (rd R.SPR_STG_TAIL 0 0 s) w;
    (v < stgTail s ∨ stgHead s < v) →
    exec (.stgTailWrite w) s = .next (s)) ∧
  (∀ (p : Pass) (s : State), (Tab.vals s.spr.passes).find? (fun p => p.result.isSome) = some p → p.result = some true →
    exec .stripePassEnd s = .next (startHeld (passEndOk p s))) ∧
  (∀ (p : Pass) (s : State), (Tab.vals s.spr.passes).find? (fun p => p.result.isSome) = some p → p.result = some false →
    p.fails < 2 →
    let q := { p with fails := p.fails + 1, result := none, item := none };
    passRefused s q = false →
    exec .stripePassEnd s = .next (passIssue q (count F.SPR_ERR_REISSUE 0 s))) ∧
  (∀ (p : Pass) (s : State), (Tab.vals s.spr.passes).find? (fun p => p.result.isSome) = some p → p.result = some false →
    p.fails = 2 →
    let q := { p with fails := 3, result := none, item := none };
    exec .stripePassEnd s = .next (startHeld (passFailed q 3
      (match q.use with | .salv _ => s | _ => report 185 none 7 6 (memberPsa s p.zone p.k 0) 0 s)))) ∧
  (∀ (r : StripeRd) (cn : Nat) (s : State), (Tab.vals s.spr.reads).find? (fun r => readDone r &&
    (match r.use with | .ladder _ => true | .unit _ _ => true | .stg _ _ _ _ => true | _ => false)) = some r → r.use = .ladder
    cn →
    exec .stripeRebuild s = .next (ladderRebuild cn r (countStale r (dropRead r.id s)))) ∧
  (∀ (r : StripeRd) (o : Nat) (i : Nat) (b : List Byte) (s : State), (Tab.vals s.spr.reads).find? (fun r => readDone r &&
    (match r.use with | .ladder _ => true | .unit _ _ => true | .stg _ _ _ _ => true | _ => false)) = some r → r.use = .unit o
    i →
    let u := countStale r (dropRead r.id s);
    bodyOfSlot u r (roleOf u r.zone r.k (r.skip.getD 0)) = none → sprOp u o = none →
    exec .stripeRebuild s = .next (u))

/-- START of a job that no other job prevents and whose extent is fenced makes it RUNNING with POS and CNT 0, and else sets
ERR; PAUSE and ABORT of a running job wait for the batch in hand, RESUME of a paused one makes it RUNNING, ABORT of a paused
one makes it ABORTED; a batch takes at most BATCH stripes, and a job past its last stripe is DONE with its entry marked and
EV086; a batch stripe that has been read is judged. With nothing left beyond POS a cruise pass ends: POS is 0 and PASS
counts; else the next owned stripe is taken with a shared choker and POS moves past it; a stripe read is judged; under its
exclusive choker the stripe is read again, and one whose generation changed meanwhile is left; room in the lost ring lets
what waited for it go on. (R260, R269, R270, R271, R272, R273, R274, R275, R277, R278, R279, R343) -/
def Obligations.SalvageAndCruise : Prop :=
  (∀ (w : BusW) (s : State),
    let u := salvCtlWrite w s;
    wrote1 31 w = true → salvState u ≠ 1 → salvState u ≠ 2 → salvFenced u (jobEnt u) = true →
    let v := wr R.SPR_SALV_POS 0 0 0 (wr R.SPR_SALV_CNT 0 0 0 (put F.SPR_SALV_STAT_ERR 0 0 (put F.SPR_SALV_STAT_STATE 0 1
      u)));
    exec (.sprSalvStart w) s = .next (c4Change 0 { v with spr := { v.spr with pausing := false, aborting := false, jobs :=
                                                                                Tab.put (Tab.put u.spr.jobs (fld
                                                                                F.SPR_SALV_CTL_ENTRY 0 u) (1, ((Tab.get?
                                                                                u.spr.jobs (fld F.SPR_SALV_CTL_ENTRY 0
                                                                                u)).getD (0, 0)).2)) (fld F.SPR_SALV_CTL_ENTRY
                                                                                0 u) (1, 0) } })) ∧
  (∀ (w : BusW) (s : State),
    let u := salvCtlWrite w s;
    wrote1 31 w = true → (salvState u = 1 ∨ salvState u = 2) →
    exec (.sprSalvStart w) s = .next (put F.SPR_SALV_STAT_ERR 0 1 u)) ∧
  (∀ (w : BusW) (s : State),
    let u := salvCtlWrite w s;
    wrote1 30 w = true → salvState u = 1 →
    exec (.sprSalvPause w) s = .next (batchDone { u with spr := { u.spr with pausing := true } })) ∧
  (∀ (w : BusW) (s : State),
    let u := salvCtlWrite w s;
    wrote1 29 w = true → salvState u = 2 →
    exec (.sprSalvResume w) s = .next (c4Change 0 (salvSet 1 u))) ∧
  (∀ (w : BusW) (s : State),
    let u := salvCtlWrite w s;
    wrote1 28 w = true → salvState u = 2 →
    exec (.sprSalvAbort w) s = .next (c4Change 0 (salvSet 4 u))) ∧
  (∀ (w : BusW) (s : State),
    let u := salvCtlWrite w s;
    wrote1 28 w = true → salvState u = 1 →
    exec (.sprSalvAbort w) s = .next (batchDone { u with spr := { u.spr with aborting := true } })) ∧
  (∀ (s : State), salvState s = 1 → s.spr.batch = [] →
    let u := salvAdvance s;
    let p := fld F.SPR_SALV_POS_POS 0 u;
    p < (jobEnt u).count →
    exec .salvageBatch s = .next (salvAdvance (upTo (min (fld1 F.SPR_SALV_CTL_BATCH 0 u) ((jobEnt u).count - p)) (fun i v =>
      batchTake (p + i) v) u))) ∧
  (∀ (s : State), salvState s = 1 → s.spr.batch = [] →
    let u := salvAdvance s;
    (jobEnt u).count ≤ fld F.SPR_SALV_POS_POS 0 u →
    exec .salvageBatch s = .next (degradedUpdate (c4Change 0 (raiseEvent 86 (salvSet 3 (sramWrite (fld F.SPR_RELOC_BASE_ADDR 0
      u * 32 + 32 * fld F.SPR_SALV_CTL_ENTRY 0 u + 7) [byte ((jobEnt u).flags ||| 2)] u)))))) ∧
  (∀ (i : Nat) (r : StripeRd) (s : State), (Tab.vals s.spr.reads).findSome? (fun r =>
    match r.use with | .salv i => if readDone r && s.spr.batch.contains (i, .read) then some (i, r) else none | _ => none) =
    some (i, r) →
    exec .salvageStripeJudge s = .next (salvJudge i r (countStale r s))) ∧
  (∀ (s : State), flag F.SPR_CRUISE_CTL_EN 0 s = true → s.spr.cruise = none → (chkFree s).isSome = true → cruiseNext s (fld
    F.SPR_CRUISE_POS_POS 0 s) = none → s.geo.isSome = true →
    exec .cruiseVisit s = .next (put F.SPR_CRUISE_POS_POS 0 0 (put F.SPR_CRUISE_POS_PASS 0 ((fld F.SPR_CRUISE_POS_PASS 0 s +
      1) % 2 ^ 24) s))) ∧
  (∀ (o : Nat) (r : OwnRun) (s : State), flag F.SPR_CRUISE_CTL_EN 0 s = true → s.spr.cruise = none → (chkFree s).isSome = true
    → cruiseNext s (fld F.SPR_CRUISE_POS_POS 0 s) = some (o, r) →
    let n := r.n + (o - r.ord);
    let d := dataOf (nsEnt s r.nsid).red;
    exec .cruiseVisit s = .next (chkEnter r.nsid (n * d) (n * d + d - 1) false .cruise (put F.SPR_CRUISE_POS_POS 0 ((o + 1) %
      2 ^ 40) { s with spr := { s.spr with cruise := some ⟨r.zone, r.k + (o - r.ord), r.nsid, n, 0, .choke, []⟩ } }))) ∧
  (∀ (c : Cruise) (r : StripeRd) (s : State), s.spr.cruise = some c → cruiseRead s false = some r → c.phase = .read →
    exec .cruiseClassify s = .next (cruiseJudge c r (countStale r s))) ∧
  (∀ (c : Cruise) (k : Choke) (s : State), s.spr.cruise = some c → chkOf s .cruise = some k → k.granted = true → c.phase =
    .exclusive → cruiseOwns s c = true →
    let zk := relocate s false (c.zone, c.k);
    exec .cruiseRewrite s = .next (startRead .cruise2 zk.1 zk.2 (nsEnt s c.nsid).red none (cruiseWant s)
      { s with spr := { s.spr with cruise := some { c with phase := .reread } } })) ∧
  (∀ (c : Cruise) (k : Choke) (r : StripeRd) (s : State), s.spr.cruise = some c → chkOf s .cruise = some k → k.granted = true
    → c.phase = .reread → cruiseRead s true = some r → cruiseOwns s c = true → groupCovers s c.nsid (c.n * dataOf r.red)
    (dataOf r.red) = false → earlyHolds s c.nsid c.n = false → stripeGen r ≠ c.gen →
    exec .cruiseRewrite s = .next (cruiseLeave (countStale r (dropRead r.id s)))) ∧
  (∀ (s : State), s.spr.batch = [] → s.spr.cruise = none → exec .lostRingRoom s = .next (resumeOps s))

/-- PERST asserted resets the host interface, and deasserted lets a released link start training; a hot reset, a lost link and
a surprise removal reset it and go back to training; a trained link takes its speed and width and is in L0; an idle link
with L1 enabled enters L1.0; FLR resets its function, and the others with PF0, until it is ready again. (R282, R283, R284,
R298, R313, R314, R317, R530, R531, R533, R568) -/
def Obligations.HostLinkAndResets : Prop :=
  (∀ (s : State), s.cpr.perst = false →
    let v := standbyWake s;
    exec .perstAssert s = .next (hostReset { v with cpr := { v.cpr with perst := true, perstAt := v.time } })) ∧
  (∀ (s : State), s.cpr.aonSleep = false →
    let v := standbyWake s;
    let u := setFn 0 { fnr v 0 with resetting := true } { v with cpr := { v.cpr with perst := false } };
    u.cpr.stage = 3 → fld F.HIF_LINK_STAT_LSTATE 0 u = 0 →
    exec .perstDeassert s = .next (put F.HIF_LINK_STAT_LSTATE 0 1 u)) ∧
  (∀ (s : State), (hostReset s).cpr.perst = false →
    exec (.linkResetEvent .hotReset) s = .next (put F.HIF_LINK_STAT_LSTATE 0 1 (hostReset s))) ∧
  (∀ (s : State), (hostReset (count F.HIF_LINK_ERR_DOWN 0 s)).cpr.perst = false →
    exec (.linkResetEvent .linkDown) s = .next (put F.HIF_LINK_STAT_LSTATE 0 1 (hostReset (count F.HIF_LINK_ERR_DOWN 0 s)))) ∧
  (∀ (sp : Fin 8) (wd : Fin 8) (fl : Bool) (s : State), s.cpr.perst = false → s.cpr.frozen = false → s.cpr.hostOff = false →
    fld F.HIF_LINK_STAT_LSTATE 0 s ≠ 0 → 1 ≤ sp.val → sp.val ≤ capSpeed s → (wd.val = 1 ∨ wd.val = 2 ∨ wd.val = 4) → wd.val ≤
    capWidth s →
    let u := put F.HIF_LINK_STAT_FLIT 0 (fl || sp.val == 6).toNat (put F.HIF_LINK_STAT_LSTATE 0 2 (put F.HIF_LINK_STAT_SPEED 0
      sp.val (put F.HIF_LINK_STAT_WIDTH 0 wd.val s)));
    ∃ t, exec (.linkTrained sp wd fl) s = .next t ∧ (flag F.HIF_LINK_CAP_SRIS 0 s = boardSris → fld F.HIF_LINK_STAT_LSTATE 0 t
      = 2 ∧ fld F.HIF_LINK_STAT_SPEED 0 t = sp.val ∧ fld F.HIF_LINK_STAT_WIDTH 0 t = wd.val ∧ t =
      { s with regs := t.regs, cpr := { s.cpr with unseen := putBit s.cpr.unseen 1 false } }) ∧ t =
      { s with regs := t.regs, cpr := t.cpr, free := t.free }) ∧
  (∀ (s : State), fld F.HIF_LINK_STAT_LSTATE 0 s = 2 → fld F.HIF_LINK_CTL_L1_IDLE 0 s ≠ 0 → (rd R.CFG_LINKCTL 0 0 s).testBit 1
    = true → (rd R.CFG_L1PMCTL 0 0 s).testBit 3 = false →
    exec .aspmL1Entry s = .next (put F.HIF_LINK_STAT_LSTATE 0 4 s)) ∧
  (∀ (f : Fin 64) (s : State), deaf s = false →
    let u0 := inbound s;
    cfgReady u0 f = true → f.val ≠ 0 →
    let u := fnReset f u0;
    exec (.flr f) s = .next (setFn f { fnr u f with resetting := true } u)) ∧
  (∀ (f : Fin 64) (s : State), exec (.flrReady f) s = .next (setFn f { fnr s f with resetting := false } s))

/-- A tail doorbell inside the free part of its queue moves the tail and asks for entries; a head doorbell inside the posted
part moves the head; a queue that does not exist, or a value outside, is an invalid doorbell write; entries that have
arrived join their queue; a function whose memory space is off drops the access. CC.EN from 0 to 1 takes the admin queues
and judges readiness; from 1 to 0 resets the controller; SHN 01b or 10b starts shutdown processing; INTMS sets mask bits and
INTMC clears them, for PF0 with its interrupt pins. (R296, R310, R311, R313, R321, R324, R325, R331, R359) -/
def Obligations.DoorbellsAndControllers : Prop :=
  (∀ (f : Fin 64) (q : Fin 65) (v : BitVec 32) (x : Sq) (s : State), deaf s = false →
    let u0 := inbound s;
    memEnabled u0 f = true → flag F.FLT_STAT_SAFE 0 u0 = false → sq u0 f q = some x → v.toNat % 65536 < x.size → ringSpan
      x.size x.head x.tail ≤ ringSpan x.size x.head (v.toNat % 65536) →
    exec (.sqTailDoorbell f q v) s = .next (fetchSq f q (setSq f q { x with tail := v.toNat % 65536 } u0))) ∧
  (∀ (f : Fin 64) (q : Fin 65) (v : BitVec 32) (s : State), deaf s = false →
    let u0 := inbound s;
    memEnabled u0 f = true → flag F.FLT_STAT_SAFE 0 u0 = false → sq u0 f q = none →
    exec (.sqTailDoorbell f q v) s = .next (doorbellBad f 0 u0)) ∧
  (∀ (f : Fin 64) (q : Fin 65) (v : BitVec 32) (x : Sq) (s : State), deaf s = false →
    let u0 := inbound s;
    memEnabled u0 f = true → flag F.FLT_STAT_SAFE 0 u0 = false → sq u0 f q = some x → x.size ≤ v.toNat % 65536 →
    exec (.sqTailDoorbell f q v) s = .next (doorbellBad f 1 u0)) ∧
  (∀ (f : Fin 64) (q : Fin 65) (v : BitVec 32) (c : Cq) (s : State), deaf s = false →
    let u0 := inbound s;
    memEnabled u0 f = true → flag F.FLT_STAT_SAFE 0 u0 = false → f.val ≠ 0 → cq u0 f q = some c → v.toNat % 65536 < c.size →
      ringSpan c.size c.head (v.toNat % 65536) ≤ ringSpan c.size c.head c.tail →
    exec (.cqHeadDoorbell f q v) s = .next (setCq f q { c with head := v.toNat % 65536 } u0)) ∧
  (∀ (f : Fin 64) (q : Fin 65) (v : BitVec 32) (c : Cq) (s : State), deaf s = false →
    let u0 := inbound s;
    memEnabled u0 f = true → flag F.FLT_STAT_SAFE 0 u0 = false → cq u0 f q = some c → c.size ≤ v.toNat % 65536 →
    exec (.cqHeadDoorbell f q v) s = .next (doorbellBad f 1 u0)) ∧
  (∀ (f : Fin 64) (q : Fin 65) (r : HostReq) (x : Sq) (s : State), Tab.get? s.deck.reqs (doneKey f q) = some r → sq s f q =
    some x →
    let u := { s with deck := { s.deck with reqs := Tab.erase s.deck.reqs (doneKey f q) } };
    exec (.sqEntryFetched f q) s = .next (restLink (fetchAfter f q (setSq f q
      { x with got := x.got ++ (List.range (r.len / 64)).map (fun i => (r.got.drop (64 * i)).take 64) } u)))) ∧
  (∀ (f : Fin 64) (q : Fin 65) (v : BitVec 32) (s : State), deaf s = false →
    let u0 := inbound s;
    memEnabled u0 f = false →
    exec (.sqTailDoorbell f q v) s = .next (barDrop f true (bar0 u0 f + 0x1000 + 8 * q) 4 u0)) ∧
  (∀ (f : Fin 64) (q : Fin 65) (v : BitVec 32) (s : State), deaf s = true → exec (.sqTailDoorbell f q v) s = .next (s)) ∧
  (∀ (f : Fin 64) (w : BusW) (s : State), deaf s = false →
    let u0 := inbound s;
    memEnabled u0 f = true →
    let u := busWrite R.NVME_CC f 0 w u0;
    wrote1 0 w = true → flag F.CC_EN f u = false →
    exec (.ccEnable f w) s = .next (readyUpdate f (adminQueues f (put F.CC_EN f 1 u)))) ∧
  (∀ (f : Fin 64) (w : BusW) (s : State), deaf s = false →
    let u0 := inbound s;
    memEnabled u0 f = true →
    let u := busWrite R.NVME_CC f 0 w u0;
    wrote0 0 w = true → flag F.CC_EN f u = true →
    let v := fnResetDeck f (put F.CC_EN f 0 u);
    exec (.ccDisable f w) s = .next (wr R.NVME_CSTS f 0 0 (wr R.VFW_STAT f 0 0 v))) ∧
  (∀ (f : Fin 64) (w : BusW) (s : State), deaf s = false →
    let u0 := inbound s;
    memEnabled u0 f = true → w.be.testBit 1 = true → (bitsOf w.data 15 14 = 1 ∨ bitsOf w.data 15 14 = 2) →
    exec (.ccShutdown f w) s = .next (put F.CSTS_SHST f 2 (put F.CC_SHN f (bitsOf w.data 15 14) (busWrite R.NVME_CC f 0 w
      u0)))) ∧
  (∀ (f : Fin 64) (w : BusW) (s : State), deaf s = false →
    let u0 := inbound s;
    memEnabled u0 f = true → f.val ≠ 0 →
    exec (.intmsWrite f w) s = .next (put F.INTMS f (fld F.INTMS f u0 ||| (w.data &&& beMask 4 w.be)) u0)) ∧
  (∀ (w : BusW) (s : State), deaf s = false →
    let u0 := inbound s;
    memEnabled u0 0 = true →
    exec (.intmsWrite 0 w) s = .next (intxUpdate (msiPend (put F.INTMS 0 (fld F.INTMS 0 u0 ||| (w.data &&& beMask 4 w.be))
      u0)))) ∧
  (∀ (w : BusW) (s : State), deaf s = false →
    let u0 := inbound s;
    memEnabled u0 0 = true →
    exec (.intmcWrite 0 w) s = .next (intxUpdate (flushMsi (put F.INTMS 0 (fld F.INTMS 0 u0 - (fld F.INTMS 0 u0 &&& (w.data
      &&& beMask 4 w.be))) u0))))

/-- A write stores each named byte that falls inside the function's share, at its place in the buffer; a poisoned one marks
every granule it touches and is reported, a clean one clears the mark of the granules it covers whole; a read answers with
those bytes and their poison, and 0 beyond the share. Bus Master Enable cleared starts a stall and set ends it; a stall that
lasts BME_TMO resets the function, silences it and is reported to checker 41; D3hot stalls a bus master and D0 ends the
stall; VF Enable sets, and clear resets every VF. (R288, R292, R301, R302, R303, R305, R306, R307, R313, R316, R359, R360)
-/
def Obligations.HostMemoryAndPower : Prop :=
  (∀ (f : Fin 64) (off : BitVec 22) (bs : List (Option Byte)) (ep : Bool) (s : State), deaf s = false →
    let u0 := inbound s;
    memEnabled u0 f = true →
    let u := if ep then poisIn f (memHdr u0 (bar2 u0 f + off.toNat) bs.length true true) u0 else u0;
    let n := if barOpen u f then (share u f).2 else 0;
    let ws := bs.zipIdx.filterMap (fun e => match e.1 with | some v => if off.toNat + e.2 < n then some ((share u f).1 +
                                                             off.toNat + e.2, v) else none | none => none);
    let gs := (ws.map (fun e => e.1 / 64)).eraseDups;
    exec (.cmbWrite f off bs ep) s = .next ({ u with deck := { u.deck with cmb := each ws (fun e t => Tab.put t e.1 e.2)
                                                                             u.deck.cmb, cmbPois := if ep then u.deck.cmbPois
                                                                             ++ gs.filter (fun g => !u.deck.cmbPois.contains
                                                                             g) else u.deck.cmbPois.filter (fun g =>
                                                                             !(gs.contains g && (List.range 64).all (fun k =>
                                                                             ws.any (fun e => e.1 == 64 * g + k)))) } })) ∧
  (∀ (f : Fin 64) (off : BitVec 22) (n : Fin 4097) (s : State), deaf s = false →
    let u0 := inbound s;
    memEnabled u0 f = true →
    exec (.cmbRead f off n) s = .next (each (cutCpls (rcb u0) (mps u0 f) off.toNat ((List.range n.val).map (fun k => if
      off.toNat + k < (if barOpen u0 f then (share u0 f).2 else 0) then (cmbByte u0 ((share u0 f).1 + off.toNat + k),
      u0.deck.cmbPois.contains (((share u0 f).1 + off.toNat + k) / 64)) else ((0 : Byte), false)))) (fun c u => poisOut c.2
      (toHost (.cpl f c.1 c.2) u)) u0)) ∧
  (∀ (f : Fin 64) (s : State), deaf s = false →
    let u0 := inbound s;
    cfgReady u0 f = true → flag F.CFG_BME f u0 = true →
    exec (.bmeClear f) s = .next (stallStart f (put F.CFG_BME f 0 u0))) ∧
  (∀ (f : Fin 64) (s : State), deaf s = false →
    let u0 := inbound s;
    cfgReady u0 f = true →
    let u := put F.CFG_BME f 1 u0;
    let v := setFn f { fnr u f with bmeSeen := true } u;
    fld F.CFG_PSTATE f v = 0 →
    exec (.bmeSet f) s = .next (stallEnd f v)) ∧
  (∀ (f : Fin 64) (t0 : Nat) (s : State), (fnr s f).stall = some t0 → t0 + 1000000 * fld1 F.HIF_BME_LIMIT_MS 0 s ≤ s.time →
    Tab.vals s.deck.cmds = [] →
    let u := fnResetDeck f s;
    let v := each (sortBy (·.ord) (Tab.vals u.deck.cmds)) (fun x z => if x.fn == f && detached x then writeCommit x.slot z
      else z) u;
    exec (.bmeStallExpire f) s = .next (restLink (fatalNow f (report 41 (some f) 12 0 0 0 (put F.VFW_STAT_BME_FATAL f 1 (setFn
      f { fnr v f with silent := true } v)))))) ∧
  (∀ (f : Fin 64) (s : State), deaf s = false →
    let u0 := inbound s;
    cfgReady u0 f = true → busMaster u0 f = true →
    exec (.powerStateD3hot f) s = .next (restLink (stallStart f (put F.CFG_PSTATE f 3 u0)))) ∧
  (∀ (f : Fin 64) (s : State), deaf s = false →
    let u0 := inbound s;
    cfgReady u0 f = true →
    let u := wakeLink (put F.CFG_PSTATE f 0 u0);
    flag F.CFG_BME f u = true → (fnr u f).stall.isSome = true →
    exec (.powerStateD0 f) s = .next (stallEnd f u)) ∧
  (∀ (w : BusW) (s : State), deaf s = false →
    let u0 := inbound s;
    cfgReady u0 0 = true → wrote1 0 w = true →
    exec (.vfEnable w) s = .next (put F.VF_EN 0 1 (busWrite R.CFG_SRIOVCTL 0 0 w u0))) ∧
  (∀ (w : BusW) (s : State), deaf s = false →
    let u0 := inbound s;
    cfgReady u0 0 = true → wrote0 0 w = true → flag F.VF_EN 0 (busWrite R.CFG_SRIOVCTL 0 0 w u0) = true →
    exec (.vfDisable w) s = .next (restLink (put F.VF_EN 0 0 (resetVfs (busWrite R.CFG_SRIOVCTL 0 0 w u0))))) ∧
  (∀ (f : Fin 64) (t0 : Nat) (s : State), (fnr s f).stall = some t0 → s.time < t0 + 1000000 * fld1 F.HIF_BME_LIMIT_MS 0 s →
    exec (.bmeStallExpire f) s = .next (s))

/-- An MSI-X vector or the function mask unmasked sends what waits; a change of the interrupt mode clears what is pending; a
completion with data goes to the command that asked, a poisoned submission entry is fatal to its controller, an unexpected
one is an AER error at checker 34, and a request that gets none in time fails. (R4, R285, R293, R294, R298, R299, R300,
R308, R309, R312, R314) -/
def Obligations.InterruptsAndCompletions : Prop :=
  (∀ (f : Fin 64) (v : Fin 2048) (s : State), deaf s = false →
    let u0 := inbound s;
    memEnabled u0 f = true → barOpen u0 f = true → v.val ≤ fld F.MSIX_SIZE f u0 →
    exec (.msixUnmask f (some v)) s = .next (flushMsix f (put2 F.MSIX_MASK f v 0 u0))) ∧
  (∀ (f : Fin 64) (s : State), deaf s = false →
    let u0 := inbound s;
    cfgReady u0 f = true →
    exec (.msixUnmask f none) s = .next (flushMsix f (put F.MSIX_FMASK f 0 u0))) ∧
  (∀ (f : Fin 64) (x : Bool) (m : Bool) (i : Bool) (s : State), deaf s = false →
    let u0 := inbound s;
    cfgReady u0 f = true → f.val ≠ 0 →
    let u := put F.MSIX_EN f x.toNat u0;
    intMode u f ≠ intMode u0 f →
    exec (.intModeChange f x m i) s = .next (upTo 32 (fun k v => put2 F.MSIX_PBA f k 0 v) u)) ∧
  (∀ (f : Fin 64) (tag : Nat) (bs : List Byte) (r : HostReq) (k : Nat) (o : Nat) (s : State), deaf s = false →
    let u0 := inbound s;
    tag < 16384 → Tab.get? u0.deck.reqs (tagKey f tag) = some r → r.kind = .data k o →
    let n := r.len - r.got.length;
    let u := { u0 with deck := { u0.deck with reqs := if r.len ≤ (r.got ++ bs.take n).length then Tab.erase u0.deck.reqs
                                                (tagKey f tag) else Tab.put u0.deck.reqs (tagKey f tag)
                                                { r with got := r.got ++ bs.take n } } };
    exec (.completionReceived f tag bs false false) s = .next (restLink (tagGo (xferGo k (cmdTake k (o + r.got.length)
      ((bs.take n).map (fun b => (b, false))) u))))) ∧
  (∀ (f : Fin 64) (tag : Nat) (bs : List Byte) (s : State), deaf s = false →
    let u0 := inbound s;
    tag < 16384 → Tab.get? u0.deck.reqs (tagKey f tag) = none → Tab.get? u0.deck.flushed (tagKey f tag) = none → fnOn u0 f =
      true →
    exec (.completionReceived f tag bs false false) s = .next (aerUnc f 16 true (cplHdr u0 f tag (!bs.isEmpty) false false)
      (report 34 (some f.val) 12 1 0 0 u0))) ∧
  (∀ (f : Fin 64) (tag : Nat) (r : HostReq) (s : State), tag < 16384 → Tab.get? s.deck.reqs (tagKey f tag) = some r → flag
    F.CFG_CTODIS f s = false →
    exec (.completionTimeout f tag) s = .next (restLink (tagGo (reqFail (tagKey f tag) (aerUnc f 14 true [] (report 34 (some
      f.val) 12 1 r.addr 0 s))))))

/-- The next function and queue in turn has an entry admitted; the oldest command that waits for a choker entry takes one; the
first choker that conflicts with none before it is granted, to its command, port, salvage stripe or to cruise; a port asks
for a range and releases it. (R300, R325, R329, R330, R331, R332, R333, R345, R347, R348, R349, R353) -/
def Obligations.AdmissionAndChokers : Prop :=
  (∀ (f : Nat) (q : Nat) (s : State), admitNext s = some (f, q) → exec .admitEntry s = .next (admitFrom f q s)) ∧
  (∀ (x : Cmd) (s : State), entryNext s = some x →
    let u := setCmd { x with phase := .chokeWait, ck := chkFree s } s;
    exec .chokerEntryTake s = .next (chkEnter (nsidOf x) (chokeRange s x).1 (chokeRange s x).2.1 (chokeRange s x).2.2 (.cmd
      x.slot) u)) ∧
  (∀ (e : Choke) (k : Nat) (s : State), chkGrantable [] s.deck.chk = some e → e.holder = .cmd k →
    exec .chokerGrant s = .next (cmdGranted k (chkGrant e.idx s))) ∧
  (∀ (e : Choke) (k : Nat) (s : State), chkGrantable [] s.deck.chk = some e → e.holder = .port k →
    exec .chokerGrant s = .next (raiseEvent (128 + k) (put F.CHK_PORT_CTL_WAIT k 0 (put F.CHK_PORT_CTL_GRANTED k 1 (chkGrant
      e.idx s))))) ∧
  (∀ (e : Choke) (k : Nat) (s : State), chkGrantable [] s.deck.chk = some e → e.holder = .salv k →
    exec .chokerGrant s = .next (salvGranted k (chkGrant e.idx s))) ∧
  (∀ (p : Fin 4) (w : BusW) (i : Nat) (s : State),
    let u := busWrite R.CHK_PORT_CTL p 0 w s;
    wrote1 31 w = true → flag F.CHK_PORT_CTL_GO p u = false → fld F.CHK_PORT_FIRST_UNIT p u ≤ fld F.CHK_PORT_LAST_UNIT p u →
      fld F.CHK_PORT_CTL_NSID p u ≠ 0 → fld F.CHK_PORT_CTL_NSID p u ≤ 256 → chkFree u = some i →
    let v := chkEnter (fld F.CHK_PORT_CTL_NSID p u) (fld F.CHK_PORT_FIRST_UNIT p u) (fld F.CHK_PORT_LAST_UNIT p u) (flag
      F.CHK_PORT_CTL_EXCL p u) (.port p) u;
    exec (.chkPortGo p w) s = .next (put F.CHK_PORT_CTL_GRANTED p 0 (put F.CHK_PORT_CTL_WAIT p 1 (put F.CHK_PORT_CTL_GO p 1
      (put F.CHK_PORT_CTL_REFUSED p 0 (put F.CHK_PORT_CTL_ENTRY p i v)))))) ∧
  (∀ (p : Fin 4) (w : BusW) (s : State),
    let u := busWrite R.CHK_PORT_CTL p 0 w s;
    wrote1 31 w = true → flag F.CHK_PORT_CTL_GO p u = false → fld F.CHK_PORT_LAST_UNIT p u < fld F.CHK_PORT_FIRST_UNIT p u →
    exec (.chkPortGo p w) s = .next (put F.CHK_PORT_CTL_REFUSED p 1 u)) ∧
  (∀ (p : Fin 4) (w : BusW) (s : State),
    let u := busWrite R.CHK_PORT_REL p 0 w s;
    wrote1 31 w = true → flag F.CHK_PORT_CTL_GO p u = true → fld F.CHK_PORT_REL_ENTRY p u = fld F.CHK_PORT_CTL_ENTRY p u →
    exec (.chkPortRel p w) s = .next (put F.CHK_PORT_CTL_GO p 0 (put F.CHK_PORT_CTL_WAIT p 0 (put F.CHK_PORT_CTL_GRANTED p 0
      (chkRelease (.port p) u)))))

/-- IO_EN releases held commands, PAUSE shows PAUSED, ADMIN_EN judges every controller's readiness and recovers the commit of
a boot; limits that ask too much are refused with CFG_ERR; a completion entry is posted at the tail and frees its slot; TLER
ends an unfinished read; a coalesced vector interrupts in time. (R295, R304, R305, R321, R329, R331, R337, R346, R361, R365,
R475, R511) -/
def Obligations.DeckControlAndEnds : Prop :=
  (∀ (w : BusW) (s : State), wrote1 1 w = true → Tab.vals s.deck.cmds = [] → Tab.vals (busWrite R.DECK_CTL 0 0 w s).deck.cmds
    = [] →
    exec (.deckIoEn w) s = .next (put F.DECK_CTL_IO_EN 0 1 (busWrite R.DECK_CTL 0 0 w s))) ∧
  (∀ (w : BusW) (s : State), wrote1 1 w = false → wrote0 1 w = true →
    exec (.deckIoEn w) s = .next (put F.DECK_CTL_IO_EN 0 0 (busWrite R.DECK_CTL 0 0 w s))) ∧
  (∀ (w : BusW) (s : State), wrote1 2 w = true →
    exec (.deckPause w) s = .next (put F.DECK_STAT_PAUSED 0 1 (put F.DECK_CTL_PAUSE 0 1 (busWrite R.DECK_CTL 0 0 w s)))) ∧
  (∀ (w : BusW) (s : State), wrote1 2 w = false → wrote0 2 w = true →
    exec (.deckPause w) s = .next (put F.DECK_STAT_PAUSED 0 0 (put F.DECK_CTL_PAUSE 0 0 (busWrite R.DECK_CTL 0 0 w s)))) ∧
  (∀ (w : BusW) (s : State), wrote1 0 w = true →
    exec (.deckAdminEn w) s = .next (upTo 64 readyUpdate (bootCommit (put F.DECK_CTL_ADMIN_EN 0 1 (busWrite R.DECK_CTL 0 0 w
      s))))) ∧
  (∀ (f : Fin 64) (w : BusW) (s : State), slotMinSum (busWrite R.DECK_FN f 0 w s) ≤ 4032 → fld F.DECK_FN_SLOT_MIN f (busWrite
    R.DECK_FN f 0 w s) ≤ fld F.DECK_FN_SLOT_MAX f (busWrite R.DECK_FN f 0 w s) →
    exec (.deckFnWrite f w) s = .next (busWrite R.DECK_FN f 0 w s)) ∧
  (∀ (f : Fin 64) (w : BusW) (s : State), fld F.DECK_FN_SLOT_MAX f (busWrite R.DECK_FN f 0 w s) < fld F.DECK_FN_SLOT_MIN f
    (busWrite R.DECK_FN f 0 w s) →
    exec (.deckFnWrite f w) s = .next (put F.DECK_STAT_CFG_ERR 0 1 s)) ∧
  (∀ (f : Fin 64) (q : Fin 65) (c : Cq) (e : CplEnt) (l : List CplEnt) (s : State), cq s f q = some c → c.wait = e :: l →
    canIssue s f = true → safe s = false → (c.tail + 1) % max 1 c.size ≠ c.head → e.slot = none → c.ien = false →
    let n := (c.tail + 1) % max 1 c.size;
    let u := toHost (.hostWrite f (c.base + 16 * c.tail) (cplBytes s f e c.phase) false false) s;
    cplBehind s f q e = false →
    exec (.completionPost f q) s = .next (fetchAll (setCq f q
      { c with wait := l, tail := n, phase := if n = 0 then !c.phase else c.phase } u))) ∧
  (∀ (k : Fin 4096) (x : Cmd) (s : State), cmd s k = some x → readClass x = true → x.phase ≠ .done → feature s x.fn 5 % 65536
    ≠ 0 → x.phase = .active → x.ust.length < x.need →
    let us := unitSts s x;
    let lba := ((nsr s (nsidOf x)).map (fun r => failLba s r x us)).getD (slba x);
    let u := (match x.op with | some o => withdraw o s | none => s);
    exec (.tlerExpire k) s = .next (orderGo x.fn x.sq (cmdEndAt
      { x with ck := none, flags := x.flags ||| (if us.any (fun e => e.2 == 1) then 6 else 4) } 0x281 0 lba (chkRelease (.cmd
      x.slot) (dropReqs x.slot u))))) ∧
  (∀ (f : Fin 64) (v : Fin 2048) (e : Nat × Nat) (s : State), Tab.get? (fnr s f).unsig v.val = some e → e.2 + 100000 *
    (feature s f 8 / 256 % 256) ≤ s.time → canIssue s f = true →
    exec (.coalesceTimeout f v) s = .next (interrupt f v (setFn f { fnr s f with unsig := Tab.erase (fnr s f).unsig v.val }
      s))) ∧
  (∀ (f : Fin 64) (v : Fin 2048) (e : Nat × Nat) (s : State), Tab.get? (fnr s f).unsig v.val = some e → s.time < e.2 + 100000
    * (feature s f 8 / 256 % 256) →
    exec (.coalesceTimeout f v) s = .next (s))

/-- A granted Read, Ordered Read, Verify or Compare of the slot starts the reads of its units with the landing buffers drive
firmware gives it. A granted Write, Ordered Write or Write Zeroes starts; with its data whole and its checks passed it
commits: its entry joins the protected cache and it completes with status 0; one that fails a check, or whose media could
not take it, ends with that status; one that the order or the landing holds waits; Flush ends when no earlier write of its
queue is uncommitted and no failed Barrier stands before it; a Barrier after which nothing failed ends with status 0 and
clears the queue's failure mark. (R131, R257, R264, R335, R338, R349, R350, R351, R352, R567) -/
def Obligations.ReadAndWriteCommands : Prop :=
  (∀ (k : Fin 4096) (l : LandBufs) (x : Cmd) (s : State), granted s k 0x02 = some x →
    exec (.read k l) s = .next (startUnits x l s)) ∧
  (∀ (k : Fin 4096) (l : LandBufs) (x : Cmd) (s : State), granted s k 0x82 = some x →
    exec (.orderedRead k l) s = .next (startUnits x l s)) ∧
  (∀ (k : Fin 4096) (l : LandBufs) (x : Cmd) (s : State), granted s k 0x0C = some x →
    exec (.verify k l) s = .next (startUnits x l s)) ∧
  (∀ (k : Fin 4096) (l : LandBufs) (x : Cmd) (s : State), granted s k 0x05 = some x →
    exec (.compare k l) s = .next (startUnits x l s)) ∧
  (∀ (k : Fin 4096) (l : LandBufs) (x : Cmd) (s : State), granted s k 0x01 = some x →
    exec (.write k l) s = .next (startWrite x l s)) ∧
  (∀ (k : Fin 4096) (l : LandBufs) (x : Cmd) (s : State), granted s k 0x81 = some x →
    exec (.orderedWrite k l) s = .next (startWrite x l s)) ∧
  (∀ (k : Fin 4096) (l : LandBufs) (x : Cmd) (s : State), granted s k 0x08 = some x →
    exec (.writeZeroes k l) s = .next (startWrite x l s)) ∧
  (∀ (k : Fin 4096) (x : Cmd) (r : NsRec) (s : State), cmd s k = some x → nsr s (nsidOf x) = some r → x.phase = .active →
    writeClass x = true → x.commit = false → (cmdLen s x).1 + mdLen s x ≤ x.got → x.merged = true → x.dfail = none → sqBroken
    s x = false → mayCommit s x = true → xferBusy s r x = false → detached x = false →
    let u := piInsert r x (mergeIn k (xferLook r x s));
    (writeStatus u r x).1 = 0 →
    let p := unitsOf r x;
    let e := (⟨nsidOf x, r.gen, p.1, p.2 + 1 - p.1, x.buf, x.md, x.fn, []⟩ : CacheEnt);
    let v := { u with deck := { u.deck with cache := u.deck.cache ++ [e] } };
    let y := { x with commit := true, flags := x.flags ||| (if x.pois then 8 else 0) ||| (if (writeParts v r p).2 then 16 else
                        0) };
    let b := dataBytes v y;
    exec (.writeDataReceived k) s = .next (orderGo x.fn x.sq (sqAdvance y.fn y.sq (orphanClear y (cmdEnd y 0 0 (if opc x = 8
      then v else tally x.fn 4 1 (tally x.fn 2 b.2 (tally x.fn 1 b.1 v)))))))) ∧
  (∀ (k : Fin 4096) (x : Cmd) (r : NsRec) (s : State), cmd s k = some x → nsr s (nsidOf x) = some r → x.phase = .active →
    writeClass x = true → x.commit = false → (cmdLen s x).1 + mdLen s x ≤ x.got → x.merged = true → x.dfail = none → sqBroken
    s x = false → mayCommit s x = true → xferBusy s r x = false → detached x = false →
    let u := piInsert r x (mergeIn k (xferLook r x s));
    (writeStatus u r x).1 ≠ 0 →
    exec (.writeDataReceived k) s = .next (orderGo x.fn x.sq (cmdEndAt x (writeStatus u r x).1 0 (writeStatus u r x).2 u))) ∧
  (∀ (k : Fin 4096) (x : Cmd) (r : NsRec) (s : State), cmd s k = some x → nsr s (nsidOf x) = some r → x.phase = .active →
    writeClass x = true → x.commit = false → (cmdLen s x).1 + mdLen s x ≤ x.got → x.merged = true → x.dfail = none → sqBroken
    s x = false → (mayCommit s x = false ∨ xferBusy s r x = true) →
    exec (.writeDataReceived k) s = .next (orderGo x.fn x.sq (setCmd { x with due := true } s))) ∧
  (∀ (k : Fin 4096) (x : Cmd) (s : State), running s k 0x00 = some x → (earlier s x).any writeClass = false → mayCommit s x =
    true →
    exec (.flush k) s = .next (orderGo x.fn x.sq (cmdEnd { x with commit := true } 0 0 s))) ∧
  (∀ (k : Fin 4096) (x : Cmd) (q : Sq) (r : Sq) (s : State), running s k 0x84 = some x → earlier s x = [] → sq s x.fn x.sq =
    some q → q.failed = [] →
    let u := cmdEnd { x with commit := true } 0 0 s;
    sq u x.fn x.sq = some r →
    exec (.barrier k) s = .next (orderGo x.fn x.sq (setSq x.fn x.sq
      { r with failed := r.failed.filter (x.ord < ·), broken := none } u)))

/-- A queue with a free identifier, a size of 2 to 4,096 entries, an aligned and contiguous base, an existing completion queue
and an available vector is created; a used identifier ends 101h; a deleted submission queue aborts its commands; a
completion queue is deleted when no submission queue uses it, and else ends 10Ch. Abort of a command that is not found ends
with bit 0 of Dword 0 set, and of one before its commit point ends it with 007h; an Asynchronous Event Request takes a held
event at once, waits when there is none, and ends 105h beyond four; Set Features stores a value whose bits the feature has,
and is refused a saved one; Get Features answers the current value, the capabilities and the default. (R323, R327, R332,
R334, R336, R358, R362, R363, R364, R372) -/
def Obligations.QueuesAndFeatures : Prop :=
  (∀ (k : Fin 4096) (x : Cmd) (s : State), adm s k 0x05 = some x → (cdw x 11).testBit 0 = true → inBar2 s x.fn (le x.sqe 24 8)
    = false →
    let q := cdw x 10 % 65536;
    let n := cdw x 10 / 65536 + 1;
    q ≠ 0 → q ≤ ioPairs s x.fn → cq s x.fn q = none → 2 ≤ n → n ≤ 4096 → le x.sqe 24 8 % 4096 = 0 → cdw x 11 / 65536 < vecs s
      x.fn →
    exec (.createIoCq k) s = .next (admEnd x 0 0 (setCq x.fn q ⟨le x.sqe 24 8, n, cdw x 11 / 65536, (cdw x 11).testBit 1, 0,
      0, true, []⟩ s))) ∧
  (∀ (k : Fin 4096) (x : Cmd) (s : State), adm s k 0x05 = some x → (cdw x 11).testBit 0 = true → inBar2 s x.fn (le x.sqe 24 8)
    = false →
    let q := cdw x 10 % 65536;
    let n := cdw x 10 / 65536 + 1;
    q ≠ 0 → q ≤ ioPairs s x.fn → (cq s x.fn q).isSome = true →
    exec (.createIoCq k) s = .next (admEnd x (0x101 + dnr) 0 s)) ∧
  (∀ (k : Fin 4096) (x : Cmd) (s : State), adm s k 0x01 = some x → (cdw x 11).testBit 0 = true →
    let q := cdw x 10 % 65536;
    let n := cdw x 10 / 65536 + 1;
    let c := cdw x 11 / 65536;
    let g := segOf s x.fn (le x.sqe 24 8) (64 * n);
    segsBad s x.fn false [g] = false → q ≠ 0 → q ≤ ioPairs s x.fn → sq s x.fn q = none → c ≠ 0 → (cq s x.fn c).isSome = true →
      2 ≤ n → n ≤ 4096 → le x.sqe 24 8 % 4096 = 0 →
    exec (.createIoSq k) s = .next (admEnd x 0 0 (setSq x.fn q ⟨g.2.1, n, c, g.1 == 1, 0, 0, 0, [], 0, [], none⟩ s))) ∧
  (∀ (k : Fin 4096) (x : Cmd) (s : State), adm s k 0x00 = some x →
    let q := cdw x 10 % 65536;
    q ≠ 0 → (sq s x.fn q).isSome = true →
    let u := flushReqs (fun r => r.fn == x.fn && (match r.kind with | .sqFetch p _ => p == q | _ => false)) (each (ofSq s x.fn
      q) (fun c v => resolveWith 0x008 c v) s);
    exec (.deleteIoSq k) s = .next (admEnd x 0 0 (setFn x.fn { fnr u x.fn with sqs := Tab.erase (fnr u x.fn).sqs q } u))) ∧
  (∀ (k : Fin 4096) (x : Cmd) (c : Cq) (s : State), adm s k 0x04 = some x →
    let q := cdw x 10 % 65536;
    cq s x.fn q = some c → c.wait = [] → q ≠ 0 → (fnr s x.fn).sqs.any (fun e => e.2.cq == q) = false →
    let u := setFn x.fn { fnr s x.fn with cqs := Tab.erase (fnr s x.fn).cqs q } s;
    exec (.deleteIoCq k) s = .next (admEnd x 0 0 (if x.fn = 0 then intxUpdate u else u))) ∧
  (∀ (k : Fin 4096) (x : Cmd) (s : State), adm s k 0x04 = some x →
    let q := cdw x 10 % 65536;
    (cq s x.fn q).isSome = true → q ≠ 0 → (fnr s x.fn).sqs.any (fun e => e.2.cq == q) = true →
    exec (.deleteIoCq k) s = .next (admEnd x (0x10C + dnr) 0 s)) ∧
  (∀ (k : Fin 4096) (x : Cmd) (s : State), adm s k 0x08 = some x →
    let q := cdw x 10 % 65536;
    let id := cdw x 10 / 65536;
    ((Tab.vals s.deck.cmds).filter (fun c => c.fn == x.fn && isAdmin c && opc c == 8 && c.phase != .done)).length ≤ 8 →
      (Tab.vals s.deck.cmds).filter (fun c => c.fn == x.fn && c.sq == q && !detached c && cidOf c == id && c.slot != x.slot &&
      c.phase != .done) = [] →
    exec (.abort k) s = .next (admEnd x 0 1 s)) ∧
  (∀ (k : Fin 4096) (x : Cmd) (c : Cmd) (s : State), adm s k 0x08 = some x →
    let q := cdw x 10 % 65536;
    let id := cdw x 10 / 65536;
    ((Tab.vals s.deck.cmds).filter (fun c => c.fn == x.fn && isAdmin c && opc c == 8 && c.phase != .done)).length ≤ 8 →
      (Tab.vals s.deck.cmds).filter (fun c => c.fn == x.fn && c.sq == q && !detached c && cidOf c == id && c.slot != x.slot &&
      c.phase != .done) = [c] → isAdmin c = false → (c.commit && writeClass c) = false →
    let u := resolveWith 0x007 c s;
    exec (.abort k) s = .next (orderGo c.fn c.sq (admEnd x 0 0 (setFn x.fn
      { fnr u x.fn with aer := (fnr u x.fn).aer.filter (· != c.slot) } u)))) ∧
  (∀ (k : Fin 4096) (x : Cmd) (s : State), adm s k 0x0C = some x → (fnr s x.fn).events = [] → (fnr s x.fn).aer.length < 4 →
    exec (.asyncEventRequest k) s = .next (setCmd { x with phase := .active } (setFn x.fn
      { fnr s x.fn with aer := (fnr s x.fn).aer ++ [x.slot] } s))) ∧
  (∀ (k : Fin 4096) (x : Cmd) (ty : Nat) (i : Nat) (l : List (Nat × Nat)) (s : State), adm s k 0x0C = some x → (fnr s
    x.fn).events = (ty, i) :: l →
    exec (.asyncEventRequest k) s = .next (admEnd x 0 (ty + i * 256 + aerPage ty i * 65536) (setFn x.fn
      { fnr s x.fn with events := l } s))) ∧
  (∀ (k : Fin 4096) (x : Cmd) (m : Nat) (s : State), adm s k 0x09 = some x →
    let fid := cdw x 10 % 256;
    featBits fid = some m → (cdw x 10).testBit 31 = false → cdw x 11 &&& m = cdw x 11 → fid ∈ [1, 8, 10, 11, 0xC1] →
    exec (.setFeatures k) s = .next (admEnd x 0 0 (setFn x.fn
      { fnr s x.fn with feat := Tab.put (fnr s x.fn).feat fid (cdw x 11) } s))) ∧
  (∀ (k : Fin 4096) (x : Cmd) (s : State), adm s k 0x09 = some x → (featBits (cdw x 10 % 256)).isSome = true → (cdw x
    10).testBit 31 = true →
    exec (.setFeatures k) s = .next (admEnd x (0x10D + dnr) 0 s)) ∧
  (∀ (k : Fin 4096) (x : Cmd) (s : State), adm s k 0x0A = some x →
    let fid := cdw x 10 % 256;
    fid ∈ [1, 2, 5, 8, 10, 11, 0xC1] → cdw x 10 / 256 % 8 = 0 →
    exec (.getFeatures k) s = .next (admEnd x 0 (feature s x.fn fid) s))

/-- Identify Controller answers its structure, Identify Namespace that of an attached namespace, and one that is not attached
ends Invalid Namespace; a secondary controller goes offline, takes queue pairs and vectors while offline, and goes online
with two queue pairs and one vector at least; a flexible allocation of the primary controller is refused. Create takes the
lowest free NSID with a new generation, writes its entry and its extents to the namespace table and answers the NSID;
Delete, with its choker granted, drops the namespace's data and records and clears the entry's VALID bit; Format gives it a
new format and generation; Attach and Detach change the set of controllers and notify them. (R239, R240, R289, R321, R326,
R328, R334, R338, R339, R340, R341) -/
def Obligations.IdentifyAndNamespaces : Prop :=
  (∀ (k : Fin 4096) (x : Cmd) (s : State), adm s k 0x06 = some x → outReady s x = true → cdw x 10 % 256 = 1 →
    exec (.identify k) s = .next (admSend x (idCtrl s x.fn) 0 s)) ∧
  (∀ (k : Fin 4096) (x : Cmd) (s : State), adm s k 0x06 = some x → outReady s x = true → cdw x 10 % 256 = 0 → nsidOf x ≠
    0xFFFFFFFF → attachedTo s (nsidOf x) x.fn = true →
    exec (.identify k) s = .next (admSend x (((nsr s (nsidOf x)).map idNs).getD []) 0 s)) ∧
  (∀ (k : Fin 4096) (x : Cmd) (s : State), adm s k 0x06 = some x → outReady s x = true → cdw x 10 % 256 = 0 → nsidOf x ≠
    0xFFFFFFFF → attachedTo s (nsidOf x) x.fn = false →
    exec (.identify k) s = .next (admEnd x stNs 0 s)) ∧
  (∀ (k : Fin 4096) (x : Cmd) (n : Nat) (s : State), admAct s k 0x1C 7 = some x → vmFn x = some n → (fnr s n).online = false →
    exec (.vmSecondaryOffline k) s = .next (admEnd x 0 0 (setFn n { fnr s n with online := false } s))) ∧
  (∀ (k : Fin 4096) (x : Cmd) (n : Nat) (s : State), admAct s k 0x1C 7 = some x → vmFn x = some n → (fnr s n).online = true →
    let u := wr R.NVME_CSTS n 0 0 (wr R.VFW_STAT n 0 0 (fnResetDeck n s));
    exec (.vmSecondaryOffline k) s = .next (admEnd x 0 0 (setFn n { fnr u n with online := false } u))) ∧
  (∀ (k : Fin 4096) (x : Cmd) (n : Nat) (s : State), admAct s k 0x1C 8 = some x → vmFn x = some n → (fnr s n).online = false →
    cdw x 10 / 256 % 8 = 0 →
    let q := cdw x 11 % 65536;
    q ≤ 65 → vmOthers s n (·.nq) + q ≤ 959 →
    exec (.vmSecondaryAssign k) s = .next (admEnd x 0 q (setFn n { fnr s n with nq := q } s))) ∧
  (∀ (k : Fin 4096) (x : Cmd) (n : Nat) (s : State), admAct s k 0x1C 8 = some x → vmFn x = some n → (fnr s n).online = true →
    exec (.vmSecondaryAssign k) s = .next (admEnd x (0x120 + dnr) 0 s)) ∧
  (∀ (k : Fin 4096) (x : Cmd) (n : Nat) (s : State), admAct s k 0x1C 9 = some x → vmFn x = some n → 2 ≤ (fnr s n).nq → 1 ≤
    (fnr s n).nv →
    let u := put F.MSIX_SIZE n ((fnr s n).nv - 1) (setFn n { fnr s n with online := true, everOnline := true } s);
    fnOn u n = false →
    exec (.vmSecondaryOnline k) s = .next (admEnd x 0 0 u)) ∧
  (∀ (k : Fin 4096) (x : Cmd) (n : Nat) (s : State), admAct s k 0x1C 9 = some x → vmFn x = some n → (fnr s n).nq < 2 →
    exec (.vmSecondaryOnline k) s = .next (admEnd x stField 0 s)) ∧
  (∀ (k : Fin 4096) (x : Cmd) (s : State), admAct s k 0x1C 1 = some x →
    exec (.vmPrimaryFlex k) s = .next (admEnd x stField 0 s)) ∧
  (∀ (k : Fin 4096) (x : Cmd) (addr : Nat) (exts : List (Nat × Nat × Nat)) (n : Nat) (s : State), admAct s k 0x0D 0 = some x →
    inReady x = true →
    let d := x.data;
    let z := le d 0 8;
    z = le d 8 8 → z ≠ 0 → le d 26 1 % 16 ≤ 5 → le d 26 1 < 32 → dpsOk (le d 26 1) (le d 29 1) = true → le d 0x180 1 ≤ 1 → le
      d 0x181 1 = 0 → ((List.range 256).map (· + 1)).find? (fun n => (nsr s n).isNone) = some n →
    let g := ((Tab.get? s.deck.nsGen n).getD 0 + 1) % 2 ^ 32;
    let r := (⟨z, le d 26 1, le d 29 1, le d 30 1 % 2, le d 0x180 1, 64, g, 0, exts, 0, []⟩ : NsRec);
    ownedStripes s + nsStripes r ≤ mainStripes s → extsOk s exts (nsStripes r) = true →
    let u := each exts.zipIdx (fun e v => sramWrite (addr + 16 * e.2) (bytesOf 5 e.1.1 ++ bytesOf 1 e.1.2.1 ++ bytesOf 2 0 ++
      bytesOf 5 e.1.2.2 ++ bytesOf 3 0) v) { s with deck := { s.deck with nss := Tab.put s.deck.nss n r, nsGen := Tab.put
                                                                            s.deck.nsGen n g } };
    exec (.nsCreate k addr exts) s = .next (admEnd x 0 n (sramWrite (nsEntryAt u n) (nsEntry r addr true) u))) ∧
  (∀ (k : Fin 4096) (x : Cmd) (addr : Nat) (exts : List (Nat × Nat × Nat)) (s : State), admAct s k 0x0D 0 = some x → inReady x
    = true → le x.data 0 8 = 0 →
    exec (.nsCreate k addr exts) s = .next (admEnd x stField 0 s)) ∧
  (∀ (k : Fin 4096) (x : Cmd) (r : NsRec) (s : State), cmd s k = some x → isAdmin x = true → opc x = 0x0D → cdw x 10 % 16 = 1
    → x.phase = .granted → nsEarlier s x = false →
    let n := nsidOf x;
    nsr s n = some r →
    let u := nsDrop n s;
    let v := each (Tab.vals u.deck.cmds) (fun c t => if !isAdmin c && nsidOf c == n && c.phase != .done && opc c != 0 then
      resolveWith stNs c t else t) u;
    let w := nsAfter { v with deck := { v.deck with nss := Tab.erase v.deck.nss n } };
    let a := nsEntryAt w n;
    exec (.nsDelete k) s = .next (admEnd x 0 0 (nsNotice r.attached n (chkRelease (.cmd x.slot) (sramWrite a [byte (le
      (sramRead w a 1) 0 1 / 2 * 2)] w))))) ∧
  (∀ (k : Fin 4096) (x : Cmd) (r : NsRec) (s : State), cmd s k = some x → isAdmin x = true → opc x = 0x80 → x.phase = .granted
    → nsEarlier s x = false →
    let n := nsidOf x;
    nsr s n = some r → cdw x 10 < 6 →
    let g := (r.gen + 1) % 2 ^ 32;
    let t := { r with flbas := cdw x 10, dps := 0, gen := g, fill := 0, early := [] };
    let q := { t with nsze := ceilDiv r.nsze (lpu r) * lpu t };
    let u := nsDrop n s;
    let v := nsAfter { u with deck := { u.deck with nss := Tab.put u.deck.nss n q, nsGen := Tab.put u.deck.nsGen n g } };
    let a := nsEntryAt v n;
    exec (.formatNvm k) s = .next (admEnd x 0 0 (chkRelease (.cmd x.slot) (nsNotice q.attached n (sramWrite a (nsEntry q (le
      (sramRead v (a + 8) 4) 0 4) true) v))))) ∧
  (∀ (k : Fin 4096) (x : Cmd) (m : Nat) (r : NsRec) (s : State), admAct s k 0x15 0 = some x → inReady x = true → attachMask
    x.data = some m → nsr s (nsidOf x) = some r → m &&& r.attached = 0 → (r.nmic ≠ 0 ∨ popcount 64 (m ||| r.attached) ≤ 1) →
    exec (.nsAttach k) s = .next (admEnd x 0 0 (nsNotice (r.attached ||| m) (nsidOf x) (setNs (nsidOf x)
      { r with attached := r.attached ||| m } s)))) ∧
  (∀ (k : Fin 4096) (x : Cmd) (m : Nat) (r : NsRec) (s : State), admAct s k 0x15 0 = some x → inReady x = true → attachMask
    x.data = some m → nsr s (nsidOf x) = some r → m &&& r.attached ≠ 0 →
    exec (.nsAttach k) s = .next (admEnd x (0x118 + dnr) 0 s)) ∧
  (∀ (k : Fin 4096) (x : Cmd) (m : Nat) (r : NsRec) (s : State), admAct s k 0x15 1 = some x → inReady x = true → attachMask
    x.data = some m → nsr s (nsidOf x) = some r → m &&& r.attached = m →
    exec (.nsDetach k) s = .next (admEnd x 0 0 (nsNotice r.attached (nsidOf x) (setNs (nsidOf x)
      { r with attached := r.attached - m } s))))

/-- A log page is sent from its offset, and read without RAE clears its event; an unknown page ends 109h; Blaze Read sends
records from a sequence number on; Fault Status and Sensor Read send their structures; the power budget is answered, set
between 4,000 and 15,800 mW, and the shares are set. (R372, R373, R374, R375, R399, R400, R458, R462, R479, R480, R493) -/
def Obligations.LogsAndStatusCommands : Prop :=
  (∀ (k : Fin 4096) (x : Cmd) (b : List Byte) (s : State), adm s k 0x02 = some x → outReady s x = true →
    let l := cdw x 10 % 256;
    let o := cdw x 12 + cdw x 13 * 2 ^ 32;
    logPage s x.fn l = some b → o % 4 = 0 → o < b.length → (cdw x 10).testBit 15 = true →
    exec (.getLogPage k) s = .next (admSend x (b.drop o) 0 s)) ∧
  (∀ (k : Fin 4096) (x : Cmd) (s : State), adm s k 0x02 = some x → outReady s x = true → logPage s x.fn (cdw x 10 % 256) =
    none →
    exec (.getLogPage k) s = .next (admEnd x stLogPage 0 s)) ∧
  (∀ (k : Fin 4096) (x : Cmd) (s : State), adm s k 0xC4 = some x → outReady s x = true →
    let l := permRecs s ++ circRecs s;
    let i := (l.findIdx? (fun r => le r 4 4 == cdw x 10)).getD (permRecs s).length;
    let r := (l.drop i).take (cdw x 11);
    exec (.blazeRead k) s = .next (admSend x r.flatten r.length s)) ∧
  (∀ (k : Fin 4096) (x : Cmd) (s : State), adm s k 0xC5 = some x → outReady s x = true → (cdw x 10).testBit 0 = false →
    exec (.faultStatus k) s = .next (admSend x (faultData s x.fn) (le (faultData s x.fn) 2 1) s)) ∧
  (∀ (k : Fin 4096) (x : Cmd) (s : State), adm s k 0xC5 = some x → outReady s x = true → (cdw x 10).testBit 0 = true → x.fn ≠
    0 →
    exec (.faultStatus k) s = .next (admEnd x stPermit 0 s)) ∧
  (∀ (k : Fin 4096) (x : Cmd) (s : State), adm s k 0xCA = some x → outReady s x = true →
    ∃ t, exec (.sensorRead k) s = .next t ∧ ∃ b, t = admSend x b (fld F.BLZ_TIME_SECONDS 0 s % 2 ^ 32) s ∧ le b 4 4 = fld
      F.BLZ_TIME_SECONDS 0 s % 2 ^ 32 ∧ le b 8 8 = s.time % 2 ^ 64) ∧
  (∀ (k : Fin 4096) (x : Cmd) (s : State), admAct s k 0xC9 0 = some x →
    exec (.budgetQuery k) s = .next (admEnd x 0 (effMw s) s)) ∧
  (∀ (k : Fin 4096) (x : Cmd) (s : State), admAct s k 0xC9 1 = some x → 4000 ≤ cdw x 11 → cdw x 11 ≤ 15800 →
    let u := beffNow (put F.GOV_BUDGET_HOST_MW 0 (cdw x 11) s);
    exec (.setBudget k) s = .next (admEnd x 0 (effMw u) u)) ∧
  (∀ (k : Fin 4096) (x : Cmd) (s : State), admAct s k 0xC9 1 = some x → cdw x 11 < 4000 →
    exec (.setBudget k) s = .next (admEnd x stBudget (effMw s) s)) ∧
  (∀ (k : Fin 4096) (x : Cmd) (s : State), admAct s k 0xC9 2 = some x → inReady x = true →
    let b := x.data;
    le b 0 2 = 1 → le b 4 4 = 0 → le b 8 1 + le b 9 1 + le b 10 1 + le b 11 1 ≤ 128 →
    let u := put F.GOV_BG_DESTAGE 0 (le b 8 1) (put F.GOV_BG_LOG 0 (le b 9 1) (put F.GOV_BG_CRUISE 0 (le b 10 1) (put
      F.GOV_BG_SALVAGE 0 (le b 11 1) s)));
    exec (.setShares k) s = .next (admEnd x 0 (effMw u) (upTo 64 (fun f v => put F.GOV_FN_WEIGHT f (le b (64 + 2 * f) 2) v)
      u)))

/-- Salvage Control answers the head of log page C4h; a start without a range of one zone ends 706h; a start fences its range,
enters it in the relocation table and starts the job; pause, resume and abort act as the bits of SPR_SALV_CTL; lost records
of a namespace, or all of them, are cleared. Fence Control answers log page C5h; a head or arm number out of range ends
Invalid Field; a fence that would make a surface unreachable is refused with 707h unless it is forced; an unfence whose
checks fail is refused; a region of one zone takes the first free entry, and 707h when none is free; after each change items
are planned again. (R34, R36, R37, R38, R205, R269, R270, R276, R356, R357) -/
def Obligations.SalvageAndFenceCommands : Prop :=
  (∀ (k : Fin 4096) (x : Cmd) (s : State), vendorAct s k 0xC6 0 = some x →
    exec (.salvageStatus k) s = .next (salvEnd x s)) ∧
  (∀ (k : Fin 4096) (x : Cmd) (p : SalvPlan) (z : Nat) (zn : Zone) (s : State), vendorAct s k 0xC6 1 = some x →
    let f := cdw x 11 % 16;
    let a := cdw x 12;
    let b := cdw x 13;
    rangeZone s a b = some (z, zn) → salvState s ≠ 1 → salvState s ≠ 2 → regionFenced s f a b = true →
    let u := put F.SPR_SALV_CTL_ENTRY 0 p.entry.val (relocPut p f z zn a b s);
    exec (.salvageCtlStart k (some p)) s = .next (salvEnd x (replan (degradedUpdate (stateOf (execSprSalvStart (salvBit 31 u)
      u) u))))) ∧
  (∀ (k : Fin 4096) (x : Cmd) (p : Option SalvPlan) (s : State), vendorAct s k 0xC6 1 = some x → rangeZone s (cdw x 12) (cdw x
    13) = none →
    exec (.salvageCtlStart k p) s = .next (admEnd x stSalvage (rd R.SPR_SALV_STAT 0 0 s) s)) ∧
  (∀ (k : Fin 4096) (x : Cmd) (s : State), vendorAct s k 0xC6 2 = some x →
    exec (.salvageCtlPause k) s = .next (salvEnd x (stateOf (execSprSalvPause (salvBit 30 s) s) s))) ∧
  (∀ (k : Fin 4096) (x : Cmd) (s : State), vendorAct s k 0xC6 3 = some x →
    exec (.salvageCtlResume k) s = .next (salvEnd x (stateOf (execSprSalvResume (salvBit 29 s) s) s))) ∧
  (∀ (k : Fin 4096) (x : Cmd) (s : State), vendorAct s k 0xC6 4 = some x →
    exec (.salvageCtlAbort k) s = .next (salvEnd x (stateOf (execSprSalvAbort (salvBit 28 s) s) s))) ∧
  (∀ (k : Fin 4096) (x : Cmd) (s : State), vendorAct s k 0xC6 5 = some x →
    exec (.clearLost k) s = .next (salvEnd x (c4Change 0
      { s with spr := { s.spr with lost := s.spr.lost.filter (fun e => cdw x 14 != 0xFFFFFFFF && e.1 != cdw x 14), lostTotal
                                     := 0 } }))) ∧
  (∀ (k : Fin 4096) (x : Cmd) (s : State), vendorAct s k 0xC8 0 = some x → exec (.fenceQuery k) s = .next (mapEnd x s)) ∧
  (∀ (k : Fin 4096) (x : Cmd) (s : State), vendorAct s k 0xC8 1 = some x →
    let h := cdw x 11;
    h < 64 → (losesSurface s (putFBit F.SPR_FENCE_HEAD_FENCE (h / 32) (h % 32) true s) = false ∨ (cdw x 10).testBit 8 = true)
      →
    exec (.fenceHead k) s = .next (mapEnd x (replan (fenceHead h s)))) ∧
  (∀ (k : Fin 4096) (x : Cmd) (s : State), vendorAct s k 0xC8 1 = some x → 64 ≤ cdw x 11 →
    exec (.fenceHead k) s = .next (mapRefuse x stField s)) ∧
  (∀ (k : Fin 4096) (x : Cmd) (s : State), vendorAct s k 0xC8 2 = some x →
    let h := cdw x 11;
    h < 64 →
    exec (.unfenceHead k true) s = .next (mapEnd x (replan (eligibilityChanged s (putFBit F.SPR_FENCE_HEAD_FENCE (h / 32) (h %
      32) false s))))) ∧
  (∀ (k : Fin 4096) (x : Cmd) (s : State), vendorAct s k 0xC8 2 = some x → cdw x 11 < 64 →
    exec (.unfenceHead k false) s = .next (mapRefuse x stFence s)) ∧
  (∀ (k : Fin 4096) (x : Cmd) (s : State), vendorAct s k 0xC8 3 = some x →
    let a := cdw x 11;
    a < 4 → (losesSurface s (putFBit F.SPR_FENCE_ARM_FENCE 0 a true s) = false ∨ (cdw x 10).testBit 8 = true) →
    exec (.fenceArm k) s = .next (mapEnd x (replan (fenceArm a s)))) ∧
  (∀ (k : Fin 4096) (x : Cmd) (s : State), vendorAct s k 0xC8 4 = some x →
    let a := cdw x 11;
    a < 4 →
    exec (.unfenceArm k true) s = .next (mapEnd x (replan (eligibilityChanged s (putFBit F.SPR_FENCE_ARM_FENCE 0 a false
      s))))) ∧
  (∀ (k : Fin 4096) (x : Cmd) (n : Nat) (s : State), vendorAct s k 0xC8 5 = some x → cdw x 11 < 16 → (rangeZone s (cdw x 12)
    (cdw x 13)).isSome = true → rfenceFree s = some n →
    exec (.fenceRegion k) s = .next (mapEnd x (replan (rfencePut n (cdw x 11) (cdw x 12) (cdw x 13) s)))) ∧
  (∀ (k : Fin 4096) (x : Cmd) (n : Nat) (s : State), vendorAct s k 0xC8 6 = some x → (List.range 64).find? (fun n => flag
    F.SPR_RFENCE_VALID n s && fld F.SPR_RFENCE_SURF n s == cdw x 11 && fld F.SPR_RFENCE_FIRST n s == cdw x 12 && fld
    F.SPR_RFENCE_LAST n s == cdw x 13) = some n →
    exec (.unfenceRegion k true) s = .next (mapEnd x (replan (mapChange (put F.SPR_RFENCE_VALID n 0 s)))))

/-- A transaction begins with the next TXID when none is open, and is refused 703h otherwise; STAGE, COMMIT and ROLLBACK act
on the open one; QUERY answers its state; a stored commit is applied, or ended in the safe state and on a failed store; held
arms take their items as they fall quiet; the open transaction rolls back at its timeout with EV137. (R454, R488, R508,
R512, R513, R515, R516) -/
def Obligations.ConfigurationTransactions : Prop :=
  (∀ (k : Option (Fin 4096)) (w : BusW) (o : Option Cmd) (s : State),
    let q := txnAsk k w 0 s;
    q.1 = some o →
    let u := q.2;
    txnState u = 0 →
    let id := (fld F.CFG_TXN_ID_TXID 0 u + 1) % 2 ^ 32;
    let v := put F.CFG_TXN_ID_TXID 0 id (put F.CFG_TXN_STAT_OWNER 0 o.isNone.toNat (put F.CFG_TXN_STAT_STATE 0 1 u));
    exec (.txnBegin k w) s = .next (txnEnd o 0 id { v with cfg := { v.cfg with stage := [], timer := v.time, timedOut :=
                                                                                 v.cfg.timedOut.filter (· != id) } })) ∧
  (∀ (k : Option (Fin 4096)) (w : BusW) (o : Option Cmd) (s : State),
    let q := txnAsk k w 0 s;
    q.1 = some o →
    let u := q.2;
    txnState u ≠ 0 →
    exec (.txnBegin k w) s = .next (txnEnd o stTxnConflict 0 u)) ∧
  (∀ (w : BusW) (s : State),
    let q := txnAsk none w 1 s;
    q.1 = some none →
    let u := q.2;
    exec (.txnStage none w) s = .next (txnOn none (stageItems none) u)) ∧
  (∀ (k : Fin 4096) (w : BusW) (x : Cmd) (s : State), admAct s k 0xC0 1 = some x → inReady x = true →
    exec (.txnStage (some k) w) s = .next (txnOn (some x) (stageItems (some x)) s)) ∧
  (∀ (k : Option (Fin 4096)) (w : BusW) (o : Option Cmd) (s : State),
    let q := txnAsk k w 2 s;
    q.1 = some o →
    let u := q.2;
    exec (.txnCommit k w) s = .next (txnOn o (commitStart o) u)) ∧
  (∀ (k : Option (Fin 4096)) (w : BusW) (o : Option Cmd) (s : State),
    let q := txnAsk k w 3 s;
    q.1 = some o →
    let u := q.2;
    exec (.txnRollback k w) s = .next (txnOn o (fun v => txnEnd o 0 0 (txnIdle v)) u)) ∧
  (∀ (k : Fin 4096) (w : BusW) (x : Cmd) (s : State), admAct s k 0xC0 4 = some x → cdw x 11 = fld F.CFG_TXN_ID_TXID 0 s →
    s.cfg.timedOut.contains (cdw x 11) = false →
    exec (.txnQuery (some k) w) s = .next (admEnd x 0 (putBits (rd R.CFG_TXN_STAT 0 0 s) 4 4 0) s)) ∧
  (∀ (w : BusW) (s : State),
    let q := txnAsk none w 4 s;
    q.1 = some none →
    let u := q.2;
    exec (.txnQuery none w) s = .next (put F.CFG_TXN_CTL_GO 0 0 u)) ∧
  (∀ (s : State), txnState s = 2 → s.cfg.stored = false →
    let a := copyAddr (copyTarget s);
    let b := s.cfg.merged;
    let u := norProgram a b (norErase a (ceilDiv b.length 4096 * 4096) s);
    flag F.FLT_STAT_SAFE 0 u = false →
    exec (.commitStored true) s = .next (commitApply u)) ∧
  (∀ (s : State), txnState s = 2 → s.cfg.stored = false →
    let a := copyAddr (copyTarget s);
    let b := s.cfg.merged;
    let u := norProgram a b (norErase a (ceilDiv b.length 4096 * 4096) s);
    flag F.FLT_STAT_SAFE 0 u = true →
    exec (.commitStored true) s = .next (commitEnd s.cfg.num 0 0 0 u)) ∧
  (∀ (a : Fin 4) (s : State), txnState s = 2 → cfgHeld s a = true → armQuiet s a = true →
    let u := itemsApply ((staged s).filter (fun x => (itemArms x).contains a)) s;
    exec (.commitArmQuiet a) s = .next (commitBlobs { u with cfg := { u.cfg with arms := u.cfg.arms.filter (· != a.val) } })) ∧
  (∀ (w : BusW) (s : State), wrote1 1 w = true → txnState s = 2 → s.cfg.stored = true → s.cfg.arms = [] → s.cfg.blob = true →
    exec (.cfgBlobDone w) s = .next (commitDone s)) ∧
  (∀ (s : State), txnState s = 1 → s.cfg.timer + 1000000 * max 1000 (fld F.CFG_TXN_TMO_MS 0 s) ≤ s.time →
    exec .txnRollbackTimeout s = .next (raiseEvent 137 (txnIdle
      { s with cfg := { s.cfg with timedOut := fld F.CFG_TXN_ID_TXID 0 s :: s.cfg.timedOut } })))

/-- A decision replans, binds and marks urgent items, and decides for an idle arm unless PAUSE holds; the decided item of a
free arm is dispatched when the arm serves it; an ended item gives its time to its class and its arm back, what it still
holds of the budget following its heads; the oldest ready item becomes urgent; a tick takes a sample, drives the counters
and holds OVER; the derating follows the temperatures; background shares above 128 are refused with CFG_ERR. GO, the period
and Tally Scale ask for a scale; the latch copies the live counts to the shadows with EPOCH, time and PCYCLE and clears GO;
a handshake takes whole microjoules and counts LATE when one is pending, and is applied once the fabric runs; Tally Read
sends the live or latched counts, and another function's are refused. (R47, R161, R381, R385, R393, R395, R396, R398, R437,
R440, R442, R443) -/
def Obligations.SchedulerAndTallies : Prop :=
  (∀ (a : Fin 4) (s : State),
    let u := freeHolds (rebind (replan s));
    flag F.DECK_CTL_PAUSE 0 u = false → safe u = false → Tab.get? u.sched.decided a = none → u.geo.isSome = true →
    exec (.decisionStart a) s = .next (decideArm a u)) ∧
  (∀ (a : Fin 4) (s : State),
    let u := freeHolds (rebind (replan s));
    flag F.DECK_CTL_PAUSE 0 u = true →
    exec (.decisionStart a) s = .next (govLimits u)) ∧
  (∀ (a : Fin 4) (x : Item) (s : State), (Tab.get? s.sched.decided a).bind (item s) = some x → flag F.DECK_CTL_PAUSE 0 s =
    false → safe s = false → cfgHeld s a = false → Tab.get? s.sched.running a = none → serves s x a = true → (x.write && (wop
    s a).isSome) = false → x.mem.any (fun m => unreadable s x m.1) = false →
    let u := { s with sched := { s.sched with decided := Tab.erase s.sched.decided a } };
    (x.mem.flatMap (itemPsas u x)).all (psaOk u) = true →
    let v := setItem { x with st := .running a, t0 := u.time, media := false }
      { u with sched := { u.sched with running := Tab.put u.sched.running a x.id } };
    exec (.itemDispatch a) s = .next (startItem a { x with st := .running a, media := false } (sendArm a x.track (countRetry x
      v)))) ∧
  (∀ (a : Fin 4) (x : Item) (s : State), (Tab.get? s.sched.running a).bind (item s) = some x → itemBusy s x a = false →
    let hs := x.mem.map (fun m => 16 * a.val + m.1);
    let l := s.sched.lastWr.filter (fun h => !hs.contains h);
    let u := each hs (fun h v => setHead h { head v h with opofs := 0 } v)
      { s with sched := { s.sched with running := Tab.erase s.sched.running a, lastWr := if x.write then l ++ hs else l } };
    let z := { u with sched := { u.sched with late := u.sched.late ++ [⟨hs, x.write, x.held, if x.cls = 0 then x.fn else 64 +
                                                (x.cls - 1)⟩] } };
    exec (.itemEnd a) s = .next (wantSend a (govLimits (dropItem x.id (armTime a x z))))) ∧
  (∀ (x : Item) (s : State), (sortBy (·.origin) ((readySet s).filter (fun x => !x.urgent))).head? = some x → x.origin +
    1000000 * max 100 (fld F.GOV_AGE_URGENT_MS 0 s) ≤ s.time →
    exec .itemUrgent s = .next (urgentCtx x (bindItem x (count F.GOV_ERR_URGENT 0 s)))) ∧
  (∀ (s : State),
    let q := boardMw s + motorMw s;
    let l := ((q, boardMw s - heldMw s) :: s.sched.samples).take 100;
    let u := { s with sched := { s.sched with samples := l } };
    let avg := meanOf (l.map (·.1));
    let v := tickEnergy q (put F.GOV_MEAS_TOTAL_MW 0 (min 65535 avg.toNat) (put F.GOV_POWER_FLOOR_MW 0 (min 65535 (max 0
      (meanOf (l.map (·.2))) + motorMw u).toNat) u));
    avg ≤ (fld F.GOV_STAT_EFF_MW 0 v : Int) →
    exec .govTick s = .next (govLimits { v with sched := { v.sched with under := if avg ≤ (fld F.GOV_STAT_EFF_MW 0 v : Int) -
                                                                          guardMw then min 100 (v.sched.under + 1) else 0 }
                                                  })) ∧
  (∀ (s : State), 100 ≤ s.sched.under → exec .govOverClear s = .next (put F.GOV_STAT_OVER 0 0 s)) ∧
  (∀ (s : State),
    exec .govDerateUpdate s = .next (beffNow (put F.GOV_TEMP_DIE 0 (lowBits 16 (tDie s)) (put F.GOV_TEMP_ENC 0 (lowBits 16
      ((tEnc s).getD 0)) s)))) ∧
  (∀ (w : BusW) (s : State),
    let u := busWrite R.GOV_BG 0 0 w s;
    minCfg u 1 + minCfg u 2 + minCfg u 3 + minCfg u 4 ≤ 128 →
    exec (.govBgWrite w) s = .next (u)) ∧
  (∀ (w : BusW) (s : State),
    let u := busWrite R.GOV_BG 0 0 w s;
    128 < minCfg u 1 + minCfg u 2 + minCfg u 3 + minCfg u 4 →
    exec (.govBgWrite w) s = .next (put F.GOV_STAT_CFG_ERR 0 1 s)) ∧
  (∀ (w : BusW) (s : State), wrote1 31 w = true → exec (.tlyScaleGo w) s = .next (scaleAsk (put F.TLY_SCALE_GO 0 1 s))) ∧
  (∀ (s : State), fld F.TLY_CTL_PERIOD 0 s ≠ 0 → fld F.TLY_SHD_TIME_TIME 0 s + 1000000000 * fld F.TLY_CTL_PERIOD 0 s ≤ s.time
    →
    exec .tallyPeriodExpire s = .next (scaleAsk s)) ∧
  (∀ (s : State), s.sched.scale = 1 → fabOff s = false →
    let u := latch s;
    Tab.vals s.deck.cmds = [] → Tab.vals u.deck.cmds = [] →
    exec .tallyLatch s = .next (put F.TLY_SCALE_GO 0 0 { u with sched := { u.sched with scale := 0 } })) ∧
  (∀ (k : Fin 4096) (x : Cmd) (s : State), adm s k 0xC1 = some x →
    exec (.tallyScale k) s = .next (scaleAsk (setCmd { x with phase := .active, txn := true } s))) ∧
  (∀ (s : State), flag F.TLY_XING_PEND 0 s = false → fabOff s = false →
    exec .tallyHandshakeReq s = .next (put F.TLY_XING_PEND 0 1
      { s with sched := { s.sched with hs := (takeMicro s.sched.rem).1, rem := (takeMicro s.sched.rem).2 } })) ∧
  (∀ (s : State), flag F.TLY_XING_PEND 0 s = true → exec .tallyHandshakeReq s = .next (count F.TLY_XING_LATE 0 s)) ∧
  (∀ (s : State), flag F.TLY_XING_PEND 0 s = true → fabOff s = false →
    let u := each s.sched.hs (fun e v => if e.1 < 64 then tally e.1 11 e.2 v else tallyDev (e.1 - 64) e.2 v) s;
    exec .tallyHandshakeApply s = .next (put F.TLY_XING_PEND 0 0 { u with sched := { u.sched with hs := [] } })) ∧
  (∀ (k : Fin 4096) (x : Cmd) (s : State), adm s k 0xC2 = some x → outReady s x = true →
    let n := cdw x 10 % 256;
    (x.fn = 0 ∨ n = x.fn) → n < 64 → (cdw x 10).testBit 8 = true →
    exec (.tallyRead k) s = .next (admSend x (bytesOf 4 (fld F.TLY_EPOCH_EPOCH 0 s) ++ bytesOf 3 (fld F.TLY_SHD_PCY_PCYCLE 0
      s) ++ bytesOf 1 1 ++ bytesOf 8 s.time ++ ((List.range 16).map (fun j => fld2 F.TLY_LIVE_COUNT n j s)).flatMap (bytesOf
      8)) (fld F.TLY_EPOCH_EPOCH 0 s) s)) ∧
  (∀ (k : Fin 4096) (x : Cmd) (s : State), adm s k 0xC2 = some x → outReady s x = true → x.fn ≠ 0 → cdw x 10 % 256 ≠ x.fn →
    exec (.tallyRead k) s = .next (admEnd x stPermit 0 s))

/-- START of an untrained or failed landing trains it; the end of training gives READY and EV132, or FAILED with the channels
and step and a report to checker 56; FILL zeroes the granules of its range and raises EV134; a scrub step reads the next
granule of its range; a remap entry copies its block and becomes VALID, and cleared it loses the block. A yarder write
inside the data range stores its bytes and one outside is a bus error of master 6; a read gives the bytes with their marks;
a control core's store goes through its cache, from which lines may then be evicted; the oldest merge entry leaves in age
order; each fence writes its OP and acts on the lines of its range, or on all; an atomic on shared SRAM is done after its
line is cleaned and dropped; an atomic that is not aligned has no effect. (R406, R407, R409, R412, R413, R414, R417, R418,
R420, R421, R425, R485) -/
def Obligations.LandingControlAndAccess : Prop :=
  (∀ (w : BusW) (s : State),
    let u := busWrite R.LND_CTL 0 0 w s;
    wrote1 0 w = true → (fld F.LND_STAT_STATE 0 u = 0 ∨ fld F.LND_STAT_STATE 0 u = 4) → u.cpr.stage ≠ 0 →
    exec (.lndTrainStart w) s = .next (put F.LND_CTL_START 0 1 (put F.LND_STAT_STATE 0 1 u))) ∧
  (∀ (ch : BitVec 2) (st : BitVec 4) (s : State), fld F.LND_STAT_STATE 0 s = 1 →
    exec (.lndTrainDone true ch st) s = .next (raiseEvent 132 (put F.LND_STAT_STEP 0 0 (put F.LND_STAT_CH_FAIL 0 0 (put
      F.LND_STAT_STATE 0 2 (put F.LND_CTL_START 0 0 s)))))) ∧
  (∀ (ch : BitVec 2) (st : BitVec 4) (s : State), fld F.LND_STAT_STATE 0 s = 1 →
    exec (.lndTrainDone false ch st) s = .next (report 56 none 0 0 0 0 (raiseEvent 132 (put F.LND_STAT_STEP 0 st.toNat (put
      F.LND_STAT_CH_FAIL 0 ch.toNat (put F.LND_STAT_STATE 0 4 (put F.LND_CTL_START 0 0 s))))))) ∧
  (∀ (w : BusW) (s : State), wrote1 31 w = true → flag F.LND_FILL_CTL_GO 0 s = false →
    let v := busWrite R.LND_FILL_CTL 0 0 w s;
    let u := rowsLost (fld F.LND_FILL_BASE_VALUE 0 v) (fld F.LND_FILL_LEN_VALUE 0 v) (put F.LND_FILL_CTL_GO 0 1 v);
    exec (.lndFillGo w) s = .next ({ u with lnd := { u.lnd with fill := some (fld F.LND_FILL_BASE_VALUE 0 v, fld
                                                                  F.LND_FILL_LEN_VALUE 0 v) } })) ∧
  (∀ (s : State), flag F.LND_FILL_CTL_GO 0 s = true →
    let a := 64 * (s.lnd.fill.getD (0, 0)).1;
    let n := (s.lnd.fill.getD (0, 0)).2;
    landBusy s a (64 * n) = false →
    let u := upTo n (fun i v => if landOk v (64 * (a / 64 + i)) 64 then (if (Tab.get? v.land (a / 64 + i)).isSome ||
      v.lnd.mrg.any (fun e => e.g == a / 64 + i) then rowsLost (a / 64 + i) 1 v else putGranule (a / 64 + i) ⟨List.replicate
      64 0, false⟩ v) else v) { s with lnd := { s.lnd with fill := none } };
    (n = 0 ∨ landOk u a (64 * n) = true) →
    exec .lndFillDone s = .next (raiseEvent 134 (put F.LND_FILL_CTL_DONE 0 1 (put F.LND_FILL_CTL_GO 0 0 u)))) ∧
  (∀ (e : Ecc) (s : State),
    let lo := fld F.LND_SCRUB_RNG_FIRST 0 s * 2 ^ 14;
    let hi := (fld F.LND_SCRUB_RNG_LAST 0 s + 1) * 2 ^ 14;
    flag F.LND_SCRUB_CTL_EN 0 s = true → lo ≤ s.lnd.scrub → s.lnd.scrub < hi → landBusy s (64 * s.lnd.scrub) 64 = false →
    let u := { s with lnd := { s.lnd with scrub := s.lnd.scrub + 1 } };
    landOk u (64 * s.lnd.scrub) 64 = true →
    exec (.lndScrubStep e) s = .next ((eccRead 15 s.lnd.scrub e u).2)) ∧
  (∀ (k : Fin 32) (w : BusW) (s : State), wrote1 62 w = true →
    exec (.lndRmapCopy k w) s = .next (put F.LND_RMAP_COPY k 1 (rmapWrite k w s))) ∧
  (∀ (k : Fin 32) (l : List Ecc) (s : State), flag F.LND_RMAP_COPY k s = true → landHeld s = false →
    let g := rmapFirst s k;
    (List.range 32).any (fun j => j != k.val && flag F.LND_RMAP_VALID j s && rmapFirst s j == g) = false →
    let u := upTo 128 (fun i v => if (eccRead 15 (g + i) ((l[i]?).getD .ok) v).1 then stamp (g + i)
      { stored (eccRead 15 (g + i) ((l[i]?).getD .ok) v).2 (g + i) with poison := true } (eccRead 15 (g + i) ((l[i]?).getD
      .ok) v).2 else (eccRead 15 (g + i) ((l[i]?).getD .ok) v).2) s;
    exec (.lndRmapCopyDone k l) s = .next (heldRun (raiseEvent 134 (put F.LND_RMAP_VALID k 1 (put F.LND_RMAP_COPY k 0 u))))) ∧
  (∀ (k : Fin 32) (w : BusW) (s : State),
    let u := rmapWrite k w s;
    wrote1 61 w = true → flag F.LND_RMAP_VALID k u = true →
    exec (.lndRmapClear k w) s = .next (put F.LND_RMAP_VALID k 0 (rmapDup (rmapFirst u k / 128) false (rowsLost (rmapFirst u
      k) 128 u)))) ∧
  (∀ (a : Nat) (bs : List Byte) (p : Bool) (o : List Nat) (l : List Ecc) (s : State), landBase ≤ a → landBusy s a bs.length =
    false → landOk s a bs.length = true →
    exec (.landingWrite .yarder a bs p o l) s = .next (landPut a bs p l s)) ∧
  (∀ (a : Nat) (bs : List Byte) (p : Bool) (o : List Nat) (l : List Ecc) (s : State), landBase ≤ a → landBusy s a bs.length =
    false → landOk s a bs.length = false →
    exec (.landingWrite .yarder a bs p o l) s = .next (busError 6 2 a s)) ∧
  (∀ (c : Fin 4) (a : Nat) (bs : List Byte) (p : Bool) (o : List Nat) (l : List Ecc) (s : State), landBase ≤ a → coreHeld s c
    = false → (landBusy s a bs.length && (!l1Holds s c a bs.length || (granulesOf a bs.length).any o.contains)) = false →
    evictBusy s c o = false →
    exec (.landingWrite (.cp c) a bs p o l) s = .next (relocSeen s (l1Evict c o (cpStore c a bs l s)))) ∧
  (∀ (a : Nat) (n : Nat) (o : List Nat) (l : List Ecc) (s : State), landBase ≤ a → landBusy s a n = false → landOk s a n =
    true →
    let u := (eccReads 6 (granulesOf a n) l s).2;
    exec (.landingRead .yarder a n o l) s = .next (emit (.data a (landMarks u a n)) u)) ∧
  (∀ (a : Nat) (n : Nat) (o : List Nat) (l : List Ecc) (s : State), landBase ≤ a → landBusy s a n = false → landOk s a n =
    false →
    exec (.landingRead .yarder a n o l) s = .next (busError 6 1 a s)) ∧
  (∀ (q : Ecc) (e : MrgEnt) (l : List MrgEnt) (s : State), s.lnd.mrg = e :: l → e.t + 1000 * fld1 F.LND_MRG_AGE 0 s ≤ s.time →
    landBusy s (64 * e.g) 64 = false →
    exec (.mergeEvictAge q) s = .next (evictEcc q e s)) ∧
  (∀ (c : Fin 4) (w : BusW) (s : State),
    let u := put F.LND_FFENCE_OP c 1 (busWrite R.LND_FFENCE c 0 w s);
    landHeld u = false → (List.range 32).any (fun k => flag F.LND_RMAP_COPY k u) = false → coreHeld u c = false →
    exec (.ffenceClean c (.cp c) w) s = .next (fenceDo 1 c (fenceLines u c) [] u)) ∧
  (∀ (c : Fin 4) (w : BusW) (s : State),
    let u := put F.LND_FFENCE_OP c 2 (busWrite R.LND_FFENCE c 0 w s);
    landHeld u = false → (List.range 32).any (fun k => flag F.LND_RMAP_COPY k u) = false → coreHeld u c = false →
    exec (.ffenceInval c (.cp c) w) s = .next (fenceDo 2 c (fenceLines u c) [] u)) ∧
  (∀ (c : Fin 4) (w : BusW) (s : State),
    let u := put F.LND_FFENCE_OP c 3 (busWrite R.LND_FFENCE c 0 w s);
    landHeld u = false → (List.range 32).any (fun k => flag F.LND_RMAP_COPY k u) = false → coreHeld u c = false →
    exec (.ffenceCleanInval c (.cp c) w) s = .next (fenceDo 3 c (fenceLines u c) [] u)) ∧
  (∀ (c : Fin 4) (w : BusW) (e : List Ecc) (s : State),
    let u := put F.LND_FFENCE_OP c 4 (busWrite R.LND_FFENCE c 0 w s);
    landHeld u = false → (List.range 32).any (fun k => flag F.LND_RMAP_COPY k u) = false → coreHeld u c = false →
    exec (.ffenceDrain c (.cp c) w e) s = .next (fenceDo 4 c (fenceLines u c) e u)) ∧
  (∀ (c : Fin 4) (w : BusW) (s : State),
    let u := put F.LND_FFENCE_OP c 5 (busWrite R.LND_FFENCE c 0 w s);
    landHeld u = false → (List.range 32).any (fun k => flag F.LND_RMAP_COPY k u) = false → coreHeld u c = false →
    exec (.ffenceCleanAll c (.cp c) w) s = .next (fenceDo 5 c (l1Lines u c) [] u)) ∧
  (∀ (c : Fin 4) (w : BusW) (s : State),
    let u := put F.LND_FFENCE_OP c 6 (busWrite R.LND_FFENCE c 0 w s);
    landHeld u = false → (List.range 32).any (fun k => flag F.LND_RMAP_COPY k u) = false → coreHeld u c = false →
    exec (.ffenceCleanInvalAll c (.cp c) w) s = .next (fenceDo 6 c (l1Lines u c) [] u)) ∧
  (∀ (c : Fin 4) (op : AmoOp) (a : Nat) (x : BitVec 64) (e : Ecc) (s : State), a % 8 = 0 → inSram a 8 = true → coreHeld s c =
    false → a < landBase → cached a = true →
    let u := l1Drop c (a / 64) (l1Clean c (a / 64) s);
    exec (.amoAccess c op a true x e) s = .next (amoDo c op a 8 x.toNat u)) ∧
  (∀ (c : Fin 4) (op : AmoOp) (a : Nat) (x : BitVec 64) (e : Ecc) (s : State), a % 8 ≠ 0 →
    exec (.amoAccess c op a true x e) s = .next (s)) ∧
  (∀ (c : Fin 4) (a : Nat) (bs : List Byte) (p : Bool) (o : List Nat) (l : List Ecc) (s : State), landBase ≤ a → coreHeld s c
    = true →
    exec (.landingWrite (.cp c) a bs p o l) s = .next (hold (.write (.cp c) a bs p o l) s)) ∧
  (∀ (m : Master) (a : Nat) (n : Nat) (o : List Nat) (l : List Ecc) (s : State), m = .yarder → landBase ≤ a → landBusy s a n =
    true →
    exec (.landingRead m a n o l) s = .next (hold (.read m a n o l) s))

/-- A doorbell lets the channel look at its ring; a ready channel meets OWN 0 and stops looking, or takes its descriptor with
its chunks and begins, beside one that only writes; a bad descriptor ends with status 1; a descriptor whose source is whole
is moved; a move to a host that cannot be reached stalls; CH_RESET aborts and rewinds the channel; RESUME ends its halt.
(R426, R427, R428, R429, R432, R433, R434, R435) -/
def Obligations.YarderChannels : Prop :=
  (∀ (n : Fin 32) (s : State), exec (.yrdDoorbell n) s = .next (setYch n { ych s n with look := true } s)) ∧
  (∀ (n : Fin 32) (s : State), yrdReady s n = true → yrdBehind s n = false → fld F.YRD_STAT_CHUNK_FREE 0 s ≠ 0 → le (sramRead
    s (yrdAt s n (fld F.YRD_CH_STAT_NEXT n s)) 64) 0 1 % 2 = 0 →
    exec (.yrdDescStart n) s = .next (setYch n { ych s n with look := false } s)) ∧
  (∀ (n : Fin 32) (s : State), yrdReady s n = true → yrdBehind s n = false → (ych s n).aborts = [] →
    let i := fld F.YRD_CH_STAT_NEXT n s;
    let a := yrdAt s n i;
    let b := sramRead s a 64;
    le b 0 1 % 2 = 1 →
    let m := min (max 1 (ceilDiv (le b 8 4) 4096)) (yrdRoom s n);
    let d := (⟨a, i, (le b 0 1).testBit 1, le b 2 1, le b 3 1, le b 4 1 % 64, le b 8 4, le b 16 8, le b 24 8, [], 0, none, m,
      0, false⟩ : YDesc);
    (ych s n).cur = none → yrdDescOk s d = true →
    let z := { s with lnd := { s.lnd with yrdLast := Tab.put s.lnd.yrdLast (fld F.YRD_CH_CTL_PRI n s) n } };
    let u := put F.YRD_CH_STAT_NEXT n ((i + 1) % yrdSize z n) (setYch n { ych s n with cur := some d, aborts := [] } z);
    let v := put F.YRD_STAT_CHUNK_FREE 0 (fld F.YRD_STAT_CHUNK_FREE 0 u - m) (put F.YRD_CH_STAT_HELD n (fld F.YRD_CH_STAT_HELD
      n u + m) (put F.YRD_CH_STAT_BUSY n 1 u));
    exec (.yrdDescStart n) s = .next (yrdAsk n v)) ∧
  (∀ (n : Fin 32) (s : State), yrdReady s n = true → yrdBehind s n = false → (ych s n).aborts = [] →
    let i := fld F.YRD_CH_STAT_NEXT n s;
    let a := yrdAt s n i;
    let b := sramRead s a 64;
    le b 0 1 % 2 = 1 →
    let m := min (max 1 (ceilDiv (le b 8 4) 4096)) (yrdRoom s n);
    let d := (⟨a, i, (le b 0 1).testBit 1, le b 2 1, le b 3 1, le b 4 1 % 64, le b 8 4, le b 16 8, le b 24 8, [], 0, none, m,
      0, false⟩ : YDesc);
    (ych s n).cur = none → (ych s n).ahead = none → yrdDescOk s d = false →
    let z := { s with lnd := { s.lnd with yrdLast := Tab.put s.lnd.yrdLast (fld F.YRD_CH_CTL_PRI n s) n } };
    let u := put F.YRD_CH_STAT_NEXT n ((i + 1) % yrdSize z n) (setYch n
      { ych s n with cur := some { d with fail := some 1 }, aborts := [] } z);
    let v := put F.YRD_STAT_CHUNK_FREE 0 (fld F.YRD_STAT_CHUNK_FREE 0 u - m) (put F.YRD_CH_STAT_HELD n (fld F.YRD_CH_STAT_HELD
      n u + m) (put F.YRD_CH_STAT_BUSY n 1 u));
    exec (.yrdDescStart n) s = .next (yrdFinish n 1 v)) ∧
  (∀ (n : Fin 32) (s : State), yrdReady s n = true → yrdBehind s n = false → (ych s n).aborts = [] →
    let i := fld F.YRD_CH_STAT_NEXT n s;
    let a := yrdAt s n i;
    let b := sramRead s a 64;
    le b 0 1 % 2 = 1 →
    let m := min (max 1 (ceilDiv (le b 8 4) 4096)) (yrdRoom s n);
    let d := (⟨a, i, (le b 0 1).testBit 1, le b 2 1, le b 3 1, le b 4 1 % 64, le b 8 4, le b 16 8, le b 24 8, [], 0, none, m,
      0, false⟩ : YDesc);
    (ych s n).cur.isSome = true → yrdDescOk s d = true →
    let z := { s with lnd := { s.lnd with yrdLast := Tab.put s.lnd.yrdLast (fld F.YRD_CH_CTL_PRI n s) n } };
    let u := put F.YRD_CH_STAT_NEXT n ((i + 1) % yrdSize z n) (setYch n { ych s n with ahead := some d, aborts := [] } z);
    let v := put F.YRD_STAT_CHUNK_FREE 0 (fld F.YRD_STAT_CHUNK_FREE 0 u - m) (put F.YRD_CH_STAT_HELD n (fld F.YRD_CH_STAT_HELD
      n u + m) (put F.YRD_CH_STAT_BUSY n 1 u));
    exec (.yrdDescStart n) s = .next (yrdAsk n v)) ∧
  (∀ (n : Fin 32) (l : List Ecc) (d : YDesc) (s : State), (ych s n).cur = some d → d.srcMode.testBit 4 = false →
    d.dstMode.testBit 4 = false → yrdHeld s d = false →
    exec (.yrdDescEnd n l) s = .next (yrdMove n d l s)) ∧
  (∀ (n : Fin 32) (l : List Ecc) (d : YDesc) (s : State), (ych s n).cur = some d → d.srcMode.testBit 4 = false →
    d.dstMode.testBit 4 = true → d.fail = none → yrdHeld s d = false → canIssue s d.fn = false →
    exec (.yrdDescEnd n l) s = .next (put F.YRD_CH_STAT_STALL n 1 s)) ∧
  (∀ (n : Fin 32) (w : BusW) (s : State), wrote1 31 w = true →
    let u := flushReqs (fun r => match r.kind with | .yrd m => m == n.val | _ => false) (yrdClose n 5 (yrdClose n 5 (ychWrite
      n w s)));
    exec (.yrdChReset n w) s = .next (put F.YRD_CH_STAT_NEXT n 0 (yrdUnhalt n (setYch n
      { ych u n with look := false, aborts := [] } u)))) ∧
  (∀ (n : Fin 32) (w : BusW) (s : State), wrote1 30 w = true →
    exec (.yrdChResume n w) s = .next (yrdUnhalt n (ychWrite n w s)))

/-- A core posts its record at its own port and sees whether it was dropped; an idle writer with a record in hand erases the
next sector when it must, and else programs the body; a programmed body is marked 5Ah; a programmed mark frees the queue's
front; a failed program goes on to the next slot; an erased sector is clear; the scan ends READY with a POWER_ON record.
(R447, R449, R450, R451, R452, R454, R455, R456, R488) -/
def Obligations.BlazeRecords : Prop :=
  (∀ (k : Fin 4) (w : BusW) (s : State), wrote1 31 w = true →
    let u := busWrite R.BLZ_POST_CTL k 0 w s;
    let v := blzEnter 1 (fld F.BLZ_POST_CTL_SRC k u + fld F.BLZ_POST_CTL_CLASS k u * 512) (rd R.BLZ_POST_DATA k 0 u) u;
    exec (.blazePost (.cp k) (Fin.castSucc k) w) s = .next (put F.BLZ_POST_CTL_DROPPED k (decide (u.blz.drop <
      v.blz.drop)).toNat v)) ∧
  (∀ (n : Nat) (s : State), s.blz.scanned = true → s.blz.queue ≠ [] → s.blz.phase = .idle → s.blz.erasing = none →
    blzEraseNext s = some n →
    exec .blazeWriteStart s = .next (put F.BLZ_STAT_ERASING 0 1 { s with blz := { s.blz with erasing := some n } })) ∧
  (∀ (r : BlzRec) (q : BlzRec) (l : List BlzRec) (s : State), s.blz.scanned = true → s.blz.queue = r :: q :: l → s.blz.phase =
    .idle → s.blz.erasing = none → blzEraseNext s = none →
    exec .blazeWriteStart s = .next ({ s with blz := { s.blz with phase := .body (blzSlot s) } })) ∧
  (∀ (k : Nat) (r : BlzRec) (l : List BlzRec) (s : State), s.blz.phase = .body k → s.blz.queue = r :: l →
    let u := mirrorCopy (32 * k) 32 (norProgram (blzNorAddr k + 1) ((blzBytes r).drop 1) s);
    exec (.blazeBodyProgrammed true) s = .next ({ u with blz := { u.blz with phase := .mark k } })) ∧
  (∀ (k : Nat) (r : BlzRec) (l : List BlzRec) (s : State), s.blz.phase = .body k → s.blz.queue = r :: l →
    exec (.blazeBodyProgrammed false) s = .next (blzRetry k (norSpoil (blzNorAddr k + 1) 31 s))) ∧
  (∀ (k : Nat) (s : State), s.blz.phase = .mark k →
    let u := mirrorCopy (32 * k) 32 (norProgram (blzNorAddr k) [0x5A] s);
    exec (.blazeMarkProgrammed true) s = .next (blzDropRec (blzNextSlot
      { u with blz := { u.blz with phase := .idle, queue := u.blz.queue.drop 1 } }))) ∧
  (∀ (k : Nat) (s : State), s.blz.phase = .mark k →
    exec (.blazeMarkProgrammed false) s = .next (blzRetry k (norSpoil (blzNorAddr k) 1 s))) ∧
  (∀ (n : Nat) (s : State), s.blz.erasing = some n →
    let u := norErase (0x01980000 + (0x2000 + 4096 * n)) 4096 s;
    exec (.blazeEraseDone true) s = .next (put F.BLZ_STAT_ERASING 0 0
      { u with mirror := Tab.clear u.mirror (0x2000 + 4096 * n) (0x2000 + 4096 * n + 4096), blz :=
                 { u.blz with erasing := none, erased := some n } })) ∧
  (∀ (n : Nat) (s : State), s.blz.erasing = some n →
    exec (.blazeEraseDone false) s = .next (norFailed
      { s with blz := { s.blz with erasing := some (if (n + 1) % 34 = s.blz.circ / 128 then (n + 2) % 34 else (n + 1) % 34) }
                 })) ∧
  (∀ (s : State), fld F.BLZ_STAT_STATE 0 s = 1 →
    let u := mirrorCopy 0 147456 { s with mirror := [] };
    let v := renumber (scanSeq u) { u with blz := { u.blz with scanned := true, perm := scanPerm u, circ := scanCirc u, phase
                                                                 := .idle, erased := none } };
    exec .blazeScanDone s = .next (blzQueue 3 ((Config.openVal 449 [3]).toNat % 65536) v.blz.lastPcycle none (put
      F.BLZ_STAT_STATE 0 2 v)))

/-- Reports of one moment are recorded in the order of their checkers, each with the pendings that stood before them; a
condition that ends falls; ACK and CLR act on the classes whose bits are 1; a function's fault is cleared or acknowledged by
its bit; an injection of an armed checker fires at once and disarms; a latch is cleared by its own bit. A claim answers the
lowest pending event enabled for the receiver with bit 31 set and clears its pending bit, and answers 0 when there is none;
a 1 written to a pending bit clears it; a 1 written to the software event register raises EV240 and those above. (R298,
R398, R459, R461, R462, R469, R471, R478, R483) -/
def Obligations.FaultsAndEvents : Prop :=
  (∀ (l : List Report) (k : Nat) (s : State),
    let t := each (l.foldr insertReport []) (fun r v => if !reportReal v r.chk.val then v else hifLog r (cmbUnc r (reportAt
      (fld F.FLT_STAT_PENDING 0 s) (fld F.FLT_FC3_PEND_PEND 0 s) false r.chk.val (r.fn.map (·.val)) r.master r.access r.addr
      r.detail v))) (countN F.HIF_LINK_ERR_FEC 0 k s);
    exec (.checkerReport l k) s = .next (if rd R.SPR_FENCE_HEAD 0 0 t = rd R.SPR_FENCE_HEAD 0 0 s ∧ rd R.SPR_FENCE_HEAD 1 0 t
      = rd R.SPR_FENCE_HEAD 1 0 s ∧ rd R.SPR_FENCE_ARM 0 0 t = rd R.SPR_FENCE_ARM 0 0 s then t else replan t)) ∧
  (∀ (k : Fin 256) (c : ChkInfo) (s : State), chkInfo k.val = some c → c.cond = true → condNow s k.val = false → condForced s
    k.val = false →
    exec (.checkerConditionFalse k) s = .next (condFalls k s)) ∧
  (∀ (w : BusW) (s : State), w.be.testBit 0 = true → exec (.fltAckWrite w) s = .next (ackClasses (w.data % 32) s)) ∧
  (∀ (w : BusW) (s : State), w.be.testBit 0 = true →
    exec (.fltClrWrite w) s = .next (upTo 5 (fun c v => if (w.data % 32).testBit c then clearClass c v else v) s)) ∧
  (∀ (w : BusW) (s : State),
    exec (.fltFc3Clear w) s = .next (upTo 64 (fun f v => if wrote1 f w then fc3Clear f v else v) s)) ∧
  (∀ (w : BusW) (s : State),
    exec (.fltFc3AckWrite w) s = .next (fc3Bits (upTo 64 (fun f v => if wrote1 f w then putFBit F.FLT_FC3_PEND_PEND 0 f false
      v else v) s))) ∧
  (∀ (w : BusW) (c : ChkInfo) (s : State), flag F.FLT_CTL_INJ_EN 0 s = true → flag F.FLT_INJ_ARM 0 s = false →
    let u := busWrite R.FLT_INJ 0 0 w s;
    let n := fld F.FLT_INJ_CHK 0 u;
    chkInfo n = some c → wrote1 31 w = true → fld F.FLT_INJ_MODE 0 u = 1 → fld F.FLT_INJ_BITS 0 u = 2 → selfDamage u = 0 →
      c.cond = false → c.base ≠ 3 →
    exec (.fltInjArm w) s = .next (put F.FLT_INJ_FIRED 0 1 (put F.FLT_INJ_ARM 0 0 (reportAt (fld F.FLT_STAT_PENDING 0 u) (fld
      F.FLT_FC3_PEND_PEND 0 u) true n none 0 0 0 0 u)))) ∧
  (∀ (k : Fin 256) (w : BusW) (s : State), wrote1 9 w = true → (chkInfo k).isSome = true →
    exec (.fltChkLatchClear k w) s = .next (put F.FLT_CHK_LATCHED k 0 (put F.FLT_CHK_TRANSIENT k 0 s))) ∧
  (∀ (r : Fin 5) (n : Nat) (s : State), claimable s r = some n →
    exec (.eventClaim r) s = .next (emit (.value (R.EVT_CLAIM.addr r 0) (2 ^ 31 + n)) (putFBit F.EVT_PEND_PEND (n / 32) (n %
      32) false s))) ∧
  (∀ (r : Fin 5) (s : State), claimable s r = none →
    exec (.eventClaim r) s = .next (emit (.value (R.EVT_CLAIM.addr r 0) 0) s)) ∧
  (∀ (k : Fin 16) (w : BusW) (s : State),
    exec (.eventPendClear k w) s = .next (upTo 32 (fun b v => if wrote1 b w then putFBit F.EVT_PEND_PEND k b false v else v)
      s)) ∧
  (∀ (w : BusW) (s : State),
    exec (.softwareEvent w) s = .next (upTo 16 (fun i v => if wrote1 i w then raiseEvent (240 + i) v else v) s))

/-- A download inside 6 MiB stands in the activation buffer; commit actions 0, 1, 2 and 3 store the image, choose the slot for
the next reset and start an activation; the staged image is announced to the controllers; GO releases the cores when nothing
holds it, DONE ends the activation in the slot, and a timeout loads the previous image. Each request on the management
interface is answered in the format of R506; a legal endpoint ID is taken, a reserved one is refused; configuration 1 sets
the bus speed and 3 the transmission unit; an unsupported request is refused. (R475, R502, R503, R504, R505, R506) -/
def Obligations.FirmwareAndManagementInterface : Prop :=
  (∀ (k : Fin 4096) (x : Cmd) (s : State), adm s k 0x11 = some x → inReady x = true → 4 * cdw x 11 + adminIn x ≤ 0x600000 →
    let u := hwWrite 13 (actBuf s + 4 * cdw x 11) (x.data.take (adminIn x)) 0 0 s;
    exec (.fwImageDownload k) s = .next (admEnd x 0 0 { u with mgt := { u.mgt with fresh := true } })) ∧
  (∀ (k : Fin 4096) (x : Cmd) (s : State), adm s k 0x11 = some x → inReady x = true → 0x600000 < 4 * cdw x 11 + adminIn x →
    exec (.fwImageDownload k) s = .next (admEnd x stField 0 s)) ∧
  (∀ (k : Fin 4096) (x : Cmd) (s : State), fwCmd s k 0 = some x →
    exec (.fwCommitStore k) s = .next (fwStoring x (fun _ v => admEnd x 0 0 v) s)) ∧
  (∀ (k : Fin 4096) (x : Cmd) (s : State), fwCmd s k 1 = some x →
    exec (.fwCommitStoreNext k) s = .next (fwStoring x (fun n v => admEnd x stFwReset 0 (selWrite (selActive v) n v)) s)) ∧
  (∀ (k : Fin 4096) (x : Cmd) (s : State), fwCmd s k 2 = some x → fwTarget s x ≤ 4 →
    exec (.fwCommitSlotNext k) s = .next (if (imgCheck (.nor (slotAddr (fwTarget s x))) s).1 then (admEnd x stFwReset 0
      (selWrite (selActive (imgCheck (.nor (slotAddr (fwTarget s x))) s).2) (fwTarget s x) (imgCheck (.nor (slotAddr (fwTarget
      s x))) s).2)) else admEnd x stFwImage 0 (imgCheck (.nor (slotAddr (fwTarget s x))) s).2)) ∧
  (∀ (k : Fin 4096) (x : Cmd) (s : State), fwCmd s k 3 = some x → s.mgt.act = none → s.mgt.fresh = true →
    exec (.fwCommitActivate k) s = .next (fwStoring x (fun n v => setCmd { x with phase := .active }
      { v with mgt := { v.mgt with act := some ⟨1, x.num, n, false, 0⟩ } }) s)) ∧
  (∀ (x : Activation) (s : State), s.mgt.act = some x → x.phase = 1 →
    let b := fld F.MGT_STAT_BOOT_SLOT 0 s;
    let u := hwWrite 5 (actBuf s) (imgBytes s (.nor (slotAddr x.slot)) 0 (min 0x600000 (imgLen s (.nor (slotAddr x.slot))))) 0
      0 s;
    b = 0 →
    exec .actStaged s = .next (asyncAll 2 1 (setAct (some { x with phase := 2 }) u))) ∧
  (∀ (w : BusW) (x : Activation) (s : State),
    let u := put F.MGT_ACT_GO 0 1 (busWrite R.MGT_ACT 0 0 w s);
    wrote1 31 w = true → u.mgt.act = some x → x.phase = 2 →
    exec (.actGo w) s = .next (actWaiting (setAct (some { x with go := true }) u))) ∧
  (∀ (w : BusW) (x : Activation) (s : State),
    let u := put F.MGT_ACT_DONE 0 1 (busWrite R.MGT_ACT 0 0 w s);
    wrote1 30 w = true → u.mgt.act = some x → x.phase = 3 →
    let v := selWrite x.slot (((selector u).map (·.next)).getD 0) u;
    let y := actEnd x.num 0 (put F.MGT_ACT_GO 0 0 (put F.MGT_ACT_DONE 0 0 (put F.MGT_STAT_BOOT_SLOT 0 x.slot (setAct none
      v))));
    exec (.actDone w) s = .next (if (imgSegs y (.nor (slotAddr x.slot))).any (fun g => g.target == 1) then lyoloReset y else
      y)) ∧
  (∀ (x : Activation) (s : State), s.mgt.act = some x → x.phase = 3 → x.t + 1000000 * min 120 (fld1 F.MGT_ACT_TMO 0 s) ≤
    s.time →
    let u := put F.MGT_ACT_GO 0 0 (put F.MGT_ACT_DONE 0 0 (put F.MGT_ACT_REVERTED 0 1 (setAct none (segsLoad false (.land
      (prevBuf s)) s))));
    exec .actTimeout s = .next (blzEnter 1 (Config.openVal 504 [0]).toNat (Config.openVal 504 [1]).toNat (actEnd x.num
      stFwImage u))) ∧
  (∀ (h : Byte) (op : BitVec 2) (e : BitVec 8) (s : State), miUp s = true → op.toNat < 2 → 8 ≤ e.toNat → e.toNat ≠ 255 →
    exec (.mctpSetEndpointId h op e) s = .next (mctpSend h 1 0 [0, e, 0] { s with mgt := { s.mgt with eid := e.toNat } })) ∧
  (∀ (h : Byte) (op : BitVec 2) (e : BitVec 8) (s : State), miUp s = true → e.toNat < 8 →
    exec (.mctpSetEndpointId h op e) s = .next (mctpSend h 1 2 [] s)) ∧
  (∀ (h : Byte) (s : State), exec (.mctpGetEndpointId h) s = .next (mctpSend h 2 0 [byte s.mgt.eid, 0, 0] s)) ∧
  (∀ (h : Byte) (ty : Byte) (s : State), (ty = 0xFF ∨ ty = 0 ∨ ty = 4) →
    exec (.mctpGetVersionSupport h ty) s = .next (mctpSend h 4 0 (1 :: bytesOf 4 (Config.openVal 506 [0, ty.toNat]).toNat) s)) ∧
  (∀ (h : Byte) (ty : Byte) (s : State), ty = 5 → exec (.mctpGetVersionSupport h ty) s = .next (mctpSend h 4 0x80 [] s)) ∧
  (∀ (h : Byte) (s : State), exec (.mctpGetMessageTypeSupport h) s = .next (mctpSend h 5 0 [1, 4] s)) ∧
  (∀ (h : Byte) (p : BitVec 8) (ctl : BitVec 16) (s : State),
    exec (.readNvmeMiDataStructure h 0 p ctl) s = .next (miData h miSubsystem s)) ∧
  (∀ (h : Byte) (p : BitVec 8) (ctl : BitVec 16) (s : State), p.toNat ≤ 1 →
    exec (.readNvmeMiDataStructure h 1 p ctl) s = .next (miData h (miPort s p.toNat) s)) ∧
  (∀ (h : Byte) (p : BitVec 8) (ctl : BitVec 16) (s : State),
    exec (.readNvmeMiDataStructure h 2 p ctl) s = .next (miData h (bytesOf 2 ((miFns s).filter (fun f => ctl.toNat ≤ f +
      1)).length ++ ((miFns s).filter (fun f => ctl.toNat ≤ f + 1)).flatMap (fun f => bytesOf 2 (f + 1))) s)) ∧
  (∀ (h : Byte) (p : BitVec 8) (ctl : BitVec 16) (f : Nat) (s : State), (miFns s).find? (fun f => f + 1 == ctl.toNat) = some f
    →
    exec (.readNvmeMiDataStructure h 3 p ctl) s = .next (miData h (miCtrl s f) s)) ∧
  (∀ (h : Byte) (s : State), flag F.FLT_STAT_SAFE 0 s = false →
    exec (.subsystemHealthPoll h) s = .next (miData h (bytesOf 1 (48 + 8 * (hostLinkUp s).toNat) ++ bytesOf 1 (255 - critWarn
      s 0) ++ bytesOf 1 (miTemp s) ++ bytesOf 1 (deviceUsed s) ++ bytesOf 2 (((miFns s).any (fun f => flag F.CSTS_RDY f
      s)).toNat + 2 * ((miFns s).any (fun f => flag F.CSTS_CFS f s)).toNat + 4 * ((Config.openVal 506 [4]).toNat % 2 ^ 14)) ++
      bytesOf 2 0) s)) ∧
  (∀ (h : Byte) (a : BitVec 16) (m : BitVec 8) (s : State),
    let l := ((miFns s).filter (fun f => a.toNat ≤ f + 1)).take (m.toNat + 1);
    exec (.controllerHealthPoll h a m) s = .next (miSend h 0 [0, 0, byte l.length] (l.flatMap (miHealth s)) s)) ∧
  (∀ (h : Byte) (s : State),
    exec (.configurationGet h 1 1) s = .next (miSend h 0 [if flag F.MGT_MI_FAST 0 s then 2 else 1, 0, 0] [] s)) ∧
  (∀ (h : Byte) (s : State), exec (.configurationGet h 3 1) s = .next (miSend h 0 (bytesOf 2 s.mgt.mtu ++ [0]) [] s)) ∧
  (∀ (h : Byte) (v : BitVec 16) (s : State), miUp s = true → (v = 1 ∨ v = 2) →
    exec (.configurationSet h 1 1 v) s = .next (miSend h 0 [0, 0, 0] [] (put F.MGT_MI_FAST 0 (v.toNat - 1) s))) ∧
  (∀ (h : Byte) (v : BitVec 16) (s : State), miUp s = true → 64 ≤ v.toNat →
    exec (.configurationSet h 3 1 v) s = .next (if v.toNat ≤ miMtuMax then miSend h 0 [0, 0, 0] []
      { s with mgt := { s.mgt with mtu := v.toNat } } else miSend h miParam [0, 0, 0] [] s)) ∧
  (∀ (h : Byte) (f : BitVec 16) (n : BitVec 16) (s : State), f.toNat + n.toNat ≤ ((recBlob s 3).take 256).length →
    exec (.vpdRead h f n) s = .next (miData h ((((recBlob s 3).take 256).drop f.toNat).take n.toNat) s)) ∧
  (∀ (h : Byte) (s : State), exec (.miUnsupported h) s = .next (miSend h miOpcode [0, 0, 0] [] s))

/-- Boot completion releases the cores; CFG_LOCK locks; a kick restarts the watchdog, whose expiry is reported to checker 216;
a life record is saved while management runs; samples stand in their registers and drive their checkers; a wear sample joins
its region's history; a burn takes its operand and ends with DONE, and with FAIL when it failed. (R486, R490, R491, R493,
R494, R498, R500, R501, R510, R511, R520, R559) -/
def Obligations.ManagementDuties : Prop :=
  (∀ (s : State), s.cpr.stage = 2 → flag F.CPR_PL_LOSS 0 s = false →
    exec .bootComplete s = .next (bootRelease (ratioCheck (cfgBoot (bootSlot s))))) ∧
  (∀ (w : BusW) (s : State), wrote1 0 w = true → exec (.cfgLock w) s = .next (bootCommit s)) ∧
  (∀ (w : BusW) (s : State), flag F.MGT_WDT_EN 0 s = false → wrote1 31 w = true →
    let u := busWrite R.MGT_WDT 0 0 w s;
    exec (.wdtKick w) s = .next ({ u with mgt := { u.mgt with wdt := u.time } })) ∧
  (∀ (s : State), flag F.MGT_WDT_EN 0 s = true → s.cpr.lyHeld = false → s.mgt.wdt + 1000000 * fld1 F.MGT_WDT_TMO 0 s ≤ s.time
    →
    exec .wdtExpire s = .next (report 216 none 5 0 0 0 { s with mgt := { s.mgt with wdt := s.time } })) ∧
  (∀ (s : State), mgtRuns s = true → s.mgt.saved + fld1 F.MGT_CTL_SAVE_S 0 s ≤ fld F.BLZ_TIME_SECONDS 0 s →
    exec .lifeRecordSave s = .next (lifeSave s)) ∧
  (∀ (ts : List (BitVec 16)) (s : State), mgtOn s = true →
    let u := upTo 8 (fun k v => put F.MGT_TEMP_TEMP k (ts.getD k 0).toNat v) s;
    exec (.thermalSample ts) s = .next (dieCheckers (tDie u) (tempEvents (tDie s) (tDie u) u))) ∧
  (∀ (n : Fin 4) (v : Int) (s : State), mgtOn s = true → flag F.MGT_THM_EN n s = false →
    let u := { s with mgt := { s.mgt with rails := Tab.set s.mgt.rails 0 n.val (if v ≤ 0 ∨ 1200000000 ≤ v then min 100
                                            (Tab.get s.mgt.rails 0 n.val + 1) else 0) } };
    exec (.thermistorSample n v) s = .next (thmChecker n (put F.MGT_THM_TEMP n 0x8000 u))) ∧
  (∀ (n : Fin 4) (v : Int) (s : State), mgtOn s = true → flag F.MGT_THM_EN n s = true → 0 < v → v < 1200000000 →
    let u := { s with mgt := { s.mgt with rails := Tab.set s.mgt.rails 0 n.val 0 } };
    exec (.thermistorSample n v) s = .next (thmChecker n (put F.MGT_THM_OPEN n 0 (put F.MGT_THM_TEMP n (thmTemp (v * 2 ^ 32 /
      (1200000000 - v)).toNat (fld F.MGT_THM_BETA n u)) u)))) ∧
  (∀ (n : Fin 4) (s : State), mgtOn s = true → flag F.MGT_THM_EN n s = true → flag F.MGT_THM_OPEN n s = false → 100 ≤ Tab.get
    s.mgt.rails 0 n.val →
    exec (.thermistorOpen n) s = .next (thmChecker n (raiseEvent 139 (put F.MGT_THM_OPEN n 1 (put F.MGT_THM_TEMP n 0x8000
      s))))) ∧
  (∀ (n : Fin 6) (v : Int) (i : Int) (s : State), mgtOn s = true → n.val ≠ 3 →
    let x := (voltCode 4095 v).toNat;
    exec (.monitorSample n v i) s = .next (monChecker n x (put F.MGT_MON_V n x (put F.MGT_MON_I n (senseCode i).toNat s)))) ∧
  (∀ (sl : List (BitVec 16)) (s : State), mgtOn s = true →
    exec (.roSample sl) s = .next (upTo 16 (fun k v => put F.MGT_RO_SLOW k (sl.getD k 0).toNat v) s)) ∧
  (∀ (r : Fin 72) (m : Nat) (s : State), mgtRuns s = true → flag F.MGT_CTL_WEAR_EN 0 s = true → wearFenced s r = false →
    wearDue s r (powerHours s) = true →
    let x := Tab.get s.mgt.wear {} r;
    let y := wearFit (powerHours s) { x with hist := ((powerHours s, m) :: x.hist).take 64 };
    y.state ≠ 3 →
    exec (.wearSample r m) s = .next ({ s with mgt := { s.mgt with wear := Tab.put s.mgt.wear r y, wearChange :=
                                                                     (s.mgt.wearChange + 1) % 2 ^ 32, capSeen := s.mgt.capSeen
                                                                     || decide (r.val = 69) } })) ∧
  (∀ (w : BusW) (s : State),
    let u := busWrite R.MGT_FUSE 0 0 w s;
    wrote1 31 w = true → flag F.MGT_CTL_FUSE_EN 0 u = true → u.mgt.burn = none →
    exec (.fuseBurn w) s = .next (put F.MGT_FUSE_GO 0 1
      { u with mgt := { u.mgt with burn := some (fld F.MGT_FUSE_OP 0 u, if fld F.MGT_FUSE_OP 0 u = 0 then fld F.MGT_FUSE_SVN 0
                                     u else fld F.MGT_FUSE_KEY 0 u) } })) ∧
  (∀ (op : Nat) (v : Nat) (s : State), s.mgt.burn = some (op, v) →
    exec (.fuseBurnDone true) s = .next (put F.MGT_FUSE_GO 0 0 (put F.MGT_FUSE_DONE 0 1 (put F.MGT_FUSE_FAIL 0 0
      { s with fuse := fuseSet op v s.fuse, mgt := { s.mgt with burn := none } })))) ∧
  (∀ (op : Nat) (v : Nat) (s : State), s.mgt.burn = some (op, v) →
    exec (.fuseBurnDone false) s = .next (put F.MGT_FUSE_GO 0 0 (put F.MGT_FUSE_DONE 0 1 (put F.MGT_FUSE_FAIL 0 1
      { s with fuse := fuseFailed op v s.fuse, mgt := { s.mgt with burn := none } }))))

/-- A lost clock source is seen, made safe and reported to checker 8 + i with EV142, and its return ends that; SET drops
RETRACT_N and REL raises it when no other cause holds it; arm domains come up and, of unloaded arms, go down; the standby
request, its entry and its wake; AON sleep is left with reset cause 2. AON supplies that rise, or fall, are a power-on
reset; domains that power up reach stage 1 with the spindle STOPPED and the arms that were on; locked PLLs run the boot ROM,
which takes the first good slot of the selector's order; a warm reset holds the control cores and pauses the deck, and its
reload releases them from the slot it finds; a Lyolo reset holds Lyolo. (R521, R522, R524, R525, R528, R530, R531, R532,
R535, R536, R551, R557) -/
def Obligations.ClocksPowerAndResets : Prop :=
  (∀ (i : Fin 6) (s : State), monArmed s i = true → bit F.CPR_CLKMON_LOST 0 i s = false →
    let p := fld F.FLT_STAT_PENDING 0 s;
    let q := fld F.FLT_FC3_PEND_PEND 0 s;
    exec (.clockSourceLost i) s = .next (clkFurther i p q (reportAt p q false (8 + i) none 0 0 0 0 (clkSafe i (standbyWake
      s))))) ∧
  (∀ (i : Fin 6) (s : State), bit F.CPR_CLKMON_LOST 0 i s = true → (i.val = 5 ∨ i.val = 1) →
    let u := raiseEvent 142 (condFalls (8 + i) (putFBit F.CPR_CLKMON_LOST 0 i false s));
    fld F.CPR_CLKMON_LOST 0 u = 0 →
    exec (.clockSourceReturned i) s = .next (linkThaw (putFBit F.CPR_RETRACT_CAUSE 0 1 false u))) ∧
  (∀ (w : BusW) (s : State), wrote1 0 w = true → exec (.cprRetractSet w) s = .next (retractCause 4 s)) ∧
  (∀ (w : BusW) (s : State),
    let c := fld F.CPR_RETRACT_CAUSE 0 s;
    wrote1 1 w = true → c.testBit 1 = false → c.testBit 2 = false → c.testBit 3 = false → retractLow s = true →
    exec (.cprRetractRel w) s = .next (upTo 4 (fun a v => if mode v a = 9 then setArm a { arm v a with judge := true } v else
      if mode v a = 8 then setVcm a (sext 16 (match (arm v a).phase with | .climb => fld F.SRV_PARK_UNLOAD_I a v | .park =>
                                                                                                                   fld
                                                                                                                   F.SRV_PARK_PARK_I
                                                                                                                   a v | _ =>
                                                                                                                         0)) v
      else v) (put F.CPR_RETRACT_CAUSE 0 0 (put F.CPR_RETRACT_LOW 0 0 s)))) ∧
  (∀ (a : Fin 4) (w : BusW) (s : State),
    let u := pdWrite w s;
    wrote1 a w = true → armUp u a = false → flag F.CPR_PL_LOSS 0 u = false →
    exec (.armDomainOn a w) s = .next (armOn a (putFBit F.CPR_PD_ARM_ON 0 a true u))) ∧
  (∀ (a : Fin 4) (w : BusW) (s : State),
    let u := pdWrite w s;
    wrote0 a w = true → mode u a < 2 →
    let v := putFBit F.CPR_PD_ARM_ON 0 a false u;
    armUp v a = true →
    exec (.armDomainOff a w) s = .next (armOff a v)) ∧
  (∀ (w : BusW) (s : State), wrote1 8 w = true →
    exec (.standbyRequest w) s = .next (put F.CPR_PD_STANDBY 0 1 (pdWrite w s))) ∧
  (∀ (s : State), fabOff s = false → standbyOk s = true →
    exec .standbyEnter s = .next (dramSleep (put F.CPR_PD_STAT_LEVEL 0 1 (put F.CPR_PD_STAT_FAB_RET 0 1 (spmEnter 0 s))))) ∧
  (∀ (s : State), fabOff s = true → spmSt s = 0 →
    let u := put F.CPR_PD_STAT_LEVEL 0 0 (put F.CPR_PD_STAT_FAB_RET 0 0 (put F.CPR_PD_STANDBY 0 0 s));
    spmSt u = 0 →
    exec .standbyWake s = .next (shockStart (dramWake (spmEnter 1 u)))) ∧
  (∀ (w : BusW) (s : State), wrote1 10 w = true → exec (.cprWake w) s = .next (standbyWake (pdWrite w s))) ∧
  (∀ (s : State), s.cpr.aonSleep = false → s.cpr.perst = true → flag F.CPR_PD_AON_OK 0 s = true → s.cpr.stage ≠ 0 →
    s.cpr.perstAt + 1000000 * fld1 F.CPR_PD_PERST_MS 0 s ≤ s.time →
    exec .aonSleepEnter s = .next ({ domainsOff s with cpr := { (domainsOff s).cpr with aonSleep := true } })) ∧
  (∀ (s : State), s.cpr.aonSleep = true →
    let u := put F.CPR_RST_CAUSE 0 2 s;
    exec .aonSleepExit s = .next ({ u with cpr := { u.cpr with aonSleep := false, perst := false } })) ∧
  (∀ (b : Bool) (s : State), s.cpr.supplies = false →
    exec (.aonPowerOn b) s = .next ({ powerOnReset s with cpr := { (powerOnReset s).cpr with supplies := true, testMode := b }
                                                            })) ∧
  (∀ (s : State), s.cpr.supplies = true →
    exec .aonSupplyFall s = .next ({ powerOnReset s with cpr := { (powerOnReset s).cpr with supplies := false } })) ∧
  (∀ (s : State), s.cpr.supplies = true → s.cpr.aonSleep = false → s.cpr.stage = 0 → flag F.CPR_PL_LOSS 0 s = false →
    exec .domainsPowerUp s = .next (upTo 4 (fun a v => if bit F.CPR_PD_ARM_ON 0 a v then armOn a v else v) (shockStart
      (spmEnter 1 { s with cpr := { s.cpr with stage := 1 } })))) ∧
  (∀ (s : State), s.cpr.stage = 1 → s.cpr.testMode = false →
    let u := lifeBoot { s with cpr := { s.cpr with stage := 2, lyHeld := false } };
    let r := bootPick (bootOrder u) (put F.BLZ_STAT_STATE 0 1 u);
    exec .pllsLocked s = .next ({ r.2 with mgt := { r.2.mgt with boot := r.1, next := r.1 ≠ 0 && r.1 = ((selector u).map
                                                                   (·.next)).getD 0 } })) ∧
  (∀ (w : BusW) (s : State), wrote1 0 w = true → s.cpr.stage = 3 → exec (.warmReset w) s = .next (warmReset s)) ∧
  (∀ (s : State), s.cpr.warm = true → flag F.FLT_STAT_SAFE 0 s = false → flag F.CPR_PL_LOSS 0 s = false →
    let r := bootPick (reloadOrder s) s;
    let u := segsLoad false (.nor (slotAddr r.1)) r.2;
    exec .warmResetReloadDone s = .next (if r.1 = 0 then r.2 else
      { u with cpr := { u.cpr with cpHeld := false, warm := false } })) ∧
  (∀ (c : Fin 4) (w : BusW) (s : State), wrote1 1 w = true → s.cpr.stage = 3 →
    exec (.lyoloReset (.cp c) w) s = .next ({ s with cpr := { s.cpr with lyHeld := true } })) ∧
  (∀ (s : State), s.cpr.lyHeld = true → s.cpr.stage = 3 → lyFault s = false → flag F.CPR_PL_LOSS 0 s = false →
    let r := bootPick (reloadOrder s) s;
    let u := put F.MGT_WDT_EN 0 1 (segsLoad true (.nor (slotAddr r.1)) r.2);
    exec .lyoloBootDone s = .next (if r.1 = 0 then r.2 else
      { u with cpr := { u.cpr with lyHeld := false }, mgt := { u.mgt with wdt := u.time } }))

/-- The signal starts the power-loss sequence where it is enabled; a programmed page counts, a failed one is remapped to a
spare block; the header ends the dump with DSEQ advanced; ARM takes enough good blocks or sets ERR 5; RESTORE starts a
restore, which ends 1 without a good header and 2 with an old one. (R411, R537, R538, R539, R540, R543, R544, R545, R546) -/
def Obligations.PowerLossDump : Prop :=
  (∀ (s : State), flag F.CPR_PL_PWRFAIL_EN 0 s = true → s.cpr.stage ≠ 0 → exec .powerLossSignal s = .next (powerLoss s)) ∧
  (∀ (d : DumpRun) (p : Nat × Nat) (l : List Ecc) (s : State), s.cpr.dump = some d → fld F.CPR_DUMP_CTL_STATE 0 s = 2 → d.page
    + 1 < dumpPages s → dumpAt s d.remaps d.page = some p →
    let u := dumpLook d.page l s;
    exec (.dumpPageDone true l) s = .next (setDump (some { d with page := d.page + 1 }) (put F.CPR_DUMP_STAT_PAGES 0 (d.page +
      1) (nandProgram (dumpRow u p) (dumpPage u d.page) u)))) ∧
  (∀ (d : DumpRun) (p : Nat × Nat) (sp : Nat) (l : List Ecc) (s : State), s.cpr.dump = some d → fld F.CPR_DUMP_CTL_STATE 0 s =
    2 → d.page + 1 < dumpPages s → dumpAt s d.remaps d.page = some p →
    let u := dumpLook d.page l s;
    dumpSpare u d.spares = some sp → d.remaps.length < 8 →
    exec (.dumpPageDone false l) s = .next (setDump (some
      { d with remaps := d.remaps ++ [(p.1, p.2, sp)], spares := d.spares + 1 }) (put F.CPR_DUMP_STAT_REMAPS 0
      (d.remaps.length + 1) (nandSpoil (dumpRow u p) u)))) ∧
  (∀ (d : DumpRun) (p : Nat × Nat) (b : Bool) (s : State), s.cpr.dump = some d → fld F.CPR_DUMP_CTL_STATE 0 s = 2 → d.page + 1
    = dumpPages s → dumpHeaderAt s d = some p →
    let u := put F.CPR_DUMP_STAT_PAGES 0 (d.page + 1) (nandProgram (dumpRow s p) (dumpHeader s d) s);
    u.cpr.protMoved = false →
    let v := { u with cpr := { u.cpr with savedCache := u.deck.cache, savedImages := (Tab.vals u.spr.passes).filter inPlace }
                        };
    exec (.dumpEnd true b) s = .next (powerOff d.cause b (dumpIdle v))) ∧
  (∀ (d : DumpRun) (p : Nat × Nat) (b : Bool) (s : State), s.cpr.dump = some d → fld F.CPR_DUMP_CTL_STATE 0 s = 2 → d.page + 1
    = dumpPages s → dumpHeaderAt s d = some p →
    let u := put F.CPR_DUMP_STAT_PAGES 0 (d.page + 1) (nandProgram (dumpRow s p) (dumpHeader s d) s);
    u.cpr.protMoved = true →
    exec (.dumpEnd true b) s = .next (powerOff d.cause b (dumpIdle (dumpSave u)))) ∧
  (∀ (w : BusW) (s : State),
    let u := dumpCtlWrite w s;
    fld F.CPR_DUMP_CTL_STATE 0 u = 0 → wrote1 0 w = true → dumpNeed u ≤ (dumpEntries u).length →
    exec (.dumpArm w) s = .next (put F.CPR_DUMP_CTL_ERR 0 0 (put F.CPR_DUMP_CTL_STATE 0 1 (put F.CPR_DUMP_CTL_ARM 0 1 u)))) ∧
  (∀ (w : BusW) (s : State),
    let u := dumpCtlWrite w s;
    fld F.CPR_DUMP_CTL_STATE 0 u = 0 → wrote1 0 w = true → (dumpEntries u).length < dumpNeed u →
    exec (.dumpArm w) s = .next (put F.CPR_DUMP_CTL_ERR 0 5 u)) ∧
  (∀ (w : BusW) (s : State),
    let u := dumpCtlWrite w s;
    fld F.CPR_DUMP_CTL_STATE 0 u = 0 → wrote1 1 w = true → flag F.CPR_PL_LOSS 0 u = false →
    exec (.dumpRestore w) s = .next (put F.CPR_DUMP_CTL_ERR 0 0 (put F.CPR_DUMP_CTL_STATE 0 3 u))) ∧
  (∀ (l : List Nat) (s : State), fld F.CPR_DUMP_CTL_STATE 0 s = 3 → l.contains (dumpPages s - 1) = true →
    exec (.dumpRestoreDone l) s = .next (restoreEnd 1 s)) ∧
  (∀ (l : List Nat) (s : State), fld F.CPR_DUMP_CTL_STATE 0 s = 3 → l.contains (dumpPages s - 1) = false →
    exec (.dumpRestoreDone l) s = .next (match headerFind s with | none => restoreEnd 1 s | some b => if later32 (le b 8 4)
                                                                                            (fld F.CPR_DUMP_SEQ_DSEQ 0 s) =
                                                                                            false then restoreEnd 2 s else if
                                                                                            restoreOk s b l = false then
                                                                                            restoreEnd 3 s else restored s b
                                                                                            l))

/-- An aligned access to the register blocks reaches each register it names with its own bytes; one that is not aligned, or to
no unit, is a bus error of its master; shared SRAM and the CMB take bytes; Lyolo's own map leads to its SRAM; a host access
goes by the spaces of its function. (R6, R9, R10, R11, R74, R469, R485, R565) -/
def Obligations.RegisterAccess : Prop :=
  (∀ (a : Nat) (n : Nat) (d : Nat) (ep : Bool) (s : State), inBlock a = true → a < landBase → busAligned a n = true →
    exec (.registerWrite .yarder a n d ep) s = .next (each (pieces allRegs a n d) (fun e v => busAll .yarder e.1 e.2.1 e.2.2.1
      e.2.2.2 v) s)) ∧
  (∀ (a : Nat) (n : Nat) (d : Nat) (ep : Bool) (s : State), inBlock a = true → a < landBase → busAligned a n = false →
    exec (.registerWrite .yarder a n d ep) s = .next (busError 6 2 a s)) ∧
  (∀ (a : Nat) (n : Nat) (d : Nat) (ep : Bool) (s : State), inBlock a = false → a < landBase → inSram a n = true →
    exec (.registerWrite .yarder a n d ep) s = .next (relocSeen s (sramWrite a (bytesOf n d) s))) ∧
  (∀ (a : Nat) (n : Nat) (d : Nat) (ep : Bool) (s : State), inBlock a = false → a < landBase → inSram a n = false → inCmb a n
    = false →
    exec (.registerWrite .yarder a n d ep) s = .next (busError 6 2 a s)) ∧
  (∀ (a : Nat) (n : Nat) (s : State), inBlock a = true → a < landBase → busAligned a n = true → fenceWaits s a n = none →
    exec (.readClear .yarder a n) s = .next (emit (.value a (blockRead a n s).1) (blockRead a n s).2)) ∧
  (∀ (a : Nat) (n : Nat) (k : Fin 4) (s : State), inBlock a = true → a < landBase → busAligned a n = true → fenceWaits s a n =
    some k →
    exec (.readClear .yarder a n) s = .next (hold (.fenceRd k a n) s)) ∧
  (∀ (a : Nat) (n : Nat) (s : State), inBlock a = false → a < landBase → inSram a n = true →
    exec (.readClear .yarder a n) s = .next (emit (.data a (clean (sramRead s a n))) s)) ∧
  (∀ (a : Nat) (n : Nat) (s : State), inBlock a = true → a < landBase → busAligned a n = false →
    exec (.readClear .yarder a n) s = .next (busError 6 1 a s)) ∧
  (∀ (a : Nat) (n : Nat) (d : Nat) (ep : Bool) (p : Nat) (s : State), 0x10000 < a + n → lyoSram a n = some p →
    exec (.registerWrite .lyolo a n d ep) s = .next ({ s with lyo := putBytes s.lyo p (bytesOf n d) })) ∧
  (∀ (f : Fin 64) (a : Nat) (n : Nat) (d : Nat) (ep : Bool) (s : State),
    exec (.registerWrite (.host f) a n d ep) s = .next (hostWrite f a n d ep s)) ∧
  (∀ (f : Fin 64) (a : Nat) (n : Nat) (s : State), exec (.readClear (.host f) a n) s = .next (hostRead f a n s))
end

