-- ==== Sys2Proof/Laws/Tab.lean ====
section
/-! SUPPORT. Laws of sparse tables: a read after a write, and that every operation keeps the keys rising. -/

namespace Sys2Proof

variable {α : Type}

@[simp] theorem Tab.get?_nil (k : Nat) : Tab.get? ([] : Tab α) k = none := rfl

theorem Tab.get?_put (t : Tab α) (k j : Nat) (v : α) :
    Tab.get? (Tab.put t k v) j = if k = j then some v else Tab.get? t j := by
  induction t with
  | nil => simp [Tab.put, Tab.get?]
  | cons e t ih =>
    obtain ⟨a, w⟩ := e
    simp only [Tab.put]
    split
    · simp [Tab.get?]
    · split
      · subst_vars; by_cases h : a = j <;> simp [Tab.get?, h]
      · simp only [Tab.get?, ih]
        split
        · subst_vars; rw [if_neg (by assumption)]
        · rfl

@[simp] theorem Tab.get?_put_same (t : Tab α) (k : Nat) (v : α) : Tab.get? (Tab.put t k v) k = some v := by
  simp [Tab.get?_put]

theorem Tab.get?_put_other (t : Tab α) {k j : Nat} (v : α) (h : k ≠ j) :
    Tab.get? (Tab.put t k v) j = Tab.get? t j := by simp [Tab.get?_put, h]

theorem Tab.get?_erase (t : Tab α) (k j : Nat) :
    Tab.get? (Tab.erase t k) j = if k = j then none else Tab.get? t j := by
  induction t with
  | nil => simp [Tab.erase]
  | cons e t ih =>
    obtain ⟨a, w⟩ := e
    simp only [Tab.erase] at ih
    by_cases h : a = k
    · subst h
      by_cases h' : a = j
      · subst h'; simpa [Tab.erase] using ih
      · simp [Tab.erase, ih, Tab.get?, h']
    · by_cases h' : a = j
      · subst h'; simp [Tab.erase, Tab.get?, h, Ne.symm h]
      · simp [Tab.erase, ih, Tab.get?, h, h']

/-- A write of a value in canonical form, then a read with the same unlisted value. -/
theorem Tab.get_set [DecidableEq α] (t : Tab α) (d : α) (k : Nat) (v : α) :
    Tab.get (Tab.set t d k v) d k = v := by
  unfold Tab.set Tab.get
  split
  · subst_vars; simp [Tab.get?_erase]
  · simp

theorem Tab.get?_set_other [DecidableEq α] (t : Tab α) (d : α) {k j : Nat} (v : α) (h : k ≠ j) :
    Tab.get? (Tab.set t d k v) j = Tab.get? t j := by
  unfold Tab.set
  split
  · simp [Tab.get?_erase, h]
  · simp [Tab.get?_put, h]

theorem Tab.get_set_other [DecidableEq α] (t : Tab α) (d e : α) {k j : Nat} (v : α) (h : k ≠ j) :
    Tab.get (Tab.set t d k v) e j = Tab.get t e j := by
  simp [Tab.get, Tab.get?_set_other t d v h]

/-! ### The keys stay rising -/

theorem Tab.risingFrom_mono {lo lo' : Nat} {t : Tab α} (h : lo' ≤ lo) :
    Tab.risingFrom lo t = true → Tab.risingFrom lo' t = true := by
  cases t with
  | nil => simp [Tab.risingFrom]
  | cons e t => simp only [Tab.risingFrom, Bool.and_eq_true, decide_eq_true_eq]; exact fun g => ⟨by omega, g.2⟩

theorem Tab.rising_of_risingFrom {lo : Nat} {t : Tab α} (h : Tab.risingFrom lo t = true) : Tab.rising t = true := by
  cases t with
  | nil => rfl
  | cons e t => simp only [Tab.risingFrom, Bool.and_eq_true] at h; exact h.2

theorem Tab.risingFrom_put {lo k : Nat} (t : Tab α) (v : α) (hk : lo < k) (h : Tab.risingFrom lo t = true) :
    Tab.risingFrom lo (Tab.put t k v) = true := by
  induction t generalizing lo with
  | nil => simp [Tab.put, Tab.risingFrom, hk]
  | cons e t ih =>
    obtain ⟨a, w⟩ := e
    simp only [Tab.risingFrom, Bool.and_eq_true, decide_eq_true_eq] at h
    simp only [Tab.put]
    split
    · simp [Tab.risingFrom, *]
    · split
      · subst_vars; simp [Tab.risingFrom, *]
      · simp only [Tab.risingFrom, Bool.and_eq_true, decide_eq_true_eq]
        exact ⟨h.1, ih (by omega) h.2⟩

theorem Tab.rising_put {k : Nat} {t : Tab α} {v : α} (h : Tab.rising t = true) : Tab.rising (Tab.put t k v) = true := by
  cases t with
  | nil => rfl
  | cons e t =>
    obtain ⟨a, w⟩ := e
    simp only [Tab.rising] at h
    simp only [Tab.put]
    split
    · simp [Tab.rising, Tab.risingFrom, *]
    · split
      · subst_vars; exact h
      · exact Tab.risingFrom_put t v (by omega) h

theorem Tab.risingFrom_filter {lo : Nat} (p : Nat × α → Bool) (t : Tab α) (h : Tab.risingFrom lo t = true) :
    Tab.risingFrom lo (t.filter p) = true := by
  induction t generalizing lo with
  | nil => rfl
  | cons e t ih =>
    simp only [Tab.risingFrom, Bool.and_eq_true, decide_eq_true_eq] at h
    rw [List.filter_cons]
    split
    · simp only [Tab.risingFrom, Bool.and_eq_true, decide_eq_true_eq]; exact ⟨h.1, ih h.2⟩
    · exact Tab.risingFrom_mono (Nat.le_of_lt h.1) (ih h.2)

theorem Tab.rising_filter (p : Nat × α → Bool) {t : Tab α} (h : Tab.rising t = true) :
    Tab.rising (t.filter p) = true := by
  cases t with
  | nil => rfl
  | cons e t =>
    rw [List.filter_cons]
    split
    · exact Tab.risingFrom_filter p t h
    · exact Tab.rising_of_risingFrom (Tab.risingFrom_filter p t h)

theorem Tab.rising_erase {k : Nat} {t : Tab α} (h : Tab.rising t = true) : Tab.rising (Tab.erase t k) = true :=
  Tab.rising_filter _ h

theorem Tab.rising_clear {lo hi : Nat} {t : Tab α} (h : Tab.rising t = true) : Tab.rising (Tab.clear t lo hi) = true :=
  Tab.rising_filter _ h

theorem Tab.rising_set [DecidableEq α] {d v : α} {k : Nat} {t : Tab α} (h : Tab.rising t = true) :
    Tab.rising (Tab.set t d k v) = true := by
  unfold Tab.set
  split
  · exact Tab.rising_erase h
  · exact Tab.rising_put h

end Sys2Proof
end

