-- ==== Sys2Proof/Laws/Keeps.lean ====
section
/-! SUPPORT. What every operation but a few keeps: the queue, device time, the fuses, the active geometry, a lock once made, and
the canonical form of the register table and the memories. -/

namespace Sys2Proof.Laws

open Sys2Proof Sys2Proof.Machine

/-- From `s` to `t`: the queue, device time, fuses and geometry stay, RWL fields stay locked once locked, and the tables
stay canonical. -/
structure Keeps (s t : State) : Prop where
  pending : t.pending = s.pending
  time : t.time = s.time
  fuse : t.fuse = s.fuse
  geo : t.geo = s.geo
  lock : s.locked = true → t.locked = true
  mem : memWf s = true → memWf t = true
  regs : regsWf s = true → regsWf t = true

theorem Keeps.refl (s : State) : Keeps s s := ⟨rfl, rfl, rfl, rfl, id, id, id⟩

theorem Keeps.trans {s t u : State} (h : Keeps s t) (g : Keeps t u) : Keeps s u :=
  ⟨g.pending.trans h.pending, g.time.trans h.time, g.fuse.trans h.fuse, g.geo.trans h.geo,
    fun x => g.lock (h.lock x), fun x => g.mem (h.mem x), fun x => g.regs (h.regs x)⟩

variable {s u : State}

/-- An update of any other field. -/
theorem Keeps.upd {free' out' sramEra' landEra' geoImg' links' lanes' syns' wops' wbufs' dec' arms' heads' shock' shockCh' spm'
    sched' spr' deck' cpr' lnd' ychs' blz' flt' mgt' cfg'} :
    Keeps s ⟨u.regs, u.locked, u.time, free', out', u.sram, sramEra', u.nor, u.mirror, u.land, landEra', u.geo, geoImg', links',
      lanes', syns', wops', wbufs', dec', arms', heads', shock', shockCh', spm', sched', spr', deck', cpr', lnd', ychs', blz',
      flt', mgt', u.fuse, cfg', u.tcm, u.lyo, u.pending⟩ ↔ Keeps s u :=
  ⟨fun h => ⟨h.pending, h.time, h.fuse, h.geo, h.lock, h.mem, h.regs⟩,
    fun h => ⟨h.pending, h.time, h.fuse, h.geo, h.lock, h.mem, h.regs⟩⟩

theorem Keeps.setRegs {r : Tab Word} (h : Keeps s u) (hr : Tab.rising u.regs = true → Tab.rising r = true) :
    Keeps s { u with regs := r } :=
  ⟨h.pending, h.time, h.fuse, h.geo, h.lock, h.mem, fun x => hr (h.regs x)⟩

theorem wr_keeps (r : RegDef) (i j v : Nat) (h : Keeps s u) : Keeps s (wr r i j v u) := h.setRegs Tab.rising_set

theorem memWf_iff (s : State) : memWf s = true ↔ Tab.rising s.sram = true ∧ Tab.rising s.land = true ∧ Tab.rising s.tcm = true ∧
    Tab.rising s.lyo = true ∧ (Tab.rising s.nor = true ∧ Tab.lists 0xFF s.nor = true) ∧
    (Tab.rising s.mirror = true ∧ Tab.lists 0xFF s.mirror = true) := by
  simp only [memWf, Bool.and_eq_true, and_assoc]

theorem lists_filter {α : Type} [DecidableEq α] {d : α} {t : Tab α} (p : Nat × α → Bool) (h : Tab.lists d t = true) :
    Tab.lists d (t.filter p) = true := by
  simp only [Tab.lists, List.all_eq_true] at *
  exact fun x hx => h x (List.mem_of_mem_filter hx)

theorem lists_put {α : Type} [DecidableEq α] {d v : α} {k : Nat} (t : Tab α) (hv : v ≠ d) (h : Tab.lists d t = true) :
    Tab.lists d (Tab.put t k v) = true := by
  induction t with
  | nil => simp [Tab.put, Tab.lists, hv]
  | cons e t ih =>
    obtain ⟨a, w⟩ := e
    simp only [Tab.lists, List.all_cons, Bool.and_eq_true] at h ih ⊢
    simp only [Tab.put]
    split
    · simp [h, hv]
    · split
      · simp [h, hv]
      · simp [h, ih h.2]

theorem lists_set {α : Type} [DecidableEq α] {d v : α} {k : Nat} {t : Tab α} (h : Tab.lists d t = true) :
    Tab.lists d (Tab.set t d k v) = true := by
  unfold Tab.set
  split
  · exact lists_filter _ h
  · exact lists_put t (by assumption) h

/-- A byte table of canonical form with unlisted bytes 0xFF. -/
def FFok (t : Tab Byte) : Prop := Tab.rising t = true ∧ Tab.lists 0xFF t = true

theorem putFF_ok {bs : List Byte} : ∀ {t : Tab Byte} {a : Nat}, FFok t → FFok (putFF t a bs) := by
  induction bs with
  | nil => exact fun h => h
  | cons b bs ih => exact fun h => ih ⟨Tab.rising_set h.1, lists_set h.2⟩

theorem clear_ok {t : Tab Byte} {lo hi : Nat} (h : FFok t) : FFok (Tab.clear t lo hi) := ⟨Tab.rising_clear h.1, lists_filter _ h.2⟩

theorem putBytes_ok {bs : List Byte} : ∀ {t : Tab Byte} {a : Nat}, Tab.rising t = true → Tab.rising (putBytes t a bs) = true := by
  induction bs with
  | nil => exact fun h => h
  | cons b bs ih => exact fun h => ih (Tab.rising_put h)

theorem Keeps.setNor {n : Tab Byte} (h : Keeps s u) (hn : FFok u.nor → FFok n) : Keeps s { u with nor := n } :=
  ⟨h.pending, h.time, h.fuse, h.geo, h.lock,
    fun x => by have := (memWf_iff u).1 (h.mem x); exact (memWf_iff _).2 ⟨this.1, this.2.1, this.2.2.1, this.2.2.2.1, hn this.2.2.2.2.1, this.2.2.2.2.2⟩, h.regs⟩

theorem Keeps.setMirror {n : Tab Byte} (h : Keeps s u) (hn : FFok u.mirror → FFok n) : Keeps s { u with mirror := n } :=
  ⟨h.pending, h.time, h.fuse, h.geo, h.lock,
    fun x => by have := (memWf_iff u).1 (h.mem x); exact (memWf_iff _).2 ⟨this.1, this.2.1, this.2.2.1, this.2.2.2.1, this.2.2.2.2.1, hn this.2.2.2.2.2⟩, h.regs⟩

theorem Keeps.setNorMirror {n m : Tab Byte} {b : Blaze} (h : Keeps s u) (hn : FFok u.nor → FFok n) (hm : FFok u.mirror → FFok m) :
    Keeps s { u with nor := n, mirror := m, blz := b } :=
  ⟨h.pending, h.time, h.fuse, h.geo, h.lock,
    fun x => by have := (memWf_iff u).1 (h.mem x); exact (memWf_iff _).2 ⟨this.1, this.2.1, this.2.2.1, this.2.2.2.1, hn this.2.2.2.2.1, hm this.2.2.2.2.2⟩, h.regs⟩

theorem Keeps.setSram {n : Tab Byte} (h : Keeps s u) (hn : Tab.rising u.sram = true → Tab.rising n = true) :
    Keeps s { u with sram := n } :=
  ⟨h.pending, h.time, h.fuse, h.geo, h.lock,
    fun x => by have := (memWf_iff u).1 (h.mem x); exact (memWf_iff _).2 ⟨hn this.1, this.2⟩, h.regs⟩

theorem Keeps.setLand {n : Tab Granule} (h : Keeps s u) (hn : Tab.rising u.land = true → Tab.rising n = true) :
    Keeps s { u with land := n } :=
  ⟨h.pending, h.time, h.fuse, h.geo, h.lock,
    fun x => by have := (memWf_iff u).1 (h.mem x); exact (memWf_iff _).2 ⟨this.1, hn this.2.1, this.2.2⟩, h.regs⟩

theorem Keeps.setTcm {n : Tab Byte} (h : Keeps s u) (hn : Tab.rising u.tcm = true → Tab.rising n = true) :
    Keeps s { u with tcm := n } :=
  ⟨h.pending, h.time, h.fuse, h.geo, h.lock,
    fun x => by have := (memWf_iff u).1 (h.mem x); exact (memWf_iff _).2 ⟨this.1, this.2.1, hn this.2.2.1, this.2.2.2⟩, h.regs⟩

theorem Keeps.setLyo {n : Tab Byte} (h : Keeps s u) (hn : Tab.rising u.lyo = true → Tab.rising n = true) :
    Keeps s { u with lyo := n } :=
  ⟨h.pending, h.time, h.fuse, h.geo, h.lock,
    fun x => by have := (memWf_iff u).1 (h.mem x); exact (memWf_iff _).2 ⟨this.1, this.2.1, this.2.2.1, hn this.2.2.2.1, this.2.2.2.2⟩, h.regs⟩

theorem Keeps.setLocked (h : Keeps s u) : Keeps s { u with locked := true } :=
  ⟨h.pending, h.time, h.fuse, h.geo, fun _ => rfl, h.mem, h.regs⟩

theorem each_keeps {α : Type} {f : α → State → State} (hf : ∀ a v, Keeps s v → Keeps s (f a v)) (l : List α) (h : Keeps s u) :
    Keeps s (each l f u) := by
  unfold each
  induction l generalizing u with
  | nil => exact h
  | cons a l ih => exact ih (hf a u h)

theorem foldl_keeps {α : Type} {f : State → α → State} (hf : ∀ a v, Keeps s v → Keeps s (f v a)) (l : List α) (h : Keeps s u) :
    Keeps s (l.foldl f u) := each_keeps (f := fun a v => f v a) hf l h

theorem foldr_keeps {α : Type} {f : α → State → State} (hf : ∀ a v, Keeps s v → Keeps s (f a v)) (l : List α) (h : Keeps s u) :
    Keeps s (l.foldr f u) := by
  induction l with
  | nil => exact h
  | cons a l ih => exact hf a _ ih

theorem upTo_keeps {f : Nat → State → State} (hf : ∀ a v, Keeps s v → Keeps s (f a v)) (n : Nat) (h : Keeps s u) :
    Keeps s (upTo n f u) := foldl_keeps (f := fun v a => f a v) hf _ h

/-- A command that answers a next state keeps them. -/
def KeepsA (s : State) (o : Answer) : Prop := ∀ t, o = .next t → Keeps s t

theorem KeepsA.next {t : State} (h : Keeps s t) : KeepsA s (.next t) := by
  intro v e; cases e; exact h

theorem Keeps.ite {c : Prop} [Decidable c] {a b : State} (ha : Keeps s a) (hb : Keeps s b) : Keeps s (if c then a else b) := by
  split <;> assumption

theorem KeepsA.ite {c : Prop} [Decidable c] {a b : Answer} (ha : KeepsA s a) (hb : KeepsA s b) :
    KeepsA s (if c then a else b) := by
  split <;> assumption

end Sys2Proof.Laws
end

