-- ==== Sys2Proof/Laws/KeepsUnits.lean ====
section
/-! SUPPORT. Shared operations of memories, events, deck, faults, landing, SPR and the decoder pool: each keeps what `Keeps` says. -/

namespace Sys2Proof.Laws

open Sys2Proof Sys2Proof.Machine

variable {s u : State}

theorem put2_keeps (f : Field) (i : ℕ) (j : ℕ) (v : ℕ) (h : Keeps s u) : Keeps s (put2 f i j v u) := by
  unfold put2
  repeat' first | with_reducible assumption | with_reducible apply wr_keeps

theorem put_keeps (f : Field) (i : ℕ) (v : ℕ) (h : Keeps s u) : Keeps s (put f i v u) := by
  unfold put
  repeat' first | with_reducible assumption | with_reducible apply put2_keeps

theorem putFBit_keeps (f : Field) (i : ℕ) (k : ℕ) (b : Bool) (h : Keeps s u) : Keeps s (putFBit f i k b u) := by
  unfold putFBit
  repeat' first | with_reducible assumption | with_reducible apply put_keeps

theorem countN_keeps (f : Field) (i : ℕ) (n : ℕ) (h : Keeps s u) : Keeps s (countN f i n u) := by
  unfold countN
  repeat' first | with_reducible assumption | with_reducible apply put_keeps

theorem count_keeps (f : Field) (i : ℕ) (h : Keeps s u) : Keeps s (count f i u) := by
  unfold count
  repeat' first | with_reducible assumption | with_reducible apply countN_keeps

theorem busWrite_keeps (r : RegDef) (i : ℕ) (j : ℕ) (w : BusW) (h : Keeps s u) : Keeps s (busWrite r i j w u) := by
  unfold busWrite
  repeat' first | with_reducible assumption | with_reducible apply wr_keeps

theorem bootCommit_keeps (h : Keeps s u) : Keeps s (bootCommit u) := put_keeps _ _ _ (put_keeps _ _ _ h.setLocked)

theorem emit_keeps (o : Output) (h : Keeps s u) : Keeps s (emit o u) := by
  unfold emit
  repeat' first | with_reducible assumption | simp only [Keeps.upd]

theorem takeFree_keeps (h : Keeps s u) : Keeps s (takeFree u).2 := Keeps.upd.2 h

theorem takeFree_of {n : Nat} {t : State} (h : Keeps s u) (e : takeFree u = (n, t)) : Keeps s t := by
  cases e; exact Keeps.upd.2 h

theorem breakResv_keeps (a : ℕ) (n : ℕ) (h : Keeps s u) : Keeps s (breakResv a n u) := by
  unfold breakResv
  repeat' first | with_reducible assumption | simp only [Keeps.upd] | with_reducible apply Keeps.ite

theorem sramWrite_keeps (a : ℕ) (bs : List Byte) (h : Keeps s u) : Keeps s (sramWrite a bs u) := by
  unfold sramWrite
  split
  · have e : u.sram = (breakResv a bs.length u).sram := by unfold breakResv; split <;> rfl
    rw [e]; exact (breakResv_keeps _ _ h).setSram putBytes_ok
  · exact h

theorem norProgram_keeps (a : ℕ) (bs : List Byte) (h : Keeps s u) : Keeps s (norProgram a bs u) := h.setNor putFF_ok

theorem norErase_keeps (a n : ℕ) (h : Keeps s u) : Keeps s (norErase a n u) := h.setNor clear_ok

theorem putGranule_keeps (g : ℕ) (x : Granule) (h : Keeps s u) : Keeps s (putGranule g x u) := by
  unfold putGranule
  have e : u.land = (breakResv (64 * g) 64 u).land := by unfold breakResv; split <;> rfl
  rw [e]
  exact (Keeps.upd (lnd' := _)).2 ((breakResv_keeps (64 * g) 64 h).setLand Tab.rising_put)

theorem landStore_keeps (a : ℕ) (bs : List Byte) (poison : ℕ) (h : Keeps s u) : Keeps s (landStore a bs poison u) := by
  unfold landStore
  repeat' first | with_reducible assumption | with_reducible apply putGranule_keeps
                | with_reducible refine upTo_keeps (fun _ _ _ => ?_) _ ?_

theorem setLink_keeps (a : ℕ) (x : Link) (h : Keeps s u) : Keeps s (setLink a x u) := by
  unfold setLink
  repeat' first | with_reducible assumption | simp only [Keeps.upd]

theorem setLane_keeps (n : ℕ) (x : Lane) (h : Keeps s u) : Keeps s (setLane n x u) := by
  unfold setLane
  repeat' first | with_reducible assumption | simp only [Keeps.upd]

theorem setSyn_keeps (a : ℕ) (x : Syn) (h : Keeps s u) : Keeps s (setSyn a x u) := by
  unfold setSyn
  repeat' first | with_reducible assumption | simp only [Keeps.upd]

theorem setWop_keeps (a : ℕ) (x : WriteOp) (h : Keeps s u) : Keeps s (setWop a x u) := by
  unfold setWop
  repeat' first | with_reducible assumption | simp only [Keeps.upd]

theorem dropWop_keeps (a : ℕ) (h : Keeps s u) : Keeps s (dropWop a u) := by
  unfold dropWop
  repeat' first | with_reducible assumption | simp only [Keeps.upd]

theorem setWbuf_keeps (n : ℕ) (x : List InfoBlock) (h : Keeps s u) : Keeps s (setWbuf n x u) := by
  unfold setWbuf
  repeat' first | with_reducible assumption | simp only [Keeps.upd]

theorem setArm_keeps (a : ℕ) (x : ArmSrv) (h : Keeps s u) : Keeps s (setArm a x u) := by
  unfold setArm
  repeat' first | with_reducible assumption | simp only [Keeps.upd]

theorem setHead_keeps (h0 : ℕ) (x : HeadSrv) (h : Keeps s u) : Keeps s (setHead h0 x u) := by
  unfold setHead
  repeat' first | with_reducible assumption | simp only [Keeps.upd]

theorem setShk_keeps (c : ℕ) (x : ShockCh) (h : Keeps s u) : Keeps s (setShk c x u) := by
  unfold setShk
  repeat' first | with_reducible assumption | simp only [Keeps.upd]

theorem setSlot_keeps (k : ℕ) (x : Slot) (h : Keeps s u) : Keeps s (setSlot k x u) := by
  unfold setSlot
  repeat' first | with_reducible assumption | simp only [Keeps.upd]

theorem freeSlot_keeps (k : ℕ) (h : Keeps s u) : Keeps s (freeSlot k u) := by
  unfold freeSlot
  repeat' first | with_reducible assumption | simp only [Keeps.upd]

theorem setEng_keeps (e : ℕ) (x : Engine) (h : Keeps s u) : Keeps s (setEng e x u) := by
  unfold setEng
  repeat' first | with_reducible assumption | simp only [Keeps.upd]

theorem setCtx_keeps (c : ℕ) (x : Ctx) (h : Keeps s u) : Keeps s (setCtx c x u) := by
  unfold setCtx
  repeat' first | with_reducible assumption | simp only [Keeps.upd]

theorem freeCtx_keeps (c : ℕ) (h : Keeps s u) : Keeps s (freeCtx c u) := by
  unfold freeCtx
  repeat' first | with_reducible assumption | simp only [Keeps.upd]

theorem setItem_keeps (x : Item) (h : Keeps s u) : Keeps s (setItem x u) := by
  unfold setItem
  repeat' first | with_reducible assumption | simp only [Keeps.upd]

theorem dropItem_keeps (i : ℕ) (h : Keeps s u) : Keeps s (dropItem i u) := by
  unfold dropItem
  repeat' first | with_reducible assumption | simp only [Keeps.upd] | with_reducible apply put_keeps
                | with_reducible apply Keeps.ite

theorem blzQueue_keeps (ty : ℕ) (src : ℕ) (data : ℕ) (cont : Option Chain) (h : Keeps s u) :
    Keeps s (blzQueue ty src data cont u) := by
  unfold blzQueue
  repeat' first | with_reducible assumption | simp only [Keeps.upd] | with_reducible apply count_keeps
                | with_reducible apply wr_keeps | with_reducible apply Keeps.ite

theorem blzRepeat_keeps (c : Chain) (h : Keeps s u) : Keeps s (blzRepeat c u) := by
  unfold blzRepeat
  split
  · exact h
  · split
    · exact blzQueue_keeps _ _ _ _ h
    · extract_lets
      split
      · simp only [Keeps.upd]; exact h
      · exact h.setNorMirror putFF_ok putFF_ok

theorem blzEnter_keeps (ty : ℕ) (src : ℕ) (data : ℕ) (h : Keeps s u) : Keeps s (blzEnter ty src data u) := by
  unfold blzEnter
  repeat' first | with_reducible assumption | simp only [Keeps.upd] | with_reducible apply blzRepeat_keeps
                | with_reducible apply blzQueue_keeps | with_reducible apply Keeps.ite | split

theorem evBlaze_keeps (n : ℕ) (cls : ℕ) (data : ℕ) (h : Keeps s u) : Keeps s (evBlaze n cls data u) := by
  unfold evBlaze
  repeat' first | with_reducible assumption | with_reducible apply blzEnter_keeps | with_reducible apply Keeps.ite

theorem raiseEvent_keeps (n : ℕ) (h : Keeps s u) : Keeps s (raiseEvent n u) := by
  unfold raiseEvent
  repeat' first | with_reducible assumption | with_reducible apply putFBit_keeps | with_reducible apply evBlaze_keeps
                | with_reducible apply Keeps.ite

theorem setSpr_keeps (x : Spr) (h : Keeps s u) : Keeps s (setSpr x u) := by
  unfold setSpr
  repeat' first | with_reducible assumption | simp only [Keeps.upd]

theorem setOp_keeps (x : SprOp) (h : Keeps s u) : Keeps s (setOp x u) := by
  unfold setOp
  repeat' first | with_reducible assumption | simp only [Keeps.upd]

theorem setPass_keeps (x : Pass) (h : Keeps s u) : Keeps s (setPass x u) := by
  unfold setPass
  repeat' first | with_reducible assumption | simp only [Keeps.upd]

theorem dropPass_keeps (i : ℕ) (h : Keeps s u) : Keeps s (dropPass i u) := by
  unfold dropPass
  repeat' first | with_reducible assumption | simp only [Keeps.upd]

theorem setRead_keeps (x : StripeRd) (h : Keeps s u) : Keeps s (setRead x u) := by
  unfold setRead
  repeat' first | with_reducible assumption | simp only [Keeps.upd]

theorem dropRead_keeps (i : ℕ) (h : Keeps s u) : Keeps s (dropRead i u) := by
  unfold dropRead
  repeat' first | with_reducible assumption | simp only [Keeps.upd]

theorem sprId_keeps  (h : Keeps s u) : Keeps s (sprId u).2 := by
  unfold sprId
  repeat' first | with_reducible assumption | simp only [Keeps.upd]

theorem sprId_of  {x : ℕ} {t : State} (h : Keeps s u) (he0 : sprId u = (x, t)) : Keeps s t := by
  have := sprId_keeps   h; rw [he0] at this; exact this

theorem setFn_keeps (f : ℕ) (x : Fn) (h : Keeps s u) : Keeps s (setFn f x u) := by
  unfold setFn
  repeat' first | with_reducible assumption | simp only [Keeps.upd]

theorem setCmd_keeps (x : Cmd) (h : Keeps s u) : Keeps s (setCmd x u) := by
  unfold setCmd
  repeat' first | with_reducible assumption | simp only [Keeps.upd]

theorem dropCmd_keeps (k : ℕ) (h : Keeps s u) : Keeps s (dropCmd k u) := by
  unfold dropCmd
  repeat' first | with_reducible assumption | simp only [Keeps.upd]

theorem setSq_keeps (f : ℕ) (q : ℕ) (x : Sq) (h : Keeps s u) : Keeps s (setSq f q x u) := by
  unfold setSq
  repeat' first | with_reducible assumption | dsimp only | with_reducible apply setFn_keeps

theorem setCq_keeps (f : ℕ) (q : ℕ) (x : Cq) (h : Keeps s u) : Keeps s (setCq f q x u) := by
  unfold setCq
  repeat' first | with_reducible assumption | dsimp only | with_reducible apply setFn_keeps

theorem setNs_keeps (n : ℕ) (x : NsRec) (h : Keeps s u) : Keeps s (setNs n x u) := by
  unfold setNs
  repeat' first | with_reducible assumption | simp only [Keeps.upd]

theorem tally_keeps (f : ℕ) (k : ℕ) (n : ℕ) (h : Keeps s u) : Keeps s (tally f k n u) := by
  unfold tally
  repeat' first | with_reducible assumption | with_reducible apply put2_keeps | with_reducible apply Keeps.ite

theorem tallyDev_keeps (k : ℕ) (n : ℕ) (h : Keeps s u) : Keeps s (tallyDev k n u) := by
  unfold tallyDev
  repeat' first | with_reducible assumption | with_reducible apply put_keeps | with_reducible apply Keeps.ite

theorem wakeLink_keeps  (h : Keeps s u) : Keeps s (wakeLink u) := by
  unfold wakeLink
  repeat' first | with_reducible assumption | with_reducible apply put_keeps | with_reducible apply Keeps.ite

theorem restLink_keeps  (h : Keeps s u) : Keeps s (restLink u) := by
  unfold restLink
  repeat' first | with_reducible assumption | with_reducible apply put_keeps | with_reducible apply Keeps.ite

theorem toHost_keeps (o : Output) (h : Keeps s u) : Keeps s (toHost o u) := by
  unfold toHost
  repeat' first | with_reducible assumption | simp only [Keeps.upd] | with_reducible apply wakeLink_keeps
                | with_reducible apply emit_keeps | with_reducible apply Keeps.ite

theorem poisOut_keeps (ep : Bool) (h : Keeps s u) : Keeps s (poisOut ep u) := by
  unfold poisOut
  repeat' first | with_reducible assumption | with_reducible apply count_keeps | with_reducible apply Keeps.ite

theorem cmdSts_keeps (f : ℕ) (b : ℕ) (h : Keeps s u) : Keeps s (cmdSts f b u) := by
  unfold cmdSts
  repeat' first | with_reducible assumption | with_reducible apply wr_keeps

theorem devSts_keeps (f : ℕ) (b : ℕ) (h : Keeps s u) : Keeps s (devSts f b u) := by
  unfold devSts
  repeat' first | with_reducible assumption | with_reducible apply wr_keeps

theorem dataParity_keeps (f : ℕ) (ep : Bool) (h : Keeps s u) : Keeps s (dataParity f ep u) := by
  unfold dataParity
  repeat' first | with_reducible assumption | with_reducible apply cmdSts_keeps | with_reducible apply Keeps.ite

theorem sendData_keeps (f : ℕ) (addr : ℕ) (rd : Bool) (bs : List (Byte × Bool)) (h : Keeps s u) :
    Keeps s (sendData f addr rd bs u) := by
  unfold sendData
  repeat' first | with_reducible assumption | with_reducible apply dataParity_keeps | with_reducible apply poisOut_keeps
                | with_reducible apply toHost_keeps | with_reducible refine each_keeps (fun _ _ _ => ?_) _ ?_

theorem sendSegs_keeps (f : ℕ) (rd : Bool) (l : List (ℕ × ℕ × ℕ)) : ∀ (bs : List (Byte × Bool)) {u : State}, Keeps s u →
    Keeps s (sendSegs f rd l bs u) := by
  induction l with
  | nil => exact fun _ _ h => h
  | cons e l ih =>
    intro bs u h
    refine ih _ ?_
    split
    · exact sendData_keeps _ _ _ _ h
    · exact h

theorem headerLog_keeps (f : ℕ) (h0 : TlpHdr) (h : Keeps s u) : Keeps s (headerLog f h0 u) := by
  unfold headerLog
  repeat' first | with_reducible assumption | dsimp only | with_reducible apply takeFree_keeps
                | refine takeFree_of ?_ (by assumption) | with_reducible apply wr_keeps
                | with_reducible refine upTo_keeps (fun _ _ _ => ?_) _ ?_

theorem errMsg_keeps (f : ℕ) (k : ℕ) (ask : Bool) (h : Keeps s u) : Keeps s (errMsg f k ask u) := by
  unfold errMsg
  repeat' first | with_reducible assumption | with_reducible apply toHost_keeps | with_reducible apply cmdSts_keeps
                | with_reducible apply Keeps.ite

theorem aerUnc_keeps (f : ℕ) (b : ℕ) (advisory : Bool) (h0 : TlpHdr) (h : Keeps s u) : Keeps s (aerUnc f b advisory h0 u) := by
  unfold aerUnc
  repeat' first | with_reducible assumption | with_reducible apply headerLog_keeps | with_reducible apply putFBit_keeps
                | with_reducible apply toHost_keeps | with_reducible apply devSts_keeps | with_reducible apply errMsg_keeps
                | with_reducible apply put_keeps | with_reducible apply Keeps.ite

theorem aerCor_keeps (f : ℕ) (b : ℕ) (h : Keeps s u) : Keeps s (aerCor f b u) := by
  unfold aerCor
  repeat' first | with_reducible assumption | with_reducible apply putFBit_keeps | with_reducible apply toHost_keeps
                | with_reducible apply devSts_keeps | with_reducible apply Keeps.ite

theorem unsupported_keeps (f : ℕ) (posted : Bool) (h0 : TlpHdr) (h : Keeps s u) : Keeps s (unsupported f posted h0 u) := by
  unfold unsupported
  repeat' first | with_reducible assumption | with_reducible apply toHost_keeps | with_reducible apply aerUnc_keeps
                | with_reducible apply Keeps.ite

theorem intxUpdate_keeps  (h : Keeps s u) : Keeps s (intxUpdate u) := by
  unfold intxUpdate
  repeat' first | with_reducible assumption | simp only [Keeps.upd] | with_reducible apply toHost_keeps
                | with_reducible apply Keeps.ite

theorem sendMsix_keeps (f : ℕ) (v : ℕ) (h : Keeps s u) : Keeps s (sendMsix f v u) := by
  unfold sendMsix
  repeat' first | with_reducible assumption | with_reducible apply toHost_keeps

theorem sendMsi_keeps (m : ℕ) (h : Keeps s u) : Keeps s (sendMsi m u) := by
  unfold sendMsi
  repeat' first | with_reducible assumption | with_reducible apply toHost_keeps

theorem msiPend_keeps  (h : Keeps s u) : Keeps s (msiPend u) := by
  unfold msiPend
  repeat' first | with_reducible assumption | with_reducible apply put_keeps

theorem interrupt_keeps (f : ℕ) (v : ℕ) (h : Keeps s u) : Keeps s (interrupt f v u) := by
  unfold interrupt
  repeat' first | with_reducible assumption | simp only [Keeps.upd] | with_reducible apply intxUpdate_keeps
                | with_reducible apply sendMsix_keeps | with_reducible apply sendMsi_keeps
                | with_reducible apply msiPend_keeps | with_reducible apply put2_keeps | with_reducible apply put_keeps
                | with_reducible apply Keeps.ite | split

theorem signal_keeps (f : ℕ) (q : ℕ) (v : ℕ) (h : Keeps s u) : Keeps s (signal f q v u) := by
  unfold signal
  repeat' first | with_reducible assumption | dsimp only | with_reducible apply interrupt_keeps
                | with_reducible apply setFn_keeps | with_reducible apply Keeps.ite

theorem queueCpl_keeps (f : ℕ) (q : ℕ) (e : CplEnt) (h : Keeps s u) : Keeps s (queueCpl f q e u) := by
  unfold queueCpl
  repeat' first | with_reducible assumption | dsimp only | with_reducible apply setFn_keeps | with_reducible apply setCq_keeps
                | split

theorem logError_keeps (f : ℕ) (q : ℕ) (cid : ℕ) (status : ℕ) (lba : ℕ) (nsid : ℕ) (h : Keeps s u) :
    Keeps s (logError f q cid status lba nsid u) := by
  unfold logError
  repeat' first | with_reducible assumption | dsimp only | with_reducible apply setFn_keeps

theorem cmdEndAt_keeps (x : Cmd) (status : ℕ) (dw0 : ℕ) (lba : ℕ) (h : Keeps s u) : Keeps s (cmdEndAt x status dw0 lba u) := by
  unfold cmdEndAt
  repeat' first | with_reducible assumption | dsimp only | with_reducible apply queueCpl_keeps
                | with_reducible apply logError_keeps | with_reducible apply dropCmd_keeps | with_reducible apply setCmd_keeps
                | with_reducible apply setSq_keeps | with_reducible apply Keeps.ite | split

theorem cmdEnd_keeps (x : Cmd) (status : ℕ) (dw0 : ℕ) (h : Keeps s u) : Keeps s (cmdEnd x status dw0 u) := by
  unfold cmdEnd
  repeat' first | with_reducible assumption | with_reducible apply cmdEndAt_keeps

theorem asyncEvent_keeps (f : ℕ) (ty : ℕ) (info : ℕ) (h : Keeps s u) : Keeps s (asyncEvent f ty info u) := by
  unfold asyncEvent
  repeat' first | with_reducible assumption | dsimp only | with_reducible apply cmdEnd_keeps
                | with_reducible apply setFn_keeps | with_reducible apply Keeps.ite | split

theorem asyncAll_keeps (ty : ℕ) (info : ℕ) (h : Keeps s u) : Keeps s (asyncAll ty info u) := by
  unfold asyncAll
  repeat' first | with_reducible assumption | with_reducible apply asyncEvent_keeps
                | with_reducible refine upTo_keeps (fun _ _ _ => ?_) _ ?_

theorem asyncMask_keeps (m : ℕ) (ty : ℕ) (info : ℕ) (h : Keeps s u) : Keeps s (asyncMask m ty info u) := by
  unfold asyncMask
  repeat' first | with_reducible assumption | with_reducible apply asyncEvent_keeps
                | with_reducible refine upTo_keeps (fun _ _ _ => ?_) _ ?_ | with_reducible apply Keeps.ite

theorem c4Change_keeps (fns : ℕ) (h : Keeps s u) : Keeps s (c4Change fns u) := by
  unfold c4Change
  repeat' first | with_reducible assumption | simp only [Keeps.upd] | with_reducible apply asyncMask_keeps

theorem degradedUpdate_keeps  (h : Keeps s u) : Keeps s (degradedUpdate u) := by
  unfold degradedUpdate
  repeat' first | with_reducible assumption | simp only [Keeps.upd] | with_reducible apply raiseEvent_keeps
                | with_reducible apply asyncAll_keeps | with_reducible apply c4Change_keeps | with_reducible apply Keeps.ite

theorem mapChange_keeps  (h : Keeps s u) : Keeps s (mapChange u) := by
  unfold mapChange
  repeat' first | with_reducible assumption | simp only [Keeps.upd] | with_reducible apply asyncEvent_keeps

theorem surfUpdate_keeps  (h : Keeps s u) : Keeps s (surfUpdate u) := by
  unfold surfUpdate
  repeat' first | with_reducible assumption | with_reducible apply degradedUpdate_keeps
                | with_reducible apply raiseEvent_keeps | with_reducible apply asyncAll_keeps
                | with_reducible apply c4Change_keeps | with_reducible apply put_keeps | with_reducible apply Keeps.ite

theorem setPers_keeps (h0 : ℕ) (p : ℕ) (h : Keeps s u) : Keeps s (setPers h0 p u) := by
  unfold setPers
  repeat' first | with_reducible assumption | with_reducible apply put_keeps

theorem closeGates_keeps (hs : List ℕ) (h : Keeps s u) : Keeps s (closeGates hs u) := by
  unfold closeGates
  repeat' first | with_reducible assumption | with_reducible apply put_keeps
                | with_reducible refine each_keeps (fun _ _ _ => ?_) _ ?_

theorem cutWrite_keeps (a : ℕ) (st : ℕ → ℕ) (h : Keeps s u) : Keeps s (cutWrite a st u) := by
  unfold cutWrite
  repeat' first | with_reducible assumption | dsimp only | with_reducible apply closeGates_keeps
                | with_reducible apply setWop_keeps | split

theorem failHeads_keeps (a : ℕ) (hs : List ℕ) (st : ℕ) (h : Keeps s u) : Keeps s (failHeads a hs st u) := by
  unfold failHeads
  repeat' first | with_reducible assumption | dsimp only | with_reducible apply closeGates_keeps
                | with_reducible apply setWop_keeps | with_reducible apply Keeps.ite | split

theorem wkillFall_keeps (a : ℕ) (h : Keeps s u) : Keeps s (wkillFall a u) := by
  unfold wkillFall
  repeat' first | with_reducible assumption | dsimp only | with_reducible apply cutWrite_keeps
                | with_reducible apply setLink_keeps | with_reducible apply put_keeps | with_reducible apply Keeps.ite

theorem wkillFallAll_keeps  (h : Keeps s u) : Keeps s (wkillFallAll u) := by
  unfold wkillFallAll
  repeat' first | with_reducible assumption | with_reducible apply wkillFall_keeps
                | with_reducible refine upTo_keeps (fun _ _ _ => ?_) _ ?_

theorem permitFall_keeps (a : ℕ) (h : Keeps s u) : Keeps s (permitFall a u) := by
  unfold permitFall
  repeat' first | with_reducible assumption | with_reducible apply wkillFall_keeps | with_reducible apply cutWrite_keeps
                | with_reducible apply Keeps.ite

theorem dropWperm_keeps (h0 : ℕ) (h : Keeps s u) : Keeps s (dropWperm h0 u) := by
  unfold dropWperm
  repeat' first | with_reducible assumption | dsimp only | with_reducible apply permitFall_keeps
                | with_reducible apply wkillFall_keeps | with_reducible apply putFBit_keeps
                | with_reducible apply setHead_keeps | with_reducible apply count_keeps | with_reducible apply Keeps.ite

theorem dropWpermArm_keeps (a : ℕ) (h : Keeps s u) : Keeps s (dropWpermArm a u) := by
  unfold dropWpermArm
  repeat' first | with_reducible assumption | with_reducible apply dropWperm_keeps
                | with_reducible refine each_keeps (fun _ _ _ => ?_) _ ?_

theorem bindItem_keeps (x : Item) (h : Keeps s u) : Keeps s (bindItem x u) := by
  unfold bindItem
  repeat' first | with_reducible assumption | simp only [Keeps.upd] | with_reducible apply setItem_keeps

theorem bindUrgent_keeps (i : ℕ) (h : Keeps s u) : Keeps s (bindUrgent i u) := by
  unfold bindUrgent
  repeat' first | with_reducible assumption | simp only [Keeps.upd] | with_reducible apply bindItem_keeps
                | with_reducible apply Keeps.ite | split

theorem rebind_keeps  (h : Keeps s u) : Keeps s (rebind u) := by
  unfold rebind
  repeat' first | with_reducible assumption | simp only [Keeps.upd] | with_reducible apply bindItem_keeps
                | with_reducible refine each_keeps (fun _ _ _ => ?_) _ ?_ | with_reducible apply Keeps.ite

theorem noFit_keeps  (h : Keeps s u) : Keeps s (noFit u) := by
  unfold noFit
  repeat' first | with_reducible assumption | simp only [Keeps.upd] | with_reducible apply count_keeps
                | with_reducible apply Keeps.ite

theorem learnWr_keeps (a : ℕ) (l : ℕ) (h : Keeps s u) : Keeps s (learnWr a l u) := by
  unfold learnWr
  repeat' first | with_reducible assumption | with_reducible apply put_keeps

theorem freeHolds_keeps  (h : Keeps s u) : Keeps s (freeHolds u) := by
  unfold freeHolds
  repeat' first | with_reducible assumption | simp only [Keeps.upd] | with_reducible refine upTo_keeps (fun _ _ _ => ?_) _ ?_
                | with_reducible apply Keeps.ite

theorem drReserve_keeps  (h : Keeps s u) : Keeps s (drReserve u) := by
  unfold drReserve
  repeat' first | with_reducible assumption | simp only [Keeps.upd] | with_reducible apply freeHolds_keeps
                | with_reducible refine upTo_keeps (fun _ _ _ => ?_) _ ?_ | with_reducible apply Keeps.ite

theorem surplusSleep_keeps (e : ℕ) (h : Keeps s u) : Keeps s (surplusSleep e u) := by
  unfold surplusSleep
  repeat' first | with_reducible assumption | dsimp only | with_reducible apply setEng_keeps | with_reducible apply Keeps.ite

theorem limitSleep_keeps  (h : Keeps s u) : Keeps s (limitSleep u) := by
  unfold limitSleep
  repeat' first | with_reducible assumption | with_reducible apply surplusSleep_keeps
                | with_reducible refine foldr_keeps (fun _ _ _ => ?_) _ ?_

theorem lateEnd_keeps  (h : Keeps s u) : Keeps s (lateEnd u) := by
  unfold lateEnd
  repeat' first | with_reducible assumption | simp only [Keeps.upd] | with_reducible refine each_keeps (fun _ _ _ => ?_) _ ?_
                | with_reducible apply Keeps.ite

theorem govLimits_keeps  (h : Keeps s u) : Keeps s (govLimits u) := by
  unfold govLimits
  repeat' first | with_reducible assumption | with_reducible apply limitSleep_keeps | with_reducible apply drReserve_keeps
                | with_reducible apply lateEnd_keeps | with_reducible apply put_keeps

theorem vEnter_keeps (fn : ℕ) (h : Keeps s u) : Keeps s (vEnter fn u) := by
  unfold vEnter
  repeat' first | with_reducible assumption | simp only [Keeps.upd] | with_reducible apply Keeps.ite | split

theorem addItem_keeps (x : Item) (h : Keeps s u) : Keeps s (addItem x u) := by
  unfold addItem
  repeat' first | with_reducible assumption | simp only [Keeps.upd] | with_reducible apply bindUrgent_keeps
                | with_reducible apply setItem_keeps | with_reducible apply vEnter_keeps | with_reducible apply Keeps.ite

theorem returnRest_keeps (it : ℕ) (psa : ℕ) (left : ℕ) (h : Keeps s u) : Keeps s (returnRest it psa left u) := by
  unfold returnRest
  repeat' first | with_reducible assumption | simp only [Keeps.upd] | with_reducible apply addItem_keeps
                | with_reducible apply count_keeps | with_reducible apply Keeps.ite | split

theorem itemReturns_keeps (x : Item) (h : Keeps s u) : Keeps s (itemReturns x u) := by
  unfold itemReturns
  repeat' first | with_reducible assumption | with_reducible apply bindUrgent_keeps | with_reducible apply setItem_keeps
                | with_reducible apply vEnter_keeps | with_reducible apply Keeps.ite

theorem undecide_keeps (a : ℕ) (h : Keeps s u) : Keeps s (undecide a u) := by
  unfold undecide
  repeat' first | with_reducible assumption | simp only [Keeps.upd] | with_reducible apply itemReturns_keeps
                | with_reducible apply govLimits_keeps | with_reducible apply put_keeps | with_reducible apply Keeps.ite
                | split

theorem undecideWrites_keeps  (h : Keeps s u) : Keeps s (undecideWrites u) := by
  unfold undecideWrites
  repeat' first | with_reducible assumption | simp only [Keeps.upd] | with_reducible apply undecide_keeps
                | with_reducible apply rebind_keeps | with_reducible refine upTo_keeps (fun _ _ _ => ?_) _ ?_
                | with_reducible apply Keeps.ite | split

theorem setHst_keeps (h0 : ℕ) (st : ℕ) (h : Keeps s u) : Keeps s (setHst h0 st u) := by
  unfold setHst
  repeat' first | with_reducible assumption | with_reducible apply put2_keeps

theorem startRamp_keeps (h0 : ℕ) (h : Keeps s u) : Keeps s (startRamp h0 u) := by
  unfold startRamp
  repeat' first | with_reducible assumption | dsimp only | with_reducible apply setHead_keeps

theorem thetaSpindle_keeps  (h : Keeps s u) : Keeps s (thetaSpindle u) := by
  unfold thetaSpindle
  repeat' first | with_reducible assumption | with_reducible apply put_keeps

theorem thetaUnlock_keeps  (h : Keeps s u) : Keeps s (thetaUnlock u) := by
  unfold thetaUnlock
  repeat' first | with_reducible assumption | with_reducible apply thetaSpindle_keeps | with_reducible apply put_keeps
                | with_reducible apply Keeps.ite

theorem rroVoid_keeps (a : ℕ) (h : Keeps s u) : Keeps s (rroVoid a u) := by
  unfold rroVoid
  repeat' first | with_reducible assumption | dsimp only | with_reducible apply setArm_keeps | with_reducible apply Keeps.ite

theorem timerFree_keeps (h0 : ℕ) (search : Bool) (h : Keeps s u) : Keeps s (timerFree h0 search u) := by
  unfold timerFree
  repeat' first | with_reducible assumption | dsimp only | with_reducible apply thetaUnlock_keeps
                | with_reducible apply setHead_keeps | with_reducible apply rroVoid_keeps | with_reducible apply put2_keeps
                | with_reducible apply put_keeps

theorem headOff_keeps (h0 : ℕ) (h : Keeps s u) : Keeps s (headOff h0 u) := by
  unfold headOff
  repeat' first | with_reducible assumption | with_reducible apply startRamp_keeps | with_reducible apply timerFree_keeps
                | with_reducible apply setHst_keeps

theorem headAcq_keeps (h0 : ℕ) (h : Keeps s u) : Keeps s (headAcq h0 u) := by
  unfold headAcq
  repeat' first | with_reducible assumption | dsimp only | with_reducible apply timerFree_keeps
                | with_reducible apply setHead_keeps | with_reducible apply setHst_keeps

theorem setTracking_keeps (a : ℕ) (h : Keeps s u) : Keeps s (setTracking a u) := by
  unfold setTracking
  repeat' first | with_reducible assumption | with_reducible apply mapChange_keeps | with_reducible apply put_keeps
                | with_reducible apply Keeps.ite

theorem untrack_keeps (a : ℕ) (h : Keeps s u) : Keeps s (untrack a u) := by
  unfold untrack
  repeat' first | with_reducible assumption | with_reducible apply setTracking_keeps | with_reducible apply startRamp_keeps
                | with_reducible apply setHst_keeps | with_reducible refine each_keeps (fun _ _ _ => ?_) _ ?_
                | with_reducible apply Keeps.ite

theorem headsOff_keeps (a : ℕ) (h : Keeps s u) : Keeps s (headsOff a u) := by
  unfold headsOff
  repeat' first | with_reducible assumption | with_reducible apply setTracking_keeps | with_reducible apply headOff_keeps
                | with_reducible refine each_keeps (fun _ _ _ => ?_) _ ?_ | with_reducible apply Keeps.ite

theorem setVcm_keeps (a : ℕ) (i : ℤ) (h : Keeps s u) : Keeps s (setVcm a i u) := by
  unfold setVcm
  repeat' first | with_reducible assumption | with_reducible apply put_keeps

theorem setMode_keeps (a : ℕ) (m : ℕ) (h : Keeps s u) : Keeps s (setMode a m u) := by
  unfold setMode
  repeat' first | with_reducible assumption | with_reducible apply dropWpermArm_keeps | with_reducible apply mapChange_keeps
                | with_reducible apply undecide_keeps | with_reducible apply rebind_keeps | with_reducible apply put_keeps
                | with_reducible apply Keeps.ite

theorem startUnload_keeps (a : ℕ) (emergency : Bool) (h : Keeps s u) : Keeps s (startUnload a emergency u) := by
  unfold startUnload
  repeat' first | with_reducible assumption | dsimp only | with_reducible apply untrack_keeps
                | with_reducible apply setMode_keeps | with_reducible apply setArm_keeps | with_reducible apply setVcm_keeps
                | with_reducible apply put_keeps | with_reducible apply Keeps.ite

theorem unloadByMode_keeps (a : ℕ) (h : Keeps s u) : Keeps s (unloadByMode a u) := by
  unfold unloadByMode
  repeat' first | with_reducible assumption | with_reducible apply startUnload_keeps | with_reducible apply Keeps.ite

theorem stopLoops_keeps (a : ℕ) (m : ℕ) (h : Keeps s u) : Keeps s (stopLoops a m u) := by
  unfold stopLoops
  repeat' first | with_reducible assumption | dsimp only | with_reducible apply headsOff_keeps
                | with_reducible apply setMode_keeps | with_reducible apply setArm_keeps | with_reducible apply setVcm_keeps
                | with_reducible apply put_keeps

theorem retractAll_keeps  (h : Keeps s u) : Keeps s (retractAll u) := by
  unfold retractAll
  repeat' first | with_reducible assumption | with_reducible apply stopLoops_keeps
                | with_reducible refine upTo_keeps (fun _ _ _ => ?_) _ ?_ | with_reducible apply Keeps.ite

theorem setDrain_keeps (h0 : ℕ) (b : Bool) (h : Keeps s u) : Keeps s (setDrain h0 b u) := by
  unfold setDrain
  repeat' first | with_reducible assumption | with_reducible apply putFBit_keeps

theorem drainEnd_keeps (h0 : ℕ) (h : Keeps s u) : Keeps s (drainEnd h0 u) := by
  unfold drainEnd
  repeat' first | with_reducible assumption | with_reducible apply mapChange_keeps | with_reducible apply setDrain_keeps
                | with_reducible apply Keeps.ite

theorem loseEligible_keeps (h0 : ℕ) (h : Keeps s u) : Keeps s (loseEligible h0 u) := by
  unfold loseEligible
  repeat' first | with_reducible assumption | dsimp only | with_reducible apply dropWperm_keeps
                | with_reducible apply cutWrite_keeps | with_reducible apply setLane_keeps | with_reducible apply Keeps.ite
                | split

theorem eligibilityChanged_keeps (old : State) (h : Keeps s u) : Keeps s (eligibilityChanged old u) := by
  unfold eligibilityChanged
  repeat' first | with_reducible assumption | with_reducible apply wkillFallAll_keeps
                | with_reducible apply loseEligible_keeps | with_reducible apply surfUpdate_keeps
                | with_reducible apply mapChange_keeps | with_reducible apply setDrain_keeps
                | with_reducible apply rebind_keeps | with_reducible refine each_keeps (fun _ _ _ => ?_) _ ?_

theorem fenceHead_keeps (h0 : ℕ) (h : Keeps s u) : Keeps s (fenceHead h0 u) := by
  unfold fenceHead
  repeat' first | with_reducible assumption | with_reducible apply eligibilityChanged_keeps | with_reducible apply putFBit_keeps

theorem fenceArm_keeps (a : ℕ) (h : Keeps s u) : Keeps s (fenceArm a u) := by
  unfold fenceArm
  repeat' first | with_reducible assumption | with_reducible apply eligibilityChanged_keeps
                | with_reducible apply unloadByMode_keeps | with_reducible apply putFBit_keeps
                | with_reducible apply Keeps.ite

theorem tagWait_keeps (f : ℕ) (w : TagWait) (h : Keeps s u) : Keeps s (tagWait f w u) := by
  unfold tagWait
  repeat' first | with_reducible assumption | simp only [Keeps.upd] | with_reducible apply Keeps.ite

theorem request_keeps (f : ℕ) (w : TagWait) (k : ReqKind) (a : ℕ) (n : ℕ) (h : Keeps s u) : Keeps s (request f w k a n u) := by
  unfold request
  repeat' first | with_reducible assumption | simp only [Keeps.upd] | with_reducible apply tagWait_keeps
                | with_reducible apply toHost_keeps | split

theorem chkEnter_keeps (nsid : ℕ) (first : ℕ) (last : ℕ) (excl : Bool) (h0 : Holder) (h : Keeps s u) :
    Keeps s (chkEnter nsid first last excl h0 u) := by
  unfold chkEnter
  repeat' first | with_reducible assumption | simp only [Keeps.upd] | split

theorem chkRelease_keeps (h0 : Holder) (h : Keeps s u) : Keeps s (chkRelease h0 u) := by
  unfold chkRelease
  repeat' first | with_reducible assumption | simp only [Keeps.upd]

theorem chkGrant_keeps (i : ℕ) (h : Keeps s u) : Keeps s (chkGrant i u) := by
  unfold chkGrant
  repeat' first | with_reducible assumption | simp only [Keeps.upd]

theorem cacheSafe_keeps (nsid : ℕ) (gen : ℕ) (u0 : ℕ) (addr : ℕ) (h : Keeps s u) : Keeps s (cacheSafe nsid gen u0 addr u) := by
  unfold cacheSafe
  repeat' first | with_reducible assumption | simp only [Keeps.upd]

theorem orphan_keeps (x : Cmd) (h : Keeps s u) : Keeps s (orphan x u) := by
  unfold orphan
  repeat' first | with_reducible assumption | simp only [Keeps.upd] | with_reducible apply asyncMask_keeps
                | with_reducible apply count_keeps | with_reducible apply put_keeps | with_reducible apply Keeps.ite | split

theorem orphanClear_keeps (x : Cmd) (h : Keeps s u) : Keeps s (orphanClear x u) := by
  unfold orphanClear
  repeat' first | with_reducible assumption | simp only [Keeps.upd] | split

theorem ctxAbort_keeps (c : ℕ) (x : Ctx) (h : Keeps s u) : Keeps s (ctxAbort c x u) := by
  unfold ctxAbort
  repeat' first | with_reducible assumption | with_reducible apply freeCtx_keeps | with_reducible apply wr_keeps
                | with_reducible apply Keeps.ite

theorem rereadAbort_keeps (x : Item) (h : Keeps s u) : Keeps s (rereadAbort x u) := by
  unfold rereadAbort
  repeat' first | with_reducible assumption | dsimp only | with_reducible apply wr_keeps
                | with_reducible refine each_keeps (fun _ _ _ => ?_) _ ?_ | split

theorem withdraw_keeps (op : ℕ) (h : Keeps s u) : Keeps s (withdraw op u) := by
  unfold withdraw
  repeat' first | with_reducible assumption | simp only [Keeps.upd] | with_reducible apply rereadAbort_keeps
                | with_reducible apply govLimits_keeps | with_reducible apply ctxAbort_keeps | with_reducible apply put_keeps
                | with_reducible refine each_keeps (fun _ _ _ => ?_) _ ?_ | with_reducible apply Keeps.ite

theorem flushReqs_keeps (p : HostReq → Bool) (h : Keeps s u) : Keeps s (flushReqs p u) := by
  unfold flushReqs
  repeat' first | with_reducible assumption | simp only [Keeps.upd]

theorem dropReqs_keeps (k : ℕ) (h : Keeps s u) : Keeps s (dropReqs k u) := by
  unfold dropReqs
  repeat' first | with_reducible assumption | simp only [Keeps.upd] | with_reducible apply flushReqs_keeps

theorem dropCpl_keeps (x : Cmd) (h : Keeps s u) : Keeps s (dropCpl x u) := by
  unfold dropCpl
  repeat' first | with_reducible assumption | simp only [Keeps.upd] | with_reducible apply setCq_keeps | split

theorem resolve_keeps (x : Cmd) (h : Keeps s u) : Keeps s (resolve x u) := by
  unfold resolve
  repeat' first | with_reducible assumption | dsimp only | with_reducible apply chkRelease_keeps
                | with_reducible apply withdraw_keeps | with_reducible apply dropReqs_keeps
                | with_reducible apply dropCmd_keeps | with_reducible apply dropCpl_keeps | with_reducible apply setCmd_keeps
                | with_reducible apply orphan_keeps | with_reducible apply count_keeps | with_reducible apply Keeps.ite
                | split

theorem resolveWith_keeps (st : ℕ) (x : Cmd) (h : Keeps s u) : Keeps s (resolveWith st x u) := by
  unfold resolveWith
  repeat' first | with_reducible assumption | dsimp only | with_reducible apply chkRelease_keeps
                | with_reducible apply withdraw_keeps | with_reducible apply dropReqs_keeps
                | with_reducible apply cmdEnd_keeps | with_reducible apply count_keeps | with_reducible apply Keeps.ite
                | split

theorem txnIdle_keeps  (h : Keeps s u) : Keeps s (txnIdle u) := by
  unfold txnIdle
  repeat' first | with_reducible assumption | simp only [Keeps.upd] | with_reducible apply put_keeps

theorem txnDiscard_keeps  (h : Keeps s u) : Keeps s (txnDiscard u) := by
  unfold txnDiscard
  repeat' first | with_reducible assumption | with_reducible apply txnIdle_keeps | with_reducible apply Keeps.ite

theorem txnSafe_keeps  (h : Keeps s u) : Keeps s (txnSafe u) := by
  unfold txnSafe
  repeat' first | with_reducible assumption | simp only [Keeps.upd] | with_reducible apply txnIdle_keeps
                | with_reducible apply put_keeps | with_reducible apply Keeps.ite

theorem resolveFn_keeps (f : ℕ) (h : Keeps s u) : Keeps s (resolveFn f u) := by
  unfold resolveFn
  repeat' first | with_reducible assumption | with_reducible apply flushReqs_keeps | with_reducible apply resolve_keeps
                | with_reducible refine each_keeps (fun _ _ _ => ?_) _ ?_ | with_reducible apply Keeps.ite

theorem dropQueues_keeps (f : ℕ) (h : Keeps s u) : Keeps s (dropQueues f u) := by
  unfold dropQueues
  repeat' first | with_reducible assumption | dsimp only | with_reducible apply setFn_keeps

theorem fatal_keeps (f : ℕ) (h : Keeps s u) : Keeps s (fatal f u) := by
  unfold fatal
  repeat' first | with_reducible assumption | dsimp only | with_reducible apply resolveFn_keeps
                | with_reducible apply putFBit_keeps | with_reducible apply setFn_keeps | with_reducible apply put_keeps

theorem setYch_keeps (n : ℕ) (x : YCh) (h : Keeps s u) : Keeps s (setYch n x u) := by
  unfold setYch
  repeat' first | with_reducible assumption | simp only [Keeps.upd]

theorem yrdHalt_keeps (n : ℕ) (h : Keeps s u) : Keeps s (yrdHalt n u) := by
  unfold yrdHalt
  repeat' first | with_reducible assumption | with_reducible apply raiseEvent_keeps | with_reducible apply putFBit_keeps
                | with_reducible apply put_keeps

theorem yrdAsk_keeps (n : ℕ) (h : Keeps s u) : Keeps s (yrdAsk n u) := by
  unfold yrdAsk
  repeat' first | with_reducible assumption | dsimp only | with_reducible apply tagWait_keeps
                | with_reducible apply request_keeps | with_reducible apply setYch_keeps | with_reducible apply put_keeps
                | with_reducible apply Keeps.ite | split

theorem chunksBack_keeps (n : ℕ) (k : ℕ) (h : Keeps s u) : Keeps s (chunksBack n k u) := by
  unfold chunksBack
  repeat' first | with_reducible assumption | with_reducible apply put_keeps

theorem yrdClose_keeps (n : ℕ) (status : ℕ) (h : Keeps s u) : Keeps s (yrdClose n status u) := by
  unfold yrdClose
  repeat' first | with_reducible assumption | dsimp only | with_reducible apply raiseEvent_keeps
                | with_reducible apply chunksBack_keeps | with_reducible apply sramWrite_keeps
                | with_reducible apply setYch_keeps | with_reducible apply yrdAsk_keeps | with_reducible apply put_keeps
                | with_reducible apply Keeps.ite | split

theorem yrdPutBack_keeps (n : ℕ) (h : Keeps s u) : Keeps s (yrdPutBack n u) := by
  unfold yrdPutBack
  repeat' first | with_reducible assumption | dsimp only | with_reducible apply chunksBack_keeps
                | with_reducible apply flushReqs_keeps | with_reducible apply setYch_keeps | with_reducible apply put_keeps
                | split

theorem yrdEnd_keeps (n : ℕ) (status : ℕ) (h : Keeps s u) : Keeps s (yrdEnd n status u) := by
  unfold yrdEnd
  repeat' first | with_reducible assumption | with_reducible apply yrdPutBack_keeps | with_reducible apply yrdClose_keeps
                | with_reducible apply yrdHalt_keeps | with_reducible apply Keeps.ite

theorem yrdResetFn_keeps (f : ℕ) (h : Keeps s u) : Keeps s (yrdResetFn f u) := by
  unfold yrdResetFn
  repeat' first | with_reducible assumption | dsimp only | with_reducible apply setYch_keeps
                | with_reducible apply yrdEnd_keeps | with_reducible refine upTo_keeps (fun _ _ _ => ?_) _ ?_
                | with_reducible apply Keeps.ite | split

theorem yrdAbortAll_keeps  (h : Keeps s u) : Keeps s (yrdAbortAll u) := by
  unfold yrdAbortAll
  repeat' first | with_reducible assumption | dsimp only | with_reducible apply setYch_keeps
                | with_reducible apply yrdEnd_keeps | with_reducible apply put_keeps
                | with_reducible refine upTo_keeps (fun _ _ _ => ?_) _ ?_ | with_reducible apply Keeps.ite

theorem yrdData_keeps (n : ℕ) (bs : List Byte) (ep : Bool) (h : Keeps s u) : Keeps s (yrdData n bs ep u) := by
  unfold yrdData
  repeat' first | with_reducible assumption | simp only [Keeps.upd] | with_reducible apply setYch_keeps
                | with_reducible apply yrdAsk_keeps | split

theorem yrdFail_keeps (n : ℕ) (h : Keeps s u) : Keeps s (yrdFail n u) := by
  unfold yrdFail
  repeat' first | with_reducible assumption | simp only [Keeps.upd] | with_reducible apply setYch_keeps | split

theorem setSpm_keeps (x : Spm) (h : Keeps s u) : Keeps s (setSpm x u) := by
  unfold setSpm
  repeat' first | with_reducible assumption | simp only [Keeps.upd]

theorem holdWrites_keeps  (h : Keeps s u) : Keeps s (holdWrites u) := by
  unfold holdWrites
  repeat' first | with_reducible assumption | dsimp only | with_reducible apply undecideWrites_keeps
                | with_reducible apply setItem_keeps | with_reducible refine each_keeps (fun _ _ _ => ?_) _ ?_
                | with_reducible apply Keeps.ite

theorem releaseWrites_keeps  (h : Keeps s u) : Keeps s (releaseWrites u) := by
  unfold releaseWrites
  repeat' first | with_reducible assumption | simp only [Keeps.upd] | with_reducible apply itemReturns_keeps
                | with_reducible refine each_keeps (fun _ _ _ => ?_) _ ?_ | with_reducible apply Keeps.ite

theorem atSpeedFall_keeps  (h : Keeps s u) : Keeps s (atSpeedFall u) := by
  unfold atSpeedFall
  repeat' first | with_reducible assumption | simp only [Keeps.upd] | with_reducible apply holdWrites_keeps
                | with_reducible apply put_keeps | with_reducible apply Keeps.ite

theorem gatesOff_keeps  (h : Keeps s u) : Keeps s (gatesOff u) := by
  unfold gatesOff
  repeat' first | with_reducible assumption | simp only [Keeps.upd] | with_reducible apply put_keeps

theorem spmEnter_keeps (st : ℕ) (h : Keeps s u) : Keeps s (spmEnter st u) := by
  unfold spmEnter
  repeat' first | with_reducible assumption | simp only [Keeps.upd] | with_reducible apply atSpeedFall_keeps
                | with_reducible apply takeFree_keeps | refine takeFree_of ?_ (by assumption) | with_reducible apply put_keeps
                | with_reducible apply Keeps.ite

theorem spmCoast_keeps (trip : Bool) (h : Keeps s u) : Keeps s (spmCoast trip u) := by
  unfold spmCoast
  repeat' first | with_reducible assumption | simp only [Keeps.upd] | with_reducible apply gatesOff_keeps
                | with_reducible apply spmEnter_keeps

theorem spmClockLost_keeps  (h : Keeps s u) : Keeps s (spmClockLost u) := by
  unfold spmClockLost
  repeat' first | with_reducible assumption | simp only [Keeps.upd] | with_reducible apply raiseEvent_keeps
                | with_reducible apply spmCoast_keeps | with_reducible apply Keeps.ite

theorem spmPowerLoss_keeps  (h : Keeps s u) : Keeps s (spmPowerLoss u) := by
  unfold spmPowerLoss
  repeat' first | with_reducible assumption | simp only [Keeps.upd] | with_reducible apply spmCoast_keeps
                | with_reducible apply Keeps.ite

theorem engRestart_keeps (e : ℕ) (h : Keeps s u) : Keeps s (engRestart e u) := by
  unfold engRestart
  repeat' first | with_reducible assumption | dsimp only | with_reducible apply setSlot_keeps
                | with_reducible apply setEng_keeps | with_reducible refine each_keeps (fun _ _ _ => ?_) _ ?_ | split

theorem fenceChange_keeps (old : State) (h : Keeps s u) : Keeps s (fenceChange old u) := by
  unfold fenceChange
  repeat' first | with_reducible assumption | with_reducible apply engRestart_keeps
                | with_reducible refine upTo_keeps (fun _ _ _ => ?_) _ ?_ | with_reducible apply Keeps.ite

theorem retractCause_keeps (k : ℕ) (h : Keeps s u) : Keeps s (retractCause k u) := by
  unfold retractCause
  repeat' first | with_reducible assumption | with_reducible apply permitFall_keeps | with_reducible apply retractAll_keeps
                | with_reducible apply putFBit_keeps | with_reducible apply put_keeps
                | with_reducible refine upTo_keeps (fun _ _ _ => ?_) _ ?_ | with_reducible apply Keeps.ite

theorem clkSafe_keeps (i : ℕ) (h : Keeps s u) : Keeps s (clkSafe i u) := by
  unfold clkSafe
  repeat' first | with_reducible assumption | simp only [Keeps.upd] | with_reducible apply spmClockLost_keeps
                | with_reducible apply retractCause_keeps | with_reducible apply raiseEvent_keeps
                | with_reducible apply permitFall_keeps | with_reducible apply putFBit_keeps
                | with_reducible refine upTo_keeps (fun _ _ _ => ?_) _ ?_ | with_reducible apply Keeps.ite

theorem warmReset_keeps  (h : Keeps s u) : Keeps s (warmReset u) := by
  unfold warmReset
  repeat' first | with_reducible assumption | simp only [Keeps.upd] | with_reducible apply count_keeps
                | with_reducible apply put_keeps

theorem lyoloReset_keeps  (h : Keeps s u) : Keeps s (lyoloReset u) := by
  unfold lyoloReset
  repeat' first | with_reducible assumption | simp only [Keeps.upd]

theorem mrgEvict_keeps (e : MrgEnt) (h : Keeps s u) : Keeps s (mrgEvict e u) := by
  unfold mrgEvict
  repeat' first | with_reducible assumption | simp only [Keeps.upd] | with_reducible apply putGranule_keeps
                | with_reducible apply breakResv_keeps | with_reducible apply count_keeps | with_reducible apply Keeps.ite

theorem mrgDrain_keeps  (h : Keeps s u) : Keeps s (mrgDrain u) := by
  unfold mrgDrain
  repeat' first | with_reducible assumption | with_reducible apply mrgEvict_keeps
                | with_reducible refine each_keeps (fun _ _ _ => ?_) _ ?_

theorem dumpStart_keeps (cause : ℕ) (h : Keeps s u) : Keeps s (dumpStart cause u) := by
  unfold dumpStart
  repeat' first | with_reducible assumption | simp only [Keeps.upd] | with_reducible apply blzEnter_keeps
                | with_reducible apply mrgDrain_keeps | with_reducible apply put_keeps | with_reducible apply Keeps.ite

theorem safeState_keeps (ly : Bool) (h : Keeps s u) : Keeps s (safeState ly u) := by
  unfold safeState
  repeat' first | with_reducible assumption | simp only [Keeps.upd] | with_reducible apply retractCause_keeps
                | with_reducible apply yrdAbortAll_keeps | with_reducible apply raiseEvent_keeps
                | with_reducible apply permitFall_keeps | with_reducible apply dumpStart_keeps
                | with_reducible apply gatesOff_keeps | with_reducible apply spmCoast_keeps
                | with_reducible apply txnSafe_keeps | with_reducible apply aerUnc_keeps | with_reducible apply fatal_keeps
                | with_reducible apply put_keeps | with_reducible refine upTo_keeps (fun _ _ _ => ?_) _ ?_
                | with_reducible apply Keeps.ite

theorem putCap_keeps (which : ℕ) (i : ℕ) (ws : List ℕ) (h : Keeps s u) : Keeps s (putCap which i ws u) := by
  unfold putCap
  repeat' first | with_reducible assumption | with_reducible apply put2_keeps
                | with_reducible refine each_keeps (fun _ _ _ => ?_) _ ?_

theorem fc2Action_keeps (chk : ℕ) (c : ChkInfo) (h : Keeps s u) : Keeps s (fc2Action chk c u) := by
  unfold fc2Action
  repeat' first | with_reducible assumption | simp only [Keeps.upd] | with_reducible apply fenceChange_keeps
                | with_reducible apply lyoloReset_keeps | with_reducible apply fenceHead_keeps
                | with_reducible apply warmReset_keeps | with_reducible apply fenceArm_keeps
                | with_reducible apply putFBit_keeps | with_reducible apply clkSafe_keeps | with_reducible apply Keeps.ite
                | split

theorem recordFault_keeps (rec : ℕ) (esc : Bool) (inj : Bool) (chk : ℕ) (c : ChkInfo) (fn : Option ℕ) (master : ℕ) (access : ℕ) (addr : ℕ) (detail : ℕ) (h : Keeps s u) :
    Keeps s (recordFault rec esc inj chk c fn master access addr detail u) := by
  unfold recordFault
  repeat' first | with_reducible assumption | simp only [Keeps.upd] | with_reducible apply putFBit_keeps
                | with_reducible apply evBlaze_keeps | with_reducible apply putCap_keeps | with_reducible apply count_keeps
                | with_reducible apply put_keeps | with_reducible apply Keeps.ite | split

theorem fc2Effect_keeps (chk : ℕ) (c : ChkInfo) (h : Keeps s u) : Keeps s (fc2Effect chk c u) := by
  unfold fc2Effect
  repeat' first | with_reducible assumption | with_reducible apply degradedUpdate_keeps | with_reducible apply fc2Action_keeps
                | with_reducible apply asyncAll_keeps

theorem reportRmw_keeps (g : ℕ) (h : Keeps s u) : Keeps s (reportRmw g u) := by
  unfold reportRmw
  repeat' first | with_reducible assumption | with_reducible apply recordFault_keeps | with_reducible apply fc2Effect_keeps
                | with_reducible apply Keeps.ite

theorem reportEvicted_keeps (old : State) (h : Keeps s u) : Keeps s (reportEvicted old u) := by
  unfold reportEvicted
  repeat' first | with_reducible assumption | with_reducible apply reportRmw_keeps
                | with_reducible refine each_keeps (fun _ _ _ => ?_) _ ?_

theorem classEffect_keeps (chk : ℕ) (c : ChkInfo) (rec : ℕ) (fn : Option ℕ) (h : Keeps s u) :
    Keeps s (classEffect chk c rec fn u) := by
  unfold classEffect
  repeat' first | with_reducible assumption | simp only [Keeps.upd] | with_reducible apply reportEvicted_keeps
                | with_reducible apply safeState_keeps | with_reducible apply fc2Effect_keeps
                | with_reducible apply putFBit_keeps | with_reducible apply fatal_keeps | with_reducible apply Keeps.ite
                | split

theorem capDamage_keeps (d : ℕ) (rec : ℕ) (chk : ℕ) (h : Keeps s u) : Keeps s (capDamage d rec chk u) := by
  unfold capDamage
  repeat' first | with_reducible assumption | with_reducible apply putCap_keeps | with_reducible apply Keeps.ite

theorem reportAt_keeps (pend : ℕ) (fc3 : ℕ) (inj : Bool) (chk : ℕ) (fn : Option ℕ) (master : ℕ) (access : ℕ) (addr : ℕ) (detail : ℕ) (h : Keeps s u) :
    Keeps s (reportAt pend fc3 inj chk fn master access addr detail u) := by
  unfold reportAt
  repeat' first | with_reducible assumption | dsimp only | with_reducible apply recordFault_keeps
                | with_reducible apply classEffect_keeps | with_reducible apply capDamage_keeps
                | with_reducible apply put_keeps | with_reducible apply Keeps.ite | split

theorem report_keeps (chk : ℕ) (fn : Option ℕ) (master : ℕ) (access : ℕ) (addr : ℕ) (detail : ℕ) (h : Keeps s u) :
    Keeps s (report chk fn master access addr detail u) := by
  unfold report
  repeat' first | with_reducible assumption | with_reducible apply reportAt_keeps

theorem condFalls_keeps (chk : ℕ) (h : Keeps s u) : Keeps s (condFalls chk u) := by
  unfold condFalls
  repeat' first | with_reducible assumption | with_reducible apply put2_keeps | with_reducible apply put_keeps
                | with_reducible refine each_keeps (fun _ _ _ => ?_) _ ?_ | with_reducible apply Keeps.ite

theorem rowsLost_keeps (g n : ℕ) (h : Keeps s u) : Keeps s (rowsLost g n u) :=
  (Keeps.upd (lnd' := _)).2 (h.setLand Tab.rising_clear)

theorem busError_keeps (m : ℕ) (access : ℕ) (a : ℕ) (h : Keeps s u) : Keeps s (busError m access a u) := by
  unfold busError
  repeat' first | with_reducible assumption | with_reducible apply report_keeps

theorem recordUe_keeps (m : ℕ) (g : ℕ) (h : Keeps s u) : Keeps s (recordUe m g u) := by
  unfold recordUe
  repeat' first | with_reducible assumption | simp only [Keeps.upd] | with_reducible apply raiseEvent_keeps
                | with_reducible apply report_keeps | with_reducible apply count_keeps | with_reducible apply put_keeps
                | with_reducible apply Keeps.ite

theorem eccRead_keeps (m : ℕ) (g : ℕ) (e : Ecc) (h : Keeps s u) : Keeps s (eccRead m g e u).2 := by
  unfold eccRead
  repeat' first | with_reducible assumption | dsimp only | with_reducible apply recordUe_keeps
                | with_reducible apply count_keeps | split

theorem eccRead_of {m : ℕ} {g : ℕ} {e : Ecc} {x : Bool} {t : State} (h : Keeps s u) (he0 : eccRead m g e u = (x, t)) :
    Keeps s t := by
  have := eccRead_keeps m g e  h; rw [he0] at this; exact this

theorem eccReads_keeps (m : ℕ) (l : List ℕ) : ∀ (es : List Ecc) {u : State}, Keeps s u → Keeps s (eccReads m l es u).2 := by
  induction l with
  | nil => exact fun _ _ h => h
  | cons g l ih => exact fun _ _ h => ih _ (eccRead_keeps _ _ _ h)

theorem eccReads_of {m : ℕ} {l : List ℕ} {es : List Ecc} {x : Bool} {t : State} (h :
    Keeps s u) (he0 : eccReads m l es u = (x, t)) :
    Keeps s t := by
  have := eccReads_keeps m l es h; rw [he0] at this; exact this

theorem evict_keeps (e : MrgEnt) (h : Keeps s u) : Keeps s (evict e u) := by
  unfold evict
  repeat' first | with_reducible assumption | with_reducible apply reportEvicted_keeps | with_reducible apply mrgEvict_keeps

theorem evictEcc_keeps (ecc : Ecc) (e : MrgEnt) (h : Keeps s u) : Keeps s (evictEcc ecc e u) := by
  unfold evictEcc
  repeat' first | with_reducible assumption | simp only [Keeps.upd] | with_reducible apply count_keeps
                | with_reducible apply evict_keeps | with_reducible apply Keeps.ite | split

theorem drain_keeps (ecc : List Ecc) (h : Keeps s u) : Keeps s (drain ecc u) := by
  unfold drain
  repeat' first | with_reducible assumption | with_reducible apply evictEcc_keeps
                | with_reducible refine each_keeps (fun _ _ _ => ?_) _ ?_

theorem mrgPart_keeps (g : ℕ) (o : ℕ) (bs : List Byte) (poison : Bool) (ecc : Ecc) (h : Keeps s u) :
    Keeps s (mrgPart g o bs poison ecc u) := by
  unfold mrgPart
  repeat' first | with_reducible assumption | simp only [Keeps.upd] | with_reducible apply breakResv_keeps
                | with_reducible apply evictEcc_keeps | with_reducible apply evict_keeps | with_reducible apply Keeps.ite
                | split

theorem granuleWrite_keeps (g : ℕ) (o : ℕ) (bs : List Byte) (poison : Bool) (ecc : Ecc) (h : Keeps s u) :
    Keeps s (granuleWrite g o bs poison ecc u) := by
  unfold granuleWrite
  repeat' first | with_reducible assumption | simp only [Keeps.upd] | with_reducible apply putGranule_keeps
                | with_reducible apply mrgPart_keeps | with_reducible apply Keeps.ite

theorem landMarked_keeps (a : ℕ) (bs : List Byte) (marks : ℕ) (ecc : List Ecc) (h : Keeps s u) :
    Keeps s (landMarked a bs marks ecc u) := by
  unfold landMarked
  repeat' first | with_reducible assumption | with_reducible apply granuleWrite_keeps
                | with_reducible refine each_keeps (fun _ _ _ => ?_) _ ?_

theorem mdForget_keeps (g : ℕ) (h : Keeps s u) : Keeps s (mdForget g u) := by
  unfold mdForget
  repeat' first | with_reducible assumption | simp only [Keeps.upd]

theorem landPut_keeps (a : ℕ) (bs : List Byte) (poison : Bool) (ecc : List Ecc) (h : Keeps s u) :
    Keeps s (landPut a bs poison ecc u) := by
  unfold landPut
  repeat' first | with_reducible assumption | with_reducible apply landMarked_keeps | with_reducible apply mdForget_keeps
                | with_reducible refine each_keeps (fun _ _ _ => ?_) _ ?_ | with_reducible apply Keeps.ite

theorem hold_keeps (x : LndAcc) (h : Keeps s u) : Keeps s (hold x u) := by
  unfold hold
  repeat' first | with_reducible assumption | simp only [Keeps.upd]

theorem hwStore_keeps (a : ℕ) (bs : List Byte) (marks : ℕ) (mask : ℕ) (h : Keeps s u) :
    Keeps s (hwStore a bs marks mask u) := by
  unfold hwStore
  repeat' first | with_reducible assumption | simp only [Keeps.upd] | with_reducible apply landMarked_keeps
                | with_reducible apply Keeps.ite

theorem hwWrite_keeps (m : ℕ) (a : ℕ) (bs : List Byte) (marks : ℕ) (mask : ℕ) (h : Keeps s u) :
    Keeps s (hwWrite m a bs marks mask u) := by
  unfold hwWrite
  repeat' first | with_reducible assumption | with_reducible apply busError_keeps | with_reducible apply hwStore_keeps
                | with_reducible apply hold_keeps | with_reducible apply Keeps.ite

theorem hwLook_keeps (m : ℕ) (a : ℕ) (n : ℕ) (ecc : List Ecc) (h : Keeps s u) : Keeps s (hwLook m a n ecc u) := by
  unfold hwLook
  repeat' first | with_reducible assumption | simp only [Keeps.upd] | with_reducible apply busError_keeps
                | with_reducible apply eccReads_keeps | refine eccReads_of ?_ (by assumption) | with_reducible apply Keeps.ite

theorem setL1_keeps (f : List L1Line → List L1Line) (h : Keeps s u) : Keeps s (setL1 f u) := by
  unfold setL1
  repeat' first | with_reducible assumption | simp only [Keeps.upd]

theorem l1Drop_keeps (c : ℕ) (l : ℕ) (h : Keeps s u) : Keeps s (l1Drop c l u) := by
  unfold l1Drop
  repeat' first | with_reducible assumption | with_reducible apply setL1_keeps

theorem l1Put_keeps (x : L1Line) (h : Keeps s u) : Keeps s (l1Put x u) := by
  unfold l1Put
  repeat' first | with_reducible assumption | with_reducible apply setL1_keeps

theorem lineWrite_keeps (c : ℕ) (l : ℕ) (bs : List Byte) (h : Keeps s u) : Keeps s (lineWrite c l bs u) := by
  unfold lineWrite
  repeat' first | with_reducible assumption | with_reducible apply sramWrite_keeps | with_reducible apply busError_keeps
                | with_reducible apply landPut_keeps | with_reducible apply Keeps.ite

theorem lineLost_keeps (l : ℕ) (h : Keeps s u) : Keeps s (lineLost l u) := by
  unfold lineLost
  split
  · exact (Keeps.upd (sramEra' := _)).2 (h.setSram Tab.rising_clear)
  · exact rowsLost_keeps _ _ h

theorem l1Clean_keeps (c : ℕ) (l : ℕ) (h : Keeps s u) : Keeps s (l1Clean c l u) := by
  unfold l1Clean
  repeat' first | with_reducible assumption | dsimp only | with_reducible apply lineWrite_keeps
                | with_reducible apply lineLost_keeps | with_reducible apply l1Put_keeps | with_reducible apply Keeps.ite
                | split

theorem l1Fill_keeps (c : ℕ) (l : ℕ) (e : Ecc) (access : ℕ) (h : Keeps s u) : Keeps s (l1Fill c l e access u).2 := by
  unfold l1Fill
  repeat' first | with_reducible assumption | dsimp only | with_reducible apply busError_keeps
                | with_reducible apply eccRead_keeps | refine eccRead_of ?_ (by assumption) | with_reducible apply l1Put_keeps
                | with_reducible apply Keeps.ite | split

theorem l1Fill_of {c : ℕ} {l : ℕ} {e : Ecc} {access : ℕ} {x : Option L1Line} {t : State} (h : Keeps s u) (he0 : l1Fill c l e access u = (x, t)) :
    Keeps s t := by
  have := l1Fill_keeps c l e access  h; rw [he0] at this; exact this

theorem l1Store_keeps (c : ℕ) (a : ℕ) (bs : List Byte) (e : Ecc) (h : Keeps s u) : Keeps s (l1Store c a bs e u) := by
  unfold l1Store
  repeat' first | with_reducible assumption | simp only [Keeps.upd] | with_reducible apply l1Fill_keeps
                | refine l1Fill_of ?_ (by assumption) | with_reducible apply l1Put_keeps | split

theorem l1Evict_keeps (c : ℕ) (ls : List ℕ) (h : Keeps s u) : Keeps s (l1Evict c ls u) := by
  unfold l1Evict
  repeat' first | with_reducible assumption | with_reducible apply l1Clean_keeps | with_reducible apply l1Drop_keeps
                | with_reducible refine each_keeps (fun _ _ _ => ?_) _ ?_

theorem l1Load_keeps (c : ℕ) (a : ℕ) (n : ℕ) (e : Ecc) (h : Keeps s u) : Keeps s (l1Load c a n e u).2 := by
  unfold l1Load
  repeat' first | with_reducible assumption | dsimp only | with_reducible apply l1Fill_keeps
                | refine l1Fill_of ?_ (by assumption) | split

theorem l1Load_of {c : ℕ} {a : ℕ} {n : ℕ} {e : Ecc} {x : Option (List Byte)} {t : State} (h : Keeps s u) (he0 : l1Load c a n e u = (x, t)) :
    Keeps s t := by
  have := l1Load_keeps c a n e  h; rw [he0] at this; exact this

theorem cmbStore_keeps (a : ℕ) (bs : List (Byte × Bool)) (h : Keeps s u) : Keeps s (cmbStore a bs u) := by
  unfold cmbStore
  repeat' first | with_reducible assumption | simp only [Keeps.upd]

theorem streamIn_keeps (r : NsRec) (x : Cmd) (buf : ℕ) (md : ℕ) (off : ℕ) (bs : List (Byte × Bool)) (h : Keeps s u) :
    Keeps s (streamIn r x buf md off bs u) := by
  unfold streamIn
  repeat' first | with_reducible assumption | with_reducible apply hwWrite_keeps
                | with_reducible refine each_keeps (fun _ _ _ => ?_) _ ?_

theorem piInsert_keeps (r : NsRec) (x : Cmd) (h : Keeps s u) : Keeps s (piInsert r x u) := by
  unfold piInsert
  repeat' first | with_reducible assumption | with_reducible apply hwWrite_keeps
                | with_reducible refine upTo_keeps (fun _ _ _ => ?_) _ ?_ | with_reducible apply Keeps.ite

theorem xferLook_keeps (r : NsRec) (x : Cmd) (h : Keeps s u) : Keeps s (xferLook r x u) := by
  unfold xferLook
  repeat' first | with_reducible assumption | with_reducible apply hwLook_keeps | with_reducible apply Keeps.ite

theorem readFinish_keeps (k : ℕ) (h : Keeps s u) : Keeps s (readFinish k u) := by
  unfold readFinish
  repeat' first | with_reducible assumption | dsimp only | with_reducible apply chkRelease_keeps
                | with_reducible apply sendData_keeps | with_reducible apply sendSegs_keeps
                | with_reducible apply cmdEndAt_keeps | with_reducible apply xferLook_keeps
                | with_reducible apply setCmd_keeps | with_reducible apply cmdEnd_keeps | with_reducible apply Keeps.ite
                | split

theorem cmdUnits_keeps (k : ℕ) (us : Tab ℕ) (lad : Bool) (h : Keeps s u) : Keeps s (cmdUnits k us lad u) := by
  unfold cmdUnits
  repeat' first | with_reducible assumption | dsimp only | with_reducible apply readFinish_keeps
                | with_reducible apply setCmd_keeps | with_reducible refine each_keeps (fun _ _ _ => ?_) _ ?_
                | with_reducible apply Keeps.ite | split

theorem sqAdvance_keeps (f : ℕ) (q : ℕ) (h : Keeps s u) : Keeps s (sqAdvance f q u) := by
  unfold sqAdvance
  repeat' first | with_reducible assumption | simp only [Keeps.upd] | with_reducible apply readFinish_keeps
                | with_reducible apply setCmd_keeps | with_reducible refine each_keeps (fun _ _ _ => ?_) _ ?_
                | with_reducible apply Keeps.ite | split

theorem opEnd_keeps (x : SprOp) (st : ℕ) (h : Keeps s u) : Keeps s (opEnd x st u) := by
  unfold opEnd
  repeat' first | with_reducible assumption | simp only [Keeps.upd] | with_reducible apply raiseEvent_keeps
                | with_reducible apply sramWrite_keeps | with_reducible apply cmdUnits_keeps | with_reducible apply Keeps.ite
                | split

theorem opRefuse_keeps (x : SprOp) (h : Keeps s u) : Keeps s (opRefuse x u) := by
  unfold opRefuse
  repeat' first | with_reducible assumption | dsimp only | with_reducible apply hwWrite_keeps
                | with_reducible apply opEnd_keeps | with_reducible apply Keeps.ite

theorem bodyStore_keeps (m : ℕ) (buf : ℕ) (md : ℕ) (body : List Byte) (h : Keeps s u) :
    Keeps s (bodyStore m buf md body u) := by
  unfold bodyStore
  repeat' first | with_reducible assumption | with_reducible apply hwWrite_keeps | with_reducible apply Keeps.ite

theorem unitStore_keeps (x : SprOp) (i : ℕ) (body : List Byte) (h : Keeps s u) : Keeps s (unitStore x i body u) := by
  unfold unitStore
  repeat' first | with_reducible assumption | with_reducible apply bodyStore_keeps

theorem noteUnrec_keeps (nsid : ℕ) (u0 : ℕ) (on : Bool) (h : Keeps s u) : Keeps s (noteUnrec nsid u0 on u) := by
  unfold noteUnrec
  repeat' first | with_reducible assumption | simp only [Keeps.upd]

theorem unitEnd_keeps (id : ℕ) (i : ℕ) (st : ℕ) (h : Keeps s u) : Keeps s (unitEnd id i st u) := by
  unfold unitEnd
  repeat' first | with_reducible assumption | dsimp only | with_reducible apply unitStore_keeps
                | with_reducible apply noteUnrec_keeps | with_reducible apply hwWrite_keeps | with_reducible apply count_keeps
                | with_reducible apply setOp_keeps | with_reducible apply tally_keeps | with_reducible apply opEnd_keeps
                | with_reducible apply Keeps.ite | split

theorem salvSet_keeps (st : ℕ) (h : Keeps s u) : Keeps s (salvSet st u) := by
  unfold salvSet
  repeat' first | with_reducible assumption | simp only [Keeps.upd] | with_reducible apply put_keeps

theorem salvHalt_keeps (i : ℕ) (h : Keeps s u) : Keeps s (salvHalt i u) := by
  unfold salvHalt
  repeat' first | with_reducible assumption | simp only [Keeps.upd] | with_reducible apply raiseEvent_keeps
                | with_reducible apply chkRelease_keeps | with_reducible apply c4Change_keeps
                | with_reducible apply salvSet_keeps | with_reducible apply put_keeps
                | with_reducible refine each_keeps (fun _ _ _ => ?_) _ ?_ | with_reducible apply Keeps.ite

theorem sectorRefuse_keeps (back : RdUse → State → State) (req : ℕ) (psa : ℕ) (hback : ∀ z0 v, Keeps s v → Keeps s (back z0 v)) (h : Keeps s u) :
    Keeps s (sectorRefuse back req psa u) := by
  unfold sectorRefuse
  repeat' first | with_reducible assumption | simp only [Keeps.upd] | with_reducible apply dropRead_keeps
                | with_reducible apply unitEnd_keeps | (with_reducible apply hback) | with_reducible apply Keeps.ite | split

theorem cruiseLeave_keeps  (h : Keeps s u) : Keeps s (cruiseLeave u) := by
  unfold cruiseLeave
  repeat' first | with_reducible assumption | simp only [Keeps.upd] | with_reducible apply chkRelease_keeps

theorem readRefuse_keeps (n : ℕ) : ∀ (use : RdUse) {u : State}, Keeps s u → Keeps s (readRefuse n use u) := by
  induction n with
  | zero => exact fun _ _ h => h
  | succ n ih =>
    intro use u h
    unfold readRefuse
    split
    · exact unitEnd_keeps _ _ _ h
    · exact unitEnd_keeps _ _ _ h
    · exact salvHalt_keeps _ h
    · exact cruiseLeave_keeps h
    · exact cruiseLeave_keeps h
    · split
      · exact h
      · exact sectorRefuse_keeps _ _ _ (fun _ _ g => ih _ g) (freeCtx_keeps _ h)

theorem unitUnrec_keeps (x : SprOp) (i : ℕ) (h : Keeps s u) : Keeps s (unitUnrec x i u) := by
  unfold unitUnrec
  repeat' first | with_reducible assumption | with_reducible apply unitStore_keeps | with_reducible apply unitEnd_keeps

theorem startReadOf_keeps (keep : List ℕ) (use : RdUse) (z : ℕ) (k : ℕ) (red : ℕ) (skip : Option ℕ) (w : Want) (h : Keeps s u) :
    Keeps s (startReadOf keep use z k red skip w u) := by
  unfold startReadOf
  repeat' first | with_reducible assumption | dsimp only | with_reducible apply readRefuse_keeps
                | with_reducible apply setRead_keeps | with_reducible apply addItem_keeps | with_reducible apply report_keeps
                | with_reducible apply sprId_keeps | refine sprId_of ?_ (by assumption)
                | with_reducible refine each_keeps (fun _ _ _ => ?_) _ ?_ | with_reducible apply Keeps.ite

theorem startRead_keeps (use : RdUse) (z : ℕ) (k : ℕ) (red : ℕ) (skip : Option ℕ) (w : Want) (h : Keeps s u) :
    Keeps s (startRead use z k red skip w u) := by
  unfold startRead
  repeat' first | with_reducible assumption | with_reducible apply startReadOf_keeps

theorem readKept_keeps (r : StripeRd) (w : Want) (h : Keeps s u) : Keeps s (readKept r w u) := by
  unfold readKept
  repeat' first | with_reducible assumption | dsimp only | with_reducible apply setRead_keeps
                | with_reducible apply addItem_keeps | with_reducible refine each_keeps (fun _ _ _ => ?_) _ ?_

theorem sprResult_keeps (r : RdRes) (h : Keeps s u) : Keeps s (sprResult r u) := by
  unfold sprResult
  repeat' first | with_reducible assumption | simp only [Keeps.upd] | with_reducible apply setRead_keeps
                | with_reducible apply unitEnd_keeps | with_reducible apply setOp_keeps | with_reducible apply Keeps.ite
                | split

theorem sprParity_keeps (c : ℕ) (h : Keeps s u) : Keeps s (sprParity c u) := by
  unfold sprParity
  repeat' first | with_reducible assumption | dsimp only | with_reducible apply startRead_keeps
                | with_reducible apply Keeps.ite | split

theorem passReport_keeps (p : Pass) (h : Keeps s u) : Keeps s (passReport p u) := by
  unfold passReport
  repeat' first | with_reducible assumption | with_reducible apply report_keeps | with_reducible apply Keeps.ite

theorem passIssue_keeps (p : Pass) (h : Keeps s u) : Keeps s (passIssue p u) := by
  unfold passIssue
  repeat' first | with_reducible assumption | dsimp only | with_reducible apply setPass_keeps
                | with_reducible apply addItem_keeps

theorem passStart_keeps (p : Pass) (h : Keeps s u) : Keeps s (passStart p u) := by
  unfold passStart
  repeat' first | with_reducible assumption | simp only [Keeps.upd] | with_reducible apply passIssue_keeps
                | with_reducible apply setPass_keeps | with_reducible apply hold_keeps | with_reducible apply Keeps.ite

theorem sprWriteEnd_keeps (it : ℕ) (gen : ℕ) (res : List (ℕ × ℕ)) (h : Keeps s u) : Keeps s (sprWriteEnd it gen res u) := by
  unfold sprWriteEnd
  repeat' first | with_reducible assumption | simp only [Keeps.upd] | with_reducible apply setPass_keeps | split

theorem stgStat_keeps  (h : Keeps s u) : Keeps s (stgStat u) := by
  unfold stgStat
  repeat' first | with_reducible assumption | with_reducible apply raiseEvent_keeps | with_reducible apply put_keeps
                | with_reducible apply Keeps.ite

theorem entriesEnd_keeps (o : ℕ) (k : ℕ) (st : ℕ) (units : ℕ) (seq : ℕ) (gen : ℕ) (h : Keeps s u) :
    Keeps s (entriesEnd o k st units seq gen u) := by
  unfold entriesEnd
  repeat' first | with_reducible assumption | dsimp only | with_reducible apply setOp_keeps | with_reducible apply tally_keeps
                | with_reducible apply opEnd_keeps | with_reducible apply Keeps.ite | split

theorem stagingLost_keeps (p : Pass) (st : ℕ) (h : Keeps s u) : Keeps s (stagingLost p st u) := by
  unfold stagingLost
  repeat' first | with_reducible assumption | with_reducible apply entriesEnd_keeps | with_reducible apply dropPass_keeps
                | with_reducible refine each_keeps (fun _ _ _ => ?_) _ ?_

theorem stgDispatch_keeps  (h : Keeps s u) : Keeps s (stgDispatch u) := by
  unfold stgDispatch
  repeat' first | with_reducible assumption | simp only [Keeps.upd] | with_reducible apply stagingLost_keeps
                | with_reducible apply passReport_keeps | with_reducible apply passStart_keeps
                | with_reducible apply stgStat_keeps | with_reducible apply setOp_keeps | with_reducible apply sprId_keeps
                | refine sprId_of ?_ (by assumption) | with_reducible apply put_keeps
                | with_reducible refine each_keeps (fun _ _ _ => ?_) _ ?_
                | with_reducible refine foldl_keeps (fun _ _ _ => ?_) _ ?_ | with_reducible apply Keeps.ite | split

theorem stgFlushFull_keeps  (h : Keeps s u) : Keeps s (stgFlushFull u) := by
  unfold stgFlushFull
  repeat' first | with_reducible assumption | with_reducible apply stgDispatch_keeps
                | with_reducible refine upTo_keeps (fun _ _ _ => ?_) _ ?_ | with_reducible apply Keeps.ite

theorem stgFlushDue_keeps (n : ℕ) (h : Keeps s u) : Keeps s (stgFlushDue n u) := by
  unfold stgFlushDue
  repeat' first | with_reducible assumption | simp only [Keeps.upd] | with_reducible apply stgFlushFull_keeps
                | with_reducible apply stgDispatch_keeps | with_reducible refine upTo_keeps (fun _ _ _ => ?_) _ ?_
                | with_reducible apply Keeps.ite

theorem stgFlushAll_keeps  (h : Keeps s u) : Keeps s (stgFlushAll u) := by
  unfold stgFlushAll
  repeat' first | with_reducible assumption | with_reducible apply stgFlushDue_keeps

theorem groupEnd_keeps (g : StgGroup) (h : Keeps s u) : Keeps s (groupEnd g u) := by
  unfold groupEnd
  repeat' first | with_reducible assumption | simp only [Keeps.upd] | with_reducible apply opEnd_keeps
                | with_reducible refine each_keeps (fun _ _ _ => ?_) _ ?_ | with_reducible apply Keeps.ite

theorem lostRecord_keeps (nsid : ℕ) (unit : ℕ) (cause : ℕ) (gen : ℕ) (h : Keeps s u) :
    Keeps s (lostRecord nsid unit cause gen u) := by
  unfold lostRecord
  repeat' first | with_reducible assumption | with_reducible apply raiseEvent_keeps | with_reducible apply hwWrite_keeps
                | with_reducible apply put_keeps | with_reducible apply Keeps.ite

theorem sectorFinal_keeps (x : Item) (psa : ℕ) (w : ℕ) (wgen : ℕ) (poison : ℕ) (body : List Byte) (h : Keeps s u) :
    Keeps s (sectorFinal x psa w wgen poison body u) := by
  unfold sectorFinal
  repeat' first | with_reducible assumption | simp only [Keeps.upd] | with_reducible apply sprResult_keeps
                | with_reducible apply wr_keeps

theorem deliver_keeps (x : Item) (psa : ℕ) (w : ℕ) (blk : List Byte) (h : Keeps s u) : Keeps s (deliver x psa w blk u) := by
  unfold deliver
  repeat' first | with_reducible assumption | dsimp only | with_reducible apply sectorFinal_keeps
                | with_reducible apply bodyStore_keeps | split

theorem deliverZero_keeps (x : Item) (psa : ℕ) (w : ℕ) (h : Keeps s u) : Keeps s (deliverZero x psa w u) := by
  unfold deliverZero
  repeat' first | with_reducible assumption | dsimp only | with_reducible apply sectorFinal_keeps
                | with_reducible apply bodyStore_keeps | split

theorem sectorCheck_keeps (psa : ℕ) (d : Decoded) (h : Keeps s u) : Keeps s (sectorCheck psa d u).2 := by
  unfold sectorCheck
  repeat' first | with_reducible assumption | with_reducible apply report_keeps | with_reducible apply count_keeps
                | with_reducible apply Keeps.ite | split | extract_lets

theorem sectorCheck_of {psa : ℕ} {d : Decoded} {x : Option (List Byte)} {t : State} (h : Keeps s u) (he0 : sectorCheck psa d u = (x, t)) :
    Keeps s t := by
  have := sectorCheck_keeps psa d  h; rw [he0] at this; exact this

theorem engWake_keeps (e : ℕ) (h : Keeps s u) : Keeps s (engWake e u) := by
  unfold engWake
  repeat' first | with_reducible assumption | dsimp only | with_reducible apply setEng_keeps | with_reducible apply Keeps.ite

theorem takeSlot_keeps (k : ℕ) (n : ℕ) (h : Keeps s u) : Keeps s (takeSlot k n u) := by
  unfold takeSlot
  repeat' first | with_reducible assumption | dsimp only | with_reducible apply setLane_keeps
                | with_reducible apply setSlot_keeps | split

theorem releaseSlot_keeps (k : ℕ) (h : Keeps s u) : Keeps s (releaseSlot k u) := by
  unfold releaseSlot
  repeat' first | with_reducible assumption | with_reducible apply freeSlot_keeps

theorem ladderFail_keeps (c : ℕ) (h : Keeps s u) : Keeps s (ladderFail c u) := by
  unfold ladderFail
  repeat' first | with_reducible assumption | dsimp only | with_reducible apply sectorFinal_keeps
                | with_reducible apply deliverZero_keeps | with_reducible apply tallyDev_keeps
                | with_reducible apply freeCtx_keeps | with_reducible apply count_keeps | with_reducible apply Keeps.ite
                | split

theorem ladderOk_keeps (c : ℕ) (e : ℕ) (d : Decoded) (blk : List Byte) (h : Keeps s u) : Keeps s (ladderOk c e d blk u) := by
  unfold ladderOk
  repeat' first | with_reducible assumption | simp only [Keeps.upd] | with_reducible apply sectorFinal_keeps
                | with_reducible apply freeCtx_keeps | with_reducible apply deliver_keeps | with_reducible apply put_keeps
                | with_reducible apply Keeps.ite | split

theorem issueRetry_keeps (c : ℕ) (x : Ctx) (hd : Option ℕ) (avoid : List ℕ) (ofs : ℤ) (h : Keeps s u) :
    Keeps s (issueRetry c x hd avoid ofs u) := by
  unfold issueRetry
  repeat' first | with_reducible assumption | dsimp only | with_reducible apply addItem_keeps

theorem attempt_keeps (c : ℕ) (k : ℕ) (x : Ctx) (h : Keeps s u) : Keeps s (attempt c k x u) := by
  unfold attempt
  repeat' first | with_reducible assumption | simp only [Keeps.upd] | with_reducible apply issueRetry_keeps
                | with_reducible apply sprParity_keeps | with_reducible apply setCtx_keeps | split

theorem ladderFrom_keeps (n : ℕ) : ∀ (c k : ℕ) {u : State}, Keeps s u → Keeps s (ladderFrom n c k u) := by
  induction n with
  | zero => exact fun c k _ h => ladderFail_keeps c h
  | succ n ih =>
    intro c k u h
    unfold ladderFrom
    repeat' first | with_reducible assumption | with_reducible apply ih | with_reducible apply ladderFail_keeps
                  | with_reducible apply setCtx_keeps | with_reducible apply attempt_keeps | split | extract_lets

theorem ladderStep_keeps (c : ℕ) (h : Keeps s u) : Keeps s (ladderStep c u) := by
  unfold ladderStep
  repeat' first | with_reducible assumption | simp only [Keeps.upd] | with_reducible apply ladderFrom_keeps | split

theorem plainReread_keeps (x : Item) (psa : ℕ) (hd : ℕ) (p : Past) (media : Bool) (h : Keeps s u) :
    Keeps s (plainReread x psa hd p media u) := by
  unfold plainReread
  repeat' first | with_reducible assumption | simp only [Keeps.upd] | with_reducible apply sectorFinal_keeps
                | with_reducible apply addItem_keeps | with_reducible apply count_keeps | with_reducible apply Keeps.ite

theorem ladderEnter_keeps (x : Item) (psa : ℕ) (k : Option ℕ) (hd : ℕ) (p : Past) (h : Keeps s u) :
    Keeps s (ladderEnter x psa k hd p u) := by
  unfold ladderEnter
  repeat' first | with_reducible assumption | dsimp only | with_reducible apply releaseSlot_keeps
                | with_reducible apply plainReread_keeps | with_reducible apply ladderStep_keeps
                | with_reducible apply setSlot_keeps | with_reducible apply setCtx_keeps | with_reducible apply count_keeps
                | with_reducible apply put_keeps | split

theorem retryFailed_keeps (c : ℕ) (soft : List Byte) (h : Keeps s u) : Keeps s (retryFailed c soft u) := by
  unfold retryFailed
  repeat' first | with_reducible assumption | simp only [Keeps.upd] | with_reducible apply ladderStep_keeps
                | with_reducible apply setCtx_keeps | with_reducible apply Keeps.ite | split

theorem nonMediaFail_keeps (x : Item) (psa : ℕ) (hd : ℕ) (lstat : ℕ) (retry : Option ℕ) (h : Keeps s u) :
    Keeps s (nonMediaFail x psa hd lstat retry u) := by
  unfold nonMediaFail
  repeat' first | with_reducible assumption | simp only [Keeps.upd] | with_reducible apply plainReread_keeps
                | with_reducible apply ladderEnter_keeps | with_reducible apply ladderStep_keeps
                | with_reducible apply addItem_keeps | with_reducible apply setCtx_keeps | with_reducible apply count_keeps
                | with_reducible apply Keeps.ite | split

theorem drFail_keeps  (h : Keeps s u) : Keeps s (drFail u) := by
  unfold drFail
  repeat' first | with_reducible assumption | simp only [Keeps.upd] | with_reducible apply ladderStep_keeps
                | with_reducible apply setCtx_keeps | with_reducible refine each_keeps (fun _ _ _ => ?_) _ ?_
                | with_reducible apply Keeps.ite | split

theorem poolSector_keeps (x : Item) (psa : ℕ) (hd : ℕ) (w : ℕ) (soft : List Byte) (retry : Option ℕ) (k : Option ℕ) (h : Keeps s u) :
    Keeps s (poolSector x psa hd w soft retry k u) := by
  unfold poolSector
  repeat' first | with_reducible assumption | simp only [Keeps.upd] | with_reducible apply nonMediaFail_keeps
                | with_reducible apply releaseSlot_keeps | with_reducible apply ladderEnter_keeps
                | with_reducible apply retryFailed_keeps | with_reducible apply setSlot_keeps
                | with_reducible apply setCtx_keeps | with_reducible apply Keeps.ite | split

theorem unitGive_keeps (id : ℕ) (i : ℕ) (st : ℕ) (body : List Byte) (h : Keeps s u) : Keeps s (unitGive id i st body u) := by
  unfold unitGive
  repeat' first | with_reducible assumption | simp only [Keeps.upd] | with_reducible apply unitStore_keeps
                | with_reducible apply unitEnd_keeps | split

theorem noteLadder_keeps (id : ℕ) (r : StripeRd) (h : Keeps s u) : Keeps s (noteLadder id r u) := by
  unfold noteLadder
  repeat' first | with_reducible assumption | dsimp only | with_reducible apply setOp_keeps | split

theorem startStaged_keeps (x : SprOp) (i : ℕ) (seq : ℕ) (slot : ℕ) (h : Keeps s u) : Keeps s (startStaged x i seq slot u) := by
  unfold startStaged
  repeat' first | with_reducible assumption | with_reducible apply startRead_keeps | with_reducible apply unitEnd_keeps
                | with_reducible apply Keeps.ite

theorem unitBegin_keeps (x : SprOp) (i : ℕ) (u0 : ℕ) (h : Keeps s u) : Keeps s (unitBegin x i u0 u) := by
  unfold unitBegin
  repeat' first | with_reducible assumption | simp only [Keeps.upd] | with_reducible apply startStaged_keeps
                | with_reducible apply startRead_keeps | with_reducible apply unitGive_keeps
                | with_reducible apply unitEnd_keeps | with_reducible apply report_keeps | with_reducible apply Keeps.ite
                | split

theorem readUnits_keeps (x : SprOp) (us : List (ℕ × ℕ)) (h : Keeps s u) : Keeps s (readUnits x us u) := by
  unfold readUnits
  repeat' first | with_reducible assumption | dsimp only | with_reducible apply unitBegin_keeps
                | with_reducible apply addItem_keeps | with_reducible apply setOp_keeps
                | with_reducible refine each_keeps (fun _ _ _ => ?_) _ ?_ | with_reducible apply Keeps.ite

theorem cmdRead_keeps (k : ℕ) (fn : ℕ) (nsid : ℕ) (buf : ℕ) (md : ℕ) (lr : Bool) (us : List (ℕ × ℕ)) (h : Keeps s u) :
    Keeps s (cmdRead k fn nsid buf md lr us u) := by
  unfold cmdRead
  repeat' first | with_reducible assumption | dsimp only | with_reducible apply readUnits_keeps
                | with_reducible apply setCmd_keeps | with_reducible apply sprId_keeps | refine sprId_of ?_ (by assumption)
                | split

theorem descIdle_keeps  (h : Keeps s u) : Keeps s (descIdle u) := by
  unfold descIdle
  repeat' first | with_reducible assumption | simp only [Keeps.upd] | with_reducible apply Keeps.ite

theorem descTake_keeps (x0 : SprOp) (h : Keeps s u) : Keeps s (descTake x0 u).2 := by
  unfold descTake
  repeat' first | with_reducible assumption | dsimp only | with_reducible apply sprId_keeps
                | refine sprId_of ?_ (by assumption) | with_reducible apply put_keeps

theorem descTake_of {x0 : SprOp} {x : SprOp} {t : State} (h : Keeps s u) (he0 : descTake x0 u = (x, t)) : Keeps s t := by
  have := descTake_keeps x0  h; rw [he0] at this; exact this

theorem groupTake_keeps (e : StgEntry) (h : Keeps s u) : Keeps s (groupTake e u) := by
  unfold groupTake
  repeat' first | with_reducible assumption | simp only [Keeps.upd] | with_reducible apply Keeps.ite | split

theorem stgTakeOp_keeps (x : SprOp) (h : Keeps s u) : Keeps s (stgTakeOp x u) := by
  unfold stgTakeOp
  repeat' first | with_reducible assumption | simp only [Keeps.upd] | with_reducible apply stgFlushFull_keeps
                | with_reducible apply stgFlushAll_keeps | with_reducible apply groupTake_keeps
                | with_reducible apply setOp_keeps | with_reducible refine each_keeps (fun _ _ _ => ?_) _ ?_
                | with_reducible apply Keeps.ite

theorem feedEcc_keeps (it f : ℕ) (ecc : List Ecc) (h : Keeps s u) : Keeps s (feedEcc it f ecc u).2 := by
  unfold feedEcc
  suffices g : ∀ (l : List (Ecc × ℕ)) (r : ℕ × State), Keeps s r.2 → Keeps s (l.foldl (fun x e =>
      let r := eccRead 8 (feedGranule u it f e.2) e.1 x.2
      (if !r.1 then x.1 else if e.2 < 64 then putBit x.1 e.2 true else 2 ^ 64 - 1, r.2)) r).2 from g _ _ h
  intro l
  induction l with
  | nil => exact fun _ h => h
  | cons e l ih => exact fun r h => ih _ (eccRead_keeps _ _ _ h)

theorem feedEcc_of {it f : ℕ} {ecc : List Ecc} {x : ℕ} {t : State} (h : Keeps s u) (he0 : feedEcc it f ecc u = (x, t)) :
    Keeps s t := by
  have := feedEcc_keeps it f ecc h; rw [he0] at this; exact this

theorem earlyPress_keeps  (h : Keeps s u) : Keeps s (earlyPress u) := by
  unfold earlyPress
  repeat' first | with_reducible assumption | with_reducible apply put_keeps

theorem earlyPut_keeps (nsid : ℕ) (n : ℕ) (h : Keeps s u) : Keeps s (earlyPut nsid n u) := by
  unfold earlyPut
  repeat' first | with_reducible assumption | simp only [Keeps.upd] | with_reducible apply earlyPress_keeps
                | with_reducible apply setNs_keeps | with_reducible apply Keeps.ite | split

theorem stripeStart_keeps (x : SprOp) (h : Keeps s u) : Keeps s (stripeStart x u) := by
  unfold stripeStart
  repeat' first | with_reducible assumption | dsimp only | with_reducible apply passReport_keeps
                | with_reducible apply lostRecord_keeps | with_reducible apply noteUnrec_keeps
                | with_reducible apply passStart_keeps | with_reducible apply tallyDev_keeps
                | with_reducible apply earlyPut_keeps | with_reducible apply setPass_keeps | with_reducible apply setOp_keeps
                | with_reducible apply sprId_keeps | refine sprId_of ?_ (by assumption) | with_reducible apply opEnd_keeps
                | with_reducible refine each_keeps (fun _ _ _ => ?_) _ ?_ | with_reducible apply Keeps.ite

theorem resumeOps_keeps  (h : Keeps s u) : Keeps s (resumeOps u) := by
  unfold resumeOps
  repeat' first | with_reducible assumption | with_reducible apply stripeStart_keeps | with_reducible apply stgTakeOp_keeps
                | with_reducible refine each_keeps (fun _ _ _ => ?_) _ ?_ | with_reducible apply Keeps.ite

theorem countStale_keeps (r : StripeRd) (h : Keeps s u) : Keeps s (countStale r u) := by
  unfold countStale
  repeat' first | with_reducible assumption | with_reducible apply countN_keeps

theorem relocDone_keeps (z : ℕ) (k : ℕ) (h : Keeps s u) : Keeps s (relocDone z k u) := by
  unfold relocDone
  repeat' first | with_reducible assumption | dsimp only | with_reducible apply c4Change_keeps
                | with_reducible apply hwWrite_keeps | with_reducible apply Keeps.ite | split

theorem salvAdvance_keeps  (h : Keeps s u) : Keeps s (salvAdvance u) := by
  unfold salvAdvance
  repeat' first | with_reducible assumption | with_reducible apply put_keeps

theorem relocSeen_keeps (old : State) (h : Keeps s u) : Keeps s (relocSeen old u) := by
  unfold relocSeen
  repeat' first | with_reducible assumption | with_reducible apply degradedUpdate_keeps
                | with_reducible apply salvAdvance_keeps | with_reducible apply c4Change_keeps | with_reducible apply wr_keeps
                | with_reducible apply Keeps.ite

theorem batchDone_keeps  (h : Keeps s u) : Keeps s (batchDone u) := by
  unfold batchDone
  repeat' first | with_reducible assumption | simp only [Keeps.upd] | with_reducible apply c4Change_keeps
                | with_reducible apply salvSet_keeps | with_reducible apply Keeps.ite

theorem salvLeave_keeps (i : ℕ) (h : Keeps s u) : Keeps s (salvLeave i u) := by
  unfold salvLeave
  repeat' first | with_reducible assumption | simp only [Keeps.upd] | with_reducible apply salvAdvance_keeps
                | with_reducible apply chkRelease_keeps | with_reducible apply batchDone_keeps

theorem salvSkip_keeps (i : ℕ) (h : Keeps s u) : Keeps s (salvSkip i u) := by
  unfold salvSkip
  repeat' first | with_reducible assumption | with_reducible apply relocDone_keeps | with_reducible apply salvLeave_keeps
                | with_reducible apply Keeps.ite

theorem passGo_keeps (p : Pass) (h : Keeps s u) : Keeps s (passGo p u) := by
  unfold passGo
  repeat' first | with_reducible assumption | dsimp only | with_reducible apply cruiseLeave_keeps
                | with_reducible apply passIssue_keeps | with_reducible apply dropPass_keeps
                | with_reducible apply salvSkip_keeps | with_reducible apply setOp_keeps | with_reducible apply Keeps.ite
                | split

theorem startHeld_keeps  (h : Keeps s u) : Keeps s (startHeld u) := by
  unfold startHeld
  repeat' first | with_reducible assumption | simp only [Keeps.upd] | with_reducible apply passGo_keeps
                | with_reducible refine each_keeps (fun _ _ _ => ?_) _ ?_ | with_reducible apply Keeps.ite | split

theorem setPhase_keeps (i : ℕ) (p : SalvPhase) (h : Keeps s u) : Keeps s (setPhase i p u) := by
  unfold setPhase
  repeat' first | with_reducible assumption | simp only [Keeps.upd]

theorem salvGranted_keeps (i : ℕ) (h : Keeps s u) : Keeps s (salvGranted i u) := by
  unfold salvGranted
  repeat' first | with_reducible assumption | dsimp only | with_reducible apply startReadOf_keeps
                | with_reducible apply startHeld_keeps | with_reducible apply salvSkip_keeps
                | with_reducible apply setPhase_keeps | with_reducible apply Keeps.ite | split

theorem salvResume_keeps  (h : Keeps s u) : Keeps s (salvResume u) := by
  unfold salvResume
  repeat' first | with_reducible assumption | simp only [Keeps.upd] | with_reducible apply salvGranted_keeps
                | with_reducible refine each_keeps (fun _ _ _ => ?_) _ ?_ | with_reducible apply Keeps.ite | split

theorem cruiseGranted_keeps  (h : Keeps s u) : Keeps s (cruiseGranted u) := by
  unfold cruiseGranted
  repeat' first | with_reducible assumption | simp only [Keeps.upd] | with_reducible apply cruiseLeave_keeps
                | with_reducible apply startRead_keeps | with_reducible apply Keeps.ite | split

theorem regsReset_keeps (f : ℕ) (h : Keeps s u) : Keeps s (regsReset f u) := by
  unfold regsReset
  extract_lets n v
  have hv : Keeps s v := h.setRegs (Tab.rising_filter _)
  split
  · exact hv
  · exact put_keeps _ _ _ hv

theorem fnResetDeck_keeps (f : ℕ) (h : Keeps s u) : Keeps s (fnResetDeck f u) := by
  unfold fnResetDeck
  repeat' first | with_reducible assumption | dsimp only | with_reducible apply intxUpdate_keeps
                | with_reducible apply txnDiscard_keeps | with_reducible apply dropQueues_keeps
                | with_reducible apply yrdResetFn_keeps | with_reducible apply resolveFn_keeps
                | with_reducible apply putFBit_keeps | with_reducible apply setFn_keeps | with_reducible apply tally_keeps
                | with_reducible apply Keeps.ite

theorem fnReset_keeps (f : ℕ) (h : Keeps s u) : Keeps s (fnReset f u) := by
  unfold fnReset
  repeat' first | with_reducible assumption | simp only [Keeps.upd] | with_reducible apply fnResetDeck_keeps
                | with_reducible apply regsReset_keeps | with_reducible apply setFn_keeps | with_reducible apply Keeps.ite

theorem resetVfs_keeps  (h : Keeps s u) : Keeps s (resetVfs u) := by
  unfold resetVfs
  repeat' first | with_reducible assumption | with_reducible apply fnReset_keeps
                | with_reducible refine upTo_keeps (fun _ _ _ => ?_) _ ?_

theorem hostReset_keeps  (h : Keeps s u) : Keeps s (hostReset u) := by
  unfold hostReset
  repeat' first | with_reducible assumption | simp only [Keeps.upd] | with_reducible apply resetVfs_keeps
                | with_reducible apply fnReset_keeps | with_reducible apply setFn_keeps | with_reducible apply put_keeps
                | with_reducible refine upTo_keeps (fun _ _ _ => ?_) _ ?_

theorem readyUpdate_keeps (f : ℕ) (h : Keeps s u) : Keeps s (readyUpdate f u) := by
  unfold readyUpdate
  repeat' first | with_reducible assumption | with_reducible apply put_keeps | with_reducible apply Keeps.ite

theorem adminQueues_keeps (f : ℕ) (h : Keeps s u) : Keeps s (adminQueues f u) := by
  unfold adminQueues
  repeat' first | with_reducible assumption | with_reducible apply setSq_keeps | with_reducible apply setCq_keeps

theorem fetchSq_keeps (f : ℕ) (q : ℕ) (h : Keeps s u) : Keeps s (fetchSq f q u) := by
  unfold fetchSq
  repeat' first | with_reducible assumption | dsimp only | with_reducible apply tagWait_keeps
                | with_reducible apply request_keeps | with_reducible apply setSq_keeps | with_reducible apply Keeps.ite
                | split

theorem fetchFn_keeps (f : ℕ) (h : Keeps s u) : Keeps s (fetchFn f u) := by
  unfold fetchFn
  repeat' first | with_reducible assumption | with_reducible apply fetchSq_keeps
                | with_reducible refine each_keeps (fun _ _ _ => ?_) _ ?_

theorem fetchAfter_keeps (f : ℕ) (q : ℕ) (h : Keeps s u) : Keeps s (fetchAfter f q u) := by
  unfold fetchAfter
  repeat' first | with_reducible assumption | with_reducible apply fetchSq_keeps
                | with_reducible refine each_keeps (fun _ _ _ => ?_) _ ?_

theorem fetchAll_keeps  (h : Keeps s u) : Keeps s (fetchAll u) := by
  unfold fetchAll
  repeat' first | with_reducible assumption | with_reducible apply fetchFn_keeps
                | with_reducible refine each_keeps (fun _ _ _ => ?_) _ ?_

theorem fatalNow_keeps (f : ℕ) (h : Keeps s u) : Keeps s (fatalNow f u) := by
  unfold fatalNow
  repeat' first | with_reducible assumption | with_reducible apply fatal_keeps | with_reducible apply Keeps.ite

theorem fetchFatal_keeps (f : ℕ) (h : Keeps s u) : Keeps s (fetchFatal f u) := by
  unfold fetchFatal
  repeat' first | with_reducible assumption | with_reducible apply fatalNow_keeps | with_reducible apply report_keeps
                | with_reducible apply put_keeps

theorem cmdFail_keeps (k : ℕ) (st : ℕ) (h : Keeps s u) : Keeps s (cmdFail k st u) := by
  unfold cmdFail
  repeat' first | with_reducible assumption | dsimp only | with_reducible apply chkRelease_keeps
                | with_reducible apply readFinish_keeps | with_reducible apply withdraw_keeps
                | with_reducible apply dropReqs_keeps | with_reducible apply setCmd_keeps | with_reducible apply cmdEnd_keeps
                | with_reducible apply Keeps.ite | split

theorem cmdTake_keeps (k : ℕ) (off : ℕ) (bs : List (Byte × Bool)) (h : Keeps s u) : Keeps s (cmdTake k off bs u) := by
  unfold cmdTake
  repeat' first | with_reducible assumption | dsimp only | with_reducible apply readFinish_keeps
                | with_reducible apply streamIn_keeps | with_reducible apply cmdFail_keeps | with_reducible apply setCmd_keeps
                | with_reducible apply Keeps.ite | split

theorem dataAsk_keeps (n : ℕ) : ∀ (k : ℕ) {u : State}, Keeps s u → Keeps s (dataAsk n k u) := by
  induction n with
  | zero => exact fun _ _ h => h
  | succ n ih =>
    intro k u h
    unfold dataAsk
    repeat' first | with_reducible assumption | with_reducible apply ih | with_reducible apply cmdTake_keeps
                  | with_reducible apply setCmd_keeps | with_reducible apply cmdFail_keeps
                  | with_reducible apply tagWait_keeps | with_reducible apply request_keeps | split | extract_lets

theorem dataStart_keeps (k : ℕ) (h : Keeps s u) : Keeps s (dataStart k u) := by
  unfold dataStart
  repeat' first | with_reducible assumption | with_reducible apply dataAsk_keeps

theorem listAsk_keeps (n : ℕ) : ∀ (k : ℕ) {u : State}, Keeps s u → Keeps s (listAsk n k u) := by
  induction n with
  | zero => exact fun _ _ h => h
  | succ n ih =>
    intro k u h
    unfold listAsk
    repeat' first | with_reducible assumption | with_reducible apply ih | with_reducible apply dataStart_keeps
                  | with_reducible apply setCmd_keeps | with_reducible apply cmdFail_keeps
                  | with_reducible apply tagWait_keeps | with_reducible apply request_keeps | split | extract_lets
                  | dsimp +zetaDelta only

theorem xferGo_keeps (k : ℕ) (h : Keeps s u) : Keeps s (xferGo k u) := by
  unfold xferGo
  repeat' first | with_reducible assumption | with_reducible apply listAsk_keeps

theorem tagRun_keeps (f : ℕ) (w : TagWait) (h : Keeps s u) : Keeps s (tagRun f w u) := by
  unfold tagRun
  repeat' first | with_reducible assumption | simp only [Keeps.upd] | with_reducible apply fetchSq_keeps
                | with_reducible apply yrdAsk_keeps | with_reducible apply xferGo_keeps | split

theorem tagGo_keeps  (h : Keeps s u) : Keeps s (tagGo u) := by
  unfold tagGo
  repeat' first | with_reducible assumption | simp only [Keeps.upd] | with_reducible apply tagRun_keeps
                | with_reducible refine upTo_keeps (fun _ _ _ => ?_) _ ?_ | split

theorem poisIn_keeps (f : ℕ) (h0 : TlpHdr) (h : Keeps s u) : Keeps s (poisIn f h0 u) := by
  unfold poisIn
  repeat' first | with_reducible assumption | with_reducible apply cmdSts_keeps | with_reducible apply aerUnc_keeps
                | with_reducible apply report_keeps | with_reducible apply count_keeps

theorem abortIn_keeps (f : ℕ) (k : ReqKind) (h0 : TlpHdr) (h : Keeps s u) : Keeps s (abortIn f k h0 u) := by
  unfold abortIn
  repeat' first | with_reducible assumption | dsimp only | with_reducible apply cmdSts_keeps
                | with_reducible apply aerUnc_keeps | with_reducible apply report_keeps | split

theorem reqFail_keeps (t : ℕ) (h : Keeps s u) : Keeps s (reqFail t u) := by
  unfold reqFail
  repeat' first | with_reducible assumption | simp only [Keeps.upd] | with_reducible apply fetchFatal_keeps
                | with_reducible apply yrdFail_keeps | with_reducible apply cmdFail_keeps | split

theorem flushMsix_keeps (f : ℕ) (h : Keeps s u) : Keeps s (flushMsix f u) := by
  unfold flushMsix
  repeat' first | with_reducible assumption | with_reducible apply sendMsix_keeps | with_reducible apply put2_keeps
                | with_reducible refine upTo_keeps (fun _ _ _ => ?_) _ ?_ | with_reducible apply Keeps.ite

theorem flushMsi_keeps  (h : Keeps s u) : Keeps s (flushMsi u) := by
  unfold flushMsi
  repeat' first | with_reducible assumption | simp only [Keeps.upd] | with_reducible apply sendMsi_keeps
                | with_reducible apply msiPend_keeps | with_reducible refine each_keeps (fun _ _ _ => ?_) _ ?_
                | with_reducible apply Keeps.ite

theorem unsigFire_keeps (f : ℕ) (v : ℕ) (h : Keeps s u) : Keeps s (unsigFire f v u) := by
  unfold unsigFire
  repeat' first | with_reducible assumption | dsimp only | with_reducible apply interrupt_keeps
                | with_reducible apply setFn_keeps

theorem flushUnsig_keeps (f : ℕ) (h : Keeps s u) : Keeps s (flushUnsig f u) := by
  unfold flushUnsig
  repeat' first | with_reducible assumption | with_reducible apply unsigFire_keeps
                | with_reducible refine each_keeps (fun _ _ _ => ?_) _ ?_ | with_reducible apply Keeps.ite

theorem stallStart_keeps (f : ℕ) (h : Keeps s u) : Keeps s (stallStart f u) := by
  unfold stallStart
  repeat' first | with_reducible assumption | dsimp only | with_reducible apply putFBit_keeps
                | with_reducible apply setFn_keeps | with_reducible apply Keeps.ite

theorem resumeFn_keeps (f : ℕ) (h : Keeps s u) : Keeps s (resumeFn f u) := by
  unfold resumeFn
  repeat' first | with_reducible assumption | dsimp only | with_reducible apply readFinish_keeps
                | with_reducible apply flushUnsig_keeps | with_reducible apply flushMsix_keeps
                | with_reducible apply flushMsi_keeps | with_reducible apply fetchFn_keeps | with_reducible apply yrdAsk_keeps
                | with_reducible apply xferGo_keeps | with_reducible refine each_keeps (fun _ _ _ => ?_) _ ?_
                | with_reducible refine upTo_keeps (fun _ _ _ => ?_) _ ?_ | with_reducible apply Keeps.ite | split

theorem stallEnd_keeps (f : ℕ) (h : Keeps s u) : Keeps s (stallEnd f u) := by
  unfold stallEnd
  repeat' first | with_reducible assumption | dsimp only | with_reducible apply resumeFn_keeps
                | with_reducible apply putFBit_keeps | with_reducible apply setFn_keeps

theorem blkCopy_keeps (r : NsRec) (fromD : ℕ) (fromM : ℕ) (toD : ℕ) (toM : ℕ) (b : ℕ) (h : Keeps s u) :
    Keeps s (blkCopy r fromD fromM toD toM b u) := by
  unfold blkCopy
  repeat' first | with_reducible assumption | with_reducible apply hwWrite_keeps

theorem mergeIn_keeps (k : ℕ) (h : Keeps s u) : Keeps s (mergeIn k u) := by
  unfold mergeIn
  repeat' first | with_reducible assumption | dsimp only | with_reducible apply blkCopy_keeps
                | with_reducible refine upTo_keeps (fun _ _ _ => ?_) _ ?_ | with_reducible apply Keeps.ite | split

theorem writeCommit_keeps (k : ℕ) (h : Keeps s u) : Keeps s (writeCommit k u) := by
  unfold writeCommit
  repeat' first | with_reducible assumption | simp only [Keeps.upd] | with_reducible apply orphanClear_keeps
                | with_reducible apply chkRelease_keeps | with_reducible apply sqAdvance_keeps
                | with_reducible apply cmdEndAt_keeps | with_reducible apply piInsert_keeps
                | with_reducible apply xferLook_keeps | with_reducible apply mergeIn_keeps | with_reducible apply setCmd_keeps
                | with_reducible apply cmdEnd_keeps | with_reducible apply orphan_keeps | with_reducible apply tally_keeps
                | with_reducible apply Keeps.ite | split

theorem orderGo_keeps (f : ℕ) (q : ℕ) (h : Keeps s u) : Keeps s (orderGo f q u) := by
  unfold orderGo
  repeat' first | with_reducible assumption | with_reducible apply writeCommit_keeps | with_reducible apply sqAdvance_keeps
                | with_reducible refine each_keeps (fun _ _ _ => ?_) _ ?_ | with_reducible apply Keeps.ite

theorem cpStore_keeps (c : ℕ) (a : ℕ) (bs : List Byte) (ecc : List Ecc) (h : Keeps s u) : Keeps s (cpStore c a bs ecc u) := by
  unfold cpStore
  repeat' first | with_reducible assumption | with_reducible apply l1Store_keeps
                | with_reducible refine each_keeps (fun _ _ _ => ?_) _ ?_

theorem cpLoad_keeps (c : ℕ) (l : List (ℕ × ℕ)) : ∀ (es : List Ecc) {u : State}, Keeps s u → Keeps s (cpLoad c l es u).2 := by
  induction l with
  | nil => exact fun _ _ h => h
  | cons p l ih => exact fun _ _ h => ih _ (l1Load_keeps _ _ _ _ h)

theorem cpLoad_of {c : ℕ} {l : List (ℕ × ℕ)} {es : List Ecc} {x : Option (List Byte)} {t : State} (h : Keeps s u)
    (he0 : cpLoad c l es u = (x, t)) : Keeps s t := by
  have := cpLoad_keeps c l es h; rw [he0] at this; exact this

theorem accWrite_keeps (m : Master) (addr : ℕ) (bs : List Byte) (poison : Bool) (evict : List ℕ) (ecc : List Ecc) (h : Keeps s u) :
    Keeps s (accWrite m addr bs poison evict ecc u) := by
  unfold accWrite
  repeat' first | with_reducible assumption | dsimp only | with_reducible apply relocSeen_keeps
                | with_reducible apply busError_keeps | with_reducible apply landPut_keeps
                | with_reducible apply l1Evict_keeps | with_reducible apply cpStore_keeps | with_reducible apply evict_keeps
                | with_reducible apply hold_keeps | with_reducible apply Keeps.ite | split

theorem accRead_keeps (m : Master) (addr : ℕ) (n : ℕ) (evict : List ℕ) (ecc : List Ecc) (h : Keeps s u) :
    Keeps s (accRead m addr n evict ecc u) := by
  unfold accRead
  repeat' first | with_reducible assumption | dsimp only | with_reducible apply relocSeen_keeps
                | with_reducible apply busError_keeps | with_reducible apply eccReads_keeps
                | refine eccReads_of ?_ (by assumption) | with_reducible apply l1Evict_keeps
                | with_reducible apply cpLoad_keeps | refine cpLoad_of ?_ (by assumption) | with_reducible apply evict_keeps
                | with_reducible apply emit_keeps | with_reducible apply hold_keeps | with_reducible apply Keeps.ite | split

theorem fenceDo_keeps (op : ℕ) (c : ℕ) (l : List ℕ) (ecc : List Ecc) (h : Keeps s u) : Keeps s (fenceDo op c l ecc u) := by
  unfold fenceDo
  repeat' first | with_reducible assumption | with_reducible apply relocSeen_keeps | with_reducible apply l1Clean_keeps
                | with_reducible apply l1Drop_keeps | with_reducible apply drain_keeps
                | with_reducible refine each_keeps (fun _ _ _ => ?_) _ ?_ | with_reducible apply Keeps.ite

theorem accFence_keeps (c : Fin 4) (op : ℕ) (l : List ℕ) (ecc : List Ecc) (h : Keeps s u) :
    Keeps s (accFence c op l ecc u) := by
  unfold accFence
  repeat' first | with_reducible assumption | with_reducible apply fenceDo_keeps | with_reducible apply hold_keeps
                | with_reducible apply Keeps.ite

theorem fenceRead_keeps (c : Fin 4) (addr : ℕ) (n : ℕ) (h : Keeps s u) : Keeps s (fenceRead c addr n u) := by
  unfold fenceRead
  repeat' first | with_reducible assumption | with_reducible apply emit_keeps | with_reducible apply hold_keeps
                | with_reducible apply Keeps.ite

theorem fence_keeps (op : ℕ) (c : Fin 4) (m : Master) (w : BusW) (all : Bool) (ecc : List Ecc) (h : Keeps s u) :
    Keeps s (fence op c m w all ecc u) := by
  unfold fence
  repeat' first | with_reducible assumption | with_reducible apply busWrite_keeps | with_reducible apply accFence_keeps
                | with_reducible apply put_keeps | with_reducible apply Keeps.ite

theorem amoDo_keeps (c : ℕ) (op : AmoOp) (a : ℕ) (k : ℕ) (x : ℕ) (h : Keeps s u) : Keeps s (amoDo c op a k x u) := by
  unfold amoDo
  repeat' first | with_reducible assumption | simp only [Keeps.upd] | with_reducible apply sramWrite_keeps
                | with_reducible apply relocSeen_keeps | with_reducible apply landPut_keeps | with_reducible apply emit_keeps
                | with_reducible apply Keeps.ite | split

theorem accAmo_keeps (c' : Fin 4) (op : AmoOp) (addr : ℕ) (dbl : Bool) (x : BitVec 64) (e : Ecc) (h : Keeps s u) :
    Keeps s (accAmo c' op addr dbl x e u) := by
  unfold accAmo
  repeat' first | with_reducible assumption | dsimp only | with_reducible apply busError_keeps
                | with_reducible apply eccRead_keeps | refine eccRead_of ?_ (by assumption)
                | with_reducible apply l1Clean_keeps | with_reducible apply l1Drop_keeps | with_reducible apply amoDo_keeps
                | with_reducible apply hold_keeps | with_reducible apply Keeps.ite | split

theorem accRun_keeps (x : LndAcc) (h : Keeps s u) : Keeps s (accRun x u) := by
  unfold accRun
  repeat' first | with_reducible assumption | simp only [Keeps.upd] | with_reducible apply fenceRead_keeps
                | with_reducible apply accWrite_keeps | with_reducible apply accFence_keeps
                | with_reducible apply hwWrite_keeps | with_reducible apply accRead_keeps | with_reducible apply accAmo_keeps
                | with_reducible apply fence_keeps | split

theorem heldGo_keeps (n : ℕ) : ∀ (k : ℕ) (l : List LndAcc) {u : State}, Keeps s u → Keeps s (heldGo n k l u) := by
  induction n with
  | zero => exact fun _ _ _ h => h
  | succ n ih =>
    intro k l u h
    unfold heldGo
    split
    · exact h
    · exact ih _ _ (accRun_keeps _ h)

theorem heldRun_keeps  (h : Keeps s u) : Keeps s (heldRun u) := by
  unfold heldRun
  repeat' first | with_reducible assumption | simp only [Keeps.upd] | with_reducible apply writeCommit_keeps
                | with_reducible apply readFinish_keeps | with_reducible apply heldGo_keeps
                | with_reducible refine each_keeps (fun _ _ _ => ?_) _ ?_ | with_reducible apply Keeps.ite

theorem execLandingWrite_keeps (m : Master) (addr : ℕ) (bs : List Byte) (poison : Bool) (evict : List ℕ) (ecc : List Ecc) (h : Keeps s u) :
    KeepsA s (execLandingWrite m addr bs poison evict ecc u) := by
  unfold execLandingWrite
  repeat' first | with_reducible assumption | with_reducible apply KeepsA.next | with_reducible apply accWrite_keeps

theorem execLandingRead_keeps (m : Master) (addr : ℕ) (n : ℕ) (evict : List ℕ) (ecc : List Ecc) (h : Keeps s u) :
    KeepsA s (execLandingRead m addr n evict ecc u) := by
  unfold execLandingRead
  repeat' first | with_reducible assumption | with_reducible apply KeepsA.next | with_reducible apply accRead_keeps

theorem execFfenceClean_keeps (c : Fin 4) (m : Master) (w : BusW) (h : Keeps s u) : KeepsA s (execFfenceClean c m w u) := by
  unfold execFfenceClean
  repeat' first | with_reducible assumption | with_reducible apply KeepsA.next | with_reducible apply fence_keeps

theorem execFfenceInval_keeps (c : Fin 4) (m : Master) (w : BusW) (h : Keeps s u) : KeepsA s (execFfenceInval c m w u) := by
  unfold execFfenceInval
  repeat' first | with_reducible assumption | with_reducible apply KeepsA.next | with_reducible apply fence_keeps

theorem execFfenceCleanInval_keeps (c : Fin 4) (m : Master) (w : BusW) (h : Keeps s u) :
    KeepsA s (execFfenceCleanInval c m w u) := by
  unfold execFfenceCleanInval
  repeat' first | with_reducible assumption | with_reducible apply KeepsA.next | with_reducible apply fence_keeps

theorem execFfenceDrain_keeps (c : Fin 4) (m : Master) (w : BusW) (ecc : List Ecc) (h : Keeps s u) :
    KeepsA s (execFfenceDrain c m w ecc u) := by
  unfold execFfenceDrain
  repeat' first | with_reducible assumption | with_reducible apply KeepsA.next | with_reducible apply fence_keeps

theorem execFfenceCleanAll_keeps (c : Fin 4) (m : Master) (w : BusW) (h : Keeps s u) :
    KeepsA s (execFfenceCleanAll c m w u) := by
  unfold execFfenceCleanAll
  repeat' first | with_reducible assumption | with_reducible apply KeepsA.next | with_reducible apply fence_keeps

theorem execFfenceCleanInvalAll_keeps (c : Fin 4) (m : Master) (w : BusW) (h : Keeps s u) :
    KeepsA s (execFfenceCleanInvalAll c m w u) := by
  unfold execFfenceCleanInvalAll
  repeat' first | with_reducible assumption | with_reducible apply KeepsA.next | with_reducible apply fence_keeps

theorem execLndTrainStart_keeps (w : BusW) (h : Keeps s u) : KeepsA s (execLndTrainStart w u) := by
  unfold execLndTrainStart
  repeat' first | with_reducible assumption | with_reducible apply KeepsA.next | with_reducible apply busWrite_keeps
                | with_reducible apply put_keeps | with_reducible apply KeepsA.ite | with_reducible apply Keeps.ite

theorem execLndFillGo_keeps (w : BusW) (h : Keeps s u) : KeepsA s (execLndFillGo w u) := by
  unfold execLndFillGo
  repeat' first | with_reducible assumption | with_reducible apply KeepsA.next | simp only [Keeps.upd]
                | with_reducible apply busWrite_keeps | with_reducible apply rowsLost_keeps | with_reducible apply put_keeps
                | with_reducible apply KeepsA.ite | with_reducible apply Keeps.ite

theorem rmapWrite_keeps (k : ℕ) (w : BusW) (h : Keeps s u) : Keeps s (rmapWrite k w u) := by
  unfold rmapWrite
  repeat' first | with_reducible assumption | with_reducible apply busWrite_keeps | with_reducible apply put_keeps
                | with_reducible apply Keeps.ite

theorem execLndRmapCopy_keeps (k : Fin 32) (w : BusW) (h : Keeps s u) : KeepsA s (execLndRmapCopy k w u) := by
  unfold execLndRmapCopy
  repeat' first | with_reducible assumption | with_reducible apply KeepsA.next | with_reducible apply rmapWrite_keeps
                | with_reducible apply put_keeps | with_reducible apply KeepsA.ite | with_reducible apply Keeps.ite

theorem rmapDup_keeps (b : ℕ) (on : Bool) (h : Keeps s u) : Keeps s (rmapDup b on u) := by
  unfold rmapDup
  repeat' first | with_reducible assumption | simp only [Keeps.upd]

theorem stamp_keeps (g : ℕ) (x : Granule) (h : Keeps s u) : Keeps s (stamp g x u) :=
  (Keeps.upd (lnd' := _)).2 (h.setLand Tab.rising_put)

theorem execLndRmapClear_keeps (k : Fin 32) (w : BusW) (h : Keeps s u) : KeepsA s (execLndRmapClear k w u) := by
  unfold execLndRmapClear
  repeat' first | with_reducible assumption | with_reducible apply KeepsA.next | with_reducible apply rmapWrite_keeps
                | with_reducible apply rowsLost_keeps | with_reducible apply rmapDup_keeps | with_reducible apply put_keeps
                | with_reducible apply KeepsA.ite | with_reducible apply Keeps.ite

theorem yrdFinish_keeps (n : ℕ) (status : ℕ) (h : Keeps s u) : Keeps s (yrdFinish n status u) := by
  unfold yrdFinish
  repeat' first | with_reducible assumption | dsimp only | with_reducible apply yrdEnd_keeps
                | with_reducible apply report_keeps | with_reducible apply count_keeps | with_reducible apply Keeps.ite
                | split

theorem execYrdDoorbell_keeps (n : Fin 32) (h : Keeps s u) : KeepsA s (execYrdDoorbell n u) := by
  unfold execYrdDoorbell
  repeat' first | with_reducible assumption | with_reducible apply KeepsA.next | dsimp only | with_reducible apply setYch_keeps

theorem ychWrite_keeps (n : ℕ) (w : BusW) (h : Keeps s u) : Keeps s (ychWrite n w u) := by
  unfold ychWrite
  repeat' first | with_reducible assumption | with_reducible apply busWrite_keeps | with_reducible apply put_keeps
                | with_reducible apply Keeps.ite

theorem yrdUnhalt_keeps (n : ℕ) (h : Keeps s u) : Keeps s (yrdUnhalt n u) := by
  unfold yrdUnhalt
  repeat' first | with_reducible assumption | with_reducible apply putFBit_keeps | with_reducible apply put_keeps

theorem execYrdChReset_keeps (n : Fin 32) (w : BusW) (h : Keeps s u) : KeepsA s (execYrdChReset n w u) := by
  unfold execYrdChReset
  repeat' first | with_reducible assumption | with_reducible apply KeepsA.next | dsimp only
                | with_reducible apply flushReqs_keeps | with_reducible apply yrdUnhalt_keeps
                | with_reducible apply yrdClose_keeps | with_reducible apply ychWrite_keeps
                | with_reducible apply setYch_keeps | with_reducible apply put_keeps | with_reducible apply KeepsA.ite

theorem execYrdChResume_keeps (n : Fin 32) (w : BusW) (h : Keeps s u) : KeepsA s (execYrdChResume n w u) := by
  unfold execYrdChResume
  repeat' first | with_reducible assumption | with_reducible apply KeepsA.next | with_reducible apply yrdUnhalt_keeps
                | with_reducible apply ychWrite_keeps | with_reducible apply KeepsA.ite | with_reducible apply Keeps.ite

theorem mirrorCopy_keeps (o n : ℕ) (h : Keeps s u) : Keeps s (mirrorCopy o n u) := h.setMirror putFF_ok

end Sys2Proof.Laws
end

