-- ==== Sys2Proof/Laws/KeepsMedia.lean ====
section
/-! SUPPORT. Shared operations of the arms, lanes, servo and spindle: each keeps what `Keeps` says. -/

namespace Sys2Proof.Laws

open Sys2Proof Sys2Proof.Machine

variable {s u : State}

theorem setLinkState_keeps (a : ℕ) (st : ℕ) (h : Keeps s u) : Keeps s (setLinkState a st u) := by
  unfold setLinkState
  repeat' first | with_reducible assumption | with_reducible apply raiseEvent_keeps | with_reducible apply mapChange_keeps
                | with_reducible apply put_keeps | with_reducible apply Keeps.ite

theorem regwUndef_keeps (a : ℕ) (f : Frame) (h : Keeps s u) : Keeps s (regwUndef a f u) := by
  unfold regwUndef
  repeat' first | with_reducible assumption | simp only [Keeps.upd] | with_reducible apply setWop_keeps | split

theorem modeKill_keeps (a : ℕ) (f : Frame) (h : Keeps s u) : Keeps s (modeKill a f u) := by
  unfold modeKill
  repeat' first | with_reducible assumption | simp only [Keeps.upd] | with_reducible apply wkillFall_keeps | split

theorem heatMark_keeps (a : ℕ) (f : Frame) (h : Keeps s u) : Keeps s (heatMark a f u) := by
  unfold heatMark
  repeat' first | with_reducible assumption | dsimp only | with_reducible apply setLane_keeps
                | with_reducible refine each_keeps (fun _ _ _ => ?_) _ ?_ | with_reducible apply Keeps.ite | split

theorem sendFrame_keeps (a : ℕ) (f : Frame) (h : Keeps s u) : Keeps s (sendFrame a f u) := by
  unfold sendFrame
  repeat' first | with_reducible assumption | dsimp only | with_reducible apply regwUndef_keeps
                | with_reducible apply modeKill_keeps | with_reducible apply heatMark_keeps
                | with_reducible apply setLink_keeps | with_reducible apply emit_keeps | with_reducible apply Keeps.ite

theorem sendWaiting_keeps (a : ℕ) (h : Keeps s u) : Keeps s (sendWaiting a u) := by
  unfold sendWaiting
  repeat' first | with_reducible assumption | dsimp only | with_reducible apply sendFrame_keeps
                | with_reducible apply setLink_keeps | with_reducible refine upTo_keeps (fun _ _ _ => ?_) _ ?_
                | with_reducible apply Keeps.ite | split

theorem sendOnce_keeps (a : ℕ) (f : Frame) (h : Keeps s u) : Keeps s (sendOnce a f u) := by
  unfold sendOnce
  repeat' first | with_reducible assumption | with_reducible apply sendFrame_keeps | with_reducible apply Keeps.ite

theorem wantStep_keeps (a : ℕ) (f : ℕ) (p : ℕ) (src : ℕ) (h : Keeps s u) : Keeps s (wantStep a f p src u) := by
  unfold wantStep
  repeat' first | with_reducible assumption | dsimp only | with_reducible apply sendOnce_keeps
                | with_reducible apply setLink_keeps | with_reducible apply Keeps.ite

theorem wantSend_keeps (a : ℕ) (h : Keeps s u) : Keeps s (wantSend a u) := by
  unfold wantSend
  repeat' first | with_reducible assumption | with_reducible apply wantStep_keeps
                | with_reducible refine each_keeps (fun _ _ _ => ?_) _ ?_

theorem askPers_keeps (h0 : ℕ) (p : ℕ) (src : ℕ) (h : Keeps s u) : Keeps s (askPers h0 p src u) := by
  unfold askPers
  repeat' first | with_reducible assumption | dsimp only | with_reducible apply wantStep_keeps
                | with_reducible apply setLink_keeps

theorem ackFrames_keeps (a : ℕ) (ack : ℕ) (h : Keeps s u) : Keeps s (ackFrames a ack u) := by
  unfold ackFrames
  repeat' first | with_reducible assumption | dsimp only | with_reducible apply sendWaiting_keeps
                | with_reducible apply setLink_keeps | with_reducible apply setWop_keeps | with_reducible apply put_keeps
                | with_reducible apply Keeps.ite | split

theorem regFail_keeps (a : ℕ) (h : Keeps s u) : Keeps s (regFail a u) := by
  unfold regFail
  repeat' first | with_reducible assumption | dsimp only | with_reducible apply setLink_keeps | with_reducible apply put_keeps
                | with_reducible apply Keeps.ite

theorem clearFrames_keeps (a : ℕ) (h : Keeps s u) : Keeps s (clearFrames a u) := by
  unfold clearFrames
  repeat' first | with_reducible assumption | dsimp only | with_reducible apply setLink_keeps
                | with_reducible apply regFail_keeps

theorem searchRead_keeps (h0 : ℕ) (h : Keeps s u) : Keeps s (searchRead h0 u) := by
  unfold searchRead
  repeat' first | with_reducible assumption | dsimp only | with_reducible apply sendOnce_keeps
                | with_reducible apply setLink_keeps | with_reducible apply Keeps.ite

theorem headSearch_keeps (h0 : ℕ) (h : Keeps s u) : Keeps s (headSearch h0 u) := by
  unfold headSearch
  repeat' first | with_reducible assumption | with_reducible apply searchRead_keeps | with_reducible apply headAcq_keeps

theorem searchOpen_keeps (h0 : ℕ) (h : Keeps s u) : Keeps s (searchOpen h0 u) := by
  unfold searchOpen
  repeat' first | with_reducible assumption | dsimp only | with_reducible apply setHead_keeps | with_reducible apply put_keeps
                | with_reducible apply Keeps.ite

theorem acqHeads_keeps (a : ℕ) (h : Keeps s u) : Keeps s (acqHeads a u) := by
  unfold acqHeads
  repeat' first | with_reducible assumption | with_reducible apply headSearch_keeps
                | with_reducible refine each_keeps (fun _ _ _ => ?_) _ ?_ | with_reducible apply Keeps.ite

theorem servoLinkDown_keeps (a : ℕ) (h : Keeps s u) : Keeps s (servoLinkDown a u) := by
  unfold servoLinkDown
  repeat' first | with_reducible assumption | dsimp only | with_reducible apply setMode_keeps
                | with_reducible apply setArm_keeps | with_reducible apply Keeps.ite

theorem endReads_keeps (a : ℕ) (h : Keeps s u) : Keeps s (endReads a u) := by
  unfold endReads
  repeat' first | with_reducible assumption | dsimp only | with_reducible apply setLane_keeps
                | with_reducible refine each_keeps (fun _ _ _ => ?_) _ ?_ | split

theorem linkDown_keeps (a : ℕ) (h : Keeps s u) : Keeps s (linkDown a u) := by
  unfold linkDown
  repeat' first | with_reducible assumption | dsimp only | with_reducible apply servoLinkDown_keeps
                | with_reducible apply dropWpermArm_keeps | with_reducible apply setLinkState_keeps
                | with_reducible apply clearFrames_keeps | with_reducible apply wkillFall_keeps
                | with_reducible apply endReads_keeps | with_reducible apply setLink_keeps

theorem startDiscovery_keeps (a : ℕ) (retrain : Bool) (h : Keeps s u) : Keeps s (startDiscovery a retrain u) := by
  unfold startDiscovery
  repeat' first | with_reducible assumption | dsimp only | with_reducible apply servoLinkDown_keeps
                | with_reducible apply dropWpermArm_keeps | with_reducible apply setLinkState_keeps
                | with_reducible apply clearFrames_keeps | with_reducible apply wkillFall_keeps
                | with_reducible apply endReads_keeps | with_reducible apply setLink_keeps | with_reducible apply count_keeps
                | with_reducible apply Keeps.ite

theorem judgeLink_keeps (a : ℕ) (h : Keeps s u) : Keeps s (judgeLink a u) := by
  unfold judgeLink
  repeat' first | with_reducible assumption | with_reducible apply condFalls_keeps | with_reducible apply report_keeps
                | with_reducible apply Keeps.ite

theorem linkFail_keeps (a : ℕ) (h : Keeps s u) : Keeps s (linkFail a u) := by
  unfold linkFail
  repeat' first | with_reducible assumption | with_reducible apply judgeLink_keeps | with_reducible apply linkDown_keeps

theorem discFail_keeps (a : ℕ) (st : ℕ) (h : Keeps s u) : Keeps s (discFail a st u) := by
  unfold discFail
  repeat' first | with_reducible assumption | dsimp only | with_reducible apply setLinkState_keeps
                | with_reducible apply judgeLink_keeps | with_reducible apply setLink_keeps

theorem lanesPark_keeps (a : ℕ) (h : Keeps s u) : Keeps s (lanesPark a u) := by
  unfold lanesPark
  repeat' first | with_reducible assumption | dsimp only | with_reducible apply setLane_keeps | with_reducible apply put_keeps
                | with_reducible refine each_keeps (fun _ _ _ => ?_) _ ?_ | with_reducible apply Keeps.ite

theorem enterParked_keeps (a : ℕ) (h : Keeps s u) : Keeps s (enterParked a u) := by
  unfold enterParked
  repeat' first | with_reducible assumption | dsimp only | with_reducible apply lanesPark_keeps
                | with_reducible apply headsOff_keeps | with_reducible apply setMode_keeps | with_reducible apply setArm_keeps
                | with_reducible apply setVcm_keeps | with_reducible apply put_keeps

theorem latchHofs_keeps (a : ℕ) (h : Keeps s u) : Keeps s (latchHofs a u) := by
  unfold latchHofs
  repeat' first | with_reducible assumption | dsimp only | with_reducible apply setHead_keeps
                | with_reducible refine each_keeps (fun _ _ _ => ?_) _ ?_

theorem startLoading_keeps (a : ℕ) (h : Keeps s u) : Keeps s (startLoading a u) := by
  unfold startLoading
  repeat' first | with_reducible assumption | dsimp only | with_reducible apply govLimits_keeps
                | with_reducible apply latchHofs_keeps | with_reducible apply acqHeads_keeps
                | with_reducible apply setMode_keeps | with_reducible apply setArm_keeps | with_reducible apply setVcm_keeps
                | with_reducible apply put_keeps | with_reducible refine each_keeps (fun _ _ _ => ?_) _ ?_
                | with_reducible apply Keeps.ite

theorem servoLinkUp_keeps (a : ℕ) (powerOn : Bool) (onRamp : Bool) (parked : Bool) (h : Keeps s u) :
    Keeps s (servoLinkUp a powerOn onRamp parked u) := by
  unfold servoLinkUp
  repeat' first | with_reducible assumption | dsimp only | with_reducible apply startRamp_keeps
                | with_reducible apply lanesPark_keeps | with_reducible apply acqHeads_keeps
                | with_reducible apply setHead_keeps | with_reducible apply setMode_keeps | with_reducible apply setArm_keeps
                | with_reducible refine each_keeps (fun _ _ _ => ?_) _ ?_ | with_reducible apply Keeps.ite

theorem heldLoadApply_keeps (a : ℕ) (h : Keeps s u) : Keeps s (heldLoadApply a u) := by
  unfold heldLoadApply
  repeat' first | with_reducible assumption | dsimp only | with_reducible apply startLoading_keeps
                | with_reducible apply setArm_keeps | with_reducible apply put_keeps | with_reducible apply Keeps.ite

theorem servoStat_keeps (a : ℕ) (onRamp : Bool) (parked : Bool) (h : Keeps s u) : Keeps s (servoStat a onRamp parked u) := by
  unfold servoStat
  repeat' first | with_reducible assumption | dsimp only | with_reducible apply heldLoadApply_keeps
                | with_reducible apply enterParked_keeps | with_reducible apply lanesPark_keeps
                | with_reducible apply setMode_keeps | with_reducible apply setArm_keeps | with_reducible apply setVcm_keeps
                | with_reducible apply Keeps.ite

theorem sprLooks_keeps (l : List (ℕ × ℕ)) : ∀ (es : List Ecc) {u : State}, Keeps s u → Keeps s (sprLooks l es u) := by
  induction l with
  | nil => exact fun _ _ h => h
  | cons e l ih => exact fun _ _ h => ih _ (hwLook_keeps _ _ _ _ h)

theorem execStgTailWrite_keeps (w : BusW) (h : Keeps s u) : KeepsA s (execStgTailWrite w u) := by
  unfold execStgTailWrite
  repeat' first | with_reducible assumption | with_reducible apply KeepsA.next | with_reducible apply stgStat_keeps
                | with_reducible apply wr_keeps | with_reducible apply KeepsA.ite | with_reducible apply Keeps.ite

theorem releaseStaged_keeps (p : Pass) (lo : ℕ) (n : ℕ) (h : Keeps s u) : Keeps s (releaseStaged p lo n u) := by
  unfold releaseStaged
  repeat' first | with_reducible assumption | simp only [Keeps.upd]

theorem fillAdvance_keeps (nsid : ℕ) (n : ℕ) (fill : Bool) (h : Keeps s u) : Keeps s (fillAdvance nsid n fill u) := by
  unfold fillAdvance
  repeat' first | with_reducible assumption | dsimp only | with_reducible apply setNs_keeps
                | with_reducible refine upTo_keeps (fun _ _ _ => ?_) _ ?_ | with_reducible apply Keeps.ite | split

theorem passOk_keeps (p : Pass) (h : Keeps s u) : Keeps s (passOk p u) := by
  unfold passOk
  repeat' first | with_reducible assumption | simp only [Keeps.upd] | with_reducible apply releaseStaged_keeps
                | with_reducible apply fillAdvance_keeps | with_reducible apply cacheSafe_keeps
                | with_reducible apply relocDone_keeps | with_reducible refine each_keeps (fun _ _ _ => ?_) _ ?_
                | with_reducible refine upTo_keeps (fun _ _ _ => ?_) _ ?_ | with_reducible apply Keeps.ite | split

theorem entryOk_keeps (seq : ℕ) (gen : ℕ) (e : StgEntry × ℕ) (h : Keeps s u) : Keeps s (entryOk seq gen e u) := by
  unfold entryOk
  repeat' first | with_reducible assumption | simp only [Keeps.upd] | with_reducible apply salvResume_keeps
                | with_reducible apply cacheSafe_keeps | with_reducible apply groupEnd_keeps
                | with_reducible refine each_keeps (fun _ _ _ => ?_) _ ?_ | with_reducible apply Keeps.ite | split

theorem stagingOk_keeps (p : Pass) (seq : ℕ) (h : Keeps s u) : Keeps s (stagingOk p seq u) := by
  unfold stagingOk
  repeat' first | with_reducible assumption | with_reducible apply entriesEnd_keeps | with_reducible apply resumeOps_keeps
                | with_reducible apply dropPass_keeps | with_reducible apply entryOk_keeps
                | with_reducible refine each_keeps (fun _ _ _ => ?_) _ ?_

theorem passFailed_keeps (p : Pass) (st : ℕ) (h : Keeps s u) : Keeps s (passFailed p st u) := by
  unfold passFailed
  repeat' first | with_reducible assumption | simp only [Keeps.upd] | with_reducible apply cruiseLeave_keeps
                | with_reducible apply stagingLost_keeps | with_reducible apply dropPass_keeps
                | with_reducible apply salvHalt_keeps | with_reducible apply setPass_keeps | with_reducible apply report_keeps
                | with_reducible apply opEnd_keeps | split

theorem salvDone_keeps (i : ℕ) (h : Keeps s u) : Keeps s (salvDone i u) := by
  unfold salvDone
  repeat' first | with_reducible assumption | with_reducible apply salvLeave_keeps | with_reducible apply put_keeps

theorem passEndOk_keeps (p : Pass) (h : Keeps s u) : Keeps s (passEndOk p u) := by
  unfold passEndOk
  repeat' first | with_reducible assumption | dsimp only | with_reducible apply cruiseLeave_keeps
                | with_reducible apply resumeOps_keeps | with_reducible apply stagingOk_keeps
                | with_reducible apply salvDone_keeps | with_reducible apply passOk_keeps | with_reducible apply opEnd_keeps
                | split

theorem countUnrec_keeps  (h : Keeps s u) : Keeps s (countUnrec u) := by
  unfold countUnrec
  repeat' first | with_reducible assumption | with_reducible apply count_keeps

theorem ladderRebuild_keeps (c : ℕ) (r : StripeRd) (h : Keeps s u) : Keeps s (ladderRebuild c r u) := by
  unfold ladderRebuild
  repeat' first | with_reducible assumption | simp only [Keeps.upd] | with_reducible apply sectorFinal_keeps
                | with_reducible apply ladderStep_keeps | with_reducible apply countUnrec_keeps
                | with_reducible apply freeCtx_keeps | with_reducible apply deliver_keeps | with_reducible apply setCtx_keeps
                | with_reducible apply put_keeps | with_reducible apply Keeps.ite | split

theorem stagedGive_keeps (o : ℕ) (i : ℕ) (slot : ℕ) (seq : ℕ) (r : StripeRd) (h : Keeps s u) :
    Keeps s (stagedGive o i slot seq r u) := by
  unfold stagedGive
  repeat' first | with_reducible assumption | dsimp only | with_reducible apply countUnrec_keeps
                | with_reducible apply unitUnrec_keeps | with_reducible apply unitGive_keeps
                | with_reducible apply unitEnd_keeps | with_reducible apply Keeps.ite | split

theorem synBegin_keeps (a : ℕ) (z : ℕ) (h : Keeps s u) : Keeps s (synBegin a z u) := by
  unfold synBegin
  repeat' first | with_reducible assumption | dsimp only | with_reducible apply permitFall_keeps
                | with_reducible apply setLane_keeps | with_reducible apply setSyn_keeps | with_reducible apply put_keeps
                | with_reducible refine each_keeps (fun _ _ _ => ?_) _ ?_ | with_reducible apply Keeps.ite | split

theorem synTuneTo_keeps (a : ℕ) (z : ℕ) (h : Keeps s u) : Keeps s (synTuneTo a z u) := by
  unfold synTuneTo
  repeat' first | with_reducible assumption | dsimp only | with_reducible apply synBegin_keeps
                | with_reducible apply setSyn_keeps | with_reducible apply put_keeps | with_reducible apply Keeps.ite

theorem synForOp_keeps (a : ℕ) (z : ℕ) (h : Keeps s u) : Keeps s (synForOp a z u) := by
  unfold synForOp
  repeat' first | with_reducible assumption | with_reducible apply synTuneTo_keeps | with_reducible apply Keeps.ite

theorem seekTune_keeps (a : ℕ) (t : ℕ) (h : Keeps s u) : Keeps s (seekTune a t u) := by
  unfold seekTune
  repeat' first | with_reducible assumption | simp only [Keeps.upd] | with_reducible apply synForOp_keeps
                | with_reducible apply Keeps.ite | split

theorem synWait_keeps (n : ℕ) (z : ℕ) (h : Keeps s u) : Keeps s (synWait n z u) := by
  unfold synWait
  repeat' first | with_reducible assumption | dsimp only | with_reducible apply synForOp_keeps
                | with_reducible apply setSyn_keeps | with_reducible apply Keeps.ite

theorem heatRdSend_keeps (a : ℕ) (hs : List ℕ) (h : Keeps s u) : Keeps s (heatRdSend a hs u) := by
  unfold heatRdSend
  repeat' first | with_reducible assumption | dsimp only | with_reducible apply sendFrame_keeps
                | with_reducible apply setLink_keeps | with_reducible refine upTo_keeps (fun _ _ _ => ?_) _ ?_
                | with_reducible apply Keeps.ite

theorem heatOwed_keeps (a : ℕ) (h : Keeps s u) : Keeps s (heatOwed a u) := by
  unfold heatOwed
  repeat' first | with_reducible assumption | dsimp only | with_reducible apply heatRdSend_keeps
                | with_reducible apply setLink_keeps | with_reducible apply Keeps.ite

theorem readOpEnd_keeps (n : ℕ) (h : Keeps s u) : Keeps s (readOpEnd n u) := by
  unfold readOpEnd
  repeat' first | with_reducible assumption | simp only [Keeps.upd] | with_reducible apply drainEnd_keeps
                | with_reducible apply setLane_keeps | with_reducible apply put_keeps | with_reducible apply Keeps.ite

theorem sectorOut_keeps (n : ℕ) (w : ℕ) (soft : List Byte) (h : Keeps s u) : Keeps s (sectorOut n w soft u) := by
  unfold sectorOut
  repeat' first | with_reducible assumption | dsimp only | with_reducible apply releaseSlot_keeps
                | with_reducible apply poolSector_keeps | with_reducible apply wr_keeps | split

theorem readOpFail_keeps (n : ℕ) (st : ℕ) (h : Keeps s u) : Keeps s (readOpFail n st u) := by
  unfold readOpFail
  repeat' first | with_reducible assumption | dsimp only | with_reducible apply returnRest_keeps
                | with_reducible apply readOpEnd_keeps | with_reducible apply sectorOut_keeps | split

theorem profileWriteback_keeps (n : ℕ) (h : Keeps s u) : Keeps s (profileWriteback n u) := by
  unfold profileWriteback
  repeat' first | with_reducible assumption | dsimp only | with_reducible apply sramWrite_keeps | split

theorem readOpStop_keeps (n : ℕ) (h : Keeps s u) : Keeps s (readOpStop n u) := by
  unfold readOpStop
  repeat' first | with_reducible assumption | dsimp only | with_reducible apply profileWriteback_keeps
                | with_reducible apply returnRest_keeps | with_reducible apply readOpEnd_keeps
                | with_reducible apply Keeps.ite | split

theorem readOpCut_keeps (n : ℕ) (h : Keeps s u) : Keeps s (readOpCut n u) := by
  unfold readOpCut
  repeat' first | with_reducible assumption | simp only [Keeps.upd] | with_reducible apply readOpFail_keeps
                | with_reducible apply readOpStop_keeps | split

theorem senseFailed_keeps (a : ℕ) (hs : List ℕ) (h : Keeps s u) : Keeps s (senseFailed a hs u) := by
  unfold senseFailed
  repeat' first | with_reducible assumption | dsimp only | with_reducible apply setLink_keeps | with_reducible apply put_keeps
                | with_reducible apply Keeps.ite | split

theorem modeFailed_keeps (a : ℕ) (bad : List (ℕ × PendMode)) (h : Keeps s u) : Keeps s (modeFailed a bad u) := by
  unfold modeFailed
  repeat' first | with_reducible assumption | dsimp only | with_reducible apply senseFailed_keeps
                | with_reducible apply failHeads_keeps | with_reducible apply cutWrite_keeps
                | with_reducible apply setLink_keeps | with_reducible apply setLane_keeps
                | with_reducible refine each_keeps (fun _ _ _ => ?_) _ ?_
                | with_reducible refine foldl_keeps (fun _ _ _ => ?_) _ ?_ | with_reducible apply Keeps.ite | split

theorem persChange_keeps (h0 : ℕ) (p : ℕ) (keep : Option ℕ) (h : Keeps s u) : Keeps s (persChange h0 p keep u) := by
  unfold persChange
  repeat' first | with_reducible assumption | dsimp only | with_reducible apply searchOpen_keeps
                | with_reducible apply readOpCut_keeps | with_reducible apply cutWrite_keeps
                | with_reducible apply setLink_keeps | with_reducible apply setPers_keeps | with_reducible apply Keeps.ite
                | split

theorem execArm_keeps (a : ℕ) (keep : Option ℕ) (h : Keeps s u) : Keeps s (execArm a keep u) := by
  unfold execArm
  repeat' first | with_reducible assumption | dsimp only | with_reducible apply modeFailed_keeps
                | with_reducible apply persChange_keeps | with_reducible apply wkillFall_keeps
                | with_reducible apply setLink_keeps | with_reducible apply emit_keeps
                | with_reducible refine each_keeps (fun _ _ _ => ?_) _ ?_

theorem readForGate_keeps (h0 : ℕ) (acks : List (BitVec 8)) (h : Keeps s u) : Keeps s (readForGate h0 acks u) := by
  unfold readForGate
  repeat' first | with_reducible assumption | dsimp only | with_reducible apply ackFrames_keeps
                | with_reducible apply sendOnce_keeps | with_reducible apply setLink_keeps
                | with_reducible apply execArm_keeps | with_reducible refine foldl_keeps (fun _ _ _ => ?_) _ ?_
                | with_reducible apply Keeps.ite

theorem readOpStart_keeps (n : ℕ) (o : ReadOp) (h : Keeps s u) : Keeps s (readOpStart n o u) := by
  unfold readOpStart
  repeat' first | with_reducible assumption | dsimp only | with_reducible apply setLane_keeps
                | with_reducible apply synWait_keeps | with_reducible apply put_keeps | with_reducible apply Keeps.ite

theorem rroFetch_keeps (a : ℕ) (w : ℕ) (h : Keeps s u) : Keeps s (rroFetch a w u) := by
  unfold rroFetch
  repeat' first | with_reducible assumption | dsimp only | with_reducible apply reportAt_keeps
                | with_reducible apply setArm_keeps | with_reducible refine each_keeps (fun _ _ _ => ?_) _ ?_
                | with_reducible apply Keeps.ite

theorem rroAhead_keeps (a : ℕ) (w : ℕ) (h : Keeps s u) : Keeps s (rroAhead a w u) := by
  unfold rroAhead
  repeat' first | with_reducible assumption | dsimp only | with_reducible apply rroFetch_keeps
                | with_reducible apply setArm_keeps | with_reducible apply Keeps.ite

theorem toSettle_keeps (a : ℕ) (h : Keeps s u) : Keeps s (toSettle a u) := by
  unfold toSettle
  repeat' first | with_reducible assumption | dsimp only | with_reducible apply acqHeads_keeps
                | with_reducible apply setMode_keeps | with_reducible apply setArm_keeps

theorem toSeek_keeps (a : ℕ) (h : Keeps s u) : Keeps s (toSeek a u) := by
  unfold toSeek
  repeat' first | with_reducible assumption | dsimp only | with_reducible apply acqHeads_keeps
                | with_reducible apply untrack_keeps | with_reducible apply setMode_keeps | with_reducible apply setArm_keeps

theorem goTo_keeps (a : ℕ) (t : ℕ) (h : Keeps s u) : Keeps s (goTo a t u) := by
  unfold goTo
  repeat' first | with_reducible assumption | dsimp only | with_reducible apply toSettle_keeps
                | with_reducible apply setArm_keeps | with_reducible apply toSeek_keeps | with_reducible apply Keeps.ite

theorem writeStart_keeps (a : ℕ) (x : Item) (h : Keeps s u) : Keeps s (writeStart a x u) := by
  unfold writeStart
  repeat' first | with_reducible assumption | simp only [Keeps.upd] | with_reducible apply synForOp_keeps
                | with_reducible apply setWbuf_keeps | with_reducible apply stgStat_keeps | with_reducible apply setWop_keeps
                | with_reducible apply rebind_keeps | with_reducible apply put_keeps
                | with_reducible refine each_keeps (fun _ _ _ => ?_) _ ?_ | with_reducible apply Keeps.ite

theorem setHeadWr_keeps (a : ℕ) (h0 : ℕ) (x : HeadWr) (h : Keeps s u) : Keeps s (setHeadWr a h0 x u) := by
  unfold setHeadWr
  repeat' first | with_reducible assumption | simp only [Keeps.upd] | with_reducible apply setWop_keeps | split

theorem headWriteEnd_keeps (o : WriteOp) (h0 : ℕ) (x : HeadWr) (h : Keeps s u) : Keeps s (headWriteEnd o h0 x u) := by
  unfold headWriteEnd
  repeat' first | with_reducible assumption | dsimp only | with_reducible apply raiseEvent_keeps
                | with_reducible apply setWbuf_keeps | with_reducible apply count_keeps | with_reducible apply put_keeps
                | with_reducible apply wr_keeps | with_reducible apply Keeps.ite | split

theorem decide'_keeps (x : Item) (a : ℕ) (solo : Bool) (h : Keeps s u) : Keeps s (decide' x a solo u) := by
  unfold decide'
  repeat' first | with_reducible assumption | simp only [Keeps.upd] | with_reducible apply govLimits_keeps
                | with_reducible apply setItem_keeps | with_reducible apply count_keeps | with_reducible apply put_keeps
                | with_reducible apply Keeps.ite

theorem tryItems_keeps (a : ℕ) (l : List Item) : ∀ {u : State}, Keeps s u → Keeps s (tryItems a l u).2 := by
  induction l with
  | nil => exact fun h => h
  | cons x l ih =>
    intro u h
    unfold tryItems
    split
    · dsimp only; exact decide'_keeps x a false h
    · dsimp only; exact decide'_keeps x a true h
    · exact ih (noFit_keeps h)

theorem tryItems_of {a : ℕ} {l : List Item} {x : Bool} {t : State} (h : Keeps s u) (he0 : tryItems a l u = (x, t)) :
    Keeps s t := by
  have := tryItems_keeps a l h; rw [he0] at this; exact this

theorem tryLayers_keeps (a : ℕ) (l : List ((Item → Bool) × Option ℕ)) : ∀ {u : State}, Keeps s u → Keeps s (tryLayers a l u) := by
  induction l with
  | nil => exact fun h => h
  | cons g l ih =>
    intro u h
    have := tryItems_keeps a (offers u a g.1) h
    unfold tryLayers
    extract_lets
    split
    · split
      · exact Keeps.upd.2 this
      · exact this
    · exact ih this

theorem decideArm_keeps (a : ℕ) (h : Keeps s u) : Keeps s (decideArm a u) := by
  unfold decideArm
  repeat' first | with_reducible assumption | simp only [Keeps.upd] | with_reducible apply tryLayers_keeps
                | with_reducible apply tryItems_keeps | refine tryItems_of ?_ (by assumption) | with_reducible apply Keeps.ite
                | split

theorem replanSector_keeps (x : Item) (psa : ℕ) (h : Keeps s u) : Keeps s (replanSector x psa u) := by
  unfold replanSector
  repeat' first | with_reducible assumption | dsimp only | with_reducible apply ladderStep_keeps
                | with_reducible apply startRead_keeps | with_reducible apply setRead_keeps
                | with_reducible apply setCtx_keeps | with_reducible apply setOp_keeps | with_reducible apply Keeps.ite
                | split

theorem replanRead_keeps (x : Item) (h : Keeps s u) : Keeps s (replanRead x u) := by
  unfold replanRead
  repeat' first | with_reducible assumption | dsimp only | with_reducible apply replanSector_keeps
                | with_reducible apply dropItem_keeps | with_reducible apply addItem_keeps
                | with_reducible refine each_keeps (fun _ _ _ => ?_) _ ?_ | with_reducible apply Keeps.ite

theorem replanRetry_keeps (x : Item) (h : Keeps s u) : Keeps s (replanRetry x u) := by
  unfold replanRetry
  repeat' first | with_reducible assumption | dsimp only | with_reducible apply replanSector_keeps
                | with_reducible apply dropItem_keeps | with_reducible refine each_keeps (fun _ _ _ => ?_) _ ?_
                | with_reducible apply Keeps.ite | split

theorem replanPass_keeps (x : Item) (h : Keeps s u) : Keeps s (replanPass x u) := by
  unfold replanPass
  repeat' first | with_reducible assumption | dsimp only | with_reducible apply passReport_keeps
                | with_reducible apply passFailed_keeps | with_reducible apply passIssue_keeps
                | with_reducible apply dropItem_keeps | with_reducible apply Keeps.ite | split

theorem replan_keeps  (h : Keeps s u) : Keeps s (replan u) := by
  unfold replan
  repeat' first | with_reducible assumption | simp only [Keeps.upd] | with_reducible apply replanRetry_keeps
                | with_reducible apply replanRead_keeps | with_reducible apply replanPass_keeps
                | with_reducible refine each_keeps (fun _ _ _ => ?_) _ ?_ | with_reducible apply Keeps.ite | split

theorem execGeoLoad_keeps  (h : Keeps s u) : KeepsA s (execGeoLoad u) := by
  unfold execGeoLoad
  repeat' first | with_reducible assumption | with_reducible apply KeepsA.next | simp only [Keeps.upd]
                | with_reducible apply put_keeps | with_reducible apply KeepsA.ite | with_reducible apply Keeps.ite

theorem loadedGeometry_keeps (old : State) (h : Keeps s u) : Keeps s (loadedGeometry old u) := by
  unfold loadedGeometry
  repeat' first | with_reducible assumption | with_reducible apply eligibilityChanged_keeps
                | with_reducible apply unloadByMode_keeps | with_reducible apply raiseEvent_keeps
                | with_reducible apply judgeLink_keeps | with_reducible apply stgStat_keeps
                | with_reducible apply replan_keeps | with_reducible refine upTo_keeps (fun _ _ _ => ?_) _ ?_
                | with_reducible apply Keeps.ite

theorem execSprFenceHeadWrite_keeps (k : Fin 2) (w : BusW) (h : Keeps s u) : KeepsA s (execSprFenceHeadWrite k w u) := by
  unfold execSprFenceHeadWrite
  repeat' first | with_reducible assumption | with_reducible apply KeepsA.next | with_reducible apply eligibilityChanged_keeps
                | with_reducible apply busWrite_keeps | with_reducible apply replan_keeps

theorem execSprFenceArmWrite_keeps (w : BusW) (h : Keeps s u) : KeepsA s (execSprFenceArmWrite w u) := by
  unfold execSprFenceArmWrite
  repeat' first | with_reducible assumption | with_reducible apply KeepsA.next | with_reducible apply eligibilityChanged_keeps
                | with_reducible apply unloadByMode_keeps | with_reducible apply busWrite_keeps
                | with_reducible apply replan_keeps | with_reducible refine upTo_keeps (fun _ _ _ => ?_) _ ?_
                | with_reducible apply KeepsA.ite | with_reducible apply Keeps.ite

theorem corrective_keeps (a : ℕ) (pers : ℕ) (h : Keeps s u) : Keeps s (corrective a pers u) := by
  unfold corrective
  repeat' first | with_reducible assumption | dsimp only | with_reducible apply sendFrame_keeps
                | with_reducible apply setLink_keeps | with_reducible refine each_keeps (fun _ _ _ => ?_) _ ?_
                | with_reducible refine upTo_keeps (fun _ _ _ => ?_) _ ?_ | with_reducible apply Keeps.ite

theorem persCheck_keeps (a : ℕ) (pers : ℕ) (h : Keeps s u) : Keeps s (persCheck a pers u) := by
  unfold persCheck
  repeat' first | with_reducible assumption | dsimp only | with_reducible apply dropWperm_keeps
                | with_reducible apply setLink_keeps | with_reducible refine each_keeps (fun _ _ _ => ?_) _ ?_

theorem senseIdle_keeps (a : ℕ) (h : Keeps s u) : Keeps s (senseIdle a u) := by
  unfold senseIdle
  repeat' first | with_reducible assumption | with_reducible apply sendOnce_keeps
                | with_reducible refine each_keeps (fun _ _ _ => ?_) _ ?_ | with_reducible apply Keeps.ite

theorem muaMissCheck_keeps (a : ℕ) (miss : Bool) (h : Keeps s u) : Keeps s (muaMissCheck a miss u) := by
  unfold muaMissCheck
  repeat' first | with_reducible assumption | dsimp only | with_reducible apply dropWpermArm_keeps
                | with_reducible apply setLink_keeps | with_reducible apply count_keeps | with_reducible apply Keeps.ite

theorem wfaultCheck_keeps (a : ℕ) (wf : ℕ) (h : Keeps s u) : Keeps s (wfaultCheck a wf u) := by
  unfold wfaultCheck
  repeat' first | with_reducible assumption | dsimp only | with_reducible apply failHeads_keeps
                | with_reducible apply sendFrame_keeps | with_reducible apply cutWrite_keeps
                | with_reducible refine upTo_keeps (fun _ _ _ => ?_) _ ?_ | with_reducible apply Keeps.ite | split

theorem statTake_keeps (a : ℕ) (f : StatFrame) (h : Keeps s u) : Keeps s (statTake a f u) := by
  unfold statTake
  repeat' first | with_reducible assumption | dsimp only | with_reducible apply muaMissCheck_keeps
                | with_reducible apply ackFrames_keeps | with_reducible apply setLink_keeps | with_reducible apply put_keeps

theorem discUp_keeps (a : ℕ) (f : StatFrame) (h : Keeps s u) : Keeps s (discUp a f u) := by
  unfold discUp
  repeat' first | with_reducible assumption | dsimp only | with_reducible apply setLinkState_keeps
                | with_reducible apply servoLinkUp_keeps | with_reducible apply searchOpen_keeps
                | with_reducible apply judgeLink_keeps | with_reducible apply persCheck_keeps
                | with_reducible apply wantSend_keeps | with_reducible apply heatOwed_keeps
                | with_reducible apply setLink_keeps | with_reducible apply put_keeps
                | with_reducible refine each_keeps (fun _ _ _ => ?_) _ ?_ | with_reducible apply Keeps.ite

theorem resendAll_keeps (a : ℕ) (h : Keeps s u) : Keeps s (resendAll a u) := by
  unfold resendAll
  repeat' first | with_reducible assumption | dsimp only | with_reducible apply linkFail_keeps
                | with_reducible apply setLink_keeps | with_reducible apply emit_keeps
                | with_reducible refine each_keeps (fun _ _ _ => ?_) _ ?_ | with_reducible apply Keeps.ite

theorem discReply_keeps (a : ℕ) (first : ℕ) (got : List (ℕ × ℕ)) (h : Keeps s u) : Keeps s (discReply a first got u) := by
  unfold discReply
  repeat' first | with_reducible assumption | dsimp only | with_reducible apply discFail_keeps
                | with_reducible apply setLink_keeps | with_reducible apply put_keeps | with_reducible apply Keeps.ite | split

theorem execSenseStart_keeps (arm : Fin 4) (w : BusW) (h : Keeps s u) : KeepsA s (execSenseStart arm w u) := by
  unfold execSenseStart
  repeat' first | with_reducible assumption | with_reducible apply KeepsA.next | dsimp only
                | with_reducible apply busWrite_keeps | with_reducible apply setLink_keeps
                | with_reducible apply askPers_keeps | with_reducible apply put_keeps | with_reducible apply KeepsA.ite

theorem execPreampRegAccess_keeps (arm : Fin 4) (w : BusW) (h : Keeps s u) : KeepsA s (execPreampRegAccess arm w u) := by
  unfold execPreampRegAccess
  repeat' first | with_reducible assumption | with_reducible apply KeepsA.next | with_reducible apply sendFrame_keeps
                | with_reducible apply busWrite_keeps | with_reducible apply put_keeps | with_reducible apply KeepsA.ite

theorem execLinkEnable_keeps (arm : Fin 4) (w : BusW) (h : Keeps s u) : KeepsA s (execLinkEnable arm w u) := by
  unfold execLinkEnable
  repeat' first | with_reducible assumption | with_reducible apply KeepsA.next | dsimp only
                | with_reducible apply startDiscovery_keeps | with_reducible apply busWrite_keeps
                | with_reducible apply setLink_keeps | with_reducible apply KeepsA.ite

theorem execLinkDisable_keeps (arm : Fin 4) (w : BusW) (h : Keeps s u) : KeepsA s (execLinkDisable arm w u) := by
  unfold execLinkDisable
  repeat' first | with_reducible assumption | with_reducible apply KeepsA.next | dsimp only
                | with_reducible apply servoLinkDown_keeps | with_reducible apply dropWpermArm_keeps
                | with_reducible apply setLinkState_keeps | with_reducible apply clearFrames_keeps
                | with_reducible apply wkillFall_keeps | with_reducible apply condFalls_keeps
                | with_reducible apply busWrite_keeps | with_reducible apply setLink_keeps | with_reducible apply KeepsA.ite

theorem execLinkRetrain_keeps (arm : Fin 4) (w : BusW) (h : Keeps s u) : KeepsA s (execLinkRetrain arm w u) := by
  unfold execLinkRetrain
  repeat' first | with_reducible assumption | with_reducible apply KeepsA.next | with_reducible apply startDiscovery_keeps
                | with_reducible apply busWrite_keeps | with_reducible apply KeepsA.ite | with_reducible apply Keeps.ite

theorem imgCheck_keeps (p : ImgAt) (h : Keeps s u) : Keeps s (imgCheck p u).2 := by
  unfold imgCheck
  repeat' first | with_reducible assumption | with_reducible apply report_keeps | with_reducible apply Keeps.ite | split

theorem imgCheck_of {p : ImgAt} {x : Bool} {t : State} (h : Keeps s u) (he0 : imgCheck p u = (x, t)) : Keeps s t := by
  have := imgCheck_keeps p  h; rw [he0] at this; exact this

theorem segLoad_keeps (p : ImgAt) (g : Seg) (h : Keeps s u) : Keeps s (segLoad p g u) := by
  unfold segLoad
  extract_lets
  split
  · exact h.setLyo putBytes_ok
  · split
    · exact sramWrite_keeps _ _ h
    · exact h.setTcm putBytes_ok

theorem segsLoad_keeps (ly : Bool) (p : ImgAt) (h : Keeps s u) : Keeps s (segsLoad ly p u) := by
  unfold segsLoad
  repeat' first | with_reducible assumption | with_reducible apply segLoad_keeps
                | with_reducible refine each_keeps (fun _ _ _ => ?_) _ ?_

theorem selWrite_keeps (active : ℕ) (next : ℕ) (h : Keeps s u) : Keeps s (selWrite active next u) := by
  unfold selWrite
  repeat' first | with_reducible assumption | dsimp only | with_reducible apply norProgram_keeps
                | with_reducible apply norErase_keeps

theorem lifeSave_keeps  (h : Keeps s u) : Keeps s (lifeSave u) := by
  unfold lifeSave
  repeat' first | with_reducible assumption | simp only [Keeps.upd] | with_reducible apply norProgram_keeps
                | with_reducible apply norErase_keeps | with_reducible apply Keeps.ite

theorem dramSleep_keeps  (h : Keeps s u) : Keeps s (dramSleep u) := by
  unfold dramSleep
  repeat' first | with_reducible assumption | with_reducible apply put_keeps | with_reducible apply Keeps.ite

theorem dramWake_keeps  (h : Keeps s u) : Keeps s (dramWake u) := by
  unfold dramWake
  repeat' first | with_reducible assumption | with_reducible apply heldRun_keeps | with_reducible apply put_keeps
                | with_reducible apply Keeps.ite

theorem shockStart_keeps  (h : Keeps s u) : Keeps s (shockStart u) := by
  unfold shockStart
  repeat' first | with_reducible assumption | simp only [Keeps.upd] | with_reducible apply permitFall_keeps
                | with_reducible apply setShk_keeps | with_reducible apply put_keeps
                | with_reducible refine upTo_keeps (fun _ _ _ => ?_) _ ?_

theorem standbyWake_keeps  (h : Keeps s u) : Keeps s (standbyWake u) := by
  unfold standbyWake
  repeat' first | with_reducible assumption | with_reducible apply shockStart_keeps | with_reducible apply spmEnter_keeps
                | with_reducible apply dramWake_keeps | with_reducible apply put_keeps | with_reducible apply Keeps.ite

theorem inbound_keeps  (h : Keeps s u) : Keeps s (inbound u) := by
  unfold inbound
  repeat' first | with_reducible assumption | with_reducible apply standbyWake_keeps | with_reducible apply wakeLink_keeps

theorem aonExit_keeps  (h : Keeps s u) : Keeps s (aonExit u) := by
  unfold aonExit
  repeat' first | with_reducible assumption | simp only [Keeps.upd] | with_reducible apply put_keeps

theorem armOn_keeps (a : ℕ) (h : Keeps s u) : Keeps s (armOn a u) := by
  unfold armOn
  repeat' first | with_reducible assumption | dsimp only | with_reducible apply startDiscovery_keeps
                | with_reducible apply synTuneTo_keeps | with_reducible apply putFBit_keeps
                | with_reducible apply setLane_keeps | with_reducible apply put_keeps
                | with_reducible refine each_keeps (fun _ _ _ => ?_) _ ?_ | with_reducible apply Keeps.ite

theorem armOff_keeps (a : ℕ) (h : Keeps s u) : Keeps s (armOff a u) := by
  unfold armOff
  repeat' first | with_reducible assumption | dsimp only | with_reducible apply dropWpermArm_keeps
                | with_reducible apply setLinkState_keeps | with_reducible apply clearFrames_keeps
                | with_reducible apply wkillFall_keeps | with_reducible apply govLimits_keeps
                | with_reducible apply stopLoops_keeps | with_reducible apply readOpCut_keeps
                | with_reducible apply cutWrite_keeps | with_reducible apply putFBit_keeps
                | with_reducible apply setLink_keeps | with_reducible apply setSyn_keeps | with_reducible apply put_keeps
                | with_reducible refine each_keeps (fun _ _ _ => ?_) _ ?_

theorem hostDomainOff_keeps  (h : Keeps s u) : Keeps s (hostDomainOff u) := by
  unfold hostDomainOff
  repeat' first | with_reducible assumption | simp only [Keeps.upd] | with_reducible apply put_keeps

theorem powerLoss_keeps  (h : Keeps s u) : Keeps s (powerLoss u) := by
  unfold powerLoss
  repeat' first | with_reducible assumption | simp only [Keeps.upd] | with_reducible apply reportEvicted_keeps
                | with_reducible apply hostDomainOff_keeps | with_reducible apply spmPowerLoss_keeps
                | with_reducible apply retractCause_keeps | with_reducible apply yrdAbortAll_keeps
                | with_reducible apply standbyWake_keeps | with_reducible apply permitFall_keeps
                | with_reducible apply dumpStart_keeps | with_reducible apply armOff_keeps | with_reducible apply put_keeps
                | with_reducible refine upTo_keeps (fun _ _ _ => ?_) _ ?_ | with_reducible apply Keeps.ite

theorem nandProgram_keeps (row : ℕ) (b : List Byte) (h : Keeps s u) : Keeps s (nandProgram row b u) := by
  unfold nandProgram
  repeat' first | with_reducible assumption | simp only [Keeps.upd] | with_reducible apply emit_keeps

theorem loadProfile_keeps (n : ℕ) (z : ℕ) (base : ℕ) (h : Keeps s u) : Keeps s (loadProfile n z base u) := by
  unfold loadProfile
  repeat' first | with_reducible assumption | dsimp only | with_reducible apply setLane_keeps
                | with_reducible apply hold_keeps | with_reducible apply put_keeps | with_reducible apply wr_keeps
                | with_reducible refine upTo_keeps (fun _ _ _ => ?_) _ ?_

theorem gateStart_keeps (n : ℕ) (o : ReadOp) (first : Bool) (h : Keeps s u) : Keeps s (gateStart n o first u) := by
  unfold gateStart
  repeat' first | with_reducible assumption | dsimp only | with_reducible apply setLane_keeps | with_reducible apply put_keeps
                | with_reducible apply Keeps.ite

theorem chanRegs_keeps (n : ℕ) (h0 : Chan) (h : Keeps s u) : Keeps s (chanRegs n h0 u) := by
  unfold chanRegs
  repeat' first | with_reducible assumption | with_reducible apply put2_keeps | with_reducible apply put_keeps
                | with_reducible refine upTo_keeps (fun _ _ _ => ?_) _ ?_ | with_reducible apply Keeps.ite

theorem sectorRegs_keeps (n : ℕ) (z : ℕ) (runs : List (ℕ × ℕ)) (h0 : Chan) (moves : List SubTrim) (h : Keeps s u) :
    Keeps s (sectorRegs n z runs h0 moves u) := by
  unfold sectorRegs
  repeat' first | with_reducible assumption | dsimp only | with_reducible apply chanRegs_keeps
                | with_reducible apply setLane_keeps | with_reducible apply countN_keeps | with_reducible apply wr_keeps
                | with_reducible refine upTo_keeps (fun _ _ _ => ?_) _ ?_

theorem splitWrite_keeps (h0 : ℕ) (pos : ℤ) (h : Keeps s u) : Keeps s (splitWrite h0 pos u) := by
  unfold splitWrite
  repeat' first | with_reducible assumption | dsimp only | with_reducible apply setWop_keeps | with_reducible apply emit_keeps
                | with_reducible apply put_keeps | with_reducible apply Keeps.ite | split

theorem splitRead_keeps (n : ℕ) (pos : ℤ) (h : Keeps s u) : Keeps s (splitRead n pos u) := by
  unfold splitRead
  repeat' first | with_reducible assumption | dsimp only | with_reducible apply setLane_keeps | with_reducible apply Keeps.ite

theorem execLaneCalRequest_keeps (n : Fin 64) (h : Keeps s u) : KeepsA s (execLaneCalRequest n u) := by
  unfold execLaneCalRequest
  repeat' first | with_reducible assumption | with_reducible apply KeepsA.next | with_reducible apply govLimits_keeps
                | with_reducible apply put_keeps | with_reducible apply KeepsA.ite | with_reducible apply Keeps.ite

theorem execSynTune_keeps (arm : Fin 4) (w : BusW) (h : Keeps s u) : KeepsA s (execSynTune arm w u) := by
  unfold execSynTune
  repeat' first | with_reducible assumption | with_reducible apply KeepsA.next | with_reducible apply synTuneTo_keeps
                | with_reducible apply busWrite_keeps | with_reducible apply put_keeps | with_reducible apply KeepsA.ite
                | with_reducible apply Keeps.ite

theorem synLost_keeps (pend : ℕ) (fc3 : ℕ) (a : ℕ) (h : Keeps s u) : Keeps s (synLost pend fc3 a u) := by
  unfold synLost
  repeat' first | with_reducible assumption | with_reducible apply raiseEvent_keeps | with_reducible apply permitFall_keeps
                | with_reducible apply readOpFail_keeps | with_reducible apply readOpStop_keeps
                | with_reducible apply reportAt_keeps | with_reducible apply put_keeps
                | with_reducible refine each_keeps (fun _ _ _ => ?_) _ ?_ | with_reducible apply Keeps.ite

theorem loadWrProfile_keeps (a : ℕ) (z : ℕ) (h0 : ℕ) (x : HeadWr) (h : Keeps s u) : Keeps s (loadWrProfile a z h0 x u) := by
  unfold loadWrProfile
  repeat' first | with_reducible assumption | dsimp only | with_reducible apply setHeadWr_keeps
                | with_reducible apply report_keeps | with_reducible apply put_keeps | with_reducible apply wr_keeps
                | with_reducible apply Keeps.ite

theorem writeFault_keeps (a : ℕ) (sts : List ℕ) (psa : ℕ) (h : Keeps s u) : Keeps s (writeFault a sts psa u) := by
  unfold writeFault
  repeat' first | with_reducible assumption | dsimp only | with_reducible apply report_keeps | split

theorem slotEcc_keeps (ecc : Ecc) (h : Keeps s u) : Keeps s (slotEcc ecc u) := by
  unfold slotEcc
  repeat' first | with_reducible assumption | with_reducible apply report_keeps | with_reducible apply count_keeps
                | with_reducible apply Keeps.ite

theorem copyBad_keeps (c : ℕ) (x : Ctx) (hd : ℕ) (h : Keeps s u) : Keeps s (copyBad c x hd u) := by
  unfold copyBad
  repeat' first | with_reducible assumption | simp only [Keeps.upd] | with_reducible apply nonMediaFail_keeps
                | with_reducible apply freeCtx_keeps

theorem execDecFenceWrite_keeps (w : BusW) (h : Keeps s u) : KeepsA s (execDecFenceWrite w u) := by
  unfold execDecFenceWrite
  repeat' first | with_reducible assumption | with_reducible apply KeepsA.next | with_reducible apply fenceChange_keeps
                | with_reducible apply busWrite_keeps | with_reducible apply drFail_keeps

theorem execDecBistStart_keeps (w : BusW) (h : Keeps s u) : KeepsA s (execDecBistStart w u) := by
  unfold execDecBistStart
  repeat' first | with_reducible assumption | with_reducible apply KeepsA.next | simp only [Keeps.upd]
                | with_reducible apply busWrite_keeps | with_reducible apply put_keeps | with_reducible apply KeepsA.ite
                | with_reducible apply Keeps.ite

theorem thetaUpdate_keeps (h0 : ℕ) (w : ℕ) (h : Keeps s u) : Keeps s (thetaUpdate h0 w u) := by
  unfold thetaUpdate
  repeat' first | with_reducible assumption | dsimp only | with_reducible apply setArm_keeps | with_reducible apply put_keeps
                | with_reducible apply Keeps.ite

theorem missWedge_keeps (h0 : ℕ) (h : Keeps s u) : Keeps s (missWedge h0 u) := by
  unfold missWedge
  repeat' first | with_reducible assumption | dsimp only | with_reducible apply dropWperm_keeps
                | with_reducible apply rroAhead_keeps | with_reducible apply setHead_keeps | with_reducible apply count_keeps
                | with_reducible apply put2_keeps | split

theorem wedgeLock_keeps (h0 : ℕ) (w : Wedge) (h : Keeps s u) : Keeps s (wedgeLock h0 w u) := by
  unfold wedgeLock
  repeat' first | with_reducible assumption | with_reducible apply setHst_keeps | with_reducible apply put2_keeps
                | with_reducible apply Keeps.ite

theorem wedgeRecord_keeps (h0 : ℕ) (w : Wedge) (agree : ℕ) (h : Keeps s u) : Keeps s (wedgeRecord h0 w agree u) := by
  unfold wedgeRecord
  repeat' first | with_reducible assumption | dsimp only | with_reducible apply setHead_keeps | with_reducible apply put2_keeps

theorem setStep_keeps (a : ℕ) (ev : ℤ) (h : Keeps s u) : Keeps s (setStep a ev u) := by
  unfold setStep
  repeat' first | with_reducible assumption | dsimp only | with_reducible apply setHead_keeps
                | with_reducible apply setArm_keeps | with_reducible refine each_keeps (fun _ _ _ => ?_) _ ?_
                | with_reducible apply Keeps.ite

theorem vcmOut_keeps (a : ℕ) (c : ℤ) (ff : ℤ) (x : ArmSrv) (h : Keeps s u) : Keeps s (vcmOut a c ff x u) := by
  unfold vcmOut
  repeat' first | with_reducible assumption | dsimp only | with_reducible apply setArm_keeps | with_reducible apply setVcm_keeps

theorem settleVcm_keeps (a : ℕ) (ev : ℤ) (ff : ℤ) (h : Keeps s u) : Keeps s (settleVcm a ev ff u) := by
  unfold settleVcm
  repeat' first | with_reducible assumption | dsimp only | with_reducible apply vcmOut_keeps

theorem vcmGroup_keeps (a : ℕ) (any : Bool) (ev : ℤ) (v : ℤ) (pbar : Option ℤ) (h : Keeps s u) :
    Keeps s (vcmGroup a any ev v pbar u) := by
  unfold vcmGroup
  repeat' first | with_reducible assumption | dsimp only | with_reducible apply settleVcm_keeps
                | with_reducible apply toSettle_keeps | with_reducible apply vcmOut_keeps | with_reducible apply Keeps.ite

theorem maGroup_keeps (a : ℕ) (h0 : ℕ) (h : Keeps s u) : Keeps s (maGroup a h0 u) := by
  unfold maGroup
  repeat' first | with_reducible assumption | dsimp only | with_reducible apply setHead_keeps
                | with_reducible apply setHst_keeps | with_reducible apply put2_keeps | with_reducible apply Keeps.ite

theorem permGroup_keeps (h0 : ℕ) (h : Keeps s u) : Keeps s (permGroup h0 u) := by
  unfold permGroup
  repeat' first | with_reducible assumption | dsimp only | with_reducible apply dropWperm_keeps
                | with_reducible apply setHead_keeps | with_reducible apply Keeps.ite

theorem fenceGroup_keeps (a : ℕ) (h : Keeps s u) : Keeps s (fenceGroup a u) := by
  unfold fenceGroup
  repeat' first | with_reducible assumption | with_reducible apply headSearch_keeps | with_reducible apply headOff_keeps
                | with_reducible refine each_keeps (fun _ _ _ => ?_) _ ?_ | with_reducible apply Keeps.ite

theorem groupControl_keeps (a : ℕ) (isense : BitVec 12) (h : Keeps s u) : Keeps s (groupControl a isense u) := by
  unfold groupControl
  repeat' first | with_reducible assumption | dsimp only | with_reducible apply setTracking_keeps
                | with_reducible apply fenceGroup_keeps | with_reducible apply latchHofs_keeps
                | with_reducible apply seekTune_keeps | with_reducible apply toSettle_keeps
                | with_reducible apply vcmGroup_keeps | with_reducible apply setStep_keeps
                | with_reducible apply maGroup_keeps | with_reducible apply setArm_keeps | with_reducible apply setVcm_keeps
                | with_reducible apply put_keeps | with_reducible refine each_keeps (fun _ _ _ => ?_) _ ?_
                | with_reducible refine foldl_keeps (fun _ _ _ => ?_) _ ?_ | with_reducible apply Keeps.ite

theorem groupCount_keeps (a : ℕ) (h : Keeps s u) : Keeps s (groupCount a u) := by
  unfold groupCount
  repeat' first | with_reducible assumption | with_reducible apply put_keeps

theorem groupSend_keeps (a : ℕ) (h : Keeps s u) : Keeps s (groupSend a u) := by
  unfold groupSend
  repeat' first | with_reducible assumption | dsimp only | with_reducible apply setLink_keeps
                | with_reducible apply setHead_keeps | with_reducible apply put2_keeps | with_reducible apply emit_keeps
                | with_reducible refine each_keeps (fun _ _ _ => ?_) _ ?_ | with_reducible apply Keeps.ite

theorem mechFollows_keeps  (h : Keeps s u) : Keeps s (mechFollows u) := by
  unfold mechFollows
  repeat' first | with_reducible assumption | with_reducible apply put_keeps | with_reducible apply Keeps.ite

theorem execSrvLoad_keeps (arm' : Fin 4) (h : Keeps s u) : KeepsA s (execSrvLoad arm' u) := by
  unfold execSrvLoad
  repeat' first | with_reducible assumption | with_reducible apply KeepsA.next | dsimp only
                | with_reducible apply startLoading_keeps | with_reducible apply setArm_keeps | with_reducible apply put_keeps
                | with_reducible apply KeepsA.ite | with_reducible apply Keeps.ite

theorem execSrvUnload_keeps (arm' : Fin 4) (h : Keeps s u) : KeepsA s (execSrvUnload arm' u) := by
  unfold execSrvUnload
  repeat' first | with_reducible assumption | with_reducible apply KeepsA.next | with_reducible apply unloadByMode_keeps

theorem execSrvGo_keeps (arm' : Fin 4) (w : BusW) (h : Keeps s u) : KeepsA s (execSrvGo arm' w u) := by
  unfold execSrvGo
  repeat' first | with_reducible assumption | with_reducible apply KeepsA.next | dsimp only
                | with_reducible apply busWrite_keeps | with_reducible apply setArm_keeps | with_reducible apply goTo_keeps
                | with_reducible apply put_keeps | with_reducible apply KeepsA.ite | with_reducible apply Keeps.ite

theorem execCoefSwap_keeps (arm' : Fin 4) (h : Keeps s u) : KeepsA s (execCoefSwap arm' u) := by
  unfold execCoefSwap
  repeat' first | with_reducible assumption | with_reducible apply KeepsA.next | with_reducible apply put_keeps

theorem seekTab_keeps (a : ℕ) (dist : ℕ) (t : ℕ) (h : Keeps s u) : Keeps s (seekTab a dist t u) := by
  unfold seekTab
  repeat' first | with_reducible assumption | with_reducible apply put2_keeps | with_reducible apply Keeps.ite

theorem shockFall_keeps  (h : Keeps s u) : Keeps s (shockFall u) := by
  unfold shockFall
  repeat' first | with_reducible assumption | simp only [Keeps.upd] | with_reducible apply undecideWrites_keeps
                | with_reducible apply raiseEvent_keeps | with_reducible apply permitFall_keeps
                | with_reducible apply tallyDev_keeps | with_reducible apply count_keeps | with_reducible apply put_keeps
                | with_reducible refine upTo_keeps (fun _ _ _ => ?_) _ ?_ | with_reducible apply Keeps.ite

theorem setBase_keeps (c : ℕ) (b : ℤ) (h : Keeps s u) : Keeps s (setBase c b u) := by
  unfold setBase
  repeat' first | with_reducible assumption | dsimp only | with_reducible apply setShk_keeps | with_reducible apply put_keeps

theorem shockTake_keeps (c : ℕ) (v : ℤ) (h : Keeps s u) : Keeps s (shockTake c v u) := by
  unfold shockTake
  repeat' first | with_reducible assumption | dsimp only | with_reducible apply condFalls_keeps
                | with_reducible apply putFBit_keeps | with_reducible apply setShk_keeps | with_reducible apply Keeps.ite

theorem shockGather_keeps (c : ℕ) (v : ℤ) (h : Keeps s u) : Keeps s (shockGather c v u) := by
  unfold shockGather
  repeat' first | with_reducible assumption | dsimp only | with_reducible apply setShk_keeps | with_reducible apply Keeps.ite

theorem shockTrack_keeps (c : ℕ) (v : ℤ) (h : Keeps s u) : Keeps s (shockTrack c v u) := by
  unfold shockTrack
  repeat' first | with_reducible assumption | dsimp only | with_reducible apply putFBit_keeps
                | with_reducible apply setBase_keeps | with_reducible apply setShk_keeps | with_reducible apply put_keeps
                | with_reducible apply Keeps.ite

theorem spmFail_keeps (code : ℕ) (row : ℕ) (h : Keeps s u) : Keeps s (spmFail code row u) := by
  unfold spmFail
  repeat' first | with_reducible assumption | simp only [Keeps.upd] | with_reducible apply raiseEvent_keeps
                | with_reducible apply gatesOff_keeps | with_reducible apply spmEnter_keeps
                | with_reducible apply report_keeps | with_reducible apply put_keeps

theorem spmTrip_keeps (row : ℕ) (h : Keeps s u) : Keeps s (spmTrip row u) := by
  unfold spmTrip
  repeat' first | with_reducible assumption | simp only [Keeps.upd] | with_reducible apply raiseEvent_keeps
                | with_reducible apply spmCoast_keeps | with_reducible apply spmFail_keeps | with_reducible apply report_keeps
                | with_reducible apply count_keeps | with_reducible apply Keeps.ite

theorem pwmRun_keeps (k : PwmKind) (d : List ℤ) (h : Keeps s u) : Keeps s (pwmRun k d u) := by
  unfold pwmRun
  repeat' first | with_reducible assumption | simp only [Keeps.upd]

theorem pwmBegin_keeps (d : List ℤ) (h : Keeps s u) : Keeps s (pwmBegin d u) := by
  unfold pwmBegin
  repeat' first | with_reducible assumption | with_reducible apply pwmRun_keeps | with_reducible apply put_keeps

theorem dutiesOf_keeps (t0 : ℤ) (vd : ℤ) (vq : ℤ) (h : Keeps s u) : Keeps s (dutiesOf t0 vd vq u).2 := by
  unfold dutiesOf
  repeat' first | with_reducible assumption | with_reducible apply put_keeps | with_reducible apply Keeps.ite

theorem dutiesOf_of {t0 : ℤ} {vd : ℤ} {vq : ℤ} {x : List ℤ} {t : State} (h : Keeps s u) (he0 : dutiesOf t0 vd vq u = (x, t)) :
    Keeps s t := by
  have := dutiesOf_keeps t0 vd vq  h; rw [he0] at this; exact this

theorem pwmSample_keeps (i : List ℤ) (h : Keeps s u) : Keeps s (pwmSample i u) := by
  unfold pwmSample
  repeat' first | with_reducible assumption | simp only [Keeps.upd] | with_reducible apply put_keeps

theorem currentLoop_keeps  (h : Keeps s u) : Keeps s (currentLoop u) := by
  unfold currentLoop
  repeat' first | with_reducible assumption | simp only [Keeps.upd]

theorem openCheck_keeps  (h : Keeps s u) : Keeps s (openCheck u) := by
  unfold openCheck
  repeat' first | with_reducible assumption | simp only [Keeps.upd] | with_reducible apply Keeps.ite

theorem execSpmStart_keeps (vs : List Abc) (h : Keeps s u) : KeepsA s (execSpmStart vs u) := by
  unfold execSpmStart
  repeat' first | with_reducible assumption | with_reducible apply KeepsA.next | simp only [Keeps.upd]
                | with_reducible apply gatesOff_keeps | with_reducible apply spmEnter_keeps | with_reducible apply put_keeps
                | with_reducible apply KeepsA.ite | with_reducible apply Keeps.ite

theorem execSpmStop_keeps  (h : Keeps s u) : KeepsA s (execSpmStop u) := by
  unfold execSpmStop
  repeat' first | with_reducible assumption | with_reducible apply KeepsA.next | simp only [Keeps.upd]
                | with_reducible apply spmEnter_keeps | with_reducible apply put_keeps | with_reducible apply KeepsA.ite
                | with_reducible apply Keeps.ite

theorem spmAngle_keeps (theta : ℕ) (h : Keeps s u) : Keeps s (spmAngle theta u) := by
  unfold spmAngle
  repeat' first | with_reducible assumption | simp only [Keeps.upd] | with_reducible apply thetaSpindle_keeps
                | with_reducible apply put_keeps | with_reducible apply Keeps.ite

theorem pwmObserve_keeps (n : ℕ) (h : Keeps s u) : Keeps s (pwmObserve n u) := by
  unfold pwmObserve
  repeat' first | with_reducible assumption | simp only [Keeps.upd] | with_reducible apply spmAngle_keeps
                | with_reducible apply Keeps.ite

theorem genEnter_keeps  (h : Keeps s u) : Keeps s (genEnter u) := by
  unfold genEnter
  repeat' first | with_reducible assumption | simp only [Keeps.upd] | with_reducible apply spmEnter_keeps
                | with_reducible apply Keeps.ite

theorem pwmClock_keeps  (h : Keeps s u) : Keeps s (pwmClock u) := by
  unfold pwmClock
  repeat' first | with_reducible assumption | simp only [Keeps.upd]

theorem brakeLow_keeps  (h : Keeps s u) : Keeps s (brakeLow u) := by
  unfold brakeLow
  repeat' first | with_reducible assumption | simp only [Keeps.upd] | with_reducible apply put_keeps

theorem pwmLoop_keeps (n : ℕ) (adc : Abc) (h : Keeps s u) : Keeps s (pwmLoop n adc u) := by
  unfold pwmLoop
  repeat' first | with_reducible assumption | simp only [Keeps.upd] | with_reducible apply currentLoop_keeps
                | with_reducible apply pwmObserve_keeps | with_reducible apply pwmSample_keeps
                | with_reducible apply openCheck_keeps | with_reducible apply pwmBegin_keeps
                | with_reducible apply dutiesOf_keeps | refine dutiesOf_of ?_ (by assumption)
                | with_reducible apply brakeLow_keeps | with_reducible apply spmTrip_keeps | with_reducible apply pwmRun_keeps
                | with_reducible apply Keeps.ite

theorem speedLoop_keeps (speed : ℤ) (h : Keeps s u) : Keeps s (speedLoop speed u) := by
  unfold speedLoop
  repeat' first | with_reducible assumption | simp only [Keeps.upd]

theorem spinChecks_keeps (speed : ℕ) (h : Keeps s u) : Keeps s (spinChecks speed u) := by
  unfold spinChecks
  repeat' first | with_reducible assumption | with_reducible apply unloadByMode_keeps | with_reducible apply startUnload_keeps
                | with_reducible apply raiseEvent_keeps | with_reducible apply put_keeps
                | with_reducible refine each_keeps (fun _ _ _ => ?_) _ ?_
                | with_reducible refine upTo_keeps (fun _ _ _ => ?_) _ ?_ | with_reducible apply Keeps.ite

theorem atSpeedCheck_keeps (speed : ℕ) (h : Keeps s u) : Keeps s (atSpeedCheck speed u) := by
  unfold atSpeedCheck
  repeat' first | with_reducible assumption | simp only [Keeps.upd] | with_reducible apply atSpeedFall_keeps
                | with_reducible apply Keeps.ite

theorem syncCount_keeps  (h : Keeps s u) : Keeps s (syncCount u) := by
  unfold syncCount
  repeat' first | with_reducible assumption | simp only [Keeps.upd]

theorem handOverRun_keeps (err : ℤ) (h : Keeps s u) : Keeps s (handOverRun err u) := by
  unfold handOverRun
  repeat' first | with_reducible assumption | simp only [Keeps.upd] | with_reducible apply spmEnter_keeps

theorem engage_keeps (st : ℕ) (h : Keeps s u) : Keeps s (engage st u) := by
  unfold engage
  repeat' first | with_reducible assumption | simp only [Keeps.upd] | with_reducible apply spmEnter_keeps

theorem hifLog_keeps (r : Report) (h : Keeps s u) : Keeps s (hifLog r u) := by
  unfold hifLog
  repeat' first | with_reducible assumption | dsimp only | with_reducible apply aerUnc_keeps
                | with_reducible apply aerCor_keeps | with_reducible apply count_keeps | with_reducible apply Keeps.ite
                | split

theorem cmbUnc_keeps (r : Report) (h : Keeps s u) : Keeps s (cmbUnc r u) := by
  unfold cmbUnc
  repeat' first | with_reducible assumption | simp only [Keeps.upd] | with_reducible apply Keeps.ite

theorem fc3Bits_keeps  (h : Keeps s u) : Keeps s (fc3Bits u) := by
  unfold fc3Bits
  repeat' first | with_reducible assumption | with_reducible apply putFBit_keeps

theorem ackClass_keeps (c : ℕ) (h : Keeps s u) : Keeps s (ackClass c u) := by
  unfold ackClass
  repeat' first | with_reducible assumption | with_reducible apply putFBit_keeps | with_reducible apply fc3Bits_keeps
                | with_reducible apply put_keeps | with_reducible apply Keeps.ite

theorem ackClasses_keeps (m : ℕ) (h : Keeps s u) : Keeps s (ackClasses m u) := by
  unfold ackClasses
  repeat' first | with_reducible assumption | with_reducible apply ackClass_keeps
                | with_reducible refine upTo_keeps (fun _ _ _ => ?_) _ ?_ | with_reducible apply Keeps.ite

theorem execFltAckWrite_keeps (w : BusW) (h : Keeps s u) : KeepsA s (execFltAckWrite w u) := by
  unfold execFltAckWrite
  repeat' first | with_reducible assumption | with_reducible apply KeepsA.next | with_reducible apply ackClasses_keeps

theorem capClear_keeps (which : ℕ) (i : ℕ) (h : Keeps s u) : Keeps s (capClear which i u) := by
  unfold capClear
  repeat' first | with_reducible assumption | with_reducible apply put2_keeps

theorem fc3Clear_keeps (f : ℕ) (h : Keeps s u) : Keeps s (fc3Clear f u) := by
  unfold fc3Clear
  repeat' first | with_reducible assumption | with_reducible apply capClear_keeps | with_reducible apply putFBit_keeps
                | with_reducible apply fc3Bits_keeps | with_reducible apply Keeps.ite

theorem clearClass_keeps (c : ℕ) (h : Keeps s u) : Keeps s (clearClass c u) := by
  unfold clearClass
  repeat' first | with_reducible assumption | with_reducible apply degradedUpdate_keeps | with_reducible apply capClear_keeps
                | with_reducible apply fc3Clear_keeps | with_reducible apply putFBit_keeps
                | with_reducible refine upTo_keeps (fun _ _ _ => ?_) _ ?_ | with_reducible apply Keeps.ite

theorem execFltClrWrite_keeps (w : BusW) (h : Keeps s u) : KeepsA s (execFltClrWrite w u) := by
  unfold execFltClrWrite
  repeat' first | with_reducible assumption | with_reducible apply KeepsA.next | with_reducible apply clearClass_keeps
                | with_reducible refine upTo_keeps (fun _ _ _ => ?_) _ ?_ | with_reducible apply KeepsA.ite
                | with_reducible apply Keeps.ite

theorem execFltFc3Clear_keeps (w : BusW) (h : Keeps s u) : KeepsA s (execFltFc3Clear w u) := by
  unfold execFltFc3Clear
  repeat' first | with_reducible assumption | with_reducible apply KeepsA.next | with_reducible apply fc3Clear_keeps
                | with_reducible refine upTo_keeps (fun _ _ _ => ?_) _ ?_ | with_reducible apply KeepsA.ite
                | with_reducible apply Keeps.ite

theorem execFltFc3AckWrite_keeps (w : BusW) (h : Keeps s u) : KeepsA s (execFltFc3AckWrite w u) := by
  unfold execFltFc3AckWrite
  repeat' first | with_reducible assumption | with_reducible apply KeepsA.next | with_reducible apply putFBit_keeps
                | with_reducible apply fc3Bits_keeps | with_reducible refine upTo_keeps (fun _ _ _ => ?_) _ ?_
                | with_reducible apply KeepsA.ite | with_reducible apply Keeps.ite

theorem execFltInjArm_keeps (w : BusW) (h : Keeps s u) : KeepsA s (execFltInjArm w u) := by
  unfold execFltInjArm
  repeat' first | with_reducible assumption | with_reducible apply KeepsA.next | dsimp only
                | with_reducible apply condFalls_keeps | with_reducible apply busWrite_keeps
                | with_reducible apply takeFree_keeps | refine takeFree_of ?_ (by assumption)
                | with_reducible apply reportAt_keeps | with_reducible apply count_keeps | with_reducible apply put_keeps
                | with_reducible apply KeepsA.ite | with_reducible apply Keeps.ite | split

theorem execFltChkLatchClear_keeps (chk : Fin 256) (w : BusW) (h : Keeps s u) : KeepsA s (execFltChkLatchClear chk w u) := by
  unfold execFltChkLatchClear
  repeat' first | with_reducible assumption | with_reducible apply KeepsA.next | with_reducible apply put_keeps
                | with_reducible apply KeepsA.ite | with_reducible apply Keeps.ite

theorem execEventPendClear_keeps (k : Fin 16) (w : BusW) (h : Keeps s u) : KeepsA s (execEventPendClear k w u) := by
  unfold execEventPendClear
  repeat' first | with_reducible assumption | with_reducible apply KeepsA.next | with_reducible apply putFBit_keeps
                | with_reducible refine upTo_keeps (fun _ _ _ => ?_) _ ?_ | with_reducible apply KeepsA.ite
                | with_reducible apply Keeps.ite

theorem execSoftwareEvent_keeps (w : BusW) (h : Keeps s u) : KeepsA s (execSoftwareEvent w u) := by
  unfold execSoftwareEvent
  repeat' first | with_reducible assumption | with_reducible apply KeepsA.next | with_reducible apply raiseEvent_keeps
                | with_reducible refine upTo_keeps (fun _ _ _ => ?_) _ ?_ | with_reducible apply KeepsA.ite
                | with_reducible apply Keeps.ite

theorem salvCtlWrite_keeps (w : BusW) (h : Keeps s u) : Keeps s (salvCtlWrite w u) := by
  unfold salvCtlWrite
  repeat' first | with_reducible assumption | with_reducible apply busWrite_keeps | with_reducible apply put_keeps
                | with_reducible apply Keeps.ite

theorem execSprSalvStart_keeps (w : BusW) (h : Keeps s u) : KeepsA s (execSprSalvStart w u) := by
  unfold execSprSalvStart
  repeat' first | with_reducible assumption | with_reducible apply KeepsA.next | simp only [Keeps.upd]
                | with_reducible apply salvCtlWrite_keeps | with_reducible apply c4Change_keeps
                | with_reducible apply salvSet_keeps | with_reducible apply put_keeps | with_reducible apply wr_keeps
                | with_reducible apply KeepsA.ite

theorem execSprSalvPause_keeps (w : BusW) (h : Keeps s u) : KeepsA s (execSprSalvPause w u) := by
  unfold execSprSalvPause
  repeat' first | with_reducible assumption | with_reducible apply KeepsA.next | simp only [Keeps.upd]
                | with_reducible apply salvCtlWrite_keeps | with_reducible apply batchDone_keeps
                | with_reducible apply KeepsA.ite | with_reducible apply Keeps.ite

theorem execSprSalvResume_keeps (w : BusW) (h : Keeps s u) : KeepsA s (execSprSalvResume w u) := by
  unfold execSprSalvResume
  repeat' first | with_reducible assumption | with_reducible apply KeepsA.next | with_reducible apply salvCtlWrite_keeps
                | with_reducible apply c4Change_keeps | with_reducible apply salvSet_keeps | with_reducible apply KeepsA.ite
                | with_reducible apply Keeps.ite

theorem execSprSalvAbort_keeps (w : BusW) (h : Keeps s u) : KeepsA s (execSprSalvAbort w u) := by
  unfold execSprSalvAbort
  repeat' first | with_reducible assumption | with_reducible apply KeepsA.next | simp only [Keeps.upd]
                | with_reducible apply salvCtlWrite_keeps | with_reducible apply batchDone_keeps
                | with_reducible apply c4Change_keeps | with_reducible apply salvSet_keeps | with_reducible apply KeepsA.ite
                | with_reducible apply Keeps.ite

theorem batchTake_keeps (i : ℕ) (h : Keeps s u) : Keeps s (batchTake i u) := by
  unfold batchTake
  repeat' first | with_reducible assumption | simp only [Keeps.upd] | with_reducible apply relocDone_keeps
                | with_reducible apply chkEnter_keeps | with_reducible apply Keeps.ite | split

theorem salvCount_keeps (n : ℕ) (h : Keeps s u) : Keeps s (salvCount n u) := by
  unfold salvCount
  repeat' first | with_reducible assumption | simp only [Keeps.upd] | with_reducible apply tallyDev_keeps
                | with_reducible apply c4Change_keeps | with_reducible apply put_keeps | with_reducible apply Keeps.ite

theorem salvJudge_keeps (i : ℕ) (r : StripeRd) (h : Keeps s u) : Keeps s (salvJudge i r u) := by
  unfold salvJudge
  repeat' first | with_reducible assumption | dsimp only | with_reducible apply passReport_keeps
                | with_reducible apply lostRecord_keeps | with_reducible apply passFailed_keeps
                | with_reducible apply countUnrec_keeps | with_reducible apply startHeld_keeps
                | with_reducible apply salvCount_keeps | with_reducible apply dropRead_keeps
                | with_reducible apply readKept_keeps | with_reducible apply salvSkip_keeps
                | with_reducible apply setPhase_keeps | with_reducible apply setPass_keeps | with_reducible apply sprId_keeps
                | refine sprId_of ?_ (by assumption) | with_reducible refine each_keeps (fun _ _ _ => ?_) _ ?_
                | with_reducible apply Keeps.ite | split

theorem cruiseExclusive_keeps (c : Cruise) (gen : ℕ) (h : Keeps s u) : Keeps s (cruiseExclusive c gen u) := by
  unfold cruiseExclusive
  repeat' first | with_reducible assumption | simp only [Keeps.upd] | with_reducible apply chkRelease_keeps
                | with_reducible apply chkEnter_keeps

theorem cruiseBad_keeps (r : StripeRd) (h : Keeps s u) : Keeps s (cruiseBad r u) := by
  unfold cruiseBad
  repeat' first | with_reducible assumption | with_reducible apply report_keeps

theorem cruiseUnlocated_keeps (r : StripeRd) (h : Keeps s u) : Keeps s (cruiseUnlocated r u) := by
  unfold cruiseUnlocated
  repeat' first | with_reducible assumption | with_reducible apply cruiseLeave_keeps | with_reducible apply cruiseBad_keeps
                | with_reducible apply count_keeps | with_reducible apply Keeps.ite

theorem cruiseRecord_keeps (c : Cruise) (r : StripeRd) (lost : List ℕ) (h : Keeps s u) : Keeps s (cruiseRecord c r lost u) := by
  unfold cruiseRecord
  repeat' first | with_reducible assumption | with_reducible apply lostRecord_keeps | with_reducible apply tallyDev_keeps
                | with_reducible refine each_keeps (fun _ _ _ => ?_) _ ?_

theorem cruiseLoss_keeps (c : Cruise) (r : StripeRd) (lost : List ℕ) (h : Keeps s u) : Keeps s (cruiseLoss c r lost u) := by
  unfold cruiseLoss
  repeat' first | with_reducible assumption | with_reducible apply cruiseRecord_keeps | with_reducible apply countUnrec_keeps
                | with_reducible apply cruiseBad_keeps | with_reducible apply count_keeps

theorem cruiseJudge_keeps (c : Cruise) (r : StripeRd) (h : Keeps s u) : Keeps s (cruiseJudge c r u) := by
  unfold cruiseJudge
  repeat' first | with_reducible assumption | simp only [Keeps.upd] | with_reducible apply cruiseExclusive_keeps
                | with_reducible apply cruiseUnlocated_keeps | with_reducible apply cruiseLeave_keeps
                | with_reducible apply cruiseLoss_keeps | with_reducible apply dropRead_keeps
                | with_reducible apply count_keeps | with_reducible apply Keeps.ite | split

theorem cruiseWrite_keeps (c : Cruise) (r : StripeRd) (h : Keeps s u) : Keeps s (cruiseWrite c r u) := by
  unfold cruiseWrite
  repeat' first | with_reducible assumption | simp only [Keeps.upd] | with_reducible apply cruiseUnlocated_keeps
                | with_reducible apply cruiseRecord_keeps | with_reducible apply cruiseLeave_keeps
                | with_reducible apply passReport_keeps | with_reducible apply countStale_keeps
                | with_reducible apply passFailed_keeps | with_reducible apply cruiseLoss_keeps
                | with_reducible apply passStart_keeps | with_reducible apply cruiseBad_keeps
                | with_reducible apply dropRead_keeps | with_reducible apply setPass_keeps | with_reducible apply sprId_keeps
                | refine sprId_of ?_ (by assumption) | with_reducible apply Keeps.ite | split

end Sys2Proof.Laws
end

