-- ==== Sys2Proof/Laws/KeepsHost.lean ====
section
/-! SUPPORT. Shared operations of the scheduler, the host side, management and registers: each keeps what `Keeps` says. -/

namespace Sys2Proof.Laws

open Sys2Proof Sys2Proof.Machine

variable {s u : State}

theorem sendArm_keeps (a : ℕ) (t : ℕ) (h : Keeps s u) : Keeps s (sendArm a t u) := by
  unfold sendArm
  repeat' first | with_reducible assumption | with_reducible apply goTo_keeps | with_reducible apply put_keeps
                | with_reducible apply Keeps.ite

theorem startItem_keeps (a : ℕ) (x : Item) (h : Keeps s u) : Keeps s (startItem a x u) := by
  unfold startItem
  repeat' first | with_reducible assumption | dsimp only | with_reducible apply readOpStart_keeps
                | with_reducible apply writeStart_keeps | with_reducible apply setHead_keeps
                | with_reducible refine each_keeps (fun _ _ _ => ?_) _ ?_ | with_reducible apply Keeps.ite

theorem countRetry_keeps (x : Item) (h : Keeps s u) : Keeps s (countRetry x u) := by
  unfold countRetry
  repeat' first | with_reducible assumption | with_reducible apply tallyDev_keeps | with_reducible apply tally_keeps
                | with_reducible apply Keeps.ite

theorem refuseItem_keeps (a : ℕ) (x : Item) (h : Keeps s u) : Keeps s (refuseItem a x u) := by
  unfold refuseItem
  repeat' first | with_reducible assumption | dsimp only | with_reducible apply sectorRefuse_keeps
                | with_reducible apply readRefuse_keeps | with_reducible apply passFailed_keeps
                | with_reducible apply dropItem_keeps | with_reducible apply freeCtx_keeps | with_reducible apply report_keeps
                | with_reducible apply wr_keeps | with_reducible refine each_keeps (fun _ _ _ => ?_) _ ?_
                | with_reducible apply Keeps.ite | split

theorem armTime_keeps (a : ℕ) (x : Item) (h : Keeps s u) : Keeps s (armTime a x u) := by
  unfold armTime
  repeat' first | with_reducible assumption | simp only [Keeps.upd] | with_reducible apply tallyDev_keeps
                | with_reducible apply tally_keeps | with_reducible apply Keeps.ite

theorem urgentCtx_keeps (x : Item) (h : Keeps s u) : Keeps s (urgentCtx x u) := by
  unfold urgentCtx
  repeat' first | with_reducible assumption | dsimp only | with_reducible apply setCtx_keeps | split

theorem energy_keeps (dst : ℕ) (mw : ℤ) (h : Keeps s u) : Keeps s (energy dst mw u) := by
  unfold energy
  repeat' first | with_reducible assumption | simp only [Keeps.upd]

theorem tickEnergy_keeps (total : ℤ) (h : Keeps s u) : Keeps s (tickEnergy total u) := by
  unfold tickEnergy
  repeat' first | with_reducible assumption | with_reducible apply energy_keeps
                | with_reducible refine each_keeps (fun _ _ _ => ?_) _ ?_ | with_reducible apply Keeps.ite

theorem beffNow_keeps  (h : Keeps s u) : Keeps s (beffNow u) := by
  unfold beffNow
  repeat' first | with_reducible assumption | with_reducible apply govLimits_keeps | with_reducible apply put_keeps

theorem execGovBgWrite_keeps (w : BusW) (h : Keeps s u) : KeepsA s (execGovBgWrite w u) := by
  unfold execGovBgWrite
  repeat' first | with_reducible assumption | with_reducible apply KeepsA.next | with_reducible apply busWrite_keeps
                | with_reducible apply put_keeps | with_reducible apply KeepsA.ite | with_reducible apply Keeps.ite

theorem cfgWait_keeps (f : ℕ) (h : Keeps s u) : Keeps s (cfgWait f u) := by
  unfold cfgWait
  repeat' first | with_reducible assumption | with_reducible apply toHost_keeps | with_reducible apply Keeps.ite

theorem execFlr_keeps (f : Fin 64) (h : Keeps s u) : KeepsA s (execFlr f u) := by
  unfold execFlr
  repeat' first | with_reducible assumption | with_reducible apply KeepsA.next | dsimp only
                | with_reducible apply resetVfs_keeps | with_reducible apply fnReset_keeps
                | with_reducible apply inbound_keeps | with_reducible apply cfgWait_keeps | with_reducible apply setFn_keeps
                | with_reducible apply KeepsA.ite | with_reducible apply Keeps.ite

theorem barDrop_keeps (f : ℕ) (posted : Bool) (a : ℕ) (n : ℕ) (h : Keeps s u) : Keeps s (barDrop f posted a n u) := by
  unfold barDrop
  repeat' first | with_reducible assumption | with_reducible apply unsupported_keeps | with_reducible apply report_keeps
                | with_reducible apply Keeps.ite

theorem doorbellBad_keeps (f : ℕ) (info : ℕ) (h : Keeps s u) : Keeps s (doorbellBad f info u) := by
  unfold doorbellBad
  repeat' first | with_reducible assumption | with_reducible apply asyncEvent_keeps | with_reducible apply count_keeps

theorem execSqTailDoorbell_keeps (f : Fin 64) (q : Fin 65) (v : BitVec 32) (h : Keeps s u) :
    KeepsA s (execSqTailDoorbell f q v u) := by
  unfold execSqTailDoorbell
  repeat' first | with_reducible assumption | with_reducible apply KeepsA.next | dsimp only
                | with_reducible apply doorbellBad_keeps | with_reducible apply fetchSq_keeps
                | with_reducible apply inbound_keeps | with_reducible apply barDrop_keeps | with_reducible apply setSq_keeps
                | with_reducible apply KeepsA.ite | with_reducible apply Keeps.ite | split

theorem execCqHeadDoorbell_keeps (f : Fin 64) (q : Fin 65) (v : BitVec 32) (h : Keeps s u) :
    KeepsA s (execCqHeadDoorbell f q v u) := by
  unfold execCqHeadDoorbell
  repeat' first | with_reducible assumption | with_reducible apply KeepsA.next | dsimp only
                | with_reducible apply doorbellBad_keeps | with_reducible apply intxUpdate_keeps
                | with_reducible apply inbound_keeps | with_reducible apply barDrop_keeps | with_reducible apply setCq_keeps
                | with_reducible apply KeepsA.ite | with_reducible apply Keeps.ite | split

theorem execCcEnable_keeps (f : Fin 64) (w : BusW) (h : Keeps s u) : KeepsA s (execCcEnable f w u) := by
  unfold execCcEnable
  repeat' first | with_reducible assumption | with_reducible apply KeepsA.next | with_reducible apply readyUpdate_keeps
                | with_reducible apply adminQueues_keeps | with_reducible apply busWrite_keeps
                | with_reducible apply inbound_keeps | with_reducible apply barDrop_keeps | with_reducible apply put_keeps
                | with_reducible apply KeepsA.ite | with_reducible apply Keeps.ite

theorem execCcDisable_keeps (f : Fin 64) (w : BusW) (h : Keeps s u) : KeepsA s (execCcDisable f w u) := by
  unfold execCcDisable
  repeat' first | with_reducible assumption | with_reducible apply KeepsA.next | with_reducible apply fnResetDeck_keeps
                | with_reducible apply busWrite_keeps | with_reducible apply inbound_keeps
                | with_reducible apply barDrop_keeps | with_reducible apply put_keeps | with_reducible apply wr_keeps
                | with_reducible apply KeepsA.ite | with_reducible apply Keeps.ite

theorem execCcShutdown_keeps (f : Fin 64) (w : BusW) (h : Keeps s u) : KeepsA s (execCcShutdown f w u) := by
  unfold execCcShutdown
  repeat' first | with_reducible assumption | with_reducible apply KeepsA.next | with_reducible apply busWrite_keeps
                | with_reducible apply inbound_keeps | with_reducible apply barDrop_keeps | with_reducible apply put_keeps
                | with_reducible apply KeepsA.ite | with_reducible apply Keeps.ite

theorem execIntmsWrite_keeps (f : Fin 64) (w : BusW) (h : Keeps s u) : KeepsA s (execIntmsWrite f w u) := by
  unfold execIntmsWrite
  repeat' first | with_reducible assumption | with_reducible apply KeepsA.next | with_reducible apply intxUpdate_keeps
                | with_reducible apply msiPend_keeps | with_reducible apply inbound_keeps | with_reducible apply barDrop_keeps
                | with_reducible apply put_keeps | with_reducible apply KeepsA.ite | with_reducible apply Keeps.ite

theorem execIntmcWrite_keeps (f : Fin 64) (w : BusW) (h : Keeps s u) : KeepsA s (execIntmcWrite f w u) := by
  unfold execIntmcWrite
  repeat' first | with_reducible assumption | with_reducible apply KeepsA.next | with_reducible apply intxUpdate_keeps
                | with_reducible apply flushMsi_keeps | with_reducible apply inbound_keeps
                | with_reducible apply barDrop_keeps | with_reducible apply put_keeps | with_reducible apply KeepsA.ite
                | with_reducible apply Keeps.ite

theorem execBmeClear_keeps (f : Fin 64) (h : Keeps s u) : KeepsA s (execBmeClear f u) := by
  unfold execBmeClear
  repeat' first | with_reducible assumption | with_reducible apply KeepsA.next | with_reducible apply stallStart_keeps
                | with_reducible apply inbound_keeps | with_reducible apply cfgWait_keeps | with_reducible apply put_keeps
                | with_reducible apply KeepsA.ite | with_reducible apply Keeps.ite

theorem execBmeSet_keeps (f : Fin 64) (h : Keeps s u) : KeepsA s (execBmeSet f u) := by
  unfold execBmeSet
  repeat' first | with_reducible assumption | with_reducible apply KeepsA.next | dsimp only
                | with_reducible apply stallEnd_keeps | with_reducible apply inbound_keeps
                | with_reducible apply cfgWait_keeps | with_reducible apply setFn_keeps | with_reducible apply put_keeps
                | with_reducible apply KeepsA.ite | with_reducible apply Keeps.ite

theorem execPowerStateD3hot_keeps (f : Fin 64) (h : Keeps s u) : KeepsA s (execPowerStateD3hot f u) := by
  unfold execPowerStateD3hot
  repeat' first | with_reducible assumption | with_reducible apply KeepsA.next | with_reducible apply stallStart_keeps
                | with_reducible apply restLink_keeps | with_reducible apply inbound_keeps
                | with_reducible apply cfgWait_keeps | with_reducible apply put_keeps | with_reducible apply KeepsA.ite
                | with_reducible apply Keeps.ite

theorem execPowerStateD0_keeps (f : Fin 64) (h : Keeps s u) : KeepsA s (execPowerStateD0 f u) := by
  unfold execPowerStateD0
  repeat' first | with_reducible assumption | with_reducible apply KeepsA.next | with_reducible apply wakeLink_keeps
                | with_reducible apply stallEnd_keeps | with_reducible apply inbound_keeps
                | with_reducible apply cfgWait_keeps | with_reducible apply put_keeps | with_reducible apply KeepsA.ite
                | with_reducible apply Keeps.ite

theorem execVfEnable_keeps (w : BusW) (h : Keeps s u) : KeepsA s (execVfEnable w u) := by
  unfold execVfEnable
  repeat' first | with_reducible assumption | with_reducible apply KeepsA.next | with_reducible apply busWrite_keeps
                | with_reducible apply inbound_keeps | with_reducible apply cfgWait_keeps | with_reducible apply put_keeps
                | with_reducible apply KeepsA.ite | with_reducible apply Keeps.ite

theorem execVfDisable_keeps (w : BusW) (h : Keeps s u) : KeepsA s (execVfDisable w u) := by
  unfold execVfDisable
  repeat' first | with_reducible assumption | with_reducible apply KeepsA.next | with_reducible apply busWrite_keeps
                | with_reducible apply restLink_keeps | with_reducible apply resetVfs_keeps
                | with_reducible apply inbound_keeps | with_reducible apply cfgWait_keeps | with_reducible apply put_keeps
                | with_reducible apply KeepsA.ite | with_reducible apply Keeps.ite

theorem execMsixUnmask_keeps (f : Fin 64) (v : Option (Fin 2048)) (h : Keeps s u) : KeepsA s (execMsixUnmask f v u) := by
  unfold execMsixUnmask
  repeat' first | with_reducible assumption | with_reducible apply KeepsA.next | dsimp only
                | with_reducible apply flushMsix_keeps | with_reducible apply inbound_keeps
                | with_reducible apply cfgWait_keeps | with_reducible apply barDrop_keeps | with_reducible apply put2_keeps
                | with_reducible apply put_keeps | with_reducible apply KeepsA.ite | with_reducible apply Keeps.ite | split

theorem execIntModeChange_keeps (f : Fin 64) (msix : Bool) (msi : Bool) (intxOff : Bool) (h : Keeps s u) :
    KeepsA s (execIntModeChange f msix msi intxOff u) := by
  unfold execIntModeChange
  repeat' first | with_reducible assumption | with_reducible apply KeepsA.next | simp only [Keeps.upd]
                | with_reducible apply intxUpdate_keeps | with_reducible apply inbound_keeps
                | with_reducible apply cfgWait_keeps | with_reducible apply put2_keeps | with_reducible apply put_keeps
                | with_reducible refine upTo_keeps (fun _ _ _ => ?_) _ ?_ | with_reducible apply KeepsA.ite
                | with_reducible apply Keeps.ite

theorem admitGo_keeps (x : Cmd) (h : Keeps s u) : Keeps s (admitGo x u) := by
  unfold admitGo
  repeat' first | with_reducible assumption | dsimp only | with_reducible apply setCmd_keeps
                | with_reducible apply cmdEnd_keeps | with_reducible apply xferGo_keeps | with_reducible apply count_keeps
                | with_reducible apply Keeps.ite

theorem admitFrom_keeps (f : ℕ) (q : ℕ) (h : Keeps s u) : Keeps s (admitFrom f q u) := by
  unfold admitFrom
  repeat' first | with_reducible assumption | simp only [Keeps.upd] | with_reducible apply fetchFatal_keeps
                | with_reducible apply fetchFn_keeps | with_reducible apply admitGo_keeps | with_reducible apply cmdEnd_keeps
                | with_reducible apply count_keeps | with_reducible apply setFn_keeps | with_reducible apply setSq_keeps
                | with_reducible apply Keeps.ite | split

theorem cmdGranted_keeps (k : ℕ) (h : Keeps s u) : Keeps s (cmdGranted k u) := by
  unfold cmdGranted
  repeat' first | with_reducible assumption | dsimp only | with_reducible apply chkRelease_keeps
                | with_reducible apply orderGo_keeps | with_reducible apply setCmd_keeps | with_reducible apply cmdEnd_keeps
                | with_reducible apply Keeps.ite | split

theorem execDeckIoEn_keeps (w : BusW) (h : Keeps s u) : KeepsA s (execDeckIoEn w u) := by
  unfold execDeckIoEn
  repeat' first | with_reducible assumption | with_reducible apply KeepsA.next | simp only [Keeps.upd]
                | with_reducible apply busWrite_keeps | with_reducible apply setCmd_keeps | with_reducible apply put_keeps
                | with_reducible refine each_keeps (fun _ _ _ => ?_) _ ?_ | with_reducible apply KeepsA.ite
                | with_reducible apply Keeps.ite

theorem execDeckPause_keeps (w : BusW) (h : Keeps s u) : KeepsA s (execDeckPause w u) := by
  unfold execDeckPause
  repeat' first | with_reducible assumption | with_reducible apply KeepsA.next | with_reducible apply busWrite_keeps
                | with_reducible apply put_keeps | with_reducible apply KeepsA.ite | with_reducible apply Keeps.ite

theorem execDeckAdminEn_keeps (w : BusW) (h : Keeps s u) : KeepsA s (execDeckAdminEn w u) := by
  unfold execDeckAdminEn
  repeat' first | with_reducible assumption | with_reducible apply KeepsA.next | with_reducible apply readyUpdate_keeps
                | with_reducible apply bootCommit_keeps | with_reducible apply busWrite_keeps | with_reducible apply put_keeps
                | with_reducible refine upTo_keeps (fun _ _ _ => ?_) _ ?_ | with_reducible apply KeepsA.ite
                | with_reducible apply Keeps.ite

theorem execDeckFnWrite_keeps (f : Fin 64) (w : BusW) (h : Keeps s u) : KeepsA s (execDeckFnWrite f w u) := by
  unfold execDeckFnWrite
  repeat' first | with_reducible assumption | with_reducible apply KeepsA.next | with_reducible apply busWrite_keeps
                | with_reducible apply put_keeps | with_reducible apply KeepsA.ite | with_reducible apply Keeps.ite

theorem execChkPortGo_keeps (c : Fin 4) (w : BusW) (h : Keeps s u) : KeepsA s (execChkPortGo c w u) := by
  unfold execChkPortGo
  repeat' first | with_reducible assumption | with_reducible apply KeepsA.next | dsimp only
                | with_reducible apply busWrite_keeps | with_reducible apply chkEnter_keeps | with_reducible apply put_keeps
                | with_reducible apply KeepsA.ite | with_reducible apply Keeps.ite | split

theorem execChkPortRel_keeps (c : Fin 4) (w : BusW) (h : Keeps s u) : KeepsA s (execChkPortRel c w u) := by
  unfold execChkPortRel
  repeat' first | with_reducible assumption | with_reducible apply KeepsA.next | with_reducible apply chkRelease_keeps
                | with_reducible apply busWrite_keeps | with_reducible apply put_keeps | with_reducible apply KeepsA.ite
                | with_reducible apply Keeps.ite

theorem tallyPost_keeps (x : Cmd) (h : Keeps s u) : Keeps s (tallyPost x u) := by
  unfold tallyPost
  repeat' first | with_reducible assumption | with_reducible apply tally_keeps | with_reducible apply Keeps.ite

theorem histPost_keeps (x : Cmd) (h : Keeps s u) : Keeps s (histPost x u) := by
  unfold histPost
  repeat' first | with_reducible assumption | simp only [Keeps.upd] | with_reducible apply Keeps.ite

theorem unitsClear_keeps (r : NsRec) (buf : ℕ) (md : ℕ) (n : ℕ) (h : Keeps s u) : Keeps s (unitsClear r buf md n u) := by
  unfold unitsClear
  repeat' first | with_reducible assumption | with_reducible apply hwWrite_keeps
                | with_reducible refine upTo_keeps (fun _ _ _ => ?_) _ ?_ | with_reducible apply Keeps.ite

theorem unitsRead_keeps (x : Cmd) (buf : ℕ) (md : ℕ) (lr : Bool) (us : List (ℕ × ℕ)) (h : Keeps s u) :
    Keeps s (unitsRead x buf md lr us u) := by
  unfold unitsRead
  repeat' first | with_reducible assumption | dsimp only | with_reducible apply cmdRead_keeps
                | with_reducible apply setCmd_keeps | with_reducible refine each_keeps (fun _ _ _ => ?_) _ ?_
                | with_reducible apply Keeps.ite

theorem startUnits_keeps (x : Cmd) (l : LandBufs) (h : Keeps s u) : Keeps s (startUnits x l u) := by
  unfold startUnits
  repeat' first | with_reducible assumption | dsimp only | with_reducible apply readFinish_keeps
                | with_reducible apply unitsClear_keeps | with_reducible apply unitsRead_keeps
                | with_reducible apply xferGo_keeps | with_reducible apply Keeps.ite | split

theorem startWrite_keeps (x : Cmd) (l : LandBufs) (h : Keeps s u) : Keeps s (startWrite x l u) := by
  unfold startWrite
  repeat' first | with_reducible assumption | dsimp only | with_reducible apply unitsClear_keeps
                | with_reducible apply unitsRead_keeps | with_reducible apply xferGo_keeps | split

theorem breakQueue_keeps (f : ℕ) (q : ℕ) (h : Keeps s u) : Keeps s (breakQueue f q u) := by
  unfold breakQueue
  repeat' first | with_reducible assumption | dsimp only | with_reducible apply chkRelease_keeps
                | with_reducible apply withdraw_keeps | with_reducible apply dropReqs_keeps
                | with_reducible apply cmdEnd_keeps | with_reducible refine each_keeps (fun _ _ _ => ?_) _ ?_
                | with_reducible apply Keeps.ite | split

theorem admEnd_keeps (x : Cmd) (st : ℕ) (dw0 : ℕ) (h : Keeps s u) : Keeps s (admEnd x st dw0 u) := by
  unfold admEnd
  repeat' first | with_reducible assumption | with_reducible apply cmdEnd_keeps

theorem admSend_keeps (x : Cmd) (bs : List Byte) (dw0 : ℕ) (h : Keeps s u) : Keeps s (admSend x bs dw0 u) := by
  unfold admSend
  repeat' first | with_reducible assumption | with_reducible apply sendSegs_keeps | with_reducible apply admEnd_keeps

theorem nsNotice_keeps (m : ℕ) (n : ℕ) (h : Keeps s u) : Keeps s (nsNotice m n u) := by
  unfold nsNotice
  repeat' first | with_reducible assumption | dsimp only | with_reducible apply asyncMask_keeps
                | with_reducible apply setFn_keeps | with_reducible refine upTo_keeps (fun _ _ _ => ?_) _ ?_
                | with_reducible apply Keeps.ite

theorem nsDrop_keeps (n : ℕ) (h : Keeps s u) : Keeps s (nsDrop n u) := by
  unfold nsDrop
  repeat' first | with_reducible assumption | simp only [Keeps.upd] | with_reducible apply c4Change_keeps
                | with_reducible apply groupEnd_keeps | with_reducible refine each_keeps (fun _ _ _ => ?_) _ ?_
                | with_reducible apply Keeps.ite

theorem nsAfter_keeps  (h : Keeps s u) : Keeps s (nsAfter u) := by
  unfold nsAfter
  repeat' first | with_reducible assumption | with_reducible apply earlyPress_keeps | with_reducible apply resumeOps_keeps
                | with_reducible apply startHeld_keeps

theorem scaleAsk_keeps  (h : Keeps s u) : Keeps s (scaleAsk u) := by
  unfold scaleAsk
  repeat' first | with_reducible assumption | simp only [Keeps.upd] | with_reducible apply standbyWake_keeps
                | with_reducible apply Keeps.ite

theorem execTlyScaleGo_keeps (w : BusW) (h : Keeps s u) : KeepsA s (execTlyScaleGo w u) := by
  unfold execTlyScaleGo
  repeat' first | with_reducible assumption | with_reducible apply KeepsA.next | with_reducible apply scaleAsk_keeps
                | with_reducible apply put_keeps | with_reducible apply KeepsA.ite | with_reducible apply Keeps.ite

theorem latch_keeps  (h : Keeps s u) : Keeps s (latch u) := by
  unfold latch
  repeat' first | with_reducible assumption | with_reducible apply put2_keeps | with_reducible apply put_keeps
                | with_reducible refine upTo_keeps (fun _ _ _ => ?_) _ ?_

theorem execBlazePost_keeps (m : Master) (c : Fin 5) (w : BusW) (h : Keeps s u) : KeepsA s (execBlazePost m c w u) := by
  unfold execBlazePost
  repeat' first | with_reducible assumption | with_reducible apply KeepsA.next | dsimp only
                | with_reducible apply busWrite_keeps | with_reducible apply blzEnter_keeps | with_reducible apply put_keeps
                | with_reducible apply KeepsA.ite

theorem blzNextSlot_keeps  (h : Keeps s u) : Keeps s (blzNextSlot u) := by
  unfold blzNextSlot
  repeat' first | with_reducible assumption | simp only [Keeps.upd]

theorem norFailed_keeps  (h : Keeps s u) : Keeps s (norFailed u) := by
  unfold norFailed
  repeat' first | with_reducible assumption | with_reducible apply raiseEvent_keeps | with_reducible apply report_keeps
                | with_reducible apply put_keeps

theorem norSpoil_keeps (a : ℕ) (n : ℕ) (h : Keeps s u) : Keeps s (norSpoil a n u) := by
  unfold norSpoil
  repeat' first | with_reducible assumption | with_reducible apply norProgram_keeps

theorem blzRetry_keeps (k : ℕ) (h : Keeps s u) : Keeps s (blzRetry k u) := by
  unfold blzRetry
  repeat' first | with_reducible assumption | simp only [Keeps.upd] | with_reducible apply blzNextSlot_keeps
                | with_reducible apply mirrorCopy_keeps | with_reducible apply norFailed_keeps

theorem blzDropRec_keeps  (h : Keeps s u) : Keeps s (blzDropRec u) := by
  unfold blzDropRec
  repeat' first | with_reducible assumption | simp only [Keeps.upd] | with_reducible apply blzQueue_keeps
                | with_reducible apply Keeps.ite

theorem renumber_keeps (base : ℕ) (h : Keeps s u) : Keeps s (renumber base u) := by
  unfold renumber
  repeat' first | with_reducible assumption | simp only [Keeps.upd] | with_reducible apply put_keeps

theorem fwStore_keeps (k : ℕ) (h : Keeps s u) : Keeps s (fwStore k u) := by
  unfold fwStore
  repeat' first | with_reducible assumption | simp only [Keeps.upd] | with_reducible apply norProgram_keeps
                | with_reducible apply norErase_keeps

theorem fwStoring_keeps (x : Cmd) (go : ℕ → State → State) (hgo : ∀ z0 v, Keeps s v → Keeps s (go z0 v)) (h : Keeps s u) :
    Keeps s (fwStoring x go u) := by
  unfold fwStoring
  repeat' first | with_reducible assumption | dsimp only | with_reducible apply imgCheck_keeps
                | refine imgCheck_of ?_ (by assumption) | with_reducible apply fwStore_keeps
                | with_reducible apply admEnd_keeps | (with_reducible apply hgo) | with_reducible apply Keeps.ite | split

theorem actEnd_keeps (num : ℕ) (st : ℕ) (h : Keeps s u) : Keeps s (actEnd num st u) := by
  unfold actEnd
  repeat' first | with_reducible assumption | simp only [Keeps.upd] | with_reducible apply admEnd_keeps | split

theorem setAct_keeps (x : Option Activation) (h : Keeps s u) : Keeps s (setAct x u) := by
  unfold setAct
  repeat' first | with_reducible assumption | with_reducible refine act_keeps (fun _ _ => ?_) ?_ | simp only [Keeps.upd]

theorem actRelease_keeps (x : Activation) (h : Keeps s u) : Keeps s (actRelease x u) := by
  unfold actRelease
  repeat' first | with_reducible assumption | simp only [Keeps.upd] | with_reducible apply warmReset_keeps
                | with_reducible apply segsLoad_keeps | with_reducible apply setAct_keeps

theorem actWaiting_keeps  (h : Keeps s u) : Keeps s (actWaiting u) := by
  unfold actWaiting
  repeat' first | with_reducible assumption | simp only [Keeps.upd] | with_reducible apply actRelease_keeps
                | with_reducible apply Keeps.ite | split

theorem execActGo_keeps (w : BusW) (h : Keeps s u) : KeepsA s (execActGo w u) := by
  unfold execActGo
  repeat' first | with_reducible assumption | with_reducible apply KeepsA.next | dsimp only
                | with_reducible apply actWaiting_keeps | with_reducible apply busWrite_keeps
                | with_reducible apply setAct_keeps | with_reducible apply put_keeps | with_reducible apply KeepsA.ite
                | with_reducible apply Keeps.ite | split

theorem execActDone_keeps (w : BusW) (h : Keeps s u) : KeepsA s (execActDone w u) := by
  unfold execActDone
  repeat' first | with_reducible assumption | with_reducible apply KeepsA.next | dsimp only
                | with_reducible apply lyoloReset_keeps | with_reducible apply busWrite_keeps
                | with_reducible apply selWrite_keeps | with_reducible apply actEnd_keeps | with_reducible apply setAct_keeps
                | with_reducible apply put_keeps | with_reducible apply KeepsA.ite | with_reducible apply Keeps.ite | split

theorem execWdtKick_keeps (w : BusW) (h : Keeps s u) : KeepsA s (execWdtKick w u) := by
  unfold execWdtKick
  repeat' first | with_reducible assumption | with_reducible apply KeepsA.next | simp only [Keeps.upd]
                | with_reducible apply busWrite_keeps | with_reducible apply put_keeps | with_reducible apply KeepsA.ite
                | with_reducible apply Keeps.ite

theorem tempEvents_keeps (old : ℤ) (new : ℤ) (h : Keeps s u) : Keeps s (tempEvents old new u) := by
  unfold tempEvents
  repeat' first | with_reducible assumption | with_reducible apply asyncEvent_keeps
                | with_reducible refine upTo_keeps (fun _ _ _ => ?_) _ ?_ | with_reducible apply Keeps.ite

theorem dieCheckers_keeps (t : ℤ) (h : Keeps s u) : Keeps s (dieCheckers t u) := by
  unfold dieCheckers
  repeat' first | with_reducible assumption | with_reducible apply condFalls_keeps | with_reducible apply reportAt_keeps
                | with_reducible apply Keeps.ite

theorem thmChecker_keeps (n : ℕ) (h : Keeps s u) : Keeps s (thmChecker n u) := by
  unfold thmChecker
  repeat' first | with_reducible assumption | with_reducible apply condFalls_keeps | with_reducible apply report_keeps
                | with_reducible apply Keeps.ite

theorem monChecker_keeps (n : ℕ) (v : ℕ) (h : Keeps s u) : Keeps s (monChecker n v u) := by
  unfold monChecker
  repeat' first | with_reducible assumption | simp only [Keeps.upd] | with_reducible apply condFalls_keeps
                | with_reducible apply report_keeps | with_reducible apply Keeps.ite

theorem wornNow_keeps  (h : Keeps s u) : Keeps s (wornNow u) := by
  unfold wornNow
  repeat' first | with_reducible assumption | with_reducible apply raiseEvent_keeps | with_reducible apply blzEnter_keeps
                | with_reducible apply asyncAll_keeps

theorem execFuseBurn_keeps (w : BusW) (h : Keeps s u) : KeepsA s (execFuseBurn w u) := by
  unfold execFuseBurn
  repeat' first | with_reducible assumption | with_reducible apply KeepsA.next | simp only [Keeps.upd]
                | with_reducible apply busWrite_keeps | with_reducible apply put_keeps | with_reducible apply KeepsA.ite
                | with_reducible apply Keeps.ite

theorem execCfgLock_keeps (w : BusW) (h : Keeps s u) : KeepsA s (execCfgLock w u) := by
  unfold execCfgLock
  repeat' first | with_reducible assumption | with_reducible apply KeepsA.next | with_reducible apply bootCommit_keeps
                | with_reducible apply KeepsA.ite | with_reducible apply Keeps.ite

theorem mctpSend_keeps (h0 : Byte) (code : ℕ) (cc : ℕ) (bs : List Byte) (h : Keeps s u) :
    Keeps s (mctpSend h0 code cc bs u) := by
  unfold mctpSend
  repeat' first | with_reducible assumption | with_reducible apply emit_keeps | with_reducible apply Keeps.ite

theorem miSend_keeps (h0 : Byte) (status : ℕ) (res : List Byte) (bs : List Byte) (h : Keeps s u) :
    Keeps s (miSend h0 status res bs u) := by
  unfold miSend
  repeat' first | with_reducible assumption | with_reducible apply emit_keeps | with_reducible apply Keeps.ite

theorem miData_keeps (h0 : Byte) (bs : List Byte) (h : Keeps s u) : Keeps s (miData h0 bs u) := by
  unfold miData
  repeat' first | with_reducible assumption | with_reducible apply miSend_keeps

theorem pageRead_keeps (f : ℕ) (lid : ℕ) (h : Keeps s u) : Keeps s (pageRead f lid u) := by
  unfold pageRead
  repeat' first | with_reducible assumption | dsimp only | with_reducible apply setFn_keeps

theorem stateOf_keeps {a : Answer} (ha : KeepsA s a) (h : Keeps s u) : Keeps s (stateOf a u) := by
  unfold stateOf
  split
  · exact ha _ rfl
  · exact h

theorem salvEnd_keeps (x : Cmd) (h : Keeps s u) : Keeps s (salvEnd x u) := by
  unfold salvEnd
  repeat' first | with_reducible assumption | with_reducible apply admSend_keeps

theorem rfencePut_keeps (n : ℕ) (f : ℕ) (a : ℕ) (b : ℕ) (h : Keeps s u) : Keeps s (rfencePut n f a b u) := by
  unfold rfencePut
  repeat' first | with_reducible assumption | with_reducible apply mapChange_keeps | with_reducible apply put_keeps

theorem relocPut_keeps (p : SalvPlan) (f : ℕ) (z : ℕ) (zn : Zone) (a : ℕ) (b : ℕ) (h : Keeps s u) :
    Keeps s (relocPut p f z zn a b u) := by
  unfold relocPut
  repeat' first | with_reducible assumption | with_reducible apply sramWrite_keeps | with_reducible apply hwWrite_keeps
                | with_reducible apply put_keeps

theorem mapEnd_keeps (x : Cmd) (h : Keeps s u) : Keeps s (mapEnd x u) := by
  unfold mapEnd
  repeat' first | with_reducible assumption | with_reducible apply admSend_keeps

theorem mapRefuse_keeps (x : Cmd) (st : ℕ) (h : Keeps s u) : Keeps s (mapRefuse x st u) := by
  unfold mapRefuse
  repeat' first | with_reducible assumption | with_reducible apply admEnd_keeps

theorem dumpStop_keeps  (h : Keeps s u) : Keeps s (dumpStop u) := by
  unfold dumpStop
  repeat' first | with_reducible assumption | simp only [Keeps.upd] | with_reducible apply put_keeps
                | with_reducible apply Keeps.ite

theorem clkFurther_keeps (i : ℕ) (pend : ℕ) (fc3 : ℕ) (h : Keeps s u) : Keeps s (clkFurther i pend fc3 u) := by
  unfold clkFurther
  repeat' first | with_reducible assumption | with_reducible apply dramSleep_keeps | with_reducible apply dumpStop_keeps
                | with_reducible apply synLost_keeps | with_reducible apply put_keeps
                | with_reducible refine upTo_keeps (fun _ _ _ => ?_) _ ?_ | with_reducible apply Keeps.ite

theorem linkThaw_keeps  (h : Keeps s u) : Keeps s (linkThaw u) := by
  unfold linkThaw
  repeat' first | with_reducible assumption | simp only [Keeps.upd] | with_reducible apply emit_keeps
                | with_reducible apply put_keeps | with_reducible refine each_keeps (fun _ _ _ => ?_) _ ?_
                | with_reducible apply Keeps.ite

theorem execCprRetractSet_keeps (w : BusW) (h : Keeps s u) : KeepsA s (execCprRetractSet w u) := by
  unfold execCprRetractSet
  repeat' first | with_reducible assumption | with_reducible apply KeepsA.next | with_reducible apply retractCause_keeps
                | with_reducible apply KeepsA.ite | with_reducible apply Keeps.ite

theorem execCprRetractRel_keeps (w : BusW) (h : Keeps s u) : KeepsA s (execCprRetractRel w u) := by
  unfold execCprRetractRel
  repeat' first | with_reducible assumption | with_reducible apply KeepsA.next | dsimp only
                | with_reducible apply setArm_keeps | with_reducible apply setVcm_keeps | with_reducible apply put_keeps
                | with_reducible refine upTo_keeps (fun _ _ _ => ?_) _ ?_ | with_reducible apply KeepsA.ite
                | with_reducible apply Keeps.ite

theorem pdWrite_keeps (w : BusW) (h : Keeps s u) : Keeps s (pdWrite w u) := by
  unfold pdWrite
  repeat' first | with_reducible assumption | with_reducible apply busWrite_keeps | with_reducible apply put_keeps

theorem execArmDomainOn_keeps (arm : Fin 4) (w : BusW) (h : Keeps s u) : KeepsA s (execArmDomainOn arm w u) := by
  unfold execArmDomainOn
  repeat' first | with_reducible assumption | with_reducible apply KeepsA.next | with_reducible apply putFBit_keeps
                | with_reducible apply pdWrite_keeps | with_reducible apply armOn_keeps | with_reducible apply KeepsA.ite
                | with_reducible apply Keeps.ite

theorem execArmDomainOff_keeps (arm : Fin 4) (w : BusW) (h : Keeps s u) : KeepsA s (execArmDomainOff arm w u) := by
  unfold execArmDomainOff
  repeat' first | with_reducible assumption | with_reducible apply KeepsA.next | with_reducible apply putFBit_keeps
                | with_reducible apply pdWrite_keeps | with_reducible apply armOff_keeps | with_reducible apply KeepsA.ite
                | with_reducible apply Keeps.ite

theorem execStandbyRequest_keeps (w : BusW) (h : Keeps s u) : KeepsA s (execStandbyRequest w u) := by
  unfold execStandbyRequest
  repeat' first | with_reducible assumption | with_reducible apply KeepsA.next | with_reducible apply pdWrite_keeps
                | with_reducible apply put_keeps | with_reducible apply KeepsA.ite | with_reducible apply Keeps.ite

theorem execCprWake_keeps (w : BusW) (h : Keeps s u) : KeepsA s (execCprWake w u) := by
  unfold execCprWake
  repeat' first | with_reducible assumption | with_reducible apply KeepsA.next | with_reducible apply standbyWake_keeps
                | with_reducible apply pdWrite_keeps | with_reducible apply KeepsA.ite | with_reducible apply Keeps.ite

theorem bootPick_keeps (l : List ℕ) (h : Keeps s u) : Keeps s (bootPick l u).2 := by
  unfold bootPick
  suffices g : ∀ r : ℕ × State, Keeps s r.2 → Keeps s (l.foldl (fun (r : ℕ × State) k =>
      if r.1 ≠ 0 then r else let c := imgCheck (.nor (slotAddr k)) r.2; (if c.1 then k else 0, c.2)) r).2 from g _ h
  induction l with
  | nil => exact fun _ h => h
  | cons k l ih =>
    intro r h
    refine ih _ ?_
    dsimp only
    split
    · exact h
    · exact imgCheck_keeps _ h

theorem bootPick_of {l : List ℕ} {x : ℕ} {t : State} (h : Keeps s u) (he0 : bootPick l u = (x, t)) : Keeps s t := by
  have := bootPick_keeps l h; rw [he0] at this; exact this

theorem lifeBoot_keeps  (h : Keeps s u) : Keeps s (lifeBoot u) := by
  unfold lifeBoot
  repeat' first | with_reducible assumption | simp only [Keeps.upd] | with_reducible apply lifeSave_keeps
                | with_reducible apply put_keeps | with_reducible apply Keeps.ite

theorem execWarmReset_keeps (w : BusW) (h : Keeps s u) : KeepsA s (execWarmReset w u) := by
  unfold execWarmReset
  repeat' first | with_reducible assumption | with_reducible apply KeepsA.next | with_reducible apply warmReset_keeps
                | with_reducible apply KeepsA.ite | with_reducible apply Keeps.ite

theorem execLyoloReset_keeps (m : Master) (w : BusW) (h : Keeps s u) : KeepsA s (execLyoloReset m w u) := by
  unfold execLyoloReset
  repeat' first | with_reducible assumption | with_reducible apply KeepsA.next | with_reducible apply lyoloReset_keeps
                | with_reducible apply KeepsA.ite | with_reducible apply Keeps.ite

theorem nandSpoil_keeps (row : ℕ) (h : Keeps s u) : Keeps s (nandSpoil row u) := by
  unfold nandSpoil
  repeat' first | with_reducible assumption | simp only [Keeps.upd]

theorem setDump_keeps (d : Option DumpRun) (h : Keeps s u) : Keeps s (setDump d u) := by
  unfold setDump
  repeat' first | with_reducible assumption | simp only [Keeps.upd]

theorem dumpIdle_keeps  (h : Keeps s u) : Keeps s (dumpIdle u) := by
  unfold dumpIdle
  repeat' first | with_reducible assumption | simp only [Keeps.upd] | with_reducible apply setDump_keeps
                | with_reducible apply put_keeps

theorem dumpFail_keeps  (h : Keeps s u) : Keeps s (dumpFail u) := by
  unfold dumpFail
  repeat' first | with_reducible assumption | with_reducible apply dumpIdle_keeps | with_reducible apply put_keeps

theorem dumpLook_keeps (p : ℕ) (ecc : List Ecc) (h : Keeps s u) : Keeps s (dumpLook p ecc u) := by
  unfold dumpLook
  repeat' first | with_reducible assumption | simp only [Keeps.upd] | with_reducible apply eccReads_keeps
                | refine eccReads_of ?_ (by assumption) | with_reducible apply Keeps.ite

theorem dumpSave_keeps  (h : Keeps s u) : Keeps s (dumpSave u) := by
  unfold dumpSave
  repeat' first | with_reducible assumption | simp only [Keeps.upd]

theorem dumpCtlWrite_keeps (w : BusW) (h : Keeps s u) : Keeps s (dumpCtlWrite w u) := by
  unfold dumpCtlWrite
  repeat' first | with_reducible assumption | with_reducible apply busWrite_keeps | with_reducible apply put_keeps

theorem execDumpArm_keeps (w : BusW) (h : Keeps s u) : KeepsA s (execDumpArm w u) := by
  unfold execDumpArm
  repeat' first | with_reducible assumption | with_reducible apply KeepsA.next | with_reducible apply dumpCtlWrite_keeps
                | with_reducible apply put_keeps | with_reducible apply KeepsA.ite | with_reducible apply Keeps.ite

theorem execDumpRestore_keeps (w : BusW) (h : Keeps s u) : KeepsA s (execDumpRestore w u) := by
  unfold execDumpRestore
  repeat' first | with_reducible assumption | with_reducible apply KeepsA.next | with_reducible apply dumpCtlWrite_keeps
                | with_reducible apply put_keeps | with_reducible apply KeepsA.ite | with_reducible apply Keeps.ite

theorem restoreData_keeps (old : State) (b : List Byte) (bad : List ℕ) (p : ℕ) (h : Keeps s u) :
    Keeps s (restoreData old b bad p u) := by
  unfold restoreData
  repeat' first | with_reducible assumption | with_reducible apply landStore_keeps | with_reducible apply count_keeps
                | with_reducible apply Keeps.ite

theorem salvRestore_keeps (b : List Byte) (h : Keeps s u) : Keeps s (salvRestore b u) := by
  unfold salvRestore
  repeat' first | with_reducible assumption | with_reducible apply relocSeen_keeps | with_reducible apply c4Change_keeps
                | with_reducible apply salvSet_keeps | with_reducible apply wr_keeps | with_reducible apply Keeps.ite

theorem restoreEnd_keeps (err : ℕ) (h : Keeps s u) : Keeps s (restoreEnd err u) := by
  unfold restoreEnd
  repeat' first | with_reducible assumption | with_reducible apply raiseEvent_keeps | with_reducible apply put_keeps

theorem stgRestore_keeps (b : List Byte) (h : Keeps s u) : Keeps s (stgRestore b u) := by
  unfold stgRestore
  repeat' first | with_reducible assumption | simp only [Keeps.upd] | with_reducible apply stgStat_keeps
                | with_reducible apply wr_keeps

theorem restored_keeps (b : List Byte) (bad : List ℕ) (h : Keeps s u) : Keeps s (restored u b bad) := by
  unfold restored
  repeat' first | with_reducible assumption | simp only [Keeps.upd] | with_reducible apply restoreData_keeps
                | with_reducible apply salvRestore_keeps | with_reducible apply restoreEnd_keeps
                | with_reducible apply stgRestore_keeps | with_reducible apply landStore_keeps
                | with_reducible apply busError_keeps | with_reducible apply put_keeps
                | with_reducible refine each_keeps (fun _ _ _ => ?_) _ ?_
                | with_reducible refine upTo_keeps (fun _ _ _ => ?_) _ ?_
                | with_reducible refine foldl_keeps (fun _ _ _ => ?_) _ ?_ | with_reducible apply Keeps.ite

theorem act_keeps {f : State → Answer} (hf : ∀ v, Keeps s v → KeepsA s (f v)) (h : Keeps s u) : Keeps s (act f u) := by
  exact stateOf_keeps (hf u h) h

theorem keepFld_keeps (c : Bool) (f : Field) (i : ℕ) (old : State) (h : Keeps s u) : Keeps s (keepFld c f i old u) := by
  unfold keepFld
  repeat' first | with_reducible assumption | with_reducible apply put_keeps | with_reducible apply Keeps.ite

theorem lostDrain_keeps (w : BusW) (h : Keeps s u) : Keeps s (lostDrain w u) := by
  unfold lostDrain
  repeat' first | with_reducible assumption | simp only [Keeps.upd] | with_reducible apply busWrite_keeps
                | with_reducible apply c4Change_keeps | with_reducible refine upTo_keeps (fun _ _ _ => ?_) _ ?_
                | with_reducible refine foldl_keeps (fun _ _ _ => ?_) _ ?_ | with_reducible apply Keeps.ite

theorem busSpr_keeps (r : RegDef) (i : ℕ) (j : ℕ) (w : BusW) (h : Keeps s u) : Keeps s (busSpr r i j w u) := by
  unfold busSpr
  repeat' first | with_reducible assumption | with_reducible refine act_keeps (fun _ _ => ?_) ?_ | simp only [Keeps.upd]
                | with_reducible apply execSprFenceHeadWrite_keeps | with_reducible apply execSprFenceArmWrite_keeps
                | with_reducible apply execSprSalvResume_keeps | with_reducible apply execStgTailWrite_keeps
                | with_reducible apply execSprSalvStart_keeps | with_reducible apply execSprSalvPause_keeps
                | with_reducible apply execSprSalvAbort_keeps | with_reducible apply degradedUpdate_keeps
                | with_reducible apply execGeoLoad_keeps | with_reducible apply mapChange_keeps
                | with_reducible apply lostDrain_keeps | with_reducible apply busWrite_keeps
                | with_reducible apply stgStat_keeps | with_reducible apply replan_keeps | with_reducible apply act_keeps
                | with_reducible apply Keeps.ite

theorem busLink_keeps (a : Fin 4) (w : BusW) (h : Keeps s u) : Keeps s (busLink a w u) := by
  unfold busLink
  repeat' first | with_reducible assumption | with_reducible refine act_keeps (fun _ _ => ?_) ?_
                | with_reducible apply execLinkDisable_keeps | with_reducible apply execLinkRetrain_keeps
                | with_reducible apply execLinkEnable_keeps | with_reducible apply act_keeps | with_reducible apply Keeps.ite

theorem busAgc_keeps (n : ℕ) (w : BusW) (h : Keeps s u) : Keeps s (busAgc n w u) := by
  unfold busAgc
  repeat' first | with_reducible assumption | dsimp only | with_reducible apply busWrite_keeps
                | with_reducible apply setLane_keeps | with_reducible apply put_keeps | with_reducible apply Keeps.ite

theorem busFir_keeps (n : ℕ) (k : ℕ) (w : BusW) (h : Keeps s u) : Keeps s (busFir n k w u) := by
  unfold busFir
  repeat' first | with_reducible assumption | dsimp only | with_reducible apply busWrite_keeps
                | with_reducible apply takeFree_keeps | refine takeFree_of ?_ (by assumption)
                | with_reducible apply setLane_keeps | with_reducible apply put2_keeps | with_reducible apply Keeps.ite

theorem busLane_keeps (r : RegDef) (i : ℕ) (j : ℕ) (w : BusW) (h : Keeps s u) : Keeps s (busLane r i j w u) := by
  unfold busLane
  repeat' first | with_reducible assumption | with_reducible refine act_keeps (fun _ _ => ?_) ?_
                | with_reducible apply execPreampRegAccess_keeps | with_reducible apply execLaneCalRequest_keeps
                | with_reducible apply execSenseStart_keeps | with_reducible apply execSynTune_keeps
                | with_reducible apply busWrite_keeps | with_reducible apply busLink_keeps | with_reducible apply busAgc_keeps
                | with_reducible apply busFir_keeps | with_reducible apply act_keeps | with_reducible apply Keeps.ite

theorem ladderOpen_keeps  (h : Keeps s u) : Keeps s (ladderOpen u) := by
  unfold ladderOpen
  repeat' first | with_reducible assumption | dsimp only | with_reducible apply takeFree_keeps
                | refine takeFree_of ?_ (by assumption) | with_reducible apply setCtx_keeps
                | with_reducible refine each_keeps (fun _ _ _ => ?_) _ ?_ | split

theorem busDec_keeps (r : RegDef) (i : ℕ) (j : ℕ) (w : BusW) (h : Keeps s u) : Keeps s (busDec r i j w u) := by
  unfold busDec
  repeat' first | with_reducible assumption | with_reducible refine act_keeps (fun _ _ => ?_) ?_
                | with_reducible apply execDecFenceWrite_keeps | with_reducible apply execDecBistStart_keeps
                | with_reducible apply limitSleep_keeps | with_reducible apply ladderOpen_keeps
                | with_reducible apply busWrite_keeps | with_reducible apply act_keeps | with_reducible apply Keeps.ite

theorem busSrv_keeps (r : RegDef) (i : ℕ) (j : ℕ) (w : BusW) (h : Keeps s u) : Keeps s (busSrv r i j w u) := by
  unfold busSrv
  repeat' first | with_reducible assumption | with_reducible refine act_keeps (fun _ _ => ?_) ?_
                | with_reducible apply execSrvUnload_keeps | with_reducible apply execCoefSwap_keeps
                | with_reducible apply execSrvLoad_keeps | with_reducible apply execSrvGo_keeps
                | with_reducible apply shockFall_keeps | with_reducible apply busWrite_keeps | with_reducible apply act_keeps
                | with_reducible apply Keeps.ite

theorem busSpm_keeps (r : RegDef) (i : ℕ) (j : ℕ) (w : BusW) (h : Keeps s u) : Keeps s (busSpm r i j w u) := by
  unfold busSpm
  repeat' first | with_reducible assumption | with_reducible refine act_keeps (fun _ _ => ?_) ?_ | dsimp only
                | with_reducible apply execSpmStart_keeps | with_reducible apply execSpmStop_keeps
                | with_reducible apply busWrite_keeps | with_reducible apply takeFree_keeps
                | refine takeFree_of ?_ (by assumption) | with_reducible apply act_keeps | with_reducible apply Keeps.ite

theorem busGov_keeps (r : RegDef) (i : ℕ) (j : ℕ) (w : BusW) (h : Keeps s u) : Keeps s (busGov r i j w u) := by
  unfold busGov
  repeat' first | with_reducible assumption | with_reducible refine act_keeps (fun _ _ => ?_) ?_
                | with_reducible apply execGovBgWrite_keeps | with_reducible apply busWrite_keeps
                | with_reducible apply beffNow_keeps | with_reducible apply act_keeps | with_reducible apply Keeps.ite

theorem busDeck_keeps (r : RegDef) (i : ℕ) (j : ℕ) (w : BusW) (h : Keeps s u) : Keeps s (busDeck r i j w u) := by
  unfold busDeck
  repeat' first | with_reducible assumption | with_reducible refine act_keeps (fun _ _ => ?_) ?_
                | with_reducible apply execDeckAdminEn_keeps | with_reducible apply execDeckFnWrite_keeps
                | with_reducible apply execChkPortRel_keeps | with_reducible apply execDeckPause_keeps
                | with_reducible apply execChkPortGo_keeps | with_reducible apply execDeckIoEn_keeps
                | with_reducible apply busWrite_keeps | with_reducible apply act_keeps | with_reducible apply Keeps.ite

theorem busFfence_keeps (m : Master) (c : Fin 4) (w : BusW) (h : Keeps s u) : Keeps s (busFfence m c w u) := by
  unfold busFfence
  repeat' first | with_reducible assumption | with_reducible refine act_keeps (fun _ _ => ?_) ?_ | simp only [Keeps.upd]
                | with_reducible apply execFfenceCleanInvalAll_keeps | with_reducible apply execFfenceCleanInval_keeps
                | with_reducible apply execFfenceCleanAll_keeps | with_reducible apply execFfenceClean_keeps
                | with_reducible apply execFfenceInval_keeps | with_reducible apply execFfenceDrain_keeps
                | with_reducible apply busWrite_keeps | with_reducible apply act_keeps | with_reducible apply Keeps.ite
                | split

theorem busLnd_keeps (m : Master) (r : RegDef) (i : ℕ) (j : ℕ) (w : BusW) (h : Keeps s u) : Keeps s (busLnd m r i j w u) := by
  unfold busLnd
  repeat' first | with_reducible assumption | with_reducible refine act_keeps (fun _ _ => ?_) ?_ | simp only [Keeps.upd]
                | with_reducible apply execLndTrainStart_keeps | with_reducible apply execLndRmapClear_keeps
                | with_reducible apply execLndRmapCopy_keeps | with_reducible apply execLndFillGo_keeps
                | with_reducible apply busFfence_keeps | with_reducible apply busWrite_keeps | with_reducible apply act_keeps
                | with_reducible apply Keeps.ite

theorem busYrd_keeps (r : RegDef) (i : ℕ) (j : ℕ) (w : BusW) (h : Keeps s u) : Keeps s (busYrd r i j w u) := by
  unfold busYrd
  repeat' first | with_reducible assumption | with_reducible refine act_keeps (fun _ _ => ?_) ?_
                | with_reducible apply execYrdDoorbell_keeps | with_reducible apply execYrdChResume_keeps
                | with_reducible apply execYrdChReset_keeps | with_reducible apply busWrite_keeps
                | with_reducible apply ychWrite_keeps | with_reducible apply act_keeps | with_reducible apply Keeps.ite

theorem busBlz_keeps (m : Master) (r : RegDef) (i : ℕ) (j : ℕ) (w : BusW) (h : Keeps s u) : Keeps s (busBlz m r i j w u) := by
  unfold busBlz
  repeat' first | with_reducible assumption | with_reducible refine act_keeps (fun _ _ => ?_) ?_
                | with_reducible apply execTlyScaleGo_keeps | with_reducible apply execBlazePost_keeps
                | with_reducible apply busWrite_keeps | with_reducible apply act_keeps | with_reducible apply Keeps.ite

theorem busEvt_keeps (r : RegDef) (i : ℕ) (j : ℕ) (w : BusW) (h : Keeps s u) : Keeps s (busEvt r i j w u) := by
  unfold busEvt
  repeat' first | with_reducible assumption | with_reducible refine act_keeps (fun _ _ => ?_) ?_
                | with_reducible apply execEventPendClear_keeps | with_reducible apply execSoftwareEvent_keeps
                | with_reducible apply busWrite_keeps | with_reducible apply put2_keeps | with_reducible apply act_keeps
                | with_reducible apply Keeps.ite

theorem busFlt_keeps (r : RegDef) (i : ℕ) (j : ℕ) (w : BusW) (h : Keeps s u) : Keeps s (busFlt r i j w u) := by
  unfold busFlt
  repeat' first | with_reducible assumption | with_reducible refine act_keeps (fun _ _ => ?_) ?_ | dsimp only
                | with_reducible apply execFltChkLatchClear_keeps | with_reducible apply execFltFc3AckWrite_keeps
                | with_reducible apply execFltAckWrite_keeps | with_reducible apply execFltClrWrite_keeps
                | with_reducible apply execFltFc3Clear_keeps | with_reducible apply execFltInjArm_keeps
                | with_reducible apply busWrite_keeps | with_reducible apply keepFld_keeps | with_reducible apply act_keeps
                | with_reducible apply wr_keeps | with_reducible apply Keeps.ite

theorem busMgt_keeps (r : RegDef) (i : ℕ) (j : ℕ) (w : BusW) (h : Keeps s u) : Keeps s (busMgt r i j w u) := by
  unfold busMgt
  repeat' first | with_reducible assumption | with_reducible refine act_keeps (fun _ _ => ?_) ?_
                | with_reducible apply execFuseBurn_keeps | with_reducible apply execActDone_keeps
                | with_reducible apply execWdtKick_keeps | with_reducible apply execActGo_keeps
                | with_reducible apply busWrite_keeps | with_reducible apply put_keeps | with_reducible apply act_keeps
                | with_reducible apply Keeps.ite

theorem busPd_keeps (w : BusW) (h : Keeps s u) : Keeps s (busPd w u) := by
  unfold busPd
  repeat' first | with_reducible assumption | with_reducible refine act_keeps (fun _ _ => ?_) ?_
                | with_reducible apply execStandbyRequest_keeps | with_reducible apply execArmDomainOff_keeps
                | with_reducible apply execArmDomainOn_keeps | with_reducible apply execCprWake_keeps
                | with_reducible apply act_keeps | with_reducible refine upTo_keeps (fun _ _ _ => ?_) _ ?_

theorem busCpr_keeps (m : Master) (r : RegDef) (i : ℕ) (j : ℕ) (w : BusW) (h : Keeps s u) : Keeps s (busCpr m r i j w u) := by
  unfold busCpr
  repeat' first | with_reducible assumption | with_reducible refine act_keeps (fun _ _ => ?_) ?_
                | with_reducible apply execCprRetractSet_keeps | with_reducible apply execCprRetractRel_keeps
                | with_reducible apply execDumpRestore_keeps | with_reducible apply execLyoloReset_keeps
                | with_reducible apply execWarmReset_keeps | with_reducible apply execDumpArm_keeps
                | with_reducible apply busWrite_keeps | with_reducible apply keepFld_keeps | with_reducible apply busPd_keeps
                | with_reducible apply act_keeps | with_reducible apply Keeps.ite

theorem busAct_keeps (m : Master) (r : RegDef) (i : ℕ) (j : ℕ) (w : BusW) (h : Keeps s u) : Keeps s (busAct m r i j w u) := by
  unfold busAct
  repeat' first | with_reducible assumption | simp only [Keeps.upd] | with_reducible apply busWrite_keeps
                | with_reducible apply busLane_keeps | with_reducible apply busDeck_keeps | with_reducible apply busSpr_keeps
                | with_reducible apply busDec_keeps | with_reducible apply busSrv_keeps | with_reducible apply busSpm_keeps
                | with_reducible apply busGov_keeps | with_reducible apply busLnd_keeps | with_reducible apply busYrd_keeps
                | with_reducible apply busBlz_keeps | with_reducible apply busEvt_keeps | with_reducible apply busFlt_keeps
                | with_reducible apply busMgt_keeps | with_reducible apply busCpr_keeps | split

theorem itemPart_keeps (r : RegDef) (i : ℕ) (j : ℕ) (be : ℕ) (v : ℕ) (m : ℕ) (h : Keeps s u) :
    Keeps s (itemPart r i j be v m u) := by
  unfold itemPart
  repeat' first | with_reducible assumption | dsimp only | with_reducible apply takeFree_keeps
                | refine takeFree_of ?_ (by assumption) | with_reducible apply busAct_keeps | with_reducible apply wr_keeps
                | with_reducible apply Keeps.ite | split

theorem itemApply_keeps (x : RecItem) (h : Keeps s u) : Keeps s (itemApply x u) := by
  unfold itemApply
  repeat' first | with_reducible assumption | with_reducible apply itemPart_keeps
                | with_reducible refine each_keeps (fun _ _ _ => ?_) _ ?_

theorem itemsApply_keeps (l : List RecItem) (h : Keeps s u) : Keeps s (itemsApply l u) := by
  unfold itemsApply
  repeat' first | with_reducible assumption | with_reducible apply itemApply_keeps
                | with_reducible refine each_keeps (fun _ _ _ => ?_) _ ?_

theorem recUse_keeps (b : List Byte) (h : Keeps s u) : Keeps s (recUse b u) := by
  unfold recUse
  repeat' first | with_reducible assumption | simp only [Keeps.upd] | with_reducible apply put_keeps

theorem cfgBoot_keeps  (h : Keeps s u) : Keeps s (cfgBoot u) := by
  unfold cfgBoot
  repeat' first | with_reducible assumption | dsimp only | with_reducible apply raiseEvent_keeps
                | with_reducible apply itemsApply_keeps | with_reducible apply report_keeps
                | with_reducible apply recUse_keeps | with_reducible apply put_keeps | with_reducible apply Keeps.ite | split

theorem bootSlot_keeps  (h : Keeps s u) : Keeps s (bootSlot u) := by
  unfold bootSlot
  repeat' first | with_reducible assumption | with_reducible apply segsLoad_keeps | with_reducible apply selWrite_keeps
                | with_reducible apply put_keeps | with_reducible apply Keeps.ite

theorem bootRelease_keeps  (h : Keeps s u) : Keeps s (bootRelease u) := by
  unfold bootRelease
  repeat' first | with_reducible assumption | simp only [Keeps.upd] | with_reducible apply blzEnter_keeps
                | with_reducible apply put_keeps | with_reducible apply Keeps.ite

theorem ratioCheck_keeps (h : Keeps s u) : Keeps s (ratioCheck u) := by
  unfold ratioCheck
  split
  · exact h
  · exact Keeps.upd.2 ((h.setSram (n := []) fun _ => rfl).setLand (n := []) fun _ => rfl)

theorem txnAsk_keeps (slot : Option (Fin 4096)) (w : BusW) (a : ℕ) (h : Keeps s u) : Keeps s (txnAsk slot w a u).2 := by
  unfold txnAsk
  repeat' first | with_reducible assumption | dsimp only | with_reducible apply busWrite_keeps
                | with_reducible apply Keeps.ite | split

theorem txnAsk_of {slot : Option (Fin 4096)} {w : BusW} {a : ℕ} {x : Option (Option Cmd)} {t : State} (h : Keeps s u) (he0 : txnAsk slot w a u = (x, t)) :
    Keeps s t := by
  have := txnAsk_keeps slot w a  h; rw [he0] at this; exact this

theorem txnEnd_keeps (o : Option Cmd) (st : ℕ) (dw0 : ℕ) (h : Keeps s u) : Keeps s (txnEnd o st dw0 u) := by
  unfold txnEnd
  repeat' first | with_reducible assumption | simp only [Keeps.upd] | with_reducible apply admEnd_keeps
                | with_reducible apply put_keeps | split

theorem txnOther_keeps (x : Cmd) (h : Keeps s u) : Keeps s (txnOther x u) := by
  unfold txnOther
  repeat' first | with_reducible assumption | with_reducible apply admEnd_keeps

theorem txnOn_keeps (o : Option Cmd) (f : State → State) (hf : ∀  v, Keeps s v → Keeps s (f  v)) (h : Keeps s u) :
    Keeps s (txnOn o f u) := by
  unfold txnOn
  repeat' first | with_reducible assumption | dsimp only | with_reducible apply txnOther_keeps
                | with_reducible apply admEnd_keeps | with_reducible apply txnEnd_keeps | (with_reducible apply hf)
                | with_reducible apply Keeps.ite | split

theorem execTxnBegin_keeps (slot : Option (Fin 4096)) (w : BusW) (h : Keeps s u) : KeepsA s (execTxnBegin slot w u) := by
  unfold execTxnBegin
  repeat' first | with_reducible assumption | with_reducible apply KeepsA.next | simp only [Keeps.upd]
                | with_reducible apply txnAsk_keeps | refine txnAsk_of ?_ (by assumption) | with_reducible apply txnEnd_keeps
                | with_reducible apply put_keeps | with_reducible apply KeepsA.ite | with_reducible apply Keeps.ite | split

theorem stageItems_keeps (o : Option Cmd) (h : Keeps s u) : Keeps s (stageItems o u) := by
  unfold stageItems
  repeat' first | with_reducible assumption | simp only [Keeps.upd] | with_reducible apply txnEnd_keeps
                | with_reducible apply Keeps.ite | split

theorem execTxnStage_keeps (slot : Option (Fin 4096)) (w : BusW) (h : Keeps s u) : KeepsA s (execTxnStage slot w u) := by
  unfold execTxnStage
  repeat' first | with_reducible assumption | with_reducible apply KeepsA.next | simp only [Keeps.upd]
                | with_reducible apply stageItems_keeps | with_reducible apply txnAsk_keeps
                | refine txnAsk_of ?_ (by assumption) | with_reducible apply txnOn_keeps | with_reducible apply KeepsA.ite
                | with_reducible apply Keeps.ite | split | intro _

theorem execTxnRollback_keeps (slot : Option (Fin 4096)) (w : BusW) (h : Keeps s u) : KeepsA s (execTxnRollback slot w u) := by
  unfold execTxnRollback
  repeat' first | with_reducible assumption | with_reducible apply KeepsA.next | simp only [Keeps.upd]
                | with_reducible apply txnIdle_keeps | with_reducible apply txnAsk_keeps | refine txnAsk_of ?_ (by assumption)
                | with_reducible apply txnEnd_keeps | with_reducible apply txnOn_keeps | split | intro _

theorem execTxnQuery_keeps (slot : Option (Fin 4096)) (w : BusW) (h : Keeps s u) : KeepsA s (execTxnQuery slot w u) := by
  unfold execTxnQuery
  repeat' first | with_reducible assumption | with_reducible apply KeepsA.next | simp only [Keeps.upd]
                | with_reducible apply txnOther_keeps | with_reducible apply admEnd_keeps | with_reducible apply txnAsk_keeps
                | refine txnAsk_of ?_ (by assumption) | with_reducible apply txnEnd_keeps | with_reducible apply KeepsA.ite
                | with_reducible apply Keeps.ite | split

theorem commitEnd_keeps (num : Option ℕ) (err : ℕ) (item : ℕ) (st : ℕ) (h : Keeps s u) :
    Keeps s (commitEnd num err item st u) := by
  unfold commitEnd
  repeat' first | with_reducible assumption | simp only [Keeps.upd] | with_reducible apply actWaiting_keeps
                | with_reducible apply admEnd_keeps | with_reducible apply put_keeps | split

theorem commitStart_keeps (o : Option Cmd) (h : Keeps s u) : Keeps s (commitStart o u) := by
  unfold commitStart
  repeat' first | with_reducible assumption | simp only [Keeps.upd] | with_reducible apply commitEnd_keeps
                | with_reducible apply norErase_keeps | with_reducible apply setCmd_keeps | with_reducible apply put_keeps
                | with_reducible apply Keeps.ite | split

theorem execTxnCommit_keeps (slot : Option (Fin 4096)) (w : BusW) (h : Keeps s u) : KeepsA s (execTxnCommit slot w u) := by
  unfold execTxnCommit
  repeat' first | with_reducible assumption | with_reducible apply KeepsA.next | simp only [Keeps.upd]
                | with_reducible apply commitStart_keeps | with_reducible apply txnAsk_keeps
                | refine txnAsk_of ?_ (by assumption) | with_reducible apply txnOn_keeps | split | intro _

theorem commitDone_keeps  (h : Keeps s u) : Keeps s (commitDone u) := by
  unfold commitDone
  repeat' first | with_reducible assumption | with_reducible apply commitEnd_keeps | with_reducible apply recUse_keeps
                | with_reducible apply put_keeps

theorem commitBlobs_keeps  (h : Keeps s u) : Keeps s (commitBlobs u) := by
  unfold commitBlobs
  repeat' first | with_reducible assumption | with_reducible apply raiseEvent_keeps | with_reducible apply commitDone_keeps
                | with_reducible apply Keeps.ite

theorem commitApply_keeps  (h : Keeps s u) : Keeps s (commitApply u) := by
  unfold commitApply
  repeat' first | with_reducible assumption | simp only [Keeps.upd] | with_reducible apply commitBlobs_keeps
                | with_reducible apply itemsApply_keeps | with_reducible apply put_keeps | with_reducible apply Keeps.ite

theorem execCfgBlobDone_keeps (w : BusW) (h : Keeps s u) : KeepsA s (execCfgBlobDone w u) := by
  unfold execCfgBlobDone
  repeat' first | with_reducible assumption | with_reducible apply KeepsA.next | with_reducible apply commitDone_keeps
                | with_reducible apply KeepsA.ite | with_reducible apply Keeps.ite

theorem readEffect_keeps (r : RegDef) (i : ℕ) (j : ℕ) (be : ℕ) (h : Keeps s u) : Keeps s (readEffect r i j be u) := by
  unfold readEffect
  repeat' first | with_reducible assumption | simp only [Keeps.upd] | with_reducible apply putFBit_keeps
                | with_reducible apply wr_keeps | with_reducible refine each_keeps (fun _ _ _ => ?_) _ ?_
                | with_reducible apply Keeps.ite | split

theorem busRead_keeps (r : RegDef) (i : ℕ) (j : ℕ) (be : ℕ) (h : Keeps s u) : Keeps s (busRead r i j be u).2 := by
  unfold busRead
  repeat' first | with_reducible assumption | with_reducible apply readEffect_keeps

theorem busRead_of {r : RegDef} {i : ℕ} {j : ℕ} {be : ℕ} {x : ℕ} {t : State} (h : Keeps s u) (he0 : busRead r i j be u = (x, t)) :
    Keeps s t := by
  have := busRead_keeps r i j be  h; rw [he0] at this; exact this

theorem readParts_keeps (a : ℕ) (l : List (RegDef × ℕ × ℕ × BusW)) : ∀ {u : State}, Keeps s u → Keeps s (readParts a l u).2 := by
  induction l with
  | nil => exact fun h => h
  | cons e l ih => exact fun h => ih (busRead_keeps _ _ _ _ h)

theorem readParts_of {a : ℕ} {l : List (RegDef × ℕ × ℕ × BusW)} {x : ℕ} {t : State} (h :
    Keeps s u) (he0 : readParts a l u = (x, t)) :
    Keeps s t := by
  have := readParts_keeps a l h; rw [he0] at this; exact this

theorem blockRead_keeps (a : ℕ) (n : ℕ) (h : Keeps s u) : Keeps s (blockRead a n u).2 := by
  unfold blockRead
  repeat' first | with_reducible assumption | dsimp only | with_reducible apply readParts_keeps

theorem blockRead_of {a : ℕ} {n : ℕ} {x : ℕ} {t : State} (h : Keeps s u) (he0 : blockRead a n u = (x, t)) : Keeps s t := by
  have := blockRead_keeps a n  h; rw [he0] at this; exact this

theorem busTxn_keeps (w : BusW) (h : Keeps s u) : Keeps s (busTxn w u) := by
  unfold busTxn
  repeat' first | with_reducible assumption | with_reducible refine act_keeps (fun _ _ => ?_) ?_ | simp only [Keeps.upd]
                | with_reducible apply execTxnRollback_keeps | with_reducible apply execTxnCommit_keeps
                | with_reducible apply execTxnBegin_keeps | with_reducible apply execTxnStage_keeps
                | with_reducible apply execTxnQuery_keeps | with_reducible apply busWrite_keeps
                | with_reducible apply act_keeps | split

theorem busAll_keeps (m : Master) (r : RegDef) (i : ℕ) (j : ℕ) (w : BusW) (h : Keeps s u) : Keeps s (busAll m r i j w u) := by
  unfold busAll
  repeat' first | with_reducible assumption | with_reducible refine act_keeps (fun _ _ => ?_) ?_
                | with_reducible apply execCfgBlobDone_keeps | with_reducible apply execCfgLock_keeps
                | with_reducible apply busAct_keeps | with_reducible apply busTxn_keeps | with_reducible apply act_keeps
                | with_reducible apply Keeps.ite

theorem blockWrite_keeps (m : Master) (a : ℕ) (n : ℕ) (data : ℕ) (h : Keeps s u) : Keeps s (blockWrite m a n data u) := by
  unfold blockWrite
  repeat' first | with_reducible assumption | with_reducible apply busAll_keeps
                | with_reducible refine each_keeps (fun _ _ _ => ?_) _ ?_

theorem sramStore_keeps (m : Master) (a : ℕ) (bs : List Byte) (h : Keeps s u) : Keeps s (sramStore m a bs u) := by
  unfold sramStore
  repeat' first | with_reducible assumption | simp only [Keeps.upd] | with_reducible apply sramWrite_keeps
                | with_reducible apply relocSeen_keeps | with_reducible apply cpStore_keeps | split

theorem intWrite_keeps (m : Master) (a : ℕ) (n : ℕ) (data : ℕ) (h : Keeps s u) : Keeps s (intWrite m a n data u) := by
  unfold intWrite
  repeat' first | with_reducible assumption | with_reducible apply blockWrite_keeps | with_reducible apply sramStore_keeps
                | with_reducible apply busError_keeps | with_reducible apply cmbStore_keeps | with_reducible apply Keeps.ite

theorem intRead_keeps (m : Master) (a : ℕ) (n : ℕ) (h : Keeps s u) : Keeps s (intRead m a n u) := by
  unfold intRead
  repeat' first | with_reducible assumption | dsimp only | with_reducible apply blockRead_keeps
                | refine blockRead_of ?_ (by assumption) | with_reducible apply busError_keeps
                | with_reducible apply cpLoad_keeps | refine cpLoad_of ?_ (by assumption) | with_reducible apply emit_keeps
                | with_reducible apply hold_keeps | with_reducible apply Keeps.ite | split

theorem lyoWrite_keeps (a n data : ℕ) (h : Keeps s u) : Keeps s (lyoWrite a n data u) := by
  unfold lyoWrite
  split
  · exact h
  · split
    · exact h.setLyo putBytes_ok
    · split
      · exact act_keeps (fun _ g => execLandingWrite_keeps _ _ _ _ _ _ g) h
      · split
        · exact intWrite_keeps _ _ _ _ h
        · exact busError_keeps _ _ _ h

theorem lyoRead_keeps (a : ℕ) (n : ℕ) (h : Keeps s u) : Keeps s (lyoRead a n u) := by
  unfold lyoRead
  repeat' first | with_reducible assumption | with_reducible refine act_keeps (fun _ _ => ?_) ?_ | simp only [Keeps.upd]
                | with_reducible apply execLandingRead_keeps | with_reducible apply busError_keeps
                | with_reducible apply intRead_keeps | with_reducible apply emit_keeps | with_reducible apply act_keeps
                | with_reducible apply Keeps.ite | split

theorem busCmd_keeps (f : Fin 64) (w : BusW) (h : Keeps s u) : Keeps s (busCmd f w u) := by
  unfold busCmd
  repeat' first | with_reducible assumption | with_reducible refine act_keeps (fun _ _ => ?_) ?_
                | with_reducible apply execIntModeChange_keeps | with_reducible apply execBmeClear_keeps
                | with_reducible apply execBmeSet_keeps | with_reducible apply busWrite_keeps | with_reducible apply act_keeps
                | with_reducible apply Keeps.ite

theorem busPower_keeps (f : Fin 64) (w : BusW) (h : Keeps s u) : Keeps s (busPower f w u) := by
  unfold busPower
  repeat' first | with_reducible assumption | with_reducible refine act_keeps (fun _ _ => ?_) ?_
                | with_reducible apply execPowerStateD3hot_keeps | with_reducible apply execPowerStateD0_keeps
                | with_reducible apply act_keeps | with_reducible apply Keeps.ite

theorem busMsix_keeps (f : Fin 64) (w : BusW) (h : Keeps s u) : Keeps s (busMsix f w u) := by
  unfold busMsix
  repeat' first | with_reducible assumption | with_reducible refine act_keeps (fun _ _ => ?_) ?_
                | with_reducible apply execIntModeChange_keeps | with_reducible apply execMsixUnmask_keeps
                | with_reducible apply busWrite_keeps | with_reducible apply act_keeps | with_reducible apply Keeps.ite

theorem busNumVfs_keeps (w : BusW) (h : Keeps s u) : Keeps s (busNumVfs w u) := by
  unfold busNumVfs
  repeat' first | with_reducible assumption | with_reducible apply busWrite_keeps | with_reducible apply Keeps.ite

theorem busVfBar2_keeps (w : BusW) (h : Keeps s u) : Keeps s (busVfBar2 w u) := by
  unfold busVfBar2
  repeat' first | with_reducible assumption | with_reducible apply busWrite_keeps | with_reducible apply wr_keeps

theorem busMsixEntry_keeps (r : RegDef) (f : Fin 64) (j : ℕ) (w : BusW) (h : Keeps s u) : Keeps s (busMsixEntry r f j w u) := by
  unfold busMsixEntry
  repeat' first | with_reducible assumption | with_reducible refine act_keeps (fun _ _ => ?_) ?_
                | with_reducible apply execMsixUnmask_keeps | with_reducible apply busWrite_keeps
                | with_reducible apply act_keeps | with_reducible apply Keeps.ite

theorem busHost_keeps (r : RegDef) (f : Fin 64) (j : ℕ) (w : BusW) (h : Keeps s u) : Keeps s (busHost r f j w u) := by
  unfold busHost
  repeat' first | with_reducible assumption | with_reducible refine act_keeps (fun _ _ => ?_) ?_
                | with_reducible apply execIntModeChange_keeps | with_reducible apply execCcShutdown_keeps
                | with_reducible apply execIntmsWrite_keeps | with_reducible apply execIntmcWrite_keeps
                | with_reducible apply execCcDisable_keeps | with_reducible apply execVfDisable_keeps
                | with_reducible apply execCcEnable_keeps | with_reducible apply execVfEnable_keeps
                | with_reducible apply busMsixEntry_keeps | with_reducible apply busNumVfs_keeps
                | with_reducible apply busVfBar2_keeps | with_reducible apply busWrite_keeps
                | with_reducible apply flushMsi_keeps | with_reducible apply busPower_keeps
                | with_reducible apply execFlr_keeps | with_reducible apply busMsix_keeps | with_reducible apply busCmd_keeps
                | with_reducible apply tagGo_keeps | with_reducible apply act_keeps | with_reducible apply Keeps.ite

theorem doorbell_keeps (f : Fin 64) (o : ℕ) (v : ℕ) (h : Keeps s u) : Keeps s (doorbell f o v u) := by
  unfold doorbell
  repeat' first | with_reducible assumption | with_reducible refine act_keeps (fun _ _ => ?_) ?_
                | with_reducible apply execSqTailDoorbell_keeps | with_reducible apply execCqHeadDoorbell_keeps
                | with_reducible apply act_keeps | with_reducible apply Keeps.ite

theorem hostWrite_keeps (f : Fin 64) (a : ℕ) (n : ℕ) (data : ℕ) (ep : Bool) (h : Keeps s u) :
    Keeps s (hostWrite f a n data ep u) := by
  unfold hostWrite
  repeat' first | with_reducible assumption | dsimp only | with_reducible apply doorbell_keeps
                | with_reducible apply inbound_keeps | with_reducible apply cfgWait_keeps | with_reducible apply barDrop_keeps
                | with_reducible apply busHost_keeps | with_reducible apply toHost_keeps | with_reducible apply poisIn_keeps
                | with_reducible refine each_keeps (fun _ _ _ => ?_) _ ?_
                | with_reducible refine upTo_keeps (fun _ _ _ => ?_) _ ?_ | with_reducible apply Keeps.ite | split

theorem hostRead_keeps (f : Fin 64) (a : ℕ) (n : ℕ) (h : Keeps s u) : Keeps s (hostRead f a n u) := by
  unfold hostRead
  repeat' first | with_reducible assumption | dsimp only | with_reducible apply readParts_keeps
                | refine readParts_of ?_ (by assumption) | with_reducible apply inbound_keeps
                | with_reducible apply cfgWait_keeps | with_reducible apply barDrop_keeps | with_reducible apply emit_keeps
                | with_reducible apply Keeps.ite | split

theorem yrdGet_keeps (a : ℕ) (w : ℕ) (e : Option Ecc) (h : Keeps s u) : Keeps s (yrdGet a w e u).2 := by
  unfold yrdGet
  repeat' first | with_reducible assumption | dsimp only | with_reducible apply blockRead_keeps
                | refine blockRead_of ?_ (by assumption) | with_reducible apply eccRead_keeps
                | refine eccRead_of ?_ (by assumption) | with_reducible apply Keeps.ite | split

theorem yrdGet_of {a : ℕ} {w : ℕ} {e : Option Ecc} {x : List (Byte × Bool)} {t : State} (h : Keeps s u) (he0 : yrdGet a w e u = (x, t)) :
    Keeps s t := by
  have := yrdGet_keeps a w e  h; rw [he0] at this; exact this

theorem yrdReads_keeps (w step n : ℕ) : ∀ (a g : ℕ) (es : List Ecc) {u : State}, Keeps s u → Keeps s (yrdReads w step n a g es u).2 := by
  induction n with
  | zero => exact fun _ _ _ _ h => h
  | succ n ih =>
    intro a g es u h
    unfold yrdReads
    split
    · exact busError_keeps _ _ _ h
    · exact ih _ _ _ (yrdGet_keeps _ _ _ h)

theorem yrdReads_of {w step n a g : ℕ} {es : List Ecc} {x : List (Byte × Bool) × Bool × ℕ × List Ecc} {t : State} (h :
    Keeps s u)
    (he0 : yrdReads w step n a g es u = (x, t)) : Keeps s t := by
  have := yrdReads_keeps w step n a g es h; rw [he0] at this; exact this

theorem yrdPut_keeps (a : ℕ) (bs : List (Byte × Bool)) (h : Keeps s u) : Keeps s (yrdPut a bs u) := by
  unfold yrdPut
  repeat' first | with_reducible assumption | with_reducible apply blockWrite_keeps | with_reducible apply sramWrite_keeps
                | with_reducible apply relocSeen_keeps | with_reducible apply cmbStore_keeps
                | with_reducible apply landPut_keeps | with_reducible apply Keeps.ite

theorem yrdWrites_keeps (w step n : ℕ) : ∀ (a : ℕ) (bs : List (Byte × Bool)) {u : State}, Keeps s u → Keeps s (yrdWrites w step n a bs u).2 := by
  induction n with
  | zero => exact fun _ _ _ h => h
  | succ n ih =>
    intro a bs u h
    unfold yrdWrites
    split
    · exact h
    · split
      · exact busError_keeps _ _ _ h
      · exact ih _ _ (yrdPut_keeps _ _ h)

theorem yrdWrites_of {w step n a : ℕ} {bs : List (Byte × Bool)} {x : ℕ × Bool} {t : State} (h : Keeps s u)
    (he0 : yrdWrites w step n a bs u = (x, t)) : Keeps s t := by
  have := yrdWrites_keeps w step n a bs h; rw [he0] at this; exact this

theorem yrdSource_keeps (d : YDesc) (g : ℕ) (ecc : List Ecc) (h : Keeps s u) : Keeps s (yrdSource d g ecc u).2 := by
  unfold yrdSource
  repeat' first | with_reducible assumption | simp only [Keeps.upd] | with_reducible apply yrdReads_keeps
                | refine yrdReads_of ?_ (by assumption) | with_reducible apply Keeps.ite | split

theorem yrdSource_of {d : YDesc} {g : ℕ} {ecc : List Ecc} {x : (List (Byte × Bool) × Bool × ℕ × List Ecc)} {t : State} (h : Keeps s u) (he0 : yrdSource d g ecc u = (x, t)) :
    Keeps s t := by
  have := yrdSource_keeps d g ecc  h; rw [he0] at this; exact this

theorem yrdDest_keeps (d : YDesc) (bs : List (Byte × Bool)) (h : Keeps s u) : Keeps s (yrdDest d bs u).2 := by
  unfold yrdDest
  repeat' first | with_reducible assumption | dsimp only | with_reducible apply yrdWrites_keeps
                | refine yrdWrites_of ?_ (by assumption) | with_reducible apply sendData_keeps
                | with_reducible apply Keeps.ite | split

theorem yrdDest_of {d : YDesc} {bs : List (Byte × Bool)} {x : (ℕ × Bool)} {t : State} (h : Keeps s u) (he0 : yrdDest d bs u = (x, t)) :
    Keeps s t := by
  have := yrdDest_keeps d bs  h; rw [he0] at this; exact this

theorem yrdFill_keeps (d : YDesc) (g : ℕ) (ecc : List Ecc) (h : Keeps s u) : Keeps s (yrdFill d g ecc u).2 := by
  unfold yrdFill
  repeat' first | with_reducible assumption | dsimp only | with_reducible apply yrdSource_keeps
                | refine yrdSource_of ?_ (by assumption) | with_reducible apply yrdDest_keeps

theorem yrdFill_of {d : YDesc} {g : ℕ} {ecc : List Ecc} {x : (YDesc × ℕ × List Ecc)} {t : State} (h : Keeps s u) (he0 : yrdFill d g ecc u = (x, t)) :
    Keeps s t := by
  have := yrdFill_keeps d g ecc  h; rw [he0] at this; exact this

theorem yrdFills_keeps (k : ℕ) : ∀ (d : YDesc) (g : ℕ) (es : List Ecc) {u : State}, Keeps s u → Keeps s (yrdFills k d g es u).2 := by
  induction k with
  | zero => exact fun _ _ _ _ h => h
  | succ k ih =>
    intro d g es u h
    unfold yrdFills
    split
    · exact h
    · exact ih _ _ _ (yrdFill_keeps _ _ _ h)

theorem yrdFills_of {k : ℕ} {d : YDesc} {g : ℕ} {es : List Ecc} {x : YDesc} {t : State} (h : Keeps s u)
    (he0 : yrdFills k d g es u = (x, t)) : Keeps s t := by
  have := yrdFills_keeps k d g es h; rw [he0] at this; exact this

theorem yrdMove_keeps (n : ℕ) (d : YDesc) (ecc : List Ecc) (h : Keeps s u) : Keeps s (yrdMove n d ecc u) := by
  unfold yrdMove
  repeat' first | with_reducible assumption | dsimp only | with_reducible apply chunksBack_keeps
                | with_reducible apply yrdFinish_keeps | with_reducible apply yrdFills_keeps
                | refine yrdFills_of ?_ (by assumption) | with_reducible apply yrdFill_keeps
                | refine yrdFill_of ?_ (by assumption) | with_reducible apply setYch_keeps | with_reducible apply yrdAsk_keeps
                | with_reducible apply Keeps.ite | split

end Sys2Proof.Laws
end

