-- ==== Sys2Proof/Laws/Mem.lean ====
section
/-! SUPPORT. Laws of the memories: what a byte reads as after a run of bytes is stored, programmed or erased, and what breaking a
reservation leaves alone. -/

namespace Sys2Proof.Laws

open Sys2Proof Sys2Proof.Machine

theorem get?_putBytes (j : Nat) (bs : List Byte) : ∀ (t : Tab Byte) (a : Nat),
    Tab.get? (putBytes t a bs) j = if a ≤ j ∧ j < a + bs.length then bs[j - a]? else Tab.get? t j := by
  induction bs with
  | nil => intro t a; simp [putBytes]
  | cons b bs ih =>
    intro t a
    simp only [putBytes, ih, List.length_cons]
    by_cases h1 : a + 1 ≤ j ∧ j < a + 1 + bs.length
    · rw [if_pos h1, if_pos (by omega), show j - a = (j - (a + 1)) + 1 by omega]; simp
    · rw [if_neg h1, Tab.get?_put]
      by_cases h2 : a = j
      · subst h2; simp
      · rw [if_neg h2, if_neg (by omega)]

theorem get_set_ite {α : Type} [DecidableEq α] (t : Tab α) (d v : α) (k j : Nat) :
    Tab.get (Tab.set t d k v) d j = if k = j then v else Tab.get t d j := by
  split
  · subst_vars; exact Tab.get_set _ _ _ _
  · exact Tab.get_set_other _ _ _ _ (by assumption)

theorem get_putFF (j : Nat) (bs : List Byte) : ∀ (t : Tab Byte) (a : Nat),
    Tab.get (putFF t a bs) 0xFF j = if a ≤ j ∧ j < a + bs.length then (bs[j - a]?).getD 0 else Tab.get t 0xFF j := by
  induction bs with
  | nil => intro t a; simp [putFF]
  | cons b bs ih =>
    intro t a
    simp only [putFF, ih, List.length_cons]
    by_cases h1 : a + 1 ≤ j ∧ j < a + 1 + bs.length
    · rw [if_pos h1, if_pos (by omega), show j - a = (j - (a + 1)) + 1 by omega]; simp
    · rw [if_neg h1, get_set_ite]
      by_cases h2 : a = j
      · subst h2; simp
      · rw [if_neg h2, if_neg (by omega)]

theorem get?_clear {α : Type} (t : Tab α) (lo hi j : Nat) :
    Tab.get? (Tab.clear t lo hi) j = if lo ≤ j ∧ j < hi then none else Tab.get? t j := by
  induction t with
  | nil => simp [Tab.clear, Tab.get?]
  | cons e t ih =>
    obtain ⟨a, v⟩ := e
    simp only [Tab.clear] at ih
    simp only [Tab.clear, List.filter_cons]
    by_cases hk : a < lo ∨ hi ≤ a
    · have hk' : (decide (a < lo) || decide (hi ≤ a)) = true := by simpa using hk
      simp only [hk', if_true, Tab.get?, ih]
      by_cases h : a = j
      · subst h; rw [if_pos rfl, if_neg (by omega)]; simp
      · simp [h]
    · have hk' : (decide (a < lo) || decide (hi ≤ a)) = false := by simpa using hk
      simp only [hk', Bool.false_eq_true, if_false, ih, Tab.get?]
      by_cases h : a = j
      · subst h; rw [if_pos (by omega), if_pos (by omega)]
      · simp [h]

/-- Breaking reservations changes no byte, mark, merge buffer entry or era. -/
theorem breakResv_frame (a n : Nat) (s : State) :
    (breakResv a n s).sram = s.sram ∧ (breakResv a n s).sramEra = s.sramEra ∧ (breakResv a n s).land = s.land ∧
      (breakResv a n s).landEra = s.landEra ∧ (breakResv a n s).lnd.bad = s.lnd.bad ∧
      (breakResv a n s).lnd.mrg = s.lnd.mrg := by
  unfold breakResv; split <;> simp

end Sys2Proof.Laws
end

