-- ==== Sys2Proof/Laws/PerInstr.lean ====
section
/-! SUPPORT. What holds of each command as syntax: no word spells it, since no row of the command table gives its command bits
(log entry 15). -/

namespace Sys2Proof.Laws

/-- No word of any length spells the command. -/
def NoWord.Statement (i : Instr) : Prop := ∀ nbits w : Nat, decodeTableWord nbits w ≠ some i

/-- What the lemmas of the family rest on. -/
theorem noWord (i : Instr) : NoWord.Statement i := fun _ _ => nofun

theorem NoWord.registerWrite (m : Master) (addr size data : Nat) (ep : Bool) : NoWord.Statement (.registerWrite m addr size data ep) := noWord _
theorem NoWord.readClear (m : Master) (addr size : Nat) : NoWord.Statement (.readClear m addr size) := noWord _
theorem NoWord.geoLoad : NoWord.Statement .geoLoad := noWord _
theorem NoWord.geoLoadDone : NoWord.Statement .geoLoadDone := noWord _
theorem NoWord.sprFenceHeadWrite (k : Fin 2) (w : BusW) : NoWord.Statement (.sprFenceHeadWrite k w) := noWord _
theorem NoWord.sprFenceArmWrite (w : BusW) : NoWord.Statement (.sprFenceArmWrite w) := noWord _
theorem NoWord.exec (arm : Fin 4) : NoWord.Statement (.exec arm) := noWord _
theorem NoWord.statReceived (arm : Fin 4) (f : StatFrame) : NoWord.Statement (.statReceived arm f) := noWord _
theorem NoWord.nakReceived (arm : Fin 4) (ackSeq : BitVec 8) (crc : BitVec 16) : NoWord.Statement (.nakReceived arm ackSeq crc) := noWord _
theorem NoWord.rdataReceived (arm : Fin 4) (seq : BitVec 8) (addr data crc : BitVec 16) : NoWord.Statement (.rdataReceived arm seq addr data crc) := noWord _
theorem NoWord.ackTimeout (arm : Fin 4) : NoWord.Statement (.ackTimeout arm) := noWord _
theorem NoWord.uplinkCodeErrors (arm : Fin 4) (n : Nat) : NoWord.Statement (.uplinkCodeErrors arm n) := noWord _
theorem NoWord.statTimeout (arm : Fin 4) : NoWord.Statement (.statTimeout arm) := noWord _
theorem NoWord.wkillRelease (arm : Fin 4) : NoWord.Statement (.wkillRelease arm) := noWord _
theorem NoWord.senseStart (arm : Fin 4) (w : BusW) : NoWord.Statement (.senseStart arm w) := noWord _
theorem NoWord.senseDone (arm : Fin 4) (gaps : List (List (BitVec 12))) : NoWord.Statement (.senseDone arm gaps) := noWord _
theorem NoWord.preampRegAccess (arm : Fin 4) (w : BusW) : NoWord.Statement (.preampRegAccess arm w) := noWord _
theorem NoWord.linkEnable (arm : Fin 4) (w : BusW) : NoWord.Statement (.linkEnable arm w) := noWord _
theorem NoWord.linkDisable (arm : Fin 4) (w : BusW) : NoWord.Statement (.linkDisable arm w) := noWord _
theorem NoWord.linkRetrain (arm : Fin 4) (w : BusW) : NoWord.Statement (.linkRetrain arm w) := noWord _
theorem NoWord.discUplinkIdle (arm : Fin 4) : NoWord.Statement (.discUplinkIdle arm) := noWord _
theorem NoWord.discAbsent (arm : Fin 4) : NoWord.Statement (.discAbsent arm) := noWord _
theorem NoWord.autoRetrain (arm : Fin 4) : NoWord.Statement (.autoRetrain arm) := noWord _
theorem NoWord.laneWake (lane : Fin 64) : NoWord.Statement (.laneWake lane) := noWord _
theorem NoWord.laneWakeDone (lane : Fin 64) : NoWord.Statement (.laneWakeDone lane) := noWord _
theorem NoWord.laneReadyHold (lane : Fin 64) : NoWord.Statement (.laneReadyHold lane) := noWord _
theorem NoWord.profileLoadDone (lane : Fin 64) : NoWord.Statement (.profileLoadDone lane) := noWord _
theorem NoWord.readGate (lane : Fin 64) : NoWord.Statement (.readGate lane) := noWord _
theorem NoWord.syncFound (lane : Fin 64) (bits : List BitIn) : NoWord.Statement (.syncFound lane bits) := noWord _
theorem NoWord.sectorReadEnd (lane : Fin 64) (r : SectorRead) : NoWord.Statement (.sectorReadEnd lane r) := noWord _
theorem NoWord.servoGateOpen (head : Fin 64) (pos : Int) (acks : List (BitVec 8)) : NoWord.Statement (.servoGateOpen head pos acks) := noWord _
theorem NoWord.servoGateClose (head : Fin 64) (len : Nat) : NoWord.Statement (.servoGateClose head len) := noWord _
theorem NoWord.resyncFound (lane : Fin 64) (decs : List Bool) : NoWord.Statement (.resyncFound lane decs) := noWord _
theorem NoWord.laneCalRequest (lane : Fin 64) : NoWord.Statement (.laneCalRequest lane) := noWord _
theorem NoWord.laneCalDone (lane : Fin 64) (subs : List SubCal) : NoWord.Statement (.laneCalDone lane subs) := noWord _
theorem NoWord.synTune (arm : Fin 4) (w : BusW) : NoWord.Statement (.synTune arm w) := noWord _
theorem NoWord.synLocked (arm : Fin 4) : NoWord.Statement (.synLocked arm) := noWord _
theorem NoWord.synLockLost (arm : Fin 4) : NoWord.Statement (.synLockLost arm) := noWord _
theorem NoWord.synWaitTimeout (arm : Fin 4) : NoWord.Statement (.synWaitTimeout arm) := noWord _
theorem NoWord.wpProfileLoadDone (arm : Fin 4) : NoWord.Statement (.wpProfileLoadDone arm) := noWord _
theorem NoWord.wpArmedHold (lane : Fin 64) : NoWord.Statement (.wpArmedHold lane) := noWord _
theorem NoWord.sectorFeedDone (lane : Fin 64) (ecc : List Ecc) : NoWord.Statement (.sectorFeedDone lane ecc) := noWord _
theorem NoWord.blockLate (lane : Fin 64) : NoWord.Statement (.blockLate lane) := noWord _
theorem NoWord.heatSend (arm : Fin 4) : NoWord.Statement (.heatSend arm) := noWord _
theorem NoWord.heatHold (arm : Fin 4) : NoWord.Statement (.heatHold arm) := noWord _
theorem NoWord.writeGateOpen (lane : Fin 64) (lead : Nat) : NoWord.Statement (.writeGateOpen lane lead) := noWord _
theorem NoWord.sectorWriteEnd (lane : Fin 64) (gap : Nat) : NoWord.Statement (.sectorWriteEnd lane gap) := noWord _
theorem NoWord.writeOpEnd (arm : Fin 4) : NoWord.Statement (.writeOpEnd arm) := noWord _
theorem NoWord.slotGrant : NoWord.Statement .slotGrant := noWord _
theorem NoWord.fastDecodeStart (slot : Fin 128) : NoWord.Statement (.fastDecodeStart slot) := noWord _
theorem NoWord.engineWakeDone (eng : Fin 18) : NoWord.Statement (.engineWakeDone eng) := noWord _
theorem NoWord.fastDecodeEnd (eng : Fin 16) (ecc : Ecc) : NoWord.Statement (.fastDecodeEnd eng ecc) := noWord _
theorem NoWord.contextCopyDone (slot : Fin 128) (ecc : Ecc) : NoWord.Statement (.contextCopyDone slot ecc) := noWord _
theorem NoWord.recoveryJobStart : NoWord.Statement .recoveryJobStart := noWord _
theorem NoWord.recoveryJobEnd (eng : Fin 2) : NoWord.Statement (.recoveryJobEnd eng) := noWord _
theorem NoWord.ladderTmax (ctx : Fin 32) : NoWord.Statement (.ladderTmax ctx) := noWord _
theorem NoWord.engineSleep (eng : Fin 18) : NoWord.Statement (.engineSleep eng) := noWord _
theorem NoWord.decFenceWrite (w : BusW) : NoWord.Statement (.decFenceWrite w) := noWord _
theorem NoWord.engineParityError (eng : Fin 18) : NoWord.Statement (.engineParityError eng) := noWord _
theorem NoWord.decBistStart (w : BusW) : NoWord.Statement (.decBistStart w) := noWord _
theorem NoWord.decBistDone (pass : Bool) : NoWord.Statement (.decBistDone pass) := noWord _
theorem NoWord.servoWedge (head : Fin 64) (x : Wedge) : NoWord.Statement (.servoWedge head x) := noWord _
theorem NoWord.servoWedgeMiss (head : Fin 64) (c : MissCause) : NoWord.Statement (.servoWedgeMiss head c) := noWord _
theorem NoWord.servoGroupClose (arm : Fin 4) (isense : Int) : NoWord.Statement (.servoGroupClose arm isense) := noWord _
theorem NoWord.srvLoad (arm : Fin 4) : NoWord.Statement (.srvLoad arm) := noWord _
theorem NoWord.srvUnload (arm : Fin 4) : NoWord.Statement (.srvUnload arm) := noWord _
theorem NoWord.srvGo (arm : Fin 4) (w : BusW) : NoWord.Statement (.srvGo arm w) := noWord _
theorem NoWord.coefSwap (arm : Fin 4) : NoWord.Statement (.coefSwap arm) := noWord _
theorem NoWord.loadAcquired (arm : Fin 4) : NoWord.Statement (.loadAcquired arm) := noWord _
theorem NoWord.loadTimeout (arm : Fin 4) : NoWord.Statement (.loadTimeout arm) := noWord _
theorem NoWord.unloadPhaseEnd (arm : Fin 4) : NoWord.Statement (.unloadPhaseEnd arm) := noWord _
theorem NoWord.parkTimeout (arm : Fin 4) : NoWord.Statement (.parkTimeout arm) := noWord _
theorem NoWord.followEntry (arm : Fin 4) : NoWord.Statement (.followEntry arm) := noWord _
theorem NoWord.settleTimeout (arm : Fin 4) : NoWord.Statement (.settleTimeout arm) := noWord _
theorem NoWord.armMissTimeout (arm : Fin 4) : NoWord.Statement (.armMissTimeout arm) := noWord _
theorem NoWord.headLost (head : Fin 64) : NoWord.Statement (.headLost head) := noWord _
theorem NoWord.maSatExpire (head : Fin 64) : NoWord.Statement (.maSatExpire head) := noWord _
theorem NoWord.wpermRearm (head : Fin 64) : NoWord.Statement (.wpermRearm head) := noWord _
theorem NoWord.vcmMismatch (arm : Fin 4) : NoWord.Statement (.vcmMismatch arm) := noWord _
theorem NoWord.shockSample (ch : Fin 5) (x : Int) : NoWord.Statement (.shockSample ch x) := noWord _
theorem NoWord.shockRearm : NoWord.Statement .shockRearm := noWord _
theorem NoWord.shockInitWindow : NoWord.Statement .shockInitWindow := noWord _
theorem NoWord.shockStuck (ch : Fin 5) : NoWord.Statement (.shockStuck ch) := noWord _
theorem NoWord.spmStart (vs : List Abc) : NoWord.Statement (.spmStart vs) := noWord _
theorem NoWord.spmStop : NoWord.Statement .spmStop := noWord _
theorem NoWord.spmPwmPeriod (adc : Abc) : NoWord.Statement (.spmPwmPeriod adc) := noWord _
theorem NoWord.spmSpeedLoop : NoWord.Statement .spmSpeedLoop := noWord _
theorem NoWord.spmLossOfSync : NoWord.Statement .spmLossOfSync := noWord _
theorem NoWord.spmOffsetCalDone (adc : List Abc) : NoWord.Statement (.spmOffsetCalDone adc) := noWord _
theorem NoWord.spmStictionEnd : NoWord.Statement .spmStictionEnd := noWord _
theorem NoWord.spmAlignEnd : NoWord.Statement .spmAlignEnd := noWord _
theorem NoWord.spmRampWrap : NoWord.Statement .spmRampWrap := noWord _
theorem NoWord.spmHoTimeout : NoWord.Statement .spmHoTimeout := noWord _
theorem NoWord.spmRotorStill (vs : List Abc) : NoWord.Statement (.spmRotorStill vs) := noWord _
theorem NoWord.spmRetryTimeout : NoWord.Statement .spmRetryTimeout := noWord _
theorem NoWord.spmCatchLock (xs : List (Fin 6 × Nat)) : NoWord.Statement (.spmCatchLock xs) := noWord _
theorem NoWord.spmStageFault : NoWord.Statement .spmStageFault := noWord _
theorem NoWord.spmAutoRestart : NoWord.Statement .spmAutoRestart := noWord _
theorem NoWord.spmAtSpeed : NoWord.Statement .spmAtSpeed := noWord _
theorem NoWord.descReadUnit : NoWord.Statement .descReadUnit := noWord _
theorem NoWord.descReadStg : NoWord.Statement .descReadStg := noWord _
theorem NoWord.descWriteStg (ecc : List Ecc) : NoWord.Statement (.descWriteStg ecc) := noWord _
theorem NoWord.descWriteStripe (ecc : List Ecc) : NoWord.Statement (.descWriteStripe ecc) := noWord _
theorem NoWord.stagingWaitExpire : NoWord.Statement .stagingWaitExpire := noWord _
theorem NoWord.stagingRoom : NoWord.Statement .stagingRoom := noWord _
theorem NoWord.stgTailWrite (w : BusW) : NoWord.Statement (.stgTailWrite w) := noWord _
theorem NoWord.stripePassEnd : NoWord.Statement .stripePassEnd := noWord _
theorem NoWord.stripeRebuild : NoWord.Statement .stripeRebuild := noWord _
theorem NoWord.sprSalvStart (w : BusW) : NoWord.Statement (.sprSalvStart w) := noWord _
theorem NoWord.sprSalvPause (w : BusW) : NoWord.Statement (.sprSalvPause w) := noWord _
theorem NoWord.sprSalvResume (w : BusW) : NoWord.Statement (.sprSalvResume w) := noWord _
theorem NoWord.sprSalvAbort (w : BusW) : NoWord.Statement (.sprSalvAbort w) := noWord _
theorem NoWord.salvageBatch : NoWord.Statement .salvageBatch := noWord _
theorem NoWord.salvageStripeJudge : NoWord.Statement .salvageStripeJudge := noWord _
theorem NoWord.lostRingRoom : NoWord.Statement .lostRingRoom := noWord _
theorem NoWord.cruiseVisit : NoWord.Statement .cruiseVisit := noWord _
theorem NoWord.cruiseClassify : NoWord.Statement .cruiseClassify := noWord _
theorem NoWord.cruiseRewrite : NoWord.Statement .cruiseRewrite := noWord _
theorem NoWord.perstAssert : NoWord.Statement .perstAssert := noWord _
theorem NoWord.perstDeassert : NoWord.Statement .perstDeassert := noWord _
theorem NoWord.linkResetEvent (kind : LinkReset) : NoWord.Statement (.linkResetEvent kind) := noWord _
theorem NoWord.linkTrained (speed width : Fin 8) (flit : Bool) : NoWord.Statement (.linkTrained speed width flit) := noWord _
theorem NoWord.aspmL1Entry : NoWord.Statement .aspmL1Entry := noWord _
theorem NoWord.sqTailDoorbell (f : Fin 64) (q : Fin 65) (v : BitVec 32) : NoWord.Statement (.sqTailDoorbell f q v) := noWord _
theorem NoWord.cqHeadDoorbell (f : Fin 64) (q : Fin 65) (v : BitVec 32) : NoWord.Statement (.cqHeadDoorbell f q v) := noWord _
theorem NoWord.ccEnable (f : Fin 64) (w : BusW) : NoWord.Statement (.ccEnable f w) := noWord _
theorem NoWord.ccDisable (f : Fin 64) (w : BusW) : NoWord.Statement (.ccDisable f w) := noWord _
theorem NoWord.ccShutdown (f : Fin 64) (w : BusW) : NoWord.Statement (.ccShutdown f w) := noWord _
theorem NoWord.intmsWrite (f : Fin 64) (w : BusW) : NoWord.Statement (.intmsWrite f w) := noWord _
theorem NoWord.intmcWrite (f : Fin 64) (w : BusW) : NoWord.Statement (.intmcWrite f w) := noWord _
theorem NoWord.cmbWrite (f : Fin 64) (off : BitVec 22) (bs : List (Option Byte)) (ep : Bool) : NoWord.Statement (.cmbWrite f off bs ep) := noWord _
theorem NoWord.cmbRead (f : Fin 64) (off : BitVec 22) (n : Fin 4097) : NoWord.Statement (.cmbRead f off n) := noWord _
theorem NoWord.flr (f : Fin 64) : NoWord.Statement (.flr f) := noWord _
theorem NoWord.flrReady (f : Fin 64) : NoWord.Statement (.flrReady f) := noWord _
theorem NoWord.bmeClear (f : Fin 64) : NoWord.Statement (.bmeClear f) := noWord _
theorem NoWord.bmeSet (f : Fin 64) : NoWord.Statement (.bmeSet f) := noWord _
theorem NoWord.bmeStallExpire (f : Fin 64) : NoWord.Statement (.bmeStallExpire f) := noWord _
theorem NoWord.vfEnable (w : BusW) : NoWord.Statement (.vfEnable w) := noWord _
theorem NoWord.vfDisable (w : BusW) : NoWord.Statement (.vfDisable w) := noWord _
theorem NoWord.powerStateD3hot (f : Fin 64) : NoWord.Statement (.powerStateD3hot f) := noWord _
theorem NoWord.powerStateD0 (f : Fin 64) : NoWord.Statement (.powerStateD0 f) := noWord _
theorem NoWord.msixUnmask (f : Fin 64) (v : Option (Fin 2048)) : NoWord.Statement (.msixUnmask f v) := noWord _
theorem NoWord.intModeChange (f : Fin 64) (msix msi intxOff : Bool) : NoWord.Statement (.intModeChange f msix msi intxOff) := noWord _
theorem NoWord.completionReceived (f : Fin 64) (tag : Nat) (bs : List Byte) (ep ur : Bool) : NoWord.Statement (.completionReceived f tag bs ep ur) := noWord _
theorem NoWord.completionTimeout (f : Fin 64) (tag : Nat) : NoWord.Statement (.completionTimeout f tag) := noWord _
theorem NoWord.sqEntryFetched (f : Fin 64) (q : Fin 65) : NoWord.Statement (.sqEntryFetched f q) := noWord _
theorem NoWord.admitEntry : NoWord.Statement .admitEntry := noWord _
theorem NoWord.chokerEntryTake : NoWord.Statement .chokerEntryTake := noWord _
theorem NoWord.chokerGrant : NoWord.Statement .chokerGrant := noWord _
theorem NoWord.deckIoEn (w : BusW) : NoWord.Statement (.deckIoEn w) := noWord _
theorem NoWord.deckPause (w : BusW) : NoWord.Statement (.deckPause w) := noWord _
theorem NoWord.deckAdminEn (w : BusW) : NoWord.Statement (.deckAdminEn w) := noWord _
theorem NoWord.deckFnWrite (f : Fin 64) (w : BusW) : NoWord.Statement (.deckFnWrite f w) := noWord _
theorem NoWord.chkPortGo (c : Fin 4) (w : BusW) : NoWord.Statement (.chkPortGo c w) := noWord _
theorem NoWord.chkPortRel (c : Fin 4) (w : BusW) : NoWord.Statement (.chkPortRel c w) := noWord _
theorem NoWord.createIoSq (slot : Fin 4096) : NoWord.Statement (.createIoSq slot) := noWord _
theorem NoWord.createIoCq (slot : Fin 4096) : NoWord.Statement (.createIoCq slot) := noWord _
theorem NoWord.deleteIoSq (slot : Fin 4096) : NoWord.Statement (.deleteIoSq slot) := noWord _
theorem NoWord.deleteIoCq (slot : Fin 4096) : NoWord.Statement (.deleteIoCq slot) := noWord _
theorem NoWord.getLogPage (slot : Fin 4096) : NoWord.Statement (.getLogPage slot) := noWord _
theorem NoWord.identify (slot : Fin 4096) : NoWord.Statement (.identify slot) := noWord _
theorem NoWord.abort (slot : Fin 4096) : NoWord.Statement (.abort slot) := noWord _
theorem NoWord.setFeatures (slot : Fin 4096) : NoWord.Statement (.setFeatures slot) := noWord _
theorem NoWord.getFeatures (slot : Fin 4096) : NoWord.Statement (.getFeatures slot) := noWord _
theorem NoWord.asyncEventRequest (slot : Fin 4096) : NoWord.Statement (.asyncEventRequest slot) := noWord _
theorem NoWord.nsCreate (slot : Fin 4096) (addr : Nat) (exts : List (Nat × Nat × Nat)) : NoWord.Statement (.nsCreate slot addr exts) := noWord _
theorem NoWord.nsDelete (slot : Fin 4096) : NoWord.Statement (.nsDelete slot) := noWord _
theorem NoWord.nsAttach (slot : Fin 4096) : NoWord.Statement (.nsAttach slot) := noWord _
theorem NoWord.nsDetach (slot : Fin 4096) : NoWord.Statement (.nsDetach slot) := noWord _
theorem NoWord.formatNvm (slot : Fin 4096) : NoWord.Statement (.formatNvm slot) := noWord _
theorem NoWord.fwImageDownload (slot : Fin 4096) : NoWord.Statement (.fwImageDownload slot) := noWord _
theorem NoWord.fwCommitStore (slot : Fin 4096) : NoWord.Statement (.fwCommitStore slot) := noWord _
theorem NoWord.fwCommitStoreNext (slot : Fin 4096) : NoWord.Statement (.fwCommitStoreNext slot) := noWord _
theorem NoWord.fwCommitSlotNext (slot : Fin 4096) : NoWord.Statement (.fwCommitSlotNext slot) := noWord _
theorem NoWord.fwCommitActivate (slot : Fin 4096) : NoWord.Statement (.fwCommitActivate slot) := noWord _
theorem NoWord.vmSecondaryOffline (slot : Fin 4096) : NoWord.Statement (.vmSecondaryOffline slot) := noWord _
theorem NoWord.vmSecondaryAssign (slot : Fin 4096) : NoWord.Statement (.vmSecondaryAssign slot) := noWord _
theorem NoWord.vmSecondaryOnline (slot : Fin 4096) : NoWord.Statement (.vmSecondaryOnline slot) := noWord _
theorem NoWord.vmPrimaryFlex (slot : Fin 4096) : NoWord.Statement (.vmPrimaryFlex slot) := noWord _
theorem NoWord.txnBegin (slot : Option (Fin 4096)) (w : BusW) : NoWord.Statement (.txnBegin slot w) := noWord _
theorem NoWord.txnStage (slot : Option (Fin 4096)) (w : BusW) : NoWord.Statement (.txnStage slot w) := noWord _
theorem NoWord.txnCommit (slot : Option (Fin 4096)) (w : BusW) : NoWord.Statement (.txnCommit slot w) := noWord _
theorem NoWord.txnRollback (slot : Option (Fin 4096)) (w : BusW) : NoWord.Statement (.txnRollback slot w) := noWord _
theorem NoWord.txnQuery (slot : Option (Fin 4096)) (w : BusW) : NoWord.Statement (.txnQuery slot w) := noWord _
theorem NoWord.txnRollbackTimeout : NoWord.Statement .txnRollbackTimeout := noWord _
theorem NoWord.commitStored (ok : Bool) : NoWord.Statement (.commitStored ok) := noWord _
theorem NoWord.commitArmQuiet (arm : Fin 4) : NoWord.Statement (.commitArmQuiet arm) := noWord _
theorem NoWord.cfgBlobDone (w : BusW) : NoWord.Statement (.cfgBlobDone w) := noWord _
theorem NoWord.tallyScale (slot : Fin 4096) : NoWord.Statement (.tallyScale slot) := noWord _
theorem NoWord.tallyRead (slot : Fin 4096) : NoWord.Statement (.tallyRead slot) := noWord _
theorem NoWord.blazeRead (slot : Fin 4096) : NoWord.Statement (.blazeRead slot) := noWord _
theorem NoWord.faultStatus (slot : Fin 4096) : NoWord.Statement (.faultStatus slot) := noWord _
theorem NoWord.salvageStatus (slot : Fin 4096) : NoWord.Statement (.salvageStatus slot) := noWord _
theorem NoWord.salvageCtlStart (slot : Fin 4096) (p : Option SalvPlan) : NoWord.Statement (.salvageCtlStart slot p) := noWord _
theorem NoWord.salvageCtlPause (slot : Fin 4096) : NoWord.Statement (.salvageCtlPause slot) := noWord _
theorem NoWord.salvageCtlResume (slot : Fin 4096) : NoWord.Statement (.salvageCtlResume slot) := noWord _
theorem NoWord.salvageCtlAbort (slot : Fin 4096) : NoWord.Statement (.salvageCtlAbort slot) := noWord _
theorem NoWord.clearLost (slot : Fin 4096) : NoWord.Statement (.clearLost slot) := noWord _
theorem NoWord.fenceQuery (slot : Fin 4096) : NoWord.Statement (.fenceQuery slot) := noWord _
theorem NoWord.fenceHead (slot : Fin 4096) : NoWord.Statement (.fenceHead slot) := noWord _
theorem NoWord.unfenceHead (slot : Fin 4096) (ok : Bool) : NoWord.Statement (.unfenceHead slot ok) := noWord _
theorem NoWord.fenceArm (slot : Fin 4096) : NoWord.Statement (.fenceArm slot) := noWord _
theorem NoWord.unfenceArm (slot : Fin 4096) (ok : Bool) : NoWord.Statement (.unfenceArm slot ok) := noWord _
theorem NoWord.fenceRegion (slot : Fin 4096) : NoWord.Statement (.fenceRegion slot) := noWord _
theorem NoWord.unfenceRegion (slot : Fin 4096) (ok : Bool) : NoWord.Statement (.unfenceRegion slot ok) := noWord _
theorem NoWord.budgetQuery (slot : Fin 4096) : NoWord.Statement (.budgetQuery slot) := noWord _
theorem NoWord.setBudget (slot : Fin 4096) : NoWord.Statement (.setBudget slot) := noWord _
theorem NoWord.setShares (slot : Fin 4096) : NoWord.Statement (.setShares slot) := noWord _
theorem NoWord.sensorRead (slot : Fin 4096) : NoWord.Statement (.sensorRead slot) := noWord _
theorem NoWord.flush (slot : Fin 4096) : NoWord.Statement (.flush slot) := noWord _
theorem NoWord.write (slot : Fin 4096) (l : LandBufs) : NoWord.Statement (.write slot l) := noWord _
theorem NoWord.read (slot : Fin 4096) (l : LandBufs) : NoWord.Statement (.read slot l) := noWord _
theorem NoWord.compare (slot : Fin 4096) (l : LandBufs) : NoWord.Statement (.compare slot l) := noWord _
theorem NoWord.writeZeroes (slot : Fin 4096) (l : LandBufs) : NoWord.Statement (.writeZeroes slot l) := noWord _
theorem NoWord.verify (slot : Fin 4096) (l : LandBufs) : NoWord.Statement (.verify slot l) := noWord _
theorem NoWord.orderedWrite (slot : Fin 4096) (l : LandBufs) : NoWord.Statement (.orderedWrite slot l) := noWord _
theorem NoWord.orderedRead (slot : Fin 4096) (l : LandBufs) : NoWord.Statement (.orderedRead slot l) := noWord _
theorem NoWord.barrier (slot : Fin 4096) : NoWord.Statement (.barrier slot) := noWord _
theorem NoWord.writeDataReceived (slot : Fin 4096) : NoWord.Statement (.writeDataReceived slot) := noWord _
theorem NoWord.completionPost (f : Fin 64) (q : Fin 65) : NoWord.Statement (.completionPost f q) := noWord _
theorem NoWord.tlerExpire (slot : Fin 4096) : NoWord.Statement (.tlerExpire slot) := noWord _
theorem NoWord.coalesceTimeout (f : Fin 64) (v : Fin 2048) : NoWord.Statement (.coalesceTimeout f v) := noWord _
theorem NoWord.decisionStart (arm' : Fin 4) : NoWord.Statement (.decisionStart arm') := noWord _
theorem NoWord.itemDispatch (arm' : Fin 4) : NoWord.Statement (.itemDispatch arm') := noWord _
theorem NoWord.itemEnd (arm' : Fin 4) : NoWord.Statement (.itemEnd arm') := noWord _
theorem NoWord.itemUrgent : NoWord.Statement .itemUrgent := noWord _
theorem NoWord.govTick : NoWord.Statement .govTick := noWord _
theorem NoWord.govOverClear : NoWord.Statement .govOverClear := noWord _
theorem NoWord.govDerateUpdate : NoWord.Statement .govDerateUpdate := noWord _
theorem NoWord.govBgWrite (w : BusW) : NoWord.Statement (.govBgWrite w) := noWord _
theorem NoWord.lndTrainStart (w : BusW) : NoWord.Statement (.lndTrainStart w) := noWord _
theorem NoWord.lndTrainDone (ok : Bool) (chFail : BitVec 2) (step : BitVec 4) : NoWord.Statement (.lndTrainDone ok chFail step) := noWord _
theorem NoWord.lndFillGo (w : BusW) : NoWord.Statement (.lndFillGo w) := noWord _
theorem NoWord.lndFillDone : NoWord.Statement .lndFillDone := noWord _
theorem NoWord.lndScrubStep (e : Ecc) : NoWord.Statement (.lndScrubStep e) := noWord _
theorem NoWord.lndRmapCopy (k : Fin 32) (w : BusW) : NoWord.Statement (.lndRmapCopy k w) := noWord _
theorem NoWord.lndRmapCopyDone (k : Fin 32) (ecc : List Ecc) : NoWord.Statement (.lndRmapCopyDone k ecc) := noWord _
theorem NoWord.lndRmapClear (k : Fin 32) (w : BusW) : NoWord.Statement (.lndRmapClear k w) := noWord _
theorem NoWord.landingWrite (m : Master) (addr : Nat) (bs : List Byte) (poison : Bool) (evict : List Nat) (ecc : List Ecc) : NoWord.Statement (.landingWrite m addr bs poison evict ecc) := noWord _
theorem NoWord.landingRead (m : Master) (addr n : Nat) (evict : List Nat) (ecc : List Ecc) : NoWord.Statement (.landingRead m addr n evict ecc) := noWord _
theorem NoWord.mergeEvictAge (ecc : Ecc) : NoWord.Statement (.mergeEvictAge ecc) := noWord _
theorem NoWord.ffenceClean (c : Fin 4) (m : Master) (w : BusW) : NoWord.Statement (.ffenceClean c m w) := noWord _
theorem NoWord.ffenceInval (c : Fin 4) (m : Master) (w : BusW) : NoWord.Statement (.ffenceInval c m w) := noWord _
theorem NoWord.ffenceCleanInval (c : Fin 4) (m : Master) (w : BusW) : NoWord.Statement (.ffenceCleanInval c m w) := noWord _
theorem NoWord.ffenceDrain (c : Fin 4) (m : Master) (w : BusW) (ecc : List Ecc) : NoWord.Statement (.ffenceDrain c m w ecc) := noWord _
theorem NoWord.ffenceCleanAll (c : Fin 4) (m : Master) (w : BusW) : NoWord.Statement (.ffenceCleanAll c m w) := noWord _
theorem NoWord.ffenceCleanInvalAll (c : Fin 4) (m : Master) (w : BusW) : NoWord.Statement (.ffenceCleanInvalAll c m w) := noWord _
theorem NoWord.amoAccess (c : Fin 4) (op : AmoOp) (addr : Nat) (dbl : Bool) (x : BitVec 64) (e : Ecc) : NoWord.Statement (.amoAccess c op addr dbl x e) := noWord _
theorem NoWord.yrdDoorbell (n : Fin 32) : NoWord.Statement (.yrdDoorbell n) := noWord _
theorem NoWord.yrdDescStart (n : Fin 32) : NoWord.Statement (.yrdDescStart n) := noWord _
theorem NoWord.yrdDescEnd (n : Fin 32) (ecc : List Ecc) : NoWord.Statement (.yrdDescEnd n ecc) := noWord _
theorem NoWord.yrdChReset (n : Fin 32) (w : BusW) : NoWord.Statement (.yrdChReset n w) := noWord _
theorem NoWord.yrdChResume (n : Fin 32) (w : BusW) : NoWord.Statement (.yrdChResume n w) := noWord _
theorem NoWord.tlyScaleGo (w : BusW) : NoWord.Statement (.tlyScaleGo w) := noWord _
theorem NoWord.tallyPeriodExpire : NoWord.Statement .tallyPeriodExpire := noWord _
theorem NoWord.tallyLatch : NoWord.Statement .tallyLatch := noWord _
theorem NoWord.tallyHandshakeReq : NoWord.Statement .tallyHandshakeReq := noWord _
theorem NoWord.tallyHandshakeApply : NoWord.Statement .tallyHandshakeApply := noWord _
theorem NoWord.blazePost (m : Master) (c : Fin 5) (w : BusW) : NoWord.Statement (.blazePost m c w) := noWord _
theorem NoWord.blazeWriteStart : NoWord.Statement .blazeWriteStart := noWord _
theorem NoWord.blazeBodyProgrammed (ok : Bool) : NoWord.Statement (.blazeBodyProgrammed ok) := noWord _
theorem NoWord.blazeMarkProgrammed (ok : Bool) : NoWord.Statement (.blazeMarkProgrammed ok) := noWord _
theorem NoWord.blazeEraseDone (ok : Bool) : NoWord.Statement (.blazeEraseDone ok) := noWord _
theorem NoWord.blazeScanDone : NoWord.Statement .blazeScanDone := noWord _
theorem NoWord.checkerReport (rs : List Report) (fec : Nat) : NoWord.Statement (.checkerReport rs fec) := noWord _
theorem NoWord.checkerConditionFalse (chk : Fin 256) : NoWord.Statement (.checkerConditionFalse chk) := noWord _
theorem NoWord.fltAckWrite (w : BusW) : NoWord.Statement (.fltAckWrite w) := noWord _
theorem NoWord.fltClrWrite (w : BusW) : NoWord.Statement (.fltClrWrite w) := noWord _
theorem NoWord.fltFc3Clear (w : BusW) : NoWord.Statement (.fltFc3Clear w) := noWord _
theorem NoWord.fltFc3AckWrite (w : BusW) : NoWord.Statement (.fltFc3AckWrite w) := noWord _
theorem NoWord.fltInjArm (w : BusW) : NoWord.Statement (.fltInjArm w) := noWord _
theorem NoWord.fltChkLatchClear (chk : Fin 256) (w : BusW) : NoWord.Statement (.fltChkLatchClear chk w) := noWord _
theorem NoWord.eventClaim (r : Fin 5) : NoWord.Statement (.eventClaim r) := noWord _
theorem NoWord.eventPendClear (k : Fin 16) (w : BusW) : NoWord.Statement (.eventPendClear k w) := noWord _
theorem NoWord.softwareEvent (w : BusW) : NoWord.Statement (.softwareEvent w) := noWord _
theorem NoWord.wdtKick (w : BusW) : NoWord.Statement (.wdtKick w) := noWord _
theorem NoWord.wdtExpire : NoWord.Statement .wdtExpire := noWord _
theorem NoWord.lifeRecordSave : NoWord.Statement .lifeRecordSave := noWord _
theorem NoWord.thermalSample (t : List (BitVec 16)) : NoWord.Statement (.thermalSample t) := noWord _
theorem NoWord.thermistorSample (n : Fin 4) (v : Int) : NoWord.Statement (.thermistorSample n v) := noWord _
theorem NoWord.thermistorOpen (n : Fin 4) : NoWord.Statement (.thermistorOpen n) := noWord _
theorem NoWord.monitorSample (n : Fin 6) (v amps : Int) : NoWord.Statement (.monitorSample n v amps) := noWord _
theorem NoWord.roSample (slow : List (BitVec 16)) : NoWord.Statement (.roSample slow) := noWord _
theorem NoWord.wearSample (r : Fin 72) (m : Nat) : NoWord.Statement (.wearSample r m) := noWord _
theorem NoWord.bootComplete : NoWord.Statement .bootComplete := noWord _
theorem NoWord.cfgLock (w : BusW) : NoWord.Statement (.cfgLock w) := noWord _
theorem NoWord.actStaged : NoWord.Statement .actStaged := noWord _
theorem NoWord.actGo (w : BusW) : NoWord.Statement (.actGo w) := noWord _
theorem NoWord.actDone (w : BusW) : NoWord.Statement (.actDone w) := noWord _
theorem NoWord.actTimeout : NoWord.Statement .actTimeout := noWord _
theorem NoWord.fuseBurn (w : BusW) : NoWord.Statement (.fuseBurn w) := noWord _
theorem NoWord.fuseBurnDone (ok : Bool) : NoWord.Statement (.fuseBurnDone ok) := noWord _
theorem NoWord.mctpSetEndpointId (h : Byte) (op : BitVec 2) (eid : BitVec 8) : NoWord.Statement (.mctpSetEndpointId h op eid) := noWord _
theorem NoWord.mctpGetEndpointId (h : Byte) : NoWord.Statement (.mctpGetEndpointId h) := noWord _
theorem NoWord.mctpGetVersionSupport (h ty : Byte) : NoWord.Statement (.mctpGetVersionSupport h ty) := noWord _
theorem NoWord.mctpGetMessageTypeSupport (h : Byte) : NoWord.Statement (.mctpGetMessageTypeSupport h) := noWord _
theorem NoWord.readNvmeMiDataStructure (h : Byte) (ty : BitVec 8) (port : BitVec 8) (ctl : BitVec 16) : NoWord.Statement (.readNvmeMiDataStructure h ty port ctl) := noWord _
theorem NoWord.subsystemHealthPoll (h : Byte) : NoWord.Statement (.subsystemHealthPoll h) := noWord _
theorem NoWord.controllerHealthPoll (h : Byte) (first : BitVec 16) (max' : BitVec 8) : NoWord.Statement (.controllerHealthPoll h first max') := noWord _
theorem NoWord.configurationGet (h : Byte) (id port : BitVec 8) : NoWord.Statement (.configurationGet h id port) := noWord _
theorem NoWord.configurationSet (h : Byte) (id port : BitVec 8) (v : BitVec 16) : NoWord.Statement (.configurationSet h id port v) := noWord _
theorem NoWord.vpdRead (h : Byte) (off len : BitVec 16) : NoWord.Statement (.vpdRead h off len) := noWord _
theorem NoWord.miUnsupported (h : Byte) : NoWord.Statement (.miUnsupported h) := noWord _
theorem NoWord.clockSourceLost (src : Fin 6) : NoWord.Statement (.clockSourceLost src) := noWord _
theorem NoWord.clockSourceReturned (src : Fin 6) : NoWord.Statement (.clockSourceReturned src) := noWord _
theorem NoWord.cprRetractSet (w : BusW) : NoWord.Statement (.cprRetractSet w) := noWord _
theorem NoWord.cprRetractRel (w : BusW) : NoWord.Statement (.cprRetractRel w) := noWord _
theorem NoWord.armDomainOn (arm : Fin 4) (w : BusW) : NoWord.Statement (.armDomainOn arm w) := noWord _
theorem NoWord.armDomainOff (arm : Fin 4) (w : BusW) : NoWord.Statement (.armDomainOff arm w) := noWord _
theorem NoWord.standbyRequest (w : BusW) : NoWord.Statement (.standbyRequest w) := noWord _
theorem NoWord.standbyEnter : NoWord.Statement .standbyEnter := noWord _
theorem NoWord.standbyWake : NoWord.Statement .standbyWake := noWord _
theorem NoWord.cprWake (w : BusW) : NoWord.Statement (.cprWake w) := noWord _
theorem NoWord.aonSleepEnter : NoWord.Statement .aonSleepEnter := noWord _
theorem NoWord.aonSleepExit : NoWord.Statement .aonSleepExit := noWord _
theorem NoWord.aonPowerOn (test : Bool) : NoWord.Statement (.aonPowerOn test) := noWord _
theorem NoWord.domainsPowerUp : NoWord.Statement .domainsPowerUp := noWord _
theorem NoWord.pllsLocked : NoWord.Statement .pllsLocked := noWord _
theorem NoWord.warmReset (w : BusW) : NoWord.Statement (.warmReset w) := noWord _
theorem NoWord.warmResetReloadDone : NoWord.Statement .warmResetReloadDone := noWord _
theorem NoWord.lyoloReset (m : Master) (w : BusW) : NoWord.Statement (.lyoloReset m w) := noWord _
theorem NoWord.lyoloBootDone : NoWord.Statement .lyoloBootDone := noWord _
theorem NoWord.powerLossSignal : NoWord.Statement .powerLossSignal := noWord _
theorem NoWord.dumpPageDone (ok : Bool) (ecc : List Ecc) : NoWord.Statement (.dumpPageDone ok ecc) := noWord _
theorem NoWord.dumpEnd (ok supplies : Bool) : NoWord.Statement (.dumpEnd ok supplies) := noWord _
theorem NoWord.dumpArm (w : BusW) : NoWord.Statement (.dumpArm w) := noWord _
theorem NoWord.dumpRestore (w : BusW) : NoWord.Statement (.dumpRestore w) := noWord _
theorem NoWord.dumpRestoreDone (bad : List Nat) : NoWord.Statement (.dumpRestoreDone bad) := noWord _
theorem NoWord.aonSupplyFall : NoWord.Statement .aonSupplyFall := noWord _

end Sys2Proof.Laws
end

