-- ==== Sys2Proof/Laws/State.lean ====
section
/-! SUPPORT. What each named update of the state leaves as it was: one lemma per field per update, and the field each one writes. -/

namespace Sys2Proof.Laws

open Sys2Proof Sys2Proof.Machine

variable (s : State)

section
variable (r : RegDef) (i j v : Nat)

@[simp] theorem wr_locked : (wr r i j v s).locked = s.locked := rfl
@[simp] theorem wr_time : (wr r i j v s).time = s.time := rfl
@[simp] theorem wr_free : (wr r i j v s).free = s.free := rfl
@[simp] theorem wr_out : (wr r i j v s).out = s.out := rfl
@[simp] theorem wr_sram : (wr r i j v s).sram = s.sram := rfl
@[simp] theorem wr_sramEra : (wr r i j v s).sramEra = s.sramEra := rfl
@[simp] theorem wr_nor : (wr r i j v s).nor = s.nor := rfl
@[simp] theorem wr_mirror : (wr r i j v s).mirror = s.mirror := rfl
@[simp] theorem wr_land : (wr r i j v s).land = s.land := rfl
@[simp] theorem wr_landEra : (wr r i j v s).landEra = s.landEra := rfl
@[simp] theorem wr_geo : (wr r i j v s).geo = s.geo := rfl
@[simp] theorem wr_geoImg : (wr r i j v s).geoImg = s.geoImg := rfl
@[simp] theorem wr_links : (wr r i j v s).links = s.links := rfl
@[simp] theorem wr_lanes : (wr r i j v s).lanes = s.lanes := rfl
@[simp] theorem wr_syns : (wr r i j v s).syns = s.syns := rfl
@[simp] theorem wr_wops : (wr r i j v s).wops = s.wops := rfl
@[simp] theorem wr_wbufs : (wr r i j v s).wbufs = s.wbufs := rfl
@[simp] theorem wr_dec : (wr r i j v s).dec = s.dec := rfl
@[simp] theorem wr_arms : (wr r i j v s).arms = s.arms := rfl
@[simp] theorem wr_heads : (wr r i j v s).heads = s.heads := rfl
@[simp] theorem wr_shock : (wr r i j v s).shock = s.shock := rfl
@[simp] theorem wr_shockCh : (wr r i j v s).shockCh = s.shockCh := rfl
@[simp] theorem wr_spm : (wr r i j v s).spm = s.spm := rfl
@[simp] theorem wr_sched : (wr r i j v s).sched = s.sched := rfl
@[simp] theorem wr_spr : (wr r i j v s).spr = s.spr := rfl
@[simp] theorem wr_deck : (wr r i j v s).deck = s.deck := rfl
@[simp] theorem wr_cpr : (wr r i j v s).cpr = s.cpr := rfl
@[simp] theorem wr_lnd : (wr r i j v s).lnd = s.lnd := rfl
@[simp] theorem wr_ychs : (wr r i j v s).ychs = s.ychs := rfl
@[simp] theorem wr_blz : (wr r i j v s).blz = s.blz := rfl
@[simp] theorem wr_flt : (wr r i j v s).flt = s.flt := rfl
@[simp] theorem wr_mgt : (wr r i j v s).mgt = s.mgt := rfl
@[simp] theorem wr_fuse : (wr r i j v s).fuse = s.fuse := rfl
@[simp] theorem wr_cfg : (wr r i j v s).cfg = s.cfg := rfl
@[simp] theorem wr_tcm : (wr r i j v s).tcm = s.tcm := rfl
@[simp] theorem wr_lyo : (wr r i j v s).lyo = s.lyo := rfl
@[simp] theorem wr_pending : (wr r i j v s).pending = s.pending := rfl

end

section
variable (f : Field) (i j v : Nat)

@[simp] theorem put2_locked : (put2 f i j v s).locked = s.locked := rfl
@[simp] theorem put2_time : (put2 f i j v s).time = s.time := rfl
@[simp] theorem put2_free : (put2 f i j v s).free = s.free := rfl
@[simp] theorem put2_out : (put2 f i j v s).out = s.out := rfl
@[simp] theorem put2_sram : (put2 f i j v s).sram = s.sram := rfl
@[simp] theorem put2_sramEra : (put2 f i j v s).sramEra = s.sramEra := rfl
@[simp] theorem put2_nor : (put2 f i j v s).nor = s.nor := rfl
@[simp] theorem put2_mirror : (put2 f i j v s).mirror = s.mirror := rfl
@[simp] theorem put2_land : (put2 f i j v s).land = s.land := rfl
@[simp] theorem put2_landEra : (put2 f i j v s).landEra = s.landEra := rfl
@[simp] theorem put2_geo : (put2 f i j v s).geo = s.geo := rfl
@[simp] theorem put2_geoImg : (put2 f i j v s).geoImg = s.geoImg := rfl
@[simp] theorem put2_links : (put2 f i j v s).links = s.links := rfl
@[simp] theorem put2_lanes : (put2 f i j v s).lanes = s.lanes := rfl
@[simp] theorem put2_syns : (put2 f i j v s).syns = s.syns := rfl
@[simp] theorem put2_wops : (put2 f i j v s).wops = s.wops := rfl
@[simp] theorem put2_wbufs : (put2 f i j v s).wbufs = s.wbufs := rfl
@[simp] theorem put2_dec : (put2 f i j v s).dec = s.dec := rfl
@[simp] theorem put2_arms : (put2 f i j v s).arms = s.arms := rfl
@[simp] theorem put2_heads : (put2 f i j v s).heads = s.heads := rfl
@[simp] theorem put2_shock : (put2 f i j v s).shock = s.shock := rfl
@[simp] theorem put2_shockCh : (put2 f i j v s).shockCh = s.shockCh := rfl
@[simp] theorem put2_spm : (put2 f i j v s).spm = s.spm := rfl
@[simp] theorem put2_sched : (put2 f i j v s).sched = s.sched := rfl
@[simp] theorem put2_spr : (put2 f i j v s).spr = s.spr := rfl
@[simp] theorem put2_deck : (put2 f i j v s).deck = s.deck := rfl
@[simp] theorem put2_cpr : (put2 f i j v s).cpr = s.cpr := rfl
@[simp] theorem put2_lnd : (put2 f i j v s).lnd = s.lnd := rfl
@[simp] theorem put2_ychs : (put2 f i j v s).ychs = s.ychs := rfl
@[simp] theorem put2_blz : (put2 f i j v s).blz = s.blz := rfl
@[simp] theorem put2_flt : (put2 f i j v s).flt = s.flt := rfl
@[simp] theorem put2_mgt : (put2 f i j v s).mgt = s.mgt := rfl
@[simp] theorem put2_fuse : (put2 f i j v s).fuse = s.fuse := rfl
@[simp] theorem put2_cfg : (put2 f i j v s).cfg = s.cfg := rfl
@[simp] theorem put2_tcm : (put2 f i j v s).tcm = s.tcm := rfl
@[simp] theorem put2_lyo : (put2 f i j v s).lyo = s.lyo := rfl
@[simp] theorem put2_pending : (put2 f i j v s).pending = s.pending := rfl

end

section
variable (f : Field) (i v : Nat)

@[simp] theorem put_locked : (put f i v s).locked = s.locked := rfl
@[simp] theorem put_time : (put f i v s).time = s.time := rfl
@[simp] theorem put_free : (put f i v s).free = s.free := rfl
@[simp] theorem put_out : (put f i v s).out = s.out := rfl
@[simp] theorem put_sram : (put f i v s).sram = s.sram := rfl
@[simp] theorem put_sramEra : (put f i v s).sramEra = s.sramEra := rfl
@[simp] theorem put_nor : (put f i v s).nor = s.nor := rfl
@[simp] theorem put_mirror : (put f i v s).mirror = s.mirror := rfl
@[simp] theorem put_land : (put f i v s).land = s.land := rfl
@[simp] theorem put_landEra : (put f i v s).landEra = s.landEra := rfl
@[simp] theorem put_geo : (put f i v s).geo = s.geo := rfl
@[simp] theorem put_geoImg : (put f i v s).geoImg = s.geoImg := rfl
@[simp] theorem put_links : (put f i v s).links = s.links := rfl
@[simp] theorem put_lanes : (put f i v s).lanes = s.lanes := rfl
@[simp] theorem put_syns : (put f i v s).syns = s.syns := rfl
@[simp] theorem put_wops : (put f i v s).wops = s.wops := rfl
@[simp] theorem put_wbufs : (put f i v s).wbufs = s.wbufs := rfl
@[simp] theorem put_dec : (put f i v s).dec = s.dec := rfl
@[simp] theorem put_arms : (put f i v s).arms = s.arms := rfl
@[simp] theorem put_heads : (put f i v s).heads = s.heads := rfl
@[simp] theorem put_shock : (put f i v s).shock = s.shock := rfl
@[simp] theorem put_shockCh : (put f i v s).shockCh = s.shockCh := rfl
@[simp] theorem put_spm : (put f i v s).spm = s.spm := rfl
@[simp] theorem put_sched : (put f i v s).sched = s.sched := rfl
@[simp] theorem put_spr : (put f i v s).spr = s.spr := rfl
@[simp] theorem put_deck : (put f i v s).deck = s.deck := rfl
@[simp] theorem put_cpr : (put f i v s).cpr = s.cpr := rfl
@[simp] theorem put_lnd : (put f i v s).lnd = s.lnd := rfl
@[simp] theorem put_ychs : (put f i v s).ychs = s.ychs := rfl
@[simp] theorem put_blz : (put f i v s).blz = s.blz := rfl
@[simp] theorem put_flt : (put f i v s).flt = s.flt := rfl
@[simp] theorem put_mgt : (put f i v s).mgt = s.mgt := rfl
@[simp] theorem put_fuse : (put f i v s).fuse = s.fuse := rfl
@[simp] theorem put_cfg : (put f i v s).cfg = s.cfg := rfl
@[simp] theorem put_tcm : (put f i v s).tcm = s.tcm := rfl
@[simp] theorem put_lyo : (put f i v s).lyo = s.lyo := rfl
@[simp] theorem put_pending : (put f i v s).pending = s.pending := rfl

end

section
variable (f : Field) (i k : Nat) (b : Bool)

@[simp] theorem putFBit_locked : (putFBit f i k b s).locked = s.locked := rfl
@[simp] theorem putFBit_time : (putFBit f i k b s).time = s.time := rfl
@[simp] theorem putFBit_free : (putFBit f i k b s).free = s.free := rfl
@[simp] theorem putFBit_out : (putFBit f i k b s).out = s.out := rfl
@[simp] theorem putFBit_sram : (putFBit f i k b s).sram = s.sram := rfl
@[simp] theorem putFBit_sramEra : (putFBit f i k b s).sramEra = s.sramEra := rfl
@[simp] theorem putFBit_nor : (putFBit f i k b s).nor = s.nor := rfl
@[simp] theorem putFBit_mirror : (putFBit f i k b s).mirror = s.mirror := rfl
@[simp] theorem putFBit_land : (putFBit f i k b s).land = s.land := rfl
@[simp] theorem putFBit_landEra : (putFBit f i k b s).landEra = s.landEra := rfl
@[simp] theorem putFBit_geo : (putFBit f i k b s).geo = s.geo := rfl
@[simp] theorem putFBit_geoImg : (putFBit f i k b s).geoImg = s.geoImg := rfl
@[simp] theorem putFBit_links : (putFBit f i k b s).links = s.links := rfl
@[simp] theorem putFBit_lanes : (putFBit f i k b s).lanes = s.lanes := rfl
@[simp] theorem putFBit_syns : (putFBit f i k b s).syns = s.syns := rfl
@[simp] theorem putFBit_wops : (putFBit f i k b s).wops = s.wops := rfl
@[simp] theorem putFBit_wbufs : (putFBit f i k b s).wbufs = s.wbufs := rfl
@[simp] theorem putFBit_dec : (putFBit f i k b s).dec = s.dec := rfl
@[simp] theorem putFBit_arms : (putFBit f i k b s).arms = s.arms := rfl
@[simp] theorem putFBit_heads : (putFBit f i k b s).heads = s.heads := rfl
@[simp] theorem putFBit_shock : (putFBit f i k b s).shock = s.shock := rfl
@[simp] theorem putFBit_shockCh : (putFBit f i k b s).shockCh = s.shockCh := rfl
@[simp] theorem putFBit_spm : (putFBit f i k b s).spm = s.spm := rfl
@[simp] theorem putFBit_sched : (putFBit f i k b s).sched = s.sched := rfl
@[simp] theorem putFBit_spr : (putFBit f i k b s).spr = s.spr := rfl
@[simp] theorem putFBit_deck : (putFBit f i k b s).deck = s.deck := rfl
@[simp] theorem putFBit_cpr : (putFBit f i k b s).cpr = s.cpr := rfl
@[simp] theorem putFBit_lnd : (putFBit f i k b s).lnd = s.lnd := rfl
@[simp] theorem putFBit_ychs : (putFBit f i k b s).ychs = s.ychs := rfl
@[simp] theorem putFBit_blz : (putFBit f i k b s).blz = s.blz := rfl
@[simp] theorem putFBit_flt : (putFBit f i k b s).flt = s.flt := rfl
@[simp] theorem putFBit_mgt : (putFBit f i k b s).mgt = s.mgt := rfl
@[simp] theorem putFBit_fuse : (putFBit f i k b s).fuse = s.fuse := rfl
@[simp] theorem putFBit_cfg : (putFBit f i k b s).cfg = s.cfg := rfl
@[simp] theorem putFBit_tcm : (putFBit f i k b s).tcm = s.tcm := rfl
@[simp] theorem putFBit_lyo : (putFBit f i k b s).lyo = s.lyo := rfl
@[simp] theorem putFBit_pending : (putFBit f i k b s).pending = s.pending := rfl

end

section
variable (f : Field) (i n : Nat)

@[simp] theorem countN_locked : (countN f i n s).locked = s.locked := rfl
@[simp] theorem countN_time : (countN f i n s).time = s.time := rfl
@[simp] theorem countN_free : (countN f i n s).free = s.free := rfl
@[simp] theorem countN_out : (countN f i n s).out = s.out := rfl
@[simp] theorem countN_sram : (countN f i n s).sram = s.sram := rfl
@[simp] theorem countN_sramEra : (countN f i n s).sramEra = s.sramEra := rfl
@[simp] theorem countN_nor : (countN f i n s).nor = s.nor := rfl
@[simp] theorem countN_mirror : (countN f i n s).mirror = s.mirror := rfl
@[simp] theorem countN_land : (countN f i n s).land = s.land := rfl
@[simp] theorem countN_landEra : (countN f i n s).landEra = s.landEra := rfl
@[simp] theorem countN_geo : (countN f i n s).geo = s.geo := rfl
@[simp] theorem countN_geoImg : (countN f i n s).geoImg = s.geoImg := rfl
@[simp] theorem countN_links : (countN f i n s).links = s.links := rfl
@[simp] theorem countN_lanes : (countN f i n s).lanes = s.lanes := rfl
@[simp] theorem countN_syns : (countN f i n s).syns = s.syns := rfl
@[simp] theorem countN_wops : (countN f i n s).wops = s.wops := rfl
@[simp] theorem countN_wbufs : (countN f i n s).wbufs = s.wbufs := rfl
@[simp] theorem countN_dec : (countN f i n s).dec = s.dec := rfl
@[simp] theorem countN_arms : (countN f i n s).arms = s.arms := rfl
@[simp] theorem countN_heads : (countN f i n s).heads = s.heads := rfl
@[simp] theorem countN_shock : (countN f i n s).shock = s.shock := rfl
@[simp] theorem countN_shockCh : (countN f i n s).shockCh = s.shockCh := rfl
@[simp] theorem countN_spm : (countN f i n s).spm = s.spm := rfl
@[simp] theorem countN_sched : (countN f i n s).sched = s.sched := rfl
@[simp] theorem countN_spr : (countN f i n s).spr = s.spr := rfl
@[simp] theorem countN_deck : (countN f i n s).deck = s.deck := rfl
@[simp] theorem countN_cpr : (countN f i n s).cpr = s.cpr := rfl
@[simp] theorem countN_lnd : (countN f i n s).lnd = s.lnd := rfl
@[simp] theorem countN_ychs : (countN f i n s).ychs = s.ychs := rfl
@[simp] theorem countN_blz : (countN f i n s).blz = s.blz := rfl
@[simp] theorem countN_flt : (countN f i n s).flt = s.flt := rfl
@[simp] theorem countN_mgt : (countN f i n s).mgt = s.mgt := rfl
@[simp] theorem countN_fuse : (countN f i n s).fuse = s.fuse := rfl
@[simp] theorem countN_cfg : (countN f i n s).cfg = s.cfg := rfl
@[simp] theorem countN_tcm : (countN f i n s).tcm = s.tcm := rfl
@[simp] theorem countN_lyo : (countN f i n s).lyo = s.lyo := rfl
@[simp] theorem countN_pending : (countN f i n s).pending = s.pending := rfl

end

section
variable (f : Field) (i : Nat)

@[simp] theorem count_locked : (count f i s).locked = s.locked := rfl
@[simp] theorem count_time : (count f i s).time = s.time := rfl
@[simp] theorem count_free : (count f i s).free = s.free := rfl
@[simp] theorem count_out : (count f i s).out = s.out := rfl
@[simp] theorem count_sram : (count f i s).sram = s.sram := rfl
@[simp] theorem count_sramEra : (count f i s).sramEra = s.sramEra := rfl
@[simp] theorem count_nor : (count f i s).nor = s.nor := rfl
@[simp] theorem count_mirror : (count f i s).mirror = s.mirror := rfl
@[simp] theorem count_land : (count f i s).land = s.land := rfl
@[simp] theorem count_landEra : (count f i s).landEra = s.landEra := rfl
@[simp] theorem count_geo : (count f i s).geo = s.geo := rfl
@[simp] theorem count_geoImg : (count f i s).geoImg = s.geoImg := rfl
@[simp] theorem count_links : (count f i s).links = s.links := rfl
@[simp] theorem count_lanes : (count f i s).lanes = s.lanes := rfl
@[simp] theorem count_syns : (count f i s).syns = s.syns := rfl
@[simp] theorem count_wops : (count f i s).wops = s.wops := rfl
@[simp] theorem count_wbufs : (count f i s).wbufs = s.wbufs := rfl
@[simp] theorem count_dec : (count f i s).dec = s.dec := rfl
@[simp] theorem count_arms : (count f i s).arms = s.arms := rfl
@[simp] theorem count_heads : (count f i s).heads = s.heads := rfl
@[simp] theorem count_shock : (count f i s).shock = s.shock := rfl
@[simp] theorem count_shockCh : (count f i s).shockCh = s.shockCh := rfl
@[simp] theorem count_spm : (count f i s).spm = s.spm := rfl
@[simp] theorem count_sched : (count f i s).sched = s.sched := rfl
@[simp] theorem count_spr : (count f i s).spr = s.spr := rfl
@[simp] theorem count_deck : (count f i s).deck = s.deck := rfl
@[simp] theorem count_cpr : (count f i s).cpr = s.cpr := rfl
@[simp] theorem count_lnd : (count f i s).lnd = s.lnd := rfl
@[simp] theorem count_ychs : (count f i s).ychs = s.ychs := rfl
@[simp] theorem count_blz : (count f i s).blz = s.blz := rfl
@[simp] theorem count_flt : (count f i s).flt = s.flt := rfl
@[simp] theorem count_mgt : (count f i s).mgt = s.mgt := rfl
@[simp] theorem count_fuse : (count f i s).fuse = s.fuse := rfl
@[simp] theorem count_cfg : (count f i s).cfg = s.cfg := rfl
@[simp] theorem count_tcm : (count f i s).tcm = s.tcm := rfl
@[simp] theorem count_lyo : (count f i s).lyo = s.lyo := rfl
@[simp] theorem count_pending : (count f i s).pending = s.pending := rfl

end

section
variable (r : RegDef) (i j : Nat) (w : BusW)

@[simp] theorem busWrite_locked : (busWrite r i j w s).locked = s.locked := rfl
@[simp] theorem busWrite_time : (busWrite r i j w s).time = s.time := rfl
@[simp] theorem busWrite_free : (busWrite r i j w s).free = s.free := rfl
@[simp] theorem busWrite_out : (busWrite r i j w s).out = s.out := rfl
@[simp] theorem busWrite_sram : (busWrite r i j w s).sram = s.sram := rfl
@[simp] theorem busWrite_sramEra : (busWrite r i j w s).sramEra = s.sramEra := rfl
@[simp] theorem busWrite_nor : (busWrite r i j w s).nor = s.nor := rfl
@[simp] theorem busWrite_mirror : (busWrite r i j w s).mirror = s.mirror := rfl
@[simp] theorem busWrite_land : (busWrite r i j w s).land = s.land := rfl
@[simp] theorem busWrite_landEra : (busWrite r i j w s).landEra = s.landEra := rfl
@[simp] theorem busWrite_geo : (busWrite r i j w s).geo = s.geo := rfl
@[simp] theorem busWrite_geoImg : (busWrite r i j w s).geoImg = s.geoImg := rfl
@[simp] theorem busWrite_links : (busWrite r i j w s).links = s.links := rfl
@[simp] theorem busWrite_lanes : (busWrite r i j w s).lanes = s.lanes := rfl
@[simp] theorem busWrite_syns : (busWrite r i j w s).syns = s.syns := rfl
@[simp] theorem busWrite_wops : (busWrite r i j w s).wops = s.wops := rfl
@[simp] theorem busWrite_wbufs : (busWrite r i j w s).wbufs = s.wbufs := rfl
@[simp] theorem busWrite_dec : (busWrite r i j w s).dec = s.dec := rfl
@[simp] theorem busWrite_arms : (busWrite r i j w s).arms = s.arms := rfl
@[simp] theorem busWrite_heads : (busWrite r i j w s).heads = s.heads := rfl
@[simp] theorem busWrite_shock : (busWrite r i j w s).shock = s.shock := rfl
@[simp] theorem busWrite_shockCh : (busWrite r i j w s).shockCh = s.shockCh := rfl
@[simp] theorem busWrite_spm : (busWrite r i j w s).spm = s.spm := rfl
@[simp] theorem busWrite_sched : (busWrite r i j w s).sched = s.sched := rfl
@[simp] theorem busWrite_spr : (busWrite r i j w s).spr = s.spr := rfl
@[simp] theorem busWrite_deck : (busWrite r i j w s).deck = s.deck := rfl
@[simp] theorem busWrite_cpr : (busWrite r i j w s).cpr = s.cpr := rfl
@[simp] theorem busWrite_lnd : (busWrite r i j w s).lnd = s.lnd := rfl
@[simp] theorem busWrite_ychs : (busWrite r i j w s).ychs = s.ychs := rfl
@[simp] theorem busWrite_blz : (busWrite r i j w s).blz = s.blz := rfl
@[simp] theorem busWrite_flt : (busWrite r i j w s).flt = s.flt := rfl
@[simp] theorem busWrite_mgt : (busWrite r i j w s).mgt = s.mgt := rfl
@[simp] theorem busWrite_fuse : (busWrite r i j w s).fuse = s.fuse := rfl
@[simp] theorem busWrite_cfg : (busWrite r i j w s).cfg = s.cfg := rfl
@[simp] theorem busWrite_tcm : (busWrite r i j w s).tcm = s.tcm := rfl
@[simp] theorem busWrite_lyo : (busWrite r i j w s).lyo = s.lyo := rfl
@[simp] theorem busWrite_pending : (busWrite r i j w s).pending = s.pending := rfl

end

section
variable (o : Output)

@[simp] theorem emit_regs : (emit o s).regs = s.regs := rfl
@[simp] theorem emit_locked : (emit o s).locked = s.locked := rfl
@[simp] theorem emit_time : (emit o s).time = s.time := rfl
@[simp] theorem emit_free : (emit o s).free = s.free := rfl
@[simp] theorem emit_sram : (emit o s).sram = s.sram := rfl
@[simp] theorem emit_sramEra : (emit o s).sramEra = s.sramEra := rfl
@[simp] theorem emit_nor : (emit o s).nor = s.nor := rfl
@[simp] theorem emit_mirror : (emit o s).mirror = s.mirror := rfl
@[simp] theorem emit_land : (emit o s).land = s.land := rfl
@[simp] theorem emit_landEra : (emit o s).landEra = s.landEra := rfl
@[simp] theorem emit_geo : (emit o s).geo = s.geo := rfl
@[simp] theorem emit_geoImg : (emit o s).geoImg = s.geoImg := rfl
@[simp] theorem emit_links : (emit o s).links = s.links := rfl
@[simp] theorem emit_lanes : (emit o s).lanes = s.lanes := rfl
@[simp] theorem emit_syns : (emit o s).syns = s.syns := rfl
@[simp] theorem emit_wops : (emit o s).wops = s.wops := rfl
@[simp] theorem emit_wbufs : (emit o s).wbufs = s.wbufs := rfl
@[simp] theorem emit_dec : (emit o s).dec = s.dec := rfl
@[simp] theorem emit_arms : (emit o s).arms = s.arms := rfl
@[simp] theorem emit_heads : (emit o s).heads = s.heads := rfl
@[simp] theorem emit_shock : (emit o s).shock = s.shock := rfl
@[simp] theorem emit_shockCh : (emit o s).shockCh = s.shockCh := rfl
@[simp] theorem emit_spm : (emit o s).spm = s.spm := rfl
@[simp] theorem emit_sched : (emit o s).sched = s.sched := rfl
@[simp] theorem emit_spr : (emit o s).spr = s.spr := rfl
@[simp] theorem emit_deck : (emit o s).deck = s.deck := rfl
@[simp] theorem emit_cpr : (emit o s).cpr = s.cpr := rfl
@[simp] theorem emit_lnd : (emit o s).lnd = s.lnd := rfl
@[simp] theorem emit_ychs : (emit o s).ychs = s.ychs := rfl
@[simp] theorem emit_blz : (emit o s).blz = s.blz := rfl
@[simp] theorem emit_flt : (emit o s).flt = s.flt := rfl
@[simp] theorem emit_mgt : (emit o s).mgt = s.mgt := rfl
@[simp] theorem emit_fuse : (emit o s).fuse = s.fuse := rfl
@[simp] theorem emit_cfg : (emit o s).cfg = s.cfg := rfl
@[simp] theorem emit_tcm : (emit o s).tcm = s.tcm := rfl
@[simp] theorem emit_lyo : (emit o s).lyo = s.lyo := rfl
@[simp] theorem emit_pending : (emit o s).pending = s.pending := rfl

end

section
variable (a : Nat) (x : Link)

@[simp] theorem setLink_regs : (setLink a x s).regs = s.regs := rfl
@[simp] theorem setLink_locked : (setLink a x s).locked = s.locked := rfl
@[simp] theorem setLink_time : (setLink a x s).time = s.time := rfl
@[simp] theorem setLink_free : (setLink a x s).free = s.free := rfl
@[simp] theorem setLink_out : (setLink a x s).out = s.out := rfl
@[simp] theorem setLink_sram : (setLink a x s).sram = s.sram := rfl
@[simp] theorem setLink_sramEra : (setLink a x s).sramEra = s.sramEra := rfl
@[simp] theorem setLink_nor : (setLink a x s).nor = s.nor := rfl
@[simp] theorem setLink_mirror : (setLink a x s).mirror = s.mirror := rfl
@[simp] theorem setLink_land : (setLink a x s).land = s.land := rfl
@[simp] theorem setLink_landEra : (setLink a x s).landEra = s.landEra := rfl
@[simp] theorem setLink_geo : (setLink a x s).geo = s.geo := rfl
@[simp] theorem setLink_geoImg : (setLink a x s).geoImg = s.geoImg := rfl
@[simp] theorem setLink_lanes : (setLink a x s).lanes = s.lanes := rfl
@[simp] theorem setLink_syns : (setLink a x s).syns = s.syns := rfl
@[simp] theorem setLink_wops : (setLink a x s).wops = s.wops := rfl
@[simp] theorem setLink_wbufs : (setLink a x s).wbufs = s.wbufs := rfl
@[simp] theorem setLink_dec : (setLink a x s).dec = s.dec := rfl
@[simp] theorem setLink_arms : (setLink a x s).arms = s.arms := rfl
@[simp] theorem setLink_heads : (setLink a x s).heads = s.heads := rfl
@[simp] theorem setLink_shock : (setLink a x s).shock = s.shock := rfl
@[simp] theorem setLink_shockCh : (setLink a x s).shockCh = s.shockCh := rfl
@[simp] theorem setLink_spm : (setLink a x s).spm = s.spm := rfl
@[simp] theorem setLink_sched : (setLink a x s).sched = s.sched := rfl
@[simp] theorem setLink_spr : (setLink a x s).spr = s.spr := rfl
@[simp] theorem setLink_deck : (setLink a x s).deck = s.deck := rfl
@[simp] theorem setLink_cpr : (setLink a x s).cpr = s.cpr := rfl
@[simp] theorem setLink_lnd : (setLink a x s).lnd = s.lnd := rfl
@[simp] theorem setLink_ychs : (setLink a x s).ychs = s.ychs := rfl
@[simp] theorem setLink_blz : (setLink a x s).blz = s.blz := rfl
@[simp] theorem setLink_flt : (setLink a x s).flt = s.flt := rfl
@[simp] theorem setLink_mgt : (setLink a x s).mgt = s.mgt := rfl
@[simp] theorem setLink_fuse : (setLink a x s).fuse = s.fuse := rfl
@[simp] theorem setLink_cfg : (setLink a x s).cfg = s.cfg := rfl
@[simp] theorem setLink_tcm : (setLink a x s).tcm = s.tcm := rfl
@[simp] theorem setLink_lyo : (setLink a x s).lyo = s.lyo := rfl
@[simp] theorem setLink_pending : (setLink a x s).pending = s.pending := rfl

end

section
variable (a : Nat) (x : Lane)

@[simp] theorem setLane_regs : (setLane a x s).regs = s.regs := rfl
@[simp] theorem setLane_locked : (setLane a x s).locked = s.locked := rfl
@[simp] theorem setLane_time : (setLane a x s).time = s.time := rfl
@[simp] theorem setLane_free : (setLane a x s).free = s.free := rfl
@[simp] theorem setLane_out : (setLane a x s).out = s.out := rfl
@[simp] theorem setLane_sram : (setLane a x s).sram = s.sram := rfl
@[simp] theorem setLane_sramEra : (setLane a x s).sramEra = s.sramEra := rfl
@[simp] theorem setLane_nor : (setLane a x s).nor = s.nor := rfl
@[simp] theorem setLane_mirror : (setLane a x s).mirror = s.mirror := rfl
@[simp] theorem setLane_land : (setLane a x s).land = s.land := rfl
@[simp] theorem setLane_landEra : (setLane a x s).landEra = s.landEra := rfl
@[simp] theorem setLane_geo : (setLane a x s).geo = s.geo := rfl
@[simp] theorem setLane_geoImg : (setLane a x s).geoImg = s.geoImg := rfl
@[simp] theorem setLane_links : (setLane a x s).links = s.links := rfl
@[simp] theorem setLane_syns : (setLane a x s).syns = s.syns := rfl
@[simp] theorem setLane_wops : (setLane a x s).wops = s.wops := rfl
@[simp] theorem setLane_wbufs : (setLane a x s).wbufs = s.wbufs := rfl
@[simp] theorem setLane_dec : (setLane a x s).dec = s.dec := rfl
@[simp] theorem setLane_arms : (setLane a x s).arms = s.arms := rfl
@[simp] theorem setLane_heads : (setLane a x s).heads = s.heads := rfl
@[simp] theorem setLane_shock : (setLane a x s).shock = s.shock := rfl
@[simp] theorem setLane_shockCh : (setLane a x s).shockCh = s.shockCh := rfl
@[simp] theorem setLane_spm : (setLane a x s).spm = s.spm := rfl
@[simp] theorem setLane_sched : (setLane a x s).sched = s.sched := rfl
@[simp] theorem setLane_spr : (setLane a x s).spr = s.spr := rfl
@[simp] theorem setLane_deck : (setLane a x s).deck = s.deck := rfl
@[simp] theorem setLane_cpr : (setLane a x s).cpr = s.cpr := rfl
@[simp] theorem setLane_lnd : (setLane a x s).lnd = s.lnd := rfl
@[simp] theorem setLane_ychs : (setLane a x s).ychs = s.ychs := rfl
@[simp] theorem setLane_blz : (setLane a x s).blz = s.blz := rfl
@[simp] theorem setLane_flt : (setLane a x s).flt = s.flt := rfl
@[simp] theorem setLane_mgt : (setLane a x s).mgt = s.mgt := rfl
@[simp] theorem setLane_fuse : (setLane a x s).fuse = s.fuse := rfl
@[simp] theorem setLane_cfg : (setLane a x s).cfg = s.cfg := rfl
@[simp] theorem setLane_tcm : (setLane a x s).tcm = s.tcm := rfl
@[simp] theorem setLane_lyo : (setLane a x s).lyo = s.lyo := rfl
@[simp] theorem setLane_pending : (setLane a x s).pending = s.pending := rfl

end

section
variable (a : Nat) (x : Syn)

@[simp] theorem setSyn_regs : (setSyn a x s).regs = s.regs := rfl
@[simp] theorem setSyn_locked : (setSyn a x s).locked = s.locked := rfl
@[simp] theorem setSyn_time : (setSyn a x s).time = s.time := rfl
@[simp] theorem setSyn_free : (setSyn a x s).free = s.free := rfl
@[simp] theorem setSyn_out : (setSyn a x s).out = s.out := rfl
@[simp] theorem setSyn_sram : (setSyn a x s).sram = s.sram := rfl
@[simp] theorem setSyn_sramEra : (setSyn a x s).sramEra = s.sramEra := rfl
@[simp] theorem setSyn_nor : (setSyn a x s).nor = s.nor := rfl
@[simp] theorem setSyn_mirror : (setSyn a x s).mirror = s.mirror := rfl
@[simp] theorem setSyn_land : (setSyn a x s).land = s.land := rfl
@[simp] theorem setSyn_landEra : (setSyn a x s).landEra = s.landEra := rfl
@[simp] theorem setSyn_geo : (setSyn a x s).geo = s.geo := rfl
@[simp] theorem setSyn_geoImg : (setSyn a x s).geoImg = s.geoImg := rfl
@[simp] theorem setSyn_links : (setSyn a x s).links = s.links := rfl
@[simp] theorem setSyn_lanes : (setSyn a x s).lanes = s.lanes := rfl
@[simp] theorem setSyn_wops : (setSyn a x s).wops = s.wops := rfl
@[simp] theorem setSyn_wbufs : (setSyn a x s).wbufs = s.wbufs := rfl
@[simp] theorem setSyn_dec : (setSyn a x s).dec = s.dec := rfl
@[simp] theorem setSyn_arms : (setSyn a x s).arms = s.arms := rfl
@[simp] theorem setSyn_heads : (setSyn a x s).heads = s.heads := rfl
@[simp] theorem setSyn_shock : (setSyn a x s).shock = s.shock := rfl
@[simp] theorem setSyn_shockCh : (setSyn a x s).shockCh = s.shockCh := rfl
@[simp] theorem setSyn_spm : (setSyn a x s).spm = s.spm := rfl
@[simp] theorem setSyn_sched : (setSyn a x s).sched = s.sched := rfl
@[simp] theorem setSyn_spr : (setSyn a x s).spr = s.spr := rfl
@[simp] theorem setSyn_deck : (setSyn a x s).deck = s.deck := rfl
@[simp] theorem setSyn_cpr : (setSyn a x s).cpr = s.cpr := rfl
@[simp] theorem setSyn_lnd : (setSyn a x s).lnd = s.lnd := rfl
@[simp] theorem setSyn_ychs : (setSyn a x s).ychs = s.ychs := rfl
@[simp] theorem setSyn_blz : (setSyn a x s).blz = s.blz := rfl
@[simp] theorem setSyn_flt : (setSyn a x s).flt = s.flt := rfl
@[simp] theorem setSyn_mgt : (setSyn a x s).mgt = s.mgt := rfl
@[simp] theorem setSyn_fuse : (setSyn a x s).fuse = s.fuse := rfl
@[simp] theorem setSyn_cfg : (setSyn a x s).cfg = s.cfg := rfl
@[simp] theorem setSyn_tcm : (setSyn a x s).tcm = s.tcm := rfl
@[simp] theorem setSyn_lyo : (setSyn a x s).lyo = s.lyo := rfl
@[simp] theorem setSyn_pending : (setSyn a x s).pending = s.pending := rfl

end

section
variable (a : Nat) (x : WriteOp)

@[simp] theorem setWop_regs : (setWop a x s).regs = s.regs := rfl
@[simp] theorem setWop_locked : (setWop a x s).locked = s.locked := rfl
@[simp] theorem setWop_time : (setWop a x s).time = s.time := rfl
@[simp] theorem setWop_free : (setWop a x s).free = s.free := rfl
@[simp] theorem setWop_out : (setWop a x s).out = s.out := rfl
@[simp] theorem setWop_sram : (setWop a x s).sram = s.sram := rfl
@[simp] theorem setWop_sramEra : (setWop a x s).sramEra = s.sramEra := rfl
@[simp] theorem setWop_nor : (setWop a x s).nor = s.nor := rfl
@[simp] theorem setWop_mirror : (setWop a x s).mirror = s.mirror := rfl
@[simp] theorem setWop_land : (setWop a x s).land = s.land := rfl
@[simp] theorem setWop_landEra : (setWop a x s).landEra = s.landEra := rfl
@[simp] theorem setWop_geo : (setWop a x s).geo = s.geo := rfl
@[simp] theorem setWop_geoImg : (setWop a x s).geoImg = s.geoImg := rfl
@[simp] theorem setWop_links : (setWop a x s).links = s.links := rfl
@[simp] theorem setWop_lanes : (setWop a x s).lanes = s.lanes := rfl
@[simp] theorem setWop_syns : (setWop a x s).syns = s.syns := rfl
@[simp] theorem setWop_wbufs : (setWop a x s).wbufs = s.wbufs := rfl
@[simp] theorem setWop_dec : (setWop a x s).dec = s.dec := rfl
@[simp] theorem setWop_arms : (setWop a x s).arms = s.arms := rfl
@[simp] theorem setWop_heads : (setWop a x s).heads = s.heads := rfl
@[simp] theorem setWop_shock : (setWop a x s).shock = s.shock := rfl
@[simp] theorem setWop_shockCh : (setWop a x s).shockCh = s.shockCh := rfl
@[simp] theorem setWop_spm : (setWop a x s).spm = s.spm := rfl
@[simp] theorem setWop_sched : (setWop a x s).sched = s.sched := rfl
@[simp] theorem setWop_spr : (setWop a x s).spr = s.spr := rfl
@[simp] theorem setWop_deck : (setWop a x s).deck = s.deck := rfl
@[simp] theorem setWop_cpr : (setWop a x s).cpr = s.cpr := rfl
@[simp] theorem setWop_lnd : (setWop a x s).lnd = s.lnd := rfl
@[simp] theorem setWop_ychs : (setWop a x s).ychs = s.ychs := rfl
@[simp] theorem setWop_blz : (setWop a x s).blz = s.blz := rfl
@[simp] theorem setWop_flt : (setWop a x s).flt = s.flt := rfl
@[simp] theorem setWop_mgt : (setWop a x s).mgt = s.mgt := rfl
@[simp] theorem setWop_fuse : (setWop a x s).fuse = s.fuse := rfl
@[simp] theorem setWop_cfg : (setWop a x s).cfg = s.cfg := rfl
@[simp] theorem setWop_tcm : (setWop a x s).tcm = s.tcm := rfl
@[simp] theorem setWop_lyo : (setWop a x s).lyo = s.lyo := rfl
@[simp] theorem setWop_pending : (setWop a x s).pending = s.pending := rfl

end

section
variable (a : Nat)

@[simp] theorem dropWop_regs : (dropWop a s).regs = s.regs := rfl
@[simp] theorem dropWop_locked : (dropWop a s).locked = s.locked := rfl
@[simp] theorem dropWop_time : (dropWop a s).time = s.time := rfl
@[simp] theorem dropWop_free : (dropWop a s).free = s.free := rfl
@[simp] theorem dropWop_out : (dropWop a s).out = s.out := rfl
@[simp] theorem dropWop_sram : (dropWop a s).sram = s.sram := rfl
@[simp] theorem dropWop_sramEra : (dropWop a s).sramEra = s.sramEra := rfl
@[simp] theorem dropWop_nor : (dropWop a s).nor = s.nor := rfl
@[simp] theorem dropWop_mirror : (dropWop a s).mirror = s.mirror := rfl
@[simp] theorem dropWop_land : (dropWop a s).land = s.land := rfl
@[simp] theorem dropWop_landEra : (dropWop a s).landEra = s.landEra := rfl
@[simp] theorem dropWop_geo : (dropWop a s).geo = s.geo := rfl
@[simp] theorem dropWop_geoImg : (dropWop a s).geoImg = s.geoImg := rfl
@[simp] theorem dropWop_links : (dropWop a s).links = s.links := rfl
@[simp] theorem dropWop_lanes : (dropWop a s).lanes = s.lanes := rfl
@[simp] theorem dropWop_syns : (dropWop a s).syns = s.syns := rfl
@[simp] theorem dropWop_wbufs : (dropWop a s).wbufs = s.wbufs := rfl
@[simp] theorem dropWop_dec : (dropWop a s).dec = s.dec := rfl
@[simp] theorem dropWop_arms : (dropWop a s).arms = s.arms := rfl
@[simp] theorem dropWop_heads : (dropWop a s).heads = s.heads := rfl
@[simp] theorem dropWop_shock : (dropWop a s).shock = s.shock := rfl
@[simp] theorem dropWop_shockCh : (dropWop a s).shockCh = s.shockCh := rfl
@[simp] theorem dropWop_spm : (dropWop a s).spm = s.spm := rfl
@[simp] theorem dropWop_sched : (dropWop a s).sched = s.sched := rfl
@[simp] theorem dropWop_spr : (dropWop a s).spr = s.spr := rfl
@[simp] theorem dropWop_deck : (dropWop a s).deck = s.deck := rfl
@[simp] theorem dropWop_cpr : (dropWop a s).cpr = s.cpr := rfl
@[simp] theorem dropWop_lnd : (dropWop a s).lnd = s.lnd := rfl
@[simp] theorem dropWop_ychs : (dropWop a s).ychs = s.ychs := rfl
@[simp] theorem dropWop_blz : (dropWop a s).blz = s.blz := rfl
@[simp] theorem dropWop_flt : (dropWop a s).flt = s.flt := rfl
@[simp] theorem dropWop_mgt : (dropWop a s).mgt = s.mgt := rfl
@[simp] theorem dropWop_fuse : (dropWop a s).fuse = s.fuse := rfl
@[simp] theorem dropWop_cfg : (dropWop a s).cfg = s.cfg := rfl
@[simp] theorem dropWop_tcm : (dropWop a s).tcm = s.tcm := rfl
@[simp] theorem dropWop_lyo : (dropWop a s).lyo = s.lyo := rfl
@[simp] theorem dropWop_pending : (dropWop a s).pending = s.pending := rfl

end

section
variable (a : Nat) (x : List InfoBlock)

@[simp] theorem setWbuf_regs : (setWbuf a x s).regs = s.regs := rfl
@[simp] theorem setWbuf_locked : (setWbuf a x s).locked = s.locked := rfl
@[simp] theorem setWbuf_time : (setWbuf a x s).time = s.time := rfl
@[simp] theorem setWbuf_free : (setWbuf a x s).free = s.free := rfl
@[simp] theorem setWbuf_out : (setWbuf a x s).out = s.out := rfl
@[simp] theorem setWbuf_sram : (setWbuf a x s).sram = s.sram := rfl
@[simp] theorem setWbuf_sramEra : (setWbuf a x s).sramEra = s.sramEra := rfl
@[simp] theorem setWbuf_nor : (setWbuf a x s).nor = s.nor := rfl
@[simp] theorem setWbuf_mirror : (setWbuf a x s).mirror = s.mirror := rfl
@[simp] theorem setWbuf_land : (setWbuf a x s).land = s.land := rfl
@[simp] theorem setWbuf_landEra : (setWbuf a x s).landEra = s.landEra := rfl
@[simp] theorem setWbuf_geo : (setWbuf a x s).geo = s.geo := rfl
@[simp] theorem setWbuf_geoImg : (setWbuf a x s).geoImg = s.geoImg := rfl
@[simp] theorem setWbuf_links : (setWbuf a x s).links = s.links := rfl
@[simp] theorem setWbuf_lanes : (setWbuf a x s).lanes = s.lanes := rfl
@[simp] theorem setWbuf_syns : (setWbuf a x s).syns = s.syns := rfl
@[simp] theorem setWbuf_wops : (setWbuf a x s).wops = s.wops := rfl
@[simp] theorem setWbuf_dec : (setWbuf a x s).dec = s.dec := rfl
@[simp] theorem setWbuf_arms : (setWbuf a x s).arms = s.arms := rfl
@[simp] theorem setWbuf_heads : (setWbuf a x s).heads = s.heads := rfl
@[simp] theorem setWbuf_shock : (setWbuf a x s).shock = s.shock := rfl
@[simp] theorem setWbuf_shockCh : (setWbuf a x s).shockCh = s.shockCh := rfl
@[simp] theorem setWbuf_spm : (setWbuf a x s).spm = s.spm := rfl
@[simp] theorem setWbuf_sched : (setWbuf a x s).sched = s.sched := rfl
@[simp] theorem setWbuf_spr : (setWbuf a x s).spr = s.spr := rfl
@[simp] theorem setWbuf_deck : (setWbuf a x s).deck = s.deck := rfl
@[simp] theorem setWbuf_cpr : (setWbuf a x s).cpr = s.cpr := rfl
@[simp] theorem setWbuf_lnd : (setWbuf a x s).lnd = s.lnd := rfl
@[simp] theorem setWbuf_ychs : (setWbuf a x s).ychs = s.ychs := rfl
@[simp] theorem setWbuf_blz : (setWbuf a x s).blz = s.blz := rfl
@[simp] theorem setWbuf_flt : (setWbuf a x s).flt = s.flt := rfl
@[simp] theorem setWbuf_mgt : (setWbuf a x s).mgt = s.mgt := rfl
@[simp] theorem setWbuf_fuse : (setWbuf a x s).fuse = s.fuse := rfl
@[simp] theorem setWbuf_cfg : (setWbuf a x s).cfg = s.cfg := rfl
@[simp] theorem setWbuf_tcm : (setWbuf a x s).tcm = s.tcm := rfl
@[simp] theorem setWbuf_lyo : (setWbuf a x s).lyo = s.lyo := rfl
@[simp] theorem setWbuf_pending : (setWbuf a x s).pending = s.pending := rfl

end

section
variable (a : Nat) (x : ArmSrv)

@[simp] theorem setArm_regs : (setArm a x s).regs = s.regs := rfl
@[simp] theorem setArm_locked : (setArm a x s).locked = s.locked := rfl
@[simp] theorem setArm_time : (setArm a x s).time = s.time := rfl
@[simp] theorem setArm_free : (setArm a x s).free = s.free := rfl
@[simp] theorem setArm_out : (setArm a x s).out = s.out := rfl
@[simp] theorem setArm_sram : (setArm a x s).sram = s.sram := rfl
@[simp] theorem setArm_sramEra : (setArm a x s).sramEra = s.sramEra := rfl
@[simp] theorem setArm_nor : (setArm a x s).nor = s.nor := rfl
@[simp] theorem setArm_mirror : (setArm a x s).mirror = s.mirror := rfl
@[simp] theorem setArm_land : (setArm a x s).land = s.land := rfl
@[simp] theorem setArm_landEra : (setArm a x s).landEra = s.landEra := rfl
@[simp] theorem setArm_geo : (setArm a x s).geo = s.geo := rfl
@[simp] theorem setArm_geoImg : (setArm a x s).geoImg = s.geoImg := rfl
@[simp] theorem setArm_links : (setArm a x s).links = s.links := rfl
@[simp] theorem setArm_lanes : (setArm a x s).lanes = s.lanes := rfl
@[simp] theorem setArm_syns : (setArm a x s).syns = s.syns := rfl
@[simp] theorem setArm_wops : (setArm a x s).wops = s.wops := rfl
@[simp] theorem setArm_wbufs : (setArm a x s).wbufs = s.wbufs := rfl
@[simp] theorem setArm_dec : (setArm a x s).dec = s.dec := rfl
@[simp] theorem setArm_heads : (setArm a x s).heads = s.heads := rfl
@[simp] theorem setArm_shock : (setArm a x s).shock = s.shock := rfl
@[simp] theorem setArm_shockCh : (setArm a x s).shockCh = s.shockCh := rfl
@[simp] theorem setArm_spm : (setArm a x s).spm = s.spm := rfl
@[simp] theorem setArm_sched : (setArm a x s).sched = s.sched := rfl
@[simp] theorem setArm_spr : (setArm a x s).spr = s.spr := rfl
@[simp] theorem setArm_deck : (setArm a x s).deck = s.deck := rfl
@[simp] theorem setArm_cpr : (setArm a x s).cpr = s.cpr := rfl
@[simp] theorem setArm_lnd : (setArm a x s).lnd = s.lnd := rfl
@[simp] theorem setArm_ychs : (setArm a x s).ychs = s.ychs := rfl
@[simp] theorem setArm_blz : (setArm a x s).blz = s.blz := rfl
@[simp] theorem setArm_flt : (setArm a x s).flt = s.flt := rfl
@[simp] theorem setArm_mgt : (setArm a x s).mgt = s.mgt := rfl
@[simp] theorem setArm_fuse : (setArm a x s).fuse = s.fuse := rfl
@[simp] theorem setArm_cfg : (setArm a x s).cfg = s.cfg := rfl
@[simp] theorem setArm_tcm : (setArm a x s).tcm = s.tcm := rfl
@[simp] theorem setArm_lyo : (setArm a x s).lyo = s.lyo := rfl
@[simp] theorem setArm_pending : (setArm a x s).pending = s.pending := rfl

end

section
variable (a : Nat) (x : HeadSrv)

@[simp] theorem setHead_regs : (setHead a x s).regs = s.regs := rfl
@[simp] theorem setHead_locked : (setHead a x s).locked = s.locked := rfl
@[simp] theorem setHead_time : (setHead a x s).time = s.time := rfl
@[simp] theorem setHead_free : (setHead a x s).free = s.free := rfl
@[simp] theorem setHead_out : (setHead a x s).out = s.out := rfl
@[simp] theorem setHead_sram : (setHead a x s).sram = s.sram := rfl
@[simp] theorem setHead_sramEra : (setHead a x s).sramEra = s.sramEra := rfl
@[simp] theorem setHead_nor : (setHead a x s).nor = s.nor := rfl
@[simp] theorem setHead_mirror : (setHead a x s).mirror = s.mirror := rfl
@[simp] theorem setHead_land : (setHead a x s).land = s.land := rfl
@[simp] theorem setHead_landEra : (setHead a x s).landEra = s.landEra := rfl
@[simp] theorem setHead_geo : (setHead a x s).geo = s.geo := rfl
@[simp] theorem setHead_geoImg : (setHead a x s).geoImg = s.geoImg := rfl
@[simp] theorem setHead_links : (setHead a x s).links = s.links := rfl
@[simp] theorem setHead_lanes : (setHead a x s).lanes = s.lanes := rfl
@[simp] theorem setHead_syns : (setHead a x s).syns = s.syns := rfl
@[simp] theorem setHead_wops : (setHead a x s).wops = s.wops := rfl
@[simp] theorem setHead_wbufs : (setHead a x s).wbufs = s.wbufs := rfl
@[simp] theorem setHead_dec : (setHead a x s).dec = s.dec := rfl
@[simp] theorem setHead_arms : (setHead a x s).arms = s.arms := rfl
@[simp] theorem setHead_shock : (setHead a x s).shock = s.shock := rfl
@[simp] theorem setHead_shockCh : (setHead a x s).shockCh = s.shockCh := rfl
@[simp] theorem setHead_spm : (setHead a x s).spm = s.spm := rfl
@[simp] theorem setHead_sched : (setHead a x s).sched = s.sched := rfl
@[simp] theorem setHead_spr : (setHead a x s).spr = s.spr := rfl
@[simp] theorem setHead_deck : (setHead a x s).deck = s.deck := rfl
@[simp] theorem setHead_cpr : (setHead a x s).cpr = s.cpr := rfl
@[simp] theorem setHead_lnd : (setHead a x s).lnd = s.lnd := rfl
@[simp] theorem setHead_ychs : (setHead a x s).ychs = s.ychs := rfl
@[simp] theorem setHead_blz : (setHead a x s).blz = s.blz := rfl
@[simp] theorem setHead_flt : (setHead a x s).flt = s.flt := rfl
@[simp] theorem setHead_mgt : (setHead a x s).mgt = s.mgt := rfl
@[simp] theorem setHead_fuse : (setHead a x s).fuse = s.fuse := rfl
@[simp] theorem setHead_cfg : (setHead a x s).cfg = s.cfg := rfl
@[simp] theorem setHead_tcm : (setHead a x s).tcm = s.tcm := rfl
@[simp] theorem setHead_lyo : (setHead a x s).lyo = s.lyo := rfl
@[simp] theorem setHead_pending : (setHead a x s).pending = s.pending := rfl

end

section
variable (a : Nat) (x : ShockCh)

@[simp] theorem setShk_regs : (setShk a x s).regs = s.regs := rfl
@[simp] theorem setShk_locked : (setShk a x s).locked = s.locked := rfl
@[simp] theorem setShk_time : (setShk a x s).time = s.time := rfl
@[simp] theorem setShk_free : (setShk a x s).free = s.free := rfl
@[simp] theorem setShk_out : (setShk a x s).out = s.out := rfl
@[simp] theorem setShk_sram : (setShk a x s).sram = s.sram := rfl
@[simp] theorem setShk_sramEra : (setShk a x s).sramEra = s.sramEra := rfl
@[simp] theorem setShk_nor : (setShk a x s).nor = s.nor := rfl
@[simp] theorem setShk_mirror : (setShk a x s).mirror = s.mirror := rfl
@[simp] theorem setShk_land : (setShk a x s).land = s.land := rfl
@[simp] theorem setShk_landEra : (setShk a x s).landEra = s.landEra := rfl
@[simp] theorem setShk_geo : (setShk a x s).geo = s.geo := rfl
@[simp] theorem setShk_geoImg : (setShk a x s).geoImg = s.geoImg := rfl
@[simp] theorem setShk_links : (setShk a x s).links = s.links := rfl
@[simp] theorem setShk_lanes : (setShk a x s).lanes = s.lanes := rfl
@[simp] theorem setShk_syns : (setShk a x s).syns = s.syns := rfl
@[simp] theorem setShk_wops : (setShk a x s).wops = s.wops := rfl
@[simp] theorem setShk_wbufs : (setShk a x s).wbufs = s.wbufs := rfl
@[simp] theorem setShk_dec : (setShk a x s).dec = s.dec := rfl
@[simp] theorem setShk_arms : (setShk a x s).arms = s.arms := rfl
@[simp] theorem setShk_heads : (setShk a x s).heads = s.heads := rfl
@[simp] theorem setShk_shock : (setShk a x s).shock = s.shock := rfl
@[simp] theorem setShk_spm : (setShk a x s).spm = s.spm := rfl
@[simp] theorem setShk_sched : (setShk a x s).sched = s.sched := rfl
@[simp] theorem setShk_spr : (setShk a x s).spr = s.spr := rfl
@[simp] theorem setShk_deck : (setShk a x s).deck = s.deck := rfl
@[simp] theorem setShk_cpr : (setShk a x s).cpr = s.cpr := rfl
@[simp] theorem setShk_lnd : (setShk a x s).lnd = s.lnd := rfl
@[simp] theorem setShk_ychs : (setShk a x s).ychs = s.ychs := rfl
@[simp] theorem setShk_blz : (setShk a x s).blz = s.blz := rfl
@[simp] theorem setShk_flt : (setShk a x s).flt = s.flt := rfl
@[simp] theorem setShk_mgt : (setShk a x s).mgt = s.mgt := rfl
@[simp] theorem setShk_fuse : (setShk a x s).fuse = s.fuse := rfl
@[simp] theorem setShk_cfg : (setShk a x s).cfg = s.cfg := rfl
@[simp] theorem setShk_tcm : (setShk a x s).tcm = s.tcm := rfl
@[simp] theorem setShk_lyo : (setShk a x s).lyo = s.lyo := rfl
@[simp] theorem setShk_pending : (setShk a x s).pending = s.pending := rfl

end

section
variable (a : Nat) (x : Slot)

@[simp] theorem setSlot_regs : (setSlot a x s).regs = s.regs := rfl
@[simp] theorem setSlot_locked : (setSlot a x s).locked = s.locked := rfl
@[simp] theorem setSlot_time : (setSlot a x s).time = s.time := rfl
@[simp] theorem setSlot_free : (setSlot a x s).free = s.free := rfl
@[simp] theorem setSlot_out : (setSlot a x s).out = s.out := rfl
@[simp] theorem setSlot_sram : (setSlot a x s).sram = s.sram := rfl
@[simp] theorem setSlot_sramEra : (setSlot a x s).sramEra = s.sramEra := rfl
@[simp] theorem setSlot_nor : (setSlot a x s).nor = s.nor := rfl
@[simp] theorem setSlot_mirror : (setSlot a x s).mirror = s.mirror := rfl
@[simp] theorem setSlot_land : (setSlot a x s).land = s.land := rfl
@[simp] theorem setSlot_landEra : (setSlot a x s).landEra = s.landEra := rfl
@[simp] theorem setSlot_geo : (setSlot a x s).geo = s.geo := rfl
@[simp] theorem setSlot_geoImg : (setSlot a x s).geoImg = s.geoImg := rfl
@[simp] theorem setSlot_links : (setSlot a x s).links = s.links := rfl
@[simp] theorem setSlot_lanes : (setSlot a x s).lanes = s.lanes := rfl
@[simp] theorem setSlot_syns : (setSlot a x s).syns = s.syns := rfl
@[simp] theorem setSlot_wops : (setSlot a x s).wops = s.wops := rfl
@[simp] theorem setSlot_wbufs : (setSlot a x s).wbufs = s.wbufs := rfl
@[simp] theorem setSlot_arms : (setSlot a x s).arms = s.arms := rfl
@[simp] theorem setSlot_heads : (setSlot a x s).heads = s.heads := rfl
@[simp] theorem setSlot_shock : (setSlot a x s).shock = s.shock := rfl
@[simp] theorem setSlot_shockCh : (setSlot a x s).shockCh = s.shockCh := rfl
@[simp] theorem setSlot_spm : (setSlot a x s).spm = s.spm := rfl
@[simp] theorem setSlot_sched : (setSlot a x s).sched = s.sched := rfl
@[simp] theorem setSlot_spr : (setSlot a x s).spr = s.spr := rfl
@[simp] theorem setSlot_deck : (setSlot a x s).deck = s.deck := rfl
@[simp] theorem setSlot_cpr : (setSlot a x s).cpr = s.cpr := rfl
@[simp] theorem setSlot_lnd : (setSlot a x s).lnd = s.lnd := rfl
@[simp] theorem setSlot_ychs : (setSlot a x s).ychs = s.ychs := rfl
@[simp] theorem setSlot_blz : (setSlot a x s).blz = s.blz := rfl
@[simp] theorem setSlot_flt : (setSlot a x s).flt = s.flt := rfl
@[simp] theorem setSlot_mgt : (setSlot a x s).mgt = s.mgt := rfl
@[simp] theorem setSlot_fuse : (setSlot a x s).fuse = s.fuse := rfl
@[simp] theorem setSlot_cfg : (setSlot a x s).cfg = s.cfg := rfl
@[simp] theorem setSlot_tcm : (setSlot a x s).tcm = s.tcm := rfl
@[simp] theorem setSlot_lyo : (setSlot a x s).lyo = s.lyo := rfl
@[simp] theorem setSlot_pending : (setSlot a x s).pending = s.pending := rfl

end

section
variable (a : Nat)

@[simp] theorem freeSlot_regs : (freeSlot a s).regs = s.regs := rfl
@[simp] theorem freeSlot_locked : (freeSlot a s).locked = s.locked := rfl
@[simp] theorem freeSlot_time : (freeSlot a s).time = s.time := rfl
@[simp] theorem freeSlot_free : (freeSlot a s).free = s.free := rfl
@[simp] theorem freeSlot_out : (freeSlot a s).out = s.out := rfl
@[simp] theorem freeSlot_sram : (freeSlot a s).sram = s.sram := rfl
@[simp] theorem freeSlot_sramEra : (freeSlot a s).sramEra = s.sramEra := rfl
@[simp] theorem freeSlot_nor : (freeSlot a s).nor = s.nor := rfl
@[simp] theorem freeSlot_mirror : (freeSlot a s).mirror = s.mirror := rfl
@[simp] theorem freeSlot_land : (freeSlot a s).land = s.land := rfl
@[simp] theorem freeSlot_landEra : (freeSlot a s).landEra = s.landEra := rfl
@[simp] theorem freeSlot_geo : (freeSlot a s).geo = s.geo := rfl
@[simp] theorem freeSlot_geoImg : (freeSlot a s).geoImg = s.geoImg := rfl
@[simp] theorem freeSlot_links : (freeSlot a s).links = s.links := rfl
@[simp] theorem freeSlot_lanes : (freeSlot a s).lanes = s.lanes := rfl
@[simp] theorem freeSlot_syns : (freeSlot a s).syns = s.syns := rfl
@[simp] theorem freeSlot_wops : (freeSlot a s).wops = s.wops := rfl
@[simp] theorem freeSlot_wbufs : (freeSlot a s).wbufs = s.wbufs := rfl
@[simp] theorem freeSlot_arms : (freeSlot a s).arms = s.arms := rfl
@[simp] theorem freeSlot_heads : (freeSlot a s).heads = s.heads := rfl
@[simp] theorem freeSlot_shock : (freeSlot a s).shock = s.shock := rfl
@[simp] theorem freeSlot_shockCh : (freeSlot a s).shockCh = s.shockCh := rfl
@[simp] theorem freeSlot_spm : (freeSlot a s).spm = s.spm := rfl
@[simp] theorem freeSlot_sched : (freeSlot a s).sched = s.sched := rfl
@[simp] theorem freeSlot_spr : (freeSlot a s).spr = s.spr := rfl
@[simp] theorem freeSlot_deck : (freeSlot a s).deck = s.deck := rfl
@[simp] theorem freeSlot_cpr : (freeSlot a s).cpr = s.cpr := rfl
@[simp] theorem freeSlot_lnd : (freeSlot a s).lnd = s.lnd := rfl
@[simp] theorem freeSlot_ychs : (freeSlot a s).ychs = s.ychs := rfl
@[simp] theorem freeSlot_blz : (freeSlot a s).blz = s.blz := rfl
@[simp] theorem freeSlot_flt : (freeSlot a s).flt = s.flt := rfl
@[simp] theorem freeSlot_mgt : (freeSlot a s).mgt = s.mgt := rfl
@[simp] theorem freeSlot_fuse : (freeSlot a s).fuse = s.fuse := rfl
@[simp] theorem freeSlot_cfg : (freeSlot a s).cfg = s.cfg := rfl
@[simp] theorem freeSlot_tcm : (freeSlot a s).tcm = s.tcm := rfl
@[simp] theorem freeSlot_lyo : (freeSlot a s).lyo = s.lyo := rfl
@[simp] theorem freeSlot_pending : (freeSlot a s).pending = s.pending := rfl

end

section
variable (a : Nat) (x : Engine)

@[simp] theorem setEng_regs : (setEng a x s).regs = s.regs := rfl
@[simp] theorem setEng_locked : (setEng a x s).locked = s.locked := rfl
@[simp] theorem setEng_time : (setEng a x s).time = s.time := rfl
@[simp] theorem setEng_free : (setEng a x s).free = s.free := rfl
@[simp] theorem setEng_out : (setEng a x s).out = s.out := rfl
@[simp] theorem setEng_sram : (setEng a x s).sram = s.sram := rfl
@[simp] theorem setEng_sramEra : (setEng a x s).sramEra = s.sramEra := rfl
@[simp] theorem setEng_nor : (setEng a x s).nor = s.nor := rfl
@[simp] theorem setEng_mirror : (setEng a x s).mirror = s.mirror := rfl
@[simp] theorem setEng_land : (setEng a x s).land = s.land := rfl
@[simp] theorem setEng_landEra : (setEng a x s).landEra = s.landEra := rfl
@[simp] theorem setEng_geo : (setEng a x s).geo = s.geo := rfl
@[simp] theorem setEng_geoImg : (setEng a x s).geoImg = s.geoImg := rfl
@[simp] theorem setEng_links : (setEng a x s).links = s.links := rfl
@[simp] theorem setEng_lanes : (setEng a x s).lanes = s.lanes := rfl
@[simp] theorem setEng_syns : (setEng a x s).syns = s.syns := rfl
@[simp] theorem setEng_wops : (setEng a x s).wops = s.wops := rfl
@[simp] theorem setEng_wbufs : (setEng a x s).wbufs = s.wbufs := rfl
@[simp] theorem setEng_arms : (setEng a x s).arms = s.arms := rfl
@[simp] theorem setEng_heads : (setEng a x s).heads = s.heads := rfl
@[simp] theorem setEng_shock : (setEng a x s).shock = s.shock := rfl
@[simp] theorem setEng_shockCh : (setEng a x s).shockCh = s.shockCh := rfl
@[simp] theorem setEng_spm : (setEng a x s).spm = s.spm := rfl
@[simp] theorem setEng_sched : (setEng a x s).sched = s.sched := rfl
@[simp] theorem setEng_spr : (setEng a x s).spr = s.spr := rfl
@[simp] theorem setEng_deck : (setEng a x s).deck = s.deck := rfl
@[simp] theorem setEng_cpr : (setEng a x s).cpr = s.cpr := rfl
@[simp] theorem setEng_lnd : (setEng a x s).lnd = s.lnd := rfl
@[simp] theorem setEng_ychs : (setEng a x s).ychs = s.ychs := rfl
@[simp] theorem setEng_blz : (setEng a x s).blz = s.blz := rfl
@[simp] theorem setEng_flt : (setEng a x s).flt = s.flt := rfl
@[simp] theorem setEng_mgt : (setEng a x s).mgt = s.mgt := rfl
@[simp] theorem setEng_fuse : (setEng a x s).fuse = s.fuse := rfl
@[simp] theorem setEng_cfg : (setEng a x s).cfg = s.cfg := rfl
@[simp] theorem setEng_tcm : (setEng a x s).tcm = s.tcm := rfl
@[simp] theorem setEng_lyo : (setEng a x s).lyo = s.lyo := rfl
@[simp] theorem setEng_pending : (setEng a x s).pending = s.pending := rfl

end

section
variable (a : Nat) (x : Ctx)

@[simp] theorem setCtx_regs : (setCtx a x s).regs = s.regs := rfl
@[simp] theorem setCtx_locked : (setCtx a x s).locked = s.locked := rfl
@[simp] theorem setCtx_time : (setCtx a x s).time = s.time := rfl
@[simp] theorem setCtx_free : (setCtx a x s).free = s.free := rfl
@[simp] theorem setCtx_out : (setCtx a x s).out = s.out := rfl
@[simp] theorem setCtx_sram : (setCtx a x s).sram = s.sram := rfl
@[simp] theorem setCtx_sramEra : (setCtx a x s).sramEra = s.sramEra := rfl
@[simp] theorem setCtx_nor : (setCtx a x s).nor = s.nor := rfl
@[simp] theorem setCtx_mirror : (setCtx a x s).mirror = s.mirror := rfl
@[simp] theorem setCtx_land : (setCtx a x s).land = s.land := rfl
@[simp] theorem setCtx_landEra : (setCtx a x s).landEra = s.landEra := rfl
@[simp] theorem setCtx_geo : (setCtx a x s).geo = s.geo := rfl
@[simp] theorem setCtx_geoImg : (setCtx a x s).geoImg = s.geoImg := rfl
@[simp] theorem setCtx_links : (setCtx a x s).links = s.links := rfl
@[simp] theorem setCtx_lanes : (setCtx a x s).lanes = s.lanes := rfl
@[simp] theorem setCtx_syns : (setCtx a x s).syns = s.syns := rfl
@[simp] theorem setCtx_wops : (setCtx a x s).wops = s.wops := rfl
@[simp] theorem setCtx_wbufs : (setCtx a x s).wbufs = s.wbufs := rfl
@[simp] theorem setCtx_arms : (setCtx a x s).arms = s.arms := rfl
@[simp] theorem setCtx_heads : (setCtx a x s).heads = s.heads := rfl
@[simp] theorem setCtx_shock : (setCtx a x s).shock = s.shock := rfl
@[simp] theorem setCtx_shockCh : (setCtx a x s).shockCh = s.shockCh := rfl
@[simp] theorem setCtx_spm : (setCtx a x s).spm = s.spm := rfl
@[simp] theorem setCtx_sched : (setCtx a x s).sched = s.sched := rfl
@[simp] theorem setCtx_spr : (setCtx a x s).spr = s.spr := rfl
@[simp] theorem setCtx_deck : (setCtx a x s).deck = s.deck := rfl
@[simp] theorem setCtx_cpr : (setCtx a x s).cpr = s.cpr := rfl
@[simp] theorem setCtx_lnd : (setCtx a x s).lnd = s.lnd := rfl
@[simp] theorem setCtx_ychs : (setCtx a x s).ychs = s.ychs := rfl
@[simp] theorem setCtx_blz : (setCtx a x s).blz = s.blz := rfl
@[simp] theorem setCtx_flt : (setCtx a x s).flt = s.flt := rfl
@[simp] theorem setCtx_mgt : (setCtx a x s).mgt = s.mgt := rfl
@[simp] theorem setCtx_fuse : (setCtx a x s).fuse = s.fuse := rfl
@[simp] theorem setCtx_cfg : (setCtx a x s).cfg = s.cfg := rfl
@[simp] theorem setCtx_tcm : (setCtx a x s).tcm = s.tcm := rfl
@[simp] theorem setCtx_lyo : (setCtx a x s).lyo = s.lyo := rfl
@[simp] theorem setCtx_pending : (setCtx a x s).pending = s.pending := rfl

end

section
variable (a : Nat)

@[simp] theorem freeCtx_regs : (freeCtx a s).regs = s.regs := rfl
@[simp] theorem freeCtx_locked : (freeCtx a s).locked = s.locked := rfl
@[simp] theorem freeCtx_time : (freeCtx a s).time = s.time := rfl
@[simp] theorem freeCtx_free : (freeCtx a s).free = s.free := rfl
@[simp] theorem freeCtx_out : (freeCtx a s).out = s.out := rfl
@[simp] theorem freeCtx_sram : (freeCtx a s).sram = s.sram := rfl
@[simp] theorem freeCtx_sramEra : (freeCtx a s).sramEra = s.sramEra := rfl
@[simp] theorem freeCtx_nor : (freeCtx a s).nor = s.nor := rfl
@[simp] theorem freeCtx_mirror : (freeCtx a s).mirror = s.mirror := rfl
@[simp] theorem freeCtx_land : (freeCtx a s).land = s.land := rfl
@[simp] theorem freeCtx_landEra : (freeCtx a s).landEra = s.landEra := rfl
@[simp] theorem freeCtx_geo : (freeCtx a s).geo = s.geo := rfl
@[simp] theorem freeCtx_geoImg : (freeCtx a s).geoImg = s.geoImg := rfl
@[simp] theorem freeCtx_links : (freeCtx a s).links = s.links := rfl
@[simp] theorem freeCtx_lanes : (freeCtx a s).lanes = s.lanes := rfl
@[simp] theorem freeCtx_syns : (freeCtx a s).syns = s.syns := rfl
@[simp] theorem freeCtx_wops : (freeCtx a s).wops = s.wops := rfl
@[simp] theorem freeCtx_wbufs : (freeCtx a s).wbufs = s.wbufs := rfl
@[simp] theorem freeCtx_arms : (freeCtx a s).arms = s.arms := rfl
@[simp] theorem freeCtx_heads : (freeCtx a s).heads = s.heads := rfl
@[simp] theorem freeCtx_shock : (freeCtx a s).shock = s.shock := rfl
@[simp] theorem freeCtx_shockCh : (freeCtx a s).shockCh = s.shockCh := rfl
@[simp] theorem freeCtx_spm : (freeCtx a s).spm = s.spm := rfl
@[simp] theorem freeCtx_sched : (freeCtx a s).sched = s.sched := rfl
@[simp] theorem freeCtx_spr : (freeCtx a s).spr = s.spr := rfl
@[simp] theorem freeCtx_deck : (freeCtx a s).deck = s.deck := rfl
@[simp] theorem freeCtx_cpr : (freeCtx a s).cpr = s.cpr := rfl
@[simp] theorem freeCtx_lnd : (freeCtx a s).lnd = s.lnd := rfl
@[simp] theorem freeCtx_ychs : (freeCtx a s).ychs = s.ychs := rfl
@[simp] theorem freeCtx_blz : (freeCtx a s).blz = s.blz := rfl
@[simp] theorem freeCtx_flt : (freeCtx a s).flt = s.flt := rfl
@[simp] theorem freeCtx_mgt : (freeCtx a s).mgt = s.mgt := rfl
@[simp] theorem freeCtx_fuse : (freeCtx a s).fuse = s.fuse := rfl
@[simp] theorem freeCtx_cfg : (freeCtx a s).cfg = s.cfg := rfl
@[simp] theorem freeCtx_tcm : (freeCtx a s).tcm = s.tcm := rfl
@[simp] theorem freeCtx_lyo : (freeCtx a s).lyo = s.lyo := rfl
@[simp] theorem freeCtx_pending : (freeCtx a s).pending = s.pending := rfl

end

section
variable (x : Item)

@[simp] theorem setItem_regs : (setItem x s).regs = s.regs := rfl
@[simp] theorem setItem_locked : (setItem x s).locked = s.locked := rfl
@[simp] theorem setItem_time : (setItem x s).time = s.time := rfl
@[simp] theorem setItem_free : (setItem x s).free = s.free := rfl
@[simp] theorem setItem_out : (setItem x s).out = s.out := rfl
@[simp] theorem setItem_sram : (setItem x s).sram = s.sram := rfl
@[simp] theorem setItem_sramEra : (setItem x s).sramEra = s.sramEra := rfl
@[simp] theorem setItem_nor : (setItem x s).nor = s.nor := rfl
@[simp] theorem setItem_mirror : (setItem x s).mirror = s.mirror := rfl
@[simp] theorem setItem_land : (setItem x s).land = s.land := rfl
@[simp] theorem setItem_landEra : (setItem x s).landEra = s.landEra := rfl
@[simp] theorem setItem_geo : (setItem x s).geo = s.geo := rfl
@[simp] theorem setItem_geoImg : (setItem x s).geoImg = s.geoImg := rfl
@[simp] theorem setItem_links : (setItem x s).links = s.links := rfl
@[simp] theorem setItem_lanes : (setItem x s).lanes = s.lanes := rfl
@[simp] theorem setItem_syns : (setItem x s).syns = s.syns := rfl
@[simp] theorem setItem_wops : (setItem x s).wops = s.wops := rfl
@[simp] theorem setItem_wbufs : (setItem x s).wbufs = s.wbufs := rfl
@[simp] theorem setItem_dec : (setItem x s).dec = s.dec := rfl
@[simp] theorem setItem_arms : (setItem x s).arms = s.arms := rfl
@[simp] theorem setItem_heads : (setItem x s).heads = s.heads := rfl
@[simp] theorem setItem_shock : (setItem x s).shock = s.shock := rfl
@[simp] theorem setItem_shockCh : (setItem x s).shockCh = s.shockCh := rfl
@[simp] theorem setItem_spm : (setItem x s).spm = s.spm := rfl
@[simp] theorem setItem_spr : (setItem x s).spr = s.spr := rfl
@[simp] theorem setItem_deck : (setItem x s).deck = s.deck := rfl
@[simp] theorem setItem_cpr : (setItem x s).cpr = s.cpr := rfl
@[simp] theorem setItem_lnd : (setItem x s).lnd = s.lnd := rfl
@[simp] theorem setItem_ychs : (setItem x s).ychs = s.ychs := rfl
@[simp] theorem setItem_blz : (setItem x s).blz = s.blz := rfl
@[simp] theorem setItem_flt : (setItem x s).flt = s.flt := rfl
@[simp] theorem setItem_mgt : (setItem x s).mgt = s.mgt := rfl
@[simp] theorem setItem_fuse : (setItem x s).fuse = s.fuse := rfl
@[simp] theorem setItem_cfg : (setItem x s).cfg = s.cfg := rfl
@[simp] theorem setItem_tcm : (setItem x s).tcm = s.tcm := rfl
@[simp] theorem setItem_lyo : (setItem x s).lyo = s.lyo := rfl
@[simp] theorem setItem_pending : (setItem x s).pending = s.pending := rfl

end

@[simp] theorem emit_out (o : Output) : (emit o s).out = o :: s.out := rfl

@[simp] theorem link_setLink (a : Nat) (x : Link) : link (setLink a x s) a = x := Tab.get_set _ _ _ _

theorem link_setLink_other (a b : Nat) (x : Link) (h : a ≠ b) : link (setLink a x s) b = link s b := Tab.get_set_other _ _ _ _ h

@[simp] theorem lane_setLane (a : Nat) (x : Lane) : lane (setLane a x s) a = x := Tab.get_set _ _ _ _

theorem lane_setLane_other (a b : Nat) (x : Lane) (h : a ≠ b) : lane (setLane a x s) b = lane s b := Tab.get_set_other _ _ _ _ h

@[simp] theorem syn_setSyn (a : Nat) (x : Syn) : syn (setSyn a x s) a = x := Tab.get_set _ _ _ _

theorem syn_setSyn_other (a b : Nat) (x : Syn) (h : a ≠ b) : syn (setSyn a x s) b = syn s b := Tab.get_set_other _ _ _ _ h

@[simp] theorem wbuf_setWbuf (a : Nat) (x : List InfoBlock) : wbuf (setWbuf a x s) a = x := Tab.get_set _ _ _ _

theorem wbuf_setWbuf_other (a b : Nat) (x : List InfoBlock) (h : a ≠ b) : wbuf (setWbuf a x s) b = wbuf s b := Tab.get_set_other _ _ _ _ h

@[simp] theorem arm_setArm (a : Nat) (x : ArmSrv) : arm (setArm a x s) a = x := Tab.get_set _ _ _ _

theorem arm_setArm_other (a b : Nat) (x : ArmSrv) (h : a ≠ b) : arm (setArm a x s) b = arm s b := Tab.get_set_other _ _ _ _ h

@[simp] theorem head_setHead (a : Nat) (x : HeadSrv) : head (setHead a x s) a = x := Tab.get_set _ _ _ _

theorem head_setHead_other (a b : Nat) (x : HeadSrv) (h : a ≠ b) : head (setHead a x s) b = head s b := Tab.get_set_other _ _ _ _ h

@[simp] theorem shk_setShk (a : Nat) (x : ShockCh) : shk (setShk a x s) a = x := Tab.get_set _ _ _ _

theorem shk_setShk_other (a b : Nat) (x : ShockCh) (h : a ≠ b) : shk (setShk a x s) b = shk s b := Tab.get_set_other _ _ _ _ h

@[simp] theorem eng_setEng (a : Nat) (x : Engine) : eng (setEng a x s) a = x := Tab.get_set _ _ _ _

@[simp] theorem wop_setWop (a : Nat) (x : WriteOp) : wop (setWop a x s) a = some x := Tab.get?_put_same _ _ _

@[simp] theorem slot_setSlot (a : Nat) (x : Slot) : slot (setSlot a x s) a = some x := Tab.get?_put_same _ _ _

@[simp] theorem ctx_setCtx (a : Nat) (x : Ctx) : ctx (setCtx a x s) a = some x := Tab.get?_put_same _ _ _

@[simp] theorem wop_dropWop (a : Nat) : wop (dropWop a s) a = none := (Tab.get?_erase _ _ _).trans (if_pos rfl)

@[simp] theorem slot_freeSlot (a : Nat) : slot (freeSlot a s) a = none := (Tab.get?_erase _ _ _).trans (if_pos rfl)

@[simp] theorem ctx_freeCtx (a : Nat) : ctx (freeCtx a s) a = none := (Tab.get?_erase _ _ _).trans (if_pos rfl)

@[simp] theorem item_dropItem (a : Nat) : item (dropItem a s) a = none := (Tab.get?_erase _ _ _).trans (if_pos rfl)

@[simp] theorem item_setItem (x : Item) : item (setItem x s) x.id = some x := Tab.get?_put_same _ _ _

/-! ### A register write leaves every unit record -/

section
variable (r : RegDef) (i j v : Nat)

@[simp] theorem link_wr (a : Nat) : link (wr r i j v s) a = link s a := rfl
@[simp] theorem lane_wr (a : Nat) : lane (wr r i j v s) a = lane s a := rfl
@[simp] theorem syn_wr (a : Nat) : syn (wr r i j v s) a = syn s a := rfl
@[simp] theorem wop_wr (a : Nat) : wop (wr r i j v s) a = wop s a := rfl
@[simp] theorem wbuf_wr (a : Nat) : wbuf (wr r i j v s) a = wbuf s a := rfl
@[simp] theorem arm_wr (a : Nat) : arm (wr r i j v s) a = arm s a := rfl
@[simp] theorem head_wr (a : Nat) : head (wr r i j v s) a = head s a := rfl
@[simp] theorem shk_wr (a : Nat) : shk (wr r i j v s) a = shk s a := rfl
@[simp] theorem slot_wr (a : Nat) : slot (wr r i j v s) a = slot s a := rfl
@[simp] theorem eng_wr (a : Nat) : eng (wr r i j v s) a = eng s a := rfl
@[simp] theorem ctx_wr (a : Nat) : ctx (wr r i j v s) a = ctx s a := rfl
@[simp] theorem item_wr (a : Nat) : item (wr r i j v s) a = item s a := rfl

end

section
variable (f : Field) (i j v : Nat)

@[simp] theorem link_put2 (a : Nat) : link (put2 f i j v s) a = link s a := rfl
@[simp] theorem lane_put2 (a : Nat) : lane (put2 f i j v s) a = lane s a := rfl
@[simp] theorem syn_put2 (a : Nat) : syn (put2 f i j v s) a = syn s a := rfl
@[simp] theorem wop_put2 (a : Nat) : wop (put2 f i j v s) a = wop s a := rfl
@[simp] theorem wbuf_put2 (a : Nat) : wbuf (put2 f i j v s) a = wbuf s a := rfl
@[simp] theorem arm_put2 (a : Nat) : arm (put2 f i j v s) a = arm s a := rfl
@[simp] theorem head_put2 (a : Nat) : head (put2 f i j v s) a = head s a := rfl
@[simp] theorem shk_put2 (a : Nat) : shk (put2 f i j v s) a = shk s a := rfl
@[simp] theorem slot_put2 (a : Nat) : slot (put2 f i j v s) a = slot s a := rfl
@[simp] theorem eng_put2 (a : Nat) : eng (put2 f i j v s) a = eng s a := rfl
@[simp] theorem ctx_put2 (a : Nat) : ctx (put2 f i j v s) a = ctx s a := rfl
@[simp] theorem item_put2 (a : Nat) : item (put2 f i j v s) a = item s a := rfl

end

section
variable (f : Field) (i v : Nat)

@[simp] theorem link_put (a : Nat) : link (put f i v s) a = link s a := rfl
@[simp] theorem lane_put (a : Nat) : lane (put f i v s) a = lane s a := rfl
@[simp] theorem syn_put (a : Nat) : syn (put f i v s) a = syn s a := rfl
@[simp] theorem wop_put (a : Nat) : wop (put f i v s) a = wop s a := rfl
@[simp] theorem wbuf_put (a : Nat) : wbuf (put f i v s) a = wbuf s a := rfl
@[simp] theorem arm_put (a : Nat) : arm (put f i v s) a = arm s a := rfl
@[simp] theorem head_put (a : Nat) : head (put f i v s) a = head s a := rfl
@[simp] theorem shk_put (a : Nat) : shk (put f i v s) a = shk s a := rfl
@[simp] theorem slot_put (a : Nat) : slot (put f i v s) a = slot s a := rfl
@[simp] theorem eng_put (a : Nat) : eng (put f i v s) a = eng s a := rfl
@[simp] theorem ctx_put (a : Nat) : ctx (put f i v s) a = ctx s a := rfl
@[simp] theorem item_put (a : Nat) : item (put f i v s) a = item s a := rfl

end

section
variable (f : Field) (i k : Nat) (b : Bool)

@[simp] theorem link_putFBit (a : Nat) : link (putFBit f i k b s) a = link s a := rfl
@[simp] theorem lane_putFBit (a : Nat) : lane (putFBit f i k b s) a = lane s a := rfl
@[simp] theorem syn_putFBit (a : Nat) : syn (putFBit f i k b s) a = syn s a := rfl
@[simp] theorem wop_putFBit (a : Nat) : wop (putFBit f i k b s) a = wop s a := rfl
@[simp] theorem wbuf_putFBit (a : Nat) : wbuf (putFBit f i k b s) a = wbuf s a := rfl
@[simp] theorem arm_putFBit (a : Nat) : arm (putFBit f i k b s) a = arm s a := rfl
@[simp] theorem head_putFBit (a : Nat) : head (putFBit f i k b s) a = head s a := rfl
@[simp] theorem shk_putFBit (a : Nat) : shk (putFBit f i k b s) a = shk s a := rfl
@[simp] theorem slot_putFBit (a : Nat) : slot (putFBit f i k b s) a = slot s a := rfl
@[simp] theorem eng_putFBit (a : Nat) : eng (putFBit f i k b s) a = eng s a := rfl
@[simp] theorem ctx_putFBit (a : Nat) : ctx (putFBit f i k b s) a = ctx s a := rfl
@[simp] theorem item_putFBit (a : Nat) : item (putFBit f i k b s) a = item s a := rfl

end

section
variable (f : Field) (i n : Nat)

@[simp] theorem link_countN (a : Nat) : link (countN f i n s) a = link s a := rfl
@[simp] theorem lane_countN (a : Nat) : lane (countN f i n s) a = lane s a := rfl
@[simp] theorem syn_countN (a : Nat) : syn (countN f i n s) a = syn s a := rfl
@[simp] theorem wop_countN (a : Nat) : wop (countN f i n s) a = wop s a := rfl
@[simp] theorem wbuf_countN (a : Nat) : wbuf (countN f i n s) a = wbuf s a := rfl
@[simp] theorem arm_countN (a : Nat) : arm (countN f i n s) a = arm s a := rfl
@[simp] theorem head_countN (a : Nat) : head (countN f i n s) a = head s a := rfl
@[simp] theorem shk_countN (a : Nat) : shk (countN f i n s) a = shk s a := rfl
@[simp] theorem slot_countN (a : Nat) : slot (countN f i n s) a = slot s a := rfl
@[simp] theorem eng_countN (a : Nat) : eng (countN f i n s) a = eng s a := rfl
@[simp] theorem ctx_countN (a : Nat) : ctx (countN f i n s) a = ctx s a := rfl
@[simp] theorem item_countN (a : Nat) : item (countN f i n s) a = item s a := rfl

end

section
variable (f : Field) (i : Nat)

@[simp] theorem link_count (a : Nat) : link (count f i s) a = link s a := rfl
@[simp] theorem lane_count (a : Nat) : lane (count f i s) a = lane s a := rfl
@[simp] theorem syn_count (a : Nat) : syn (count f i s) a = syn s a := rfl
@[simp] theorem wop_count (a : Nat) : wop (count f i s) a = wop s a := rfl
@[simp] theorem wbuf_count (a : Nat) : wbuf (count f i s) a = wbuf s a := rfl
@[simp] theorem arm_count (a : Nat) : arm (count f i s) a = arm s a := rfl
@[simp] theorem head_count (a : Nat) : head (count f i s) a = head s a := rfl
@[simp] theorem shk_count (a : Nat) : shk (count f i s) a = shk s a := rfl
@[simp] theorem slot_count (a : Nat) : slot (count f i s) a = slot s a := rfl
@[simp] theorem eng_count (a : Nat) : eng (count f i s) a = eng s a := rfl
@[simp] theorem ctx_count (a : Nat) : ctx (count f i s) a = ctx s a := rfl
@[simp] theorem item_count (a : Nat) : item (count f i s) a = item s a := rfl

end

section
variable (r : RegDef) (i j : Nat) (w : BusW)

@[simp] theorem link_busWrite (a : Nat) : link (busWrite r i j w s) a = link s a := rfl
@[simp] theorem lane_busWrite (a : Nat) : lane (busWrite r i j w s) a = lane s a := rfl
@[simp] theorem syn_busWrite (a : Nat) : syn (busWrite r i j w s) a = syn s a := rfl
@[simp] theorem wop_busWrite (a : Nat) : wop (busWrite r i j w s) a = wop s a := rfl
@[simp] theorem wbuf_busWrite (a : Nat) : wbuf (busWrite r i j w s) a = wbuf s a := rfl
@[simp] theorem arm_busWrite (a : Nat) : arm (busWrite r i j w s) a = arm s a := rfl
@[simp] theorem head_busWrite (a : Nat) : head (busWrite r i j w s) a = head s a := rfl
@[simp] theorem shk_busWrite (a : Nat) : shk (busWrite r i j w s) a = shk s a := rfl
@[simp] theorem slot_busWrite (a : Nat) : slot (busWrite r i j w s) a = slot s a := rfl
@[simp] theorem eng_busWrite (a : Nat) : eng (busWrite r i j w s) a = eng s a := rfl
@[simp] theorem ctx_busWrite (a : Nat) : ctx (busWrite r i j w s) a = ctx s a := rfl
@[simp] theorem item_busWrite (a : Nat) : item (busWrite r i j w s) a = item s a := rfl

end

section
variable (o : Output)

@[simp] theorem link_emit (a : Nat) : link (emit o s) a = link s a := rfl
@[simp] theorem lane_emit (a : Nat) : lane (emit o s) a = lane s a := rfl
@[simp] theorem syn_emit (a : Nat) : syn (emit o s) a = syn s a := rfl
@[simp] theorem wop_emit (a : Nat) : wop (emit o s) a = wop s a := rfl
@[simp] theorem wbuf_emit (a : Nat) : wbuf (emit o s) a = wbuf s a := rfl
@[simp] theorem arm_emit (a : Nat) : arm (emit o s) a = arm s a := rfl
@[simp] theorem head_emit (a : Nat) : head (emit o s) a = head s a := rfl
@[simp] theorem shk_emit (a : Nat) : shk (emit o s) a = shk s a := rfl
@[simp] theorem slot_emit (a : Nat) : slot (emit o s) a = slot s a := rfl
@[simp] theorem eng_emit (a : Nat) : eng (emit o s) a = eng s a := rfl
@[simp] theorem ctx_emit (a : Nat) : ctx (emit o s) a = ctx s a := rfl
@[simp] theorem item_emit (a : Nat) : item (emit o s) a = item s a := rfl

end

end Sys2Proof.Laws
end

