-- ==== Sys2Proof/Laws/Regs.lean ====
section
/-! SUPPORT. Laws of bit fields and of registers: a read after a write, of the same field, of another field, of another register. -/

namespace Sys2Proof.Laws

open Sys2Proof Sys2Proof.Machine

/-! ### Bit fields -/

theorem putBits_eq (v hi lo x : Nat) :
    putBits v hi lo x = v / 2 ^ (hi + 1) * 2 ^ (hi + 1) + x % 2 ^ (hi + 1 - lo) * 2 ^ lo + v % 2 ^ lo := by
  simp [putBits, Nat.shiftLeft_eq, Nat.shiftRight_eq_div_pow]

theorem bitsOf_eq (v hi lo : Nat) : bitsOf v hi lo = v / 2 ^ lo % 2 ^ (hi + 1 - lo) := by
  simp [bitsOf, Nat.shiftRight_eq_div_pow]

theorem pow_split {hi lo : Nat} (h : lo ≤ hi + 1) : 2 ^ (hi + 1) = 2 ^ (hi + 1 - lo) * 2 ^ lo := by
  rw [← Nat.pow_add]; congr 1; omega

/-- A field read after it is written. -/
theorem bitsOf_putBits {hi lo : Nat} (v x : Nat) (h : lo ≤ hi) :
    bitsOf (putBits v hi lo x) hi lo = x % 2 ^ (hi + 1 - lo) := by
  have hl : 0 < 2 ^ lo := Nat.two_pow_pos lo
  have hw : 0 < 2 ^ (hi + 1 - lo) := Nat.two_pow_pos _
  rw [bitsOf_eq, putBits_eq, pow_split (by omega : lo ≤ hi + 1), ← Nat.mul_assoc, ← Nat.add_mul,
    Nat.add_comm _ (v % 2 ^ lo), Nat.add_mul_div_right _ _ hl, Nat.div_eq_of_lt (Nat.mod_lt _ hl), Nat.zero_add,
    Nat.add_comm (_ * _), Nat.add_mul_mod_self_right, Nat.mod_mod]

theorem bitsOf_lt (v hi lo : Nat) : bitsOf v hi lo < 2 ^ (hi + 1 - lo) := by
  rw [bitsOf_eq]; exact Nat.mod_lt _ (Nat.two_pow_pos _)

/-- A register stays within its width when a field inside it is written. -/
theorem putBits_lt {v hi lo x n : Nat} (hv : v < 2 ^ n) (h : hi < n) (hl : lo ≤ hi) : putBits v hi lo x < 2 ^ n := by
  have hw : 0 < 2 ^ (hi + 1) := Nat.two_pow_pos _
  have hn : 2 ^ n = 2 ^ (n - (hi + 1)) * 2 ^ (hi + 1) := by rw [← Nat.pow_add]; congr 1; omega
  have hx : x % 2 ^ (hi + 1 - lo) * 2 ^ lo + v % 2 ^ lo < 2 ^ (hi + 1) := by
    rw [pow_split (by omega : lo ≤ hi + 1)]
    have h1 : x % 2 ^ (hi + 1 - lo) + 1 ≤ 2 ^ (hi + 1 - lo) := Nat.mod_lt _ (Nat.two_pow_pos _)
    have h2 : v % 2 ^ lo < 2 ^ lo := Nat.mod_lt _ (Nat.two_pow_pos _)
    calc x % 2 ^ (hi + 1 - lo) * 2 ^ lo + v % 2 ^ lo < (x % 2 ^ (hi + 1 - lo) + 1) * 2 ^ lo := by rw [Nat.add_mul]; omega
      _ ≤ _ := Nat.mul_le_mul_right _ h1
  have hd : v / 2 ^ (hi + 1) + 1 ≤ 2 ^ (n - (hi + 1)) := by
    rw [Nat.add_one_le_iff, Nat.div_lt_iff_lt_mul hw, ← hn]; exact hv
  rw [putBits_eq, hn]
  calc v / 2 ^ (hi + 1) * 2 ^ (hi + 1) + x % 2 ^ (hi + 1 - lo) * 2 ^ lo + v % 2 ^ lo
      < (v / 2 ^ (hi + 1) + 1) * 2 ^ (hi + 1) := by rw [Nat.add_mul]; omega
    _ ≤ _ := Nat.mul_le_mul_right _ hd

/-- Two fields of one register do not overlap. -/
def apart (hi lo hi' lo' : Nat) : Prop := hi < lo' ∨ hi' < lo

/-- Another field of a register is as it was. -/
theorem bitsOf_putBits_apart {hi lo hi' lo' : Nat} (v x : Nat) (h : lo ≤ hi) (h' : lo' ≤ hi') (ha : apart hi lo hi' lo') :
    bitsOf (putBits v hi lo x) hi' lo' = bitsOf v hi' lo' := by
  have key : ∀ i, (i < lo ∨ hi < i) → (putBits v hi lo x).testBit i = v.testBit i := by
    intro i hi0
    have e : putBits v hi lo x = 2 ^ (hi + 1) * (v / 2 ^ (hi + 1)) + (2 ^ lo * (x % 2 ^ (hi + 1 - lo)) + v % 2 ^ lo) := by
      rw [putBits_eq, Nat.mul_comm, Nat.mul_comm (x % _), Nat.add_assoc]
    have hb : 2 ^ lo * (x % 2 ^ (hi + 1 - lo)) + v % 2 ^ lo < 2 ^ (hi + 1) := by
      have h1 : x % 2 ^ (hi + 1 - lo) + 1 ≤ 2 ^ (hi + 1 - lo) := Nat.mod_lt _ (Nat.two_pow_pos _)
      have h2 : v % 2 ^ lo < 2 ^ lo := Nat.mod_lt _ (Nat.two_pow_pos _)
      rw [pow_split (by omega : lo ≤ hi + 1), Nat.mul_comm (2 ^ (hi + 1 - lo))]
      calc _ < 2 ^ lo * (x % 2 ^ (hi + 1 - lo) + 1) := by rw [Nat.mul_add]; omega
        _ ≤ _ := Nat.mul_le_mul_left _ h1
    rw [e, Nat.testBit_two_pow_mul_add _ hb]
    rcases hi0 with hi0 | hi0
    · rw [if_pos (by omega), Nat.testBit_two_pow_mul_add _ (Nat.mod_lt _ (Nat.two_pow_pos _)), if_pos hi0, Nat.testBit_mod_two_pow]
      simp [hi0]
    · rw [if_neg (by omega), Nat.testBit_div_two_pow]; congr 1; omega
  apply Nat.eq_of_testBit_eq
  intro i
  simp only [bitsOf, Nat.testBit_mod_two_pow, Nat.testBit_shiftRight]
  by_cases hi1 : i < hi' + 1 - lo'
  · rw [key _ (by rcases ha with ha | ha <;> omega)]
  · simp [hi1]

/-! ### Registers -/

theorem rd_lt (r : RegDef) (i j : Nat) (s : State) : rd r i j s < 2 ^ 64 := by
  unfold rd; exact BitVec.isLt _

/-- A register read after it is written. -/
@[simp] theorem rd_wr (r : RegDef) (i j v : Nat) (s : State) : rd r i j (wr r i j v s) = v % 2 ^ 64 := by
  have := Tab.get_set s.regs (word (r.reset i j)) (r.addr i j) (word v)
  unfold Tab.get at this
  unfold rd wr
  rw [this]; simp [word]

/-- No other address is written. -/
theorem regs_wr_other (r : RegDef) (i j v : Nat) (s : State) {k : Nat} (h : r.addr i j ≠ k) :
    Tab.get? (wr r i j v s).regs k = Tab.get? s.regs k := Tab.get?_set_other _ _ _ h

theorem rd_wr_other {r q : RegDef} {i j i' j' : Nat} (v : Nat) (s : State) (h : r.addr i j ≠ q.addr i' j') :
    rd q i' j' (wr r i j v s) = rd q i' j' s := by
  unfold rd; rw [regs_wr_other _ _ _ _ _ h]

/-- A field read after it is written. -/
theorem fld_put {f : Field} (i v : Nat) (s : State) (h : f.lo ≤ f.hi) (h' : f.hi < 64) :
    fld f i (put f i v s) = v % 2 ^ (f.hi + 1 - f.lo) := by
  unfold fld fld2 put put2
  rw [rd_wr, Nat.mod_eq_of_lt (putBits_lt (rd_lt _ _ _ _) h' h), bitsOf_putBits _ _ h]

theorem fld2_put2 {f : Field} (i j v : Nat) (s : State) (h : f.lo ≤ f.hi) (h' : f.hi < 64) :
    fld2 f i j (put2 f i j v s) = v % 2 ^ (f.hi + 1 - f.lo) := by
  unfold fld2 put2
  rw [rd_wr, Nat.mod_eq_of_lt (putBits_lt (rd_lt _ _ _ _) h' h), bitsOf_putBits _ _ h]

/-- A field of another register, or of another instance, is as it was. -/
theorem fld2_put2_other {f g : Field} {i j i' j' : Nat} (v : Nat) (s : State) (h : f.reg.addr i j ≠ g.reg.addr i' j') :
    fld2 g i' j' (put2 f i j v s) = fld2 g i' j' s := by
  unfold fld2 put2; rw [rd_wr_other _ _ h]

theorem fld_put_other {f g : Field} {i i' : Nat} (v : Nat) (s : State) (h : f.reg.addr i 0 ≠ g.reg.addr i' 0) :
    fld g i' (put f i v s) = fld g i' s := fld2_put2_other v s h

/-- Another field of the same register is as it was. -/
theorem fld_put_apart {f g : Field} (i v : Nat) (s : State) (hr : f.reg = g.reg) (hf : f.lo ≤ f.hi) (hg : g.lo ≤ g.hi)
    (h' : f.hi < 64) (ha : apart f.hi f.lo g.hi g.lo) : fld g i (put f i v s) = fld g i s := by
  unfold fld fld2 put put2
  rw [← hr, rd_wr, Nat.mod_eq_of_lt (putBits_lt (rd_lt _ _ _ _) h' hf), bitsOf_putBits_apart _ _ hf hg ha]

theorem fld_lt (f : Field) (i : Nat) (s : State) : fld f i s < 2 ^ (f.hi + 1 - f.lo) := bitsOf_lt _ _ _

/-- A saturating count of a field. -/
theorem fld_count {f : Field} (i : Nat) (s : State) (h : f.lo ≤ f.hi) (h' : f.hi < 64) :
    fld f i (count f i s) = min (fmax f) (fld f i s + 1) := by
  unfold count countN
  rw [fld_put _ _ _ h h', Nat.mod_eq_of_lt]
  have := Nat.two_pow_pos (f.hi + 1 - f.lo)
  unfold fmax; omega

end Sys2Proof.Laws
end

