-- ==== Sys2Proof/Tests/Slice0.lean ====
section
/-! SUPPORT. Tests: the checks of WellFormed, worked examples of the spec, and for every statement with premises states and operands that
meet them, clause by clause. -/

set_option Elab.async false
set_option linter.unusedVariables false

namespace Sys2Proof.Tests

open Sys2Proof Sys2Proof.Machine

/-! ### Small states -/

/-- A number list as bytes. -/
def bytes0 (l : List Nat) : List Byte := l.map byte

/-- A geometry image of 192 bytes: arms 0 and 1, one zone of 100 tracks of 64 sectors, one STAGING and one SPARE region (R26, R27). -/
def tinyImage : List Byte := bytes0 [75, 71, 69, 79, 1, 0, 64, 0, 3, 16, 1, 2, 32, 28, 0, 0, 64, 0, 0, 0, 96, 0, 0, 0, 128, 0, 0, 0, 160, 0, 0, 0,
  192, 0, 0, 0, 1, 0, 0, 0, 0, 0, 0, 0, 0, 0, 0, 0, 0, 0, 0, 0, 0, 0, 0, 0, 0, 0, 0, 0, 44, 185, 64, 113,
  0, 0, 0, 0, 0, 0, 0, 0, 0, 128, 0, 0, 0, 0, 0, 0, 0, 0, 0, 0, 0, 0, 0, 0, 0, 0, 0, 0, 0, 0, 0, 0,
  0, 0, 0, 0, 99, 0, 0, 0, 64, 0, 0, 0, 232, 3, 0, 0, 0, 0, 0, 0, 0, 0, 0, 0, 0, 0, 0, 0, 0, 0, 0, 0,
  0, 0, 0, 0, 0, 0, 0, 0, 0, 0, 0, 0, 0, 0, 0, 0, 0, 0, 0, 0, 0, 0, 0, 0, 0, 0, 0, 0, 0, 0, 0, 0,
  0, 0, 0, 0, 9, 0, 0, 0, 1, 0, 0, 0, 0, 0, 0, 0, 10, 0, 0, 0, 19, 0, 0, 0, 2, 0, 0, 0, 0, 0, 0, 0]

/-- Bytes from `a` as a memory table. -/
def memAt (a : Nat) (bs : List Byte) : Tab Byte := bs.zipIdx.map (fun e => (a + e.2, e.1))

/-- A small geometry: arms 0 and 1, one zone, no rotation. -/
def geo0 : Geometry := ⟨3, [0, 32768, 0, 0], [⟨0, 99, 64, 0, 1000, 0, 0, List.replicate 16 0⟩], [⟨0, 9, 1⟩, ⟨10, 19, 2⟩], 7200, 1⟩

def readOp0 : ReadOp := ⟨psaWord 0 0 20 0, 4, 0, 0, none, none, false, false, false⟩

def sectorRead0 : SectorRead := ⟨[], List.replicate 8 ⟨0, 0, 0⟩⟩

/-- A channel bit of value 0. -/
def bit0 : BitIn := ⟨0, false, 0, 0, 0, 0⟩

/-- Lane 0 in its search for a sync mark of 16 zeros, its bit count still before the zero-phase start. -/
def syncLane (l : Lane) : State :=
  setLane 0 { l with op := some readOp0, phase := .acquire, chan := { idx := -1000 } }
    (put F.LANE_TR_ACQ 0 0 (put F.LANE_SYNC_PAT_PAT 0 0 (put F.LANE_SYNC_CTL_LEN 0 16 (put F.LANE_SYNC_CTL_MISM 0 0 State.reset))))

def item0 : Item := { id := 0, write := false, pass := false, zone := 0, track := 20, mem := [(0, 0)], count := 1, cls := 0, fn := 0, origin := 0, urgent := false, bound := none, head := none, avoid := [], retry := none, opofs := 0, req := 0, flags := 0, dst := [], lr := false, nopar := false, aborted := false, st := .ready, t0 := 0, seekEnd := 0, predEnd := 0, held := 0, seekHeld := 0, solo := false, media := false }

def slot0 : Slot := ⟨⟨0, 0⟩, item0, 0, none, 0, [], false, 0, none, 0, false⟩

def writeOp0 : WriteOp := ⟨[(0, { sgate := true })], 0, 20, 0, 1, 1, 0, 0, 0, none, false, 0, false, false, false⟩

def block0 : InfoBlock := ⟨psaWord 0 0 20 0, [], [], 0, 0, 0, []⟩

/-- Arm 0 with its link UP, its synthesizer locked and every permit that WKILL asks for (R63). -/
def wkillFree : State :=
  { put F.SRV_SHK_STAT_SHOCK_OK 0 1 (put F.LANE_SYN_STAT_STATE 0 2 (put F.LANE_ALK_STAT_STATE 0 2 (put F.CPR_RETRACT_LOW 0 0 (put F.LANE_ALK_STAT_WKILL 0 0 State.reset)))) with geo := some geo0 }

def readyLane : State :=
  setLane 0 { op := some readOp0 } (put F.LANE_TGT_HI_TLEN 0 3 (put F.LANE_STAT_STATE 0 6 (put F.LANE_SYN_STAT_STATE 0 2 State.reset)))

def gateOp : WriteOp := { writeOp0 with heads := [(0, {})], heatAck := true }

def gateState : State :=
  setWop 0 gateOp (setWbuf 0 [block0] (setPers 0 1 (putFBit F.SRV_WPERM_WPERM 0 0 true (put F.WP_STAT_STATE 0 2 wkillFree))))

def pass0 : Pass := ⟨0, .cruise, 0, 0, 0, 0, 1, 1, [(0, ⟨[], 5⟩)], 0, 0, false, 0, some 0, false, false, none, 1, [], 1, none, 0⟩

def feedState : State :=
  setWop 0 { writeOp0 with count := 3, heads := [(0, { done := 1 })] } (put F.WP_STAT_STATE 0 2 { State.reset with spr := { passes := [(0, pass0)] } })

def ctx0 : Ctx := ⟨⟨0, 0⟩, item0, [], [], 1, [], some 0, 0, 0, 0, false, false, false, .step, 0, 0, 0, 31, 0, 0, false, 0, []⟩

/-- Little-endian bytes of a list of (size, value). -/
def pack (l : List (Nat × Nat)) : List Byte := l.flatMap (fun e => bytesOf e.1 e.2)

/-- A descriptor with OWN set (R280): OP, NSID, COUNT, ADDR, BUF, AUX. -/
def descBytes (op nsid count addr buf aux : Nat) : List Byte :=
  pack [(1, op), (1, 1), (2, nsid), (1, 0), (1, count), (2, 0), (8, addr), (8, buf), (8, 0), (8, aux), (16, 0), (8, 0)]

/-- SRAM with a descriptor at 0x20008000, and a namespace table at its base: NSID 1 of 60 units and one extent, all others invalid (R239, R240). -/
def tables (d : List Byte) : Tab Byte :=
  memAt sramBase (pack [(1, 1), (1, 1), (2, 0), (4, 1), (4, sramBase + 0x4000), (4, 0), (8, 60), (8, 0)]) ++
  (List.range 255).map (fun k => (sramBase + 32 + 32 * k, byte 0)) ++ memAt (sramBase + 0x4000) (pack [(5, 0), (1, 0), (2, 0), (5, 2), (3, 0)]) ++
  memAt (sramBase + 0x8000) d

/-- A drive with those tables whose parity engine looks for descriptors. -/
def ringState (d : List Byte) : State :=
  { put F.SPR_RING_BASE_ADDR 0 0x800200 (put F.SPR_NS_BASE_ADDR 0 0x1000000 (put F.SPR_CTL_ENABLE 0 1 State.reset)) with
    sram := tables d, spr := { look := true }, geo := some geo0 }

def stripeRd0 (u : RdUse) : StripeRd := ⟨0, u, 0, 2, 1, none, []⟩

/-- A relocation table of one entry at 0x20009000: COUNT stripes from stripe 2 of zone 0, surface 3, its bitmap at the start of the landing (R267). -/
def relocState (count st : Nat) : State :=
  putGranule (landBase / 64) ⟨List.replicate 64 (byte 0), false⟩
    (put F.LND_STAT_STATE 0 2 (put F.SPR_SALV_STAT_STATE 0 st (put F.SPR_RELOC_CNT_COUNT 0 1 (put F.SPR_RELOC_BASE_ADDR 0 0x1000480
    { ringState [] with sram := tables [] ++ memAt (sramBase + 0x9000) (pack [(5, 2), (1, 0), (1, 0), (1, 1), (5, 0), (1, 3), (2, 0), (4, count), (4, 0), (8, landBase)]) }))))

def cruise0 (p : CruisePhase) : Cruise := ⟨0, 2, 1, 0, 0, p, []⟩

/-- The first stripe that cruise visits with those tables. -/
def visit0 : Nat × OwnRun := (cruiseNext (put F.SPR_CRUISE_CTL_EN 0 1 (ringState [])) 0).getD (0, ⟨0, 0, 0, 0, 0, 0⟩)

/-- A booted drive whose link is in L0 at width 4, with PF0's memory space and bus mastering on. -/
def hostOn : State :=
  let s := put F.HIF_LINK_STAT_LSTATE 0 2 (put F.HIF_LINK_STAT_WIDTH 0 4 (put F.CFG_BME 0 1 (put F.CFG_MSE 0 1 State.reset)))
  { s with cpr := { s.cpr with perst := false, stage := 3 } }

/-- A submission entry (opcode, CID, NSID, CDW10 to CDW15). -/
def sqe0 (op cid nsid : Nat) (ds : List Nat) : List Byte :=
  pack ([(1, op), (1, 0), (2, cid), (4, nsid), (32, 0)] ++ (ds ++ List.replicate (6 - ds.length) 0).map (fun d => (4, d)))

/-- A command of PF0 in slot 3, from queue `q`. -/
def cmd0 (q op nsid : Nat) (ds : List Nat) (p : CmdPhase) : Cmd := { slot := 3, fn := 0, sq := q, sqe := sqe0 op 9 nsid ds, num := 0, ord := 0, t := 0, phase := p }

/-- A Read of the first block of NSID 1. -/
def readCmd (p : CmdPhase) : Cmd := cmd0 1 2 1 [] p

def nsRec0 : NsRec := { nsze := 480, flbas := 0, dps := 0, nmic := 0, profile := 0, awu := 0, gen := 1, attached := 1, exts := [(0, 0, 2)] }

def sq0 : Sq := { base := 4096, size := 8, cq := 1, cmb := false }

/-- PF0 ready, with a Read fetched from queue 1. -/
def admitState : State :=
  setSq 0 1 { sq0 with tail := 1, fetch := 1, got := [sqe0 2 9 1 []] } (put F.DECK_FN_SLOT_MAX 0 64 (put F.CSTS_RDY 0 1 hostOn))

/-- Every arm's link UP, as a write needs its heads. -/
def upHeads (s : State) : State := (List.range 4).foldl (fun s a => put F.LANE_ALK_STAT_STATE a 2 (put F.SRV_MODE_MODE a 6 s)) s

/-- A landing that is trained. -/
def landReady : State := put F.LND_STAT_STATE 0 2 hostOn

def blz0 : BlzRec := ⟨1, 5, 7, 9, 11, 0⟩

/-- Channel 0 of the yarder, enabled and with a doorbell, over a ring at 0x20008000 whose first descriptor is `d`. -/
def yrdState (d : List Byte) : State :=
  let s := put F.YRD_CTL_ENABLE 0 1 (put F.YRD_CH_CTL_ENABLE 0 1 (put F.YRD_CH_BASE_ADDR 0 0x800200 (put F.YRD_STAT_CHUNK_FREE 0 64 State.reset)))
  setYch 0 { look := true } { s with sram := memAt (sramBase + 0x8000) d }

def ydesc0 : YDesc := ⟨sramBase + 0x8000, 0, false, 0, 0, 0, 4, sramBase, sramBase + 64, [], 0, none, 1, 0, false⟩

def mrg0 : MrgEnt := ⟨landBase / 64, [some 1], false, 0⟩

/-- A drive whose management firmware runs. -/
def mgtState : State :=
  let s := put F.MGT_STAT_RECOVERY 0 0 hostOn
  { s with cpr := { s.cpr with lyHeld := false, aonSleep := false } }

/-- The same with its management interface enabled. -/
def miState : State := put F.MGT_MI_EN 0 1 mgtState

def dump0 : DumpRun := { cause := 0 }

/-- A dump of a protected region of 2 MiB that has begun, with two good NAND blocks. -/
def dumpState : State :=
  let s := put F.CPR_DUMP_BLK_VALID 0 1 (put F.CPR_DUMP_BLK_VALID 1 1 (put F.CPR_DUMP_CTL_PPB 0 256 (put F.CPR_DUMP_CTL_WAYS 0 1
    (put F.LND_PROT_SIZE 0 2 (put F.CPR_DUMP_CTL_STATE 0 2 hostOn)))))
  { s with cpr := { s.cpr with dump := some dump0 } }
def fenceHeld : State := { State.reset with lnd := { State.reset.lnd with held := [.fence 0 4 [] []] } }

/-! ### The checks of WellFormed refuse an ill-formed term each -/

/-- A byte enable beyond eight bytes, and data beyond 64 bits. -/
theorem test_wf_busw : (Instr.wdtKick ⟨256, 0⟩).wf = false ∧ (Instr.srvGo 0 ⟨255, 2 ^ 64⟩).wf = false ∧ (Instr.fltInjArm ⟨256, 0⟩).wf = false := by
  decide +kernel

theorem test_wf_access : (Instr.registerWrite .lyolo 0x40000000 3 0 false).wf = false ∧
    (Instr.registerWrite .lyolo (2 ^ 64) 4 0 false).wf = false ∧ (Instr.registerWrite .lyolo 0x40000000 4 (2 ^ 32) false).wf = false ∧
    (Instr.readClear .yarder 0x40000000 5).wf = false ∧ (Instr.readClear .yarder (2 ^ 64) 4).wf = false := by decide +kernel

/-- A sense measurement of no sample or of more than 256, and a count of no code error. -/
theorem test_wf_sense : (Instr.senseDone 0 []).wf = false ∧ (Instr.senseDone 0 [List.replicate 200 0, List.replicate 57 0]).wf = false ∧
    (Instr.uplinkCodeErrors 0 0).wf = false := by decide +kernel

/-- An envelope or a baseline beyond the ADC, and trims of seven sub-converters. -/
theorem test_wf_sector_read : (Instr.sectorReadEnd 0 ⟨[⟨0, false, 0, 4096, 0, 0⟩], List.replicate 8 ⟨0, 0, 0⟩⟩).wf = false ∧
    (Instr.syncFound 0 [⟨0, false, 0, 0, 2048, 0⟩]).wf = false ∧ (Instr.sectorReadEnd 0 ⟨[], List.replicate 7 ⟨0, 0, 0⟩⟩).wf = false := by
  decide +kernel

theorem test_wf_lane : (Instr.laneCalDone 0 []).wf = false ∧ (Instr.sectorFeedDone 0 (List.replicate 66 .ok)).wf = false := by
  decide +kernel

theorem test_wf_wedge : (Instr.servoWedge 0 ⟨0, 0, true, []⟩).wf = false := by decide +kernel

/-- No line-to-line voltage, 255 conversions for the 256 of R220, and more crossings than five electrical turns hold. -/
theorem test_wf_spindle : (Instr.spmStart []).wf = false ∧ (Instr.spmRotorStill []).wf = false ∧
    (Instr.spmOffsetCalDone (List.replicate 255 ⟨0, 0, 0⟩)).wf = false ∧ (Instr.spmCatchLock (List.replicate 26 (0, 0))).wf = false := by
  decide +kernel

theorem test_wf_cmb : (Instr.cmbWrite 0 0 [] false).wf = false ∧ (Instr.cmbRead 0 0 0).wf = false := by decide +kernel

theorem test_wf_completion : (Instr.completionReceived 0 0 (List.replicate 4097 0) false false).wf = false ∧
    (Instr.completionReceived 0 (2 ^ 14) [] false false).wf = false ∧ (Instr.completionTimeout 0 (2 ^ 14)).wf = false := by decide +kernel

theorem test_wf_ns_create : (Instr.nsCreate 0 0 []).wf = false ∧ (Instr.nsCreate 0 (2 ^ 64) [(0, 0, 0)]).wf = false := by decide +kernel

theorem test_wf_salvage_plan : (Instr.salvageCtlStart 0 (some ⟨0, 0, 0, 2 ^ 64⟩)).wf = false := by decide +kernel

theorem test_wf_remap : (Instr.lndRmapCopyDone 0 []).wf = false ∧ (Instr.lndTrainDone false 1 0).wf = false ∧
    (Instr.lndTrainDone false 0 1).wf = false ∧ (Instr.lndTrainDone false 1 5).wf = false := by decide +kernel

theorem test_wf_landing : (Instr.landingWrite .yarder 0 [] false [] []).wf = false ∧
    (Instr.landingWrite .yarder (2 ^ 64) [0] false [] []).wf = false ∧ (Instr.landingRead .yarder 0 0 [] []).wf = false ∧
    (Instr.landingRead .yarder (2 ^ 64) 1 [] []).wf = false ∧ (Instr.amoAccess 0 .swap (2 ^ 64) false 0 .ok).wf = false := by decide +kernel

theorem test_wf_report : (Instr.checkerReport [] 0).wf = false ∧ (Instr.checkerReport [⟨32, none, 256, 0, 0, 0, none, false⟩] 0).wf = false ∧
    (Instr.checkerReport [⟨32, none, 0, 256, 0, 0, none, false⟩] 0).wf = false ∧
    (Instr.checkerReport [⟨32, none, 0, 0, 2 ^ 64, 0, none, false⟩] 0).wf = false ∧
    (Instr.checkerReport [⟨32, none, 0, 0, 0, 2 ^ 32, none, false⟩] 0).wf = false := by decide +kernel

theorem test_wf_samples : (Instr.thermalSample []).wf = false ∧ (Instr.roSample []).wf = false ∧ (Instr.wearSample 0 (2 ^ 64)).wf = false := by
  decide +kernel

/-- Landing areas that do not start on a granule. -/
theorem test_wf_areas : (Instr.write 0 ⟨1, 0, 0, 0⟩).wf = false ∧ (Instr.read 0 ⟨0, 32, 0, 0⟩).wf = false ∧
    (Instr.compare 0 ⟨0, 0, 8, 0⟩).wf = false ∧ (Instr.orderedRead 0 ⟨0, 0, 0, 63⟩).wf = false := by decide +kernel

/-! ### Worked examples of the spec -/

/-- Zone 3 of the reference drive (example under R16). -/
def zone3 : Zone := ⟨120000, 159999, 768, 2, 3872, 410, 0, List.replicate 16 0⟩

/-- F05:T0120345:S0100 begins at angle 18,911 (example under R16). -/
theorem test_sector_angle : sectorAngle zone3 120345 100 = 18911 := by decide +kernel

/-- 3,872 Mb/s: PDIV 4, NINT 619, NFRAC 0x851EB8 (example under R106). -/
theorem test_synthesizer : (synPdiv 3872).2 = 4 ∧ synNint 3872 = 619 ∧ synNfrac 3872 = 0x851EB8 := by decide +kernel

/-- Zone 0 of the reference drive: 792 sectors a track. -/
def zoneOuter : Zone := ⟨0, 39999, 792, 0, 4000, 0, 0, List.replicate 16 0⟩

/-- LBA 1,000,000 of the example under R241: stripe 6,561,066 lies on track 8,284 at sector 138, unit slot 10 on F04 and P on F09. -/
theorem test_stripe_mapping :
    let s := { State.reset with geo := some ⟨15, [0, 16384, 32768, 49152], [zoneOuter], [], 7200, 1⟩ }
    stripeTrack zoneOuter 6561066 = 8284 ∧ stripeBase zoneOuter 6561066 = 138 ∧ surfOf s 0 6561066 10 = 4 ∧
      surfOf s 0 6561066 15 = 9 ∧ roleOf s 0 6561066 9 = 15 ∧ memberPsa s 0 6561066 4 = psaWord 4 0 8284 138 := by decide +kernel

/-- The settle hand-over of the example under R190: from 5,000 with b0 0.75 and 0.5 and G 4.0 on an input of −300, the second state is
1,362.5 and the output is again 5,000. -/
theorem test_settle_hand_over :
    let x : ArmSrv := { coef := List.replicate 11 0 ++ [12288, 0, 0, 0, 0, 8192, 0, 0, 0, 0, 1024] ++ List.replicate 10 0 }
    let h := handOver x 11 5000 (-300)
    h.2.s1 = 22323200 ∧ (compensate x 11 h.1 h.2 (-300)).1 = 5000 := by decide +kernel

/-- Head H37 is arm A2, surface F05 (R2). -/
theorem test_head_number : armOf 37 = 2 ∧ 37 - 16 * armOf 37 = 5 := by decide +kernel

/-- Gray code of a track number (R175): 7 is 0b100 and 4 is 0b110. -/
theorem test_gray : grayToNat 0b100 = 7 ∧ grayToNat 0b110 = 4 := by decide +kernel

/-- The check value of CRC-32C over "123456789" is 0xE3069283, that of the T10 CRC-16 0xD0DB. -/
theorem test_crc : crc32c (bytes0 [49, 50, 51, 52, 53, 54, 55, 56, 57]) = 0xE3069283 ∧
    crc16 (bytes0 [49, 50, 51, 52, 53, 54, 55, 56, 57]) = 0xD0DB := by decide +kernel

/-- A dropout of bits 10,000 to 10,179 at the reset values of LANE_DEF is one run from 9,968 of 244 bits (example under R97). -/
theorem test_dropout_run :
    let l := erasureRanges State.reset 37 37136 none { drops := [(10000, 10179)] }
    l = [(9968, 10211)] ∧ erasedBits (mergeRuns l) = 244 := by decide +kernel

/-- Overlapping ranges become one run, and ranges seven bits apart too; eight bits apart they stay two (R97). -/
theorem test_merge_runs : mergeRuns [(0, 1000), (100, 110), (500, 510)] = [(0, 1000)] ∧ mergeRuns [(0, 10), (18, 20)] = [(0, 20)] ∧
    mergeRuns [(0, 10), (19, 20)] = [(0, 10), (19, 20)] := by decide +kernel

/-- A transition after transitions at bits i − 1 and i − 2 but not at i − 3 has k = 6: with PC6 = 5 it is five 32nds late (example
under R121). -/
theorem test_precompensation : pcDelay 0x5000000 [true, false, true, true] false = 5 := by decide +kernel

/-! ### Commands on small states -/

/-- An image with another MAGIC is refused with ERR 01h, and one with another VERSION with ERR 02h (R31). -/
theorem test_geometry_refused :
    (checkImage { State.reset with sram := memAt sramBase (0 :: tinyImage.drop 1) } sramBase).1 = 1 ∧
      (checkImage { State.reset with sram := Tab.put (memAt sramBase tinyImage) (sramBase + 4) 9 } sramBase).1 = 2 := by decide +kernel

/-- A GEO_LOAD sets BUSY and a second one while it runs has no effect (R29). -/
theorem test_geo_load_busy :
    (match exec .geoLoad State.reset with | .next t => flag F.SPR_GEO_CTL_BUSY 0 t | _ => false) = true ∧
      (let s := put F.SPR_GEO_CTL_BUSY 0 1 State.reset
       match exec .geoLoad s with | .next t => decide (t = s) | _ => false) = true := by decide +kernel

/-- RW bits take the value written, in the bytes named alone (R9): byte 1 of EVT_EN_0_0 keeps its bits. -/
theorem test_register_write_bytes :
    rd R.EVT_EN 0 0 (busWrite R.EVT_EN 0 0 ⟨1, 0x1234⟩ (wr R.EVT_EN 0 0 0xFFFF State.reset)) = 0xFF34 := by decide +kernel

/-- A pending bit is cleared by writing 1 and kept by writing 0 (R9, R483). -/
theorem test_event_clear :
    (match exec (.eventPendClear 0 ⟨15, 0b01⟩) (put F.EVT_PEND_PEND 0 0b11 State.reset) with
      | .next t => fld F.EVT_PEND_PEND 0 t | _ => 0) = 0b10 := by decide +kernel

/-- A software event sets its bit of EVT_PEND_7 (R483). -/
theorem test_software_event :
    (match exec (.softwareEvent ⟨15, 0b100⟩) State.reset with
      | .next t => bit F.EVT_PEND_PEND 7 18 t | _ => false) = true := by decide +kernel

/-- After 25,000,000 reference edges less one, one more edge is a second (R489, R518). -/
theorem test_second : fld F.BLZ_TIME_SECONDS 0 (tick { State.reset with time := 999999960 }) = 1 ∧
    fld F.BLZ_TIME_SECONDS 0 (tick { State.reset with time := 999999920 }) = 0 := by decide +kernel

/-- The front command of the queue is carried out, and the rest wait. -/
theorem test_step_takes_front :
    (match step { State.reset with pending := [.geoLoad, .geoLoadDone] } with
      | .next t => decide (t.pending.length = 1) && flag F.SPR_GEO_CTL_BUSY 0 t | _ => false) = true := by decide +kernel

/-- No word spells a command. -/
theorem test_no_bits : decodeTableWord 32 0xFFFFFFFF = none ∧ State.reset.withFetchWord 32 7 = State.reset := by decide +kernel

/-! ### The premises of the statements can be met -/

theorem test_idle_step_is_one_reference_edge_premises : (∃ s : State, s.pending = [] ∧ s.cpr.supplies = true) ∧ (∃ s : State,
  s.pending = [] ∧ s.cpr.supplies = false) := ⟨⟨State.reset, rfl, rfl⟩, ⟨{ State.reset with cpr := { supplies :=
  false } }, rfl, rfl⟩⟩

theorem test_step_keeps_canonical_tables_premises : ∃ s t : State, memWf s = true ∧ regsWf s = true ∧ queueWf s = true ∧ step
  s = .next t :=
  ⟨State.reset, _, rfl, rfl, rfl, rfl⟩

theorem test_queue_drains_in_order_premises : ∃ (s : State) (k : Nat), 0 < k ∧ k ≤ s.pending.length :=
  ⟨{ State.reset with pending :=
  [.geoLoad, .geoLoadDone] }, 1, by decide, by decide⟩

theorem test_only_geometry_loads_change_the_geometry_premises : ∃ (c : Instr) (s t : State), exec c s = .next t ∧ c ≠
  .geoLoadDone ∧ c ≠ .aonSleepEnter ∧ (∀ b, c ≠ .aonPowerOn b) ∧ c ≠ .aonSupplyFall ∧ ∀ ok sup, c ≠ .dumpEnd ok sup :=
  ⟨.geoLoad, State.reset, _, rfl, nofun, nofun, nofun, nofun, nofun⟩

theorem test_device_time_and_lock_hold_premises : ∃ (c : Instr) (s t : State), exec c s = .next t ∧ c ≠ .geoLoadDone ∧ c ≠
  .aonSleepEnter ∧ (∀ b, c ≠ .aonPowerOn b) ∧ c ≠ .aonSupplyFall ∧ ∀ ok sup, c ≠ .dumpEnd ok sup :=
  ⟨.geoLoad, State.reset, _, rfl, nofun, nofun, nofun, nofun, nofun⟩

theorem test_fuses_are_never_cleared_premises : ∃ (c : Instr) (s t : State), exec c s = .next t ∧ c ≠ .geoLoadDone ∧ c ≠
  .aonSleepEnter ∧ (∀ b, c ≠ .aonPowerOn b) ∧ c ≠ .aonSupplyFall ∧ ∀ ok sup, c ≠ .dumpEnd ok sup :=
  ⟨.geoLoad, State.reset, _, rfl, nofun, nofun, nofun, nofun, nofun⟩

theorem test_register_write_by_access_code_premises : ∃ (r q : RegDef) (i j i' j' k : Nat), r.bytes ≤ 8 ∧ (r.rw ||| r.rwl) &&&
  r.w1c = 0 ∧ k < 8 * r.bytes ∧ r.addr i j ≠ q.addr i' j' :=
  ⟨R.LANE_ALK_CTL, R.FLT_CTL, 0, 0, 0, 0, 31, by decide +kernel⟩

theorem test_memories_read_what_was_written_premises : (∃ (a : Nat) (bs : List Byte), inSram a bs.length = true ∧ bs ≠ []) ∧
  (∃ (a b : Nat) (bs : List Byte), b < a ∨ a + bs.length ≤ b) :=
  ⟨⟨0x207FFFFD, [1, 2, 3], by decide +kernel⟩, ⟨0x20000000, 0x20000003, [1, 2, 3], by decide +kernel⟩⟩

theorem test_nor_programs_only_clear_bits_premises : (∃ a n b : Nat, a ≤ b ∧ b < a + n) ∧ (∃ a n b : Nat, b < a ∨ a + n ≤ b)
  :=
  ⟨⟨0, 4096, 4095, by decide⟩, ⟨0, 4096, 4096, by decide⟩⟩

theorem test_unreachable_surfaces_premises : ∃ f a : Nat, f < 16 ∧ a < 4 :=
  ⟨15, 3, by decide⟩

theorem test_events_are_pending_premises : (∃ n : Nat, evReserved n = false) ∧ (∃ n : Nat, evReserved n = true) :=
  ⟨⟨240, by decide⟩, ⟨239, by decide⟩⟩

theorem test_ladder_final_status_premises : ∃ (c : Nat) (x : Ctx) (s : State), ctx s c = some x ∧ x.abort = false ∧ x.lstep <
  16 ∧ x.eng < 32 ∧ x.last.getD 0 < 64 ∧ x.lstat < 4096 :=
  ⟨0, ctx0, setCtx 0 ctx0 State.reset, by decide +kernel⟩

theorem test_disabled_memory_space_premises : (∃ (f : Fin 64) (s u r : State), deaf s = false ∧ u = inbound s ∧ fnOn u f.val =
  true ∧ u.cpr.perst = false ∧ (fnr u f.val).resetting = false ∧ (fld F.CFG_PSTATE f.val u = 3 ∨ (if f.val = 0 then flag
  F.CFG_MSE 0 u else flag F.VF_MSE 0 u) = false) ∧ r = report 35 (some f.val) 12 1 0 0 u ∧ deaf r = false ∧ hostLinkUp r =
  true) ∧ (∃ (f : Fin 64) (a : Nat), hostSpace f.val a = 2) ∧ (∃ (f : Fin 64) (a : Nat), hostSpace f.val a = 3) :=
  ⟨⟨0, put F.CFG_MSE 0 0 hostOn, _, _, by decide +kernel, rfl, by decide +kernel, by decide +kernel, by decide +kernel, by
    decide +kernel, rfl, by decide +kernel, by decide +kernel⟩, ⟨63, 0x2003F0000, by decide⟩, ⟨63, 0x3003F0000, by decide⟩⟩

theorem test_address_word_fields_premises : ∃ surf zone track sector : Nat, surf < 16 ∧ zone < 64 ∧ track < 2 ^ 22 ∧ sector <
  4096 :=
  ⟨15, 63, 4194303, 4095, by decide⟩

theorem test_geometry_load_and_fences_premises :
    (∃ (s : State), flag F.SPR_GEO_CTL_BUSY 0 s = false ∧ mediaInFlight s = false) ∧
    (∃ (base : Nat) (s : State), s.geoImg = some base) :=
  ⟨⟨State.reset, by decide +kernel⟩,
    ⟨0, { State.reset with geoImg := some 0 }, by decide +kernel⟩⟩

theorem test_arm_links_premises_1 :
    (∃ (a : Fin 4) (s : State), linkUp s a = true ∧ (link s a).unacked = [] ∧ (link s a).pend.any (fun e => e.2.pers != 0 &&
      (head s (16 * a + e.1)).gate) = false) ∧
    (∃ (a : Fin 4) (f : StatFrame) (s : State), linkRx s a = true ∧ crcOk (statBytes f) f.crc = false) ∧
    (∃ (a : Fin 4) (f : StatFrame) (s : State), linkUp s a = true ∧ crcOk (statBytes f) f.crc = true ∧ (link (statTake a f s)
      a).disc = .none ∧ linkUp (statTake a f s) a = true) ∧
    (∃ (a : Fin 4) (q : BitVec 8) (x : BitVec 16) (s : State), linkRx s a = true ∧ crcOk [0x83, q] x = true) ∧
    (∃ (a : Fin 4) (q : BitVec 8) (x : BitVec 16) (y : BitVec 16) (z : BitVec 16) (s : State), linkUp s a = true ∧ crcOk
      ([0x81, q] ++ bytesOf 2 x.toNat ++ bytesOf 2 y.toNat) z = true ∧ (link s a).disc = .none ∧ (link s a).regSeq = some
      q.toNat ∧ flag F.LANE_ALK_REG_CMD_READ a s = true) ∧
    (∃ (a : Fin 4) (s : State), linkRx s a = true ∧ (link s a).unacked.isEmpty = false) ∧
    (∃ (a : Fin 4) (q : BitVec 8) (x : BitVec 16) (s : State), linkRx s a = true ∧ crcOk [0x83, q] x = false) ∧
    (∃ (a : Fin 4) (q : BitVec 8) (x : BitVec 16) (y : BitVec 16) (z : BitVec 16) (s : State), linkRx s a = true ∧ crcOk
      ([0x81, q] ++ bytesOf 2 x.toNat ++ bytesOf 2 y.toNat) z = false) ∧
    (∃ (a : Fin 4) (n : Nat) (s : State), linkUp s a = true ∧ linkUp (countN F.LANE_ALK_ERR_CODE a n s) a = true ∧ 8 ≤ n) ∧
    (∃ (a : Fin 4) (s : State), linkUp s a = true) ∧
    (∃ (a : Fin 4) (s : State), wkillCond s a = false) ∧
    (∃ (a : Fin 4) (w : BusW) (s : State), wrote1 0 w = true ∧ flag F.LANE_ALK_CTL_ENABLE a s = false ∧ armUp (busWrite
      R.LANE_ALK_CTL a 0 w s) a = true) :=
  ⟨⟨0, setLink 0 { pend := [(3, ⟨1, 0, 7⟩)] } (put F.LANE_ALK_STAT_STATE 0 2 State.reset), by decide +kernel⟩,
    ⟨0, ⟨0, 0, 0, 0, 0, 0⟩, put F.LANE_ALK_STAT_STATE 0 2 State.reset, by decide +kernel⟩,
    ⟨0, ⟨0, 0, 2, 0, 0, BitVec.ofNat 16 (crcCcitt [0x82, 0, 0, 2, 0, 0, 0, 0, 0, 0, 0])⟩, put F.LANE_ALK_STAT_STATE 0 2
      State.reset, by decide +kernel⟩,
    ⟨0, 5, BitVec.ofNat 16 (crcCcitt [0x83, 5]), put F.LANE_ALK_STAT_STATE 0 2 State.reset, by decide +kernel⟩,
    ⟨0, 9, 20, 77, BitVec.ofNat 16 (crcCcitt [0x81, 9, 20, 0, 77, 0]), setLink 0 { regSeq := some 9 } (put
      F.LANE_ALK_REG_CMD_READ 0 1 (put F.LANE_ALK_STAT_STATE 0 2 State.reset)), by decide +kernel⟩,
    ⟨0, setLink 0 { unacked := [⟨0, .regr 0, 0⟩] } (put F.LANE_ALK_STAT_STATE 0 2 State.reset), by decide +kernel⟩,
    ⟨0, 5, 0, put F.LANE_ALK_STAT_STATE 0 1 State.reset, by decide +kernel⟩,
    ⟨0, 9, 20, 77, 0, put F.LANE_ALK_STAT_STATE 0 1 State.reset, by decide +kernel⟩,
    ⟨0, 8, put F.LANE_ALK_STAT_STATE 0 2 State.reset, by decide +kernel⟩,
    ⟨3, put F.LANE_ALK_STAT_STATE 3 2 State.reset, by decide +kernel⟩,
    ⟨0, wkillFree, by decide +kernel⟩,
    ⟨0, ⟨1, 1⟩, putFBit F.CPR_PD_STAT_ARM_UP 0 0 true (put F.LANE_ALK_CTL_ENABLE 0 0 State.reset), by decide +kernel⟩⟩

theorem test_arm_links_premises_2 :
    (∃ (a : Fin 4) (w : BusW) (s : State), wrote0 0 w = true) ∧
    (∃ (a : Fin 4) (w : BusW) (s : State), wrote1 2 w = true ∧ fld F.LANE_ALK_STAT_STATE a (busWrite R.LANE_ALK_CTL a 0 w s) ≠
      1 ∧ flag F.LANE_ALK_CTL_ENABLE a (busWrite R.LANE_ALK_CTL a 0 w s) = true ∧ armUp (busWrite R.LANE_ALK_CTL a 0 w s) a =
      true) ∧
    (∃ (a : Fin 4) (s : State), (link s a).disc = .clock) ∧
    (∃ (a : Fin 4) (s : State), (link s a).disc = .clock) ∧
    (∃ (a : Fin 4) (s : State), (link s a).auto = true ∧ (link s a).autos < 3 ∧ (fld F.LANE_ALK_STAT_STATE a s = 3 ∨ fld
      F.LANE_ALK_STAT_STATE a s = 4 ∨ fld F.LANE_ALK_STAT_STATE a s = 5) ∧ flag F.LANE_ALK_CTL_AUTO_RETRAIN a s = true ∧ flag
      F.LANE_ALK_CTL_ENABLE a s = true ∧ armUp s a = true) ∧
    (∃ (a : Fin 4) (n : Nat) (s : State), linkRx s a = true ∧ n < 8) ∧
    (∃ (a : Fin 4) (w : BusW) (s : State), flag F.LANE_ALK_SNS_START a s = false ∧ wrote1 31 w = true) ∧
    (∃ (a : Fin 4) (xs : List (List (BitVec 12))) (m : Sense) (s : State), (link s a).sense = some m ∧ xs.flatten.length =
      m.count + 1 ∧ xs.length = m.wins ∧ linkUp s a = true ∧ persOf s (16 * a + sensePair m) = 2 ∧ (head s (16 * a + sensePair
      m)).gate = false) ∧
    (∃ (a : Fin 4) (w : BusW) (s : State), flag F.LANE_ALK_REG_CMD_GO a s = false ∧ wrote1 31 w = true ∧ flag
      F.LANE_ALK_REG_CMD_READ a (busWrite R.LANE_ALK_REG_CMD a 0 w s) = false ∧ fld F.LANE_ALK_REG_CMD_ADDR a (busWrite
      R.LANE_ALK_REG_CMD a 0 w s) < 16) ∧
    (∃ (a : Fin 4) (w : BusW) (s : State), flag F.LANE_ALK_REG_CMD_GO a s = false ∧ wrote1 31 w = true ∧ flag
      F.LANE_ALK_REG_CMD_READ a (busWrite R.LANE_ALK_REG_CMD a 0 w s) = true ∧ linkUp (busWrite R.LANE_ALK_REG_CMD a 0 w s) a
      = true) :=
  ⟨⟨0, ⟨1, 0⟩, State.reset, by decide +kernel⟩,
    ⟨0, ⟨1, 5⟩, putFBit F.CPR_PD_STAT_ARM_UP 0 0 true State.reset, by decide +kernel⟩,
    ⟨0, setLink 0 { disc := .clock } State.reset, by decide +kernel⟩,
    ⟨0, setLink 0 { disc := .clock } State.reset, by decide +kernel⟩,
    ⟨0, putFBit F.CPR_PD_STAT_ARM_UP 0 0 true (put F.LANE_ALK_CTL_AUTO_RETRAIN 0 1 (put F.LANE_ALK_CTL_ENABLE 0 1 (put
      F.LANE_ALK_STAT_STATE 0 3 (setLink 0 { auto := true } State.reset)))), by decide +kernel⟩,
    ⟨0, 7, put F.LANE_ALK_STAT_STATE 0 2 State.reset, by decide +kernel⟩,
    ⟨0, ⟨15, 0x80000000⟩, State.reset, by decide +kernel⟩,
    ⟨0, [[5], [8]], ⟨0, 0, 1, 2⟩, setPers 0 2 (setLink 0 { sense := some ⟨0, 0, 1, 2⟩ } (put F.LANE_ALK_STAT_STATE 0 2
      State.reset)), by decide +kernel⟩,
    ⟨0, ⟨15, 0x80000003⟩, State.reset, by decide +kernel⟩,
    ⟨0, ⟨15, 0xC0000020⟩, put F.LANE_ALK_STAT_STATE 0 2 State.reset, by decide +kernel⟩⟩

theorem test_lanes_and_synthesizers_premises_1 :
    (∃ (n : Fin 64) (s : State), fld F.LANE_STAT_STATE n s = 3 ∧ (lane s n).op = none ∧ fld F.LANE_CTL_PWR n (put
      F.LANE_STAT_STATE n 4 s) = 1) ∧
    (∃ (n : Fin 64) (s : State), fld F.LANE_STAT_STATE n s = 4) ∧
    (∃ (n : Fin 64) (s : State), fld F.LANE_STAT_STATE n s = 5 ∧ fld F.LANE_CTL_PWR n s = 0 ∧ armParked s (armOf n) = false) ∧
    (∃ (n : Fin 64) (s : State), fld F.LANE_STAT_STATE n s = 5 ∧ fld F.LANE_CTL_PWR n s = 0 ∧ armParked s (armOf n) = true) ∧
    (∃ (n : Fin 64) (s : State), (fld F.LANE_STAT_STATE n s = 1 ∨ fld F.LANE_STAT_STATE n s = 3)) ∧
    (∃ (n : Fin 64) (l : List SubCal) (s : State), fld F.LANE_STAT_STATE n s = 2 ∧ armParked s (armOf n) = false ∧ (l.foldl
      (fun m c => max m c.resOfs) 0) ≤ 64 ∧ (l.foldl (fun m c => max m c.resSkew) 0) ≤ 100) ∧
    (∃ (n : Fin 64) (z : Nat) (b : Nat) (s : State), (lane s n).loading = true ∧ (lane s n).wakeFor = some z ∧ b = fld
      F.LANE_PROF_BASE_ADDR 0 s * 4096 + (n * 64 + z) * 128 ∧ inSram b 128 = true ∧ (sramNat s (b + 0x1C) 4).testBit 0 = true) ∧
    (∃ (n : Fin 64) (l : List SubCal) (s : State), fld F.LANE_STAT_STATE n s = 2 ∧ 64 < (l.foldl (fun m c => max m c.resOfs)
      0)) ∧
    (∃ (a : Fin 4) (w : BusW) (s : State), wrote1 6 w = true ∧ s.geo.isSome = true) ∧
    (∃ (a : Fin 4) (z : Nat) (s : State), fld F.LANE_SYN_STAT_STATE a s = 1 ∧ (syn s a).next = some z) ∧
    (∃ (a : Fin 4) (s : State), fld F.LANE_SYN_STAT_STATE a s = 1 ∧ (syn s a).next = none ∧ (syn s a).waiting = []) ∧
    (∃ (a : Fin 4) (s : State), fld F.LANE_SYN_STAT_STATE a s = 2) :=
  ⟨⟨5, put F.LANE_CTL_PWR 5 1 (put F.LANE_STAT_STATE 5 3 State.reset), by decide +kernel⟩,
    ⟨63, put F.LANE_STAT_STATE 63 4 State.reset, by decide +kernel⟩,
    ⟨5, put F.SRV_MODE_MODE 0 6 (put F.LANE_STAT_STATE 5 5 State.reset), by decide +kernel⟩,
    ⟨5, put F.LANE_STAT_STATE 5 5 State.reset, by decide +kernel⟩,
    ⟨5, put F.LANE_STAT_STATE 5 1 State.reset, by decide +kernel⟩,
    ⟨5, [⟨⟨1, 2, 3⟩, 64, 100⟩, ⟨⟨0, 0, 0⟩, 3, 0⟩], put F.SRV_MODE_MODE 0 6 (put F.LANE_STAT_STATE 5 2 State.reset),
      by decide +kernel⟩,
    ⟨0, 0, sramBase, { setLane 0 { loading := true, wakeFor := some 0 } (put F.LANE_PROF_BASE_ADDR 0 0x20000 State.reset) with
                         sram := [(sramBase + 0x1C, 1), (sramBase + 0x1D, 0), (sramBase + 0x1E, 0), (sramBase + 0x1F, 0)] },
      by decide +kernel⟩,
    ⟨5, [⟨⟨1, 2, 3⟩, 65, 0⟩], put F.LANE_STAT_STATE 5 2 State.reset, by decide +kernel⟩,
    ⟨0, ⟨1, 0x41⟩, { State.reset with geo := some geo0 }, by decide +kernel⟩,
    ⟨0, 1, setSyn 0 { next := some 1 } (put F.LANE_SYN_STAT_STATE 0 1 State.reset), by decide +kernel⟩,
    ⟨0, put F.LANE_SYN_STAT_STATE 0 1 State.reset, by decide +kernel⟩,
    ⟨0, put F.LANE_SYN_STAT_STATE 0 2 State.reset, by decide +kernel⟩⟩

theorem test_lanes_and_synthesizers_premises_2 :
    (∃ (a : Fin 4) (s : State), wop s a = none ∧ (syn s a).waiting = []) ∧
    (∃ (a : Fin 4) (n : Nat) (o : ReadOp) (s : State), (syn s a).waiting = [n] ∧ (lane s n).op = some o ∧ synAt s a o.zone =
      false ∧ wop (readOpFail n 5 (setSyn a { syn s a with waiting := [] } s)) a = none) ∧
    (∃ (a : Fin 4) (o : WriteOp) (s : State), (syn s a).waiting = [] ∧ wop s a = some o ∧ o.gated = false ∧ o.ending = false ∧
      synAt s a o.zone = false) :=
  ⟨⟨0, State.reset, by decide +kernel⟩,
    ⟨0, 3, readOp0, setSyn 0 { waiting := [3] } (setLane 3 { op := some readOp0 } State.reset), by decide +kernel⟩,
    ⟨0, writeOp0, setWop 0 writeOp0 State.reset, by decide +kernel⟩⟩

theorem test_sector_read_and_servo_gates_premises :
    (∃ (n : Fin 64) (o : ReadOp) (s : State), (lane s n).op = some o ∧ (lane s n).phase = .idle ∧ o.ending = false ∧ o.failed
      = false ∧ fld F.LANE_STAT_STATE n s = 6 ∧ (lane s n).loading = false ∧ persOf s n = 0 ∧ heatHolds s n = false ∧ synAt s
      (armOf n) o.zone = true) ∧
    (∃ (n : Fin 64) (l : List BitIn) (k : Nat) (s : State), (lane s n).phase = .acquire ∧ (chanRun (chanCfg s n ((lane s
      n).op.map (·.psa) |>.getD 0)) false l (lane s n).chan).wide = false ∧ syncPos s n (chanCfg s n ((lane s n).op.map
      (·.psa) |>.getD 0)) l = some (l.length - acqEnd (chanCfg s n ((lane s n).op.map (·.psa) |>.getD 0)) - 1) ∧ lowestFree
      s.dec.slots 128 = some k ∧ s.dec.waitList = []) ∧
    (∃ (n : Fin 64) (l : List BitIn) (s : State), (lane s n).phase = .acquire ∧ (chanRun (chanCfg s n ((lane s n).op.map
      (·.psa) |>.getD 0)) false l (lane s n).chan).wide = false ∧ syncPos s n (chanCfg s n ((lane s n).op.map (·.psa) |>.getD
      0)) l = some (l.length - acqEnd (chanCfg s n ((lane s n).op.map (·.psa) |>.getD 0)) - 1) ∧ lowestFree s.dec.slots 128 =
      none) ∧
    (∃ (n : Fin 64) (o : ReadOp) (l : List Bool) (s : State), (lane s n).phase = .resync ∧ (lane s n).op = some o ∧ (head s
      n).gate = false) ∧
    (∃ (ns : List Nat) (n : Nat) (k : Nat) (s : State), s.dec.waitList = n :: ns ∧ lowestFree s.dec.slots 128 = some k) ∧
    (∃ (n : Fin 64) (o : ReadOp) (r : SectorRead) (s : State), (lane s n).op = some o ∧ (lane s n).phase = .data ∧ 2 ≤ o.left
      ∧ o.ending = false ∧ (sectorRecord n (lane s n) o r s).2 ≠ 7 ∧ (sectorRecord n (lane s n) o r s).2 ≠ 4 ∧ linkUp
      (sectorRecord n (lane s n) o r s).1 (armOf n) = true) ∧
    (∃ (n : Fin 64) (o : ReadOp) (r : SectorRead) (s : State), (lane s n).op = some o ∧ (lane s n).phase = .data ∧ o.left ≤ 1) ∧
    (∃ (h : Fin 64) (p : Int) (q : List (BitVec 8)) (s : State), samplerOn s h = true) ∧
    (∃ (h : Fin 64) (n : Nat) (s : State), (head s h).gate = true ∧ hst s h = 0 ∧ (lane s h).phase = .resync ∧ wop s (armOf h)
      = none) ∧
    (∃ (h : Fin 64) (n : Nat) (o : WriteOp) (x : HeadWr) (s : State), (head s h).gate = true ∧ hst s h = 0 ∧ (lane s h).phase
      = .idle ∧ wop s (armOf h) = some o ∧ o.ending = false ∧ Tab.get? o.heads h.val = some x ∧ x.sgate = true ∧ x.split =
      true) ∧
    (∃ (h : Fin 64) (n : Nat) (s : State), (head s h).gate = false) ∧
    (∃ (h : Fin 64) (p : Int) (q : List (BitVec 8)) (s : State), samplerOn s h = false) :=
  ⟨⟨0, readOp0, readyLane, by decide +kernel⟩,
    ⟨0, List.replicate 32 bit0, 0, syncLane {}, by decide +kernel⟩,
    ⟨0, List.replicate 32 bit0, { syncLane {} with dec := { slots := (List.range 128).map (fun k => (k, slot0)) } },
      by decide +kernel⟩,
    ⟨0, readOp0, [true], setLane 0 { op := some readOp0, phase := .resync, gaps := [(7, 100)] } State.reset,
      by decide +kernel⟩,
    ⟨[], 3, 0, { State.reset with dec := { waitList := [3] } }, by decide +kernel⟩,
    ⟨0, readOp0, sectorRead0, setLane 0 { op := some readOp0, phase := .data } (put F.LANE_ALK_STAT_STATE 0 2 State.reset),
      by decide +kernel⟩,
    ⟨0, { readOp0 with left := 1 }, sectorRead0, setLane 0 { op := some { readOp0 with left := 1 }, phase := .data } (put
      F.LANE_ALK_STAT_STATE 0 2 State.reset), by decide +kernel⟩,
    ⟨0, 70000, [], setLane 0 { op := some readOp0, phase := .data } (put F.LANE_STAT_STATE 0 6 State.reset),
      by decide +kernel⟩,
    ⟨0, 4000, setHead 0 { gate := true, gateAt := 70000 } (setLane 0 { op := some readOp0, phase := .resync } State.reset),
      by decide +kernel⟩,
    ⟨0, 4000, { writeOp0 with heads := [(0, { sgate := true, split := true })] }, { sgate := true, split := true }, setHead 0
      { gate := true, gateAt := 70000 } (setWop 0 { writeOp0 with heads := [(0, { sgate := true, split := true })] }
      State.reset), by decide +kernel⟩,
    ⟨0, 4000, State.reset, by decide +kernel⟩,
    ⟨0, 0, [], State.reset, by decide +kernel⟩⟩

theorem test_write_operation_progress_premises_1 :
    (∃ (a : Fin 4) (o : WriteOp) (p : WriteOp) (s : State), wop s a = some o ∧ o.ending = false ∧ (o.heads.filter (fun e =>
      !e.2.profOk)).isEmpty = false ∧ wop (each (o.heads.filter (fun e => !e.2.profOk)) (fun e v => loadWrProfile a o.zone e.1
      e.2 v) s) a = some p ∧ p.heads.all (fun e => e.2.profOk) = false) ∧
    (∃ (n : Fin 64) (s : State), fld F.WP_STAT_STATE n s = 2 ∧ wop s (armOf n) = none) ∧
    (∃ (n : Fin 64) (l : List Ecc) (o : WriteOp) (x : HeadWr) (m : MemBlk) (s : State), wop s (armOf n) = some o ∧ Tab.get?
      o.heads n.val = some x ∧ feedBlock s o.item (n.val % 16) = some m ∧ o.ending = false ∧ x.status = none ∧ x.late = false
      ∧ (wbuf s n).length < 3 ∧ 1 ≤ x.done + (wbuf s n).length ∧ x.done + (wbuf s n).length < o.count ∧ 2 ≤ fld
      F.WP_STAT_STATE n s) ∧
    (∃ (n : Fin 64) (o : WriteOp) (x : HeadWr) (s : State), wop s (armOf n) = some o ∧ Tab.get? o.heads n = some x ∧ o.ending
      = false ∧ x.status = none ∧ wbuf s n = []) ∧
    (∃ (n : Fin 64) (o : WriteOp) (x : HeadWr) (b : InfoBlock) (s : State), wop s (armOf n) = some o ∧ Tab.get? o.heads n =
      some x ∧ o.ending = false ∧ x.status = none ∧ wbuf s n = [b] ∧ x.sgate = true ∧ x.done + 1 < o.count) ∧
    (∃ (a : Fin 4) (o : WriteOp) (s : State), wop s a = some o ∧ ((o.heads.map (·.1)).filter (fun h => flag F.WP_CTL_HEAT_EN h
      s)).isEmpty = false ∧ o.ending = false ∧ o.heatAck = false ∧ o.heat = none ∧ linkUp s a = true ∧ (link s
      a).unacked.length < 16) ∧
    (∃ (a : Fin 4) (o : WriteOp) (s : State), wop s a = some o ∧ o.ending = false ∧ o.gated = false ∧ o.heatAck = false ∧
      o.heatFails = 0) ∧
    (∃ (a : Fin 4) (o : WriteOp) (s : State), wop s a = some o ∧ o.ending = false ∧ o.gated = false ∧ o.heatAck = false ∧
      o.heatFails ≠ 0) ∧
    (∃ (n : Fin 64) (k : Nat) (o : WriteOp) (x : HeadWr) (s : State), wop s (armOf n) = some o ∧ Tab.get? o.heads n.val = some
      x ∧ o.ending = false ∧ x.status = none ∧ x.sgate = false ∧ x.split = false ∧ synAt s (armOf n) o.zone = true ∧
      o.heads.all (fun e => gatePermit s e.1) = true ∧ persOf s n = 1 ∧ wkillLow s (armOf n) = false ∧ (head s n).gate = false
      ∧ (wbuf s n).isEmpty = false ∧ o.heatAck = true ∧ o.heads.all (fun e => e.2.profOk) = true ∧ 2 ≤ fld F.WP_STAT_STATE n
      s) ∧
    (∃ (n : Fin 64) (k : Nat) (o : WriteOp) (x : HeadWr) (b : InfoBlock) (bs : List InfoBlock) (s : State), wop s (armOf n) =
      some o ∧ Tab.get? o.heads n.val = some x ∧ wbuf s n = b :: bs ∧ x.sgate = true ∧ x.split = false ∧ o.ending = false ∧
      x.done + 1 < o.count ∧ x.late = false) ∧
    (∃ (a : Fin 4) (o : WriteOp) (s : State), wop s a = some o ∧ o.heads.all (fun e => e.2.status.isSome) = false) ∧
    (∃ (n : Fin 64) (k : Nat) (o : WriteOp) (x : HeadWr) (b : InfoBlock) (bs : List InfoBlock) (s : State), wop s (armOf n) =
      some o ∧ Tab.get? o.heads n.val = some x ∧ wbuf s n = b :: bs ∧ x.sgate = true ∧ x.split = false ∧ o.ending = false ∧
      o.count ≤ x.done + 1) :=
  ⟨⟨0, { writeOp0 with heads := [(0, { profOk := false })] }, { writeOp0 with heads := [(0, { profOk := false })] }, setWop 0
      { writeOp0 with heads := [(0, { profOk := false })] } State.reset, by decide +kernel⟩,
    ⟨0, put F.WP_STAT_STATE 0 2 State.reset, by decide +kernel⟩,
    ⟨0, [], { writeOp0 with count := 3, heads := [(0, { done := 1 })] }, { done := 1 }, ⟨[], 5⟩, feedState, by decide +kernel⟩,
    ⟨0, writeOp0, { sgate := true }, setWop 0 writeOp0 State.reset, by decide +kernel⟩,
    ⟨0, { writeOp0 with count := 3 }, { sgate := true }, block0, setWbuf 0 [block0] (setWop 0 { writeOp0 with count := 3 }
      State.reset), by decide +kernel⟩,
    ⟨0, writeOp0, setWop 0 writeOp0 (put F.WP_CTL_HEAT_EN 0 1 (put F.LANE_ALK_STAT_STATE 0 2 State.reset)), by decide +kernel⟩,
    ⟨0, writeOp0, setWop 0 writeOp0 State.reset, by decide +kernel⟩,
    ⟨0, { writeOp0 with heatFails := 1 }, setWop 0 { writeOp0 with heatFails := 1 } State.reset, by decide +kernel⟩,
    ⟨0, 0, gateOp, {}, gateState, by decide +kernel⟩,
    ⟨0, 16, { writeOp0 with count := 3 }, { sgate := true }, block0, [], setWbuf 0 [block0] (setWop 0
      { writeOp0 with count := 3 } State.reset), by decide +kernel⟩,
    ⟨0, writeOp0, setWop 0 writeOp0 State.reset, by decide +kernel⟩,
    ⟨0, 16, writeOp0, { sgate := true }, block0, [], setWbuf 0 [block0] (setWop 0 writeOp0 State.reset), by decide +kernel⟩⟩

theorem test_write_operation_progress_premises_2 :
    (∃ (a : Fin 4) (o : WriteOp) (s : State), wop s a = some o ∧ o.heads.all (fun e => e.2.status.isSome) = true) :=
    ⟨0, { writeOp0 with heads := [(0, { status := some 0 })] }, setWop 0 { writeOp0 with heads := [(0, { status := some 0 })]
                                                                                           } State.reset, by decide +kernel⟩

theorem test_decoder_pool_premises_1 :
    (∃ (k : Fin 128) (sl : Slot) (e : Nat) (s : State), (readySlots s).head? = some (k.val, sl) ∧ (freeFast s).or (sleepFast
      s) = some e) ∧
    (∃ (k : Fin 128) (sl : Slot) (s : State), (readySlots s).head? = some (k.val, sl) ∧ freeFast s = none ∧ sleepFast s =
      none) ∧
    (∃ (e : Fin 18) (s : State), (eng s e).waking = true) ∧
    (∃ (e : Fin 16) (k : Nat) (ks : List Nat) (sl : Slot) (s : State), (eng s e).awake = true ∧ (eng s e).slots = k :: ks ∧
      slot (surplusSleep e (setEng e { eng s e with slots := ks } s)) k = some sl ∧ sl.retry = none ∧ sl.it.aborted = false) ∧
    (∃ (e : Fin 16) (k : Nat) (ks : List Nat) (sl : Slot) (s : State), (eng s e).awake = true ∧ (eng s e).slots = k :: ks ∧
      slot (surplusSleep e (setEng e { eng s e with slots := ks } s)) k = some sl) ∧
    (∃ (k : Fin 128) (q : Ecc) (cn : Nat) (x : Ctx) (sl : Slot) (s : State), s.dec.ctxs.find? (fun e => e.2.wait == .copy
      k.val) = some (cn, x) ∧ slot s k = some sl ∧ q ≠ .bad) ∧
    (∃ (k : Fin 128) (cn : Nat) (x : Ctx) (sl : Slot) (s : State), s.dec.ctxs.find? (fun e => e.2.wait == .copy k.val) = some
      (cn, x) ∧ slot s k = some sl) ∧
    (∃ (cn : Nat) (j : JobKind) (l : List (Nat × JobKind)) (e : Nat) (s : State), waitingJobs s = (cn, j) :: l ∧ drFenced s =
      false ∧ [16, 17].find? (fun e => (eng s e).awake && !engFenced s e && !engOver s e && (eng s e).job.isNone) = some e) ∧
    (∃ (cn : Nat) (j : JobKind) (l : List (Nat × JobKind)) (s : State), waitingJobs s = (cn, j) :: l ∧ drFenced s = true) ∧
    (∃ (e : Fin 2) (cn : Nat) (j : JobKind) (x : Ctx) (s : State), (eng s (16 + e)).job = some (cn, j) ∧ ctx (surplusSleep (16
      + e) (setEng (16 + e) { eng s (16 + e) with job := none } s)) cn = some x) ∧
    (∃ (c : Fin 32) (x : Ctx) (s : State), ctx s c = some x ∧ fld F.DEC_LADDER_CTL_TMAX 0 s ≠ 0 ∧ x.entered + 1000000 * fld
      F.DEC_LADDER_CTL_TMAX 0 s ≤ s.time) ∧
    (∃ (e : Fin 18) (s : State), (eng s e).awake = true ∧ (eng s e).slots = [] ∧ (eng s e).job = none) :=
  ⟨⟨3, { slot0 with full := true }, 2, { State.reset with dec := { slots := [(3, { slot0 with full := true })], engines :=
                                                                      [(2, { awake := true })] } }, by decide +kernel⟩,
    ⟨3, { slot0 with full := true }, { State.reset with dec := { slots := [(3, { slot0 with full := true })], engines :=
                                                                   (List.range 16).map (fun e => (e,
                                                                   { waking := true, slots := [4] })) } }, by decide +kernel⟩,
    ⟨17, { State.reset with dec := { engines := [(17, { waking := true })] } }, by decide +kernel⟩,
    ⟨2, 3, [], slot0, { State.reset with dec := { slots := [(3, slot0)], engines := [(2, { awake := true, slots := [3] })] }
                                           }, by decide +kernel⟩,
    ⟨2, 3, [], slot0, { State.reset with dec := { slots := [(3, slot0)], engines := [(2, { awake := true, slots := [3] })] }
                                           }, by decide +kernel⟩,
    ⟨3, .ok, 5, { ctx0 with wait := .copy 3 }, slot0,
      { State.reset with dec := { slots := [(3, slot0)], ctxs := [(5, { ctx0 with wait := .copy 3 })] } }, by decide +kernel⟩,
    ⟨3, 5, { ctx0 with wait := .copy 3 }, slot0, { State.reset with dec := { slots := [(3, slot0)], ctxs := [(5,
                                                                               { ctx0 with wait := .copy 3 })] } },
      by decide +kernel⟩,
    ⟨5, .redecode, [], 16, { State.reset with dec := { ctxs := [(5, { ctx0 with wait := .job .redecode })], engines := [(16,
                                                         { awake := true })] } }, by decide +kernel⟩,
    ⟨5, .redecode, [], putFBit F.DEC_FENCE_DR 0 0 true (putFBit F.DEC_FENCE_DR 0 1 true
      { State.reset with dec := { ctxs := [(5, { ctx0 with wait := .job .redecode })] } }), by decide +kernel⟩,
    ⟨0, 5, .redecode, { ctx0 with wait := .job .redecode },
      { State.reset with dec := { ctxs := [(5, { ctx0 with wait := .job .redecode })], engines := [(16,
                                    { awake := true, job := some (5, .redecode) })] } }, by decide +kernel⟩,
    ⟨5, ctx0, put F.DEC_LADDER_CTL_TMAX 0 9 { State.reset with time := 9000000, dec := { ctxs := [(5, ctx0)] } },
      by decide +kernel⟩,
    ⟨4, { State.reset with dec := { engines := [(4, { awake := true })] } }, by decide +kernel⟩⟩

theorem test_decoder_pool_premises_2 :
    (∃ (e : Fin 18) (s : State), e.val < 16) ∧
    (∃ (e : Fin 18) (s : State), 16 ≤ e.val) ∧
    (∃ (w : BusW) (s : State), wrote1 31 w = true ∧ (busWrite R.DEC_BIST 0 0 w s).dec.bist = none ∧ fld F.DEC_BIST_ENG 0
      (busWrite R.DEC_BIST 0 0 w s) < 18 ∧ engFenced (busWrite R.DEC_BIST 0 0 w s) (fld F.DEC_BIST_ENG 0 (busWrite R.DEC_BIST
      0 0 w s)) = true ∧ (eng (busWrite R.DEC_BIST 0 0 w s) (fld F.DEC_BIST_ENG 0 (busWrite R.DEC_BIST 0 0 w s))).slots = [] ∧
      (eng (busWrite R.DEC_BIST 0 0 w s) (fld F.DEC_BIST_ENG 0 (busWrite R.DEC_BIST 0 0 w s))).job = none) ∧
    (∃ (pass : Bool) (e : Nat) (s : State), s.dec.bist = some e) ∧
    (∃ (c : Fin 32) (x : Ctx) (s : State), ctx s c = some x ∧ s.time < x.entered + 1000000 * fld F.DEC_LADDER_CTL_TMAX 0 s) :=
  ⟨⟨15, State.reset, by decide +kernel⟩,
    ⟨17, State.reset, by decide +kernel⟩,
    ⟨⟨15, 0x80000003⟩, putFBit F.DEC_FENCE_FAST 0 3 true State.reset, by decide +kernel⟩,
    ⟨true, 3, { State.reset with dec := { bist := some 3 } }, by decide +kernel⟩,
    ⟨5, ctx0, put F.DEC_LADDER_CTL_TMAX 0 9 { State.reset with dec := { ctxs := [(5, ctx0)] } }, by decide +kernel⟩⟩

theorem test_servo_sampling_premises :
    (∃ (h : Fin 64) (w : Wedge) (s : State), hst s h ≠ 0 ∧ persOf s h = 0 ∧ samplerOn s h = true ∧ (bitAt (fld2 F.SRV_HST_LOCK
      (armOf h) (h.val % 16) s) 0 = false ∨ (head s h).widx = some w.widx.toNat)) ∧
    (∃ (h : Fin 64) (s : State), hst s h ≠ 0) ∧
    (∃ (h : Fin 64) (s : State), hst s h ≠ 0) ∧
    (∃ (a : Fin 4) (i : Int) (s : State), armLoaded s a = true ∧ mode s a ≠ 2) :=
  ⟨⟨0, ⟨0, 5, true, []⟩, setHst 0 1 (put F.LANE_STAT_STATE 0 2 State.reset), by decide +kernel⟩,
    ⟨0, setHst 0 1 State.reset, by decide +kernel⟩,
    ⟨0, setHst 0 1 State.reset, by decide +kernel⟩,
    ⟨0, 600000000, setMode 0 6 State.reset, by decide +kernel⟩⟩

theorem test_arm_requests_and_modes_premises_1 :
    (∃ (a : Fin 4) (s : State), mode s a = 1 ∧ loadOk s a = true) ∧
    (∃ (a : Fin 4) (s : State), mode s a = 1 ∧ loadOk s a = false) ∧
    (∃ (a : Fin 4) (w : BusW) (s : State), wrote1 31 w = true ∧ (busWrite R.SRV_TARGET a 0 w s).geo.isSome = true ∧ fld
      F.SRV_TARGET_TRACK a (busWrite R.SRV_TARGET a 0 w s) ≤ lastTrack (busWrite R.SRV_TARGET a 0 w s) ∧ 4 ≤ mode (busWrite
      R.SRV_TARGET a 0 w s) a ∧ mode (busWrite R.SRV_TARGET a 0 w s) a ≤ 6) ∧
    (∃ (a : Fin 4) (w : BusW) (s : State), wrote1 31 w = true ∧ (busWrite R.SRV_TARGET a 0 w s).geo = none) ∧
    (∃ (a : Fin 4) (s : State), mode s a = 3 ∧ 2 ≤ (arm s a).load) ∧
    (∃ (a : Fin 4) (s : State), mode s a = 3) ∧
    (∃ (a : Fin 4) (s : State), mode s a = 8 ∧ (arm s a).phase = .climb) ∧
    (∃ (a : Fin 4) (s : State), mode s a = 8 ∧ (arm s a).phase = .park) ∧
    (∃ (a : Fin 4) (s : State), mode s a = 5 ∧ fld1 F.SRV_SETTLE_FN a s ≤ (arm s a).fn ∧ (armHeads a).any (fun h => hst s h ==
      2) = true ∧ (arm s a).seekFrom = none ∧ (arm s a).storedGo = none) ∧
    (∃ (a : Fin 4) (s : State), mode s a = 5 ∧ fld1 F.SRV_SETTLE_SETTLE_TMO a s ≤ (arm s a).settle ∧ (arm s a).retries < fld
      F.SRV_SETTLE_SEEK_RETRY a (put F.SRV_MODE_SEEK_ERR a 1 (count F.SRV_ERR_SEEK_ERR a s))) ∧
    (∃ (a : Fin 4) (s : State), mode s a = 5 ∧ fld1 F.SRV_SETTLE_SETTLE_TMO a s ≤ (arm s a).settle ∧ fld
      F.SRV_SETTLE_SEEK_RETRY a (put F.SRV_MODE_SEEK_ERR a 1 (count F.SRV_ERR_SEEK_ERR a s)) ≤ (arm s a).retries) ∧
    (∃ (a : Fin 4) (s : State), 4 ≤ mode s a ∧ mode s a ≤ 7 ∧ fld1 F.SRV_TRK_ARM_MISS a s ≤ (arm s a).miss) :=
  ⟨⟨0, { put F.SRV_WEDGES_WEDGES 0 200 (put F.LANE_ALK_STAT_STATE 0 2 (put F.SPM_STAT_AT_SPEED 0 1 (setMode 0 1
            State.reset))) with geo := some geo0 }, by decide +kernel⟩,
    ⟨0, setMode 0 1 State.reset, by decide +kernel⟩,
    ⟨0, ⟨15, 0x80000007⟩, setMode 0 6 { State.reset with geo := some geo0 }, by decide +kernel⟩,
    ⟨0, ⟨15, 0x80000007⟩, State.reset, by decide +kernel⟩,
    ⟨0, setArm 0 { load := 2 } (setMode 0 3 State.reset), by decide +kernel⟩,
    ⟨0, setMode 0 3 State.reset, by decide +kernel⟩,
    ⟨0, setArm 0 { phase := .climb } (setMode 0 8 State.reset), by decide +kernel⟩,
    ⟨0, setArm 0 { phase := .park } (setMode 0 8 State.reset), by decide +kernel⟩,
    ⟨0, setHst 0 2 (setArm 0 { fn := 300 } (setMode 0 5 State.reset)), by decide +kernel⟩,
    ⟨0, put F.SRV_SETTLE_SEEK_RETRY 0 3 (setArm 0 { settle := 100000 } (setMode 0 5 State.reset)), by decide +kernel⟩,
    ⟨0, put F.SRV_SETTLE_SEEK_RETRY 0 3 (setArm 0 { settle := 100000, retries := 3 } (setMode 0 5 State.reset)),
      by decide +kernel⟩,
    ⟨0, setArm 0 { miss := 300 } (setMode 0 6 State.reset), by decide +kernel⟩⟩

theorem test_arm_requests_and_modes_premises_2 :
    (∃ (a : Fin 4) (s : State), armLoaded s a = true ∧ 16 ≤ (arm s a).mismatch ∧ mode s a ≠ 8) :=
    ⟨0, setArm 0 { mismatch := 16 } (setMode 0 6 State.reset), by decide +kernel⟩

theorem test_permits_and_shock_premises :
    (∃ (h : Fin 64) (s : State), (hst s h = 1 ∨ hst s h = 2) ∧ fld1 F.SRV_TRK_HMISS (armOf h) s ≤ fld2 F.SRV_HST_MISS (armOf
      h) (h.val % 16) s) ∧
    (∃ (h : Fin 64) (s : State), hst s h = 2 ∧ 8 ≤ (head s h).sat) ∧
    (∃ (h : Fin 64) (s : State), (head s h).rearm = true ∧ mode s (armOf h) = 6 ∧ hst s h = 2 ∧ eligible s h = true ∧ (link s
      (armOf h)).muaMiss = false ∧ (link s (armOf h)).disagree.testBit (h.val % 16) = false ∧ linkUp s (armOf h) = true) ∧
    (∃ (h : Fin 64) (s : State), (head s h).rearm = false) ∧
    (∃ (ch : Fin 5) (x : Int) (s : State), bit F.SRV_SHK_CTL_EN 0 ch s = true ∧ flag F.SRV_SHK_STAT_INIT 0 (shockTake ch
      ((senseCode x).toInt) s) = true) ∧
    (∃ (ch : Fin 5) (x : Int) (s : State), bit F.SRV_SHK_CTL_EN 0 ch s = true ∧ flag F.SRV_SHK_STAT_INIT 0 (shockTake ch
      ((senseCode x).toInt) s) = false ∧ shkLive (shockTrack ch ((senseCode x).toInt) (shockTake ch ((senseCode x).toInt) s))
      ch = true ∧ fld F.SRV_SHK_THR_TRIP ch (shockTrack ch ((senseCode x).toInt) (shockTake ch ((senseCode x).toInt) s)) <
      shockDev (shockTake ch ((senseCode x).toInt) s) ch ((senseCode x).toInt)) ∧
    (∃ (s : State), shockOk s = false ∧ flag F.SRV_SHK_STAT_INIT 0 s = false ∧ (List.range 5).all (fun c => !shkLive s c ||
      100 * fld1 F.SRV_SHK_CTL_QUIET 0 s ≤ (shk s c).calm) = true ∧ stuckHolds s = false ∧ s.shock.blow = false) ∧
    (∃ (ch : Nat) (s : State), flag F.SRV_SHK_STAT_INIT 0 s = true ∧ (List.range 5).filter (fun c => bit F.SRV_SHK_CTL_EN 0 c
      s) = [ch] ∧ (shk s ch).n = 1024 ∧ (shk s ch).hi - (shk s ch).lo ≤ 2 * (fld F.SRV_SHK_THR_REARM ch s : Int)) ∧
    (∃ (ch : Fin 5) (s : State), bit F.SRV_SHK_CTL_EN 0 ch s = true ∧ bit F.SRV_SHK_STAT_STUCK 0 ch s = false ∧ foundStuck s
      ch = true ∧ flag F.SRV_SHK_CTL_STUCK_POLICY 0 (putFBit F.SRV_SHK_STAT_STUCK 0 ch true s) = false) ∧
    (∃ (ch : Fin 5) (s : State), foundStuck s ch = false) :=
  ⟨⟨0, put2 F.SRV_HST_MISS 0 0 15 (put F.SRV_TRK_HMISS 0 4 (setHst 0 2 State.reset)), by decide +kernel⟩,
    ⟨0, setHead 0 { sat := 8 } (setHst 0 2 State.reset), by decide +kernel⟩,
    ⟨0, put F.LANE_ALK_STAT_STATE 0 2 (setHead 0 { rearm := true } (setMode 0 6 (setHst 0 2
      { State.reset with geo := some geo0 }))), by decide +kernel⟩,
    ⟨0, State.reset, by decide +kernel⟩,
    ⟨0, 600000000, putFBit F.SRV_SHK_CTL_EN 0 0 true (put F.SRV_SHK_STAT_INIT 0 1 State.reset), by decide +kernel⟩,
    ⟨0, 1200000000, putFBit F.SRV_SHK_CTL_EN 0 0 true (put F.SRV_SHK_STAT_INIT 0 0 State.reset), by decide +kernel⟩,
    ⟨put F.SRV_SHK_STAT_SHOCK_OK 0 0 (put F.SRV_SHK_CTL_EN 0 0 (put F.SRV_SHK_STAT_INIT 0 0 State.reset)), by decide +kernel⟩,
    ⟨2, setShk 2 { n := 1024, lo := 3, hi := 3 } (put F.SRV_SHK_CTL_EN 0 4 (put F.SRV_SHK_STAT_INIT 0 1 State.reset)),
      by decide +kernel⟩,
    ⟨4, setShk 4 { limit := 1000 } (putFBit F.SRV_SHK_CTL_EN 0 4 true (put F.SRV_SHK_CTL_STUCK_POLICY 0 0 State.reset)),
      by decide +kernel⟩,
    ⟨4, State.reset, by decide +kernel⟩⟩

theorem test_spindle_requests_and_start_premises_1 :
    (∃ (v : List Abc) (s : State), (spmSt s = 1 ∨ spmSt s = 10) ∧ turning s v = true) ∧
    (∃ (v : List Abc) (s : State), spmSt s = 8) ∧
    (∃ (v : List Abc) (s : State), (spmSt s = 1 ∨ spmSt s = 10) ∧ turning s v = false ∧ still s v = true) ∧
    (∃ (s : State), spmSt s = 7 ∧ (List.range 4).all (fun a => mode s a == 0 || mode s a == 1 || mode s a == 9) = true) ∧
    (∃ (s : State), spmSt s = 7 ∧ (List.range 4).all (fun a => mode s a == 0 || mode s a == 1 || mode s a == 9) = false) ∧
    (∃ (s : State), spmSt s = 10 ∧ s.spm.tripCoast = true ∧ s.spm.lostSince = false ∧ flag F.SPM_CTL_AUTO_RESTART 0 s = true) ∧
    (∃ (s : State), spmSt s = 7 ∧ 16 * polePairs s ≤ s.spm.revs ∧ flag F.SPM_STAT_AT_SPEED 0 s = false) ∧
    (∃ (s : State), spmSt s = 7 ∧ 4 ≤ s.spm.epsRun) ∧
    (∃ (v : List Abc) (s : State), spmSt s = 1 ∧ turning s v = false ∧ still s v = false) ∧
    (∃ (s : State), s.spm.epsRun < 4 ∧ s.spm.emfOk = true) ∧
    (∃ (s : State), spmSt s = 2 ∧ s.spm.calibrating = false ∧ stickDone s = true) ∧
    (∃ (s : State), spmSt s = 3 ∧ s.spm.calibrating = false ∧ openPhase s = true) :=
  ⟨⟨[⟨0, 1200000000, 600000000⟩], put F.SPM_STAT_STATE 0 1 State.reset, by decide +kernel⟩,
    ⟨[], put F.SPM_STAT_STATE 0 8 State.reset, by decide +kernel⟩,
    ⟨[⟨0, 0, 0⟩], put F.SPM_VSNS_STILL_V 0 10 (put F.SPM_STAT_STATE 0 1 State.reset), by decide +kernel⟩,
    ⟨put F.SPM_STAT_STATE 0 7 State.reset, by decide +kernel⟩,
    ⟨setMode 0 6 (put F.SPM_STAT_STATE 0 7 State.reset), by decide +kernel⟩,
    ⟨put F.SPM_CTL_AUTO_RESTART 0 1 (put F.SPM_STAT_STATE 0 10 { State.reset with spm := { tripCoast := true } }),
      by decide +kernel⟩,
    ⟨put F.SPM_STAT_STATE 0 7 { State.reset with spm := { revs := 1000 } }, by decide +kernel⟩,
    ⟨put F.SPM_STAT_STATE 0 7 { State.reset with spm := { epsRun := 4 } }, by decide +kernel⟩,
    ⟨[], put F.SPM_STAT_STATE 0 1 State.reset, by decide +kernel⟩,
    ⟨{ State.reset with spm := { emfOk := true } }, by decide +kernel⟩,
    ⟨put F.SPM_STAT_STATE 0 2 { State.reset with spm := { cyc := 10 ^ 12 } }, by decide +kernel⟩,
    ⟨put F.SPM_STAT_STATE 0 3 { State.reset with spm := { openSeen := true } }, by decide +kernel⟩⟩

theorem test_spindle_requests_and_start_premises_2 :
    (∃ (s : State), spmSt s = 3 ∧ s.spm.calibrating = false ∧ openPhase s = false) ∧
    (∃ (s : State), spmSt s = 4 ∧ s.spm.wrapDue = true ∧ s.spm.emfOk = true ∧ fld F.SPM_RAMP_F_HO 0 s * 800000000 ≤ fOl s ∧
      (rampErr s).natAbs < fld F.SPM_HO_HO_ERR 0 s ∧ s.spm.agree + 1 < fld1 F.SPM_HO_HO_CYC 0 s) ∧
    (∃ (s : State), spmSt s = 4 ∧ hoExpired s = true) ∧
    (∃ (s : State), hoExpired s = false) ∧
    (∃ (v : List Abc) (s : State), still s v = true ∧ spmSt s = 5 ∧ fld F.SPM_STAT_ATTEMPT 0 s ≤ 4) ∧
    (∃ (v : List Abc) (s : State), still s v = true ∧ spmSt s = 5 ∧ 5 ≤ fld F.SPM_STAT_ATTEMPT 0 s) ∧
    (∃ (v : List Abc) (s : State), still s v = true ∧ (spmSt s = 8 ∨ spmSt s = 10)) ∧
    (∃ (s : State), spmSt s = 5) ∧
    (∃ (l : List (Fin 6 × Nat)) (s : State), spmSt s = 6 ∧ s.spm.genPend = false ∧ 0 < (crossings s l).2 ∧ omegaAtLeast (put
      F.SPM_ANGLE_THETA_E 0 (crossings s l).1 { s with spm := { s.spm with theta := (crossings s l).1, thetaLo := 0, omega :=
                                                                             (crossings s l).2 } }) (fld F.SPM_RAMP_F_HO 0
      (put F.SPM_ANGLE_THETA_E 0 (crossings s l).1
      { s with spm := { s.spm with theta := (crossings s l).1, thetaLo := 0, omega := (crossings s l).2 } })) = true) ∧
    (∃ (s : State), spmSt s ≠ 0 ∧ spmSt s ≠ 11) ∧
    (∃ (s : State), spmSt s = 4 ∧ s.spm.wrapDue = true ∧ s.spm.emfOk = true ∧ fld F.SPM_RAMP_F_HO 0 s * 800000000 ≤ fOl s ∧
      (rampErr s).natAbs < fld F.SPM_HO_HO_ERR 0 s ∧ fld1 F.SPM_HO_HO_CYC 0 s ≤ s.spm.agree + 1) ∧
    (∃ (s : State), spmSt s = 4 ∧ s.spm.wrapDue = true ∧ s.spm.emfOk = false) :=
  ⟨⟨put F.SPM_STAT_STATE 0 3 State.reset, by decide +kernel⟩,
    ⟨put F.SPM_HO_HO_CYC 0 7 (put F.SPM_HO_HO_ERR 0 9 (put F.SPM_RAMP_F_HO 0 0 (put F.SPM_STAT_STATE 0 4
      { State.reset with spm := { emfOk := true, wrapDue := true } }))), by decide +kernel⟩,
    ⟨put F.SPM_STAT_STATE 0 4 { State.reset with spm := { negFrom := some 0, olAcc := 65536 * 640000000000000000 } },
      by decide +kernel⟩,
    ⟨put F.SPM_RAMP_F_HO 0 1 State.reset, by decide +kernel⟩,
    ⟨[⟨0, 0, 0⟩], put F.SPM_VSNS_STILL_V 0 10 (put F.SPM_STAT_STATE 0 5 State.reset), by decide +kernel⟩,
    ⟨[⟨0, 0, 0⟩], put F.SPM_VSNS_STILL_V 0 10 (put F.SPM_STAT_ATTEMPT 0 5 (put F.SPM_STAT_STATE 0 5 State.reset)),
      by decide +kernel⟩,
    ⟨[⟨0, 0, 0⟩], put F.SPM_VSNS_STILL_V 0 10 (put F.SPM_STAT_STATE 0 10 State.reset), by decide +kernel⟩,
    ⟨put F.SPM_STAT_STATE 0 5 State.reset, by decide +kernel⟩,
    ⟨[(0, 0), (1, 1)], put F.SPM_PWM_PER 0 9000 (put F.SPM_RAMP_F_HO 0 0 (put F.SPM_STAT_STATE 0 6 State.reset)),
      by decide +kernel⟩,
    ⟨put F.SPM_STAT_STATE 0 7 State.reset, by decide +kernel⟩,
    ⟨put F.SPM_HO_HO_CYC 0 7 (put F.SPM_HO_HO_ERR 0 9 (put F.SPM_RAMP_F_HO 0 0 (put F.SPM_STAT_STATE 0 4
      { State.reset with spm := { emfOk := true, wrapDue := true, agree := 7 } }))), by decide +kernel⟩,
    ⟨put F.SPM_STAT_STATE 0 4 { State.reset with spm := { wrapDue := true } }, by decide +kernel⟩⟩

theorem test_spindle_requests_and_start_premises_3 :
    (∃ (v : List Abc) (s : State), still s v = false) ∧
    (∃ (l : List (Fin 6 × Nat)) (s : State), spmSt s = 6 ∧ s.spm.genPend = false ∧ (crossings s l).2 ≤ 0) :=
  ⟨⟨[], State.reset, by decide +kernel⟩,
    ⟨[], put F.SPM_STAT_STATE 0 6 State.reset, by decide +kernel⟩⟩

theorem test_spindle_periods_premises :
    (∃ (x : Abc) (s : State), spmSt s ∈ [3, 4, 7, 8, 9] ∧ s.spm.calibrating = false ∧ s.spm.kind = .comp) ∧
    (∃ (x : Abc) (s : State), spmSt s ∈ [3, 4, 7, 8, 9] ∧ s.spm.calibrating = false ∧ s.spm.kind = .normal ∧ (pwmSample
      (phaseCurrents (genEnter (pwmClock s)) x) (genEnter (pwmClock s))).spm.ocRun < 2) ∧
    (∃ (x : Abc) (s : State), spmSt s ∈ [3, 4, 7, 8, 9] ∧ s.spm.calibrating = false ∧ s.spm.kind = .normal ∧ 2 ≤ (pwmSample
      (phaseCurrents (genEnter (pwmClock s)) x) (genEnter (pwmClock s))).spm.ocRun) ∧
    (∃ (s : State), (spmSt s = 7 ∨ spmSt s = 9 ∨ spmSt s = 6 ∨ spmSt s = 10) ∧ 1050000 < (measured s).natAbs) ∧
    (∃ (s : State), spmSt s = 3) ∧
    (∃ (l : List Abc) (s : State), s.spm.calibrating = true ∧ ([calMean (l.map (·.a)), calMean (l.map (·.b)), calMean (l.map
      (·.c))]).any (fun z => 256 < z.natAbs) = false) ∧
    (∃ (l : List Abc) (s : State), s.spm.calibrating = true ∧ ([calMean (l.map (·.a)), calMean (l.map (·.b)), calMean (l.map
      (·.c))]).any (fun z => 256 < z.natAbs) = true) ∧
    (∃ (x : Abc) (s : State), spmSt s ∈ [3, 4, 7, 8, 9] ∧ s.spm.calibrating = false ∧ s.spm.kind = .off) ∧
    (∃ (x : Abc) (s : State), spmSt s = 8 ∧ s.spm.genPend = false ∧ s.spm.calibrating = false ∧ s.spm.kind = .low ∧ (pwmSample
      (phaseCurrents (pwmClock s) x) (pwmClock s)).spm.ocRun < 2) :=
  ⟨⟨⟨0, 0, 0⟩, put F.SPM_STAT_STATE 0 7 { State.reset with spm := { kind := .comp } }, by decide +kernel⟩,
    ⟨⟨600000000, 600000000, 600000000⟩, put F.SPM_STAT_STATE 0 7 { State.reset with spm := { kind := .normal } },
      by decide +kernel⟩,
    ⟨⟨1200000000, 1200000000, 1200000000⟩, put F.SPM_ILIM_OC_TRIP 0 100 (put F.SPM_STAT_STATE 0 7
      { State.reset with spm := { kind := .normal, ocRun := 1 } }), by decide +kernel⟩,
    ⟨put F.SRV_THETA_SRC 0 1 (setArm 0 { thSpeed := 1050001 } (put F.SPM_STAT_STATE 0 7 State.reset)), by decide +kernel⟩,
    ⟨put F.SPM_STAT_STATE 0 3 State.reset, by decide +kernel⟩,
    ⟨List.replicate 256 ⟨675000000, 525000000, 600000000⟩, { State.reset with spm := { calibrating := true } },
      by decide +kernel⟩,
    ⟨List.replicate 256 ⟨750000000, 600000000, 600000000⟩, { State.reset with spm := { calibrating := true } },
      by decide +kernel⟩,
    ⟨⟨0, 0, 0⟩, put F.SPM_STAT_STATE 0 7 State.reset, by decide +kernel⟩,
    ⟨⟨600000000, 600000000, 600000000⟩, put F.SPM_STAT_STATE 0 8 { State.reset with spm := { kind := .low } },
      by decide +kernel⟩⟩

theorem test_surface_parity_premises_1 :
    (∃ (x : SprOp) (s : State), descNext s = some x ∧ x.op = 1 ∧ (nsEnt ((descTake x s).2) ((descTake x s).1).nsid).valid =
      true ∧ 1 ≤ ((descTake x s).1).count ∧ ((descTake x s).1).count ≤ 64 ∧ ((descTake x s).1).addr + ((descTake x s).1).count
      ≤ (nsEnt ((descTake x s).2) ((descTake x s).1).nsid).units) ∧
    (∃ (x : SprOp) (s : State), descNext s = some x ∧ x.op = 1 ∧ (nsEnt ((descTake x s).2) ((descTake x s).1).nsid).units <
      ((descTake x s).1).addr + ((descTake x s).1).count) ∧
    (∃ (s : State), descNext s = none ∧ flag F.SPR_CTL_ENABLE 0 s = true) ∧
    (∃ (x : SprOp) (s : State), descNext s = some x ∧ x.op = 2 ∧ stgTail ((descTake x s).2) ≤ ((descTake x s).1).addr ∧
      ((descTake x s).1).addr < stgHead ((descTake x s).2) ∧ 1 ≤ ((descTake x s).1).aux % 16 ∧ ((descTake x s).1).aux % 16 ≤
      13) ∧
    (∃ (x : SprOp) (l : List Ecc) (s : State), descNext s = some x ∧ x.op = 3 ∧ opBusy s x = true) ∧
    (∃ (x : SprOp) (l : List Ecc) (s : State), descNext s = some x ∧ x.op = 3 ∧ opBusy s x = false ∧ 1 ≤ ((descTake x
      s).1).count ∧ ((descTake x s).1).count ≤ 32 ∧ (stgEntries (sprLooks (opAux ((descTake x s).1)) l (descTake x s).2)
      ((descTake x s).1)).all (stgEntryOk (sprLooks (opAux ((descTake x s).1)) l (descTake x s).2)) = true ∧ (sprLooks (opAux
      ((descTake x s).1)) l (descTake x s).2).geo.isSome = true ∧ stgFull (sprLooks (opAux ((descTake x s).1)) l (descTake x
      s).2) = false) ∧
    (∃ (x : SprOp) (l : List Ecc) (s : State), descNext s = some x ∧ x.op = 3 ∧ opBusy s x = false ∧ 1 ≤ ((descTake x
      s).1).count ∧ ((descTake x s).1).count ≤ 32 ∧ (stgEntries (sprLooks (opAux ((descTake x s).1)) l (descTake x s).2)
      ((descTake x s).1)).all (stgEntryOk (sprLooks (opAux ((descTake x s).1)) l (descTake x s).2)) = true ∧ (sprLooks (opAux
      ((descTake x s).1)) l (descTake x s).2).geo.isSome = true ∧ stgFull (sprLooks (opAux ((descTake x s).1)) l (descTake x
      s).2) = true) ∧
    (∃ (x : SprOp) (l : List Ecc) (s : State), descNext s = some x ∧ x.op = 4 ∧ opBusy s x = false ∧ (nsEnt ((descTake x s).2)
      ((descTake x s).1).nsid).valid = true ∧ ((descTake x s).1).addr % dataOf (nsEnt ((descTake x s).2) ((descTake x
      s).1).nsid).red = 0 ∧ ((descTake x s).1).addr + dataOf (nsEnt ((descTake x s).2) ((descTake x s).1).nsid).red ≤ (nsEnt
      ((descTake x s).2) ((descTake x s).1).nsid).units) ∧
    (∃ (x : SprOp) (l : List Ecc) (s : State), descNext s = some x ∧ x.op = 3 ∧ opBusy s x = false ∧ 1 ≤ ((descTake x
      s).1).count ∧ ((descTake x s).1).count ≤ 32 ∧ (stgEntries (sprLooks (opAux ((descTake x s).1)) l (descTake x s).2)
      ((descTake x s).1)).all (stgEntryOk (sprLooks (opAux ((descTake x s).1)) l (descTake x s).2)) = true ∧ (sprLooks (opAux
      ((descTake x s).1)) l (descTake x s).2).geo = none) ∧
    (∃ (w : BusW) (s : State), stgTail s ≤ (merged R.SPR_STG_TAIL s.locked (rd R.SPR_STG_TAIL 0 0 s) w) ∧ (merged
      R.SPR_STG_TAIL s.locked (rd R.SPR_STG_TAIL 0 0 s) w) ≤ stgHead s) ∧
    (∃ (w : BusW) (s : State), ((merged R.SPR_STG_TAIL s.locked (rd R.SPR_STG_TAIL 0 0 s) w) < stgTail s ∨ stgHead s < (merged
      R.SPR_STG_TAIL s.locked (rd R.SPR_STG_TAIL 0 0 s) w))) ∧
    (∃ (p : Pass) (s : State), (Tab.vals s.spr.passes).find? (fun p => p.result.isSome) = some p ∧ p.result = some true) :=
  ⟨⟨⟨0, sramBase + 0x8000, 1, 0, 0, 1, false, false, false, false, 1, 0, 4096, 0, 0, 0, [], [], 0, 0, 0, false, none, 0, 0,
      false⟩, ringState (descBytes 1 1 1 0 4096 0), by decide +kernel⟩,
    ⟨⟨0, sramBase + 0x8000, 1, 0, 0, 1, false, false, false, false, 1, 60, 4096, 0, 0, 0, [], [], 0, 0, 0, false, none, 0, 0,
      false⟩, ringState (descBytes 1 1 1 60 4096 0), by decide +kernel⟩,
    ⟨put F.SPR_CTL_ENABLE 0 1 State.reset, by decide +kernel⟩,
    ⟨⟨0, sramBase + 0x8000, 2, 0, 0, 1, false, false, false, false, 1, 0, 4096, 0, 3, 0, [], [], 0, 0, 0, false, none, 0, 0,
      false⟩, put F.SPR_STG_HEAD_SEQ 0 5 (ringState (descBytes 2 1 1 0 4096 3)), by decide +kernel⟩,
    ⟨⟨0, sramBase + 0x8000, 3, 0, 0, 1, false, false, false, false, 1, 0, 4096, 0, landBase, 0, [], [], 0, 0, 0, false, none,
      0, 0, false⟩, [], put F.LND_STAT_STATE 0 3 (ringState (descBytes 3 1 1 0 4096 landBase)), by decide +kernel⟩,
    ⟨⟨0, sramBase + 0x8000, 3, 0, 0, 1, false, false, false, false, 1, 0, 4096, 0, landBase, 0, [], [], 0, 0, 0, false, none,
      0, 0, false⟩, [], put F.LND_STAT_STATE 0 2 (putGranule (landBase / 64) ⟨pack [(1, 2), (1, 0), (2, 1), (4, 1), (56, 0)],
      false⟩ (ringState (descBytes 3 1 1 0 4096 landBase))), by decide +kernel⟩,
    ⟨⟨0, sramBase + 0x8000, 3, 0, 0, 1, false, false, false, false, 1, 0, 4096, 0, landBase, 0, [], [], 0, 0, 0, false, none,
      0, 0, false⟩, [], put F.SPR_STG_HEAD_SEQ 0 100000 (put F.LND_STAT_STATE 0 2 (putGranule (landBase / 64) ⟨pack [(1, 2),
      (1, 0), (2, 1), (4, 1), (56, 0)], false⟩ (ringState (descBytes 3 1 1 0 4096 landBase)))), by decide +kernel⟩,
    ⟨⟨0, sramBase + 0x8000, 4, 0, 0, 1, false, false, false, false, 1, 15, landBase, 0, 0, 0, [], [], 0, 0, 0, false, none, 0,
      0, false⟩, [], ringState (descBytes 4 1 1 15 landBase 0), by decide +kernel⟩,
    ⟨⟨0, sramBase + 0x8000, 3, 0, 0, 1, false, false, false, false, 1, 0, 4096, 0, landBase, 0, [], [], 0, 0, 0, false, none,
      0, 0, false⟩, [], { put F.LND_STAT_STATE 0 2 (putGranule (landBase / 64) ⟨pack [(1, 2), (1, 0), (2, 1), (4, 1), (56,
                            0)], false⟩ (ringState (descBytes 3 1 1 0 4096 landBase))) with geo := none }, by decide +kernel⟩,
    ⟨⟨15, 4⟩, put F.SPR_STG_HEAD_SEQ 0 5 State.reset, by decide +kernel⟩,
    ⟨⟨15, 6⟩, put F.SPR_STG_HEAD_SEQ 0 5 State.reset, by decide +kernel⟩,
    ⟨{ pass0 with result := some true }, { State.reset with spr := { passes := [(0, { pass0 with result := some true })] } },
      by decide +kernel⟩⟩

theorem test_surface_parity_premises_2 :
    (∃ (p : Pass) (s : State), (Tab.vals s.spr.passes).find? (fun p => p.result.isSome) = some p ∧ p.result = some false ∧
      p.fails < 2 ∧ passRefused s ({ p with fails := p.fails + 1, result := none, item := none }) = false) ∧
    (∃ (p : Pass) (s : State), (Tab.vals s.spr.passes).find? (fun p => p.result.isSome) = some p ∧ p.result = some false ∧
      p.fails = 2) ∧
    (∃ (r : StripeRd) (cn : Nat) (s : State), (Tab.vals s.spr.reads).find? (fun r => readDone r &&
      (match r.use with | .ladder _ => true | .unit _ _ => true | .stg _ _ _ _ => true | _ => false)) = some r ∧ r.use =
      .ladder cn) ∧
    (∃ (r : StripeRd) (o : Nat) (i : Nat) (b : List Byte) (s : State), (Tab.vals s.spr.reads).find? (fun r => readDone r &&
      (match r.use with | .ladder _ => true | .unit _ _ => true | .stg _ _ _ _ => true | _ => false)) = some r ∧ r.use = .unit
      o i ∧ bodyOfSlot (countStale r (dropRead r.id s)) r (roleOf (countStale r (dropRead r.id s)) r.zone r.k (r.skip.getD 0))
      = none ∧ sprOp (countStale r (dropRead r.id s)) o = none) :=
  ⟨⟨{ pass0 with result := some false }, { put F.SPR_CTL_DEGR_WR 0 1 State.reset with spr := { passes := [(0,
                                                                                                  { pass0 with result := some
                                                                                                                 false })] },
                                                                                         geo := some geo0 },
      by decide +kernel⟩,
    ⟨{ pass0 with result := some false, fails := 2 },
      { State.reset with spr := { passes := [(0, { pass0 with result := some false, fails := 2 })] } }, by decide +kernel⟩,
    ⟨stripeRd0 (.ladder 5), 5, { State.reset with spr := { reads := [(0, stripeRd0 (.ladder 5))] } }, by decide +kernel⟩,
    ⟨stripeRd0 (.unit 5 0), 5, 0, [], { State.reset with spr := { reads := [(0, stripeRd0 (.unit 5 0))] } },
      by decide +kernel⟩⟩

theorem test_salvage_and_cruise_premises_1 :
    (∃ (w : BusW) (s : State), wrote1 31 w = true ∧ salvState (salvCtlWrite w s) ≠ 1 ∧ salvState (salvCtlWrite w s) ≠ 2 ∧
      salvFenced (salvCtlWrite w s) (jobEnt (salvCtlWrite w s)) = true) ∧
    (∃ (w : BusW) (s : State), wrote1 31 w = true ∧ (salvState (salvCtlWrite w s) = 1 ∨ salvState (salvCtlWrite w s) = 2)) ∧
    (∃ (w : BusW) (s : State), wrote1 30 w = true ∧ salvState (salvCtlWrite w s) = 1) ∧
    (∃ (w : BusW) (s : State), wrote1 29 w = true ∧ salvState (salvCtlWrite w s) = 2) ∧
    (∃ (w : BusW) (s : State), wrote1 28 w = true ∧ salvState (salvCtlWrite w s) = 2) ∧
    (∃ (w : BusW) (s : State), wrote1 28 w = true ∧ salvState (salvCtlWrite w s) = 1) ∧
    (∃ (s : State), salvState s = 1 ∧ s.spr.batch = [] ∧ (fld F.SPR_SALV_POS_POS 0 (salvAdvance s)) < (jobEnt (salvAdvance
      s)).count) ∧
    (∃ (s : State), salvState s = 1 ∧ s.spr.batch = [] ∧ (jobEnt (salvAdvance s)).count ≤ fld F.SPR_SALV_POS_POS 0
      (salvAdvance s)) ∧
    (∃ (i : Nat) (r : StripeRd) (s : State), (Tab.vals s.spr.reads).findSome? (fun r =>
      match r.use with | .salv i => if readDone r && s.spr.batch.contains (i, .read) then some (i, r) else none | _ => none) =
      some (i, r)) ∧
    (∃ (s : State), flag F.SPR_CRUISE_CTL_EN 0 s = true ∧ s.spr.cruise = none ∧ (chkFree s).isSome = true ∧ cruiseNext s (fld
      F.SPR_CRUISE_POS_POS 0 s) = none ∧ s.geo.isSome = true) ∧
    (∃ (o : Nat) (r : OwnRun) (s : State), flag F.SPR_CRUISE_CTL_EN 0 s = true ∧ s.spr.cruise = none ∧ (chkFree s).isSome =
      true ∧ cruiseNext s (fld F.SPR_CRUISE_POS_POS 0 s) = some (o, r)) ∧
    (∃ (c : Cruise) (r : StripeRd) (s : State), s.spr.cruise = some c ∧ cruiseRead s false = some r ∧ c.phase = .read) :=
  ⟨⟨⟨15, 0x80000000⟩, put F.SPR_RFENCE_LAST 0 99 (put F.SPR_RFENCE_SURF 0 3 (put F.SPR_RFENCE_VALID 0 1 (relocState 2 0))),
      by decide +kernel⟩,
    ⟨⟨15, 0x80000000⟩, put F.SPR_SALV_STAT_STATE 0 1 State.reset, by decide +kernel⟩,
    ⟨⟨15, 0x40000000⟩, put F.SPR_SALV_STAT_STATE 0 1 State.reset, by decide +kernel⟩,
    ⟨⟨15, 0x20000000⟩, put F.SPR_SALV_STAT_STATE 0 2 State.reset, by decide +kernel⟩,
    ⟨⟨15, 0x10000000⟩, put F.SPR_SALV_STAT_STATE 0 2 State.reset, by decide +kernel⟩,
    ⟨⟨15, 0x10000000⟩, put F.SPR_SALV_STAT_STATE 0 1 State.reset, by decide +kernel⟩,
    ⟨relocState 2 1, by decide +kernel⟩,
    ⟨relocState 0 1, by decide +kernel⟩,
    ⟨0, stripeRd0 (.salv 0), { relocState 2 1 with spr := { batch := [(0, .read)], reads := [(0, stripeRd0 (.salv 0))] } },
      by decide +kernel⟩,
    ⟨put F.SPR_CRUISE_POS_POS 0 0xFFFFFFFF (put F.SPR_CRUISE_CTL_EN 0 1 (ringState [])), by decide +kernel⟩,
    ⟨visit0.1, visit0.2, put F.SPR_CRUISE_CTL_EN 0 1 (ringState []), by decide +kernel⟩,
    ⟨cruise0 .read, stripeRd0 .cruise, { ringState [] with spr := { cruise := some (cruise0 .read), reads := [(0, stripeRd0
                                                                      .cruise)] } }, by decide +kernel⟩⟩

theorem test_salvage_and_cruise_premises_2 :
    (∃ (c : Cruise) (k : Choke) (s : State), s.spr.cruise = some c ∧ chkOf s .cruise = some k ∧ k.granted = true ∧ c.phase =
      .exclusive ∧ cruiseOwns s c = true) ∧
    (∃ (c : Cruise) (k : Choke) (r : StripeRd) (s : State), s.spr.cruise = some c ∧ chkOf s .cruise = some k ∧ k.granted =
      true ∧ c.phase = .reread ∧ cruiseRead s true = some r ∧ cruiseOwns s c = true ∧ groupCovers s c.nsid (c.n * dataOf
      r.red) (dataOf r.red) = false ∧ earlyHolds s c.nsid c.n = false ∧ stripeGen r ≠ c.gen) ∧
    (∃ (s : State), s.spr.batch = [] ∧ s.spr.cruise = none) :=
  ⟨⟨cruise0 .exclusive, ⟨0, 1, 0, 14, true, .cruise, true⟩,
      { ringState [] with spr := { cruise := some (cruise0 .exclusive) }, deck :=
                            { chk := [⟨0, 1, 0, 14, true, .cruise, true⟩] } }, by decide +kernel⟩,
    ⟨{ cruise0 .reread with gen := 7 }, ⟨0, 1, 0, 14, true, .cruise, true⟩, stripeRd0 .cruise2,
      { ringState [] with spr := { cruise := some { cruise0 .reread with gen := 7 }, reads := [(0, stripeRd0 .cruise2)] },
                            deck := { chk := [⟨0, 1, 0, 14, true, .cruise, true⟩] } }, by decide +kernel⟩,
    ⟨State.reset, by decide +kernel⟩⟩

theorem test_host_link_and_resets_premises :
    (∃ (s : State), s.cpr.perst = false) ∧
    (∃ (s : State), s.cpr.aonSleep = false ∧ (setFn 0 { fnr (standbyWake s) 0 with resetting := true }
      { (standbyWake s) with cpr := { (standbyWake s).cpr with perst := false } }).cpr.stage = 3 ∧ fld F.HIF_LINK_STAT_LSTATE
      0 (setFn 0 { fnr (standbyWake s) 0 with resetting := true }
      { (standbyWake s) with cpr := { (standbyWake s).cpr with perst := false } }) = 0) ∧
    (∃ (s : State), (hostReset s).cpr.perst = false) ∧
    (∃ (s : State), (hostReset (count F.HIF_LINK_ERR_DOWN 0 s)).cpr.perst = false) ∧
    (∃ (sp : Fin 8) (wd : Fin 8) (fl : Bool) (s : State), s.cpr.perst = false ∧ s.cpr.frozen = false ∧ s.cpr.hostOff = false ∧
      fld F.HIF_LINK_STAT_LSTATE 0 s ≠ 0 ∧ 1 ≤ sp.val ∧ sp.val ≤ capSpeed s ∧ (wd.val = 1 ∨ wd.val = 2 ∨ wd.val = 4) ∧ wd.val
      ≤ capWidth s) ∧
    (∃ (s : State), fld F.HIF_LINK_STAT_LSTATE 0 s = 2 ∧ fld F.HIF_LINK_CTL_L1_IDLE 0 s ≠ 0 ∧ (rd R.CFG_LINKCTL 0 0 s).testBit
      1 = true ∧ (rd R.CFG_L1PMCTL 0 0 s).testBit 3 = false) ∧
    (∃ (f : Fin 64) (s : State), deaf s = false ∧ cfgReady (inbound s) f = true ∧ f.val ≠ 0) :=
  ⟨⟨hostOn, by decide +kernel⟩,
    ⟨put F.HIF_LINK_STAT_LSTATE 0 0 { hostOn with cpr := { hostOn.cpr with perst := true, stage := 3 } }, by decide +kernel⟩,
    ⟨hostOn, by decide +kernel⟩,
    ⟨hostOn, by decide +kernel⟩,
    ⟨4, 4, false, { hostOn with cpr := { hostOn.cpr with hostOff := false, frozen := false } }, by decide +kernel⟩,
    ⟨wr R.CFG_LINKCTL 0 0 2 (put F.HIF_LINK_CTL_L1_IDLE 0 5 hostOn), by decide +kernel⟩,
    ⟨1, put F.VF_EN 0 1 (put F.NUM_VFS 0 3 hostOn), by decide +kernel⟩⟩

theorem test_doorbells_and_controllers_premises_1 :
    (∃ (f : Fin 64) (q : Fin 65) (v : BitVec 32) (x : Sq) (s : State), deaf s = false ∧ memEnabled (inbound s) f = true ∧ flag
      F.FLT_STAT_SAFE 0 (inbound s) = false ∧ sq (inbound s) f q = some x ∧ v.toNat % 65536 < x.size ∧ ringSpan x.size x.head
      x.tail ≤ ringSpan x.size x.head (v.toNat % 65536)) ∧
    (∃ (f : Fin 64) (q : Fin 65) (v : BitVec 32) (s : State), deaf s = false ∧ memEnabled (inbound s) f = true ∧ flag
      F.FLT_STAT_SAFE 0 (inbound s) = false ∧ sq (inbound s) f q = none) ∧
    (∃ (f : Fin 64) (q : Fin 65) (v : BitVec 32) (x : Sq) (s : State), deaf s = false ∧ memEnabled (inbound s) f = true ∧ flag
      F.FLT_STAT_SAFE 0 (inbound s) = false ∧ sq (inbound s) f q = some x ∧ x.size ≤ v.toNat % 65536) ∧
    (∃ (f : Fin 64) (q : Fin 65) (v : BitVec 32) (c : Cq) (s : State), deaf s = false ∧ memEnabled (inbound s) f = true ∧ flag
      F.FLT_STAT_SAFE 0 (inbound s) = false ∧ f.val ≠ 0 ∧ cq (inbound s) f q = some c ∧ v.toNat % 65536 < c.size ∧ ringSpan
      c.size c.head (v.toNat % 65536) ≤ ringSpan c.size c.head c.tail) ∧
    (∃ (f : Fin 64) (q : Fin 65) (v : BitVec 32) (c : Cq) (s : State), deaf s = false ∧ memEnabled (inbound s) f = true ∧ flag
      F.FLT_STAT_SAFE 0 (inbound s) = false ∧ cq (inbound s) f q = some c ∧ c.size ≤ v.toNat % 65536) ∧
    (∃ (f : Fin 64) (q : Fin 65) (r : HostReq) (x : Sq) (s : State), Tab.get? s.deck.reqs (doneKey f q) = some r ∧ sq s f q =
      some x) ∧
    (∃ (f : Fin 64) (q : Fin 65) (v : BitVec 32) (s : State), deaf s = false ∧ memEnabled (inbound s) f = false) ∧
    (∃ (f : Fin 64) (q : Fin 65) (v : BitVec 32) (s : State), deaf s = true) ∧
    (∃ (f : Fin 64) (w : BusW) (s : State), deaf s = false ∧ memEnabled (inbound s) f = true ∧ wrote1 0 w = true ∧ flag
      F.CC_EN f (busWrite R.NVME_CC f 0 w (inbound s)) = false) ∧
    (∃ (f : Fin 64) (w : BusW) (s : State), deaf s = false ∧ memEnabled (inbound s) f = true ∧ wrote0 0 w = true ∧ flag
      F.CC_EN f (busWrite R.NVME_CC f 0 w (inbound s)) = true) ∧
    (∃ (f : Fin 64) (w : BusW) (s : State), deaf s = false ∧ memEnabled (inbound s) f = true ∧ w.be.testBit 1 = true ∧ (bitsOf
      w.data 15 14 = 1 ∨ bitsOf w.data 15 14 = 2)) ∧
    (∃ (f : Fin 64) (w : BusW) (s : State), deaf s = false ∧ memEnabled (inbound s) f = true ∧ f.val ≠ 0) :=
  ⟨⟨0, 1, 3, sq0, setSq 0 1 sq0 hostOn, by decide +kernel⟩,
    ⟨0, 1, 3, hostOn, by decide +kernel⟩,
    ⟨0, 1, 8, sq0, setSq 0 1 sq0 hostOn, by decide +kernel⟩,
    ⟨1, 1, 2, ⟨4096, 8, 1, true, 0, 3, true, []⟩, setCq 1 1 ⟨4096, 8, 1, true, 0, 3, true, []⟩ (put F.VF_MSE 0 1 (put F.VF_EN
      0 1 (put F.NUM_VFS 0 3 hostOn))), by decide +kernel⟩,
    ⟨0, 1, 8, ⟨4096, 8, 1, true, 0, 3, true, []⟩, setCq 0 1 ⟨4096, 8, 1, true, 0, 3, true, []⟩ hostOn, by decide +kernel⟩,
    ⟨0, 1, ⟨0, .sqFetch 1 1, 4096, 64, List.replicate 64 (byte 7), true⟩, { sq0 with tail := 1, fetch := 1 }, setSq 0 1
      { sq0 with tail := 1, fetch := 1 } { hostOn with deck := { hostOn.deck with reqs := [(1048577, ⟨0, .sqFetch 1 1, 4096,
                                                                                    64, List.replicate 64 (byte 7), true⟩)] }
                                                         }, by decide +kernel⟩,
    ⟨0, 1, 3, State.reset, by decide +kernel⟩,
    ⟨0, 1, 3, { State.reset with cpr := { State.reset.cpr with frozen := true } }, by decide +kernel⟩,
    ⟨0, ⟨15, 0x460001⟩, put F.CC_EN 0 0 hostOn, by decide +kernel⟩,
    ⟨0, ⟨15, 0x460000⟩, put F.CC_EN 0 1 hostOn, by decide +kernel⟩,
    ⟨0, ⟨15, 0x464001⟩, hostOn, by decide +kernel⟩,
    ⟨1, ⟨15, 5⟩, put F.VF_MSE 0 1 (put F.VF_EN 0 1 (put F.NUM_VFS 0 3 hostOn)), by decide +kernel⟩⟩

theorem test_doorbells_and_controllers_premises_2 :
    (∃ (w : BusW) (s : State), deaf s = false ∧ memEnabled (inbound s) 0 = true) ∧
    (∃ (w : BusW) (s : State), deaf s = false ∧ memEnabled (inbound s) 0 = true) :=
  ⟨⟨⟨15, 5⟩, hostOn, by decide +kernel⟩,
    ⟨⟨15, 5⟩, hostOn, by decide +kernel⟩⟩

theorem test_host_memory_and_power_premises :
    (∃ (f : Fin 64) (off : BitVec 22) (bs : List (Option Byte)) (ep : Bool) (s : State), deaf s = false ∧ memEnabled (inbound
      s) f = true) ∧
    (∃ (f : Fin 64) (off : BitVec 22) (n : Fin 4097) (s : State), deaf s = false ∧ memEnabled (inbound s) f = true) ∧
    (∃ (f : Fin 64) (s : State), deaf s = false ∧ cfgReady (inbound s) f = true ∧ flag F.CFG_BME f (inbound s) = true) ∧
    (∃ (f : Fin 64) (s : State), deaf s = false ∧ cfgReady (inbound s) f = true ∧ fld F.CFG_PSTATE f (setFn f
      { fnr (put F.CFG_BME f 1 (inbound s)) f with bmeSeen := true } (put F.CFG_BME f 1 (inbound s))) = 0) ∧
    (∃ (f : Fin 64) (t0 : Nat) (s : State), (fnr s f).stall = some t0 ∧ t0 + 1000000 * fld1 F.HIF_BME_LIMIT_MS 0 s ≤ s.time ∧
      Tab.vals s.deck.cmds = []) ∧
    (∃ (f : Fin 64) (s : State), deaf s = false ∧ cfgReady (inbound s) f = true ∧ busMaster (inbound s) f = true) ∧
    (∃ (f : Fin 64) (s : State), deaf s = false ∧ cfgReady (inbound s) f = true ∧ flag F.CFG_BME f (wakeLink (put F.CFG_PSTATE
      f 0 (inbound s))) = true ∧ (fnr (wakeLink (put F.CFG_PSTATE f 0 (inbound s))) f).stall.isSome = true) ∧
    (∃ (w : BusW) (s : State), deaf s = false ∧ cfgReady (inbound s) 0 = true ∧ wrote1 0 w = true) ∧
    (∃ (w : BusW) (s : State), deaf s = false ∧ cfgReady (inbound s) 0 = true ∧ wrote0 0 w = true ∧ flag F.VF_EN 0 (busWrite
      R.CFG_SRIOVCTL 0 0 w (inbound s)) = true) ∧
    (∃ (f : Fin 64) (t0 : Nat) (s : State), (fnr s f).stall = some t0 ∧ s.time < t0 + 1000000 * fld1 F.HIF_BME_LIMIT_MS 0 s) :=
  ⟨⟨0, 5, [some 7, none, some 9], true, put F.DECK_CMB_PF_UNITS 0 1 hostOn, by decide +kernel⟩,
    ⟨0, 5, 4, hostOn, by decide +kernel⟩,
    ⟨0, hostOn, by decide +kernel⟩,
    ⟨0, hostOn, by decide +kernel⟩,
    ⟨0, 5, setFn 0 { stall := some 5 } { hostOn with time := 10000000000 }, by decide +kernel⟩,
    ⟨0, hostOn, by decide +kernel⟩,
    ⟨0, setFn 0 { stall := some 5 } hostOn, by decide +kernel⟩,
    ⟨⟨15, 9⟩, hostOn, by decide +kernel⟩,
    ⟨⟨15, 8⟩, put F.VF_EN 0 1 hostOn, by decide +kernel⟩,
    ⟨0, 5, setFn 0 { stall := some 5 } hostOn, by decide +kernel⟩⟩

theorem test_interrupts_and_completions_premises :
    (∃ (f : Fin 64) (v : Fin 2048) (s : State), deaf s = false ∧ memEnabled (inbound s) f = true ∧ barOpen (inbound s) f =
      true ∧ v.val ≤ fld F.MSIX_SIZE f (inbound s)) ∧
    (∃ (f : Fin 64) (s : State), deaf s = false ∧ cfgReady (inbound s) f = true) ∧
    (∃ (f : Fin 64) (x : Bool) (m : Bool) (i : Bool) (s : State), deaf s = false ∧ cfgReady (inbound s) f = true ∧ f.val ≠ 0 ∧
      intMode (put F.MSIX_EN f x.toNat (inbound s)) f ≠ intMode (inbound s) f) ∧
    (∃ (f : Fin 64) (tag : Nat) (bs : List Byte) (r : HostReq) (k : Nat) (o : Nat) (s : State), deaf s = false ∧ tag < 16384 ∧
      Tab.get? (inbound s).deck.reqs (tagKey f tag) = some r ∧ r.kind = .data k o) ∧
    (∃ (f : Fin 64) (tag : Nat) (bs : List Byte) (s : State), deaf s = false ∧ tag < 16384 ∧ Tab.get? (inbound s).deck.reqs
      (tagKey f tag) = none ∧ Tab.get? (inbound s).deck.flushed (tagKey f tag) = none ∧ fnOn (inbound s) f = true) ∧
    (∃ (f : Fin 64) (tag : Nat) (r : HostReq) (s : State), tag < 16384 ∧ Tab.get? s.deck.reqs (tagKey f tag) = some r ∧ flag
      F.CFG_CTODIS f s = false) :=
  ⟨⟨0, 3, hostOn, by decide +kernel⟩,
    ⟨0, hostOn, by decide +kernel⟩,
    ⟨1, true, false, false, put F.MSIX_EN 1 0 (put F.VF_EN 0 1 (put F.NUM_VFS 0 3 hostOn)), by decide +kernel⟩,
    ⟨0, 9, [1, 2, 3, 4], ⟨0, .data 5 0, 4096, 4, [], false⟩, 5, 0,
      { hostOn with deck := { hostOn.deck with reqs := [(9, ⟨0, .data 5 0, 4096, 4, [], false⟩)] } }, by decide +kernel⟩,
    ⟨0, 9, [1, 2, 3, 4], hostOn, by decide +kernel⟩,
    ⟨0, 9, ⟨0, .data 5 0, 4096, 4, [], false⟩, { hostOn with deck := { hostOn.deck with reqs := [(9, ⟨0, .data 5 0, 4096, 4,
                                                                                          [], false⟩)] } }, by decide +kernel⟩⟩

theorem test_admission_and_chokers_premises :
    (∃ (f : Nat) (q : Nat) (s : State), admitNext s = some (f, q)) ∧
    (∃ (x : Cmd) (s : State), entryNext s = some x) ∧
    (∃ (e : Choke) (k : Nat) (s : State), chkGrantable [] s.deck.chk = some e ∧ e.holder = .cmd k) ∧
    (∃ (e : Choke) (k : Nat) (s : State), chkGrantable [] s.deck.chk = some e ∧ e.holder = .port k) ∧
    (∃ (e : Choke) (k : Nat) (s : State), chkGrantable [] s.deck.chk = some e ∧ e.holder = .salv k) ∧
    (∃ (p : Fin 4) (w : BusW) (i : Nat) (s : State), wrote1 31 w = true ∧ flag F.CHK_PORT_CTL_GO p (busWrite R.CHK_PORT_CTL p
      0 w s) = false ∧ fld F.CHK_PORT_FIRST_UNIT p (busWrite R.CHK_PORT_CTL p 0 w s) ≤ fld F.CHK_PORT_LAST_UNIT p (busWrite
      R.CHK_PORT_CTL p 0 w s) ∧ fld F.CHK_PORT_CTL_NSID p (busWrite R.CHK_PORT_CTL p 0 w s) ≠ 0 ∧ fld F.CHK_PORT_CTL_NSID p
      (busWrite R.CHK_PORT_CTL p 0 w s) ≤ 256 ∧ chkFree (busWrite R.CHK_PORT_CTL p 0 w s) = some i) ∧
    (∃ (p : Fin 4) (w : BusW) (s : State), wrote1 31 w = true ∧ flag F.CHK_PORT_CTL_GO p (busWrite R.CHK_PORT_CTL p 0 w s) =
      false ∧ fld F.CHK_PORT_LAST_UNIT p (busWrite R.CHK_PORT_CTL p 0 w s) < fld F.CHK_PORT_FIRST_UNIT p (busWrite
      R.CHK_PORT_CTL p 0 w s)) ∧
    (∃ (p : Fin 4) (w : BusW) (s : State), wrote1 31 w = true ∧ flag F.CHK_PORT_CTL_GO p (busWrite R.CHK_PORT_REL p 0 w s) =
      true ∧ fld F.CHK_PORT_REL_ENTRY p (busWrite R.CHK_PORT_REL p 0 w s) = fld F.CHK_PORT_CTL_ENTRY p (busWrite
      R.CHK_PORT_REL p 0 w s)) :=
  ⟨⟨0, 1, admitState, by decide +kernel⟩,
    ⟨readCmd .entryWait, setCmd (readCmd .entryWait) (put F.DECK_FN_SLOT_MAX 0 64 hostOn), by decide +kernel⟩,
    ⟨⟨0, 1, 0, 14, true, .cmd 3, false⟩, 3, { State.reset with deck := { chk := [⟨0, 1, 0, 14, true, .cmd 3, false⟩] } },
      by decide +kernel⟩,
    ⟨⟨0, 1, 0, 14, true, .port 3, false⟩, 3, { State.reset with deck := { chk := [⟨0, 1, 0, 14, true, .port 3, false⟩] } },
      by decide +kernel⟩,
    ⟨⟨0, 1, 0, 14, true, .salv 3, false⟩, 3, { relocState 2 1 with deck := { chk := [⟨0, 1, 0, 14, true, .salv 3, false⟩] } },
      by decide +kernel⟩,
    ⟨0, ⟨8, 0x80000000⟩, 0, put F.CHK_PORT_CTL_NSID 0 1 State.reset, by decide +kernel⟩,
    ⟨0, ⟨8, 0x80000000⟩, put F.CHK_PORT_FIRST_UNIT 0 7 State.reset, by decide +kernel⟩,
    ⟨0, ⟨15, 0x80000000⟩, put F.CHK_PORT_CTL_GO 0 1 State.reset, by decide +kernel⟩⟩

theorem test_deck_control_and_ends_premises :
    (∃ (w : BusW) (s : State), wrote1 1 w = true ∧ Tab.vals s.deck.cmds = [] ∧ Tab.vals (busWrite R.DECK_CTL 0 0 w
      s).deck.cmds = []) ∧
    (∃ (w : BusW) (s : State), wrote1 1 w = false ∧ wrote0 1 w = true) ∧
    (∃ (w : BusW) (s : State), wrote1 2 w = true) ∧
    (∃ (w : BusW) (s : State), wrote1 2 w = false ∧ wrote0 2 w = true) ∧
    (∃ (w : BusW) (s : State), wrote1 0 w = true) ∧
    (∃ (f : Fin 64) (w : BusW) (s : State), slotMinSum (busWrite R.DECK_FN f 0 w s) ≤ 4032 ∧ fld F.DECK_FN_SLOT_MIN f
      (busWrite R.DECK_FN f 0 w s) ≤ fld F.DECK_FN_SLOT_MAX f (busWrite R.DECK_FN f 0 w s)) ∧
    (∃ (f : Fin 64) (w : BusW) (s : State), fld F.DECK_FN_SLOT_MAX f (busWrite R.DECK_FN f 0 w s) < fld F.DECK_FN_SLOT_MIN f
      (busWrite R.DECK_FN f 0 w s)) ∧
    (∃ (f : Fin 64) (q : Fin 65) (c : Cq) (e : CplEnt) (l : List CplEnt) (s : State), cq s f q = some c ∧ c.wait = e :: l ∧
      canIssue s f = true ∧ safe s = false ∧ (c.tail + 1) % max 1 c.size ≠ c.head ∧ e.slot = none ∧ c.ien = false ∧ cplBehind
      s f q e = false) ∧
    (∃ (k : Fin 4096) (x : Cmd) (s : State), cmd s k = some x ∧ readClass x = true ∧ x.phase ≠ .done ∧ feature s x.fn 5 %
      65536 ≠ 0 ∧ x.phase = .active → x.ust.length < x.need) ∧
    (∃ (f : Fin 64) (v : Fin 2048) (e : Nat × Nat) (s : State), Tab.get? (fnr s f).unsig v.val = some e ∧ e.2 + 100000 *
      (feature s f 8 / 256 % 256) ≤ s.time ∧ canIssue s f = true) ∧
    (∃ (f : Fin 64) (v : Fin 2048) (e : Nat × Nat) (s : State), Tab.get? (fnr s f).unsig v.val = some e ∧ s.time < e.2 +
      100000 * (feature s f 8 / 256 % 256)) :=
  ⟨⟨⟨15, 3⟩, State.reset, by decide +kernel⟩,
    ⟨⟨15, 1⟩, State.reset, by decide +kernel⟩,
    ⟨⟨15, 4⟩, State.reset, by decide +kernel⟩,
    ⟨⟨15, 0⟩, State.reset, by decide +kernel⟩,
    ⟨⟨15, 1⟩, State.reset, by decide +kernel⟩,
    ⟨3, ⟨15, 0x00400010⟩, State.reset, by decide +kernel⟩,
    ⟨3, ⟨15, 0x00100020⟩, State.reset, by decide +kernel⟩,
    ⟨0, 1, ⟨4096, 8, 1, false, 0, 3, true, [⟨1, 5, 0, 0, none, 0, false⟩]⟩, ⟨1, 5, 0, 0, none, 0, false⟩, [], setCq 0 1 ⟨4096,
      8, 1, false, 0, 3, true, [⟨1, 5, 0, 0, none, 0, false⟩]⟩ hostOn, by decide +kernel⟩,
    ⟨3, readCmd .entryWait, setNs 1 nsRec0 (setCmd (readCmd .entryWait) (setFn 0 { feat := [(5, 10)] } hostOn)),
      by decide +kernel⟩,
    ⟨0, 3, (1, 0), setFn 0 { unsig := [(3, (1, 0))] } hostOn, by decide +kernel⟩,
    ⟨0, 3, (1, 7), setFn 0 { unsig := [(3, (1, 7))], feat := [(8, 0x100)] } hostOn, by decide +kernel⟩⟩

theorem test_read_and_write_commands_premises :
    (∃ (k : Fin 4096) (l : LandBufs) (x : Cmd) (s : State), granted s k 0x02 = some x) ∧
    (∃ (k : Fin 4096) (l : LandBufs) (x : Cmd) (s : State), granted s k 0x82 = some x) ∧
    (∃ (k : Fin 4096) (l : LandBufs) (x : Cmd) (s : State), granted s k 0x0C = some x) ∧
    (∃ (k : Fin 4096) (l : LandBufs) (x : Cmd) (s : State), granted s k 0x05 = some x) ∧
    (∃ (k : Fin 4096) (l : LandBufs) (x : Cmd) (s : State), granted s k 0x01 = some x) ∧
    (∃ (k : Fin 4096) (l : LandBufs) (x : Cmd) (s : State), granted s k 0x81 = some x) ∧
    (∃ (k : Fin 4096) (l : LandBufs) (x : Cmd) (s : State), granted s k 0x08 = some x) ∧
    (∃ (k : Fin 4096) (x : Cmd) (r : NsRec) (s : State), cmd s k = some x ∧ nsr s (nsidOf x) = some r ∧ x.phase = .active ∧
      writeClass x = true ∧ x.commit = false ∧ (cmdLen s x).1 + mdLen s x ≤ x.got ∧ x.merged = true ∧ x.dfail = none ∧
      sqBroken s x = false ∧ mayCommit s x = true ∧ xferBusy s r x = false ∧ detached x = false ∧ (writeStatus (piInsert r x
      (mergeIn k (xferLook r x s))) r x).1 = 0) ∧
    (∃ (k : Fin 4096) (x : Cmd) (r : NsRec) (s : State), cmd s k = some x ∧ nsr s (nsidOf x) = some r ∧ x.phase = .active ∧
      writeClass x = true ∧ x.commit = false ∧ (cmdLen s x).1 + mdLen s x ≤ x.got ∧ x.merged = true ∧ x.dfail = none ∧
      sqBroken s x = false ∧ mayCommit s x = true ∧ xferBusy s r x = false ∧ detached x = false ∧ (writeStatus (piInsert r x
      (mergeIn k (xferLook r x s))) r x).1 ≠ 0) ∧
    (∃ (k : Fin 4096) (x : Cmd) (r : NsRec) (s : State), cmd s k = some x ∧ nsr s (nsidOf x) = some r ∧ x.phase = .active ∧
      writeClass x = true ∧ x.commit = false ∧ (cmdLen s x).1 + mdLen s x ≤ x.got ∧ x.merged = true ∧ x.dfail = none ∧
      sqBroken s x = false ∧ (mayCommit s x = false ∨ xferBusy s r x = true)) ∧
    (∃ (k : Fin 4096) (x : Cmd) (s : State), running s k 0x00 = some x ∧ (earlier s x).any writeClass = false ∧ mayCommit s x
      = true) ∧
    (∃ (k : Fin 4096) (x : Cmd) (q : Sq) (r : Sq) (s : State), running s k 0x84 = some x ∧ earlier s x = [] ∧ sq s x.fn x.sq =
      some q ∧ q.failed = [] ∧ sq (cmdEnd { x with commit := true } 0 0 s) x.fn x.sq = some r) :=
  ⟨⟨3, ⟨0, 0, 0, 0⟩, cmd0 1 0x02 1 [] .granted, setCmd (cmd0 1 0x02 1 [] .granted) hostOn, by decide +kernel⟩,
    ⟨3, ⟨0, 0, 0, 0⟩, cmd0 1 0x82 1 [] .granted, setCmd (cmd0 1 0x82 1 [] .granted) hostOn, by decide +kernel⟩,
    ⟨3, ⟨0, 0, 0, 0⟩, cmd0 1 0x0C 1 [] .granted, setCmd (cmd0 1 0x0C 1 [] .granted) hostOn, by decide +kernel⟩,
    ⟨3, ⟨0, 0, 0, 0⟩, cmd0 1 0x05 1 [] .granted, setCmd (cmd0 1 0x05 1 [] .granted) hostOn, by decide +kernel⟩,
    ⟨3, ⟨0, 0, 0, 0⟩, cmd0 1 0x01 1 [] .granted, setCmd (cmd0 1 0x01 1 [] .granted) hostOn, by decide +kernel⟩,
    ⟨3, ⟨0, 0, 0, 0⟩, cmd0 1 0x81 1 [] .granted, setCmd (cmd0 1 0x81 1 [] .granted) hostOn, by decide +kernel⟩,
    ⟨3, ⟨0, 0, 0, 0⟩, cmd0 1 0x08 1 [] .granted, setCmd (cmd0 1 0x08 1 [] .granted) hostOn, by decide +kernel⟩,
    ⟨3, { cmd0 1 8 1 [] .active with merged := true }, nsRec0, setCmd ({ cmd0 1 8 1 [] .active with merged := true }) (setNs 1
      nsRec0 (put F.SPR_CTL_DEGR_WR 0 1 (upHeads (ringState [])))), by decide +kernel⟩,
    ⟨3, { cmd0 1 8 1 [] .active with merged := true }, nsRec0, setCmd ({ cmd0 1 8 1 [] .active with merged := true }) (setNs 1
      nsRec0 State.reset), by decide +kernel⟩,
    ⟨3, { cmd0 1 1 1 [] .active with merged := true, got := 512, buf := landBase }, nsRec0, setCmd
      ({ cmd0 1 1 1 [] .active with merged := true, got := 512, buf := landBase }) (setNs 1 nsRec0 (put F.LND_STAT_STATE 0 3
      State.reset)), by decide +kernel⟩,
    ⟨3, cmd0 1 0 1 [] .run, setCmd (cmd0 1 0 1 [] .run) hostOn, by decide +kernel⟩,
    ⟨3, cmd0 1 0x84 1 [] .run, sq0, sq0, setCmd (cmd0 1 0x84 1 [] .run) (setSq 0 1 sq0 hostOn), by decide +kernel⟩⟩

theorem test_queues_and_features_premises_1 :
    (∃ (k : Fin 4096) (x : Cmd) (s : State), adm s k 0x05 = some x ∧ (cdw x 11).testBit 0 = true ∧ inBar2 s x.fn (le x.sqe 24
      8) = false ∧ (cdw x 10 % 65536) ≠ 0 ∧ (cdw x 10 % 65536) ≤ ioPairs s x.fn ∧ cq s x.fn (cdw x 10 % 65536) = none ∧ 2 ≤
      (cdw x 10 / 65536 + 1) ∧ (cdw x 10 / 65536 + 1) ≤ 4096 ∧ le x.sqe 24 8 % 4096 = 0 ∧ cdw x 11 / 65536 < vecs s x.fn) ∧
    (∃ (k : Fin 4096) (x : Cmd) (s : State), adm s k 0x05 = some x ∧ (cdw x 11).testBit 0 = true ∧ inBar2 s x.fn (le x.sqe 24
      8) = false ∧ (cdw x 10 % 65536) ≠ 0 ∧ (cdw x 10 % 65536) ≤ ioPairs s x.fn ∧ (cq s x.fn (cdw x 10 % 65536)).isSome =
      true) ∧
    (∃ (k : Fin 4096) (x : Cmd) (s : State), adm s k 0x01 = some x ∧ (cdw x 11).testBit 0 = true ∧ segsBad s x.fn false
      [(segOf s x.fn (le x.sqe 24 8) (64 * (cdw x 10 / 65536 + 1)))] = false ∧ (cdw x 10 % 65536) ≠ 0 ∧ (cdw x 10 % 65536) ≤
      ioPairs s x.fn ∧ sq s x.fn (cdw x 10 % 65536) = none ∧ (cdw x 11 / 65536) ≠ 0 ∧ (cq s x.fn (cdw x 11 / 65536)).isSome =
      true ∧ 2 ≤ (cdw x 10 / 65536 + 1) ∧ (cdw x 10 / 65536 + 1) ≤ 4096 ∧ le x.sqe 24 8 % 4096 = 0) ∧
    (∃ (k : Fin 4096) (x : Cmd) (s : State), adm s k 0x00 = some x ∧ (cdw x 10 % 65536) ≠ 0 ∧ (sq s x.fn (cdw x 10 %
      65536)).isSome = true) ∧
    (∃ (k : Fin 4096) (x : Cmd) (c : Cq) (s : State), adm s k 0x04 = some x ∧ cq s x.fn (cdw x 10 % 65536) = some c ∧ c.wait =
      [] ∧ (cdw x 10 % 65536) ≠ 0 ∧ (fnr s x.fn).sqs.any (fun e => e.2.cq == (cdw x 10 % 65536)) = false) ∧
    (∃ (k : Fin 4096) (x : Cmd) (s : State), adm s k 0x04 = some x ∧ (cq s x.fn (cdw x 10 % 65536)).isSome = true ∧ (cdw x 10
      % 65536) ≠ 0 ∧ (fnr s x.fn).sqs.any (fun e => e.2.cq == (cdw x 10 % 65536)) = true) ∧
    (∃ (k : Fin 4096) (x : Cmd) (s : State), adm s k 0x08 = some x ∧ ((Tab.vals s.deck.cmds).filter (fun c => c.fn == x.fn &&
      isAdmin c && opc c == 8 && c.phase != .done)).length ≤ 8 ∧ (Tab.vals s.deck.cmds).filter (fun c => c.fn == x.fn && c.sq
      == (cdw x 10 % 65536) && !detached c && cidOf c == (cdw x 10 / 65536) && c.slot != x.slot && c.phase != .done) = []) ∧
    (∃ (k : Fin 4096) (x : Cmd) (c : Cmd) (s : State), adm s k 0x08 = some x ∧ ((Tab.vals s.deck.cmds).filter (fun c => c.fn
      == x.fn && isAdmin c && opc c == 8 && c.phase != .done)).length ≤ 8 ∧ (Tab.vals s.deck.cmds).filter (fun c => c.fn ==
      x.fn && c.sq == (cdw x 10 % 65536) && !detached c && cidOf c == (cdw x 10 / 65536) && c.slot != x.slot && c.phase !=
      .done) = [c] ∧ isAdmin c = false ∧ (c.commit && writeClass c) = false) ∧
    (∃ (k : Fin 4096) (x : Cmd) (s : State), adm s k 0x0C = some x ∧ (fnr s x.fn).events = [] ∧ (fnr s x.fn).aer.length < 4) ∧
    (∃ (k : Fin 4096) (x : Cmd) (ty : Nat) (i : Nat) (l : List (Nat × Nat)) (s : State), adm s k 0x0C = some x ∧ (fnr s
      x.fn).events = (ty, i) :: l) ∧
    (∃ (k : Fin 4096) (x : Cmd) (m : Nat) (s : State), adm s k 0x09 = some x ∧ featBits (cdw x 10 % 256) = some m ∧ (cdw x
      10).testBit 31 = false ∧ cdw x 11 &&& m = cdw x 11 ∧ (cdw x 10 % 256) ∈ [1, 8, 10, 11, 0xC1]) ∧
    (∃ (k : Fin 4096) (x : Cmd) (s : State), adm s k 0x09 = some x ∧ (featBits (cdw x 10 % 256)).isSome = true ∧ (cdw x
      10).testBit 31 = true) :=
  ⟨⟨3, cmd0 0 5 0 [0x70001, 3] .run, setCmd (cmd0 0 5 0 [0x70001, 3] .run) hostOn, by decide +kernel⟩,
    ⟨3, cmd0 0 5 0 [0x70001, 3] .run, setCmd (cmd0 0 5 0 [0x70001, 3] .run) (setCq 0 1 ⟨4096, 8, 1, false, 0, 3, true, []⟩
      hostOn), by decide +kernel⟩,
    ⟨3, cmd0 0 1 0 [0x70001, 0x10001] .run, setCmd (cmd0 0 1 0 [0x70001, 0x10001] .run) (setCq 0 1 ⟨4096, 8, 1, false, 0, 3,
      true, []⟩ hostOn), by decide +kernel⟩,
    ⟨3, cmd0 0 0 0 [1] .run, setCmd (cmd0 0 0 0 [1] .run) (setSq 0 1 sq0 hostOn), by decide +kernel⟩,
    ⟨3, cmd0 0 4 0 [1] .run, ⟨4096, 8, 1, false, 0, 0, true, []⟩, setCmd (cmd0 0 4 0 [1] .run) (setCq 0 1 ⟨4096, 8, 1, false,
      0, 0, true, []⟩ hostOn), by decide +kernel⟩,
    ⟨3, cmd0 0 4 0 [1] .run, setCmd (cmd0 0 4 0 [1] .run) (setSq 0 1 sq0 (setCq 0 1 ⟨4096, 8, 1, false, 0, 0, true, []⟩
      hostOn)), by decide +kernel⟩,
    ⟨3, cmd0 0 8 0 [0x50001] .run, setCmd (cmd0 0 8 0 [0x50001] .run) hostOn, by decide +kernel⟩,
    ⟨3, cmd0 0 8 0 [0x90001] .run, { readCmd .entryWait with slot := 4 }, setCmd (cmd0 0 8 0 [0x90001] .run) (setCmd
      { readCmd .entryWait with slot := 4 } hostOn), by decide +kernel⟩,
    ⟨3, cmd0 0 12 0 [] .run, setCmd (cmd0 0 12 0 [] .run) hostOn, by decide +kernel⟩,
    ⟨3, cmd0 0 12 0 [] .run, 1, 0, [], setCmd (cmd0 0 12 0 [] .run) (setFn 0 { events := [(1, 0)] } hostOn),
      by decide +kernel⟩,
    ⟨3, cmd0 0 9 0 [11, 0x100] .run, 0xF8007FFF, setCmd (cmd0 0 9 0 [11, 0x100] .run) hostOn, by decide +kernel⟩,
    ⟨3, cmd0 0 9 0 [0x8000000B, 0x100] .run, setCmd (cmd0 0 9 0 [0x8000000B, 0x100] .run) hostOn, by decide +kernel⟩⟩

theorem test_queues_and_features_premises_2 :
    (∃ (k : Fin 4096) (x : Cmd) (s : State), adm s k 0x0A = some x ∧ (cdw x 10 % 256) ∈ [1, 2, 5, 8, 10, 11, 0xC1] ∧ cdw x 10
      / 256 % 8 = 0) :=
    ⟨3, cmd0 0 10 0 [11] .run, setCmd (cmd0 0 10 0 [11] .run) (setFn 0 { feat := [(11, 0x100)] } hostOn), by decide +kernel⟩

theorem test_identify_and_namespaces_premises_1 :
    (∃ (k : Fin 4096) (x : Cmd) (s : State), adm s k 0x06 = some x ∧ outReady s x = true ∧ cdw x 10 % 256 = 1) ∧
    (∃ (k : Fin 4096) (x : Cmd) (s : State), adm s k 0x06 = some x ∧ outReady s x = true ∧ cdw x 10 % 256 = 0 ∧ nsidOf x ≠
      0xFFFFFFFF ∧ attachedTo s (nsidOf x) x.fn = true) ∧
    (∃ (k : Fin 4096) (x : Cmd) (s : State), adm s k 0x06 = some x ∧ outReady s x = true ∧ cdw x 10 % 256 = 0 ∧ nsidOf x ≠
      0xFFFFFFFF ∧ attachedTo s (nsidOf x) x.fn = false) ∧
    (∃ (k : Fin 4096) (x : Cmd) (n : Nat) (s : State), admAct s k 0x1C 7 = some x ∧ vmFn x = some n ∧ (fnr s n).online =
      false) ∧
    (∃ (k : Fin 4096) (x : Cmd) (n : Nat) (s : State), admAct s k 0x1C 7 = some x ∧ vmFn x = some n ∧ (fnr s n).online = true) ∧
    (∃ (k : Fin 4096) (x : Cmd) (n : Nat) (s : State), admAct s k 0x1C 8 = some x ∧ vmFn x = some n ∧ (fnr s n).online = false
      ∧ cdw x 10 / 256 % 8 = 0 ∧ (cdw x 11 % 65536) ≤ 65 ∧ vmOthers s n (·.nq) + (cdw x 11 % 65536) ≤ 959) ∧
    (∃ (k : Fin 4096) (x : Cmd) (n : Nat) (s : State), admAct s k 0x1C 8 = some x ∧ vmFn x = some n ∧ (fnr s n).online = true) ∧
    (∃ (k : Fin 4096) (x : Cmd) (n : Nat) (s : State), admAct s k 0x1C 9 = some x ∧ vmFn x = some n ∧ 2 ≤ (fnr s n).nq ∧ 1 ≤
      (fnr s n).nv ∧ fnOn (put F.MSIX_SIZE n ((fnr s n).nv - 1) (setFn n { fnr s n with online := true, everOnline := true }
      s)) n = false) ∧
    (∃ (k : Fin 4096) (x : Cmd) (n : Nat) (s : State), admAct s k 0x1C 9 = some x ∧ vmFn x = some n ∧ (fnr s n).nq < 2) ∧
    (∃ (k : Fin 4096) (x : Cmd) (s : State), admAct s k 0x1C 1 = some x) ∧
    (∃ (k : Fin 4096) (x : Cmd) (addr : Nat) (exts : List (Nat × Nat × Nat)) (n : Nat) (s : State), admAct s k 0x0D 0 = some x
      ∧ inReady x = true ∧ (le (x.data) 0 8) = le (x.data) 8 8 ∧ (le (x.data) 0 8) ≠ 0 ∧ le (x.data) 26 1 % 16 ≤ 5 ∧ le
      (x.data) 26 1 < 32 ∧ dpsOk (le (x.data) 26 1) (le (x.data) 29 1) = true ∧ le (x.data) 0x180 1 ≤ 1 ∧ le (x.data) 0x181 1
      = 0 ∧ ((List.range 256).map (· + 1)).find? (fun n => (nsr s n).isNone) = some n ∧ ownedStripes s + nsStripes ((⟨(le
      (x.data) 0 8), le (x.data) 26 1, le (x.data) 29 1, le (x.data) 30 1 % 2, le (x.data) 0x180 1, 64, (((Tab.get?
      s.deck.nsGen n).getD 0 + 1) % 2 ^ 32), 0, exts, 0, []⟩ : NsRec)) ≤ mainStripes s ∧ extsOk s exts (nsStripes ((⟨(le
      (x.data) 0 8), le (x.data) 26 1, le (x.data) 29 1, le (x.data) 30 1 % 2, le (x.data) 0x180 1, 64, (((Tab.get?
      s.deck.nsGen n).getD 0 + 1) % 2 ^ 32), 0, exts, 0, []⟩ : NsRec))) = true) ∧
    (∃ (k : Fin 4096) (x : Cmd) (addr : Nat) (exts : List (Nat × Nat × Nat)) (s : State), admAct s k 0x0D 0 = some x ∧ inReady
      x = true ∧ le x.data 0 8 = 0) :=
  ⟨⟨3, cmd0 0 6 0 [1] .run, setCmd (cmd0 0 6 0 [1] .run) hostOn, by decide +kernel⟩,
    ⟨3, cmd0 0 6 1 [0] .run, setCmd (cmd0 0 6 1 [0] .run) (setNs 1 nsRec0 hostOn), by decide +kernel⟩,
    ⟨3, cmd0 0 6 2 [0] .run, setCmd (cmd0 0 6 2 [0] .run) hostOn, by decide +kernel⟩,
    ⟨3, cmd0 0 0x1C 0 [0x20007] .run, 1, setCmd (cmd0 0 0x1C 0 [0x20007] .run) hostOn, by decide +kernel⟩,
    ⟨3, cmd0 0 0x1C 0 [0x20007] .run, 1, setCmd (cmd0 0 0x1C 0 [0x20007] .run) (setFn 1 { online := true } hostOn),
      by decide +kernel⟩,
    ⟨3, cmd0 0 0x1C 0 [0x20008, 3] .run, 1, setCmd (cmd0 0 0x1C 0 [0x20008, 3] .run) hostOn, by decide +kernel⟩,
    ⟨3, cmd0 0 0x1C 0 [0x20008, 3] .run, 1, setCmd (cmd0 0 0x1C 0 [0x20008, 3] .run) (setFn 1 { online := true } hostOn),
      by decide +kernel⟩,
    ⟨3, cmd0 0 0x1C 0 [0x20009] .run, 1, setCmd (cmd0 0 0x1C 0 [0x20009] .run) (setFn 1 { nq := 2, nv := 1 } hostOn),
      by decide +kernel⟩,
    ⟨3, cmd0 0 0x1C 0 [0x20009] .run, 1, setCmd (cmd0 0 0x1C 0 [0x20009] .run) hostOn, by decide +kernel⟩,
    ⟨3, cmd0 0 0x1C 0 [1] .run, setCmd (cmd0 0 0x1C 0 [1] .run) hostOn, by decide +kernel⟩,
    ⟨3, { cmd0 0 0x0D 0 [0] .run with got := 4096, data := pack [(8, 480), (8, 480), (14, 0), (354, 0), (1, 0), (1, 0)] },
      sramBase + 0x5000, [(0, 0, 1280)], 1, setCmd
      ({ cmd0 0 0x0D 0 [0] .run with got := 4096, data := pack [(8, 480), (8, 480), (14, 0), (354, 0), (1, 0), (1, 0)] })
      (upHeads (ringState [])), by decide +kernel⟩,
    ⟨3, { cmd0 0 0x0D 0 [0] .run with got := 4096, data := pack [(400, 0)] }, sramBase + 0x5000, [], setCmd
      ({ cmd0 0 0x0D 0 [0] .run with got := 4096, data := pack [(400, 0)] }) hostOn, by decide +kernel⟩⟩

theorem test_identify_and_namespaces_premises_2 :
    (∃ (k : Fin 4096) (x : Cmd) (r : NsRec) (s : State), cmd s k = some x ∧ isAdmin x = true ∧ opc x = 0x0D ∧ cdw x 10 % 16 =
      1 ∧ x.phase = .granted ∧ nsEarlier s x = false ∧ nsr s (nsidOf x) = some r) ∧
    (∃ (k : Fin 4096) (x : Cmd) (r : NsRec) (s : State), cmd s k = some x ∧ isAdmin x = true ∧ opc x = 0x80 ∧ x.phase =
      .granted ∧ nsEarlier s x = false ∧ nsr s (nsidOf x) = some r ∧ cdw x 10 < 6) ∧
    (∃ (k : Fin 4096) (x : Cmd) (m : Nat) (r : NsRec) (s : State), admAct s k 0x15 0 = some x ∧ inReady x = true ∧ attachMask
      x.data = some m ∧ nsr s (nsidOf x) = some r ∧ m &&& r.attached = 0 ∧ (r.nmic ≠ 0 ∨ popcount 64 (m ||| r.attached) ≤ 1)) ∧
    (∃ (k : Fin 4096) (x : Cmd) (m : Nat) (r : NsRec) (s : State), admAct s k 0x15 0 = some x ∧ inReady x = true ∧ attachMask
      x.data = some m ∧ nsr s (nsidOf x) = some r ∧ m &&& r.attached ≠ 0) ∧
    (∃ (k : Fin 4096) (x : Cmd) (m : Nat) (r : NsRec) (s : State), admAct s k 0x15 1 = some x ∧ inReady x = true ∧ attachMask
      x.data = some m ∧ nsr s (nsidOf x) = some r ∧ m &&& r.attached = m) :=
  ⟨⟨3, cmd0 0 0x0D 1 [1] .granted, nsRec0, setCmd (cmd0 0 0x0D 1 [1] .granted) (setNs 1 nsRec0 (ringState [])),
      by decide +kernel⟩,
    ⟨3, cmd0 0 0x80 1 [2] .granted, nsRec0, setCmd (cmd0 0 0x80 1 [2] .granted) (setNs 1 nsRec0 (ringState [])),
      by decide +kernel⟩,
    ⟨3, { cmd0 0 0x15 1 [0] .run with got := 4096, data := pack [(2, 1), (2, 2)] }, 2, { nsRec0 with nmic := 1 }, setCmd
      ({ cmd0 0 0x15 1 [0] .run with got := 4096, data := pack [(2, 1), (2, 2)] }) (setNs 1 { nsRec0 with nmic := 1 } hostOn),
      by decide +kernel⟩,
    ⟨3, { cmd0 0 0x15 1 [0] .run with got := 4096, data := pack [(2, 1), (2, 2)] }, 2, { nsRec0 with attached := 3 }, setCmd
      ({ cmd0 0 0x15 1 [0] .run with got := 4096, data := pack [(2, 1), (2, 2)] }) (setNs 1 { nsRec0 with attached := 3 }
      hostOn), by decide +kernel⟩,
    ⟨3, { cmd0 0 0x15 1 [1] .run with got := 4096, data := pack [(2, 1), (2, 2)] }, 2, { nsRec0 with attached := 3 }, setCmd
      ({ cmd0 0 0x15 1 [1] .run with got := 4096, data := pack [(2, 1), (2, 2)] }) (setNs 1 { nsRec0 with attached := 3 }
      hostOn), by decide +kernel⟩⟩

theorem test_logs_and_status_commands_premises :
    (∃ (k : Fin 4096) (x : Cmd) (b : List Byte) (s : State), adm s k 0x02 = some x ∧ outReady s x = true ∧ logPage s x.fn (cdw
      x 10 % 256) = some b ∧ (cdw x 12 + cdw x 13 * 2 ^ 32) % 4 = 0 ∧ (cdw x 12 + cdw x 13 * 2 ^ 32) < b.length ∧ (cdw x
      10).testBit 15 = true) ∧
    (∃ (k : Fin 4096) (x : Cmd) (s : State), adm s k 0x02 = some x ∧ outReady s x = true ∧ logPage s x.fn (cdw x 10 % 256) =
      none) ∧
    (∃ (k : Fin 4096) (x : Cmd) (s : State), adm s k 0xC4 = some x ∧ outReady s x = true) ∧
    (∃ (k : Fin 4096) (x : Cmd) (s : State), adm s k 0xC5 = some x ∧ outReady s x = true ∧ (cdw x 10).testBit 0 = false) ∧
    (∃ (k : Fin 4096) (x : Cmd) (s : State), adm s k 0xC5 = some x ∧ outReady s x = true ∧ (cdw x 10).testBit 0 = true ∧ x.fn
      ≠ 0) ∧
    (∃ (k : Fin 4096) (x : Cmd) (s : State), adm s k 0xCA = some x ∧ outReady s x = true) ∧
    (∃ (k : Fin 4096) (x : Cmd) (s : State), admAct s k 0xC9 0 = some x) ∧
    (∃ (k : Fin 4096) (x : Cmd) (s : State), admAct s k 0xC9 1 = some x ∧ 4000 ≤ cdw x 11 ∧ cdw x 11 ≤ 15800) ∧
    (∃ (k : Fin 4096) (x : Cmd) (s : State), admAct s k 0xC9 1 = some x ∧ cdw x 11 < 4000) ∧
    (∃ (k : Fin 4096) (x : Cmd) (s : State), admAct s k 0xC9 2 = some x ∧ inReady x = true ∧ le (x.data) 0 2 = 1 ∧ le (x.data)
      4 4 = 0 ∧ le (x.data) 8 1 + le (x.data) 9 1 + le (x.data) 10 1 + le (x.data) 11 1 ≤ 128) :=
  ⟨⟨3, cmd0 0 2 0 [0x8003] .run, pageFirmware (setCmd (cmd0 0 2 0 [0x8003] .run) hostOn), setCmd (cmd0 0 2 0 [0x8003] .run)
      hostOn, by decide +kernel⟩,
    ⟨3, cmd0 0 2 0 [0x77] .run, setCmd (cmd0 0 2 0 [0x77] .run) hostOn, by decide +kernel⟩,
    ⟨3, cmd0 0 0xC4 0 [0, 2] .run, setCmd (cmd0 0 0xC4 0 [0, 2] .run) hostOn, by decide +kernel⟩,
    ⟨3, cmd0 0 0xC5 0 [0] .run, setCmd (cmd0 0 0xC5 0 [0] .run) hostOn, by decide +kernel⟩,
    ⟨3, { cmd0 0 0xC5 0 [1] .run with fn := 1 }, setCmd ({ cmd0 0 0xC5 0 [1] .run with fn := 1 }) (put F.CFG_BME 1 1 (put
      F.VF_EN 0 1 (put F.NUM_VFS 0 3 hostOn))), by decide +kernel⟩,
    ⟨3, cmd0 0 0xCA 0 [] .run, setCmd (cmd0 0 0xCA 0 [] .run) hostOn, by decide +kernel⟩,
    ⟨3, cmd0 0 0xC9 0 [0] .run, setCmd (cmd0 0 0xC9 0 [0] .run) hostOn, by decide +kernel⟩,
    ⟨3, cmd0 0 0xC9 0 [1, 15800] .run, setCmd (cmd0 0 0xC9 0 [1, 15800] .run) hostOn, by decide +kernel⟩,
    ⟨3, cmd0 0 0xC9 0 [1, 3999] .run, setCmd (cmd0 0 0xC9 0 [1, 3999] .run) hostOn, by decide +kernel⟩,
    ⟨3, { cmd0 0 0xC9 0 [2] .run with got := 512, data := pack [(2, 1), (6, 0), (1, 32), (1, 32), (1, 32), (1, 32), (180, 7)]
                                        }, setCmd ({ cmd0 0 0xC9 0 [2] .run with got := 512, data := pack [(2, 1), (6, 0), (1,
                                                                                   32), (1, 32), (1, 32), (1, 32), (180, 7)]
                                                                                   }) hostOn, by decide +kernel⟩⟩

theorem test_salvage_and_fence_commands_premises_1 :
    (∃ (k : Fin 4096) (x : Cmd) (s : State), vendorAct s k 0xC6 0 = some x) ∧
    (∃ (k : Fin 4096) (x : Cmd) (p : SalvPlan) (z : Nat) (zn : Zone) (s : State), vendorAct s k 0xC6 1 = some x ∧ rangeZone s
      (cdw x 12) (cdw x 13) = some (z, zn) ∧ salvState s ≠ 1 ∧ salvState s ≠ 2 ∧ regionFenced s (cdw x 11 % 16) (cdw x 12)
      (cdw x 13) = true) ∧
    (∃ (k : Fin 4096) (x : Cmd) (p : Option SalvPlan) (s : State), vendorAct s k 0xC6 1 = some x ∧ rangeZone s (cdw x 12) (cdw
      x 13) = none) ∧
    (∃ (k : Fin 4096) (x : Cmd) (s : State), vendorAct s k 0xC6 2 = some x) ∧
    (∃ (k : Fin 4096) (x : Cmd) (s : State), vendorAct s k 0xC6 3 = some x) ∧
    (∃ (k : Fin 4096) (x : Cmd) (s : State), vendorAct s k 0xC6 4 = some x) ∧
    (∃ (k : Fin 4096) (x : Cmd) (s : State), vendorAct s k 0xC6 5 = some x) ∧
    (∃ (k : Fin 4096) (x : Cmd) (s : State), vendorAct s k 0xC8 0 = some x) ∧
    (∃ (k : Fin 4096) (x : Cmd) (s : State), vendorAct s k 0xC8 1 = some x ∧ (cdw x 11) < 64 ∧ (losesSurface s (putFBit
      F.SPR_FENCE_HEAD_FENCE ((cdw x 11) / 32) ((cdw x 11) % 32) true s) = false ∨ (cdw x 10).testBit 8 = true)) ∧
    (∃ (k : Fin 4096) (x : Cmd) (s : State), vendorAct s k 0xC8 1 = some x ∧ 64 ≤ cdw x 11) ∧
    (∃ (k : Fin 4096) (x : Cmd) (s : State), vendorAct s k 0xC8 2 = some x ∧ (cdw x 11) < 64) ∧
    (∃ (k : Fin 4096) (x : Cmd) (s : State), vendorAct s k 0xC8 2 = some x ∧ cdw x 11 < 64) :=
  ⟨⟨3, cmd0 0 0xC6 0 [0] .run, setCmd (cmd0 0 0xC6 0 [0] .run) hostOn, by decide +kernel⟩,
    ⟨3, cmd0 0 0xC6 0 [1, 3, 30, 31] .run, ⟨0, 0, 64, landBase⟩, 0, ⟨0, 99, 64, 0, 1000, 0, 0, List.replicate 16 0⟩, setCmd
      (cmd0 0 0xC6 0 [1, 3, 30, 31] .run) { put F.SPR_RFENCE_LAST 0 99 (put F.SPR_RFENCE_SURF 0 3 (put F.SPR_RFENCE_VALID 0 1
                                              (put F.SPR_RELOC_BASE_ADDR 0 0x1000480 hostOn))) with geo := some geo0 },
      by decide +kernel⟩,
    ⟨3, cmd0 0 0xC6 0 [1, 3, 30, 31] .run, none, setCmd (cmd0 0 0xC6 0 [1, 3, 30, 31] .run) hostOn, by decide +kernel⟩,
    ⟨3, cmd0 0 0xC6 0 [2] .run, setCmd (cmd0 0 0xC6 0 [2] .run) hostOn, by decide +kernel⟩,
    ⟨3, cmd0 0 0xC6 0 [3] .run, setCmd (cmd0 0 0xC6 0 [3] .run) hostOn, by decide +kernel⟩,
    ⟨3, cmd0 0 0xC6 0 [4] .run, setCmd (cmd0 0 0xC6 0 [4] .run) hostOn, by decide +kernel⟩,
    ⟨3, cmd0 0 0xC6 0 [5, 0, 0, 0, 1] .run, setCmd (cmd0 0 0xC6 0 [5, 0, 0, 0, 1] .run) hostOn, by decide +kernel⟩,
    ⟨3, cmd0 0 0xC8 0 [0] .run, setCmd (cmd0 0 0xC8 0 [0] .run) hostOn, by decide +kernel⟩,
    ⟨3, cmd0 0 0xC8 0 [0x101, 3] .run, setCmd (cmd0 0 0xC8 0 [0x101, 3] .run) hostOn, by decide +kernel⟩,
    ⟨3, cmd0 0 0xC8 0 [0x101, 64] .run, setCmd (cmd0 0 0xC8 0 [0x101, 64] .run) hostOn, by decide +kernel⟩,
    ⟨3, cmd0 0 0xC8 0 [2, 3] .run, setCmd (cmd0 0 0xC8 0 [2, 3] .run) hostOn, by decide +kernel⟩,
    ⟨3, cmd0 0 0xC8 0 [2, 3] .run, setCmd (cmd0 0 0xC8 0 [2, 3] .run) hostOn, by decide +kernel⟩⟩

theorem test_salvage_and_fence_commands_premises_2 :
    (∃ (k : Fin 4096) (x : Cmd) (s : State), vendorAct s k 0xC8 3 = some x ∧ (cdw x 11) < 4 ∧ (losesSurface s (putFBit
      F.SPR_FENCE_ARM_FENCE 0 (cdw x 11) true s) = false ∨ (cdw x 10).testBit 8 = true)) ∧
    (∃ (k : Fin 4096) (x : Cmd) (s : State), vendorAct s k 0xC8 4 = some x ∧ (cdw x 11) < 4) ∧
    (∃ (k : Fin 4096) (x : Cmd) (n : Nat) (s : State), vendorAct s k 0xC8 5 = some x ∧ cdw x 11 < 16 ∧ (rangeZone s (cdw x 12)
      (cdw x 13)).isSome = true ∧ rfenceFree s = some n) ∧
    (∃ (k : Fin 4096) (x : Cmd) (n : Nat) (s : State), vendorAct s k 0xC8 6 = some x ∧ (List.range 64).find? (fun n => flag
      F.SPR_RFENCE_VALID n s && fld F.SPR_RFENCE_SURF n s == cdw x 11 && fld F.SPR_RFENCE_FIRST n s == cdw x 12 && fld
      F.SPR_RFENCE_LAST n s == cdw x 13) = some n) :=
  ⟨⟨3, cmd0 0 0xC8 0 [0x103, 3] .run, setCmd (cmd0 0 0xC8 0 [0x103, 3] .run) hostOn, by decide +kernel⟩,
    ⟨3, cmd0 0 0xC8 0 [4, 3] .run, setCmd (cmd0 0 0xC8 0 [4, 3] .run) hostOn, by decide +kernel⟩,
    ⟨3, cmd0 0 0xC8 0 [5, 3, 30, 31] .run, 0, setCmd (cmd0 0 0xC8 0 [5, 3, 30, 31] .run) { hostOn with geo := some geo0 },
      by decide +kernel⟩,
    ⟨3, cmd0 0 0xC8 0 [6, 0, 0, 0] .run, 0, setCmd (cmd0 0 0xC8 0 [6, 0, 0, 0] .run) (put F.SPR_RFENCE_VALID 0 1 hostOn),
      by decide +kernel⟩⟩

theorem test_configuration_transactions_premises_1 :
    (∃ (k : Option (Fin 4096)) (w : BusW) (o : Option Cmd) (s : State), (txnAsk k w 0 s).1 = some o ∧ txnState ((txnAsk k w 0
      s).2) = 0) ∧
    (∃ (k : Option (Fin 4096)) (w : BusW) (o : Option Cmd) (s : State), (txnAsk k w 0 s).1 = some o ∧ txnState ((txnAsk k w 0
      s).2) ≠ 0) ∧
    (∃ (w : BusW) (s : State), (txnAsk none w 1 s).1 = some none) ∧
    (∃ (k : Fin 4096) (w : BusW) (x : Cmd) (s : State), admAct s k 0xC0 1 = some x ∧ inReady x = true) ∧
    (∃ (k : Option (Fin 4096)) (w : BusW) (o : Option Cmd) (s : State), (txnAsk k w 2 s).1 = some o) ∧
    (∃ (k : Option (Fin 4096)) (w : BusW) (o : Option Cmd) (s : State), (txnAsk k w 3 s).1 = some o) ∧
    (∃ (k : Fin 4096) (w : BusW) (x : Cmd) (s : State), admAct s k 0xC0 4 = some x ∧ cdw x 11 = fld F.CFG_TXN_ID_TXID 0 s ∧
      s.cfg.timedOut.contains (cdw x 11) = false) ∧
    (∃ (w : BusW) (s : State), (txnAsk none w 4 s).1 = some none) ∧
    (∃ (s : State), txnState s = 2 ∧ s.cfg.stored = false ∧ flag F.FLT_STAT_SAFE 0 (norProgram (copyAddr (copyTarget s))
      (s.cfg.merged) (norErase (copyAddr (copyTarget s)) (ceilDiv (s.cfg.merged).length 4096 * 4096) s)) = false) ∧
    (∃ (s : State), txnState s = 2 ∧ s.cfg.stored = false ∧ flag F.FLT_STAT_SAFE 0 (norProgram (copyAddr (copyTarget s))
      (s.cfg.merged) (norErase (copyAddr (copyTarget s)) (ceilDiv (s.cfg.merged).length 4096 * 4096) s)) = true) ∧
    (∃ (a : Fin 4) (s : State), txnState s = 2 ∧ cfgHeld s a = true ∧ armQuiet s a = true) ∧
    (∃ (w : BusW) (s : State), wrote1 1 w = true ∧ txnState s = 2 ∧ s.cfg.stored = true ∧ s.cfg.arms = [] ∧ s.cfg.blob = true) :=
  ⟨⟨(some 3), ⟨0, 0⟩, some (cmd0 0 0xC0 0 [0] .run), setCmd (cmd0 0 0xC0 0 [0] .run) (hostOn), by decide +kernel⟩,
    ⟨(some 3), ⟨0, 0⟩, some (cmd0 0 0xC0 0 [0] .run), setCmd (cmd0 0 0xC0 0 [0] .run) (put F.CFG_TXN_STAT_STATE 0 1 hostOn),
      by decide +kernel⟩,
    ⟨⟨15, 0x80000001⟩, put F.CFG_TXN_STAT_OWNER 0 1 (put F.CFG_TXN_STAT_STATE 0 1 hostOn), by decide +kernel⟩,
    ⟨3, ⟨0, 0⟩, cmd0 0 0xC0 0 [1] .run, setCmd (cmd0 0 0xC0 0 [1] .run) (put F.CFG_TXN_STAT_STATE 0 1 hostOn),
      by decide +kernel⟩,
    ⟨(some 3), ⟨0, 0⟩, some (cmd0 0 0xC0 0 [2] .run), setCmd (cmd0 0 0xC0 0 [2] .run) (put F.CFG_TXN_STAT_STATE 0 1 hostOn),
      by decide +kernel⟩,
    ⟨(some 3), ⟨0, 0⟩, some (cmd0 0 0xC0 0 [3] .run), setCmd (cmd0 0 0xC0 0 [3] .run) (put F.CFG_TXN_STAT_STATE 0 1 hostOn),
      by decide +kernel⟩,
    ⟨3, ⟨0, 0⟩, cmd0 0 0xC0 0 [4] .run, setCmd (cmd0 0 0xC0 0 [4] .run) hostOn, by decide +kernel⟩,
    ⟨⟨15, 0x80000004⟩, hostOn, by decide +kernel⟩,
    ⟨put F.CFG_TXN_STAT_STATE 0 2 { State.reset with cfg := { State.reset.cfg with merged := [1, 2, 3, 4] } },
      by decide +kernel⟩,
    ⟨put F.FLT_STAT_SAFE 0 1 (put F.CFG_TXN_STAT_STATE 0 2
      { State.reset with cfg := { State.reset.cfg with merged := [1, 2, 3, 4] } }), by decide +kernel⟩,
    ⟨2, put F.CFG_TXN_STAT_STATE 0 2 { State.reset with cfg := { State.reset.cfg with arms := [2], stored := true } },
      by decide +kernel⟩,
    ⟨⟨15, 2⟩, put F.CFG_TXN_STAT_STATE 0 2 { State.reset with cfg := { State.reset.cfg with stored := true, blob := true } },
      by decide +kernel⟩⟩

theorem test_configuration_transactions_premises_2 :
    (∃ (s : State), txnState s = 1 ∧ s.cfg.timer + 1000000 * max 1000 (fld F.CFG_TXN_TMO_MS 0 s) ≤ s.time) :=
    ⟨put F.CFG_TXN_STAT_STATE 0 1 { State.reset with time := 100000000000 }, by decide +kernel⟩

theorem test_scheduler_and_tallies_premises_1 :
    (∃ (a : Fin 4) (s : State), flag F.DECK_CTL_PAUSE 0 (freeHolds (rebind (replan s))) = false ∧ safe (freeHolds (rebind
      (replan s))) = false ∧ Tab.get? (freeHolds (rebind (replan s))).sched.decided a = none ∧ (freeHolds (rebind (replan
      s))).geo.isSome = true) ∧
    (∃ (a : Fin 4) (s : State), flag F.DECK_CTL_PAUSE 0 (freeHolds (rebind (replan s))) = true) ∧
    (∃ (a : Fin 4) (x : Item) (s : State), (Tab.get? s.sched.decided a).bind (item s) = some x ∧ flag F.DECK_CTL_PAUSE 0 s =
      false ∧ safe s = false ∧ cfgHeld s a = false ∧ Tab.get? s.sched.running a = none ∧ serves s x a = true ∧ (x.write &&
      (wop s a).isSome) = false ∧ x.mem.any (fun m => unreadable s x m.1) = false ∧ (x.mem.flatMap (itemPsas
      ({ s with sched := { s.sched with decided := Tab.erase s.sched.decided a } }) x)).all (psaOk
      ({ s with sched := { s.sched with decided := Tab.erase s.sched.decided a } })) = true) ∧
    (∃ (a : Fin 4) (x : Item) (s : State), (Tab.get? s.sched.running a).bind (item s) = some x ∧ itemBusy s x a = false) ∧
    (∃ (x : Item) (s : State), (sortBy (·.origin) ((readySet s).filter (fun x => !x.urgent))).head? = some x ∧ x.origin +
      1000000 * max 100 (fld F.GOV_AGE_URGENT_MS 0 s) ≤ s.time) ∧
    (∃ (s : State), (meanOf (((((boardMw s + motorMw s), boardMw s - heldMw s) :: s.sched.samples).take 100).map (·.1))) ≤
      (fld F.GOV_STAT_EFF_MW 0 (tickEnergy (boardMw s + motorMw s) (put F.GOV_MEAS_TOTAL_MW 0 (min 65535 (meanOf (((((boardMw
      s + motorMw s), boardMw s - heldMw s) :: s.sched.samples).take 100).map (·.1))).toNat) (put F.GOV_POWER_FLOOR_MW 0 (min
      65535 (max 0 (meanOf (((((boardMw s + motorMw s), boardMw s - heldMw s) :: s.sched.samples).take 100).map (·.2))) +
      motorMw ({ s with sched := { s.sched with samples := ((((boardMw s + motorMw s), boardMw s - heldMw s) ::
                                                  s.sched.samples).take 100) } })).toNat)
      ({ s with sched := { s.sched with samples := ((((boardMw s + motorMw s), boardMw s - heldMw s) :: s.sched.samples).take
                                          100) } })))) : Int)) ∧
    (∃ (s : State), 100 ≤ s.sched.under) ∧
    (∃ (w : BusW) (s : State), minCfg (busWrite R.GOV_BG 0 0 w s) 1 + minCfg (busWrite R.GOV_BG 0 0 w s) 2 + minCfg (busWrite
      R.GOV_BG 0 0 w s) 3 + minCfg (busWrite R.GOV_BG 0 0 w s) 4 ≤ 128) ∧
    (∃ (w : BusW) (s : State), 128 < minCfg (busWrite R.GOV_BG 0 0 w s) 1 + minCfg (busWrite R.GOV_BG 0 0 w s) 2 + minCfg
      (busWrite R.GOV_BG 0 0 w s) 3 + minCfg (busWrite R.GOV_BG 0 0 w s) 4) ∧
    (∃ (w : BusW) (s : State), wrote1 31 w = true) ∧
    (∃ (s : State), fld F.TLY_CTL_PERIOD 0 s ≠ 0 ∧ fld F.TLY_SHD_TIME_TIME 0 s + 1000000000 * fld F.TLY_CTL_PERIOD 0 s ≤
      s.time) ∧
    (∃ (s : State), s.sched.scale = 1 ∧ fabOff s = false ∧ Tab.vals s.deck.cmds = [] ∧ Tab.vals (latch s).deck.cmds = []) :=
  ⟨⟨0, { hostOn with geo := some geo0 }, by decide +kernel⟩,
    ⟨0, put F.DECK_CTL_PAUSE 0 1 hostOn, by decide +kernel⟩,
    ⟨0, { item0 with st := .ready }, setItem item0 (setMode 0 6 (put F.SPM_STAT_AT_SPEED 0 1
      { hostOn with geo := some geo0, sched := { decided := [(0, 0)] } })), by decide +kernel⟩,
    ⟨0, item0, setItem item0 { State.reset with sched := { running := [(0, 0)] } }, by decide +kernel⟩,
    ⟨item0, setItem item0 { State.reset with time := 1000000000000 }, by decide +kernel⟩,
    ⟨put F.GOV_STAT_EFF_MW 0 15000 State.reset, by decide +kernel⟩,
    ⟨{ State.reset with sched := { under := 100 } }, by decide +kernel⟩,
    ⟨⟨15, 0x10101010⟩, State.reset, by decide +kernel⟩,
    ⟨⟨15, 0x7F7F7F7F⟩, State.reset, by decide +kernel⟩,
    ⟨⟨15, 0x80000000⟩, State.reset, by decide +kernel⟩,
    ⟨put F.TLY_CTL_PERIOD 0 5 { State.reset with time := 5000000000 }, by decide +kernel⟩,
    ⟨{ State.reset with sched := { scale := 1 } }, by decide +kernel⟩⟩

theorem test_scheduler_and_tallies_premises_2 :
    (∃ (k : Fin 4096) (x : Cmd) (s : State), adm s k 0xC1 = some x) ∧
    (∃ (s : State), flag F.TLY_XING_PEND 0 s = false ∧ fabOff s = false) ∧
    (∃ (s : State), flag F.TLY_XING_PEND 0 s = true) ∧
    (∃ (s : State), flag F.TLY_XING_PEND 0 s = true ∧ fabOff s = false) ∧
    (∃ (k : Fin 4096) (x : Cmd) (s : State), adm s k 0xC2 = some x ∧ outReady s x = true ∧ (x.fn = 0 ∨ (cdw x 10 % 256) =
      x.fn) ∧ (cdw x 10 % 256) < 64 ∧ (cdw x 10).testBit 8 = true) ∧
    (∃ (k : Fin 4096) (x : Cmd) (s : State), adm s k 0xC2 = some x ∧ outReady s x = true ∧ x.fn ≠ 0 ∧ cdw x 10 % 256 ≠ x.fn) :=
  ⟨⟨3, cmd0 0 0xC1 0 [] .run, setCmd (cmd0 0 0xC1 0 [] .run) hostOn, by decide +kernel⟩,
    ⟨State.reset, by decide +kernel⟩,
    ⟨put F.TLY_XING_PEND 0 1 State.reset, by decide +kernel⟩,
    ⟨put F.TLY_XING_PEND 0 1 { State.reset with sched := { hs := [(3, 7), (66, 9)] } }, by decide +kernel⟩,
    ⟨3, cmd0 0 0xC2 0 [0x103] .run, setCmd (cmd0 0 0xC2 0 [0x103] .run) hostOn, by decide +kernel⟩,
    ⟨3, { cmd0 0 0xC2 0 [0x103] .run with fn := 1 }, setCmd { cmd0 0 0xC2 0 [0x103] .run with fn := 1 } (put F.CFG_BME 1 1
      (put F.VF_EN 0 1 (put F.NUM_VFS 0 3 hostOn))), by decide +kernel⟩⟩

theorem test_landing_control_and_access_premises_1 :
    (∃ (w : BusW) (s : State), wrote1 0 w = true ∧ (fld F.LND_STAT_STATE 0 (busWrite R.LND_CTL 0 0 w s) = 0 ∨ fld
      F.LND_STAT_STATE 0 (busWrite R.LND_CTL 0 0 w s) = 4) ∧ (busWrite R.LND_CTL 0 0 w s).cpr.stage ≠ 0) ∧
    (∃ (ch : BitVec 2) (st : BitVec 4) (s : State), fld F.LND_STAT_STATE 0 s = 1) ∧
    (∃ (ch : BitVec 2) (st : BitVec 4) (s : State), fld F.LND_STAT_STATE 0 s = 1) ∧
    (∃ (w : BusW) (s : State), wrote1 31 w = true ∧ flag F.LND_FILL_CTL_GO 0 s = false) ∧
    (∃ (s : State), flag F.LND_FILL_CTL_GO 0 s = true ∧ landBusy s (64 * (s.lnd.fill.getD (0, 0)).1) (64 * ((s.lnd.fill.getD
      (0, 0)).2)) = false ∧ (((s.lnd.fill.getD (0, 0)).2) = 0 ∨ landOk (upTo ((s.lnd.fill.getD (0, 0)).2) (fun i v => if
      landOk v (64 * ((64 * (s.lnd.fill.getD (0, 0)).1) / 64 + i)) 64 then (if (Tab.get? v.land ((64 * (s.lnd.fill.getD (0,
      0)).1) / 64 + i)).isSome || v.lnd.mrg.any (fun e => e.g == (64 * (s.lnd.fill.getD (0, 0)).1) / 64 + i) then rowsLost
      ((64 * (s.lnd.fill.getD (0, 0)).1) / 64 + i) 1 v else putGranule ((64 * (s.lnd.fill.getD (0, 0)).1) / 64 + i)
      ⟨List.replicate 64 0, false⟩ v) else v) { s with lnd := { s.lnd with fill := none } }) (64 * (s.lnd.fill.getD (0, 0)).1)
      (64 * ((s.lnd.fill.getD (0, 0)).2)) = true)) ∧
    (∃ (e : Ecc) (s : State), flag F.LND_SCRUB_CTL_EN 0 s = true ∧ (fld F.LND_SCRUB_RNG_FIRST 0 s * 2 ^ 14) ≤ s.lnd.scrub ∧
      s.lnd.scrub < ((fld F.LND_SCRUB_RNG_LAST 0 s + 1) * 2 ^ 14) ∧ landBusy s (64 * s.lnd.scrub) 64 = false ∧ landOk
      ({ s with lnd := { s.lnd with scrub := s.lnd.scrub + 1 } }) (64 * s.lnd.scrub) 64 = true) ∧
    (∃ (k : Fin 32) (w : BusW) (s : State), wrote1 62 w = true) ∧
    (∃ (k : Fin 32) (l : List Ecc) (s : State), flag F.LND_RMAP_COPY k s = true ∧ landHeld s = false ∧ (List.range 32).any
      (fun j => j != k.val && flag F.LND_RMAP_VALID j s && rmapFirst s j == (rmapFirst s k)) = false) ∧
    (∃ (k : Fin 32) (w : BusW) (s : State), wrote1 61 w = true ∧ flag F.LND_RMAP_VALID k (rmapWrite k w s) = true) ∧
    (∃ (a : Nat) (bs : List Byte) (p : Bool) (o : List Nat) (l : List Ecc) (s : State), landBase ≤ a ∧ landBusy s a bs.length
      = false ∧ landOk s a bs.length = true) ∧
    (∃ (a : Nat) (bs : List Byte) (p : Bool) (o : List Nat) (l : List Ecc) (s : State), landBase ≤ a ∧ landBusy s a bs.length
      = false ∧ landOk s a bs.length = false) ∧
    (∃ (c : Fin 4) (a : Nat) (bs : List Byte) (p : Bool) (o : List Nat) (l : List Ecc) (s : State), landBase ≤ a ∧ coreHeld s
      c = false ∧ (landBusy s a bs.length && (!l1Holds s c a bs.length || (granulesOf a bs.length).any o.contains)) = false ∧
      evictBusy s c o = false) :=
  ⟨⟨⟨15, 1⟩, put F.LND_STAT_STATE 0 0 hostOn, by decide +kernel⟩,
    ⟨1, 3, put F.LND_STAT_STATE 0 1 State.reset, by decide +kernel⟩,
    ⟨1, 3, put F.LND_STAT_STATE 0 1 State.reset, by decide +kernel⟩,
    ⟨⟨15, 0x80000000⟩, State.reset, by decide +kernel⟩,
    ⟨{ put F.LND_FILL_CTL_GO 0 1 landReady with lnd := { landReady.lnd with fill := some (landBase / 64, 2) } },
      by decide +kernel⟩,
    ⟨.corrected, { put F.LND_SCRUB_CTL_EN 0 1 (put F.LND_SCRUB_RNG_FIRST 0 (landBase / 2 ^ 20) (put F.LND_SCRUB_RNG_LAST 0
                     (landBase / 2 ^ 20) landReady)) with lnd := { scrub := landBase / 64 } }, by decide +kernel⟩,
    ⟨3, ⟨255, 0x4000000000000000⟩, State.reset, by decide +kernel⟩,
    ⟨3, [], put F.LND_RMAP_COPY 3 1 landReady, by decide +kernel⟩,
    ⟨3, ⟨255, 0x2000000000000000⟩, put F.LND_RMAP_VALID 3 1 State.reset, by decide +kernel⟩,
    ⟨landBase, [1, 2, 3], false, [], [], landReady, by decide +kernel⟩,
    ⟨landBase, [1, 2, 3], false, [], [], State.reset, by decide +kernel⟩,
    ⟨0, landBase, [1, 2, 3], false, [], [], landReady, by decide +kernel⟩⟩

theorem test_landing_control_and_access_premises_2 :
    (∃ (a : Nat) (n : Nat) (o : List Nat) (l : List Ecc) (s : State), landBase ≤ a ∧ landBusy s a n = false ∧ landOk s a n =
      true) ∧
    (∃ (a : Nat) (n : Nat) (o : List Nat) (l : List Ecc) (s : State), landBase ≤ a ∧ landBusy s a n = false ∧ landOk s a n =
      false) ∧
    (∃ (q : Ecc) (e : MrgEnt) (l : List MrgEnt) (s : State), s.lnd.mrg = e :: l ∧ e.t + 1000 * fld1 F.LND_MRG_AGE 0 s ≤ s.time
      ∧ landBusy s (64 * e.g) 64 = false) ∧
    (∃ (c : Fin 4) (w : BusW) (s : State), landHeld (put F.LND_FFENCE_OP c 1 (busWrite R.LND_FFENCE c 0 w s)) = false ∧
      (List.range 32).any (fun k => flag F.LND_RMAP_COPY k (put F.LND_FFENCE_OP c 1 (busWrite R.LND_FFENCE c 0 w s))) = false
      ∧ coreHeld (put F.LND_FFENCE_OP c 1 (busWrite R.LND_FFENCE c 0 w s)) c = false) ∧
    (∃ (c : Fin 4) (w : BusW) (s : State), landHeld (put F.LND_FFENCE_OP c 2 (busWrite R.LND_FFENCE c 0 w s)) = false ∧
      (List.range 32).any (fun k => flag F.LND_RMAP_COPY k (put F.LND_FFENCE_OP c 2 (busWrite R.LND_FFENCE c 0 w s))) = false
      ∧ coreHeld (put F.LND_FFENCE_OP c 2 (busWrite R.LND_FFENCE c 0 w s)) c = false) ∧
    (∃ (c : Fin 4) (w : BusW) (s : State), landHeld (put F.LND_FFENCE_OP c 3 (busWrite R.LND_FFENCE c 0 w s)) = false ∧
      (List.range 32).any (fun k => flag F.LND_RMAP_COPY k (put F.LND_FFENCE_OP c 3 (busWrite R.LND_FFENCE c 0 w s))) = false
      ∧ coreHeld (put F.LND_FFENCE_OP c 3 (busWrite R.LND_FFENCE c 0 w s)) c = false) ∧
    (∃ (c : Fin 4) (w : BusW) (e : List Ecc) (s : State), landHeld (put F.LND_FFENCE_OP c 4 (busWrite R.LND_FFENCE c 0 w s)) =
      false ∧ (List.range 32).any (fun k => flag F.LND_RMAP_COPY k (put F.LND_FFENCE_OP c 4 (busWrite R.LND_FFENCE c 0 w s)))
      = false ∧ coreHeld (put F.LND_FFENCE_OP c 4 (busWrite R.LND_FFENCE c 0 w s)) c = false) ∧
    (∃ (c : Fin 4) (w : BusW) (s : State), landHeld (put F.LND_FFENCE_OP c 5 (busWrite R.LND_FFENCE c 0 w s)) = false ∧
      (List.range 32).any (fun k => flag F.LND_RMAP_COPY k (put F.LND_FFENCE_OP c 5 (busWrite R.LND_FFENCE c 0 w s))) = false
      ∧ coreHeld (put F.LND_FFENCE_OP c 5 (busWrite R.LND_FFENCE c 0 w s)) c = false) ∧
    (∃ (c : Fin 4) (w : BusW) (s : State), landHeld (put F.LND_FFENCE_OP c 6 (busWrite R.LND_FFENCE c 0 w s)) = false ∧
      (List.range 32).any (fun k => flag F.LND_RMAP_COPY k (put F.LND_FFENCE_OP c 6 (busWrite R.LND_FFENCE c 0 w s))) = false
      ∧ coreHeld (put F.LND_FFENCE_OP c 6 (busWrite R.LND_FFENCE c 0 w s)) c = false) ∧
    (∃ (c : Fin 4) (op : AmoOp) (a : Nat) (x : BitVec 64) (e : Ecc) (s : State), a % 8 = 0 ∧ inSram a 8 = true ∧ coreHeld s c
      = false ∧ a < landBase ∧ cached a = true) ∧
    (∃ (c : Fin 4) (op : AmoOp) (a : Nat) (x : BitVec 64) (e : Ecc) (s : State), a % 8 ≠ 0) ∧
    (∃ (c : Fin 4) (a : Nat) (bs : List Byte) (p : Bool) (o : List Nat) (l : List Ecc) (s : State), landBase ≤ a ∧ coreHeld s
      c = true) :=
  ⟨⟨landBase, 3, [], [], landReady, by decide +kernel⟩,
    ⟨landBase, 3, [], [], State.reset, by decide +kernel⟩,
    ⟨.ok, mrg0, [], { landReady with time := 100000000, lnd := { landReady.lnd with mrg := [mrg0] } }, by decide +kernel⟩,
    ⟨1, ⟨255, 7⟩, landReady, by decide +kernel⟩,
    ⟨1, ⟨255, 7⟩, landReady, by decide +kernel⟩,
    ⟨1, ⟨255, 7⟩, landReady, by decide +kernel⟩,
    ⟨1, ⟨255, 7⟩, [], landReady, by decide +kernel⟩,
    ⟨1, ⟨255, 7⟩, landReady, by decide +kernel⟩,
    ⟨1, ⟨255, 7⟩, landReady, by decide +kernel⟩,
    ⟨0, .add, sramBase, 5, .ok, State.reset, by decide +kernel⟩,
    ⟨0, .add, sramBase + 4, 5, .ok, State.reset, by decide +kernel⟩,
    ⟨0, landBase, [1, 2, 3], false, [], [], { landReady with lnd := { held := [.write (.cp 0) landBase [1] false [] []] } },
      by decide +kernel⟩⟩

theorem test_landing_control_and_access_premises_3 :
    (∃ (m : Master) (a : Nat) (n : Nat) (o : List Nat) (l : List Ecc) (s : State), m = .yarder ∧ landBase ≤ a ∧ landBusy s a n
      = true) :=
    ⟨.yarder, landBase, 3, [], [], put F.LND_STAT_STATE 0 3 landReady, by decide +kernel⟩

theorem test_yarder_channels_premises :
    (∃ (n : Fin 32) (s : State), yrdReady s n = true ∧ yrdBehind s n = false ∧ fld F.YRD_STAT_CHUNK_FREE 0 s ≠ 0 ∧ le
      (sramRead s (yrdAt s n (fld F.YRD_CH_STAT_NEXT n s)) 64) 0 1 % 2 = 0) ∧
    (∃ (n : Fin 32) (s : State), yrdReady s n = true ∧ yrdBehind s n = false ∧ (ych s n).aborts = [] ∧ le (sramRead s (yrdAt s
      n (fld F.YRD_CH_STAT_NEXT n s)) 64) 0 1 % 2 = 1 ∧ (ych s n).cur = none ∧ yrdDescOk s ((⟨(yrdAt s n (fld
      F.YRD_CH_STAT_NEXT n s)), (fld F.YRD_CH_STAT_NEXT n s), (le (sramRead s (yrdAt s n (fld F.YRD_CH_STAT_NEXT n s)) 64) 0
      1).testBit 1, le (sramRead s (yrdAt s n (fld F.YRD_CH_STAT_NEXT n s)) 64) 2 1, le (sramRead s (yrdAt s n (fld
      F.YRD_CH_STAT_NEXT n s)) 64) 3 1, le (sramRead s (yrdAt s n (fld F.YRD_CH_STAT_NEXT n s)) 64) 4 1 % 64, le (sramRead s
      (yrdAt s n (fld F.YRD_CH_STAT_NEXT n s)) 64) 8 4, le (sramRead s (yrdAt s n (fld F.YRD_CH_STAT_NEXT n s)) 64) 16 8, le
      (sramRead s (yrdAt s n (fld F.YRD_CH_STAT_NEXT n s)) 64) 24 8, [], 0, none, (min (max 1 (ceilDiv (le (sramRead s (yrdAt
      s n (fld F.YRD_CH_STAT_NEXT n s)) 64) 8 4) 4096)) (yrdRoom s n)), 0, false⟩ : YDesc)) = true) ∧
    (∃ (n : Fin 32) (s : State), yrdReady s n = true ∧ yrdBehind s n = false ∧ (ych s n).aborts = [] ∧ le (sramRead s (yrdAt s
      n (fld F.YRD_CH_STAT_NEXT n s)) 64) 0 1 % 2 = 1 ∧ (ych s n).cur = none ∧ (ych s n).ahead = none ∧ yrdDescOk s ((⟨(yrdAt
      s n (fld F.YRD_CH_STAT_NEXT n s)), (fld F.YRD_CH_STAT_NEXT n s), (le (sramRead s (yrdAt s n (fld F.YRD_CH_STAT_NEXT n
      s)) 64) 0 1).testBit 1, le (sramRead s (yrdAt s n (fld F.YRD_CH_STAT_NEXT n s)) 64) 2 1, le (sramRead s (yrdAt s n (fld
      F.YRD_CH_STAT_NEXT n s)) 64) 3 1, le (sramRead s (yrdAt s n (fld F.YRD_CH_STAT_NEXT n s)) 64) 4 1 % 64, le (sramRead s
      (yrdAt s n (fld F.YRD_CH_STAT_NEXT n s)) 64) 8 4, le (sramRead s (yrdAt s n (fld F.YRD_CH_STAT_NEXT n s)) 64) 16 8, le
      (sramRead s (yrdAt s n (fld F.YRD_CH_STAT_NEXT n s)) 64) 24 8, [], 0, none, (min (max 1 (ceilDiv (le (sramRead s (yrdAt
      s n (fld F.YRD_CH_STAT_NEXT n s)) 64) 8 4) 4096)) (yrdRoom s n)), 0, false⟩ : YDesc)) = false) ∧
    (∃ (n : Fin 32) (s : State), yrdReady s n = true ∧ yrdBehind s n = false ∧ (ych s n).aborts = [] ∧ le (sramRead s (yrdAt s
      n (fld F.YRD_CH_STAT_NEXT n s)) 64) 0 1 % 2 = 1 ∧ (ych s n).cur.isSome = true ∧ yrdDescOk s ((⟨(yrdAt s n (fld
      F.YRD_CH_STAT_NEXT n s)), (fld F.YRD_CH_STAT_NEXT n s), (le (sramRead s (yrdAt s n (fld F.YRD_CH_STAT_NEXT n s)) 64) 0
      1).testBit 1, le (sramRead s (yrdAt s n (fld F.YRD_CH_STAT_NEXT n s)) 64) 2 1, le (sramRead s (yrdAt s n (fld
      F.YRD_CH_STAT_NEXT n s)) 64) 3 1, le (sramRead s (yrdAt s n (fld F.YRD_CH_STAT_NEXT n s)) 64) 4 1 % 64, le (sramRead s
      (yrdAt s n (fld F.YRD_CH_STAT_NEXT n s)) 64) 8 4, le (sramRead s (yrdAt s n (fld F.YRD_CH_STAT_NEXT n s)) 64) 16 8, le
      (sramRead s (yrdAt s n (fld F.YRD_CH_STAT_NEXT n s)) 64) 24 8, [], 0, none, (min (max 1 (ceilDiv (le (sramRead s (yrdAt
      s n (fld F.YRD_CH_STAT_NEXT n s)) 64) 8 4) 4096)) (yrdRoom s n)), 0, false⟩ : YDesc)) = true) ∧
    (∃ (n : Fin 32) (l : List Ecc) (d : YDesc) (s : State), (ych s n).cur = some d ∧ d.srcMode.testBit 4 = false ∧
      d.dstMode.testBit 4 = false ∧ yrdHeld s d = false) ∧
    (∃ (n : Fin 32) (l : List Ecc) (d : YDesc) (s : State), (ych s n).cur = some d ∧ d.srcMode.testBit 4 = false ∧
      d.dstMode.testBit 4 = true ∧ d.fail = none ∧ yrdHeld s d = false ∧ canIssue s d.fn = false) ∧
    (∃ (n : Fin 32) (w : BusW) (s : State), wrote1 31 w = true) ∧
    (∃ (n : Fin 32) (w : BusW) (s : State), wrote1 30 w = true) :=
  ⟨⟨0, yrdState (pack [(64, 0)]), by decide +kernel⟩,
    ⟨0, yrdState (pack [(1, 1), (7, 0), (8, 64), (8, sramBase), (8, sramBase + 4096), (32, 0)]), by decide +kernel⟩,
    ⟨0, yrdState (pack [(1, 1), (63, 0)]), by decide +kernel⟩,
    ⟨0, setYch 0 { look := true, cur := some { ydesc0 with srcMode := 16, data := List.replicate 4 (0, false) } } (put
      F.YRD_CH_CTL_CHUNKS 0 4 (yrdState (pack [(1, 1), (7, 0), (8, 64), (8, sramBase), (8, sramBase + 4096), (32, 0)]))),
      by decide +kernel⟩,
    ⟨0, [], ydesc0, setYch 0 { cur := some ydesc0 } (yrdState []), by decide +kernel⟩,
    ⟨0, [], { ydesc0 with dstMode := 16 }, setYch 0 { cur := some { ydesc0 with dstMode := 16 } } State.reset,
      by decide +kernel⟩,
    ⟨0, ⟨15, 0x80000000⟩, State.reset, by decide +kernel⟩,
    ⟨0, ⟨15, 0x40000000⟩, State.reset, by decide +kernel⟩⟩

theorem test_blaze_records_premises :
    (∃ (k : Fin 4) (w : BusW) (s : State), wrote1 31 w = true) ∧
    (∃ (n : Nat) (s : State), s.blz.scanned = true ∧ s.blz.queue ≠ [] ∧ s.blz.phase = .idle ∧ s.blz.erasing = none ∧
      blzEraseNext s = some n) ∧
    (∃ (r : BlzRec) (q : BlzRec) (l : List BlzRec) (s : State), s.blz.scanned = true ∧ s.blz.queue = r :: q :: l ∧ s.blz.phase
      = .idle ∧ s.blz.erasing = none ∧ blzEraseNext s = none) ∧
    (∃ (k : Nat) (r : BlzRec) (l : List BlzRec) (s : State), s.blz.phase = .body k ∧ s.blz.queue = r :: l) ∧
    (∃ (k : Nat) (r : BlzRec) (l : List BlzRec) (s : State), s.blz.phase = .body k ∧ s.blz.queue = r :: l) ∧
    (∃ (k : Nat) (s : State), s.blz.phase = .mark k) ∧
    (∃ (k : Nat) (s : State), s.blz.phase = .mark k) ∧
    (∃ (n : Nat) (s : State), s.blz.erasing = some n) ∧
    (∃ (n : Nat) (s : State), s.blz.erasing = some n) ∧
    (∃ (s : State), fld F.BLZ_STAT_STATE 0 s = 1) :=
  ⟨⟨2, ⟨15, 0x80000005⟩, State.reset, by decide +kernel⟩,
    ⟨1, { State.reset with blz := { scanned := true, perm := 256, queue := [blz0] } }, by decide +kernel⟩,
    ⟨blz0, blz0, [], { State.reset with blz := { scanned := true, queue := [blz0, blz0] } }, by decide +kernel⟩,
    ⟨3, blz0, [], { State.reset with blz := { phase := .body 3, queue := [blz0] } }, by decide +kernel⟩,
    ⟨3, blz0, [], { State.reset with blz := { phase := .body 3, queue := [blz0] } }, by decide +kernel⟩,
    ⟨3, { State.reset with blz := { phase := .mark 3, queue := [blz0] } }, by decide +kernel⟩,
    ⟨3, { State.reset with blz := { phase := .mark 3, queue := [blz0] } }, by decide +kernel⟩,
    ⟨3, { State.reset with blz := { erasing := some 3 } }, by decide +kernel⟩,
    ⟨3, { State.reset with blz := { erasing := some 3 } }, by decide +kernel⟩,
    ⟨put F.BLZ_STAT_STATE 0 1 State.reset, by decide +kernel⟩⟩

theorem test_faults_and_events_premises :
    (∃ (k : Fin 256) (c : ChkInfo) (s : State), chkInfo k.val = some c ∧ c.cond = true ∧ condNow s k.val = false ∧ condForced
      s k.val = false) ∧
    (∃ (w : BusW) (s : State), w.be.testBit 0 = true) ∧
    (∃ (w : BusW) (s : State), w.be.testBit 0 = true) ∧
    (∃ (w : BusW) (c : ChkInfo) (s : State), flag F.FLT_CTL_INJ_EN 0 s = true ∧ flag F.FLT_INJ_ARM 0 s = false ∧ chkInfo (fld
      F.FLT_INJ_CHK 0 (busWrite R.FLT_INJ 0 0 w s)) = some c ∧ wrote1 31 w = true ∧ fld F.FLT_INJ_MODE 0 (busWrite R.FLT_INJ 0
      0 w s) = 1 ∧ fld F.FLT_INJ_BITS 0 (busWrite R.FLT_INJ 0 0 w s) = 2 ∧ selfDamage (busWrite R.FLT_INJ 0 0 w s) = 0 ∧
      c.cond = false ∧ c.base ≠ 3) ∧
    (∃ (k : Fin 256) (w : BusW) (s : State), wrote1 9 w = true ∧ (chkInfo k).isSome = true) ∧
    (∃ (r : Fin 5) (n : Nat) (s : State), claimable s r = some n) ∧
    (∃ (r : Fin 5) (s : State), claimable s r = none) :=
  ⟨⟨130, ⟨true, 2, .arm 2⟩, State.reset, by decide +kernel⟩,
    ⟨⟨15, 3⟩, State.reset, by decide +kernel⟩,
    ⟨⟨15, 3⟩, State.reset, by decide +kernel⟩,
    ⟨⟨15, 0x80000638⟩, ⟨false, 2, .none⟩, put F.FLT_CTL_INJ_EN 0 1 State.reset, by decide +kernel⟩,
    ⟨20, ⟨15, 0x200⟩, State.reset, by decide +kernel⟩,
    ⟨2, 84, putFBit F.EVT_PEND_PEND 2 20 true (put2 F.EVT_EN_EN 2 2 0x100000 State.reset), by decide +kernel⟩,
    ⟨2, State.reset, by decide +kernel⟩⟩

theorem test_firmware_and_management_interface_premises_1 :
    (∃ (k : Fin 4096) (x : Cmd) (s : State), adm s k 0x11 = some x ∧ inReady x = true ∧ 4 * cdw x 11 + adminIn x ≤ 0x600000) ∧
    (∃ (k : Fin 4096) (x : Cmd) (s : State), adm s k 0x11 = some x ∧ inReady x = true ∧ 0x600000 < 4 * cdw x 11 + adminIn x) ∧
    (∃ (k : Fin 4096) (x : Cmd) (s : State), fwCmd s k 0 = some x) ∧
    (∃ (k : Fin 4096) (x : Cmd) (s : State), fwCmd s k 1 = some x) ∧
    (∃ (k : Fin 4096) (x : Cmd) (s : State), fwCmd s k 2 = some x ∧ fwTarget s x ≤ 4) ∧
    (∃ (k : Fin 4096) (x : Cmd) (s : State), fwCmd s k 3 = some x ∧ s.mgt.act = none ∧ s.mgt.fresh = true) ∧
    (∃ (x : Activation) (s : State), s.mgt.act = some x ∧ x.phase = 1 ∧ (fld F.MGT_STAT_BOOT_SLOT 0 s) = 0) ∧
    (∃ (w : BusW) (x : Activation) (s : State), wrote1 31 w = true ∧ (put F.MGT_ACT_GO 0 1 (busWrite R.MGT_ACT 0 0 w
      s)).mgt.act = some x ∧ x.phase = 2) ∧
    (∃ (w : BusW) (x : Activation) (s : State), wrote1 30 w = true ∧ (put F.MGT_ACT_DONE 0 1 (busWrite R.MGT_ACT 0 0 w
      s)).mgt.act = some x ∧ x.phase = 3) ∧
    (∃ (x : Activation) (s : State), s.mgt.act = some x ∧ x.phase = 3 ∧ x.t + 1000000 * min 120 (fld1 F.MGT_ACT_TMO 0 s) ≤
      s.time) ∧
    (∃ (h : Byte) (op : BitVec 2) (e : BitVec 8) (s : State), miUp s = true ∧ op.toNat < 2 ∧ 8 ≤ e.toNat ∧ e.toNat ≠ 255) ∧
    (∃ (h : Byte) (op : BitVec 2) (e : BitVec 8) (s : State), miUp s = true ∧ e.toNat < 8) :=
  ⟨⟨3, { cmd0 0 0x11 0 [0, 0] .run with got := 4, data := [1, 2, 3, 4] }, setCmd
      { cmd0 0 0x11 0 [0, 0] .run with got := 4, data := [1, 2, 3, 4] } landReady, by decide +kernel⟩,
    ⟨3, { cmd0 0 0x11 0 [0, 0x180000] .run with got := 4, data := [1, 2, 3, 4] }, setCmd
      { cmd0 0 0x11 0 [0, 0x180000] .run with got := 4, data := [1, 2, 3, 4] } landReady, by decide +kernel⟩,
    ⟨3, cmd0 0 0x10 0 [1] .run, setCmd (cmd0 0 0x10 0 [1] .run) (hostOn), by decide +kernel⟩,
    ⟨3, cmd0 0 0x10 0 [9] .run, setCmd (cmd0 0 0x10 0 [9] .run) (hostOn), by decide +kernel⟩,
    ⟨3, cmd0 0 0x10 0 [17] .run, setCmd (cmd0 0 0x10 0 [17] .run) (hostOn), by decide +kernel⟩,
    ⟨3, cmd0 0 0x10 0 [25] .run, setCmd (cmd0 0 0x10 0 [25] .run) ({ hostOn with mgt := { hostOn.mgt with fresh := true } }),
      by decide +kernel⟩,
    ⟨⟨1, 0, 1, false, 0⟩, { landReady with mgt := { act := some ⟨1, 0, 1, false, 0⟩ }, nor := memAt (slotAddr 1)
                                             (List.replicate 64 (byte 0)) }, by decide +kernel⟩,
    ⟨⟨15, 0x80000000⟩, ⟨2, 0, 1, false, 0⟩, put F.CFG_TXN_STAT_STATE 0 2
      { landReady with mgt := { act := some ⟨2, 0, 1, false, 0⟩ } }, by decide +kernel⟩,
    ⟨⟨15, 0x40000000⟩, ⟨3, 0, 1, false, 0⟩, { landReady with mgt := { act := some ⟨3, 0, 1, false, 0⟩ } }, by decide +kernel⟩,
    ⟨⟨3, 0, 1, false, 0⟩, { landReady with time := 1000000000000, mgt := { act := some ⟨3, 0, 1, false, 0⟩ } },
      by decide +kernel⟩,
    ⟨1, 0, 9, miState, by decide +kernel⟩,
    ⟨1, 0, 7, miState, by decide +kernel⟩⟩

theorem test_firmware_and_management_interface_premises_2 :
    (∃ (h : Byte) (ty : Byte) (s : State), (ty = 0xFF ∨ ty = 0 ∨ ty = 4)) ∧
    (∃ (h : Byte) (ty : Byte) (s : State), ty = 5) ∧
    (∃ (h : Byte) (p : BitVec 8) (ctl : BitVec 16) (s : State), p.toNat ≤ 1) ∧
    (∃ (h : Byte) (p : BitVec 8) (ctl : BitVec 16) (f : Nat) (s : State), (miFns s).find? (fun f => f + 1 == ctl.toNat) = some
      f) ∧
    (∃ (h : Byte) (s : State), flag F.FLT_STAT_SAFE 0 s = false) ∧
    (∃ (h : Byte) (v : BitVec 16) (s : State), miUp s = true ∧ (v = 1 ∨ v = 2)) ∧
    (∃ (h : Byte) (v : BitVec 16) (s : State), miUp s = true ∧ 64 ≤ v.toNat) ∧
    (∃ (h : Byte) (f : BitVec 16) (n : BitVec 16) (s : State), f.toNat + n.toNat ≤ ((recBlob s 3).take 256).length) :=
  ⟨⟨1, 4, miState, by decide +kernel⟩,
    ⟨1, 5, miState, by decide +kernel⟩,
    ⟨1, 1, 0, miState, by decide +kernel⟩,
    ⟨1, 1, 1, 0, miState, by decide +kernel⟩,
    ⟨1, miState, by decide +kernel⟩,
    ⟨1, 2, miState, by decide +kernel⟩,
    ⟨1, 64, miState, by decide +kernel⟩,
    ⟨1, 0, 0, miState, by decide +kernel⟩⟩

theorem test_management_duties_premises_1 :
    (∃ (s : State), s.cpr.stage = 2 ∧ flag F.CPR_PL_LOSS 0 s = false) ∧
    (∃ (w : BusW) (s : State), wrote1 0 w = true) ∧
    (∃ (w : BusW) (s : State), flag F.MGT_WDT_EN 0 s = false ∧ wrote1 31 w = true) ∧
    (∃ (s : State), flag F.MGT_WDT_EN 0 s = true ∧ s.cpr.lyHeld = false ∧ s.mgt.wdt + 1000000 * fld1 F.MGT_WDT_TMO 0 s ≤
      s.time) ∧
    (∃ (s : State), mgtRuns s = true ∧ s.mgt.saved + fld1 F.MGT_CTL_SAVE_S 0 s ≤ fld F.BLZ_TIME_SECONDS 0 s) ∧
    (∃ (ts : List (BitVec 16)) (s : State), mgtOn s = true) ∧
    (∃ (n : Fin 4) (v : Int) (s : State), mgtOn s = true ∧ flag F.MGT_THM_EN n s = false) ∧
    (∃ (n : Fin 4) (v : Int) (s : State), mgtOn s = true ∧ flag F.MGT_THM_EN n s = true ∧ 0 < v ∧ v < 1200000000) ∧
    (∃ (n : Fin 4) (s : State), mgtOn s = true ∧ flag F.MGT_THM_EN n s = true ∧ flag F.MGT_THM_OPEN n s = false ∧ 100 ≤
      Tab.get s.mgt.rails 0 n.val) ∧
    (∃ (n : Fin 6) (v : Int) (i : Int) (s : State), mgtOn s = true ∧ n.val ≠ 3) ∧
    (∃ (sl : List (BitVec 16)) (s : State), mgtOn s = true) ∧
    (∃ (r : Fin 72) (m : Nat) (s : State), mgtRuns s = true ∧ flag F.MGT_CTL_WEAR_EN 0 s = true ∧ wearFenced s r = false ∧
      wearDue s r (powerHours s) = true ∧ (wearFit (powerHours s)
      { (Tab.get s.mgt.wear {} r) with hist := ((powerHours s, m) :: (Tab.get s.mgt.wear {} r).hist).take 64 }).state ≠ 3) :=
  ⟨⟨{ State.reset with cpr := { State.reset.cpr with stage := 2 } }, by decide +kernel⟩,
    ⟨⟨15, 1⟩, State.reset, by decide +kernel⟩,
    ⟨⟨15, 0x80000000⟩, put F.MGT_WDT_EN 0 0 State.reset, by decide +kernel⟩,
    ⟨put F.MGT_WDT_EN 0 1 { State.reset with time := 1000000000000, cpr := { State.reset.cpr with lyHeld := false } },
      by decide +kernel⟩,
    ⟨put F.BLZ_TIME_SECONDS 0 1000000000 mgtState, by decide +kernel⟩,
    ⟨[300, 301], mgtState, by decide +kernel⟩,
    ⟨2, 5, put F.MGT_THM_EN 2 0 mgtState, by decide +kernel⟩,
    ⟨2, 600000000, put F.MGT_THM_EN 2 1 mgtState, by decide +kernel⟩,
    ⟨2, put F.MGT_THM_EN 2 1 { mgtState with mgt := { mgtState.mgt with rails := [(2, 100)] } }, by decide +kernel⟩,
    ⟨2, 700000000, 600000000, mgtState, by decide +kernel⟩,
    ⟨[1, 2], mgtState, by decide +kernel⟩,
    ⟨70, 5, put F.MGT_CTL_WEAR_EN 0 1 mgtState, by decide +kernel⟩⟩

theorem test_management_duties_premises_2 :
    (∃ (w : BusW) (s : State), wrote1 31 w = true ∧ flag F.MGT_CTL_FUSE_EN 0 (busWrite R.MGT_FUSE 0 0 w s) = true ∧ (busWrite
      R.MGT_FUSE 0 0 w s).mgt.burn = none) ∧
    (∃ (op : Nat) (v : Nat) (s : State), s.mgt.burn = some (op, v)) ∧
    (∃ (op : Nat) (v : Nat) (s : State), s.mgt.burn = some (op, v)) :=
  ⟨⟨⟨15, 0x80000003⟩, put F.MGT_CTL_FUSE_EN 0 1 mgtState, by decide +kernel⟩,
    ⟨0, 3, { mgtState with mgt := { burn := some (0, 3) } }, by decide +kernel⟩,
    ⟨0, 3, { mgtState with mgt := { burn := some (0, 3) } }, by decide +kernel⟩⟩

theorem test_clocks_power_and_resets_premises_1 :
    (∃ (i : Fin 6) (s : State), monArmed s i = true ∧ bit F.CPR_CLKMON_LOST 0 i s = false) ∧
    (∃ (i : Fin 6) (s : State), bit F.CPR_CLKMON_LOST 0 i s = true ∧ (i.val = 5 ∨ i.val = 1) ∧ fld F.CPR_CLKMON_LOST 0
      (raiseEvent 142 (condFalls (8 + i) (putFBit F.CPR_CLKMON_LOST 0 i false s))) = 0) ∧
    (∃ (w : BusW) (s : State), wrote1 0 w = true) ∧
    (∃ (w : BusW) (s : State), wrote1 1 w = true ∧ (fld F.CPR_RETRACT_CAUSE 0 s).testBit 1 = false ∧ (fld F.CPR_RETRACT_CAUSE
      0 s).testBit 2 = false ∧ (fld F.CPR_RETRACT_CAUSE 0 s).testBit 3 = false ∧ retractLow s = true) ∧
    (∃ (a : Fin 4) (w : BusW) (s : State), wrote1 a w = true ∧ armUp (pdWrite w s) a = false ∧ flag F.CPR_PL_LOSS 0 (pdWrite w
      s) = false) ∧
    (∃ (a : Fin 4) (w : BusW) (s : State), wrote0 a w = true ∧ mode (pdWrite w s) a < 2 ∧ armUp (putFBit F.CPR_PD_ARM_ON 0 a
      false (pdWrite w s)) a = true) ∧
    (∃ (w : BusW) (s : State), wrote1 8 w = true) ∧
    (∃ (s : State), fabOff s = false ∧ standbyOk s = true) ∧
    (∃ (s : State), fabOff s = true ∧ spmSt s = 0 ∧ spmSt (put F.CPR_PD_STAT_LEVEL 0 0 (put F.CPR_PD_STAT_FAB_RET 0 0 (put
      F.CPR_PD_STANDBY 0 0 s))) = 0) ∧
    (∃ (w : BusW) (s : State), wrote1 10 w = true) ∧
    (∃ (s : State), s.cpr.aonSleep = false ∧ s.cpr.perst = true ∧ flag F.CPR_PD_AON_OK 0 s = true ∧ s.cpr.stage ≠ 0 ∧
      s.cpr.perstAt + 1000000 * fld1 F.CPR_PD_PERST_MS 0 s ≤ s.time) ∧
    (∃ (s : State), s.cpr.aonSleep = true) :=
  ⟨⟨0, State.reset, by decide +kernel⟩,
    ⟨1, putFBit F.CPR_CLKMON_LOST 0 1 true State.reset, by decide +kernel⟩,
    ⟨⟨15, 1⟩, State.reset, by decide +kernel⟩,
    ⟨⟨15, 2⟩, put F.CPR_RETRACT_LOW 0 1 State.reset, by decide +kernel⟩,
    ⟨1, ⟨15, 2⟩, State.reset, by decide +kernel⟩,
    ⟨1, ⟨15, 0⟩, putFBit F.CPR_PD_STAT_ARM_UP 0 1 true State.reset, by decide +kernel⟩,
    ⟨⟨15, 0x100⟩, State.reset, by decide +kernel⟩,
    ⟨put F.CFG_PSTATE 0 3 (put F.HIF_LINK_STAT_LSTATE 0 6 (put F.SPM_STAT_STATE 0 1 (put F.CPR_PD_STANDBY 0 1 hostOn))),
      by decide +kernel⟩,
    ⟨put F.CPR_PD_STAT_FAB_RET 0 1 (put F.SPM_STAT_STATE 0 0 State.reset), by decide +kernel⟩,
    ⟨⟨15, 0x400⟩, State.reset, by decide +kernel⟩,
    ⟨put F.CPR_PD_AON_OK 0 1 { State.reset with time := 1000000000000, cpr :=
                                                  { State.reset.cpr with stage := 3, perst := true } }, by decide +kernel⟩,
    ⟨{ State.reset with cpr := { State.reset.cpr with aonSleep := true } }, by decide +kernel⟩⟩

theorem test_clocks_power_and_resets_premises_2 :
    (∃ (b : Bool) (s : State), s.cpr.supplies = false) ∧
    (∃ (s : State), s.cpr.supplies = true) ∧
    (∃ (s : State), s.cpr.supplies = true ∧ s.cpr.aonSleep = false ∧ s.cpr.stage = 0 ∧ flag F.CPR_PL_LOSS 0 s = false) ∧
    (∃ (s : State), s.cpr.stage = 1 ∧ s.cpr.testMode = false) ∧
    (∃ (w : BusW) (s : State), wrote1 0 w = true ∧ s.cpr.stage = 3) ∧
    (∃ (s : State), s.cpr.warm = true ∧ flag F.FLT_STAT_SAFE 0 s = false ∧ flag F.CPR_PL_LOSS 0 s = false) ∧
    (∃ (c : Fin 4) (w : BusW) (s : State), wrote1 1 w = true ∧ s.cpr.stage = 3) ∧
    (∃ (s : State), s.cpr.lyHeld = true ∧ s.cpr.stage = 3 ∧ lyFault s = false ∧ flag F.CPR_PL_LOSS 0 s = false) :=
  ⟨⟨false, { State.reset with cpr := { State.reset.cpr with supplies := false } }, by decide +kernel⟩,
    ⟨{ State.reset with cpr := { State.reset.cpr with supplies := true } }, by decide +kernel⟩,
    ⟨{ State.reset with cpr := { State.reset.cpr with supplies := true } }, by decide +kernel⟩,
    ⟨{ State.reset with cpr := { State.reset.cpr with stage := 1 } }, by decide +kernel⟩,
    ⟨⟨15, 1⟩, hostOn, by decide +kernel⟩,
    ⟨{ hostOn with cpr := { hostOn.cpr with warm := true } }, by decide +kernel⟩,
    ⟨0, ⟨15, 2⟩, hostOn, by decide +kernel⟩,
    ⟨{ hostOn with cpr := { hostOn.cpr with lyHeld := true } }, by decide +kernel⟩⟩

theorem test_power_loss_dump_premises :
    (∃ (s : State), flag F.CPR_PL_PWRFAIL_EN 0 s = true ∧ s.cpr.stage ≠ 0) ∧
    (∃ (d : DumpRun) (p : Nat × Nat) (l : List Ecc) (s : State), s.cpr.dump = some d ∧ fld F.CPR_DUMP_CTL_STATE 0 s = 2 ∧
      d.page + 1 < dumpPages s ∧ dumpAt s d.remaps d.page = some p) ∧
    (∃ (d : DumpRun) (p : Nat × Nat) (sp : Nat) (l : List Ecc) (s : State), s.cpr.dump = some d ∧ fld F.CPR_DUMP_CTL_STATE 0 s
      = 2 ∧ d.page + 1 < dumpPages s ∧ dumpAt s d.remaps d.page = some p ∧ dumpSpare (dumpLook d.page l s) d.spares = some sp
      ∧ d.remaps.length < 8) ∧
    (∃ (d : DumpRun) (p : Nat × Nat) (b : Bool) (s : State), s.cpr.dump = some d ∧ fld F.CPR_DUMP_CTL_STATE 0 s = 2 ∧ d.page +
      1 = dumpPages s ∧ dumpHeaderAt s d = some p ∧ (put F.CPR_DUMP_STAT_PAGES 0 (d.page + 1) (nandProgram (dumpRow s p)
      (dumpHeader s d) s)).cpr.protMoved = false) ∧
    (∃ (d : DumpRun) (p : Nat × Nat) (b : Bool) (s : State), s.cpr.dump = some d ∧ fld F.CPR_DUMP_CTL_STATE 0 s = 2 ∧ d.page +
      1 = dumpPages s ∧ dumpHeaderAt s d = some p ∧ (put F.CPR_DUMP_STAT_PAGES 0 (d.page + 1) (nandProgram (dumpRow s p)
      (dumpHeader s d) s)).cpr.protMoved = true) ∧
    (∃ (w : BusW) (s : State), fld F.CPR_DUMP_CTL_STATE 0 (dumpCtlWrite w s) = 0 ∧ wrote1 0 w = true ∧ dumpNeed (dumpCtlWrite
      w s) ≤ (dumpEntries (dumpCtlWrite w s)).length) ∧
    (∃ (w : BusW) (s : State), fld F.CPR_DUMP_CTL_STATE 0 (dumpCtlWrite w s) = 0 ∧ wrote1 0 w = true ∧ (dumpEntries
      (dumpCtlWrite w s)).length < dumpNeed (dumpCtlWrite w s)) ∧
    (∃ (w : BusW) (s : State), fld F.CPR_DUMP_CTL_STATE 0 (dumpCtlWrite w s) = 0 ∧ wrote1 1 w = true ∧ flag F.CPR_PL_LOSS 0
      (dumpCtlWrite w s) = false) ∧
    (∃ (l : List Nat) (s : State), fld F.CPR_DUMP_CTL_STATE 0 s = 3 ∧ l.contains (dumpPages s - 1) = true) ∧
    (∃ (l : List Nat) (s : State), fld F.CPR_DUMP_CTL_STATE 0 s = 3 ∧ l.contains (dumpPages s - 1) = false) :=
  ⟨⟨put F.CPR_PL_PWRFAIL_EN 0 1 hostOn, by decide +kernel⟩,
    ⟨dump0, (0, 0), [], dumpState, by decide +kernel⟩,
    ⟨dump0, (0, 0), 1, [], dumpState, by decide +kernel⟩,
    ⟨{ dump0 with page := dumpPages dumpState - 1 }, ((dumpHeaderAt dumpState { dump0 with page := dumpPages dumpState - 1
                                                                                             }).getD (0, 0)), true,
      { dumpState with cpr := { dumpState.cpr with dump := some { dump0 with page := dumpPages dumpState - 1 } } },
      by decide +kernel⟩,
    ⟨{ dump0 with page := dumpPages dumpState - 1 }, ((dumpHeaderAt dumpState { dump0 with page := dumpPages dumpState - 1
                                                                                             }).getD (0, 0)), true,
      { dumpState with cpr := { dumpState.cpr with protMoved := true, dump := some
                                                     { dump0 with page := dumpPages dumpState - 1 } } }, by decide +kernel⟩,
    ⟨⟨1, 1⟩, put F.CPR_DUMP_CTL_STATE 0 0 dumpState, by decide +kernel⟩,
    ⟨⟨15, 1⟩, State.reset, by decide +kernel⟩,
    ⟨⟨15, 2⟩, State.reset, by decide +kernel⟩,
    ⟨[dumpPages (put F.CPR_DUMP_CTL_STATE 0 3 State.reset) - 1], put F.CPR_DUMP_CTL_STATE 0 3 State.reset, by decide +kernel⟩,
    ⟨[], put F.CPR_DUMP_CTL_STATE 0 3 State.reset, by decide +kernel⟩⟩

theorem test_register_access_premises :
    (∃ (a : Nat) (n : Nat) (d : Nat) (ep : Bool) (s : State), inBlock a = true ∧ a < landBase ∧ busAligned a n = true) ∧
    (∃ (a : Nat) (n : Nat) (d : Nat) (ep : Bool) (s : State), inBlock a = true ∧ a < landBase ∧ busAligned a n = false) ∧
    (∃ (a : Nat) (n : Nat) (d : Nat) (ep : Bool) (s : State), inBlock a = false ∧ a < landBase ∧ inSram a n = true) ∧
    (∃ (a : Nat) (n : Nat) (d : Nat) (ep : Bool) (s : State), inBlock a = false ∧ a < landBase ∧ inSram a n = false ∧ inCmb a
      n = false) ∧
    (∃ (a : Nat) (n : Nat) (s : State), inBlock a = true ∧ a < landBase ∧ busAligned a n = true ∧ fenceWaits s a n = none) ∧
    (∃ (a : Nat) (n : Nat) (k : Fin 4) (s : State), inBlock a = true ∧ a < landBase ∧ busAligned a n = true ∧ fenceWaits s a n
      = some k) ∧
    (∃ (a : Nat) (n : Nat) (s : State), inBlock a = false ∧ a < landBase ∧ inSram a n = true) ∧
    (∃ (a : Nat) (n : Nat) (s : State), inBlock a = true ∧ a < landBase ∧ busAligned a n = false) ∧
    (∃ (a : Nat) (n : Nat) (d : Nat) (ep : Bool) (p : Nat) (s : State), 0x10000 < a + n ∧ lyoSram a n = some p) :=
  ⟨⟨R.BLZ_CTL.base, 4, 1, false, State.reset, by decide +kernel⟩,
    ⟨R.BLZ_CTL.base + 1, 4, 1, false, State.reset, by decide +kernel⟩,
    ⟨sramBase, 4, 1, false, State.reset, by decide +kernel⟩,
    ⟨0, 4, 1, false, State.reset, by decide +kernel⟩,
    ⟨R.BLZ_CTL.base, 4, State.reset, by decide +kernel⟩,
    ⟨R.LND_FFENCE.base, 4, 0, fenceHeld, by decide +kernel⟩,
    ⟨sramBase, 4, State.reset, by decide +kernel⟩,
    ⟨R.BLZ_CTL.base + 1, 4, State.reset, by decide +kernel⟩,
    ⟨0x10000000, 4, 1, false, 0, State.reset, by decide +kernel⟩⟩

end Sys2Proof.Tests
end

section
/-! PROOFS. Every command answers a next state, and what it keeps: one lemma per command, from the lemmas of Laws/Keeps*.lean about the
shared operations; then the statements that are about all commands. -/

namespace Sys2Proof.Proofs

open Sys2Proof Sys2Proof.Machine Sys2Proof.Laws

/-- The command answers a next state, and from `s` to it everything stays that `Keeps` names. -/
def Runs (s : State) (o : Answer) : Prop := ∃ t, o = .next t ∧ Keeps s t

section
variable {s u : State}

theorem Runs.next {t : State} (h : Keeps s t) : Runs s (.next t) := ⟨t, rfl, h⟩

theorem Runs.ite {c : Prop} [Decidable c] {a b : Answer} (ha : Runs s a) (hb : Runs s b) :
    Runs s (if c then a else b) := by
  split <;> assumption

/-! ### Machine/Deck.lean -/

theorem execAdmitEntry_runs (h : Keeps s u) : Runs s (execAdmitEntry u) := by
  unfold execAdmitEntry
  refine .next ?_
  split
  · exact admitFrom_keeps _ _ h
  · exact fetchAll_keeps h

theorem execChokerEntryTake_runs (h : Keeps s u) : Runs s (execChokerEntryTake u) := by
  unfold execChokerEntryTake
  split
  · exact .next h
  · exact .next (chkEnter_keeps _ _ _ _ _ (setCmd_keeps _ h))

theorem execChokerGrant_runs (h : Keeps s u) : Runs s (execChokerGrant u) := by
  unfold execChokerGrant
  split
  · exact .next h
  · dsimp only
    split
    · exact .next (cmdGranted_keeps _ (chkGrant_keeps _ h))
    · exact .next (raiseEvent_keeps _ (put_keeps _ _ _ (put_keeps _ _ _ (chkGrant_keeps _ h))))
    · exact .next (salvGranted_keeps _ (chkGrant_keeps _ h))
    · exact .next (cruiseGranted_keeps (chkGrant_keeps _ h))

theorem execCompletionPost_runs (f : Fin 64) (q : Fin 65) (h : Keeps s u) : Runs s (execCompletionPost f q u) := by
  unfold execCompletionPost
  dsimp -zeta only
  split
  · exact .next h
  · split
    · exact .next h
    · refine Runs.ite (.next h) ?_
      extract_lets +onlyGivenNames t1 tail t2 t3
      have h2 : Keeps s t2 := setCq_keeps _ _ _ (toHost_keeps _ h)
      clear_value t2
      have h3 : Keeps s t3 := by
        dsimp only [t3]
        split
        · exact h2
        · split
          · exact h2
          · exact orderGo_keeps _ _ (dropCmd_keeps _ (chkRelease_keeps _ (histPost_keeps _ (tallyPost_keeps _ h2))))
      exact .next (fetchAll_keeps (Keeps.ite (signal_keeps _ _ _ h3) h3))

theorem execTlerExpire_runs (slot : Fin 4096) (h : Keeps s u) : Runs s (execTlerExpire slot u) := by
  unfold execTlerExpire
  split
  · exact .next h
  · refine .ite (.next h) ?_
    refine .next (orderGo_keeps _ _ (cmdEndAt_keeps _ _ _ _ (chkRelease_keeps _ (dropReqs_keeps _ ?_))))
    split
    · exact withdraw_keeps _ h
    · exact h

theorem execCoalesceTimeout_runs (f : Fin 64) (v : Fin 2048) (h : Keeps s u) :
    Runs s (execCoalesceTimeout f v u) := by
  unfold execCoalesceTimeout
  refine .next ?_
  split
  · exact h
  · exact Keeps.ite h (Keeps.ite (unsigFire_keeps _ _ h) (setFn_keeps _ _ h))

/-! ### Machine/IoCmd.lean -/

theorem execRead_runs (slot : Fin 4096) (l : LandBufs) (h : Keeps s u) : Runs s (execRead slot l u) := by
  unfold execRead
  refine .next ?_
  split
  · exact startUnits_keeps _ _ h
  · exact h

theorem execOrderedRead_runs (slot : Fin 4096) (l : LandBufs) (h : Keeps s u) :
    Runs s (execOrderedRead slot l u) := by
  unfold execOrderedRead
  refine .next ?_
  split
  · exact startUnits_keeps _ _ h
  · exact h

theorem execVerify_runs (slot : Fin 4096) (l : LandBufs) (h : Keeps s u) : Runs s (execVerify slot l u) := by
  unfold execVerify
  refine .next ?_
  split
  · exact startUnits_keeps _ _ h
  · exact h

theorem execCompare_runs (slot : Fin 4096) (l : LandBufs) (h : Keeps s u) : Runs s (execCompare slot l u) := by
  unfold execCompare
  refine .next ?_
  split
  · exact startUnits_keeps _ _ h
  · exact h

theorem execWrite_runs (slot : Fin 4096) (l : LandBufs) (h : Keeps s u) : Runs s (execWrite slot l u) := by
  unfold execWrite
  refine .next ?_
  split
  · exact startWrite_keeps _ _ h
  · exact h

theorem execOrderedWrite_runs (slot : Fin 4096) (l : LandBufs) (h : Keeps s u) :
    Runs s (execOrderedWrite slot l u) := by
  unfold execOrderedWrite
  refine .next ?_
  split
  · exact startWrite_keeps _ _ h
  · exact h

theorem execWriteZeroes_runs (slot : Fin 4096) (l : LandBufs) (h : Keeps s u) :
    Runs s (execWriteZeroes slot l u) := by
  unfold execWriteZeroes
  refine .next ?_
  split
  · exact startWrite_keeps _ _ h
  · exact h

theorem execWriteDataReceived_runs (slot : Fin 4096) (h : Keeps s u) : Runs s (execWriteDataReceived slot u) := by
  unfold execWriteDataReceived
  refine .next ?_
  split
  · exact orderGo_keeps _ _ (writeCommit_keeps _ h)
  · exact writeCommit_keeps _ h

theorem execFlush_runs (slot : Fin 4096) (h : Keeps s u) : Runs s (execFlush slot u) := by
  unfold execFlush
  refine .next ?_
  split
  · exact h
  · exact Keeps.ite h (orderGo_keeps _ _ (cmdEnd_keeps _ _ _ h))

theorem execBarrier_runs (slot : Fin 4096) (h : Keeps s u) : Runs s (execBarrier slot u) := by
  unfold execBarrier
  refine .next ?_
  split
  · exact h
  · refine Keeps.ite h ?_
    split
    · exact h
    · extract_lets +onlyGivenNames brk t1 t2
      have h1 : Keeps s t1 := cmdEnd_keeps _ _ _ h
      have h2 : Keeps s t2 := by
        dsimp only [t2]
        split
        · exact setSq_keeps _ _ _ h1
        · exact h1
      exact orderGo_keeps _ _ (Keeps.ite (breakQueue_keeps _ _ h2) h2)

/-! ### Machine/AdminCmd.lean -/

theorem execCreateIoCq_runs (slot : Fin 4096) (h : Keeps s u) : Runs s (execCreateIoCq slot u) := by
  unfold execCreateIoCq
  refine .next ?_
  split
  · exact h
  · refine Keeps.ite (admEnd_keeps _ _ _ h) (Keeps.ite (admEnd_keeps _ _ _ h) ?_)
    refine Keeps.ite (admEnd_keeps _ _ _ h) (Keeps.ite (admEnd_keeps _ _ _ h) ?_)
    exact Keeps.ite (admEnd_keeps _ _ _ h) (admEnd_keeps _ _ _ (setCq_keeps _ _ _ h))

theorem execCreateIoSq_runs (slot : Fin 4096) (h : Keeps s u) : Runs s (execCreateIoSq slot u) := by
  unfold execCreateIoSq
  refine .next ?_
  split
  · exact h
  · refine Keeps.ite (admEnd_keeps _ _ _ h) (Keeps.ite (admEnd_keeps _ _ _ h) ?_)
    refine Keeps.ite (admEnd_keeps _ _ _ h) (Keeps.ite (admEnd_keeps _ _ _ h) ?_)
    exact Keeps.ite (admEnd_keeps _ _ _ h) (admEnd_keeps _ _ _ (setSq_keeps _ _ _ h))

theorem execDeleteIoSq_runs (slot : Fin 4096) (h : Keeps s u) : Runs s (execDeleteIoSq slot u) := by
  unfold execDeleteIoSq
  refine .next ?_
  split
  · exact h
  · refine Keeps.ite (admEnd_keeps _ _ _ h) ?_
    exact admEnd_keeps _ _ _ (setFn_keeps _ _ (flushReqs_keeps _ (each_keeps
      (fun _ _ hv => resolveWith_keeps _ _ hv) _ h)))

theorem execDeleteIoCq_runs (slot : Fin 4096) (h : Keeps s u) : Runs s (execDeleteIoCq slot u) := by
  unfold execDeleteIoCq
  refine .next ?_
  split
  · exact h
  · extract_lets +onlyGivenNames f q
    split
    · exact admEnd_keeps _ _ _ h
    · refine Keeps.ite (admEnd_keeps _ _ _ h) (Keeps.ite (admEnd_keeps _ _ _ h) ?_)
      extract_lets +onlyGivenNames t1 r t2
      have h1 : Keeps s t1 := by
        refine each_keeps (fun e v hv => ?_) _ h
        split
        · refine dropCmd_keeps _ (chkRelease_keeps _ ?_)
          split
          · exact Keeps.ite (orphan_keeps _ hv) hv
          · exact hv
        · exact hv
      have h2 : Keeps s t2 := setFn_keeps _ _ h1
      exact admEnd_keeps _ _ _ (Keeps.ite (intxUpdate_keeps h2) h2)

theorem execAbort_runs (slot : Fin 4096) (h : Keeps s u) : Runs s (execAbort slot u) := by
  unfold execAbort
  refine .next ?_
  split
  · exact h
  · extract_lets +onlyGivenNames q id live l
    split
    next i t e =>
      have ht : Keeps s t := by
        split at e
        · exact takeFree_of h e
        · cases e; exact h
      refine Keeps.ite (admEnd_keeps _ _ _ ht) ?_
      split
      · exact admEnd_keeps _ _ _ ht
      · exact Keeps.ite (admEnd_keeps _ _ _ ht)
          (orderGo_keeps _ _ (admEnd_keeps _ _ _ (setFn_keeps _ _ (resolveWith_keeps _ _ ht))))

theorem execAsyncEventRequest_runs (slot : Fin 4096) (h : Keeps s u) : Runs s (execAsyncEventRequest slot u) := by
  unfold execAsyncEventRequest
  refine .next ?_
  split
  · exact h
  · dsimp only
    split
    · exact admEnd_keeps _ _ _ (setFn_keeps _ _ h)
    · exact Keeps.ite (admEnd_keeps _ _ _ h) (setCmd_keeps _ (setFn_keeps _ _ h))

theorem execSetFeatures_runs (slot : Fin 4096) (h : Keeps s u) : Runs s (execSetFeatures slot u) := by
  unfold execSetFeatures
  refine .next ?_
  split
  · exact h
  · dsimp only
    split
    · exact admEnd_keeps _ _ _ h
    · refine Keeps.ite (admEnd_keeps _ _ _ h) (Keeps.ite (admEnd_keeps _ _ _ h) ?_)
      refine Keeps.ite (Keeps.ite (admEnd_keeps _ _ _ (setFn_keeps _ _ h)) (admEnd_keeps _ _ _ h)) ?_
      refine Keeps.ite (admEnd_keeps _ _ _ h) (Keeps.ite ?_ ?_)
      · refine Keeps.ite (admEnd_keeps _ _ _ h) ?_
        exact Keeps.ite (admEnd_keeps _ _ _ h) (admEnd_keeps _ _ _ (setFn_keeps _ _ h))
      · refine Keeps.ite (Keeps.ite (admEnd_keeps _ _ _ h) (admEnd_keeps _ _ _ (setFn_keeps _ _ h))) ?_
        refine Keeps.ite (Keeps.ite (admEnd_keeps _ _ _ h) (admEnd_keeps _ _ _ (setFn_keeps _ _ h))) ?_
        exact admEnd_keeps _ _ _ (setFn_keeps _ _ h)

theorem execGetFeatures_runs (slot : Fin 4096) (h : Keeps s u) : Runs s (execGetFeatures slot u) := by
  unfold execGetFeatures
  refine .next ?_
  split
  · exact h
  · exact Keeps.ite (admEnd_keeps _ _ _ h) (admEnd_keeps _ _ _ h)

theorem execIdentify_runs (slot : Fin 4096) (h : Keeps s u) : Runs s (execIdentify slot u) := by
  unfold execIdentify
  refine .next ?_
  split
  · exact h
  · refine Keeps.ite h ?_
    split
    · exact Keeps.ite (admSend_keeps _ _ _ h) (Keeps.ite (admEnd_keeps _ _ _ h) (admSend_keeps _ _ _ h))
    · exact admSend_keeps _ _ _ h
    · exact admSend_keeps _ _ _ h
    · exact Keeps.ite (admEnd_keeps _ _ _ h) (admSend_keeps _ _ _ h)
    · exact admSend_keeps _ _ _ h
    · exact Keeps.ite (admEnd_keeps _ _ _ h) (admSend_keeps _ _ _ h)
    · exact Keeps.ite (admEnd_keeps _ _ _ h) (admSend_keeps _ _ _ h)
    · exact admSend_keeps _ _ _ h
    · exact Keeps.ite (admSend_keeps _ _ _ h) (admEnd_keeps _ _ _ h)
    · exact Keeps.ite (admSend_keeps _ _ _ h) (admEnd_keeps _ _ _ h)
    · exact admEnd_keeps _ _ _ h

theorem execVmSecondaryOffline_runs (slot : Fin 4096) (h : Keeps s u) : Runs s (execVmSecondaryOffline slot u) := by
  unfold execVmSecondaryOffline
  refine .next ?_
  split
  · exact h
  · split
    · exact admEnd_keeps _ _ _ h
    · exact admEnd_keeps _ _ _ (setFn_keeps _ _ (Keeps.ite (wr_keeps _ _ _ _ (wr_keeps _ _ _ _
        (fnResetDeck_keeps _ h))) h))

theorem execVmSecondaryAssign_runs (slot : Fin 4096) (h : Keeps s u) : Runs s (execVmSecondaryAssign slot u) := by
  unfold execVmSecondaryAssign
  refine .next ?_
  split
  · exact h
  · split
    · exact admEnd_keeps _ _ _ h
    · refine Keeps.ite (admEnd_keeps _ _ _ h) ?_
      refine Keeps.ite (Keeps.ite (admEnd_keeps _ _ _ h) (admEnd_keeps _ _ _ (setFn_keeps _ _ h))) ?_
      refine Keeps.ite (Keeps.ite (admEnd_keeps _ _ _ h) (admEnd_keeps _ _ _ (setFn_keeps _ _ h))) ?_
      refine Keeps.ite (Keeps.ite (admEnd_keeps _ _ _ h) (admEnd_keeps _ _ _ (setFn_keeps _ _ h))) ?_
      exact admEnd_keeps _ _ _ h

theorem execVmSecondaryOnline_runs (slot : Fin 4096) (h : Keeps s u) : Runs s (execVmSecondaryOnline slot u) := by
  unfold execVmSecondaryOnline
  refine .next ?_
  split
  · exact h
  · split
    · exact admEnd_keeps _ _ _ h
    · refine Keeps.ite (admEnd_keeps _ _ _ h) (admEnd_keeps _ _ _ ?_)
      refine Keeps.ite (readyUpdate_keeps _ ?_) (put_keeps _ _ _ (setFn_keeps _ _ h))
      refine Keeps.ite (adminQueues_keeps _ (put_keeps _ _ _ (setFn_keeps _ _ h))) ?_
      exact put_keeps _ _ _ (setFn_keeps _ _ h)

theorem execVmPrimaryFlex_runs (slot : Fin 4096) (h : Keeps s u) : Runs s (execVmPrimaryFlex slot u) := by
  unfold execVmPrimaryFlex
  refine .next ?_
  split
  · exact h
  · exact admEnd_keeps _ _ _ h

/-! ### Machine/ArmLink.lean -/

theorem execExec_runs (arm : Fin 4) (h : Keeps s u) : Runs s (execExec arm u) := by
  unfold execExec
  exact .next (Keeps.ite h (wantSend_keeps _ (execArm_keeps _ _ h)))

theorem execStatReceived_runs (arm : Fin 4) (f : StatFrame) (h : Keeps s u) :
    Runs s (execStatReceived arm f u) := by
  unfold execStatReceived
  dsimp only
  refine .next (Keeps.ite h (Keeps.ite (count_keeps _ _ h) ?_))
  split
  · exact discUp_keeps _ _ (statTake_keeps _ _ h)
  · refine Keeps.ite (statTake_keeps _ _ h) ?_
    exact wantSend_keeps _ (servoStat_keeps _ _ _ (senseIdle_keeps _ (persCheck_keeps _ _ (corrective_keeps _ _
      (wfaultCheck_keeps _ _ (statTake_keeps _ _ h))))))
  · exact statTake_keeps _ _ h

theorem execNakReceived_runs (arm : Fin 4) (ackSeq : BitVec 8) (crc : BitVec 16) (h : Keeps s u) :
    Runs s (execNakReceived arm ackSeq crc u) := by
  unfold execNakReceived
  refine .next (Keeps.ite h (Keeps.ite (count_keeps _ _ h) ?_))
  exact wantSend_keeps _ (resendAll_keeps _ (ackFrames_keeps _ _ (count_keeps _ _ h)))

theorem execRdataReceived_runs (arm : Fin 4) (seq : BitVec 8) (addr data crc : BitVec 16) (h : Keeps s u) :
    Runs s (execRdataReceived arm seq addr data crc u) := by
  unfold execRdataReceived
  refine .next (Keeps.ite h (Keeps.ite (count_keeps _ _ h) ?_))
  split
  · exact Keeps.ite (discReply_keeps _ _ _ h) h
  · exact Keeps.ite (put_keeps _ _ _ (put_keeps _ _ _ (setLink_keeps _ _ h))) h

theorem execAckTimeout_runs (arm : Fin 4) (h : Keeps s u) : Runs s (execAckTimeout arm u) := by
  unfold execAckTimeout
  exact .next (Keeps.ite (resendAll_keeps _ h) h)

theorem execUplinkCodeErrors_runs (arm : Fin 4) (n : Nat) (h : Keeps s u) :
    Runs s (execUplinkCodeErrors arm n u) := by
  unfold execUplinkCodeErrors
  exact .next (Keeps.ite h (Keeps.ite (linkFail_keeps _ (countN_keeps _ _ _ h)) (countN_keeps _ _ _ h)))

theorem execStatTimeout_runs (arm : Fin 4) (h : Keeps s u) : Runs s (execStatTimeout arm u) := by
  unfold execStatTimeout
  exact .next (Keeps.ite (linkFail_keeps _ h) h)

theorem execWkillRelease_runs (arm : Fin 4) (h : Keeps s u) : Runs s (execWkillRelease arm u) := by
  unfold execWkillRelease
  exact .next (Keeps.ite h (wantSend_keeps _ (put_keeps _ _ _ h)))

theorem execSenseDone_runs (arm : Fin 4) (gaps : List (List (BitVec 12))) (h : Keeps s u) :
    Runs s (execSenseDone arm gaps u) := by
  unfold execSenseDone
  dsimp only
  split
  · exact .next h
  · refine .ite (.next h) ?_
    exact .next (raiseEvent_keeps _ (sendFrame_keeps _ _ (put_keeps _ _ _ (put_keeps _ _ _ (put_keeps _ _ _
      (setLink_keeps _ _ h))))))

theorem execDiscUplinkIdle_runs (arm : Fin 4) (h : Keeps s u) : Runs s (execDiscUplinkIdle arm u) := by
  unfold execDiscUplinkIdle
  exact .next (Keeps.ite (each_keeps (fun _ _ hv => sendFrame_keeps _ _ hv) _ (setLink_keeps _ _ h)) h)

theorem execDiscAbsent_runs (arm : Fin 4) (h : Keeps s u) : Runs s (execDiscAbsent arm u) := by
  unfold execDiscAbsent
  exact .next (Keeps.ite (discFail_keeps _ _ h) h)

theorem execAutoRetrain_runs (arm : Fin 4) (h : Keeps s u) : Runs s (execAutoRetrain arm u) := by
  unfold execAutoRetrain
  exact .next (Keeps.ite (startDiscovery_keeps _ _ (setLink_keeps _ _ h)) h)

/-! ### Machine/Blaze.lean -/

theorem execBlazeWriteStart_runs (h : Keeps s u) : Runs s (execBlazeWriteStart u) := by
  unfold execBlazeWriteStart
  refine .next (Keeps.ite h ?_)
  split
  · exact put_keeps _ _ _ (Keeps.upd.2 h)
  · exact Keeps.upd.2 h

theorem execBlazeBodyProgrammed_runs (ok : Bool) (h : Keeps s u) : Runs s (execBlazeBodyProgrammed ok u) := by
  unfold execBlazeBodyProgrammed
  split
  · refine .ite (.next (Keeps.upd.2 (mirrorCopy_keeps _ _ (norProgram_keeps _ _ h)))) ?_
    exact .next (blzRetry_keeps _ (norSpoil_keeps _ _ h))
  · exact .next h

theorem execBlazeMarkProgrammed_runs (ok : Bool) (h : Keeps s u) : Runs s (execBlazeMarkProgrammed ok u) := by
  unfold execBlazeMarkProgrammed
  split
  · refine .ite ?_ (.next (blzRetry_keeps _ (norSpoil_keeps _ _ h)))
    exact .next (blzDropRec_keeps (blzNextSlot_keeps (Keeps.upd.2 (mirrorCopy_keeps _ _ (norProgram_keeps _ _ h)))))
  · exact .next h

theorem execBlazeEraseDone_runs (ok : Bool) (h : Keeps s u) : Runs s (execBlazeEraseDone ok u) := by
  unfold execBlazeEraseDone
  split
  · exact .next h
  next n _ =>
    refine Runs.ite (.next ?_) (.next ?_)
    · exact put_keeps _ _ _ ((norErase_keeps _ _ h).setNorMirror id clear_ok)
    · exact norFailed_keeps (Keeps.upd.2 h)

theorem execBlazeScanDone_runs (h : Keeps s u) : Runs s (execBlazeScanDone u) := by
  unfold execBlazeScanDone
  have cleared : Keeps s { u with mirror := [] } := h.setMirror (fun _ => ⟨rfl, rfl⟩)
  exact Runs.ite (.next h) (.next (blzQueue_keeps _ _ _ _
    (put_keeps _ _ _ (renumber_keeps _ (Keeps.upd.2 (mirrorCopy_keeps _ _ cleared))))))

/-! ### Machine/Parity.lean -/

theorem execDescReadUnit_runs (h : Keeps s u) : Runs s (execDescReadUnit u) := by
  unfold execDescReadUnit
  split
  · exact .next (descIdle_keeps h)
  · refine .ite (.next h) ?_
    dsimp only
    refine .ite (.next (opRefuse_keeps _ (descTake_keeps _ h))) ?_
    exact .next (readUnits_keeps _ _ (descTake_keeps _ h))

theorem execDescReadStg_runs (h : Keeps s u) : Runs s (execDescReadStg u) := by
  unfold execDescReadStg
  split
  · exact .next (descIdle_keeps h)
  · refine .ite (.next h) ?_
    dsimp only
    refine .ite (.next (opRefuse_keeps _ (descTake_keeps _ h))) ?_
    exact .next (startStaged_keeps _ _ _ _ (setOp_keeps _ (descTake_keeps _ h)))

theorem execDescWriteStg_runs (ecc : List Ecc) (h : Keeps s u) : Runs s (execDescWriteStg ecc u) := by
  unfold execDescWriteStg
  split
  · exact .next (descIdle_keeps h)
  · refine .ite (.next h) ?_
    dsimp only
    refine .ite (.next (opRefuse_keeps _ (sprLooks_keeps _ _ (descTake_keeps _ h)))) ?_
    refine .ite (.next (opRefuse_keeps _ (report_keeps _ _ _ _ _ _ (sprLooks_keeps _ _ (descTake_keeps _ h))))) ?_
    refine .ite (.next (opEnd_keeps _ _ (sprLooks_keeps _ _ (descTake_keeps _ h)))) ?_
    exact .next (stgTakeOp_keeps _ (sprLooks_keeps _ _ (sprLooks_keeps _ _ (descTake_keeps _ h))))

theorem execDescWriteStripe_runs (ecc : List Ecc) (h : Keeps s u) : Runs s (execDescWriteStripe ecc u) := by
  unfold execDescWriteStripe
  split
  · exact .next (descIdle_keeps h)
  · refine .ite (.next h) ?_
    dsimp only
    refine .ite (.next (opRefuse_keeps _ (descTake_keeps _ h))) ?_
    exact .next (stripeStart_keeps _ (sprLooks_keeps _ _ (descTake_keeps _ h)))

theorem execStagingWaitExpire_runs (h : Keeps s u) : Runs s (execStagingWaitExpire u) := by
  unfold execStagingWaitExpire
  exact .next (stgFlushDue_keeps _ h)

theorem execStagingRoom_runs (h : Keeps s u) : Runs s (execStagingRoom u) := by
  unfold execStagingRoom
  exact .next (stgStat_keeps (stgFlushDue_keeps _ h))

theorem execStripePassEnd_runs (h : Keeps s u) : Runs s (execStripePassEnd u) := by
  unfold execStripePassEnd
  split
  · exact .next h
  · refine .ite (.next (startHeld_keeps (passEndOk_keeps _ h))) (.ite ?_ ?_)
    · refine .ite (.next (startHeld_keeps (passFailed_keeps _ _ (passReport_keeps _ h)))) ?_
      exact .next (passIssue_keeps _ (count_keeps _ _ h))
    · refine .next (startHeld_keeps (passFailed_keeps _ _ ?_))
      split
      · exact h
      · exact report_keeps _ _ _ _ _ _ h

theorem execStripeRebuild_runs (h : Keeps s u) : Runs s (execStripeRebuild u) := by
  unfold execStripeRebuild
  split
  · exact .next h
  · dsimp only
    split
    · exact .next (ladderRebuild_keeps _ _ (countStale_keeps _ (dropRead_keeps _ h)))
    · split
      · exact .next (unitGive_keeps _ _ _ _ (noteLadder_keeps _ _ (countStale_keeps _ (dropRead_keeps _ h))))
      · refine .next ?_
        split
        · exact noteLadder_keeps _ _ (countStale_keeps _ (dropRead_keeps _ h))
        · exact unitUnrec_keeps _ _ (countUnrec_keeps (noteLadder_keeps _ _ (countStale_keeps _
            (dropRead_keeps _ h))))
    · exact .next (stagedGive_keeps _ _ _ _ _ (noteLadder_keeps _ _ (countStale_keeps _ (dropRead_keeps _ h))))
    · exact .next (countStale_keeps _ (dropRead_keeps _ h))

/-! ### Machine/Scheduler.lean -/

theorem execDecisionStart_runs (arm' : Fin 4) (h : Keeps s u) : Runs s (execDecisionStart arm' u) := by
  unfold execDecisionStart
  refine .next (Keeps.ite (govLimits_keeps (freeHolds_keeps (rebind_keeps (replan_keeps h)))) ?_)
  exact decideArm_keeps _ (freeHolds_keeps (rebind_keeps (replan_keeps h)))

theorem execItemDispatch_runs (arm' : Fin 4) (h : Keeps s u) : Runs s (execItemDispatch arm' u) := by
  unfold execItemDispatch
  dsimp only
  split
  · exact .next h
  · refine .ite (.next h) (.ite (.next (govLimits_keeps (undecide_keeps _ h))) (.ite ?_ ?_))
    · refine .next (govLimits_keeps (Keeps.ite (replanPass_keeps _ (undecide_keeps _ h)) ?_))
      exact replanRead_keeps _ (undecide_keeps _ h)
    · refine .ite (.next (govLimits_keeps (refuseItem_keeps _ _ (Keeps.upd.2 h)))) ?_
      exact .next (startItem_keeps _ _ (sendArm_keeps _ _ (countRetry_keeps _ (setItem_keeps _ (Keeps.upd.2 h)))))

theorem execItemEnd_runs (arm' : Fin 4) (h : Keeps s u) : Runs s (execItemEnd arm' u) := by
  unfold execItemEnd
  dsimp only
  split
  · exact .next h
  · refine .ite (.next h) ?_
    exact .next (wantSend_keeps _ (govLimits_keeps (dropItem_keeps _ (armTime_keeps _ _ (Keeps.upd.2 (each_keeps
      (fun _ _ hv => setHead_keeps _ _ hv) _ (Keeps.upd.2 h)))))))

theorem execItemUrgent_runs (h : Keeps s u) : Runs s (execItemUrgent u) := by
  unfold execItemUrgent
  split
  · exact .next h
  · exact .ite (.next h) (.next (urgentCtx_keeps _ (bindItem_keeps _ (count_keeps _ _ h))))

theorem execGovTick_runs (h : Keeps s u) : Runs s (execGovTick u) := by
  unfold execGovTick
  refine .next (govLimits_keeps (Keeps.upd.2 ?_))
  refine Keeps.ite ?_ (tickEnergy_keeps _ (put_keeps _ _ _ (put_keeps _ _ _ (Keeps.upd.2 h))))
  exact report_keeps _ _ _ _ _ _ (raiseEvent_keeps _ (count_keeps _ _ (put_keeps _ _ _ (tickEnergy_keeps _
    (put_keeps _ _ _ (put_keeps _ _ _ (Keeps.upd.2 h)))))))

theorem execGovOverClear_runs (h : Keeps s u) : Runs s (execGovOverClear u) := by
  unfold execGovOverClear
  exact .next (Keeps.ite (put_keeps _ _ _ h) h)

theorem execGovDerateUpdate_runs (h : Keeps s u) : Runs s (execGovDerateUpdate u) := by
  unfold execGovDerateUpdate
  exact .next (beffNow_keeps (put_keeps _ _ _ (put_keeps _ _ _ h)))

/-! ### Machine/Landing.lean -/

theorem execAmoAccess_runs (c : Fin 4) (op : AmoOp) (addr : Nat) (dbl : Bool) (x : BitVec 64) (e : Ecc)
    (h : Keeps s u) :
    Runs s (execAmoAccess c op addr dbl x e u) := by
  unfold execAmoAccess
  exact .next (accAmo_keeps _ _ _ _ _ _ h)

theorem execMergeEvictAge_runs (ecc : Ecc) (h : Keeps s u) : Runs s (execMergeEvictAge ecc u) := by
  unfold execMergeEvictAge
  refine .next ?_
  split
  · exact h
  · exact Keeps.ite h (evictEcc_keeps _ _ h)

theorem execLndTrainDone_runs (ok : Bool) (chFail : BitVec 2) (step : BitVec 4) (h : Keeps s u) :
    Runs s (execLndTrainDone ok chFail step u) := by
  unfold execLndTrainDone
  refine .ite (.next h) (.next (Keeps.ite ?_ ?_))
  · exact raiseEvent_keeps _ (put_keeps _ _ _ (put_keeps _ _ _ (put_keeps _ _ _ (put_keeps _ _ _ h))))
  · exact report_keeps _ _ _ _ _ _ (raiseEvent_keeps _ (put_keeps _ _ _ (put_keeps _ _ _ (put_keeps _ _ _
      (put_keeps _ _ _ h)))))

theorem execLndFillDone_runs (h : Keeps s u) : Runs s (execLndFillDone u) := by
  unfold execLndFillDone
  refine .ite (.next h) (.next (raiseEvent_keeps _ (put_keeps _ _ _ (put_keeps _ _ _ (Keeps.ite ?_ ?_)))))
  · exact upTo_keeps (fun _ _ hv => Keeps.ite hv (Keeps.ite (rowsLost_keeps _ _ hv) (putGranule_keeps _ _ hv))) _
      (Keeps.upd.2 h)
  · exact busError_keeps _ _ _ (upTo_keeps (fun _ _ hv => Keeps.ite hv (Keeps.ite (rowsLost_keeps _ _ hv)
      (putGranule_keeps _ _ hv))) _ (Keeps.upd.2 h))

theorem execLndScrubStep_runs (e : Ecc) (h : Keeps s u) : Runs s (execLndScrubStep e u) := by
  unfold execLndScrubStep
  refine .ite (.next h) ?_
  exact .next (Keeps.ite (eccRead_keeps _ _ _ (Keeps.upd.2 h)) (busError_keeps _ _ _ (Keeps.upd.2 h)))

theorem execLndRmapCopyDone_runs (k : Fin 32) (ecc : List Ecc) (h : Keeps s u) :
    Runs s (execLndRmapCopyDone k ecc u) := by
  unfold execLndRmapCopyDone
  refine .ite (.next h) (.next (heldRun_keeps (raiseEvent_keeps _ (put_keeps _ _ _ (put_keeps _ _ _ ?_)))))
  refine Keeps.ite ?_ ?_
  · exact rmapDup_keeps _ _ (rowsLost_keeps _ _ (upTo_keeps (fun _ _ hv => Keeps.ite (stamp_keeps _ _
      (eccRead_keeps _ _ _ hv)) (eccRead_keeps _ _ _ hv)) _ h))
  · exact upTo_keeps (fun _ _ hv => Keeps.ite (stamp_keeps _ _ (eccRead_keeps _ _ _ hv))
      (eccRead_keeps _ _ _ hv)) _ h

/-! ### Machine/Tally.lean -/

theorem execTallyPeriodExpire_runs (h : Keeps s u) : Runs s (execTallyPeriodExpire u) := by
  unfold execTallyPeriodExpire
  exact .next (Keeps.ite h (scaleAsk_keeps h))

theorem execTallyLatch_runs (h : Keeps s u) : Runs s (execTallyLatch u) := by
  unfold execTallyLatch
  refine .ite (.next h) ?_
  exact .next (each_keeps (fun _ _ hv => Keeps.ite (admEnd_keeps _ _ _ hv) hv) _ (put_keeps _ _ _ (Keeps.upd.2
    (latch_keeps h))))

theorem execTallyScale_runs (slot : Fin 4096) (h : Keeps s u) : Runs s (execTallyScale slot u) := by
  unfold execTallyScale
  refine .next ?_
  split
  · exact h
  · exact scaleAsk_keeps (setCmd_keeps _ h)

theorem execTallyHandshakeReq_runs (h : Keeps s u) : Runs s (execTallyHandshakeReq u) := by
  unfold execTallyHandshakeReq
  exact .ite (.next (count_keeps _ _ h)) (.ite (.next h) (.next (put_keeps _ _ _ (Keeps.upd.2 h))))

theorem execTallyHandshakeApply_runs (h : Keeps s u) : Runs s (execTallyHandshakeApply u) := by
  unfold execTallyHandshakeApply
  refine .ite (.next h) ?_
  exact .next (put_keeps _ _ _ (Keeps.upd.2 (each_keeps (fun _ _ hv => Keeps.ite (tally_keeps _ _ _ hv)
    (tallyDev_keeps _ _ hv)) _ h)))

theorem execTallyRead_runs (slot : Fin 4096) (h : Keeps s u) : Runs s (execTallyRead slot u) := by
  unfold execTallyRead
  refine .next ?_
  split
  · exact h
  · exact Keeps.ite h (Keeps.ite (admEnd_keeps _ _ _ h) (Keeps.ite (admEnd_keeps _ _ _ h) (admSend_keeps _ _ _ h)))

/-! ### Machine/Mgmt.lean -/

theorem execFwImageDownload_runs (slot : Fin 4096) (h : Keeps s u) : Runs s (execFwImageDownload slot u) := by
  unfold execFwImageDownload
  refine .next ?_
  split
  · exact h
  · refine Keeps.ite h (Keeps.ite (admEnd_keeps _ _ _ h) ?_)
    exact admEnd_keeps _ _ _ (Keeps.upd.2 (hwWrite_keeps _ _ _ _ _ h))

theorem execFwCommitStore_runs (slot : Fin 4096) (h : Keeps s u) : Runs s (execFwCommitStore slot u) := by
  unfold execFwCommitStore
  refine .next ?_
  split
  · exact h
  · exact fwStoring_keeps _ _ (fun _ _ hv => admEnd_keeps _ _ _ hv) h

theorem execFwCommitStoreNext_runs (slot : Fin 4096) (h : Keeps s u) : Runs s (execFwCommitStoreNext slot u) := by
  unfold execFwCommitStoreNext
  refine .next ?_
  split
  · exact h
  · exact fwStoring_keeps _ _ (fun _ _ hv => admEnd_keeps _ _ _ (selWrite_keeps _ _ hv)) h

theorem execFwCommitSlotNext_runs (slot : Fin 4096) (h : Keeps s u) : Runs s (execFwCommitSlotNext slot u) := by
  unfold execFwCommitSlotNext
  refine .next ?_
  split
  · exact h
  · refine Keeps.ite (admEnd_keeps _ _ _ h) (Keeps.ite (admEnd_keeps _ _ _ (imgCheck_keeps _ h)) ?_)
    exact admEnd_keeps _ _ _ (selWrite_keeps _ _ (imgCheck_keeps _ h))

theorem execFwCommitActivate_runs (slot : Fin 4096) (h : Keeps s u) : Runs s (execFwCommitActivate slot u) := by
  unfold execFwCommitActivate
  refine .next ?_
  split
  · exact h
  · refine Keeps.ite h (Keeps.ite (fwStoring_keeps _ _ (fun _ _ hv => setCmd_keeps _ (Keeps.upd.2 hv)) h) ?_)
    refine Keeps.ite (admEnd_keeps _ _ _ h) (Keeps.ite (admEnd_keeps _ _ _ (imgCheck_keeps _ h)) ?_)
    exact setCmd_keeps _ (Keeps.upd.2 (imgCheck_keeps _ h))

theorem execActStaged_runs (h : Keeps s u) : Runs s (execActStaged u) := by
  unfold execActStaged
  refine .next ?_
  split
  · refine Keeps.ite h ?_
    exact asyncAll_keeps _ _ (setAct_keeps _ (Keeps.ite (hwWrite_keeps _ _ _ _ _ h) (hwWrite_keeps _ _ _ _ _
      (hwWrite_keeps _ _ _ _ _ h))))
  · exact h

theorem execActTimeout_runs (h : Keeps s u) : Runs s (execActTimeout u) := by
  unfold execActTimeout
  refine .next ?_
  split
  · refine Keeps.ite h ?_
    exact blzEnter_keeps _ _ _ (actEnd_keeps _ _ (put_keeps _ _ _ (put_keeps _ _ _ (put_keeps _ _ _ (setAct_keeps _
      (segsLoad_keeps _ _ h))))))
  · exact h

theorem execWdtExpire_runs (h : Keeps s u) : Runs s (execWdtExpire u) := by
  unfold execWdtExpire
  exact .next (Keeps.ite (report_keeps _ _ _ _ _ _ (Keeps.upd.2 h)) h)

theorem execLifeRecordSave_runs (h : Keeps s u) : Runs s (execLifeRecordSave u) := by
  unfold execLifeRecordSave
  exact .next (Keeps.ite (lifeSave_keeps h) h)

theorem execThermalSample_runs (t : List (BitVec 16)) (h : Keeps s u) : Runs s (execThermalSample t u) := by
  unfold execThermalSample
  refine .next (Keeps.ite h ?_)
  exact dieCheckers_keeps _ (tempEvents_keeps _ _ (upTo_keeps (fun _ _ hv => put_keeps _ _ _ hv) _ h))

theorem execThermistorSample_runs (n : Fin 4) (v : Int) (h : Keeps s u) : Runs s (execThermistorSample n v u) := by
  unfold execThermistorSample
  refine .next (Keeps.ite h (thmChecker_keeps _ (Keeps.ite (put_keeps _ _ _ (Keeps.upd.2 h)) ?_)))
  exact Keeps.ite (Keeps.upd.2 h) (put_keeps _ _ _ (put_keeps _ _ _ (Keeps.upd.2 h)))

theorem execThermistorOpen_runs (n : Fin 4) (h : Keeps s u) : Runs s (execThermistorOpen n u) := by
  unfold execThermistorOpen
  exact .next (Keeps.ite h (thmChecker_keeps _ (raiseEvent_keeps _ (put_keeps _ _ _ (put_keeps _ _ _ h)))))

theorem execMonitorSample_runs (n : Fin 6) (volt amp : Int) (h : Keeps s u) :
    Runs s (execMonitorSample n volt amp u) := by
  unfold execMonitorSample
  refine .next (Keeps.ite h (monChecker_keeps _ _ ?_))
  refine Keeps.ite (powerLoss_keeps (Keeps.upd.2 (put_keeps _ _ _ (put_keeps _ _ _ h)))) ?_
  exact Keeps.upd.2 (put_keeps _ _ _ (put_keeps _ _ _ h))

theorem execRoSample_runs (slow : List (BitVec 16)) (h : Keeps s u) : Runs s (execRoSample slow u) := by
  unfold execRoSample
  exact .next (Keeps.ite h (upTo_keeps (fun _ _ hv => put_keeps _ _ _ hv) _ h))

theorem execWearSample_runs (r : Fin 72) (m : Nat) (h : Keeps s u) : Runs s (execWearSample r m u) := by
  unfold execWearSample
  exact .next (Keeps.ite h (Keeps.ite (wornNow_keeps (Keeps.upd.2 h)) (Keeps.upd.2 h)))

/-! ### Machine/ReadChannel.lean -/

theorem execLaneWake_runs (n : Fin 64) (h : Keeps s u) : Runs s (execLaneWake n u) := by
  unfold execLaneWake
  refine .next (govLimits_keeps (Keeps.ite ?_ h))
  split
  · exact Keeps.ite (setLane_keeps _ _ (put_keeps _ _ _ h)) (put_keeps _ _ _ h)
  · exact Keeps.ite (put_keeps _ _ _ h) (put_keeps _ _ _ (put_keeps _ _ _ h))

theorem execLaneWakeDone_runs (n : Fin 64) (h : Keeps s u) : Runs s (execLaneWakeDone n u) := by
  unfold execLaneWakeDone
  exact .next (Keeps.ite (put_keeps _ _ _ h) h)

theorem execLaneReadyHold_runs (n : Fin 64) (h : Keeps s u) : Runs s (execLaneReadyHold n u) := by
  unfold execLaneReadyHold
  refine .next (Keeps.ite ?_ h)
  exact govLimits_keeps (Keeps.ite (put_keeps _ _ _ h) (setLane_keeps _ _ (put_keeps _ _ _ h)))

theorem execProfileLoadDone_runs (n : Fin 64) (h : Keeps s u) : Runs s (execProfileLoadDone n u) := by
  unfold execProfileLoadDone
  dsimp only
  split
  · refine .ite (.next (loadProfile_keeps _ _ _ (setLane_keeps _ _ h))) (.next (readOpFail_keeps _ _ ?_))
    refine put_keeps _ _ _ (Keeps.ite (report_keeps _ _ _ _ _ _ (setLane_keeps _ _ h)) ?_)
    exact report_keeps _ _ _ _ _ _ (setLane_keeps _ _ h)
  · exact .next h

theorem execReadGate_runs (n : Fin 64) (h : Keeps s u) : Runs s (execReadGate n u) := by
  unfold execReadGate
  dsimp only
  split
  · exact .next h
  · refine .ite (.next h) (.ite (.next (readOpStop_keeps _ h)) ?_)
    refine .ite (.next (readOpFail_keeps _ _ h)) (.ite (.next h) ?_)
    refine .ite (.next (synWait_keeps _ _ h)) ?_
    exact .ite (.next (readOpFail_keeps _ _ (report_keeps _ _ _ _ _ _ h))) (.next (gateStart_keeps _ _ _ h))

theorem execSyncFound_runs (n : Fin 64) (bits : List BitIn) (h : Keeps s u) : Runs s (execSyncFound n bits u) := by
  unfold execSyncFound
  refine .ite (.next h) (.next ?_)
  split
  · exact takeSlot_keeps _ _ (chanRegs_keeps _ _ (setLane_keeps _ _ h))
  · exact Keeps.upd.2 (setLane_keeps _ _ (chanRegs_keeps _ _ (setLane_keeps _ _ h)))

theorem sectorRecord_keeps (n : Nat) (l : Lane) (o : ReadOp) (r : SectorRead) (h : Keeps s u) :
    Keeps s (sectorRecord n l o r u).1 := by
  unfold sectorRecord
  extract_lets +onlyGivenNames bits c sync d runs erased st sent w t1 t2 t3 t4 t5
  have h1 : Keeps s t1 := sectorRegs_keeps _ _ _ _ _ h
  have h2 : Keeps s t2 := Keeps.ite (count_keeps _ _ h1) (Keeps.ite (count_keeps _ _ h1) h1)
  have h3 : Keeps s t3 := Keeps.ite (report_keeps _ _ _ _ _ _ h2) h2
  exact Keeps.upd.2 (setLane_keeps _ _ (sectorOut_keeps _ _ _ h3))

theorem execSectorReadEnd_runs (n : Fin 64) (r : SectorRead) (h : Keeps s u) :
    Runs s (execSectorReadEnd n r u) := by
  unfold execSectorReadEnd
  dsimp only
  split
  · exact .next h
  next o _ =>
    have hx := sectorRecord_keeps n.val (lane u n.val) o r h
    exact Runs.ite (.next h) (Runs.ite (.next (readOpStop_keeps _ hx)) (.next hx))

theorem execServoGateOpen_runs (hd : Fin 64) (pos : Int) (acks : List (BitVec 8)) (h : Keeps s u) :
    Runs s (execServoGateOpen hd pos acks u) := by
  unfold execServoGateOpen
  refine .ite (.next h) ?_
  exact .next (setHead_keeps _ _ (put_keeps _ _ _ (readForGate_keeps _ _ (splitRead_keeps _ _
    (splitWrite_keeps _ _ h)))))

theorem execServoGateClose_runs (hd : Fin 64) (len : Nat) (h : Keeps s u) :
    Runs s (execServoGateClose hd len u) := by
  unfold execServoGateClose
  extract_lets +onlyGivenNames a y
  refine Runs.ite (.next h) ?_
  extract_lets +onlyGivenNames close t1 l b t2 t3 t4
  have h1 : Keeps s t1 := setHead_keeps _ _ (put_keeps _ _ _ h)
  have h2 : Keeps s t2 := Keeps.ite h1 (setLane_keeps _ _ h1)
  clear_value t2
  have h3 : Keeps s t3 := by
    dsimp only [t3]
    split
    · exact h2
    · split
      · exact Keeps.ite (setWop_keeps _ _ h2) h2
      · exact h2
  clear_value t3
  have h4 : Keeps s t4 := by
    dsimp only [t4]
    split
    · split
      · exact Keeps.ite (askPers_keeps _ _ _ h3) h3
      · exact h3
    · exact h3
  exact .next (wantSend_keeps _ h4)

theorem execResyncFound_runs (n : Fin 64) (decs : List Bool) (h : Keeps s u) :
    Runs s (execResyncFound n decs u) := by
  unfold execResyncFound
  refine .next ?_
  split
  · exact Keeps.ite h (setLane_keeps _ _ h)
  · exact h

theorem execLaneCalDone_runs (n : Fin 64) (subs : List SubCal) (h : Keeps s u) :
    Runs s (execLaneCalDone n subs u) := by
  unfold execLaneCalDone
  refine .ite (.next h) ?_
  refine .ite (.next (report_keeps _ _ _ _ _ _ (raiseEvent_keeps _ (govLimits_keeps (setLane_keeps _ _
    (put_keeps _ _ _ (put_keeps _ _ _ (put_keeps _ _ _ (put_keeps _ _ _ (put_keeps _ _ _
    (setLane_keeps _ _ h))))))))))) ?_
  refine .next (govLimits_keeps (Keeps.ite ?_ ?_))
  · exact put_keeps _ _ _ (put_keeps _ _ _ (put_keeps _ _ _ (put_keeps _ _ _ (put_keeps _ _ _
      (setLane_keeps _ _ h)))))
  · exact setLane_keeps _ _ (put_keeps _ _ _ (put_keeps _ _ _ (put_keeps _ _ _ (put_keeps _ _ _ (put_keeps _ _ _
      (setLane_keeps _ _ h))))))

theorem execSynLocked_runs (arm : Fin 4) (h : Keeps s u) : Runs s (execSynLocked arm u) := by
  unfold execSynLocked
  refine .ite (.next h) ?_
  split
  · exact .next (synBegin_keeps _ _ h)
  · exact .next (setSyn_keeps _ _ (put_keeps _ _ _ (put_keeps _ _ _ h)))

theorem execSynLockLost_runs (arm : Fin 4) (h : Keeps s u) : Runs s (execSynLockLost arm u) := by
  unfold execSynLockLost
  exact .next (synLost_keeps _ _ _ h)

theorem execSynWaitTimeout_runs (arm : Fin 4) (h : Keeps s u) : Runs s (execSynWaitTimeout arm u) := by
  unfold execSynWaitTimeout
  extract_lets +onlyGivenNames a ws x t1 t2
  have h1 : Keeps s t1 := setSyn_keeps _ _ h
  have h2 : Keeps s t2 := by
    refine each_keeps (fun n v hv => ?_) _ h1
    split
    · exact Keeps.ite hv (readOpFail_keeps _ _ hv)
    · exact hv
  clear_value t2
  refine .next ?_
  split
  · exact Keeps.ite h2 (cutWrite_keeps _ _ h2)
  · exact h2

theorem execSlotGrant_runs (h : Keeps s u) : Runs s (execSlotGrant u) := by
  unfold execSlotGrant
  refine .next ?_
  split
  · exact takeSlot_keeps _ _ (Keeps.upd.2 h)
  · exact h

/-! ### Machine/Clocks.lean -/

theorem execClockSourceLost_runs (i : Fin 6) (h : Keeps s u) : Runs s (execClockSourceLost i u) := by
  unfold execClockSourceLost
  refine .next (Keeps.ite h ?_)
  exact clkFurther_keeps _ _ _ (reportAt_keeps _ _ _ _ _ _ _ _ _ (clkSafe_keeps _ (standbyWake_keeps h)))

theorem execClockSourceReturned_runs (i : Fin 6) (h : Keeps s u) : Runs s (execClockSourceReturned i u) := by
  unfold execClockSourceReturned
  refine .next (Keeps.ite h ?_)
  extract_lets +onlyGivenNames t1 t2 t3
  have h1 : Keeps s t1 := raiseEvent_keeps _ (condFalls_keeps _ (putFBit_keeps _ _ _ _ h))
  have h2 : Keeps s t2 := Keeps.ite (put_keeps _ _ _ (put_keeps _ _ _ h1)) h1
  have h3 : Keeps s t3 := Keeps.ite (linkThaw_keeps (putFBit_keeps _ _ _ _ h2)) h2
  exact Keeps.ite (dramWake_keeps h3) h3

theorem execStandbyEnter_runs (h : Keeps s u) : Runs s (execStandbyEnter u) := by
  unfold execStandbyEnter
  exact .next (Keeps.ite h (dramSleep_keeps (put_keeps _ _ _ (put_keeps _ _ _ (spmEnter_keeps _ h)))))

theorem execStandbyWake_runs (h : Keeps s u) : Runs s (execStandbyWake u) := by
  unfold execStandbyWake
  exact .next (standbyWake_keeps h)

theorem execAonSleepExit_runs (h : Keeps s u) : Runs s (execAonSleepExit u) := by
  unfold execAonSleepExit
  exact .next (Keeps.ite (aonExit_keeps h) h)

theorem execDomainsPowerUp_runs (h : Keeps s u) : Runs s (execDomainsPowerUp u) := by
  unfold execDomainsPowerUp
  refine .next (Keeps.ite h ?_)
  exact upTo_keeps (fun _ _ hv => Keeps.ite (armOn_keeps _ hv) hv) _ (shockStart_keeps (spmEnter_keeps _
    (Keeps.upd.2 h)))

theorem execPllsLocked_runs (h : Keeps s u) : Runs s (execPllsLocked u) := by
  unfold execPllsLocked
  exact .next (Keeps.ite h (Keeps.upd.2 (bootPick_keeps _ (put_keeps _ _ _ (lifeBoot_keeps (Keeps.upd.2 h))))))

theorem execWarmResetReloadDone_runs (h : Keeps s u) : Runs s (execWarmResetReloadDone u) := by
  unfold execWarmResetReloadDone
  exact .next (Keeps.ite h (Keeps.ite (bootPick_keeps _ h) (Keeps.upd.2 (segsLoad_keeps _ _ (bootPick_keeps _ h)))))

theorem execLyoloBootDone_runs (h : Keeps s u) : Runs s (execLyoloBootDone u) := by
  unfold execLyoloBootDone
  refine .next (Keeps.ite h (Keeps.ite (bootPick_keeps _ h) ?_))
  exact Keeps.upd.2 (put_keeps _ _ _ (segsLoad_keeps _ _ (bootPick_keeps _ h)))

/-! ### Machine/Decoder.lean -/

theorem execFastDecodeStart_runs (k : Fin 128) (h : Keeps s u) : Runs s (execFastDecodeStart k u) := by
  unfold execFastDecodeStart
  split
  · exact .next h
  · refine .ite (.next h) ?_
    split
    · exact .next h
    · exact .next (setEng_keeps _ _ (engWake_keeps _ (setSlot_keeps _ _ h)))

theorem execEngineWakeDone_runs (e : Fin 18) (h : Keeps s u) : Runs s (execEngineWakeDone e u) := by
  unfold execEngineWakeDone
  exact .next (Keeps.ite (surplusSleep_keeps _ (setEng_keeps _ _ h)) h)

theorem execFastDecodeEnd_runs (e : Fin 16) (ecc : Ecc) (h : Keeps s u) : Runs s (execFastDecodeEnd e ecc u) := by
  unfold execFastDecodeEnd
  split
  · exact .next h
  · exact .next h
  · extract_lets +onlyGivenNames x t1
    have h1 : Keeps s t1 := surplusSleep_keeps _ (setEng_keeps _ _ h)
    clear_value t1
    split
    · exact .next h1
    · extract_lets +onlyGivenNames d t2
      have h2 : Keeps s t2 := slotEcc_keeps _ h1
      refine Runs.ite (.next (nonMediaFail_keeps _ _ _ _ _ (releaseSlot_keeps _ h2))) ?_
      extract_lets +onlyGivenNames r t3 p lst t4
      have h3 : Keeps s t3 := sectorCheck_keeps _ _ h2
      have h4 : Keeps s t4 := by
        dsimp only [t4]
        split
        · exact h3
        · exact count_keeps _ _ h3
      clear_value t4
      have hfree {k} : Keeps s (releaseSlot k t4) := releaseSlot_keeps _ h4
      split
      · have hmse {k m} : Keeps s (releaseSlot k { t4 with dec := { t4.dec with mse := m } }) :=
          releaseSlot_keeps _ (Keeps.upd.2 h4)
        exact Runs.ite (.next (sectorFinal_keeps _ _ _ _ _ _ hmse))
          (.next (deliver_keeps _ _ _ _ (put_keeps _ _ _ hmse)))
      · exact .next (ladderOk_keeps _ _ _ _ hfree)
      · exact Runs.ite (.next (sectorFinal_keeps _ _ _ _ _ _ hfree)) (.next (ladderEnter_keeps _ _ _ _ _ h4))
      · refine .next (retryFailed_keeps _ _ (releaseSlot_keeps _ ?_))
        split
        · exact setCtx_keeps _ _ h4
        · exact h4

theorem execContextCopyDone_runs (k : Fin 128) (ecc : Ecc) (h : Keeps s u) :
    Runs s (execContextCopyDone k ecc u) := by
  unfold execContextCopyDone
  split
  · refine .next (Keeps.ite (copyBad_keeps _ _ _ (slotEcc_keeps _ (releaseSlot_keeps _ h))) ?_)
    exact ladderStep_keeps _ (setCtx_keeps _ _ (slotEcc_keeps _ (releaseSlot_keeps _ h)))
  · exact .next h

theorem execRecoveryJobStart_runs (h : Keeps s u) : Runs s (execRecoveryJobStart u) := by
  unfold execRecoveryJobStart
  split
  · exact .next h
  · refine .ite (.next (drFail_keeps h)) ?_
    split
    · exact .next (setEng_keeps _ _ h)
    · refine .next ?_
      split
      · exact engWake_keeps _ h
      · exact h

theorem execRecoveryJobEnd_runs (e : Fin 2) (h : Keeps s u) : Runs s (execRecoveryJobEnd e u) := by
  unfold execRecoveryJobEnd
  dsimp only
  split
  · exact .next h
  · split
    · exact .next (surplusSleep_keeps _ (setEng_keeps _ _ h))
    · split
      · exact .next (ladderOk_keeps _ _ _ _ (sectorCheck_keeps _ _ (setCtx_keeps _ _ (surplusSleep_keeps _
          (setEng_keeps _ _ h)))))
      · exact .next (ladderStep_keeps _ (sectorCheck_keeps _ _ (setCtx_keeps _ _ (surplusSleep_keeps _
          (setEng_keeps _ _ h)))))

theorem execLadderTmax_runs (c : Fin 32) (h : Keeps s u) : Runs s (execLadderTmax c u) := by
  unfold execLadderTmax
  refine .next ?_
  split
  · exact h
  · exact Keeps.ite h (setCtx_keeps _ _ h)

theorem execEngineSleep_runs (e : Fin 18) (h : Keeps s u) : Runs s (execEngineSleep e u) := by
  unfold execEngineSleep
  exact .next (Keeps.ite (setEng_keeps _ _ h) h)

theorem execEngineParityError_runs (e : Fin 18) (h : Keeps s u) : Runs s (execEngineParityError e u) := by
  unfold execEngineParityError
  exact .next (drFail_keeps (fenceChange_keeps _ (report_keeps _ _ _ _ _ _ h)))

theorem execDecBistDone_runs (pass : Bool) (h : Keeps s u) : Runs s (execDecBistDone pass u) := by
  unfold execDecBistDone
  refine .next ?_
  split
  · exact h
  · exact raiseEvent_keeps _ (put_keeps _ _ _ (put_keeps _ _ _ (put_keeps _ _ _ (Keeps.upd.2 h))))

/-! ### Machine/Dump.lean -/

theorem execPowerLossSignal_runs (h : Keeps s u) : Runs s (execPowerLossSignal u) := by
  unfold execPowerLossSignal
  exact .next (Keeps.ite (powerLoss_keeps h) h)

theorem execDumpPageDone_runs (ok : Bool) (ecc : List Ecc) (h : Keeps s u) :
    Runs s (execDumpPageDone ok ecc u) := by
  unfold execDumpPageDone
  refine .next ?_
  split
  · exact h
  · refine Keeps.ite h ?_
    split
    · exact dumpFail_keeps h
    · refine Keeps.ite (setDump_keeps _ (put_keeps _ _ _ (nandProgram_keeps _ _ (dumpLook_keeps _ _ h)))) ?_
      split
      · exact dumpFail_keeps (nandSpoil_keeps _ (dumpLook_keeps _ _ h))
      · refine Keeps.ite (dumpFail_keeps (nandSpoil_keeps _ (dumpLook_keeps _ _ h))) ?_
        exact setDump_keeps _ (put_keeps _ _ _ (nandSpoil_keeps _ (dumpLook_keeps _ _ h)))

theorem execDumpRestoreDone_runs (bad : List Nat) (h : Keeps s u) : Runs s (execDumpRestoreDone bad u) := by
  unfold execDumpRestoreDone
  refine .next (Keeps.ite h ?_)
  split
  · exact restoreEnd_keeps _ h
  · exact Keeps.ite (restoreEnd_keeps _ h) (Keeps.ite (restoreEnd_keeps _ h) (restored_keeps _ _ h))

/-! ### Machine/Endpoint.lean -/

theorem execPerstAssert_runs (h : Keeps s u) : Runs s (execPerstAssert u) := by
  unfold execPerstAssert
  exact .next (Keeps.ite h (hostReset_keeps (Keeps.upd.2 (standbyWake_keeps h))))

theorem execPerstDeassert_runs (h : Keeps s u) : Runs s (execPerstDeassert u) := by
  unfold execPerstDeassert
  refine .ite (.next (aonExit_keeps h)) ?_
  refine .next (Keeps.ite (put_keeps _ _ _ (setFn_keeps _ _ (Keeps.upd.2 (standbyWake_keeps h)))) ?_)
  exact setFn_keeps _ _ (Keeps.upd.2 (standbyWake_keeps h))

theorem execLinkResetEvent_runs (kind : LinkReset) (h : Keeps s u) : Runs s (execLinkResetEvent kind u) := by
  unfold execLinkResetEvent
  refine .next (Keeps.ite ?_ ?_)
  · refine hostReset_keeps ?_
    split
    · exact h
    · exact count_keeps _ _ h
    · refine putFBit_keeps _ _ _ _ (Keeps.ite (put_keeps _ _ _ (count_keeps _ _ (report_keeps _ _ _ _ _ _ h))) ?_)
      exact count_keeps _ _ (report_keeps _ _ _ _ _ _ h)
  · refine put_keeps _ _ _ (hostReset_keeps ?_)
    split
    · exact h
    · exact count_keeps _ _ h
    · refine putFBit_keeps _ _ _ _ (Keeps.ite (put_keeps _ _ _ (count_keeps _ _ (report_keeps _ _ _ _ _ _ h))) ?_)
      exact count_keeps _ _ (report_keeps _ _ _ _ _ _ h)

theorem execLinkTrained_runs (speed width : Fin 8) (flit : Bool) (h : Keeps s u) :
    Runs s (execLinkTrained speed width flit u) := by
  unfold execLinkTrained
  refine .ite (.next h) (.ite (.next (wr_keeps _ _ _ _ (takeFree_keeps h))) ?_)
  exact .next (Keeps.upd.2 (put_keeps _ _ _ (put_keeps _ _ _ (put_keeps _ _ _ (put_keeps _ _ _ h)))))

theorem execAspmL1Entry_runs (h : Keeps s u) : Runs s (execAspmL1Entry u) := by
  unfold execAspmL1Entry
  exact .next (Keeps.ite (put_keeps _ _ _ h) h)

theorem execFlrReady_runs (f : Fin 64) (h : Keeps s u) : Runs s (execFlrReady f u) := by
  unfold execFlrReady
  exact .next (setFn_keeps _ _ h)

theorem execCmbWrite_runs (f : Fin 64) (off : BitVec 22) (bs : List (Option Byte)) (ep : Bool) (h : Keeps s u) :
    Runs s (execCmbWrite f off bs ep u) := by
  unfold execCmbWrite
  refine .ite (.next h) (.ite (.next (barDrop_keeps _ _ _ _ (inbound_keeps h))) ?_)
  exact .next (Keeps.upd.2 (Keeps.ite (poisIn_keeps _ _ (inbound_keeps h)) (inbound_keeps h)))

theorem execCmbRead_runs (f : Fin 64) (off : BitVec 22) (n : Fin 4097) (h : Keeps s u) :
    Runs s (execCmbRead f off n u) := by
  unfold execCmbRead
  refine .ite (.next h) (.ite (.next (barDrop_keeps _ _ _ _ (inbound_keeps h))) ?_)
  exact .next (each_keeps (fun _ _ hv => poisOut_keeps _ (toHost_keeps _ hv)) _ (inbound_keeps h))

theorem execBmeStallExpire_runs (f : Fin 64) (h : Keeps s u) : Runs s (execBmeStallExpire f u) := by
  unfold execBmeStallExpire
  refine .ite (.next h) ?_
  exact .next (restLink_keeps (fatalNow_keeps _ (report_keeps _ _ _ _ _ _ (put_keeps _ _ _ (setFn_keeps _ _
    (each_keeps (fun _ _ hv => Keeps.ite (writeCommit_keeps _ hv) hv) _ (fnResetDeck_keeps _ (each_keeps
    (fun _ _ hv => Keeps.ite (setCmd_keeps _ hv) hv) _ (each_keeps (fun _ _ hv => Keeps.ite
    (writeCommit_keeps _ hv) hv) _ h)))))))))

theorem execCompletionReceived_runs (f : Fin 64) (tag : Nat) (bs : List Byte) (ep ur : Bool) (h : Keeps s u) :
    Runs s (execCompletionReceived f tag bs ep ur u) := by
  unfold execCompletionReceived
  extract_lets +onlyGivenNames f' key
  refine Runs.ite (.next h) ?_
  extract_lets +onlyGivenNames t1 fin unexpected
  have h1 : Keeps s t1 := inbound_keeps h
  have hfin {v} (hv : Keeps s v) : Runs s (fin v) := .next (restLink_keeps (tagGo_keeps hv))
  split
  · split
    · exact hfin (Keeps.upd.2 h1)
    · exact .next (aerUnc_keeps _ _ _ _ (report_keeps _ _ _ _ _ _ h1))
  · refine Runs.ite (hfin (reqFail_keeps _ (abortIn_keeps _ _ _ h1))) ?_
    extract_lets +onlyGivenNames t2 off got full keep drop t3
    have h2 : Keeps s t2 := Keeps.ite (dataParity_keeps _ _ (poisIn_keeps _ _ h1)) h1
    have h3 : Keeps s t3 := Keeps.ite (Keeps.upd.2 h2) (Keeps.upd.2 h2)
    clear_value t3
    split
    · exact Runs.ite (hfin (fetchFatal_keeps _ (Keeps.upd.2 h3))) (hfin (Keeps.ite (Keeps.upd.2 h3) h3))
    · refine Runs.ite (hfin (cmdFail_keeps _ _ h3)) (hfin (Keeps.ite ?_ h3))
      split
      · exact xferGo_keeps _ (setCmd_keeps _ h3)
      · exact h3
    · exact hfin (xferGo_keeps _ (cmdTake_keeps _ _ _ h3))
    · exact hfin (yrdData_keeps _ _ _ h3)

theorem execCompletionTimeout_runs (f : Fin 64) (tag : Nat) (h : Keeps s u) :
    Runs s (execCompletionTimeout f tag u) := by
  unfold execCompletionTimeout
  split
  · exact .next (Keeps.ite h (restLink_keeps (tagGo_keeps (Keeps.upd.2 h))))
  · refine .ite (.next h) ?_
    exact .next (restLink_keeps (tagGo_keeps (reqFail_keeps _ (aerUnc_keeps _ _ _ _ (report_keeps _ _ _ _ _ _ h)))))

theorem execSqEntryFetched_runs (f : Fin 64) (q : Fin 65) (h : Keeps s u) : Runs s (execSqEntryFetched f q u) := by
  unfold execSqEntryFetched
  split
  · split
    · exact .next (restLink_keeps (fetchAfter_keeps _ _ (setSq_keeps _ _ _ (Keeps.upd.2 h))))
    · exact .next h

/-! ### Machine/Faults.lean -/

theorem execCheckerReport_runs (rs : List Report) (fec : Nat) (h : Keeps s u) :
    Runs s (execCheckerReport rs fec u) := by
  unfold execCheckerReport
  refine .next (Keeps.ite ?_ ?_)
  · exact each_keeps (fun _ _ hv => Keeps.ite hv (hifLog_keeps _ (cmbUnc_keeps _
      (reportAt_keeps _ _ _ _ _ _ _ _ _ hv)))) _ (countN_keeps _ _ _ h)
  · exact replan_keeps (each_keeps (fun _ _ hv => Keeps.ite hv (hifLog_keeps _ (cmbUnc_keeps _
      (reportAt_keeps _ _ _ _ _ _ _ _ _ hv)))) _ (countN_keeps _ _ _ h))

theorem execCheckerConditionFalse_runs (chk : Fin 256) (h : Keeps s u) :
    Runs s (execCheckerConditionFalse chk u) := by
  unfold execCheckerConditionFalse
  refine .next ?_
  split
  · exact h
  · exact Keeps.ite (condFalls_keeps _ h) h

theorem execEventClaim_runs (r : Fin 5) (h : Keeps s u) : Runs s (execEventClaim r u) := by
  unfold execEventClaim
  refine .next ?_
  split
  · exact emit_keeps _ h
  · exact emit_keeps _ (putFBit_keeps _ _ _ _ h)

/-! ### Machine/Mi.lean -/

theorem execMctpSetEndpointId_runs (hd : Byte) (op : BitVec 2) (eid : BitVec 8) (h : Keeps s u) :
    Runs s (execMctpSetEndpointId hd op eid u) := by
  unfold execMctpSetEndpointId
  exact .next (Keeps.ite h (Keeps.ite (mctpSend_keeps _ _ _ _ h) (mctpSend_keeps _ _ _ _ (Keeps.upd.2 h))))

theorem execMctpGetEndpointId_runs (hd : Byte) (h : Keeps s u) : Runs s (execMctpGetEndpointId hd u) := by
  unfold execMctpGetEndpointId
  exact .next (mctpSend_keeps _ _ _ _ h)

theorem execMctpGetVersionSupport_runs (hd ty : Byte) (h : Keeps s u) :
    Runs s (execMctpGetVersionSupport hd ty u) := by
  unfold execMctpGetVersionSupport
  exact .next (Keeps.ite (mctpSend_keeps _ _ _ _ h) (mctpSend_keeps _ _ _ _ h))

theorem execMctpGetMessageTypeSupport_runs (hd : Byte) (h : Keeps s u) :
    Runs s (execMctpGetMessageTypeSupport hd u) := by
  unfold execMctpGetMessageTypeSupport
  exact .next (mctpSend_keeps _ _ _ _ h)

theorem execReadNvmeMiDataStructure_runs (hd : Byte) (ty port : BitVec 8) (ctl : BitVec 16) (h : Keeps s u) :
    Runs s (execReadNvmeMiDataStructure hd ty port ctl u) := by
  unfold execReadNvmeMiDataStructure
  refine .next (Keeps.ite (miData_keeps _ _ h) ?_)
  refine Keeps.ite (Keeps.ite (miData_keeps _ _ h) (miSend_keeps _ _ _ _ h)) (Keeps.ite ?_ ?_)
  · exact miData_keeps _ _ h
  · refine Keeps.ite ?_ (miSend_keeps _ _ _ _ h)
    split
    · exact miData_keeps _ _ h
    · exact miSend_keeps _ _ _ _ h

theorem execSubsystemHealthPoll_runs (hd : Byte) (h : Keeps s u) : Runs s (execSubsystemHealthPoll hd u) := by
  unfold execSubsystemHealthPoll
  exact .next (miData_keeps _ _ h)

theorem execControllerHealthPoll_runs (hd : Byte) (first : BitVec 16) (max' : BitVec 8) (h : Keeps s u) :
    Runs s (execControllerHealthPoll hd first max' u) := by
  unfold execControllerHealthPoll
  exact .next (miSend_keeps _ _ _ _ h)

theorem execConfigurationGet_runs (hd : Byte) (id port : BitVec 8) (h : Keeps s u) :
    Runs s (execConfigurationGet hd id port u) := by
  unfold execConfigurationGet
  exact .next (Keeps.ite (miSend_keeps _ _ _ _ h) (Keeps.ite (miSend_keeps _ _ _ _ h) (miSend_keeps _ _ _ _ h)))

theorem execConfigurationSet_runs (hd : Byte) (id port : BitVec 8) (v : BitVec 16) (h : Keeps s u) :
    Runs s (execConfigurationSet hd id port v u) := by
  unfold execConfigurationSet
  refine .next (Keeps.ite h (Keeps.ite (miSend_keeps _ _ _ _ (put_keeps _ _ _ h)) ?_))
  exact Keeps.ite (miSend_keeps _ _ _ _ (Keeps.upd.2 h)) (miSend_keeps _ _ _ _ h)

theorem execVpdRead_runs (hd : Byte) (off len : BitVec 16) (h : Keeps s u) : Runs s (execVpdRead hd off len u) := by
  unfold execVpdRead
  exact .next (Keeps.ite (miSend_keeps _ _ _ _ h) (miData_keeps _ _ h))

theorem execMiUnsupported_runs (hd : Byte) (h : Keeps s u) : Runs s (execMiUnsupported hd u) := by
  unfold execMiUnsupported
  exact .next (miSend_keeps _ _ _ _ h)

/-! ### Machine/Salvage.lean -/

theorem execSalvageBatch_runs (h : Keeps s u) : Runs s (execSalvageBatch u) := by
  unfold execSalvageBatch
  refine .ite (.next h) (.ite ?_ ?_)
  · exact .next (degradedUpdate_keeps (c4Change_keeps _ (raiseEvent_keeps _ (salvSet_keeps _ (sramWrite_keeps _ _
      (salvAdvance_keeps h))))))
  · exact .next (salvAdvance_keeps (upTo_keeps (fun _ _ hv => batchTake_keeps _ hv) _ (salvAdvance_keeps h)))

theorem execSalvageStripeJudge_runs (h : Keeps s u) : Runs s (execSalvageStripeJudge u) := by
  unfold execSalvageStripeJudge
  dsimp only
  split
  · exact .next h
  · exact .next (salvJudge_keeps _ _ (countStale_keeps _ h))

theorem execCruiseVisit_runs (h : Keeps s u) : Runs s (execCruiseVisit u) := by
  unfold execCruiseVisit
  refine .ite (.next h) ?_
  dsimp only
  split
  · exact .next (Keeps.ite h (put_keeps _ _ _ (put_keeps _ _ _ h)))
  · exact .next (chkEnter_keeps _ _ _ _ _ (put_keeps _ _ _ (Keeps.upd.2 h)))

theorem execCruiseClassify_runs (h : Keeps s u) : Runs s (execCruiseClassify u) := by
  unfold execCruiseClassify
  split
  · exact .next (Keeps.ite (cruiseJudge_keeps _ _ (countStale_keeps _ h)) h)
  · exact .next h

theorem execCruiseRewrite_runs (h : Keeps s u) : Runs s (execCruiseRewrite u) := by
  unfold execCruiseRewrite
  split
  · refine .ite (.next h) (.ite ?_ ?_)
    · exact .ite (.next (cruiseLeave_keeps h)) (.next (startRead_keeps _ _ _ _ _ _ (Keeps.upd.2 h)))
    · split
      · exact .next h
      · refine .ite (.next h) (.ite (.next (cruiseLeave_keeps (dropRead_keeps _ h))) ?_)
        exact .ite (.next h) (.next (cruiseWrite_keeps _ _ h))
  · exact .next h

theorem execLostRingRoom_runs (h : Keeps s u) : Runs s (execLostRingRoom u) := by
  unfold execLostRingRoom
  extract_lets +onlyGivenNames t1 t2
  have h1 : Keeps s t1 := by
    refine each_keeps (fun e v hv => Keeps.ite ?_ hv) _ h
    split
    · exact salvJudge_keeps _ _ hv
    · exact hv
  clear_value t1
  have h2 : Keeps s t2 := by
    dsimp only [t2]
    split
    · exact Keeps.ite (cruiseJudge_keeps _ _ h1) h1
    · exact h1
  exact .next (resumeOps_keeps h2)

/-! ### Machine/LogPages.lean -/

theorem execGetLogPage_runs (slot : Fin 4096) (h : Keeps s u) : Runs s (execGetLogPage slot u) := by
  unfold execGetLogPage
  refine .next ?_
  split
  · exact h
  · refine Keeps.ite h ?_
    split
    · exact admEnd_keeps _ _ _ h
    · exact Keeps.ite (admEnd_keeps _ _ _ h) (admSend_keeps _ _ _ (Keeps.ite h (pageRead_keeps _ _ h)))

/-! ### Machine/Namespaces.lean -/

theorem execNsCreate_runs (slot : Fin 4096) (addr : Nat) (exts : List (Nat × Nat × Nat)) (h : Keeps s u) :
    Runs s (execNsCreate slot addr exts u) := by
  unfold execNsCreate
  refine .next ?_
  split
  · exact h
  · refine Keeps.ite h (Keeps.ite (admEnd_keeps _ _ _ h) (Keeps.ite (admEnd_keeps _ _ _ h) ?_))
    split
    · exact admEnd_keeps _ _ _ h
    · refine Keeps.ite (admEnd_keeps _ _ _ h) (Keeps.ite h ?_)
      exact admEnd_keeps _ _ _ (sramWrite_keeps _ _ (each_keeps (fun _ _ hv => sramWrite_keeps _ _ hv) _
        (Keeps.upd.2 h)))

theorem execNsDelete_runs (slot : Fin 4096) (h : Keeps s u) : Runs s (execNsDelete slot u) := by
  unfold execNsDelete
  refine .next ?_
  split
  · exact h
  · refine Keeps.ite h ?_
    dsimp only
    split
    · exact admEnd_keeps _ _ _ (chkRelease_keeps _ h)
    · exact admEnd_keeps _ _ _ (nsNotice_keeps _ _ (chkRelease_keeps _ (sramWrite_keeps _ _ (nsAfter_keeps
        (Keeps.upd.2 (each_keeps (fun _ _ hv => Keeps.ite (resolveWith_keeps _ _ hv) hv) _ (nsDrop_keeps _ h)))))))

theorem execFormatNvm_runs (slot : Fin 4096) (h : Keeps s u) : Runs s (execFormatNvm slot u) := by
  unfold execFormatNvm
  refine .next ?_
  split
  · exact h
  · refine Keeps.ite h ?_
    dsimp only
    split
    · exact admEnd_keeps _ _ _ (chkRelease_keeps _ h)
    · refine Keeps.ite (admEnd_keeps _ _ _ (chkRelease_keeps _ h)) ?_
      refine Keeps.ite (admEnd_keeps _ _ _ (chkRelease_keeps _ h)) ?_
      refine Keeps.ite (admEnd_keeps _ _ _ (chkRelease_keeps _ h)) ?_
      exact admEnd_keeps _ _ _ (chkRelease_keeps _ (nsNotice_keeps _ _ (sramWrite_keeps _ _ (nsAfter_keeps
        (Keeps.upd.2 (nsDrop_keeps _ h))))))

theorem execNsAttach_runs (slot : Fin 4096) (h : Keeps s u) : Runs s (execNsAttach slot u) := by
  unfold execNsAttach
  refine .next ?_
  split
  · exact h
  · refine Keeps.ite h ?_
    split
    · refine Keeps.ite (admEnd_keeps _ _ _ h) (Keeps.ite (admEnd_keeps _ _ _ h) ?_)
      exact admEnd_keeps _ _ _ (nsNotice_keeps _ _ (setNs_keeps _ _ h))
    · exact admEnd_keeps _ _ _ h
    · exact admEnd_keeps _ _ _ h

theorem execNsDetach_runs (slot : Fin 4096) (h : Keeps s u) : Runs s (execNsDetach slot u) := by
  unfold execNsDetach
  refine .next ?_
  split
  · exact h
  · refine Keeps.ite h ?_
    split
    · exact Keeps.ite (admEnd_keeps _ _ _ h) (admEnd_keeps _ _ _ (nsNotice_keeps _ _ (setNs_keeps _ _ h)))
    · exact admEnd_keeps _ _ _ h
    · exact admEnd_keeps _ _ _ h

/-! ### Machine/Servo.lean -/

theorem execServoWedgeMiss_runs (hd : Fin 64) (c : MissCause) (h : Keeps s u) :
    Runs s (execServoWedgeMiss hd c u) := by
  unfold execServoWedgeMiss
  extract_lets +onlyGivenNames a
  refine Runs.ite (.next h) ?_
  extract_lets +onlyGivenNames t1 old t2 x
  have h1 : Keeps s t1 := by
    dsimp only [t1]
    split
    · exact count_keeps _ _ h
    · exact h
  have h2 : Keeps s t2 := missWedge_keeps _ h1
  clear_value t2
  split
  · exact Runs.ite (.next (put2_keeps _ _ _ _ (setHead_keeps _ _ h2))) (.next (setHead_keeps _ _ h2))
  · exact .next (setHead_keeps _ _ h2)

theorem execServoWedge_runs (hd : Fin 64) (w : Wedge) (h : Keeps s u) : Runs s (execServoWedge hd w u) := by
  unfold execServoWedge
  extract_lets +onlyGivenNames locked
  refine Runs.ite (.next h) (Runs.ite (execServoWedgeMiss_runs _ _ h)
    (Runs.ite (execServoWedgeMiss_runs _ _ h) ?_))
  extract_lets +onlyGivenNames t
  have ht : Keeps s t := wedgeRecord_keeps _ _ _ (thetaUpdate_keeps _ _ (rroAhead_keeps _ _ (wedgeLock_keeps _ _ h)))
  exact .next (Keeps.ite ht (dropWperm_keeps _ ht))

theorem execServoGroupClose_runs (arm' : Fin 4) (isense : Int) (h : Keeps s u) :
    Runs s (execServoGroupClose arm' isense u) := by
  unfold execServoGroupClose
  refine .ite (.next h) ?_
  exact .next (mechFollows_keeps (each_keeps (fun _ _ hv => permGroup_keeps _ hv) _ (groupSend_keeps _
    (groupCount_keeps _ (groupControl_keeps _ _ h)))))

theorem execLoadAcquired_runs (arm' : Fin 4) (h : Keeps s u) : Runs s (execLoadAcquired arm' u) := by
  unfold execLoadAcquired
  exact .next (Keeps.ite (toSettle_keeps _ (heatRdSend_keeps _ _ (put_keeps _ _ _ (setArm_keeps _ _ h)))) h)

theorem execLoadTimeout_runs (arm' : Fin 4) (h : Keeps s u) : Runs s (execLoadTimeout arm' u) := by
  unfold execLoadTimeout
  refine .next (Keeps.ite ?_ h)
  exact report_keeps _ _ _ _ _ _ (raiseEvent_keeps _ (put_keeps _ _ _ (startUnload_keeps _ _ h)))

theorem execUnloadPhaseEnd_runs (arm' : Fin 4) (h : Keeps s u) : Runs s (execUnloadPhaseEnd arm' u) := by
  unfold execUnloadPhaseEnd
  exact .next (Keeps.ite (setVcm_keeps _ _ (setArm_keeps _ _ h)) h)

theorem execParkTimeout_runs (arm' : Fin 4) (h : Keeps s u) : Runs s (execParkTimeout arm' u) := by
  unfold execParkTimeout
  refine .next (Keeps.ite ?_ h)
  exact heldLoadApply_keeps _ (report_keeps _ _ _ _ _ _ (raiseEvent_keeps _ (put_keeps _ _ _
    (enterParked_keeps _ h))))

theorem execFollowEntry_runs (arm' : Fin 4) (h : Keeps s u) : Runs s (execFollowEntry arm' u) := by
  unfold execFollowEntry
  refine .ite (.next ?_) (.next h)
  split
  · refine goTo_keeps _ _ (setArm_keeps _ _ ?_)
    split
    · refine Keeps.ite (seekTab_keeps _ _ _ (setMode_keeps _ _ (setArm_keeps _ _ h))) ?_
      exact setMode_keeps _ _ (setArm_keeps _ _ h)
    · exact setMode_keeps _ _ (setArm_keeps _ _ h)
  · refine put_keeps _ _ _ (setArm_keeps _ _ ?_)
    split
    · refine Keeps.ite (seekTab_keeps _ _ _ (setMode_keeps _ _ (setArm_keeps _ _ h))) ?_
      exact setMode_keeps _ _ (setArm_keeps _ _ h)
    · exact setMode_keeps _ _ (setArm_keeps _ _ h)

theorem execSettleTimeout_runs (arm' : Fin 4) (h : Keeps s u) : Runs s (execSettleTimeout arm' u) := by
  unfold execSettleTimeout
  refine .ite ?_ (.next h)
  refine .ite (.next (toSeek_keeps _ (setArm_keeps _ _ (put_keeps _ _ _ (count_keeps _ _ h))))) ?_
  exact .next (report_keeps _ _ _ _ _ _ (raiseEvent_keeps _ (startUnload_keeps _ _ (put_keeps _ _ _
    (count_keeps _ _ h)))))

theorem execArmMissTimeout_runs (arm' : Fin 4) (h : Keeps s u) : Runs s (execArmMissTimeout arm' u) := by
  unfold execArmMissTimeout
  exact .next (Keeps.ite (report_keeps _ _ _ _ _ _ (raiseEvent_keeps _ (startUnload_keeps _ _ h))) h)

theorem execHeadLost_runs (hd : Fin 64) (h : Keeps s u) : Runs s (execHeadLost hd u) := by
  unfold execHeadLost
  refine .next (Keeps.ite ?_ h)
  exact report_keeps _ _ _ _ _ _ (raiseEvent_keeps _ (dropWperm_keeps _ (setTracking_keeps _ (searchRead_keeps _
    (timerFree_keeps _ _ (startRamp_keeps _ (setHst_keeps _ _ h)))))))

theorem execMaSatExpire_runs (hd : Fin 64) (h : Keeps s u) : Runs s (execMaSatExpire hd u) := by
  unfold execMaSatExpire
  exact .next (Keeps.ite (dropWperm_keeps _ (setTracking_keeps _ (setHst_keeps _ _ (startRamp_keeps _ h)))) h)

theorem execWpermRearm_runs (hd : Fin 64) (h : Keeps s u) : Runs s (execWpermRearm hd u) := by
  unfold execWpermRearm
  exact .next (Keeps.ite (putFBit_keeps _ _ _ _ h) h)

theorem execVcmMismatch_runs (arm' : Fin 4) (h : Keeps s u) : Runs s (execVcmMismatch arm' u) := by
  unfold execVcmMismatch
  refine .next (Keeps.ite (report_keeps _ _ _ _ _ _ (raiseEvent_keeps _ (Keeps.ite (setArm_keeps _ _ h) ?_))) h)
  exact setArm_keeps _ _ (startUnload_keeps _ _ (setArm_keeps _ _ h))

/-! ### Machine/ShockSensor.lean -/

theorem execShockSample_runs (ch : Fin 5) (v : Int) (h : Keeps s u) : Runs s (execShockSample ch v u) := by
  unfold execShockSample
  refine .next (Keeps.ite h (Keeps.ite (shockGather_keeps _ _ (shockTake_keeps _ _ h)) ?_))
  refine Keeps.ite (shockFall_keeps (shockTrack_keeps _ _ (shockTake_keeps _ _ h))) ?_
  exact shockTrack_keeps _ _ (shockTake_keeps _ _ h)

theorem execShockRearm_runs (h : Keeps s u) : Runs s (execShockRearm u) := by
  unfold execShockRearm
  refine .next (Keeps.ite (Keeps.ite (raiseEvent_keeps _ (rebind_keeps (Keeps.upd.2 (put_keeps _ _ _ h)))) ?_) h)
  exact rebind_keeps (Keeps.upd.2 (put_keeps _ _ _ h))

theorem execShockInitWindow_runs (h : Keeps s u) : Runs s (execShockInitWindow u) := by
  unfold execShockInitWindow
  refine .ite (.next h) ?_
  refine .ite (.next (put_keeps _ _ _ (each_keeps (fun _ _ hv => setShk_keeps _ _ hv) _ (each_keeps
    (fun _ _ hv => setBase_keeps _ _ hv) _ h)))) ?_
  refine .ite (.next (Keeps.upd.2 (each_keeps (fun _ _ hv => setShk_keeps _ _ hv) _ h))) ?_
  exact .next (put_keeps _ _ _ (put_keeps _ _ _ (each_keeps (fun _ _ hv => setBase_keeps _ _ hv) _ (Keeps.upd.2
    (each_keeps (fun _ _ hv => setShk_keeps _ _ hv) _ h)))))

theorem execShockStuck_runs (ch : Fin 5) (h : Keeps s u) : Runs s (execShockStuck ch u) := by
  unfold execShockStuck
  refine .next (Keeps.ite h ?_)
  exact report_keeps _ _ _ _ _ _ (raiseEvent_keeps _ (Keeps.ite (shockFall_keeps (putFBit_keeps _ _ _ _ h))
    (putFBit_keeps _ _ _ _ h)))

/-! ### Machine/Spindle.lean -/

theorem execSpmPwmPeriod_runs (adc : Abc) (h : Keeps s u) : Runs s (execSpmPwmPeriod adc u) := by
  unfold execSpmPwmPeriod
  refine .ite (.next h) (.next (Keeps.ite (gatesOff_keeps (genEnter_keeps (pwmClock_keeps h))) ?_))
  split
  · exact pwmBegin_keeps _ (dutiesOf_keeps _ _ _ (genEnter_keeps (pwmClock_keeps h)))
  · exact pwmBegin_keeps _ (genEnter_keeps (pwmClock_keeps h))
  · exact pwmLoop_keeps _ _ (genEnter_keeps (pwmClock_keeps h))
  · exact pwmLoop_keeps _ _ (genEnter_keeps (pwmClock_keeps h))
  · exact pwmLoop_keeps _ _ (genEnter_keeps (pwmClock_keeps h))

theorem execSpmSpeedLoop_runs (h : Keeps s u) : Runs s (execSpmSpeedLoop u) := by
  unfold execSpmSpeedLoop
  extract_lets +onlyGivenNames st v speed t1
  have h1 : Keeps s t1 := put_keeps _ _ _ (put_keeps _ _ _ (put_keeps _ _ _ (put_keeps _ _ _ (syncCount_keeps h))))
  clear_value t1
  refine Runs.ite (.next (spmFail_keeps _ _ h1)) ?_
  extract_lets +onlyGivenNames t2
  have h2 : Keeps s t2 := spinChecks_keeps _ h1
  clear_value t2
  refine Runs.ite ?_ (Runs.ite (Runs.ite (.next (spmCoast_keeps _ h2)) (.next (Keeps.upd.2 h2))) (.next h2))
  extract_lets +onlyGivenNames target x t3
  have h3 : Keeps s t3 := Keeps.ite (report_keeps _ _ _ _ _ _ (count_keeps _ _ (Keeps.upd.2 h2)))
    (Keeps.ite (Keeps.upd.2 h2) h2)
  exact .next (atSpeedCheck_keeps _ (speedLoop_keeps _ h3))

theorem execSpmLossOfSync_runs (h : Keeps s u) : Runs s (execSpmLossOfSync u) := by
  unfold execSpmLossOfSync
  exact .next (Keeps.ite (spmTrip_keeps _ h) h)

theorem execSpmOffsetCalDone_runs (adc : List Abc) (h : Keeps s u) : Runs s (execSpmOffsetCalDone adc u) := by
  unfold execSpmOffsetCalDone
  exact .next (Keeps.ite h (Keeps.ite (spmFail_keeps _ _ h) (Keeps.upd.2 h)))

theorem execSpmStictionEnd_runs (h : Keeps s u) : Runs s (execSpmStictionEnd u) := by
  unfold execSpmStictionEnd
  exact .next (Keeps.ite (spmEnter_keeps _ h) h)

theorem execSpmAlignEnd_runs (h : Keeps s u) : Runs s (execSpmAlignEnd u) := by
  unfold execSpmAlignEnd
  exact .next (Keeps.ite h (Keeps.ite (spmFail_keeps _ _ h) (Keeps.upd.2 (spmEnter_keeps _ h))))

theorem execSpmRampWrap_runs (h : Keeps s u) : Runs s (execSpmRampWrap u) := by
  unfold execSpmRampWrap
  exact .ite (.next h) (.next (Keeps.ite (handOverRun_keeps _ (Keeps.upd.2 h)) (Keeps.upd.2 h)))

theorem execSpmHoTimeout_runs (h : Keeps s u) : Runs s (execSpmHoTimeout u) := by
  unfold execSpmHoTimeout
  exact .next (Keeps.ite (count_keeps _ _ (put_keeps _ _ _ (spmEnter_keeps _ (gatesOff_keeps h)))) h)

theorem execSpmRotorStill_runs (vs : List Abc) (h : Keeps s u) : Runs s (execSpmRotorStill vs u) := by
  unfold execSpmRotorStill
  refine .next (Keeps.ite h (Keeps.ite (Keeps.ite (Keeps.upd.2 (spmEnter_keeps _ h)) (spmFail_keeps _ _ h)) ?_))
  exact Keeps.ite (Keeps.upd.2 (spmEnter_keeps _ (gatesOff_keeps h))) h

theorem execSpmRetryTimeout_runs (h : Keeps s u) : Runs s (execSpmRetryTimeout u) := by
  unfold execSpmRetryTimeout
  exact .next (Keeps.ite (spmFail_keeps _ _ h) h)

theorem execSpmCatchLock_runs (xs : List (Fin 6 × Nat)) (h : Keeps s u) : Runs s (execSpmCatchLock xs u) := by
  unfold execSpmCatchLock
  refine .ite (.next h) (.next (Keeps.ite ?_ ?_))
  · exact Keeps.ite (put_keeps _ _ _ (Keeps.upd.2 h)) (engage_keeps _ (put_keeps _ _ _ (Keeps.upd.2 h)))
  · refine Keeps.ite (engage_keeps _ (put_keeps _ _ _ (Keeps.upd.2 h))) ?_
    exact spmEnter_keeps _ (gatesOff_keeps (put_keeps _ _ _ (Keeps.upd.2 h)))

theorem execSpmStageFault_runs (h : Keeps s u) : Runs s (execSpmStageFault u) := by
  unfold execSpmStageFault
  exact .next (Keeps.ite h (spmFail_keeps _ _ h))

theorem execSpmAutoRestart_runs (h : Keeps s u) : Runs s (execSpmAutoRestart u) := by
  unfold execSpmAutoRestart
  exact .next (Keeps.ite (spmEnter_keeps _ (gatesOff_keeps h)) h)

theorem execSpmAtSpeed_runs (h : Keeps s u) : Runs s (execSpmAtSpeed u) := by
  unfold execSpmAtSpeed
  exact .next (Keeps.ite (releaseWrites_keeps (put_keeps _ _ _ h)) h)

/-! ### Machine/Vendor.lean -/

theorem execBlazeRead_runs (slot : Fin 4096) (h : Keeps s u) : Runs s (execBlazeRead slot u) := by
  unfold execBlazeRead
  refine .next ?_
  split
  · exact h
  · exact Keeps.ite h (admSend_keeps _ _ _ h)

theorem execFaultStatus_runs (slot : Fin 4096) (h : Keeps s u) : Runs s (execFaultStatus slot u) := by
  unfold execFaultStatus
  refine .next ?_
  split
  · exact h
  · refine Keeps.ite h (Keeps.ite (admEnd_keeps _ _ _ h) (admSend_keeps _ _ _ (Keeps.ite ?_ h)))
    exact upTo_keeps (fun _ _ hv => Keeps.ite (clearClass_keeps _ hv) hv) _ (ackClasses_keeps _ h)

theorem execSensorRead_runs (slot : Fin 4096) (h : Keeps s u) : Runs s (execSensorRead slot u) := by
  unfold execSensorRead
  refine .next ?_
  split
  · exact h
  · exact Keeps.ite h (admSend_keeps _ _ _ h)

theorem execSalvageStatus_runs (slot : Fin 4096) (h : Keeps s u) : Runs s (execSalvageStatus slot u) := by
  unfold execSalvageStatus
  refine .next ?_
  split
  · exact h
  · exact salvEnd_keeps _ h

theorem execSalvageCtlStart_runs (slot : Fin 4096) (p : Option SalvPlan) (h : Keeps s u) :
    Runs s (execSalvageCtlStart slot p u) := by
  unfold execSalvageCtlStart
  refine .next ?_
  split
  · exact h
  · extract_lets +onlyGivenNames f a b
    split
    · extract_lets +onlyGivenNames fenced
      refine Keeps.ite (admEnd_keeps _ _ _ h) ?_
      extract_lets +onlyGivenNames t1 t2 t3
      have h1 : Keeps s t1 := by
        dsimp only [t1]
        split
        · exact Keeps.ite h (rfencePut_keeps _ _ _ _ h)
        · exact h
      have h2 : Keeps s t2 := put_keeps _ _ _ (relocPut_keeps _ _ _ _ _ _ h1)
      have h3 : Keeps s t3 := stateOf_keeps (execSprSalvStart_keeps _ h2) h2
      exact salvEnd_keeps _ (replan_keeps (degradedUpdate_keeps h3))
    · exact admEnd_keeps _ _ _ h

theorem execSalvageCtlPause_runs (slot : Fin 4096) (h : Keeps s u) : Runs s (execSalvageCtlPause slot u) := by
  unfold execSalvageCtlPause
  refine .next ?_
  split
  · exact h
  · exact salvEnd_keeps _ (stateOf_keeps (execSprSalvPause_keeps _ h) h)

theorem execSalvageCtlResume_runs (slot : Fin 4096) (h : Keeps s u) : Runs s (execSalvageCtlResume slot u) := by
  unfold execSalvageCtlResume
  refine .next ?_
  split
  · exact h
  · exact salvEnd_keeps _ (stateOf_keeps (execSprSalvResume_keeps _ h) h)

theorem execSalvageCtlAbort_runs (slot : Fin 4096) (h : Keeps s u) : Runs s (execSalvageCtlAbort slot u) := by
  unfold execSalvageCtlAbort
  refine .next ?_
  split
  · exact h
  · exact salvEnd_keeps _ (stateOf_keeps (execSprSalvAbort_keeps _ h) h)

theorem execClearLost_runs (slot : Fin 4096) (h : Keeps s u) : Runs s (execClearLost slot u) := by
  unfold execClearLost
  refine .next ?_
  split
  · exact h
  · exact salvEnd_keeps _ (c4Change_keeps _ (Keeps.upd.2 h))

theorem execFenceQuery_runs (slot : Fin 4096) (h : Keeps s u) : Runs s (execFenceQuery slot u) := by
  unfold execFenceQuery
  refine .next ?_
  split
  · exact h
  · exact mapEnd_keeps _ h

theorem execFenceHead_runs (slot : Fin 4096) (h : Keeps s u) : Runs s (execFenceHead slot u) := by
  unfold execFenceHead
  refine .next ?_
  split
  · exact h
  · refine Keeps.ite (mapRefuse_keeps _ _ h) ?_
    exact Keeps.ite (mapRefuse_keeps _ _ h) (mapEnd_keeps _ (replan_keeps (fenceHead_keeps _ h)))

theorem execUnfenceHead_runs (slot : Fin 4096) (ok : Bool) (h : Keeps s u) :
    Runs s (execUnfenceHead slot ok u) := by
  unfold execUnfenceHead
  refine .next ?_
  split
  · exact h
  · refine Keeps.ite (mapRefuse_keeps _ _ h) (Keeps.ite (mapRefuse_keeps _ _ h) ?_)
    exact mapEnd_keeps _ (replan_keeps (eligibilityChanged_keeps _ (putFBit_keeps _ _ _ _ h)))

theorem execFenceArm_runs (slot : Fin 4096) (h : Keeps s u) : Runs s (execFenceArm slot u) := by
  unfold execFenceArm
  refine .next ?_
  split
  · exact h
  · refine Keeps.ite (mapRefuse_keeps _ _ h) ?_
    exact Keeps.ite (mapRefuse_keeps _ _ h) (mapEnd_keeps _ (replan_keeps (fenceArm_keeps _ h)))

theorem execUnfenceArm_runs (slot : Fin 4096) (ok : Bool) (h : Keeps s u) : Runs s (execUnfenceArm slot ok u) := by
  unfold execUnfenceArm
  refine .next ?_
  split
  · exact h
  · refine Keeps.ite (mapRefuse_keeps _ _ h) (Keeps.ite (mapRefuse_keeps _ _ h) ?_)
    exact mapEnd_keeps _ (replan_keeps (eligibilityChanged_keeps _ (putFBit_keeps _ _ _ _ h)))

theorem execFenceRegion_runs (slot : Fin 4096) (h : Keeps s u) : Runs s (execFenceRegion slot u) := by
  unfold execFenceRegion
  refine .next ?_
  split
  · exact h
  · refine Keeps.ite (mapRefuse_keeps _ _ h) ?_
    split
    · exact mapRefuse_keeps _ _ h
    · exact mapEnd_keeps _ (replan_keeps (rfencePut_keeps _ _ _ _ h))

theorem execUnfenceRegion_runs (slot : Fin 4096) (ok : Bool) (h : Keeps s u) :
    Runs s (execUnfenceRegion slot ok u) := by
  unfold execUnfenceRegion
  refine .next ?_
  split
  · exact h
  · dsimp only
    split
    · exact mapRefuse_keeps _ _ h
    · exact Keeps.ite (mapRefuse_keeps _ _ h) (mapEnd_keeps _ (replan_keeps (mapChange_keeps (put_keeps _ _ _ h))))

theorem execBudgetQuery_runs (slot : Fin 4096) (h : Keeps s u) : Runs s (execBudgetQuery slot u) := by
  unfold execBudgetQuery
  refine .next ?_
  split
  · exact h
  · exact admEnd_keeps _ _ _ h

theorem execSetBudget_runs (slot : Fin 4096) (h : Keeps s u) : Runs s (execSetBudget slot u) := by
  unfold execSetBudget
  refine .next ?_
  split
  · exact h
  · exact Keeps.ite (admEnd_keeps _ _ _ h) (admEnd_keeps _ _ _ (beffNow_keeps (put_keeps _ _ _ h)))

theorem execSetShares_runs (slot : Fin 4096) (h : Keeps s u) : Runs s (execSetShares slot u) := by
  unfold execSetShares
  refine .next ?_
  split
  · exact h
  · refine Keeps.ite h (Keeps.ite (admEnd_keeps _ _ _ h) ?_)
    exact admEnd_keeps _ _ _ (upTo_keeps (fun _ _ hv => put_keeps _ _ _ hv) _ (put_keeps _ _ _ (put_keeps _ _ _
      (put_keeps _ _ _ (put_keeps _ _ _ (Keeps.ite h (put_keeps _ _ _ h)))))))

/-! ### Machine/WritePath.lean -/

theorem execWpProfileLoadDone_runs (arm : Fin 4) (h : Keeps s u) : Runs s (execWpProfileLoadDone arm u) := by
  unfold execWpProfileLoadDone
  dsimp only
  split
  · exact .next h
  · refine .ite (.next h) ?_
    split
    · exact .next (each_keeps (fun _ _ hv => loadWrProfile_keeps _ _ _ _ hv) _ h)
    · refine .ite (.next (each_keeps (fun _ _ hv => loadWrProfile_keeps _ _ _ _ hv) _ h)) ?_
      exact .next (cutWrite_keeps _ _ (each_keeps (fun _ _ hv => loadWrProfile_keeps _ _ _ _ hv) _ h))

theorem execWpArmedHold_runs (n : Fin 64) (h : Keeps s u) : Runs s (execWpArmedHold n u) := by
  unfold execWpArmedHold
  exact .next (Keeps.ite (put_keeps _ _ _ h) h)

theorem execSectorFeedDone_runs (n : Fin 64) (ecc : List Ecc) (h : Keeps s u) :
    Runs s (execSectorFeedDone n ecc u) := by
  unfold execSectorFeedDone
  dsimp only
  split
  · exact .next h
  · split
    · refine .ite (.next h) (.next ?_)
      refine Keeps.ite (askPers_keeps _ _ _ (setWbuf_keeps _ _ (feedEcc_keeps _ _ _ h))) ?_
      exact setWbuf_keeps _ _ (feedEcc_keeps _ _ _ h)
    · exact .next h

theorem execBlockLate_runs (n : Fin 64) (h : Keeps s u) : Runs s (execBlockLate n u) := by
  unfold execBlockLate
  refine .next ?_
  split
  · exact h
  · split
    · exact h
    · exact Keeps.ite h (Keeps.ite (setHeadWr_keeps _ _ _ h) (Keeps.ite h (cutWrite_keeps _ _ h)))

theorem execHeatSend_runs (arm : Fin 4) (h : Keeps s u) : Runs s (execHeatSend arm u) := by
  unfold execHeatSend
  refine .next ?_
  split
  · exact h
  · exact Keeps.ite h (each_keeps (fun _ _ hv => setLane_keeps _ _ hv) _ (sendFrame_keeps _ _ (setWop_keeps _ _ h)))

theorem execHeatHold_runs (arm : Fin 4) (h : Keeps s u) : Runs s (execHeatHold arm u) := by
  unfold execHeatHold
  refine .next ?_
  split
  · exact h
  · exact Keeps.ite h (Keeps.ite (setWop_keeps _ _ h) (cutWrite_keeps _ _ h))

theorem execWriteGateOpen_runs (n : Fin 64) (lead : Nat) (h : Keeps s u) : Runs s (execWriteGateOpen n lead u) := by
  unfold execWriteGateOpen
  dsimp only
  split
  · exact .next h
  · split
    · exact .next h
    · refine .ite (.next h) (.ite (.next (synForOp_keeps _ _ h)) ?_)
      refine .ite (.next (cutWrite_keeps _ _ h)) ?_
      exact .ite (.next h) (.next (put_keeps _ _ _ (put_keeps _ _ _ (setWop_keeps _ _ h))))

theorem execSectorWriteEnd_runs (n : Fin 64) (gap : Nat) (h : Keeps s u) : Runs s (execSectorWriteEnd n gap u) := by
  unfold execSectorWriteEnd
  dsimp only
  split
  · exact .next h
  · split
    · refine .ite (.next h) ?_
      refine .ite (.next (sendFrame_keeps _ _ (put_keeps _ _ _ (setHeadWr_keeps _ _ _ (emit_keeps _
        (setWbuf_keeps _ _ h)))))) ?_
      refine .ite ?_ (.next (setHeadWr_keeps _ _ _ (emit_keeps _ (setWbuf_keeps _ _ h))))
      exact .next (cutWrite_keeps _ _ (setHeadWr_keeps _ _ _ (emit_keeps _ (setWbuf_keeps _ _ h))))
    · exact .next h

theorem execWriteOpEnd_runs (arm : Fin 4) (h : Keeps s u) : Runs s (execWriteOpEnd arm u) := by
  unfold execWriteOpEnd
  dsimp only
  split
  · exact .next h
  · refine .ite (.next h) (.next (sprWriteEnd_keeps _ _ _ (learnWr_keeps _ _ (writeFault_keeps _ _ _ ?_))))
    refine heatRdSend_keeps _ _ (Keeps.ite ?_ ?_)
    · exact each_keeps (fun _ _ hv => drainEnd_keeps _ hv) _ (rebind_keeps (dropWop_keeps _ (each_keeps
        (fun _ _ hv => headWriteEnd_keeps _ _ _ hv) _ h)))
    · exact sendFrame_keeps _ _ (each_keeps (fun _ _ hv => drainEnd_keeps _ hv) _ (rebind_keeps (dropWop_keeps _
        (each_keeps (fun _ _ hv => headWriteEnd_keeps _ _ _ hv) _ h))))

/-! ### Machine/Yarder.lean -/

theorem execYrdDescStart_runs (n : Fin 32) (h : Keeps s u) : Runs s (execYrdDescStart n u) := by
  unfold execYrdDescStart
  extract_lets +onlyGivenNames n' x
  refine Runs.ite (.next h) ?_
  extract_lets +onlyGivenNames i a b
  refine Runs.ite (.next (setYch_keeps _ _ h)) ?_
  extract_lets +onlyGivenNames len k m m' d gone st left y l t1 t2 t3
  have h3 : Keeps s t3 := put_keeps _ _ _ (put_keeps _ _ _ (put_keeps _ _ _ (put_keeps _ _ _
    (setYch_keeps _ _ (Keeps.upd.2 h)))))
  clear_value t3 st
  refine .next ?_
  split
  · exact Keeps.ite (yrdFinish_keeps _ _ h3) h3
  · exact yrdAsk_keeps _ h3

/-! ### Machine/Txn.lean -/

theorem execBootComplete_runs (h : Keeps s u) : Runs s (execBootComplete u) := by
  unfold execBootComplete
  exact .next (Keeps.ite h (bootRelease_keeps (ratioCheck_keeps (cfgBoot_keeps (bootSlot_keeps h)))))

theorem execCommitStored_runs (ok : Bool) (h : Keeps s u) : Runs s (execCommitStored ok u) := by
  unfold execCommitStored
  refine .ite (.next h) ?_
  refine .ite (.next (commitEnd_keeps _ _ _ _ (norProgram_keeps _ _ (norErase_keeps _ _ h)))) (.next ?_)
  refine Keeps.ite (commitEnd_keeps _ _ _ _ (norProgram_keeps _ _ (norErase_keeps _ _ h))) ?_
  exact commitApply_keeps (norProgram_keeps _ _ (norErase_keeps _ _ h))

theorem execCommitArmQuiet_runs (arm' : Fin 4) (h : Keeps s u) : Runs s (execCommitArmQuiet arm' u) := by
  unfold execCommitArmQuiet
  exact .next (Keeps.ite h (commitBlobs_keeps (Keeps.upd.2 (itemsApply_keeps _ h))))

theorem execTxnRollbackTimeout_runs (h : Keeps s u) : Runs s (execTxnRollbackTimeout u) := by
  unfold execTxnRollbackTimeout
  exact .next (Keeps.ite h (raiseEvent_keeps _ (txnIdle_keeps (Keeps.upd.2 h))))

/-! ### Machine/Registers.lean -/

theorem execRegisterWrite_runs (m : Master) (addr size data : Nat) (ep : Bool) (h : Keeps s u) :
    Runs s (execRegisterWrite m addr size data ep u) := by
  unfold execRegisterWrite
  refine .next ?_
  split
  · exact hostWrite_keeps _ _ _ _ _ h
  · exact lyoWrite_keeps _ _ _ h
  · exact Keeps.ite (act_keeps (fun _ hv => execLandingWrite_keeps _ _ _ _ _ _ hv) h) (intWrite_keeps _ _ _ _ h)

theorem execReadClear_runs (m : Master) (addr size : Nat) (h : Keeps s u) :
    Runs s (execReadClear m addr size u) := by
  unfold execReadClear
  refine .next ?_
  split
  · exact hostRead_keeps _ _ _ h
  · exact lyoRead_keeps _ _ h
  · exact Keeps.ite (act_keeps (fun _ hv => execLandingRead_keeps _ _ _ _ _ hv) h) (intRead_keeps _ _ _ h)

/-! ### Machine/YrdMove.lean -/

theorem execYrdDescEnd_runs (n : Fin 32) (ecc : List Ecc) (h : Keeps s u) : Runs s (execYrdDescEnd n ecc u) := by
  unfold execYrdDescEnd
  dsimp only
  split
  · exact .next h
  · refine .next (Keeps.ite (yrdMove_keeps _ _ _ h) ?_)
    exact Keeps.ite h (Keeps.ite (put_keeps _ _ _ h) (yrdMove_keeps _ _ _ h))

/-! ### The commands whose frame Laws/Keeps*.lean states: that they answer -/

/-- The command answers a next state. -/
def Answers (o : Answer) : Prop := ∃ t, o = .next t

theorem Answers.next (t : State) : Answers (.next t) := ⟨t, rfl⟩

theorem Answers.ite {c : Prop} [Decidable c] {a b : Answer} (ha : Answers a) (hb : Answers b) :
    Answers (if c then a else b) := by
  split <;> assumption

theorem Runs.of_keepsA {o : Answer} (h : KeepsA s o) (ho : Answers o) : Runs s o :=
  ho.imp fun t e => ⟨e, h t e⟩

theorem execCqHeadDoorbell_answers (f : Fin 64) (q : Fin 65) (v : BitVec 32) : Answers (execCqHeadDoorbell f q v u)
    := by
  unfold execCqHeadDoorbell
  refine .ite (.next _) (.ite (.next _) (.ite (.next _) ?_))
  split
  · exact .next _
  · exact .ite (.next _) (.next _)

theorem execCcEnable_answers (f : Fin 64) (w : BusW) : Answers (execCcEnable f w u) := by
  unfold execCcEnable
  exact .ite (.next _) (.ite (.next _) (.next _))

theorem execCcDisable_answers (f : Fin 64) (w : BusW) : Answers (execCcDisable f w u) := by
  unfold execCcDisable
  exact .ite (.next _) (.ite (.next _) (.next _))

theorem execCcShutdown_answers (f : Fin 64) (w : BusW) : Answers (execCcShutdown f w u) := by
  unfold execCcShutdown
  exact .ite (.next _) (.ite (.next _) (.ite (.next _) (.next _)))

theorem execIntmsWrite_answers (f : Fin 64) (w : BusW) : Answers (execIntmsWrite f w u) := by
  unfold execIntmsWrite
  exact .ite (.next _) (.ite (.next _) (.next _))

theorem execIntmcWrite_answers (f : Fin 64) (w : BusW) : Answers (execIntmcWrite f w u) := by
  unfold execIntmcWrite
  exact .ite (.next _) (.ite (.next _) (.next _))

theorem execBmeClear_answers (f : Fin 64) : Answers (execBmeClear f u) := by
  unfold execBmeClear
  exact .ite (.next _) (.next _)

theorem execBmeSet_answers (f : Fin 64) : Answers (execBmeSet f u) := by
  unfold execBmeSet
  exact .ite (.next _) (.ite (.next _) (.next _))

theorem execPowerStateD3hot_answers (f : Fin 64) : Answers (execPowerStateD3hot f u) := by
  unfold execPowerStateD3hot
  exact .ite (.next _) (.ite (.next _) (.next _))

theorem execPowerStateD0_answers (f : Fin 64) : Answers (execPowerStateD0 f u) := by
  unfold execPowerStateD0
  exact .ite (.next _) (.ite (.next _) (.next _))

theorem execVfEnable_answers (w : BusW) : Answers (execVfEnable w u) := by
  unfold execVfEnable
  exact .ite (.next _) (.ite (.next _) (.next _))

theorem execVfDisable_answers (w : BusW) : Answers (execVfDisable w u) := by
  unfold execVfDisable
  exact .ite (.next _) (.ite (.next _) (.next _))

theorem execIntModeChange_answers (f : Fin 64) (msix msi intxOff : Bool) : Answers (execIntModeChange f msix msi
    intxOff u) := by
  unfold execIntModeChange
  exact .ite (.next _) (.ite (.next _) (.ite (.next _) (.next _)))

theorem execChkPortGo_answers (c : Fin 4) (w : BusW) : Answers (execChkPortGo c w u) := by
  unfold execChkPortGo
  refine .ite (.next _) (.ite (.next _) ?_)
  split <;> exact .next _

theorem execFltInjArm_answers (w : BusW) : Answers (execFltInjArm w u) := by
  unfold execFltInjArm
  refine .ite (.next _) ?_
  dsimp only
  split
  · exact .next _
  · exact .ite (.next _) (.next _)

theorem execSprSalvStart_answers (w : BusW) : Answers (execSprSalvStart w u) := by
  unfold execSprSalvStart
  exact .ite (.next _) (.ite (.next _) (.next _))

theorem execSrvGo_answers (arm' : Fin 4) (w : BusW) : Answers (execSrvGo arm' w u) := by
  unfold execSrvGo
  exact .ite (.next _) (.ite (.next _) (.next _))

theorem execSpmStart_answers (vs : List Abc) : Answers (execSpmStart vs u) := by
  unfold execSpmStart
  exact .ite (.next _) (.ite (.next _) (.ite (.next _) (.next _)))

theorem execSenseStart_answers (arm : Fin 4) (w : BusW) : Answers (execSenseStart arm w u) := by
  unfold execSenseStart
  exact .ite (.next _) (.ite (.next _) (.next _))

theorem execYrdChReset_answers (n : Fin 32) (w : BusW) : Answers (execYrdChReset n w u) := by
  unfold execYrdChReset
  exact .ite (.next _) (.next _)

theorem execPreampRegAccess_answers (arm : Fin 4) (w : BusW) : Answers (execPreampRegAccess arm w u) := by
  unfold execPreampRegAccess
  exact .ite (.next _) (.ite (.next _) (.ite (.next _) (.next _)))

theorem execLinkEnable_answers (arm : Fin 4) (w : BusW) : Answers (execLinkEnable arm w u) := by
  unfold execLinkEnable
  exact .ite (.next _) (.next _)

theorem execLinkDisable_answers (arm : Fin 4) (w : BusW) : Answers (execLinkDisable arm w u) := by
  unfold execLinkDisable
  exact .ite (.next _) (.next _)

theorem execBlazePost_answers (m : Master) (c : Fin 5) (w : BusW) : Answers (execBlazePost m c w u) := by
  unfold execBlazePost
  exact .ite (.next _) (.ite (.next _) (.next _))

theorem execFlr_answers (f : Fin 64) : Answers (execFlr f u) := by
  unfold execFlr
  exact .ite (.next _) (.ite (.next _) (.next _))

theorem execSqTailDoorbell_answers (f : Fin 64) (q : Fin 65) (v : BitVec 32) : Answers (execSqTailDoorbell f q v u)
    := by
  unfold execSqTailDoorbell
  refine .ite (.next _) (.ite (.next _) (.ite (.next _) ?_))
  split
  · exact .next _
  · exact .ite (.next _) (.next _)

theorem execMsixUnmask_answers (f : Fin 64) (v : Option (Fin 2048)) : Answers (execMsixUnmask f v u) := by
  unfold execMsixUnmask
  exact .ite (.next _) (.next _)

end

/-! ### Commands that change the geometry, the fuses or device time -/

/-- From `s` to `t` the queue stays and the memories and the register table stay canonical: what every command keeps. -/
structure KeepsTables (s t : State) : Prop where
  pending : t.pending = s.pending
  mem : memWf s = true → memWf t = true
  regs : regsWf s = true → regsWf t = true

/-- What outlasts even a loss of power: the fuses stay too. -/
structure Outlasts (s t : State) : Prop extends KeepsTables s t where
  fuse : t.fuse = s.fuse

theorem keepsTables_of_keeps {s t : State} (h : Keeps s t) : KeepsTables s t := ⟨h.pending, h.mem, h.regs⟩

theorem outlasts_of_keeps {s t : State} (h : Keeps s t) : Outlasts s t := ⟨keepsTables_of_keeps h, h.fuse⟩

theorem Outlasts.trans_keeps {s t v : State} (h : Outlasts s t) (g : Keeps t v) : Outlasts s v :=
  ⟨⟨g.pending.trans h.pending, fun x => g.mem (h.mem x), fun x => g.regs (h.regs x)⟩, g.fuse.trans h.fuse⟩

/-- A geometry load keeps everything but the geometry (R28). -/
theorem execGeoLoadDone_keeps (s : State) :
    ∃ t, execGeoLoadDone s = .next t ∧ Keeps { s with geo := t.geo } t := by
  refine ⟨_, rfl, ?_⟩
  split
  · exact .refl s
  next base _ =>
    extract_lets +onlyGivenNames t1
    have h1 : Keeps s t1 := put_keeps _ _ _ (put_keeps _ _ _ (Keeps.upd.2 (.refl s)))
    split
    next =>
      have e : { s with geo := t1.geo } = s := by rw [h1.geo]
      rw [e]; exact h1
    next g _ =>
      have hg : Keeps { s with geo := some g } { t1 with geo := some g } :=
        ⟨h1.pending, h1.time, h1.fuse, rfl, h1.lock, h1.mem, h1.regs⟩
      have hl := loadedGeometry_keeps t1 (put_keeps F.SPR_GEO_STAT_GEN 0 (g.gen % 65536)
        (put_keeps F.SPR_GEO_CTL_ACTIVE 0 1 hg))
      rw [hl.geo]
      exact hl

/-- The end of a fuse burn keeps everything but the fuses (R498). -/
theorem execFuseBurnDone_keeps (ok : Bool) (s : State) :
    ∃ t, execFuseBurnDone ok s = .next t ∧ Keeps { s with fuse := t.fuse } t := by
  refine ⟨_, rfl, ?_⟩
  split
  · exact .refl s
  next op v _ =>
    dsimp only
    generalize (if ok then fuseSet op v s.fuse else fuseFailed op v s.fuse) = f
    have h0 : Keeps { s with fuse := f } { s with fuse := f, mgt := { s.mgt with burn := none } } :=
      Keeps.upd.2 (.refl _)
    have h := put_keeps F.MGT_FUSE_GO 0 0 (put_keeps F.MGT_FUSE_DONE 0 1 (put_keeps F.MGT_FUSE_FAIL 0 (!ok).toNat h0))
    rw [h.fuse]
    exact h

/-- Power-on reset clears the register table and every memory but the serial NOR (R487). -/
theorem powerOnReset_outlasts (s : State) : Outlasts s (powerOnReset s) := by
  refine ⟨⟨rfl, fun h => ?_, fun _ => rfl⟩, rfl⟩
  obtain ⟨-, -, -, -, hnor, -⟩ := (memWf_iff s).1 h
  exact (memWf_iff _).2 ⟨rfl, rfl, rfl, rfl, hnor, rfl, rfl⟩

theorem aonRestart_outlasts (s : State) : Outlasts s (aonRestart s) := by
  have h := powerOnReset_outlasts s
  refine ⟨⟨h.pending, h.mem, fun _ => ?_⟩, h.fuse⟩
  exact List.foldlRecOn (motive := fun r => Tab.rising r = true) _ _ rfl (fun r hr e _ => Tab.rising_put hr)

theorem domainsOff_outlasts (s : State) : Outlasts s (domainsOff s) :=
  (aonRestart_outlasts s).trans_keeps
    (put_keeps _ _ _ (put_keeps _ _ _ (put_keeps _ _ _ (put_keeps _ _ _ (.refl _)))))

theorem powerOff_outlasts {s u : State} (cause : Nat) (supplies : Bool) (h : Keeps s u) :
    Outlasts s (powerOff cause supplies u) := by
  have start {v} (hv : Outlasts u v) : Outlasts s v :=
    ⟨⟨hv.pending.trans h.pending, fun x => hv.mem (h.mem x), fun x => hv.regs (h.regs x)⟩, hv.fuse.trans h.fuse⟩
  unfold powerOff
  split
  · exact outlasts_of_keeps h
  · split
    · exact start ((powerOnReset_outlasts u).trans_keeps (put_keeps _ _ _ (.refl _)))
    · exact start (domainsOff_outlasts u)

theorem execAonSleepEnter_outlasts (s : State) : ∃ t, execAonSleepEnter s = .next t ∧ Outlasts s t := by
  refine ⟨_, rfl, ?_⟩
  split
  · exact outlasts_of_keeps (.refl s)
  · exact (domainsOff_outlasts s).trans_keeps (Keeps.upd.2 (.refl _))

theorem execAonPowerOn_outlasts (test : Bool) (s : State) :
    ∃ t, execAonPowerOn test s = .next t ∧ Outlasts s t := by
  refine ⟨_, rfl, ?_⟩
  split
  · exact outlasts_of_keeps (.refl s)
  · exact (powerOnReset_outlasts s).trans_keeps (Keeps.upd.2 (.refl _))

theorem execAonSupplyFall_outlasts (s : State) : ∃ t, execAonSupplyFall s = .next t ∧ Outlasts s t := by
  refine ⟨_, rfl, ?_⟩
  split
  · exact outlasts_of_keeps (.refl s)
  · exact (powerOnReset_outlasts s).trans_keeps (Keeps.upd.2 (.refl _))

theorem execDumpEnd_outlasts (ok supplies : Bool) (s : State) :
    ∃ t, execDumpEnd ok supplies s = .next t ∧ Outlasts s t := by
  refine ⟨_, rfl, ?_⟩
  have same := outlasts_of_keeps (.refl s)
  split
  · split
    · exact same
    · exact powerOff_outlasts _ _ (.refl s)
  · split
    · exact same
    · split
      · exact powerOff_outlasts _ _ (dumpFail_keeps (.refl s))
      · split
        · exact powerOff_outlasts _ _
            (dumpIdle_keeps (dumpSave_keeps (put_keeps _ _ _ (nandProgram_keeps _ _ (.refl s)))))
        · extract_lets +onlyGivenNames t
          have ht : Keeps s t := nandSpoil_keeps _ (.refl s)
          split
          · exact powerOff_outlasts _ _ (dumpFail_keeps ht)
          · exact outlasts_of_keeps (setDump_keeps _ ht)

/-! ### Every command -/

/-- The commands that leave the geometry, the fuses and device time as they are: all but six. -/
def Ordinary (c : Instr) : Prop :=
  c ≠ .geoLoadDone ∧ c ≠ .aonSleepEnter ∧ (∀ test, c ≠ .aonPowerOn test) ∧ c ≠ .aonSupplyFall ∧
    (∀ ok supplies, c ≠ .dumpEnd ok supplies) ∧ ∀ ok, c ≠ .fuseBurnDone ok

/-- Every ordinary command answers a next state and keeps the queue, device time, the fuses and the geometry. -/
theorem exec_runs (s : State) (c : Instr) (hc : Ordinary c) : Runs s (exec c s) := by
  obtain ⟨hgeo, hsleep, hon, hfall, hdump, hfuse⟩ := hc
  cases c with
  | registerWrite => exact execRegisterWrite_runs _ _ _ _ _ (.refl s)
  | readClear => exact execReadClear_runs _ _ _ (.refl s)
  | geoLoad => exact .of_keepsA (execGeoLoad_keeps (.refl s)) ⟨_, rfl⟩
  | sprFenceHeadWrite => exact .of_keepsA (execSprFenceHeadWrite_keeps _ _ (.refl s)) ⟨_, rfl⟩
  | sprFenceArmWrite => exact .of_keepsA (execSprFenceArmWrite_keeps _ (.refl s)) ⟨_, rfl⟩
  | exec => exact execExec_runs _ (.refl s)
  | statReceived => exact execStatReceived_runs _ _ (.refl s)
  | nakReceived => exact execNakReceived_runs _ _ _ (.refl s)
  | rdataReceived => exact execRdataReceived_runs _ _ _ _ _ (.refl s)
  | ackTimeout => exact execAckTimeout_runs _ (.refl s)
  | uplinkCodeErrors => exact execUplinkCodeErrors_runs _ _ (.refl s)
  | statTimeout => exact execStatTimeout_runs _ (.refl s)
  | wkillRelease => exact execWkillRelease_runs _ (.refl s)
  | senseStart => exact .of_keepsA (execSenseStart_keeps _ _ (.refl s)) (execSenseStart_answers _ _)
  | senseDone => exact execSenseDone_runs _ _ (.refl s)
  | preampRegAccess => exact .of_keepsA (execPreampRegAccess_keeps _ _ (.refl s)) (execPreampRegAccess_answers _ _)
  | linkEnable => exact .of_keepsA (execLinkEnable_keeps _ _ (.refl s)) (execLinkEnable_answers _ _)
  | linkDisable => exact .of_keepsA (execLinkDisable_keeps _ _ (.refl s)) (execLinkDisable_answers _ _)
  | linkRetrain => exact .of_keepsA (execLinkRetrain_keeps _ _ (.refl s)) ⟨_, rfl⟩
  | discUplinkIdle => exact execDiscUplinkIdle_runs _ (.refl s)
  | discAbsent => exact execDiscAbsent_runs _ (.refl s)
  | autoRetrain => exact execAutoRetrain_runs _ (.refl s)
  | laneWake => exact execLaneWake_runs _ (.refl s)
  | laneWakeDone => exact execLaneWakeDone_runs _ (.refl s)
  | laneReadyHold => exact execLaneReadyHold_runs _ (.refl s)
  | profileLoadDone => exact execProfileLoadDone_runs _ (.refl s)
  | readGate => exact execReadGate_runs _ (.refl s)
  | syncFound => exact execSyncFound_runs _ _ (.refl s)
  | sectorReadEnd => exact execSectorReadEnd_runs _ _ (.refl s)
  | servoGateOpen => exact execServoGateOpen_runs _ _ _ (.refl s)
  | servoGateClose => exact execServoGateClose_runs _ _ (.refl s)
  | resyncFound => exact execResyncFound_runs _ _ (.refl s)
  | laneCalRequest => exact .of_keepsA (execLaneCalRequest_keeps _ (.refl s)) ⟨_, rfl⟩
  | laneCalDone => exact execLaneCalDone_runs _ _ (.refl s)
  | synTune => exact .of_keepsA (execSynTune_keeps _ _ (.refl s)) ⟨_, rfl⟩
  | synLocked => exact execSynLocked_runs _ (.refl s)
  | synLockLost => exact execSynLockLost_runs _ (.refl s)
  | synWaitTimeout => exact execSynWaitTimeout_runs _ (.refl s)
  | wpProfileLoadDone => exact execWpProfileLoadDone_runs _ (.refl s)
  | wpArmedHold => exact execWpArmedHold_runs _ (.refl s)
  | sectorFeedDone => exact execSectorFeedDone_runs _ _ (.refl s)
  | blockLate => exact execBlockLate_runs _ (.refl s)
  | heatSend => exact execHeatSend_runs _ (.refl s)
  | heatHold => exact execHeatHold_runs _ (.refl s)
  | writeGateOpen => exact execWriteGateOpen_runs _ _ (.refl s)
  | sectorWriteEnd => exact execSectorWriteEnd_runs _ _ (.refl s)
  | writeOpEnd => exact execWriteOpEnd_runs _ (.refl s)
  | slotGrant => exact execSlotGrant_runs (.refl s)
  | fastDecodeStart => exact execFastDecodeStart_runs _ (.refl s)
  | engineWakeDone => exact execEngineWakeDone_runs _ (.refl s)
  | fastDecodeEnd => exact execFastDecodeEnd_runs _ _ (.refl s)
  | contextCopyDone => exact execContextCopyDone_runs _ _ (.refl s)
  | recoveryJobStart => exact execRecoveryJobStart_runs (.refl s)
  | recoveryJobEnd => exact execRecoveryJobEnd_runs _ (.refl s)
  | ladderTmax => exact execLadderTmax_runs _ (.refl s)
  | engineSleep => exact execEngineSleep_runs _ (.refl s)
  | decFenceWrite => exact .of_keepsA (execDecFenceWrite_keeps _ (.refl s)) ⟨_, rfl⟩
  | engineParityError => exact execEngineParityError_runs _ (.refl s)
  | decBistStart => exact .of_keepsA (execDecBistStart_keeps _ (.refl s)) ⟨_, rfl⟩
  | decBistDone => exact execDecBistDone_runs _ (.refl s)
  | servoWedge => exact execServoWedge_runs _ _ (.refl s)
  | servoWedgeMiss => exact execServoWedgeMiss_runs _ _ (.refl s)
  | servoGroupClose => exact execServoGroupClose_runs _ _ (.refl s)
  | srvLoad => exact .of_keepsA (execSrvLoad_keeps _ (.refl s)) ⟨_, rfl⟩
  | srvUnload => exact .of_keepsA (execSrvUnload_keeps _ (.refl s)) ⟨_, rfl⟩
  | srvGo => exact .of_keepsA (execSrvGo_keeps _ _ (.refl s)) (execSrvGo_answers _ _)
  | coefSwap => exact .of_keepsA (execCoefSwap_keeps _ (.refl s)) ⟨_, rfl⟩
  | loadAcquired => exact execLoadAcquired_runs _ (.refl s)
  | loadTimeout => exact execLoadTimeout_runs _ (.refl s)
  | unloadPhaseEnd => exact execUnloadPhaseEnd_runs _ (.refl s)
  | parkTimeout => exact execParkTimeout_runs _ (.refl s)
  | followEntry => exact execFollowEntry_runs _ (.refl s)
  | settleTimeout => exact execSettleTimeout_runs _ (.refl s)
  | armMissTimeout => exact execArmMissTimeout_runs _ (.refl s)
  | headLost => exact execHeadLost_runs _ (.refl s)
  | maSatExpire => exact execMaSatExpire_runs _ (.refl s)
  | wpermRearm => exact execWpermRearm_runs _ (.refl s)
  | vcmMismatch => exact execVcmMismatch_runs _ (.refl s)
  | shockSample => exact execShockSample_runs _ _ (.refl s)
  | shockRearm => exact execShockRearm_runs (.refl s)
  | shockInitWindow => exact execShockInitWindow_runs (.refl s)
  | shockStuck => exact execShockStuck_runs _ (.refl s)
  | spmStart => exact .of_keepsA (execSpmStart_keeps _ (.refl s)) (execSpmStart_answers _)
  | spmStop => exact .of_keepsA (execSpmStop_keeps (.refl s)) ⟨_, rfl⟩
  | spmPwmPeriod => exact execSpmPwmPeriod_runs _ (.refl s)
  | spmSpeedLoop => exact execSpmSpeedLoop_runs (.refl s)
  | spmLossOfSync => exact execSpmLossOfSync_runs (.refl s)
  | spmOffsetCalDone => exact execSpmOffsetCalDone_runs _ (.refl s)
  | spmStictionEnd => exact execSpmStictionEnd_runs (.refl s)
  | spmAlignEnd => exact execSpmAlignEnd_runs (.refl s)
  | spmRampWrap => exact execSpmRampWrap_runs (.refl s)
  | spmHoTimeout => exact execSpmHoTimeout_runs (.refl s)
  | spmRotorStill => exact execSpmRotorStill_runs _ (.refl s)
  | spmRetryTimeout => exact execSpmRetryTimeout_runs (.refl s)
  | spmCatchLock => exact execSpmCatchLock_runs _ (.refl s)
  | spmStageFault => exact execSpmStageFault_runs (.refl s)
  | spmAutoRestart => exact execSpmAutoRestart_runs (.refl s)
  | spmAtSpeed => exact execSpmAtSpeed_runs (.refl s)
  | descReadUnit => exact execDescReadUnit_runs (.refl s)
  | descReadStg => exact execDescReadStg_runs (.refl s)
  | descWriteStg => exact execDescWriteStg_runs _ (.refl s)
  | descWriteStripe => exact execDescWriteStripe_runs _ (.refl s)
  | stagingWaitExpire => exact execStagingWaitExpire_runs (.refl s)
  | stagingRoom => exact execStagingRoom_runs (.refl s)
  | stgTailWrite => exact .of_keepsA (execStgTailWrite_keeps _ (.refl s)) ⟨_, rfl⟩
  | stripePassEnd => exact execStripePassEnd_runs (.refl s)
  | stripeRebuild => exact execStripeRebuild_runs (.refl s)
  | sprSalvStart => exact .of_keepsA (execSprSalvStart_keeps _ (.refl s)) (execSprSalvStart_answers _)
  | sprSalvPause => exact .of_keepsA (execSprSalvPause_keeps _ (.refl s)) ⟨_, rfl⟩
  | sprSalvResume => exact .of_keepsA (execSprSalvResume_keeps _ (.refl s)) ⟨_, rfl⟩
  | sprSalvAbort => exact .of_keepsA (execSprSalvAbort_keeps _ (.refl s)) ⟨_, rfl⟩
  | salvageBatch => exact execSalvageBatch_runs (.refl s)
  | salvageStripeJudge => exact execSalvageStripeJudge_runs (.refl s)
  | lostRingRoom => exact execLostRingRoom_runs (.refl s)
  | cruiseVisit => exact execCruiseVisit_runs (.refl s)
  | cruiseClassify => exact execCruiseClassify_runs (.refl s)
  | cruiseRewrite => exact execCruiseRewrite_runs (.refl s)
  | perstAssert => exact execPerstAssert_runs (.refl s)
  | perstDeassert => exact execPerstDeassert_runs (.refl s)
  | linkResetEvent => exact execLinkResetEvent_runs _ (.refl s)
  | linkTrained => exact execLinkTrained_runs _ _ _ (.refl s)
  | aspmL1Entry => exact execAspmL1Entry_runs (.refl s)
  | sqTailDoorbell => exact .of_keepsA (execSqTailDoorbell_keeps _ _ _ (.refl s)) (execSqTailDoorbell_answers _ _ _)
  | cqHeadDoorbell => exact .of_keepsA (execCqHeadDoorbell_keeps _ _ _ (.refl s)) (execCqHeadDoorbell_answers _ _ _)
  | ccEnable => exact .of_keepsA (execCcEnable_keeps _ _ (.refl s)) (execCcEnable_answers _ _)
  | ccDisable => exact .of_keepsA (execCcDisable_keeps _ _ (.refl s)) (execCcDisable_answers _ _)
  | ccShutdown => exact .of_keepsA (execCcShutdown_keeps _ _ (.refl s)) (execCcShutdown_answers _ _)
  | intmsWrite => exact .of_keepsA (execIntmsWrite_keeps _ _ (.refl s)) (execIntmsWrite_answers _ _)
  | intmcWrite => exact .of_keepsA (execIntmcWrite_keeps _ _ (.refl s)) (execIntmcWrite_answers _ _)
  | cmbWrite => exact execCmbWrite_runs _ _ _ _ (.refl s)
  | cmbRead => exact execCmbRead_runs _ _ _ (.refl s)
  | flr => exact .of_keepsA (execFlr_keeps _ (.refl s)) (execFlr_answers _)
  | flrReady => exact execFlrReady_runs _ (.refl s)
  | bmeClear => exact .of_keepsA (execBmeClear_keeps _ (.refl s)) (execBmeClear_answers _)
  | bmeSet => exact .of_keepsA (execBmeSet_keeps _ (.refl s)) (execBmeSet_answers _)
  | bmeStallExpire => exact execBmeStallExpire_runs _ (.refl s)
  | vfEnable => exact .of_keepsA (execVfEnable_keeps _ (.refl s)) (execVfEnable_answers _)
  | vfDisable => exact .of_keepsA (execVfDisable_keeps _ (.refl s)) (execVfDisable_answers _)
  | powerStateD3hot => exact .of_keepsA (execPowerStateD3hot_keeps _ (.refl s)) (execPowerStateD3hot_answers _)
  | powerStateD0 => exact .of_keepsA (execPowerStateD0_keeps _ (.refl s)) (execPowerStateD0_answers _)
  | msixUnmask => exact .of_keepsA (execMsixUnmask_keeps _ _ (.refl s)) (execMsixUnmask_answers _ _)
  | intModeChange => exact .of_keepsA (execIntModeChange_keeps _ _ _ _ (.refl s)) (execIntModeChange_answers _ _ _ _)
  | completionReceived => exact execCompletionReceived_runs _ _ _ _ _ (.refl s)
  | completionTimeout => exact execCompletionTimeout_runs _ _ (.refl s)
  | sqEntryFetched => exact execSqEntryFetched_runs _ _ (.refl s)
  | admitEntry => exact execAdmitEntry_runs (.refl s)
  | chokerEntryTake => exact execChokerEntryTake_runs (.refl s)
  | chokerGrant => exact execChokerGrant_runs (.refl s)
  | deckIoEn => exact .of_keepsA (execDeckIoEn_keeps _ (.refl s)) ⟨_, rfl⟩
  | deckPause => exact .of_keepsA (execDeckPause_keeps _ (.refl s)) ⟨_, rfl⟩
  | deckAdminEn => exact .of_keepsA (execDeckAdminEn_keeps _ (.refl s)) ⟨_, rfl⟩
  | deckFnWrite => exact .of_keepsA (execDeckFnWrite_keeps _ _ (.refl s)) ⟨_, rfl⟩
  | chkPortGo => exact .of_keepsA (execChkPortGo_keeps _ _ (.refl s)) (execChkPortGo_answers _ _)
  | chkPortRel => exact .of_keepsA (execChkPortRel_keeps _ _ (.refl s)) ⟨_, rfl⟩
  | createIoSq => exact execCreateIoSq_runs _ (.refl s)
  | createIoCq => exact execCreateIoCq_runs _ (.refl s)
  | deleteIoSq => exact execDeleteIoSq_runs _ (.refl s)
  | deleteIoCq => exact execDeleteIoCq_runs _ (.refl s)
  | getLogPage => exact execGetLogPage_runs _ (.refl s)
  | identify => exact execIdentify_runs _ (.refl s)
  | abort => exact execAbort_runs _ (.refl s)
  | setFeatures => exact execSetFeatures_runs _ (.refl s)
  | getFeatures => exact execGetFeatures_runs _ (.refl s)
  | asyncEventRequest => exact execAsyncEventRequest_runs _ (.refl s)
  | nsCreate => exact execNsCreate_runs _ _ _ (.refl s)
  | nsDelete => exact execNsDelete_runs _ (.refl s)
  | nsAttach => exact execNsAttach_runs _ (.refl s)
  | nsDetach => exact execNsDetach_runs _ (.refl s)
  | formatNvm => exact execFormatNvm_runs _ (.refl s)
  | fwImageDownload => exact execFwImageDownload_runs _ (.refl s)
  | fwCommitStore => exact execFwCommitStore_runs _ (.refl s)
  | fwCommitStoreNext => exact execFwCommitStoreNext_runs _ (.refl s)
  | fwCommitSlotNext => exact execFwCommitSlotNext_runs _ (.refl s)
  | fwCommitActivate => exact execFwCommitActivate_runs _ (.refl s)
  | vmSecondaryOffline => exact execVmSecondaryOffline_runs _ (.refl s)
  | vmSecondaryAssign => exact execVmSecondaryAssign_runs _ (.refl s)
  | vmSecondaryOnline => exact execVmSecondaryOnline_runs _ (.refl s)
  | vmPrimaryFlex => exact execVmPrimaryFlex_runs _ (.refl s)
  | txnBegin => exact .of_keepsA (execTxnBegin_keeps _ _ (.refl s)) ⟨_, rfl⟩
  | txnStage => exact .of_keepsA (execTxnStage_keeps _ _ (.refl s)) ⟨_, rfl⟩
  | txnCommit => exact .of_keepsA (execTxnCommit_keeps _ _ (.refl s)) ⟨_, rfl⟩
  | txnRollback => exact .of_keepsA (execTxnRollback_keeps _ _ (.refl s)) ⟨_, rfl⟩
  | txnQuery => exact .of_keepsA (execTxnQuery_keeps _ _ (.refl s)) ⟨_, rfl⟩
  | txnRollbackTimeout => exact execTxnRollbackTimeout_runs (.refl s)
  | commitStored => exact execCommitStored_runs _ (.refl s)
  | commitArmQuiet => exact execCommitArmQuiet_runs _ (.refl s)
  | cfgBlobDone => exact .of_keepsA (execCfgBlobDone_keeps _ (.refl s)) ⟨_, rfl⟩
  | tallyScale => exact execTallyScale_runs _ (.refl s)
  | tallyRead => exact execTallyRead_runs _ (.refl s)
  | blazeRead => exact execBlazeRead_runs _ (.refl s)
  | faultStatus => exact execFaultStatus_runs _ (.refl s)
  | salvageStatus => exact execSalvageStatus_runs _ (.refl s)
  | salvageCtlStart => exact execSalvageCtlStart_runs _ _ (.refl s)
  | salvageCtlPause => exact execSalvageCtlPause_runs _ (.refl s)
  | salvageCtlResume => exact execSalvageCtlResume_runs _ (.refl s)
  | salvageCtlAbort => exact execSalvageCtlAbort_runs _ (.refl s)
  | clearLost => exact execClearLost_runs _ (.refl s)
  | fenceQuery => exact execFenceQuery_runs _ (.refl s)
  | fenceHead => exact execFenceHead_runs _ (.refl s)
  | unfenceHead => exact execUnfenceHead_runs _ _ (.refl s)
  | fenceArm => exact execFenceArm_runs _ (.refl s)
  | unfenceArm => exact execUnfenceArm_runs _ _ (.refl s)
  | fenceRegion => exact execFenceRegion_runs _ (.refl s)
  | unfenceRegion => exact execUnfenceRegion_runs _ _ (.refl s)
  | budgetQuery => exact execBudgetQuery_runs _ (.refl s)
  | setBudget => exact execSetBudget_runs _ (.refl s)
  | setShares => exact execSetShares_runs _ (.refl s)
  | sensorRead => exact execSensorRead_runs _ (.refl s)
  | flush => exact execFlush_runs _ (.refl s)
  | write => exact execWrite_runs _ _ (.refl s)
  | read => exact execRead_runs _ _ (.refl s)
  | compare => exact execCompare_runs _ _ (.refl s)
  | writeZeroes => exact execWriteZeroes_runs _ _ (.refl s)
  | verify => exact execVerify_runs _ _ (.refl s)
  | orderedWrite => exact execOrderedWrite_runs _ _ (.refl s)
  | orderedRead => exact execOrderedRead_runs _ _ (.refl s)
  | barrier => exact execBarrier_runs _ (.refl s)
  | writeDataReceived => exact execWriteDataReceived_runs _ (.refl s)
  | completionPost => exact execCompletionPost_runs _ _ (.refl s)
  | tlerExpire => exact execTlerExpire_runs _ (.refl s)
  | coalesceTimeout => exact execCoalesceTimeout_runs _ _ (.refl s)
  | decisionStart => exact execDecisionStart_runs _ (.refl s)
  | itemDispatch => exact execItemDispatch_runs _ (.refl s)
  | itemEnd => exact execItemEnd_runs _ (.refl s)
  | itemUrgent => exact execItemUrgent_runs (.refl s)
  | govTick => exact execGovTick_runs (.refl s)
  | govOverClear => exact execGovOverClear_runs (.refl s)
  | govDerateUpdate => exact execGovDerateUpdate_runs (.refl s)
  | govBgWrite => exact .of_keepsA (execGovBgWrite_keeps _ (.refl s)) ⟨_, rfl⟩
  | lndTrainStart => exact .of_keepsA (execLndTrainStart_keeps _ (.refl s)) ⟨_, rfl⟩
  | lndTrainDone => exact execLndTrainDone_runs _ _ _ (.refl s)
  | lndFillGo => exact .of_keepsA (execLndFillGo_keeps _ (.refl s)) ⟨_, rfl⟩
  | lndFillDone => exact execLndFillDone_runs (.refl s)
  | lndScrubStep => exact execLndScrubStep_runs _ (.refl s)
  | lndRmapCopy => exact .of_keepsA (execLndRmapCopy_keeps _ _ (.refl s)) ⟨_, rfl⟩
  | lndRmapCopyDone => exact execLndRmapCopyDone_runs _ _ (.refl s)
  | lndRmapClear => exact .of_keepsA (execLndRmapClear_keeps _ _ (.refl s)) ⟨_, rfl⟩
  | landingWrite => exact .of_keepsA (execLandingWrite_keeps _ _ _ _ _ _ (.refl s)) ⟨_, rfl⟩
  | landingRead => exact .of_keepsA (execLandingRead_keeps _ _ _ _ _ (.refl s)) ⟨_, rfl⟩
  | mergeEvictAge => exact execMergeEvictAge_runs _ (.refl s)
  | ffenceClean => exact .of_keepsA (execFfenceClean_keeps _ _ _ (.refl s)) ⟨_, rfl⟩
  | ffenceInval => exact .of_keepsA (execFfenceInval_keeps _ _ _ (.refl s)) ⟨_, rfl⟩
  | ffenceCleanInval => exact .of_keepsA (execFfenceCleanInval_keeps _ _ _ (.refl s)) ⟨_, rfl⟩
  | ffenceDrain => exact .of_keepsA (execFfenceDrain_keeps _ _ _ _ (.refl s)) ⟨_, rfl⟩
  | ffenceCleanAll => exact .of_keepsA (execFfenceCleanAll_keeps _ _ _ (.refl s)) ⟨_, rfl⟩
  | ffenceCleanInvalAll => exact .of_keepsA (execFfenceCleanInvalAll_keeps _ _ _ (.refl s)) ⟨_, rfl⟩
  | amoAccess => exact execAmoAccess_runs _ _ _ _ _ _ (.refl s)
  | yrdDoorbell => exact .of_keepsA (execYrdDoorbell_keeps _ (.refl s)) ⟨_, rfl⟩
  | yrdDescStart => exact execYrdDescStart_runs _ (.refl s)
  | yrdDescEnd => exact execYrdDescEnd_runs _ _ (.refl s)
  | yrdChReset => exact .of_keepsA (execYrdChReset_keeps _ _ (.refl s)) (execYrdChReset_answers _ _)
  | yrdChResume => exact .of_keepsA (execYrdChResume_keeps _ _ (.refl s)) ⟨_, rfl⟩
  | tlyScaleGo => exact .of_keepsA (execTlyScaleGo_keeps _ (.refl s)) ⟨_, rfl⟩
  | tallyPeriodExpire => exact execTallyPeriodExpire_runs (.refl s)
  | tallyLatch => exact execTallyLatch_runs (.refl s)
  | tallyHandshakeReq => exact execTallyHandshakeReq_runs (.refl s)
  | tallyHandshakeApply => exact execTallyHandshakeApply_runs (.refl s)
  | blazePost => exact .of_keepsA (execBlazePost_keeps _ _ _ (.refl s)) (execBlazePost_answers _ _ _)
  | blazeWriteStart => exact execBlazeWriteStart_runs (.refl s)
  | blazeBodyProgrammed => exact execBlazeBodyProgrammed_runs _ (.refl s)
  | blazeMarkProgrammed => exact execBlazeMarkProgrammed_runs _ (.refl s)
  | blazeEraseDone => exact execBlazeEraseDone_runs _ (.refl s)
  | blazeScanDone => exact execBlazeScanDone_runs (.refl s)
  | checkerReport => exact execCheckerReport_runs _ _ (.refl s)
  | checkerConditionFalse => exact execCheckerConditionFalse_runs _ (.refl s)
  | fltAckWrite => exact .of_keepsA (execFltAckWrite_keeps _ (.refl s)) ⟨_, rfl⟩
  | fltClrWrite => exact .of_keepsA (execFltClrWrite_keeps _ (.refl s)) ⟨_, rfl⟩
  | fltFc3Clear => exact .of_keepsA (execFltFc3Clear_keeps _ (.refl s)) ⟨_, rfl⟩
  | fltFc3AckWrite => exact .of_keepsA (execFltFc3AckWrite_keeps _ (.refl s)) ⟨_, rfl⟩
  | fltInjArm => exact .of_keepsA (execFltInjArm_keeps _ (.refl s)) (execFltInjArm_answers _)
  | fltChkLatchClear => exact .of_keepsA (execFltChkLatchClear_keeps _ _ (.refl s)) ⟨_, rfl⟩
  | eventClaim r =>
    -- unfolded first: unification would evaluate the 2 ^ 31 of the value answered
    unfold exec
    exact execEventClaim_runs r (.refl s)
  | eventPendClear => exact .of_keepsA (execEventPendClear_keeps _ _ (.refl s)) ⟨_, rfl⟩
  | softwareEvent => exact .of_keepsA (execSoftwareEvent_keeps _ (.refl s)) ⟨_, rfl⟩
  | wdtKick => exact .of_keepsA (execWdtKick_keeps _ (.refl s)) ⟨_, rfl⟩
  | wdtExpire => exact execWdtExpire_runs (.refl s)
  | lifeRecordSave => exact execLifeRecordSave_runs (.refl s)
  | thermalSample => exact execThermalSample_runs _ (.refl s)
  | thermistorSample => exact execThermistorSample_runs _ _ (.refl s)
  | thermistorOpen => exact execThermistorOpen_runs _ (.refl s)
  | monitorSample => exact execMonitorSample_runs _ _ _ (.refl s)
  | roSample => exact execRoSample_runs _ (.refl s)
  | wearSample => exact execWearSample_runs _ _ (.refl s)
  | bootComplete => exact execBootComplete_runs (.refl s)
  | cfgLock => exact .of_keepsA (execCfgLock_keeps _ (.refl s)) ⟨_, rfl⟩
  | actStaged => exact execActStaged_runs (.refl s)
  | actGo => exact .of_keepsA (execActGo_keeps _ (.refl s)) ⟨_, rfl⟩
  | actDone => exact .of_keepsA (execActDone_keeps _ (.refl s)) ⟨_, rfl⟩
  | actTimeout => exact execActTimeout_runs (.refl s)
  | fuseBurn => exact .of_keepsA (execFuseBurn_keeps _ (.refl s)) ⟨_, rfl⟩
  | mctpSetEndpointId => exact execMctpSetEndpointId_runs _ _ _ (.refl s)
  | mctpGetEndpointId => exact execMctpGetEndpointId_runs _ (.refl s)
  | mctpGetVersionSupport => exact execMctpGetVersionSupport_runs _ _ (.refl s)
  | mctpGetMessageTypeSupport => exact execMctpGetMessageTypeSupport_runs _ (.refl s)
  | readNvmeMiDataStructure => exact execReadNvmeMiDataStructure_runs _ _ _ _ (.refl s)
  | subsystemHealthPoll => exact execSubsystemHealthPoll_runs _ (.refl s)
  | controllerHealthPoll => exact execControllerHealthPoll_runs _ _ _ (.refl s)
  | configurationGet => exact execConfigurationGet_runs _ _ _ (.refl s)
  | configurationSet => exact execConfigurationSet_runs _ _ _ _ (.refl s)
  | vpdRead => exact execVpdRead_runs _ _ _ (.refl s)
  | miUnsupported => exact execMiUnsupported_runs _ (.refl s)
  | clockSourceLost => exact execClockSourceLost_runs _ (.refl s)
  | clockSourceReturned => exact execClockSourceReturned_runs _ (.refl s)
  | cprRetractSet => exact .of_keepsA (execCprRetractSet_keeps _ (.refl s)) ⟨_, rfl⟩
  | cprRetractRel => exact .of_keepsA (execCprRetractRel_keeps _ (.refl s)) ⟨_, rfl⟩
  | armDomainOn => exact .of_keepsA (execArmDomainOn_keeps _ _ (.refl s)) ⟨_, rfl⟩
  | armDomainOff => exact .of_keepsA (execArmDomainOff_keeps _ _ (.refl s)) ⟨_, rfl⟩
  | standbyRequest => exact .of_keepsA (execStandbyRequest_keeps _ (.refl s)) ⟨_, rfl⟩
  | standbyEnter => exact execStandbyEnter_runs (.refl s)
  | standbyWake => exact execStandbyWake_runs (.refl s)
  | cprWake => exact .of_keepsA (execCprWake_keeps _ (.refl s)) ⟨_, rfl⟩
  | aonSleepExit => exact execAonSleepExit_runs (.refl s)
  | domainsPowerUp => exact execDomainsPowerUp_runs (.refl s)
  | pllsLocked => exact execPllsLocked_runs (.refl s)
  | warmReset => exact .of_keepsA (execWarmReset_keeps _ (.refl s)) ⟨_, rfl⟩
  | warmResetReloadDone => exact execWarmResetReloadDone_runs (.refl s)
  | lyoloReset => exact .of_keepsA (execLyoloReset_keeps _ _ (.refl s)) ⟨_, rfl⟩
  | lyoloBootDone => exact execLyoloBootDone_runs (.refl s)
  | powerLossSignal => exact execPowerLossSignal_runs (.refl s)
  | dumpPageDone => exact execDumpPageDone_runs _ _ (.refl s)
  | dumpArm => exact .of_keepsA (execDumpArm_keeps _ (.refl s)) ⟨_, rfl⟩
  | dumpRestore => exact .of_keepsA (execDumpRestore_keeps _ (.refl s)) ⟨_, rfl⟩
  | dumpRestoreDone => exact execDumpRestoreDone_runs _ (.refl s)
  | geoLoadDone => exact absurd rfl hgeo
  | aonSleepEnter => exact absurd rfl hsleep
  | aonPowerOn test => exact absurd rfl (hon test)
  | aonSupplyFall => exact absurd rfl hfall
  | dumpEnd ok supplies => exact absurd rfl (hdump ok supplies)
  | fuseBurnDone ok => exact absurd rfl (hfuse ok)

theorem Runs.tables {s : State} {o : Answer} (h : Runs s o) : ∃ t, o = .next t ∧ KeepsTables s t :=
  h.imp fun _ ht => ⟨ht.1, keepsTables_of_keeps ht.2⟩

theorem Runs.kept {s : State} {o : Answer} (h : Runs s o) : ∃ t, o = .next t ∧ kept s t :=
  h.imp fun _ ht => ⟨ht.1, ht.2.pending, ht.2.time, ht.2.fuse, ht.2.geo⟩

theorem tables_of_outlasts {s : State} {o : Answer} (h : ∃ t, o = .next t ∧ Outlasts s t) :
    ∃ t, o = .next t ∧ KeepsTables s t :=
  h.imp fun _ ht => ⟨ht.1, ht.2.toKeepsTables⟩

/-- Every command, of whatever kind, answers a next state, keeps the queue and keeps the tables canonical. -/
theorem exec_tables (c : Instr) (s : State) : ∃ t, exec c s = .next t ∧ KeepsTables s t := by
  by_cases hc : Ordinary c
  · exact (exec_runs s c hc).tables
  · simp only [Ordinary, not_and_or, not_forall, ne_eq, not_not] at hc
    rcases hc with rfl | rfl | ⟨test, rfl⟩ | rfl | ⟨ok, supplies, rfl⟩ | ⟨ok, rfl⟩
    · obtain ⟨t, e, h⟩ := execGeoLoadDone_keeps s
      exact ⟨t, e, h.pending, h.mem, h.regs⟩
    · exact tables_of_outlasts (execAonSleepEnter_outlasts s)
    · exact tables_of_outlasts (execAonPowerOn_outlasts test s)
    · exact tables_of_outlasts (execAonSupplyFall_outlasts s)
    · exact tables_of_outlasts (execDumpEnd_outlasts ok supplies s)
    · obtain ⟨t, e, h⟩ := execFuseBurnDone_keeps ok s
      exact ⟨t, e, h.pending, h.mem, h.regs⟩

/-! ### The statements over all commands -/

theorem tick_keepsTables (s : State) : KeepsTables s (tick s) := by
  unfold tick
  split
  · extract_lets t
    have h : KeepsTables s t := ⟨rfl, id, id⟩
    split
    · exact h
    · have hp : Keeps t (put F.BLZ_TIME_SECONDS 0 (fld F.BLZ_TIME_SECONDS 0 s + 1) t) := put_keeps _ _ _ (.refl t)
      exact ⟨hp.pending, hp.mem, hp.regs⟩
  · exact keepsTables_of_keeps (.refl s)

/-- Settles O11: every command answers, and keeps the queue (`exec_tables`). -/
theorem everyCommandAnswers : Obligations.EveryCommandAnswers := by
  intro c s
  obtain ⟨t, e, h⟩ := exec_tables c s
  exact ⟨t, e, h.pending⟩

/-- Settles O10: an idle step writes one register, and of a command's step `exec_tables` says it. -/
theorem stepKeepsCanonicalTables : Obligations.StepKeepsCanonicalTables := by
  intro s t hmem hregs hqueue hstep
  unfold step at hstep
  split at hstep
  · cases hstep
    have h := tick_keepsTables s
    exact ⟨h.mem hmem, h.regs hregs, by rw [queueWf, h.pending]; exact hqueue⟩
  next c rest hp =>
    obtain ⟨v, e, h⟩ := exec_tables c { s with pending := rest }
    cases e.symm.trans hstep
    rw [queueWf, hp, List.all_cons, Bool.and_eq_true] at hqueue
    exact ⟨h.mem hmem, h.regs hregs, by rw [queueWf, h.pending]; exact hqueue.2⟩

/-- Settles O1: each command named is ordinary (`exec_runs`), but the end of a geometry load, which changes the
geometry (`execGeoLoadDone_keeps`). -/
theorem mediaCommandsComplete : Obligations.MediaCommandsComplete := by
  have go {c : Instr} (s : State) (hc : Ordinary c := by simp [Ordinary]) : ∃ t, exec c s = .next t ∧ kept s t :=
    (exec_runs s c hc).kept
  refine ⟨fun _ _ _ _ _ s => go s, fun _ _ _ s => go s, ?geoLoadDone, fun _ _ s => go s, fun _ s => go s,
    fun _ s => go s, fun _ _ s => go s, fun _ _ _ s => go s, fun _ _ _ _ _ s => go s, fun _ s => go s,
    fun _ _ s => go s, fun _ s => go s, fun _ _ s => go s, fun _ _ s => go s, fun _ _ s => go s, fun _ _ s => go s,
    fun _ _ s => go s, fun _ _ s => go s, fun _ s => go s, fun _ s => go s, fun _ s => go s, fun _ s => go s,
    fun _ s => go s, fun _ s => go s, fun _ _ s => go s, fun _ _ _ s => go s, fun _ _ s => go s, fun _ s => go s,
    fun _ _ s => go s, fun _ _ s => go s, fun _ s => go s, fun _ s => go s, fun _ s => go s, fun _ s => go s,
    fun _ _ s => go s, fun _ s => go s, fun _ _ s => go s, fun _ s => go s, fun _ _ s => go s, fun _ _ s => go s,
    fun s => go s, fun _ s => go s, fun _ s => go s, fun _ s => go s, fun _ s => go s⟩
  case geoLoadDone =>
    intro s
    obtain ⟨t, e, h⟩ := execGeoLoadDone_keeps s
    exact ⟨t, e, h.pending, h.time, h.fuse⟩

end Sys2Proof.Proofs
end

section
/-! PROOFS. Register writes bit by bit, the reach of the surfaces, the memories while a fill runs, and the state after reset. -/

namespace Sys2Proof.Proofs

open Sys2Proof Sys2Proof.Machine Sys2Proof.Laws

/-! ### The bits that a register write changes (R9) -/

theorem beMask_succ (n be : Nat) :
    beMask (n + 1) be = if be.testBit n then beMask n be + 255 * 256 ^ n else beMask n be := by
  simp [beMask, upTo, List.range_succ]

theorem pow256_eq_two_pow (n : Nat) : 256 ^ n = 2 ^ (8 * n) := by rw [Nat.pow_mul]

theorem beMask_lt (n be : Nat) : beMask n be < 2 ^ (8 * n) := by
  induction n with
  | zero => simp [beMask, upTo]
  | succ n ih =>
    rw [beMask_succ, ← pow256_eq_two_pow, Nat.pow_succ]
    rw [← pow256_eq_two_pow] at ih
    split <;> omega

/-- Bit `k` of the mask is 1 exactly when `be` names the byte it stands in. -/
theorem testBit_beMask (n be k : Nat) : (beMask n be).testBit k = (decide (k < 8 * n) && be.testBit (k / 8)) := by
  induction n with
  | zero => simp [beMask, upTo]
  | succ n ih =>
    have hlow : k < 8 * n → (beMask (n + 1) be).testBit k = (beMask n be).testBit k := by
      intro hk
      rw [beMask_succ]
      split
      · rw [Nat.add_comm, Nat.mul_comm, pow256_eq_two_pow, Nat.testBit_two_pow_mul_add _ (beMask_lt n be), if_pos hk]
      · rfl
    have hhigh : 8 * n ≤ k → (beMask (n + 1) be).testBit k = (decide (k < 8 * (n + 1)) && be.testBit n) := by
      intro hk
      have h0 : (beMask n be).testBit k = false := by rw [ih]; simp [Nat.not_lt.2 hk]
      rw [beMask_succ]
      split
      next hb =>
        have h255 : Nat.testBit 255 (k - 8 * n) = decide (k - 8 * n < 8) := Nat.testBit_two_pow_sub_one 8 _
        rw [Nat.add_comm, Nat.mul_comm, pow256_eq_two_pow, Nat.testBit_two_pow_mul_add _ (beMask_lt n be),
          if_neg (by omega), h255, hb, Bool.and_true]
        exact decide_eq_decide.2 (by omega)
      next hb => simp [h0, hb]
    by_cases hk : k < 8 * n
    · rw [hlow hk, ih]; simp [hk, show k < 8 * (n + 1) by omega]
    · rw [hhigh (by omega)]
      by_cases hk' : k < 8 * (n + 1)
      · simp [hk', show k / 8 = n by omega]
      · simp [hk']

/-- Bit `k` of what a register holds after a write, from the bits of its masks. -/
theorem testBit_merged (r : RegDef) (locked : Bool) (old : Nat) (w : BusW) (hr : r.bytes ≤ 8) {k : Nat}
    (hk : k < 8 * r.bytes) :
    (merged r locked old w).testBit k =
      ((old.testBit k && !(w.be.testBit (k / 8) && (r.rw.testBit k || (!locked && r.rwl.testBit k))) ||
        (w.data.testBit k && (w.be.testBit (k / 8) && (r.rw.testBit k || (!locked && r.rwl.testBit k))))) &&
      !(w.be.testBit (k / 8) && r.w1c.testBit k && w.data.testBit k)) := by
  have compl {x} (hx : x < 2 ^ 64) : (2 ^ 64 - 1 - x).testBit k = !x.testBit k := by
    rw [show 2 ^ 64 - 1 - x = 2 ^ 64 - (x + 1) by omega, Nat.testBit_two_pow_sub_succ hx]
    simp [show k < 64 by omega]
  have hm : beMask r.bytes w.be < 2 ^ 64 :=
    Nat.lt_of_lt_of_le (beMask_lt _ _) (Nat.pow_le_pow_right (by decide) (by omega))
  have masked (x : Nat) : beMask r.bytes w.be &&& x < 2 ^ 64 := Nat.lt_of_le_of_lt Nat.and_le_left hm
  unfold merged
  simp only [Nat.testBit_and, Nat.testBit_or, compl (masked _),
    compl (Nat.lt_of_le_of_lt Nat.and_le_left (masked r.w1c)), testBit_beMask, hk, decide_true, Bool.true_and]
  cases locked <;> simp

/-- A register after a write holds the merged value. -/
theorem testBit_rd_busWrite (r : RegDef) (i j : Nat) (w : BusW) (s : State) {k : Nat} (hk : k < 64) :
    (rd r i j (busWrite r i j w s)).testBit k = (merged r s.locked (rd r i j s) w).testBit k := by
  rw [busWrite, rd_wr, Nat.testBit_mod_two_pow]
  simp [hk]

/-- Settles O16: bit by bit (`testBit_merged`), with no bit both written and cleared. -/
theorem registerWriteByAccessCode : Obligations.RegisterWriteByAccessCode := by
  intro r i j w s hr hapart
  refine ⟨fun k hk => ?_, fun q i' j' h => rd_wr_other _ _ h, rfl⟩
  have hbit : ((r.rw.testBit k || r.rwl.testBit k) && r.w1c.testBit k) = false := by
    rw [← Nat.testBit_or, ← Nat.testBit_and, hapart, Nat.zero_testBit]
  rw [testBit_rd_busWrite _ _ _ _ _ (by omega), testBit_merged _ _ _ _ hr hk]
  cases w.be.testBit (k / 8)
  case false => simp
  case true =>
    cases hc : r.w1c.testBit k
    case true =>
      obtain ⟨hrw, hrwl⟩ : r.rw.testBit k = false ∧ r.rwl.testBit k = false := by simpa [hc] using hbit
      simp [hrw, hrwl]
    case false => cases r.rw.testBit k <;> cases r.rwl.testBit k <;> cases s.locked <;> simp

/-! ### Heads that may be used, and surfaces that none of them reaches (R32, R33) -/

theorem armPresent_iff (s : State) (a : Nat) :
    armPresent s a = true ↔ ∃ g, s.geo = some g ∧ g.armMask.testBit a = true := by
  unfold armPresent
  cases s.geo <;> simp

theorem eligible_iff (s : State) (h : Nat) :
    eligible s h = true ↔ bit F.SPR_FENCE_HEAD_FENCE (h / 32) (h % 32) s = false ∧
      bit F.SPR_FENCE_ARM_FENCE 0 (h / 16) s = false ∧ ∃ g, s.geo = some g ∧ g.armMask.testBit (h / 16) = true := by
  simp [eligible, armOf, armPresent_iff, and_assoc]

theorem testBit_putBit_true (m b k : Nat) : (putBit m b true).testBit k = (m.testBit k || decide (k = b)) := by
  have e : putBit m b true = 2 ^ (b + 1) * (m / 2 ^ (b + 1)) + (2 ^ b * 1 + m % 2 ^ b) := by
    rw [putBit, putBits_eq]
    simp [Nat.mul_comm, Nat.add_assoc]
  have hlow := Nat.mod_lt m (Nat.two_pow_pos b)
  rw [e, Nat.testBit_two_pow_mul_add _ (by rw [Nat.pow_succ]; omega), Nat.testBit_two_pow_mul_add _ hlow]
  rcases Nat.lt_trichotomy k b with hk | rfl | hk
  · simp [show k < b + 1 by omega, hk, Nat.testBit_mod_two_pow, Nat.ne_of_lt hk]
  · simp
  · have e' : k - (b + 1) + (b + 1) = k := by omega
    simp [show ¬ k < b + 1 by omega, Nat.testBit_div_two_pow, Nat.ne_of_gt hk, e']

/-- A fold that sets bit `f` where `p f` is false sets just those bits. -/
theorem testBit_upTo_putBit (p : Nat → Bool) (n k : Nat) :
    (upTo n (fun f m => if p f then m else putBit m f true) 0).testBit k = (decide (k < n) && !p k) := by
  induction n with
  | zero => simp [upTo]
  | succ n ih =>
    rw [upTo, List.range_succ, List.foldl_append, List.foldl_cons, List.foldl_nil]
    rw [upTo] at ih
    split
    next hp =>
      rw [ih]
      by_cases hk : k = n
      · subst hk; simp [hp]
      · simp [show k < n ↔ k < n + 1 by omega]
    next hp =>
      rw [testBit_putBit_true, ih]
      by_cases hk : k = n
      · subst hk; simp [hp]
      · simp [hk, show k < n ↔ k < n + 1 by omega]

/-- Settles O19: the mask sets the bit of each surface none of whose four heads is eligible. -/
theorem unreachableSurfaces : Obligations.UnreachableSurfaces := by
  refine ⟨eligible_iff, fun s f hf => ?_⟩
  have heads : (∀ a, a < 4 → eligible s (16 * a + f) = false) ↔ (eligible s f = false ∧ eligible s (16 + f) = false ∧
      eligible s (32 + f) = false ∧ eligible s (48 + f) = false) := by
    refine ⟨fun h => ⟨by simpa using h 0, h 1 (by decide), h 2 (by decide), h 3 (by decide)⟩, ?_⟩
    intro ⟨h0, h1, h2, h3⟩ a ha
    interval_cases a <;> simpa
  rw [heads, unreachMask]
  cases s.geo
  case none => simp
  case some g =>
    have hmask := testBit_upTo_putBit
      (fun f => eligible s f || eligible s (16 + f) || eligible s (32 + f) || eligible s (48 + f)) 16 f
    simp only [Option.isNone_some, Bool.false_eq_true, if_false, Option.isSome_some, true_and]
    rw [hmask]
    simp [hf, and_assoc]

/-! ### A granule that is being filled -/

/-- Refutes O17: while a fill runs over a granule (R409) it reads as an open value, whatever is written to it. In the
state after reset with a fill that covers granule 0, two different granules written there read back as one. -/
theorem not_memoriesReadWhatWasWritten : ¬ Obligations.MemoriesReadWhatWasWritten := by
  intro ⟨_, _, hgranule, _⟩
  have readsBack (x : Granule) :
      granule (putGranule 0 x { State.reset with lnd := { State.reset.lnd with fill := some (0, 1) } }) 0 = x :=
    hgranule 0 x _
  have same : (⟨[], false⟩ : Granule) = ⟨[], true⟩ := (readsBack ⟨[], false⟩).symm.trans (readsBack ⟨[], true⟩)
  exact absurd same (by decide)

/-! ### The state after reset -/

/-- With nothing listed every register reads its reset value. -/
theorem rd_reset (r : RegDef) (i j : Nat) : rd r i j State.reset = r.reset i j % 2 ^ 64 := by
  simp [rd, State.reset, word]

/-- Settles O8. -/
theorem resetRegisterValues : Obligations.ResetRegisterValues :=
  ⟨fun r _ => rd_reset r, rfl, rfl, rfl, rfl, rfl, rfl, (rd_reset R.DEC_LADDER 1 0).trans (by decide)⟩

end Sys2Proof.Proofs
end

section
/-! PROOFS. Interrupts and completions, and accesses by address. -/

namespace Sys2Proof.Proofs

open Sys2Proof Sys2Proof.Machine Sys2Proof.Laws

/-! ### Interrupts and completions (R299, R300, R308, R312) -/

theorem execMsixUnmask_vector {f : Fin 64} {v : Fin 2048} {s : State} (hdeaf : deaf s = false)
    (hmem : memEnabled (inbound s) f = true) (hbar : barOpen (inbound s) f = true)
    (hsize : v.val ≤ fld F.MSIX_SIZE f (inbound s)) :
    execMsixUnmask f (some v) s = .next (flushMsix f (put2 F.MSIX_MASK f v 0 (inbound s))) := by
  simp [execMsixUnmask, hdeaf, hmem, hbar, hsize]

theorem execMsixUnmask_function {f : Fin 64} {s : State} (hdeaf : deaf s = false)
    (hcfg : cfgReady (inbound s) f = true) :
    execMsixUnmask f none s = .next (flushMsix f (put F.MSIX_FMASK f 0 (inbound s))) := by
  simp [execMsixUnmask, hdeaf, hcfg]

/-- A function other than 0 has MSI-X alone. -/
theorem execIntModeChange_vf {f : Fin 64} {x m i : Bool} {s : State} (hdeaf : deaf s = false)
    (hcfg : cfgReady (inbound s) f = true) (hf : f.val ≠ 0)
    (hmode : intMode (put F.MSIX_EN f x.toNat (inbound s)) f ≠ intMode (inbound s) f) :
    execIntModeChange f x m i s =
      .next (upTo 32 (fun k v => put2 F.MSIX_PBA f k 0 v) (put F.MSIX_EN f x.toNat (inbound s))) := by
  simp [execIntModeChange, hdeaf, hcfg, hf, hmode]

theorem execCompletionReceived_data {f : Fin 64} {tag : Nat} {bs : List Byte} {r : HostReq} {k o : Nat} {s : State}
    (hdeaf : deaf s = false) (htag : tag < 16384)
    (hreq : Tab.get? (inbound s).deck.reqs (tagKey f tag) = some r) (hkind : r.kind = .data k o) :
    execCompletionReceived f tag bs false false s = .next (restLink (tagGo (xferGo k (cmdTake k (o + r.got.length)
      ((bs.take (r.len - r.got.length)).map (fun b => (b, false)))
      { inbound s with deck := { (inbound s).deck with
        reqs := if r.len ≤ (r.got ++ bs.take (r.len - r.got.length)).length
          then Tab.erase (inbound s).deck.reqs (tagKey f tag)
          else Tab.put (inbound s).deck.reqs (tagKey f tag)
            { r with got := r.got ++ bs.take (r.len - r.got.length) } } })))) := by
  simp only [execCompletionReceived, hdeaf, Bool.false_eq_true, if_false, htag, if_true, hreq, hkind]
  split <;> rfl

theorem execCompletionReceived_unexpected {f : Fin 64} {tag : Nat} {bs : List Byte} {s : State}
    (hdeaf : deaf s = false) (htag : tag < 16384) (hreq : Tab.get? (inbound s).deck.reqs (tagKey f tag) = none)
    (hflushed : Tab.get? (inbound s).deck.flushed (tagKey f tag) = none) (hon : fnOn (inbound s) f = true) :
    execCompletionReceived f tag bs false false s = .next (aerUnc f 16 true
      (cplHdr (inbound s) f tag (!bs.isEmpty) false false) (report 34 (some f.val) 12 1 0 0 (inbound s))) := by
  simp only [execCompletionReceived, hdeaf, Bool.false_eq_true, if_false, htag, if_true, hreq, hflushed, hon]

theorem execCompletionTimeout_fails {f : Fin 64} {tag : Nat} {r : HostReq} {s : State} (htag : tag < 16384)
    (hreq : Tab.get? s.deck.reqs (tagKey f tag) = some r) (hdis : flag F.CFG_CTODIS f s = false) :
    execCompletionTimeout f tag s = .next (restLink (tagGo (reqFail (tagKey f tag)
      (aerUnc f 14 true [] (report 34 (some f.val) 12 1 r.addr 0 s))))) := by
  simp [execCompletionTimeout, htag, hreq, hdis]

/-- Settles O42: one lemma per clause, each its command's arm for the case that the premises name. -/
theorem interruptsAndCompletions : Obligations.InterruptsAndCompletions :=
  ⟨fun _ _ _ hdeaf hmem hbar hsize => execMsixUnmask_vector hdeaf hmem hbar hsize,
    fun _ _ hdeaf hcfg => execMsixUnmask_function hdeaf hcfg,
    fun _ _ _ _ _ hdeaf hcfg hf hmode => execIntModeChange_vf hdeaf hcfg hf hmode,
    fun _ _ _ _ _ _ _ hdeaf htag hreq hkind => execCompletionReceived_data hdeaf htag hreq hkind,
    fun _ _ _ _ hdeaf htag hreq hflushed hon => execCompletionReceived_unexpected hdeaf htag hreq hflushed hon,
    fun _ _ _ _ htag hreq hdis => execCompletionTimeout_fails htag hreq hdis⟩

/-! ### Accesses by address (R10, R11) -/

section
variable {a n : Nat} {s : State}

/-- A write below the landing by a master that has the whole map goes to the block, shared SRAM or the CMB. -/
theorem execRegisterWrite_yarder (d : Nat) (ep : Bool) (ha : a < landBase) :
    execRegisterWrite .yarder a n d ep s = .next (intWrite .yarder a n d s) := by
  simp [execRegisterWrite, Nat.not_le.2 ha]

theorem execReadClear_yarder (ha : a < landBase) : execReadClear .yarder a n s = .next (intRead .yarder a n s) := by
  simp [execReadClear, Nat.not_le.2 ha]

theorem intWrite_aligned (m : Master) (d : Nat) (hb : inBlock a = true) (hal : busAligned a n = true) :
    intWrite m a n d s = blockWrite m a n d s := by
  simp [intWrite, hb, hal]

theorem intWrite_misaligned (m : Master) (d : Nat) (hb : inBlock a = true) (hal : busAligned a n = false) :
    intWrite m a n d s = busError (masterCode m) 2 a s := by
  simp [intWrite, hb, hal]

theorem intWrite_sram (m : Master) (d : Nat) (hb : inBlock a = false) (hsram : inSram a n = true) :
    intWrite m a n d s = sramStore m a (bytesOf n d) s := by
  simp [intWrite, hb, hsram]

theorem intWrite_nowhere (m : Master) (d : Nat) (hb : inBlock a = false) (hsram : inSram a n = false)
    (hcmb : inCmb a n = false) : intWrite m a n d s = busError (masterCode m) 2 a s := by
  simp [intWrite, hb, hsram, hcmb]

theorem intRead_aligned (m : Master) (hb : inBlock a = true) (hal : busAligned a n = true)
    (hw : fenceWaits s a n = none) :
    intRead m a n s = emit (.value a (blockRead a n s).1) (blockRead a n s).2 := by
  simp [intRead, hb, hal, hw]

/-- A read of a fence register whose fence has work left is held (R74). -/
theorem intRead_held (m : Master) {k : Fin 4} (hb : inBlock a = true) (hal : busAligned a n = true)
    (hw : fenceWaits s a n = some k) : intRead m a n s = hold (.fenceRd k a n) s := by
  simp [intRead, hb, hal, hw]

theorem intRead_misaligned (m : Master) (hb : inBlock a = true) (hal : busAligned a n = false) :
    intRead m a n s = busError (masterCode m) 1 a s := by
  simp [intRead, hb, hal]

theorem intRead_sram_yarder (hb : inBlock a = false) (hsram : inSram a n = true) :
    intRead .yarder a n s = emit (.data a (clean (sramRead s a n))) s := by
  simp [intRead, hb, hsram]

/-- Lyolo's map above its boot ROM begins with its own SRAM. -/
theorem lyoWrite_sram (d : Nat) {p : Nat} (ha : 0x10000 < a + n) (hp : lyoSram a n = some p) :
    lyoWrite a n d s = { s with lyo := putBytes s.lyo p (bytesOf n d) } := by
  simp [lyoWrite, Nat.not_le.2 ha, hp]

end

/-- Settles O60: each clause is one case of the address map. -/
theorem registerAccess : Obligations.RegisterAccess := by
  refine ⟨fun a n d ep s hb ha hal => ?_, fun a n d ep s hb ha hal => ?_, fun a n d ep s hb ha hsram => ?_,
    fun a n d ep s hb ha hsram hcmb => ?_, fun a n s hb ha hal hw => ?_, fun a n s k hb ha hal hw => ?_,
    fun a n s hb ha hsram => ?_, fun a n s hb ha hal => ?_, fun a n d ep p s ha hp => ?_, fun _ _ _ _ _ _ => rfl,
    fun _ _ _ _ => rfl⟩
  · exact (execRegisterWrite_yarder d ep ha).trans (congrArg _ (intWrite_aligned .yarder d hb hal))
  · exact (execRegisterWrite_yarder d ep ha).trans (congrArg _ (intWrite_misaligned .yarder d hb hal))
  · exact (execRegisterWrite_yarder d ep ha).trans (congrArg _ (intWrite_sram .yarder d hb hsram))
  · exact (execRegisterWrite_yarder d ep ha).trans (congrArg _ (intWrite_nowhere .yarder d hb hsram hcmb))
  · exact (execReadClear_yarder ha).trans (congrArg _ (intRead_aligned .yarder hb hal hw))
  · exact (execReadClear_yarder ha).trans (congrArg _ (intRead_held .yarder hb hal hw))
  · exact (execReadClear_yarder ha).trans (congrArg _ (intRead_sram_yarder hb hsram))
  · exact (execReadClear_yarder ha).trans (congrArg _ (intRead_misaligned .yarder hb hal))
  · exact congrArg Host.Outcome.next (lyoWrite_sram d ha hp)

end Sys2Proof.Proofs
end

section
/-! PROOFS. Geometry, addresses and fences (chapter 01): what changes the active geometry, the address word, the end of a
geometry load and the fence registers. -/

namespace Sys2Proof.Proofs

open Sys2Proof Sys2Proof.Machine Sys2Proof.Laws

/-! ### The active geometry (R28, R529) -/

/-- Settles O13: an ordinary command keeps the geometry (`exec_runs`), and so does the end of a fuse burn. -/
theorem onlyGeometryLoadsChangeTheGeometry : Obligations.OnlyGeometryLoadsChangeTheGeometry := by
  intro c s t hstep hload hsleep hon hfall hdump
  by_cases hburn : ∃ ok, c = .fuseBurnDone ok
  · obtain ⟨ok, rfl⟩ := hburn
    obtain ⟨v, e, h⟩ := execFuseBurnDone_keeps ok s
    cases e.symm.trans hstep
    exact h.geo
  · obtain ⟨v, e, h⟩ := exec_runs s c ⟨hload, hsleep, hon, hfall, hdump, not_exists.1 hburn⟩
    cases e.symm.trans hstep
    exact h.geo

/-! ### The physical sector address word (R17) -/

section
variable {surf zone track sector : Nat}

theorem psaSurf_psaWord (hsurf : surf < 16) (hzone : zone < 64) (htrack : track < 2 ^ 22) (hsector : sector < 4096) :
    psaSurf (psaWord surf zone track sector) = surf := by
  rw [psaSurf, bitsOf_eq, psaWord]; omega

theorem psaZone_psaWord (hzone : zone < 64) (htrack : track < 2 ^ 22) (hsector : sector < 4096) :
    psaZone (psaWord surf zone track sector) = zone := by
  rw [psaZone, bitsOf_eq, psaWord]; omega

theorem psaTrack_psaWord (htrack : track < 2 ^ 22) (hsector : sector < 4096) :
    psaTrack (psaWord surf zone track sector) = track := by
  rw [psaTrack, bitsOf_eq, psaWord]; omega

theorem psaSector_psaWord (hsector : sector < 4096) : psaSector (psaWord surf zone track sector) = sector := by
  rw [psaSector, bitsOf_eq, psaWord]; omega

theorem psaWord_lt (hsurf : surf < 16) (hzone : zone < 64) (htrack : track < 2 ^ 22) (hsector : sector < 4096) :
    psaWord surf zone track sector < 2 ^ 44 := by
  rw [psaWord]; omega

end

/-- Settles O23. -/
theorem addressWordFields : Obligations.AddressWordFields := fun _ _ _ _ hsurf hzone htrack hsector =>
  ⟨psaSurf_psaWord hsurf hzone htrack hsector, psaZone_psaWord hzone htrack hsector, psaTrack_psaWord htrack hsector,
    psaSector_psaWord hsector, psaWord_lt hsurf hzone htrack hsector⟩

/-! ### A geometry load (R28, R29, R31) -/

theorem execGeoLoad_starts {s : State} (hbusy : flag F.SPR_GEO_CTL_BUSY 0 s = false) (hmedia : mediaInFlight s = false) :
    execGeoLoad s =
      .next { put F.SPR_GEO_CTL_BUSY 0 1 s with geoImg := some (fld F.SPR_GEO_BASE_ADDR 0 s * 64) } := by
  simp [execGeoLoad, hbusy, hmedia]

/-- What the end of a load leaves in the registers, whatever the checks found: BUSY 0 and the first failed check. -/
def loadChecked (base : Nat) (s : State) : State :=
  put F.SPR_GEO_STAT_ERR 0 (checkImage s base).1 (put F.SPR_GEO_CTL_BUSY 0 0 { s with geoImg := none })

theorem execGeoLoadDone_bad {base : Nat} {s : State} (himg : s.geoImg = some base) (hbad : (checkImage s base).2 = none) :
    execGeoLoadDone s = .next (loadChecked base s) := by
  simp [execGeoLoadDone, loadChecked, himg, hbad]

theorem execGeoLoadDone_good {base : Nat} {g : Geometry} {s : State} (himg : s.geoImg = some base)
    (hgood : (checkImage s base).2 = some g) :
    execGeoLoadDone s = .next (loadedGeometry (loadChecked base s) (put F.SPR_GEO_STAT_GEN 0 (g.gen % 65536)
      (put F.SPR_GEO_CTL_ACTIVE 0 1 { loadChecked base s with geo := some g }))) := by
  simp [execGeoLoadDone, loadChecked, himg, hgood]

/-- Settles O26: a load's end splits on what the checks of its image gave; the fence writes act as their rules read. -/
theorem geometryLoadAndFences : Obligations.GeometryLoadAndFences := by
  refine ⟨fun s hbusy hmedia => execGeoLoad_starts hbusy hmedia, fun base s himg => ?_, fun _ _ _ => rfl, fun _ _ => rfl⟩
  intro
  split
  next hbad => exact execGeoLoadDone_bad himg hbad
  next g hgood => exact execGeoLoadDone_good himg hgood

end Sys2Proof.Proofs
end

section
/-! PROOFS. Requests and modes of the arms (chapter 06): LOAD, UNLOAD and GO, and what ends loading, settling and parking. -/

namespace Sys2Proof.Proofs

open Sys2Proof Sys2Proof.Machine Sys2Proof.Laws

/-! ### The arms' records through changes of other units -/

section
variable (s : State)

theorem each_arms {α : Type} {f : α → State → State} (hf : ∀ a t, (f a t).arms = t.arms) (l : List α) :
    (each l f s).arms = s.arms :=
  List.foldlRecOn (motive := fun t => t.arms = s.arms) l _ rfl (fun t ht a _ => (hf a t).trans ht)

@[simp] theorem queueCpl_arms (f q : Nat) (e : CplEnt) : (queueCpl f q e s).arms = s.arms := by
  unfold queueCpl
  split
  · rfl
  · split <;> rfl

@[simp] theorem cmdEndAt_arms (x : Cmd) (status dw0 lba : Nat) : (cmdEndAt x status dw0 lba s).arms = s.arms := by
  unfold cmdEndAt
  extract_lets d t1 t2 t3
  have h2 : t2.arms = s.arms := by unfold t2; split <;> rfl
  have h3 : t3.arms = s.arms := by
    unfold t3
    split
    · split <;> exact h2
    · exact h2
  split
  · exact h3
  · rw [queueCpl_arms, h3]

@[simp] theorem asyncEvent_arms (f ty info : Nat) : (asyncEvent f ty info s).arms = s.arms := by
  unfold asyncEvent
  dsimp only
  split
  · rfl
  · split
    · rfl
    · split
      · rfl
      · exact cmdEndAt_arms _ _ _ _ _

@[simp] theorem mapChange_arms : (mapChange s).arms = s.arms := asyncEvent_arms _ _ _ _

@[simp] theorem bindItem_arms (x : Item) : (bindItem x s).arms = s.arms := rfl

@[simp] theorem rebind_arms : (rebind s).arms = s.arms :=
  each_arms s (fun x t => by rw [apply_ite State.arms, bindItem_arms, ite_self]) _

/-- FOLLOW undecides nothing and takes no permit away: entering it leaves every arm's record. -/
theorem setMode_follow_arms (a : Nat) : (setMode a 6 s).arms = s.arms := by
  simp only [setMode, Nat.reduceLeDiff, decide_true, Bool.and_self, if_true, rebind_arms]
  split
  · rfl
  · rw [mapChange_arms]; rfl

end

theorem lastTrack_put (f : Field) (i v : Nat) (s : State) : lastTrack (put f i v s) = lastTrack s := rfl

/-! ### LOAD and GO (R188, R191, R205) -/

/-- The fault of an arm that the servo gives up: EV076 + a, and checker 132 + a in FC2 (R188). -/
def armFault (a : Nat) (s : State) : State := report (132 + a) none 0x0A 0 0 0 (raiseEvent (76 + a) s)

section
variable {a : Fin 4} {s : State}

theorem execSrvLoad_starts (hmode : mode s a = 1) (hok : loadOk s a = true) :
    execSrvLoad a s = .next (startLoading a s) := by
  simp [execSrvLoad, hmode, hok]

theorem execSrvLoad_fails (hmode : mode s a = 1) (hok : loadOk s a = false) :
    execSrvLoad a s = .next (put F.SRV_MODE_LFAIL a 1 s) := by
  simp [execSrvLoad, hmode, hok]

theorem execSrvGo_goes {w : BusW} {u : State} (hgo : wrote1 31 w = true) (hu : u = busWrite R.SRV_TARGET a 0 w s)
    (hgeo : u.geo.isSome = true) (htrack : fld F.SRV_TARGET_TRACK a u ≤ lastTrack u) (hlo : 4 ≤ mode u a)
    (hhi : mode u a ≤ 6) :
    execSrvGo a w s = .next (goTo a (fld F.SRV_TARGET_TRACK a u)
      (put F.SRV_TARGET_GO a 1 (put F.SRV_TARGET_REFUSED a 0 u))) := by
  have hlo' : ¬ mode u a < 3 := by omega
  have hne : mode u a ≠ 3 := by omega
  subst hu
  obtain ⟨g, hg : s.geo = some g⟩ := Option.isSome_iff_exists.1 hgeo
  simp [execSrvGo, hgo, lastTrack_put, hg, Nat.not_lt.2 htrack, Nat.not_lt.2 hhi, hlo', hne]

theorem execSrvGo_refused {w : BusW} {u : State} (hgo : wrote1 31 w = true) (hu : u = busWrite R.SRV_TARGET a 0 w s)
    (hgeo : u.geo = none) :
    execSrvGo a w s = .next (put F.SRV_TARGET_REFUSED a 1 (put F.SRV_TARGET_REFUSED a 0 u)) := by
  subst hu
  have hgeo' : s.geo = none := hgeo
  simp [execSrvGo, hgo, hgeo']

/-! ### What ends loading, settling, following and parking (R188, R190, R200, R201, R208) -/

theorem execLoadAcquired_settles (hmode : mode s a = 3) (hload : 2 ≤ (arm s a).load) :
    let t := (((arm s a).pbar.getD 0 + 128) / 256).toNat
    let x := { arm s a with target := t, lastI := vcm s a - feedforward s a, bump := 0, errOfs := 0 }
    execLoadAcquired a s =
      .next (toSettle a (heatRdSend a (armHeads a) (put F.SRV_TARGET_TRACK a t (setArm a x s)))) := by
  simp [execLoadAcquired, hmode, hload]

theorem execLoadTimeout_fails (hmode : mode s a = 3) :
    execLoadTimeout a s = .next (armFault a (put F.SRV_MODE_LFAIL a 1 (startUnload a true s))) := by
  simp [execLoadTimeout, armFault, hmode]

theorem execUnloadPhaseEnd_parks (hmode : mode s a = 8) (hphase : (arm s a).phase = .climb) :
    execUnloadPhaseEnd a s =
      .next (setVcm a (sext 16 (fld F.SRV_PARK_PARK_I a s)) (setArm a { arm s a with phase := .park } s)) := by
  simp [execUnloadPhaseEnd, hmode, hphase]

theorem execParkTimeout_fails (hmode : mode s a = 8) (hphase : (arm s a).phase = .park) :
    execParkTimeout a s = .next (heldLoadApply a (armFault a (put F.SRV_MODE_PFAIL a 1 (enterParked a s)))) := by
  simp [execParkTimeout, armFault, hmode, hphase]

/-- A GO stored while loading is still there when the arm enters FOLLOW. -/
theorem storedGo_follow : (arm (setMode a 6 (setArm a (followHandOver (arm s a)) s)) a).storedGo = (arm s a).storedGo := by
  have e : arm (setMode a 6 (setArm a (followHandOver (arm s a)) s)) a = followHandOver (arm s a) := by
    rw [arm, setMode_follow_arms]
    exact arm_setArm _ _ _
  rw [e]; rfl

theorem execFollowEntry_follows {u : State} (hmode : mode s a = 5) (hfn : fld1 F.SRV_SETTLE_FN a s ≤ (arm s a).fn)
    (htrack : (armHeads a).any (fun h => hst s h == 2) = true) (hseek : (arm s a).seekFrom = none)
    (hgo : (arm s a).storedGo = none) (hu : u = setMode a 6 (setArm a (followHandOver (arm s a)) s)) :
    execFollowEntry a s = .next (put F.SRV_TARGET_GO a 0
      (setArm a { arm u a with seekFrom := none, retries := 0, storedGo := none } u)) := by
  subst hu
  simp only [execFollowEntry, hmode, hfn, htrack, hseek, storedGo_follow, hgo, and_self, if_true]

section
variable (hmode : mode s a = 5) (htmo : fld1 F.SRV_SETTLE_SETTLE_TMO a s ≤ (arm s a).settle)
include hmode htmo

theorem execSettleTimeout_retries {u : State} (hu : u = put F.SRV_MODE_SEEK_ERR a 1 (count F.SRV_ERR_SEEK_ERR a s))
    (hleft : (arm s a).retries < fld F.SRV_SETTLE_SEEK_RETRY a u) :
    execSettleTimeout a s =
      .next (toSeek a (setArm a { arm s a with retries := (arm s a).retries + 1, tune := true } u)) := by
  subst hu
  simp only [execSettleTimeout, hmode, htmo, hleft, and_self, if_true]

theorem execSettleTimeout_fails {u : State} (hu : u = put F.SRV_MODE_SEEK_ERR a 1 (count F.SRV_ERR_SEEK_ERR a s))
    (hnone : fld F.SRV_SETTLE_SEEK_RETRY a u ≤ (arm s a).retries) :
    execSettleTimeout a s = .next (armFault a (startUnload a false u)) := by
  subst hu
  simp only [execSettleTimeout, armFault, hmode, htmo, Nat.not_lt.2 hnone, and_self, if_true, if_false]

end

theorem execArmMissTimeout_fails (hlo : 4 ≤ mode s a) (hhi : mode s a ≤ 7)
    (hmiss : fld1 F.SRV_TRK_ARM_MISS a s ≤ (arm s a).miss) :
    execArmMissTimeout a s = .next (armFault a (startUnload a true s)) := by
  simp [execArmMissTimeout, armFault, hlo, hhi, hmiss]

theorem execVcmMismatch_fails {u v : State} (hloaded : armLoaded s a = true) (hcount : 16 ≤ (arm s a).mismatch)
    (hmode : mode s a ≠ 8) (hu : u = setArm a { arm s a with mismatch := 0 } s) (hv : v = startUnload a true u) :
    execVcmMismatch a s = .next (armFault a (setArm a { arm v a with heldLoad := (arm u a).heldLoad } v)) := by
  subst hv hu
  have hmode' : mode (setArm a { arm s a with mismatch := 0 } s) a ≠ 8 := hmode
  simp [execVcmMismatch, armFault, hloaded, hcount, hmode']

end

/-- Settles O33: one lemma per request and per event, each its command's arm for the case that the premises name. -/
theorem armRequestsAndModes : Obligations.ArmRequestsAndModes :=
  ⟨fun _ _ hmode hok => execSrvLoad_starts hmode hok,
    fun _ _ hmode hok => execSrvLoad_fails hmode hok,
    fun _ _ => rfl,
    fun _ _ _ hgo hgeo htrack hlo hhi => execSrvGo_goes hgo rfl hgeo htrack hlo hhi,
    fun _ _ _ hgo hgeo => execSrvGo_refused hgo rfl hgeo,
    fun _ _ hmode hload => execLoadAcquired_settles hmode hload,
    fun _ _ hmode => execLoadTimeout_fails hmode,
    fun _ _ hmode hphase => execUnloadPhaseEnd_parks hmode hphase,
    fun _ _ hmode hphase => execParkTimeout_fails hmode hphase,
    fun _ _ hmode hfn htrack hseek hgo => execFollowEntry_follows hmode hfn htrack hseek hgo rfl,
    fun _ _ hmode htmo hleft => execSettleTimeout_retries hmode htmo rfl hleft,
    fun _ _ hmode htmo hnone => execSettleTimeout_fails hmode htmo rfl hnone,
    fun _ _ hlo hhi hmiss => execArmMissTimeout_fails hlo hhi hmiss,
    fun _ _ hloaded hcount hmode => execVcmMismatch_fails hloaded hcount hmode rfl rfl⟩

end Sys2Proof.Proofs
end

section
/-! PROOFS. Surface parity (chapter 08): the descriptors, the staging band, the end of passes and of rebuilds. -/

namespace Sys2Proof.Proofs

open Sys2Proof Sys2Proof.Machine Sys2Proof.Laws

/-! ### Descriptors (R280, R281) -/

theorem execDescReadUnit_idle {s : State} (hnext : descNext s = none) (hon : flag F.SPR_CTL_ENABLE 0 s = true) :
    execDescReadUnit s = .next { s with spr := { s.spr with look := false } } := by
  simp [execDescReadUnit, hnext, descIdle, hon]

section
variable {x y : SprOp} {s u : State} (hnext : descNext s = some x) (htake : descTake x s = (y, u))
include hnext htake

theorem execDescReadUnit_reads (hop : x.op = 1) (hvalid : (nsEnt u y.nsid).valid = true) (hlo : 1 ≤ y.count)
    (hhi : y.count ≤ 64) (hin : y.addr + y.count ≤ (nsEnt u y.nsid).units) :
    execDescReadUnit s = .next (readUnits y ((List.range y.count).map (fun i => (i, y.addr + i))) u) := by
  have hop' : y.op = 1 := by rw [← hop, ← congrArg (·.1.op) htake]; rfl
  simp [execDescReadUnit, hnext, hop, htake, hop', hvalid, Nat.ne_of_gt hlo, Nat.not_lt.2 hhi, Nat.not_lt.2 hin]

theorem execDescReadUnit_refuses (hop : x.op = 1) (hout : (nsEnt u y.nsid).units < y.addr + y.count) :
    execDescReadUnit s = .next (opRefuse y u) := by
  simp [execDescReadUnit, hnext, hop, htake, hout]

theorem execDescReadStg_reads (hop : x.op = 2) (htail : stgTail u ≤ y.addr) (hhead : y.addr < stgHead u)
    (hlo : 1 ≤ y.aux % 16) (hhi : y.aux % 16 ≤ 13) :
    execDescReadStg s =
      .next (startStaged { y with count := 1 } 0 y.addr (y.aux % 16) (setOp { y with count := 1 } u)) := by
  simp [execDescReadStg, hnext, hop, htake, Nat.not_lt.2 htail, Nat.not_le.2 hhead, Nat.ne_of_gt hlo, Nat.not_lt.2 hhi]

theorem execDescWriteStripe_starts {l : List Ecc} (hop : x.op = 4) (hfree : opBusy s x = false)
    (hvalid : (nsEnt u y.nsid).valid = true) (haligned : y.addr % dataOf (nsEnt u y.nsid).red = 0)
    (hin : y.addr + dataOf (nsEnt u y.nsid).red ≤ (nsEnt u y.nsid).units) :
    execDescWriteStripe l s = .next (stripeStart y (sprLooks (opBufs u y) l u)) := by
  simp [execDescWriteStripe, hnext, hop, htake, hfree, hvalid, haligned, Nat.not_lt.2 hin]

/-! A WRITE_STG descriptor whose entries pass their checks: taken, or ended for want of room or of a geometry. -/

section
variable {l : List Ecc} {v : State} (hop : x.op = 3) (hfree : opBusy s x = false) (hv : v = sprLooks (opAux y) l u)
  (hlo : 1 ≤ y.count) (hhi : y.count ≤ 32) (hok : (stgEntries v y).all (stgEntryOk v) = true)
include hop hfree hv hlo hhi hok

theorem execDescWriteStg_checked :
    execDescWriteStg l s =
      if v.geo.isNone then .next (opRefuse y (report 184 none 7 6 0 0 v))
      else if stgFull v then .next (opEnd y 2 v)
      else .next (stgTakeOp y (sprLooks (opBufs v y) (l.drop (granulesOf y.aux (32 * y.count)).length) v)) := by
  subst hv
  simp only [execDescWriteStg, hnext, hop, htake, hfree, hok, Nat.ne_of_gt hlo, Nat.not_lt.2 hhi, ne_eq, not_true_eq_false,
    decide_false, Bool.or_self, Bool.not_true, Bool.false_eq_true, if_false]

theorem execDescWriteStg_takes (hgeo : v.geo.isSome = true) (hroom : stgFull v = false) :
    execDescWriteStg l s =
      .next (stgTakeOp y (sprLooks (opBufs v y) (l.drop (granulesOf y.aux (32 * y.count)).length) v)) := by
  have hsome : ¬ v.geo.isNone = true := by simpa [← Option.isSome_iff_ne_none] using hgeo
  rw [execDescWriteStg_checked hnext htake hop hfree hv hlo hhi hok, if_neg hsome, if_neg (by simp [hroom])]

theorem execDescWriteStg_full (hgeo : v.geo.isSome = true) (hfull : stgFull v = true) :
    execDescWriteStg l s = .next (opEnd y 2 v) := by
  have hsome : ¬ v.geo.isNone = true := by simpa [← Option.isSome_iff_ne_none] using hgeo
  rw [execDescWriteStg_checked hnext htake hop hfree hv hlo hhi hok, if_neg hsome, if_pos hfull]

theorem execDescWriteStg_noGeometry (hgeo : v.geo = none) :
    execDescWriteStg l s = .next (opRefuse y (report 184 none 7 6 0 0 v)) := by
  rw [execDescWriteStg_checked hnext htake hop hfree hv hlo hhi hok, if_pos (by simp [hgeo])]

end

end

theorem execDescWriteStg_waits {x : SprOp} {l : List Ecc} {s : State} (hnext : descNext s = some x)
    (hbusy : opBusy s x = true) : execDescWriteStg l s = .next s := by
  simp [execDescWriteStg, hnext, hbusy]

/-! ### The tail of the staging band (R255) -/

section
variable {w : BusW} {s : State} {v : Nat} (hv : v = merged R.SPR_STG_TAIL s.locked (rd R.SPR_STG_TAIL 0 0 s) w)
include hv

theorem execStgTailWrite_moves (hlo : stgTail s ≤ v) (hhi : v ≤ stgHead s) :
    execStgTailWrite w s = .next (stgStat (wr R.SPR_STG_TAIL 0 0 v s)) := by
  subst hv
  simp [execStgTailWrite, Nat.not_lt.2 hlo, Nat.not_lt.2 hhi]

theorem execStgTailWrite_ignored (hout : v < stgTail s ∨ stgHead s < v) : execStgTailWrite w s = .next s := by
  subst hv
  simp [execStgTailWrite, hout]

end

/-! ### The end of a pass (R246, R248, R271) -/

/-- The third failure of a pass is recorded at checker 185, but for a pass of the salvage job, which reports its own. -/
def thirdFailure (p : Pass) (s : State) : State :=
  match p.use with
  | .salv _ => s
  | _ => report 185 none 7 6 (memberPsa s p.zone p.k 0) 0 s

section
variable {p : Pass} {s : State} (hp : (Tab.vals s.spr.passes).find? (fun p => p.result.isSome) = some p)
include hp

theorem execStripePassEnd_ok (hok : p.result = some true) :
    execStripePassEnd s = .next (startHeld (passEndOk p s)) := by
  simp [execStripePassEnd, hp, hok]

theorem execStripePassEnd_reissues (hbad : p.result = some false) (hfails : p.fails < 2)
    (hallowed : passRefused s { p with fails := p.fails + 1, result := none, item := none } = false) :
    execStripePassEnd s = .next (passIssue { p with fails := p.fails + 1, result := none, item := none }
      (count F.SPR_ERR_REISSUE 0 s)) := by
  simp [execStripePassEnd, hp, hbad, show p.fails + 1 < 3 by omega, hallowed]

theorem execStripePassEnd_fails (hbad : p.result = some false) (hfails : p.fails = 2) :
    execStripePassEnd s = .next (startHeld (passFailed { p with fails := 3, result := none, item := none } 3
      (thirdFailure { p with fails := 3, result := none, item := none } s))) := by
  cases huse : p.use <;> simp [execStripePassEnd, thirdFailure, hp, hbad, hfails, huse]

end

/-! ### Rebuild (R244, R264) -/

theorem noteLadder_ended {o : Nat} {r : StripeRd} {s : State} (hended : sprOp s o = none) : noteLadder o r s = s := by
  simp only [noteLadder, hended]

/-- A read for a unit, a staged unit or a ladder, whose members are all in: what STRIPE_REBUILD serves. -/
def rebuildReady (r : StripeRd) : Bool :=
  readDone r && (match r.use with | .ladder _ => true | .unit _ _ => true | .stg _ _ _ _ => true | _ => false)

section
variable {r : StripeRd} {s : State} (hr : (Tab.vals s.spr.reads).find? rebuildReady = some r)
include hr

theorem execStripeRebuild_ladder {c : Nat} (huse : r.use = .ladder c) :
    execStripeRebuild s = .next (ladderRebuild c r (countStale r (dropRead r.id s))) := by
  unfold execStripeRebuild
  split
  next hnone => exact absurd (hnone.symm.trans hr) nofun
  next r' hsome =>
    cases Option.some.inj (hsome.symm.trans hr)
    simp only [huse]

/-- A read whose operation has ended, and that rebuilds nothing, is only dropped. -/
theorem execStripeRebuild_ended {o i : Nat} {u : State} (huse : r.use = .unit o i) (hu : u = countStale r (dropRead r.id s))
    (hbody : bodyOfSlot u r (roleOf u r.zone r.k (r.skip.getD 0)) = none) (hended : sprOp u o = none) :
    execStripeRebuild s = .next u := by
  subst hu
  unfold execStripeRebuild
  split
  next hnone => exact absurd (hnone.symm.trans hr) nofun
  next r' hsome =>
    cases Option.some.inj (hsome.symm.trans hr)
    simp only [huse, noteLadder_ended hended, hbody, hended]

end

/-- Settles O37: one lemma per descriptor, band, pass and rebuild, for the case that the premises name. -/
theorem surfaceParity : Obligations.SurfaceParity :=
  ⟨fun _ _ hnext hop hvalid hlo hhi hin => execDescReadUnit_reads hnext rfl hop hvalid hlo hhi hin,
    fun _ _ hnext hop hout => execDescReadUnit_refuses hnext rfl hop hout,
    fun _ hnext hon => execDescReadUnit_idle hnext hon,
    fun _ _ hnext hop htail hhead hlo hhi => execDescReadStg_reads hnext rfl hop htail hhead hlo hhi,
    fun _ _ _ hnext _ hbusy => execDescWriteStg_waits hnext hbusy,
    fun _ _ _ hnext hop hfree hlo hhi hok hgeo hroom =>
      execDescWriteStg_takes hnext rfl hop hfree rfl hlo hhi hok hgeo hroom,
    fun _ _ _ hnext hop hfree hlo hhi hok hgeo hfull =>
      execDescWriteStg_full hnext rfl hop hfree rfl hlo hhi hok hgeo hfull,
    fun _ _ _ hnext hop hfree hvalid haligned hin =>
      execDescWriteStripe_starts hnext rfl hop hfree hvalid haligned hin,
    fun _ _ _ hnext hop hfree hlo hhi hok hgeo =>
      execDescWriteStg_noGeometry hnext rfl hop hfree rfl hlo hhi hok hgeo,
    fun _ => rfl, fun _ => rfl,
    fun _ _ hlo hhi => execStgTailWrite_moves rfl hlo hhi,
    fun _ _ hout => execStgTailWrite_ignored rfl hout,
    fun _ _ hp hok => execStripePassEnd_ok hp hok,
    fun _ _ hp hbad hfails hallowed => execStripePassEnd_reissues hp hbad hfails hallowed,
    fun _ _ hp hbad hfails => execStripePassEnd_fails hp hbad hfails,
    fun _ _ _ hr huse => execStripeRebuild_ladder hr huse,
    fun _ _ _ _ _ hr huse hbody hended => execStripeRebuild_ended hr huse rfl hbody hended⟩

end Sys2Proof.Proofs
end

section
/-! PROOFS. Salvage Control and Fence Control (R356, R357). -/

namespace Sys2Proof.Proofs

open Sys2Proof Sys2Proof.Machine Sys2Proof.Laws

section
variable {k : Fin 4096} {x : Cmd} {s : State}

/-! ### Salvage Control (R269, R270, R276, R356) -/

theorem execSalvageStatus_answers (hx : vendorAct s k 0xC6 0 = some x) :
    execSalvageStatus k s = .next (salvEnd x s) := by
  simp only [execSalvageStatus, hx]

/-- With a fence over the range already no entry of the fence table is taken. -/
theorem execSalvageCtlStart_fenced {p : SalvPlan} {z : Nat} {zn : Zone} {u : State} (hx : vendorAct s k 0xC6 1 = some x)
    (hzone : rangeZone s (cdw x 12) (cdw x 13) = some (z, zn)) (hrun : salvState s ≠ 1) (hpause : salvState s ≠ 2)
    (hfenced : regionFenced s (cdw x 11 % 16) (cdw x 12) (cdw x 13) = true)
    (hu : u = put F.SPR_SALV_CTL_ENTRY 0 p.entry.val (relocPut p (cdw x 11 % 16) z zn (cdw x 12) (cdw x 13) s)) :
    execSalvageCtlStart k (some p) s =
      .next (salvEnd x (replan (degradedUpdate (stateOf (execSprSalvStart (salvBit 31 u) u) u)))) := by
  subst hu
  simp only [execSalvageCtlStart, hx, hzone, hrun, hpause, hfenced]
  cases rfenceFree s <;> rfl

theorem execSalvageCtlStart_noZone {p : Option SalvPlan} (hx : vendorAct s k 0xC6 1 = some x)
    (hzone : rangeZone s (cdw x 12) (cdw x 13) = none) :
    execSalvageCtlStart k p s = .next (admEnd x stSalvage (rd R.SPR_SALV_STAT 0 0 s) s) := by
  simp only [execSalvageCtlStart, hx, hzone]

theorem execSalvageCtlPause_acts (hx : vendorAct s k 0xC6 2 = some x) :
    execSalvageCtlPause k s = .next (salvEnd x (stateOf (execSprSalvPause (salvBit 30 s) s) s)) := by
  simp only [execSalvageCtlPause, hx]

theorem execSalvageCtlResume_acts (hx : vendorAct s k 0xC6 3 = some x) :
    execSalvageCtlResume k s = .next (salvEnd x (stateOf (execSprSalvResume (salvBit 29 s) s) s)) := by
  simp only [execSalvageCtlResume, hx]

theorem execSalvageCtlAbort_acts (hx : vendorAct s k 0xC6 4 = some x) :
    execSalvageCtlAbort k s = .next (salvEnd x (stateOf (execSprSalvAbort (salvBit 28 s) s) s)) := by
  simp only [execSalvageCtlAbort, hx]

theorem execClearLost_clears (hx : vendorAct s k 0xC6 5 = some x) :
    execClearLost k s = .next (salvEnd x (c4Change 0 { s with spr := { s.spr with
      lost := s.spr.lost.filter (fun e => cdw x 14 != 0xFFFFFFFF && e.1 != cdw x 14), lostTotal := 0 } })) := by
  simp only [execClearLost, hx]

/-! ### Fence Control (R34, R36, R37, R205, R357) -/

theorem execFenceQuery_answers (hx : vendorAct s k 0xC8 0 = some x) : execFenceQuery k s = .next (mapEnd x s) := by
  simp only [execFenceQuery, hx]

theorem execFenceHead_fences (hx : vendorAct s k 0xC8 1 = some x) (hh : cdw x 11 < 64)
    (hmay : losesSurface s (putFBit F.SPR_FENCE_HEAD_FENCE (cdw x 11 / 32) (cdw x 11 % 32) true s) = false ∨
      (cdw x 10).testBit 8 = true) :
    execFenceHead k s = .next (mapEnd x (replan (fenceHead (cdw x 11) s))) := by
  rcases hmay with hkeeps | hforce
  · simp [execFenceHead, hx, Nat.not_le.2 hh, hkeeps]
  · simp [execFenceHead, hx, Nat.not_le.2 hh, hforce]

theorem execFenceHead_noHead (hx : vendorAct s k 0xC8 1 = some x) (hh : 64 ≤ cdw x 11) :
    execFenceHead k s = .next (mapRefuse x stField s) := by
  simp [execFenceHead, hx, hh]

theorem execUnfenceHead_unfences (hx : vendorAct s k 0xC8 2 = some x) (hh : cdw x 11 < 64) :
    execUnfenceHead k true s = .next (mapEnd x (replan (eligibilityChanged s
      (putFBit F.SPR_FENCE_HEAD_FENCE (cdw x 11 / 32) (cdw x 11 % 32) false s)))) := by
  simp [execUnfenceHead, hx, Nat.not_le.2 hh]

theorem execUnfenceHead_refuses (hx : vendorAct s k 0xC8 2 = some x) (hh : cdw x 11 < 64) :
    execUnfenceHead k false s = .next (mapRefuse x stFence s) := by
  simp [execUnfenceHead, hx, Nat.not_le.2 hh]

theorem execFenceArm_fences (hx : vendorAct s k 0xC8 3 = some x) (ha : cdw x 11 < 4)
    (hmay : losesSurface s (putFBit F.SPR_FENCE_ARM_FENCE 0 (cdw x 11) true s) = false ∨ (cdw x 10).testBit 8 = true) :
    execFenceArm k s = .next (mapEnd x (replan (fenceArm (cdw x 11) s))) := by
  rcases hmay with hkeeps | hforce
  · simp [execFenceArm, hx, Nat.not_le.2 ha, hkeeps]
  · simp [execFenceArm, hx, Nat.not_le.2 ha, hforce]

theorem execUnfenceArm_unfences (hx : vendorAct s k 0xC8 4 = some x) (ha : cdw x 11 < 4) :
    execUnfenceArm k true s = .next (mapEnd x (replan (eligibilityChanged s
      (putFBit F.SPR_FENCE_ARM_FENCE 0 (cdw x 11) false s)))) := by
  simp [execUnfenceArm, hx, Nat.not_le.2 ha]

theorem execFenceRegion_fences {n : Nat} (hx : vendorAct s k 0xC8 5 = some x) (hsurf : cdw x 11 < 16)
    (hzone : (rangeZone s (cdw x 12) (cdw x 13)).isSome = true) (hfree : rfenceFree s = some n) :
    execFenceRegion k s = .next (mapEnd x (replan (rfencePut n (cdw x 11) (cdw x 12) (cdw x 13) s))) := by
  have hzone' : (rangeZone s (cdw x 12) (cdw x 13)).isNone = false := by simpa using hzone
  simp [execFenceRegion, hx, Nat.not_le.2 hsurf, hzone', hfree]

/-- Entry `n` is in force over the very region that the command names. -/
def fencesRegion (s : State) (x : Cmd) (n : Nat) : Bool :=
  flag F.SPR_RFENCE_VALID n s && fld F.SPR_RFENCE_SURF n s == cdw x 11 && fld F.SPR_RFENCE_FIRST n s == cdw x 12 &&
    fld F.SPR_RFENCE_LAST n s == cdw x 13

theorem execUnfenceRegion_unfences {n : Nat} (hx : vendorAct s k 0xC8 6 = some x)
    (hn : (List.range 64).find? (fencesRegion s x) = some n) :
    execUnfenceRegion k true s = .next (mapEnd x (replan (mapChange (put F.SPR_RFENCE_VALID n 0 s)))) := by
  unfold fencesRegion at hn
  simp [execUnfenceRegion, hx, hn]

end

/-- Settles O49: one lemma per action of the two commands, for the case that the premises name. -/
theorem salvageAndFenceCommands : Obligations.SalvageAndFenceCommands :=
  ⟨fun _ _ _ hx => execSalvageStatus_answers hx,
    fun _ _ _ _ _ _ hx hzone hrun hpause hfenced => execSalvageCtlStart_fenced hx hzone hrun hpause hfenced rfl,
    fun _ _ _ _ hx hzone => execSalvageCtlStart_noZone hx hzone,
    fun _ _ _ hx => execSalvageCtlPause_acts hx,
    fun _ _ _ hx => execSalvageCtlResume_acts hx,
    fun _ _ _ hx => execSalvageCtlAbort_acts hx,
    fun _ _ _ hx => execClearLost_clears hx,
    fun _ _ _ hx => execFenceQuery_answers hx,
    fun _ _ _ hx hh hmay => execFenceHead_fences hx hh hmay,
    fun _ _ _ hx hh => execFenceHead_noHead hx hh,
    fun _ _ _ hx hh => execUnfenceHead_unfences hx hh,
    fun _ _ _ hx hh => execUnfenceHead_refuses hx hh,
    fun _ _ _ hx ha hmay => execFenceArm_fences hx ha hmay,
    fun _ _ _ hx ha => execUnfenceArm_unfences hx ha,
    fun _ _ _ _ hx hsurf hzone hfree => execFenceRegion_fences hx hsurf hzone hfree,
    fun _ _ _ _ hx hn => execUnfenceRegion_unfences hx hn⟩

end Sys2Proof.Proofs
end

section
/-! PROOFS. Commands whose only effect is on registers: the ends of timers, permits and requests. -/

namespace Sys2Proof.Proofs

open Sys2Proof Sys2Proof.Machine Sys2Proof.Laws

/-- From `s` to `t` nothing differs but the register table. -/
def OnlyRegs (s t : State) : Prop := t = { s with regs := t.regs }

section
variable {s u : State}

theorem OnlyRegs.refl (s : State) : OnlyRegs s s := rfl

theorem wr_onlyRegs (r : RegDef) (i j v : Nat) (h : OnlyRegs s u) : OnlyRegs s (wr r i j v u) := by
  unfold OnlyRegs at h
  rw [h]; rfl

theorem put2_onlyRegs (f : Field) (i j v : Nat) (h : OnlyRegs s u) : OnlyRegs s (put2 f i j v u) := wr_onlyRegs _ _ _ _ h

theorem put_onlyRegs (f : Field) (i v : Nat) (h : OnlyRegs s u) : OnlyRegs s (put f i v u) := put2_onlyRegs _ _ _ _ h

theorem putFBit_onlyRegs (f : Field) (i k : Nat) (b : Bool) (h : OnlyRegs s u) : OnlyRegs s (putFBit f i k b u) :=
  put_onlyRegs _ _ _ h

theorem busWrite_onlyRegs (r : RegDef) (i j : Nat) (w : BusW) (h : OnlyRegs s u) : OnlyRegs s (busWrite r i j w u) :=
  wr_onlyRegs _ _ _ _ h

theorem OnlyRegs.ite {c : Prop} [Decidable c] {a b : State} (ha : OnlyRegs s a) (hb : OnlyRegs s b) :
    OnlyRegs s (if c then a else b) := by
  split <;> assumption

theorem each_onlyRegs {α : Type} {f : α → State → State} (hf : ∀ a v, OnlyRegs s v → OnlyRegs s (f a v)) (l : List α)
    (h : OnlyRegs s u) : OnlyRegs s (each l f u) :=
  List.foldlRecOn (motive := OnlyRegs s) l _ h (fun v hv a _ => hf a v hv)

theorem upTo_onlyRegs {f : Nat → State → State} (hf : ∀ i v, OnlyRegs s v → OnlyRegs s (f i v)) (n : Nat)
    (h : OnlyRegs s u) : OnlyRegs s (upTo n f u) := each_onlyRegs (f := f) hf _ h

/-! The shared operations that the commands below use. -/

theorem fc3Bits_onlyRegs (h : OnlyRegs s u) : OnlyRegs s (fc3Bits u) := putFBit_onlyRegs _ _ _ _ (putFBit_onlyRegs _ _ _ _ h)

theorem fc3Clear_onlyRegs (f : Nat) (h : OnlyRegs s u) : OnlyRegs s (fc3Clear f u) :=
  .ite h (fc3Bits_onlyRegs (put2_onlyRegs _ _ _ _ (putFBit_onlyRegs _ _ _ _ (putFBit_onlyRegs _ _ _ _ h))))

theorem ackClasses_onlyRegs (m : Nat) (h : OnlyRegs s u) : OnlyRegs s (ackClasses m u) :=
  upTo_onlyRegs (fun _ _ hv => .ite (.ite (fc3Bits_onlyRegs (put_onlyRegs _ _ _ hv)) (putFBit_onlyRegs _ _ _ _ hv)) hv) _ h

/-- A condition that falls clears LIVE, and marks a fault transient in its register and in the captures (R469). -/
theorem condFalls_onlyRegs (chk : Nat) (h : OnlyRegs s u) : OnlyRegs s (condFalls chk u) := by
  have hlive : OnlyRegs s (put F.FLT_CHK_LIVE chk 0 u) := put_onlyRegs _ _ _ h
  exact .ite h (.ite (each_onlyRegs (fun _ _ hv => .ite (put2_onlyRegs _ _ _ _ hv) hv) _ (put_onlyRegs _ _ _ hlive)) hlive)

theorem rmapWrite_onlyRegs (k : Nat) (w : BusW) (h : OnlyRegs s u) : OnlyRegs s (rmapWrite k w u) :=
  .ite (put_onlyRegs _ _ _ (busWrite_onlyRegs _ _ _ _ h)) (busWrite_onlyRegs _ _ _ _ h)

theorem ychWrite_onlyRegs (n : Nat) (w : BusW) (h : OnlyRegs s u) : OnlyRegs s (ychWrite n w u) :=
  .ite (put_onlyRegs _ _ _ (busWrite_onlyRegs _ _ _ _ h)) (busWrite_onlyRegs _ _ _ _ h)

theorem pdWrite_onlyRegs (w : BusW) (h : OnlyRegs s u) : OnlyRegs s (pdWrite w u) :=
  put_onlyRegs _ _ _ (put_onlyRegs _ _ _ (busWrite_onlyRegs _ _ _ _ h))

theorem dumpCtlWrite_onlyRegs (w : BusW) (h : OnlyRegs s u) : OnlyRegs s (dumpCtlWrite w u) :=
  put_onlyRegs _ _ _ (busWrite_onlyRegs _ _ _ _ h)

end

/-! ### The commands -/

/-- The command answers a next state that differs from `s` in registers alone. -/
def WritesRegs (s : State) (o : Answer) : Prop := ∃ t, o = .next t ∧ t = { s with regs := t.regs }

section
variable {s : State}

theorem WritesRegs.next {t : State} (h : OnlyRegs s t) : WritesRegs s (.next t) := ⟨t, rfl, h⟩

theorem execLaneWakeDone_writesRegs (n : Fin 64) : WritesRegs s (execLaneWakeDone n s) :=
  .next (.ite (put_onlyRegs _ _ _ rfl) rfl)

theorem execWpArmedHold_writesRegs (n : Fin 64) : WritesRegs s (execWpArmedHold n s) :=
  .next (.ite (put_onlyRegs _ _ _ rfl) rfl)

theorem execWpermRearm_writesRegs (h : Fin 64) : WritesRegs s (execWpermRearm h s) :=
  .next (.ite (putFBit_onlyRegs _ _ _ _ rfl) rfl)

theorem execAspmL1Entry_writesRegs : WritesRegs s (execAspmL1Entry s) := .next (.ite (put_onlyRegs _ _ _ rfl) rfl)

theorem execDeckPause_writesRegs (w : BusW) : WritesRegs s (execDeckPause w s) :=
  have hw : OnlyRegs s (busWrite R.DECK_CTL 0 0 w s) := busWrite_onlyRegs _ _ _ _ rfl
  .next (.ite (put_onlyRegs _ _ _ (put_onlyRegs _ _ _ hw)) (.ite (put_onlyRegs _ _ _ (put_onlyRegs _ _ _ hw)) hw))

theorem execDeckFnWrite_writesRegs (f : Fin 64) (w : BusW) : WritesRegs s (execDeckFnWrite f w s) :=
  .next (.ite (put_onlyRegs _ _ _ rfl) (busWrite_onlyRegs _ _ _ _ rfl))

theorem execGovOverClear_writesRegs : WritesRegs s (execGovOverClear s) := .next (.ite (put_onlyRegs _ _ _ rfl) rfl)

theorem execGovBgWrite_writesRegs (w : BusW) : WritesRegs s (execGovBgWrite w s) :=
  .next (.ite (put_onlyRegs _ _ _ rfl) (busWrite_onlyRegs _ _ _ _ rfl))

theorem execLndTrainStart_writesRegs (w : BusW) : WritesRegs s (execLndTrainStart w s) :=
  have hw : OnlyRegs s (busWrite R.LND_CTL 0 0 w s) := busWrite_onlyRegs _ _ _ _ rfl
  .next (.ite (put_onlyRegs _ _ _ (put_onlyRegs _ _ _ hw)) hw)

theorem execLndRmapCopy_writesRegs (k : Fin 32) (w : BusW) : WritesRegs s (execLndRmapCopy k w s) :=
  have hw : OnlyRegs s (rmapWrite k w s) := rmapWrite_onlyRegs _ _ rfl
  .next (.ite (put_onlyRegs _ _ _ hw) hw)

theorem execYrdChResume_writesRegs (n : Fin 32) (w : BusW) : WritesRegs s (execYrdChResume n w s) :=
  have hw : OnlyRegs s (ychWrite n w s) := ychWrite_onlyRegs _ _ rfl
  .next (.ite (putFBit_onlyRegs _ _ _ _ (put_onlyRegs _ _ _ hw)) hw)

theorem execCheckerConditionFalse_writesRegs (chk : Fin 256) : WritesRegs s (execCheckerConditionFalse chk s) := by
  refine .next ?_
  split
  next => exact .refl s
  next c _ => exact .ite (condFalls_onlyRegs _ rfl) rfl

theorem execFltAckWrite_writesRegs (w : BusW) : WritesRegs s (execFltAckWrite w s) := .next (ackClasses_onlyRegs _ rfl)

theorem execFltFc3Clear_writesRegs (w : BusW) : WritesRegs s (execFltFc3Clear w s) :=
  .next (upTo_onlyRegs (fun _ _ hv => .ite (fc3Clear_onlyRegs _ hv) hv) _ rfl)

theorem execFltFc3AckWrite_writesRegs (w : BusW) : WritesRegs s (execFltFc3AckWrite w s) :=
  .next (fc3Bits_onlyRegs (upTo_onlyRegs (fun _ _ hv => .ite (putFBit_onlyRegs _ _ _ _ hv) hv) _ rfl))

theorem execFltChkLatchClear_writesRegs (chk : Fin 256) (w : BusW) : WritesRegs s (execFltChkLatchClear chk w s) :=
  .next (.ite (put_onlyRegs _ _ _ (put_onlyRegs _ _ _ rfl)) rfl)

theorem execEventPendClear_writesRegs (k : Fin 16) (w : BusW) : WritesRegs s (execEventPendClear k w s) :=
  .next (upTo_onlyRegs (fun _ _ hv => .ite (putFBit_onlyRegs _ _ _ _ hv) hv) _ rfl)

theorem execRoSample_writesRegs (slow : List (BitVec 16)) : WritesRegs s (execRoSample slow s) :=
  .next (.ite rfl (upTo_onlyRegs (fun _ _ hv => put_onlyRegs _ _ _ hv) _ rfl))

theorem execStandbyRequest_writesRegs (w : BusW) : WritesRegs s (execStandbyRequest w s) :=
  have hw : OnlyRegs s (pdWrite w s) := pdWrite_onlyRegs _ rfl
  .next (.ite (put_onlyRegs _ _ _ hw) (.ite (put_onlyRegs _ _ _ hw) hw))

theorem execDumpArm_writesRegs (w : BusW) : WritesRegs s (execDumpArm w s) :=
  have hw : OnlyRegs s (dumpCtlWrite w s) := dumpCtlWrite_onlyRegs _ rfl
  .next (.ite hw (.ite
    (.ite hw (.ite (put_onlyRegs _ _ _ hw) (put_onlyRegs _ _ _ (put_onlyRegs _ _ _ (put_onlyRegs _ _ _ hw)))))
    (.ite (put_onlyRegs _ _ _ (put_onlyRegs _ _ _ hw)) hw)))

theorem execDumpRestore_writesRegs (w : BusW) : WritesRegs s (execDumpRestore w s) :=
  have hw : OnlyRegs s (dumpCtlWrite w s) := dumpCtlWrite_onlyRegs _ rfl
  .next (.ite (put_onlyRegs _ _ _ (put_onlyRegs _ _ _ hw)) hw)

end

/-- Settles O24: each of the commands is built of register writes, under the conditions of its rule. -/
theorem commandsThatWriteRegistersOnly : Obligations.CommandsThatWriteRegistersOnly :=
  ⟨fun n _ => execLaneWakeDone_writesRegs n, fun n _ => execWpArmedHold_writesRegs n,
    fun _ _ => WritesRegs.next (put_onlyRegs _ _ _ rfl), fun h _ => execWpermRearm_writesRegs h,
    fun _ => execAspmL1Entry_writesRegs, fun w _ => execDeckPause_writesRegs w, fun f w _ => execDeckFnWrite_writesRegs f w,
    fun _ => execGovOverClear_writesRegs, fun w _ => execGovBgWrite_writesRegs w, fun w _ => execLndTrainStart_writesRegs w,
    fun k w _ => execLndRmapCopy_writesRegs k w, fun n w _ => execYrdChResume_writesRegs n w,
    fun chk _ => execCheckerConditionFalse_writesRegs chk, fun w _ => execFltAckWrite_writesRegs w,
    fun w _ => execFltFc3Clear_writesRegs w, fun w _ => execFltFc3AckWrite_writesRegs w,
    fun chk w _ => execFltChkLatchClear_writesRegs chk w, fun k w _ => execEventPendClear_writesRegs k w,
    fun slow _ => execRoSample_writesRegs slow, fun w _ => execStandbyRequest_writesRegs w,
    fun w _ => execDumpArm_writesRegs w, fun w _ => execDumpRestore_writesRegs w⟩

end Sys2Proof.Proofs
end

section
/-! PROOFS. The arm links (chapter 02): frames down and up, losses, retrains and switching, the sense measurement and the
preamp registers. -/

namespace Sys2Proof.Proofs

open Sys2Proof Sys2Proof.Machine Sys2Proof.Laws

section
variable {a : Fin 4} {s u : State}

theorem linkRx_of_linkUp {n : Nat} (hup : linkUp s n = true) : linkRx s n = true := by
  simp only [linkUp, beq_iff_eq] at hup
  simp [linkRx, hup]

/-! ### Frames in both directions (R51, R54, R56–R62) -/

/-- With nothing unacknowledged every pending change is made, and none fails. -/
theorem execArm_acknowledged (n : Nat) (hacked : (link s n).unacked = []) :
    execArm n none s = wkillFall n (modeFailed n [] (each (link s n).pend
      (fun e v => persChange (16 * n + e.1) e.2.pers none v)
      (emit (.link n [.exec]) (setLink n { link s n with pend := [] } s)))) := by
  simp [execArm, hacked]

theorem execExec_sends (hup : linkUp s a = true) (hacked : (link s a).unacked = [])
    (hgates : (link s a).pend.any (fun e => e.2.pers != 0 && (head s (16 * a + e.1)).gate) = false) :
    execExec a s = .next (wantSend a (wkillFall a (modeFailed a [] (each (link s a).pend
      (fun e v => persChange (16 * a + e.1) e.2.pers none v)
      (emit (.link a [.exec]) (setLink a { link s a with pend := [] } s)))))) := by
  rw [execExec, hup, hgates, execArm_acknowledged _ hacked]; rfl

theorem execStatReceived_badCrc {f : StatFrame} (hrx : linkRx s a = true) (hcrc : crcOk (statBytes f) f.crc = false) :
    execStatReceived a f s = .next (count F.LANE_ALK_ERR_CRC a s) := by
  simp [execStatReceived, hrx, hcrc]

theorem execStatReceived_good {f : StatFrame} (hup : linkUp s a = true) (hcrc : crcOk (statBytes f) f.crc = true)
    (hu : u = statTake a f s) (hdisc : (link u a).disc = .none) (hstill : linkUp u a = true) :
    execStatReceived a f s = .next (wantSend a (servoStat a (f.flags.toNat.testBit 1) (f.flags.toNat.testBit 2) (senseIdle
      a (persCheck a f.pers.toNat (corrective a f.pers.toNat (wfaultCheck a f.wfault.toNat u)))))) := by
  subst hu
  simp [execStatReceived, linkRx_of_linkUp hup, hcrc, hdisc, hstill]

theorem execNakReceived_badCrc {q : BitVec 8} {x : BitVec 16} (hrx : linkRx s a = true)
    (hcrc : crcOk (nakBytes q) x = false) : execNakReceived a q x s = .next (count F.LANE_ALK_ERR_CRC a s) := by
  simp [execNakReceived, hrx, hcrc]

theorem execNakReceived_good {q : BitVec 8} {x : BitVec 16} (hrx : linkRx s a = true) (hcrc : crcOk (nakBytes q) x = true) :
    execNakReceived a q x s =
      .next (wantSend a (resendAll a (ackFrames a q.toNat (count F.LANE_ALK_ERR_NAK a s)))) := by
  simp [execNakReceived, hrx, hcrc]

theorem execRdataReceived_badCrc {q : BitVec 8} {x y z : BitVec 16} (hrx : linkRx s a = true)
    (hcrc : crcOk (rdataBytes q x y) z = false) :
    execRdataReceived a q x y z s = .next (count F.LANE_ALK_ERR_CRC a s) := by
  simp [execRdataReceived, hrx, hcrc]

theorem execRdataReceived_endsRead {q : BitVec 8} {x y z : BitVec 16} (hup : linkUp s a = true)
    (hcrc : crcOk (rdataBytes q x y) z = true) (hdisc : (link s a).disc = .none) (hseq : (link s a).regSeq = some q.toNat)
    (hread : flag F.LANE_ALK_REG_CMD_READ a s = true) :
    execRdataReceived a q x y z s = .next (put F.LANE_ALK_REG_CMD_GO a 0 (put F.LANE_ALK_REG_DATA_DATA a y.toNat
      (setLink a { link s a with regSeq := none } s))) := by
  simp [execRdataReceived, linkRx_of_linkUp hup, hup, hcrc, hdisc, hseq, hread]

theorem execAckTimeout_resends (hrx : linkRx s a = true) (hwait : (link s a).unacked.isEmpty = false) :
    execAckTimeout a s = .next (resendAll a s) := by
  rw [execAckTimeout, hrx, hwait]; rfl

/-! ### Losing a link, and starting it again (R63, R68, R71–R74) -/

theorem execUplinkCodeErrors_takesDown {n : Nat} (hup : linkUp s a = true) (hu : u = countN F.LANE_ALK_ERR_CODE a n s)
    (hstill : linkUp u a = true) (hn : 8 ≤ n) :
    execUplinkCodeErrors a n s = .next (judgeLink a (linkDown a u)) := by
  subst hu
  simp [execUplinkCodeErrors, linkRx_of_linkUp hup, hstill, hn, linkFail]

theorem execUplinkCodeErrors_counts {n : Nat} (hrx : linkRx s a = true) (hn : n < 8) :
    execUplinkCodeErrors a n s = .next (countN F.LANE_ALK_ERR_CODE a n s) := by
  simp [execUplinkCodeErrors, hrx, Nat.not_le.2 hn]

theorem execStatTimeout_takesDown (hup : linkUp s a = true) :
    execStatTimeout a s = .next (judgeLink a (linkDown a s)) := by
  simp [execStatTimeout, hup, linkFail]

theorem execWkillRelease_rises (hfree : wkillCond s a = false) :
    execWkillRelease a s = .next (wantSend a (put F.LANE_ALK_STAT_WKILL a 0 s)) := by
  simp [execWkillRelease, hfree]

theorem execLinkEnable_starts {w : BusW} (hone : wrote1 0 w = true) (hwas : flag F.LANE_ALK_CTL_ENABLE a s = false)
    (hup : armUp (busWrite R.LANE_ALK_CTL a 0 w s) a = true)
    (hu : u = startDiscovery a false (busWrite R.LANE_ALK_CTL a 0 w s)) :
    execLinkEnable a w s = .next (setLink a { link u a with retrain := true } u) := by
  subst hu
  simp [execLinkEnable, hone, hwas, hup]

/-- ENABLE 0 (R71): the link is OFF, without frames, discovery or automatic retrains. -/
theorem execLinkDisable_off {w : BusW} (hzero : wrote0 0 w = true)
    (hu : u = clearFrames a (setLinkState a 0 (dropWpermArm a (busWrite R.LANE_ALK_CTL a 0 w s)))) :
    execLinkDisable a w s = .next (condFalls (128 + a) (wkillFall a (servoLinkDown a
      (setLink a { link u a with disc := .none, auto := false, autos := 0 } u)))) := by
  subst hu
  simp [execLinkDisable, hzero]

theorem execLinkRetrain_starts {w : BusW} (hone : wrote1 2 w = true) (hu : u = busWrite R.LANE_ALK_CTL a 0 w s)
    (hidle : fld F.LANE_ALK_STAT_STATE a u ≠ 1) (hon : flag F.LANE_ALK_CTL_ENABLE a u = true) (hup : armUp u a = true) :
    execLinkRetrain a w s = .next (startDiscovery a true u) := by
  subst hu
  simp [execLinkRetrain, hone, hidle, hon, hup]

theorem execDiscUplinkIdle_reads (hdisc : (link s a).disc = .clock) :
    execDiscUplinkIdle a s = .next (each [0, 1, 2, 3] (fun r v => sendFrame a (.regr r) v)
      (setLink a { link s a with disc := .regs (nextSeq s a) [] } s)) := by
  simp [execDiscUplinkIdle, hdisc]

theorem execDiscAbsent_fails (hdisc : (link s a).disc = .clock) : execDiscAbsent a s = .next (discFail a 4 s) := by
  simp [execDiscAbsent, hdisc]

theorem execAutoRetrain_starts (hauto : (link s a).auto = true) (hleft : (link s a).autos < 3)
    (hdown : fld F.LANE_ALK_STAT_STATE a s = 3 ∨ fld F.LANE_ALK_STAT_STATE a s = 4 ∨ fld F.LANE_ALK_STAT_STATE a s = 5)
    (hre : flag F.LANE_ALK_CTL_AUTO_RETRAIN a s = true) (hon : flag F.LANE_ALK_CTL_ENABLE a s = true)
    (hup : armUp s a = true) :
    execAutoRetrain a s =
      .next (startDiscovery a true (setLink a { link s a with autos := (link s a).autos + 1 } s)) := by
  have hretrains : retrains s a = true := by simp [retrains, hauto, hleft, hre]
  simp [execAutoRetrain, hretrains, hon, hup, or_assoc, hdown]

/-! ### The sense measurement and the preamp registers (R47, R48, R56) -/

theorem execSenseStart_asks {w : BusW} {m : Sense} (hidle : flag F.LANE_ALK_SNS_START a s = false) (hone : wrote1 31 w = true)
    (hu : u = busWrite R.LANE_ALK_SNS a 0 w s)
    (hm : m = ⟨fld F.LANE_ALK_SNS_SURF a u, fld F.LANE_ALK_SNS_SRC a u, fld F.LANE_ALK_SNS_COUNT a u, 0⟩) :
    execSenseStart a w s = .next (askPers (16 * a + sensePair m) 2 m.src (setLink a { link u a with sense := some m }
      (put F.LANE_ALK_SNS_START a 1 u))) := by
  subst hm hu
  simp [execSenseStart, hidle, hone]

/-- The mean of the samples, rounded down. -/
theorem execSenseDone_ends {xs : List (List (BitVec 12))} {m : Sense} (hm : (link s a).sense = some m)
    (hcount : xs.flatten.length = m.count + 1) (hwins : xs.length = m.wins) (hup : linkUp s a = true)
    (hpers : persOf s (16 * a + sensePair m) = 2) (hgate : (head s (16 * a + sensePair m)).gate = false) :
    execSenseDone a xs s = .next (raiseEvent (68 + a) (sendFrame a (.mode (2 ^ sensePair m) 0 0) (put F.LANE_ALK_SNS_RESULT a
      (xs.flatten.foldl (fun n x => n + x.toNat) 0 / (m.count + 1)) (put F.LANE_ALK_SNS_DONE a 1 (put F.LANE_ALK_SNS_START a 0
        (setLink a { link s a with sense := none } s)))))) := by
  simp only [execSenseDone, hm, hcount, hwins, hup, hpers, hgate, ne_eq, not_true_eq_false, decide_false, Bool.not_true,
    Bool.or_self, Bool.false_eq_true, if_false]

theorem execPreampRegAccess_refused {w : BusW} (hidle : flag F.LANE_ALK_REG_CMD_GO a s = false) (hone : wrote1 31 w = true)
    (hu : u = busWrite R.LANE_ALK_REG_CMD a 0 w s) (hwrite : flag F.LANE_ALK_REG_CMD_READ a u = false)
    (haddr : fld F.LANE_ALK_REG_CMD_ADDR a u < 16) :
    execPreampRegAccess a w s = .next (put F.LANE_ALK_REG_CMD_FAIL a 1 u) := by
  subst hu
  simp [execPreampRegAccess, hidle, hone, hwrite, haddr]

theorem execPreampRegAccess_reads {w : BusW} (hidle : flag F.LANE_ALK_REG_CMD_GO a s = false) (hone : wrote1 31 w = true)
    (hu : u = busWrite R.LANE_ALK_REG_CMD a 0 w s) (hread : flag F.LANE_ALK_REG_CMD_READ a u = true)
    (hup : linkUp u a = true) :
    execPreampRegAccess a w s = .next (sendFrame a (.regr (fld F.LANE_ALK_REG_CMD_ADDR a u))
      (put F.LANE_ALK_REG_CMD_GO a 1 (put F.LANE_ALK_REG_CMD_FAIL a 0 u))) := by
  subst hu
  simp [execPreampRegAccess, hidle, hone, hread, hup]

end

/-- Settles O27: one lemma per event of the link, for the case that the premises name. -/
theorem armLinks : Obligations.ArmLinks :=
  ⟨fun _ _ hup hacked hgates => execExec_sends hup hacked hgates,
    fun _ _ _ hrx hcrc => execStatReceived_badCrc hrx hcrc,
    fun _ _ _ hup hcrc hdisc hstill => execStatReceived_good hup hcrc rfl hdisc hstill,
    fun _ _ _ _ hrx hcrc => execNakReceived_good hrx hcrc,
    fun _ _ _ _ _ _ hup hcrc hdisc hseq hread => execRdataReceived_endsRead hup hcrc hdisc hseq hread,
    fun _ _ hrx hwait => execAckTimeout_resends hrx hwait,
    fun _ _ _ _ hrx hcrc => execNakReceived_badCrc hrx hcrc,
    fun _ _ _ _ _ _ hrx hcrc => execRdataReceived_badCrc hrx hcrc,
    fun _ _ _ hup hstill hn => execUplinkCodeErrors_takesDown hup rfl hstill hn,
    fun _ _ hup => execStatTimeout_takesDown hup,
    fun _ _ hfree => execWkillRelease_rises hfree,
    fun _ _ _ hone hwas hup => execLinkEnable_starts hone hwas hup rfl,
    fun _ _ _ hzero => execLinkDisable_off hzero rfl,
    fun _ _ _ hone hidle hon hup => execLinkRetrain_starts hone rfl hidle hon hup,
    fun _ _ hdisc => execDiscUplinkIdle_reads hdisc,
    fun _ _ hdisc => execDiscAbsent_fails hdisc,
    fun _ _ hauto hleft hdown hre hon hup => execAutoRetrain_starts hauto hleft hdown hre hon hup,
    fun _ _ _ hrx hn => execUplinkCodeErrors_counts hrx hn,
    fun _ _ _ hidle hone => execSenseStart_asks hidle hone rfl rfl,
    fun _ _ _ _ hm hcount hwins hup hpers hgate => execSenseDone_ends hm hcount hwins hup hpers hgate,
    fun _ _ _ hidle hone hwrite haddr => execPreampRegAccess_refused hidle hone rfl hwrite haddr,
    fun _ _ _ hidle hone hread hup => execPreampRegAccess_reads hidle hone rfl hread hup⟩

end Sys2Proof.Proofs
end

section
/-! PROOFS. Servo sampling, permits and the shock sensors (chapter 06). -/

namespace Sys2Proof.Proofs

open Sys2Proof Sys2Proof.Machine Sys2Proof.Laws

/-! ### Wedges and groups (R176–R181, R189, R193) -/

section
variable {h : Fin 64} {s : State}

theorem execServoWedge_records {w : Wedge} {u : State} (hpart : hst s h ≠ 0) (hread : persOf s h = 0)
    (hsam : samplerOn s h = true)
    (hexpected : bitAt (fld2 F.SRV_HST_LOCK (armOf h) (h.val % 16) s) 0 = false ∨ (head s h).widx = some w.widx.toNat)
    (hu : u = wedgeRecord h w (wedgeAgree h w s)
      (thetaUpdate h w.widx.toNat (rroAhead (armOf h) w.widx.toNat (wedgeLock h w s)))) :
    execServoWedge h w s = .next (if errInWindow u h (head u h).e (head u h).ePrev then u else dropWperm h u) := by
  subst hu
  rcases hexpected with hfree | hnext
  · simp [execServoWedge, hpart, hread, hsam, hfree]
  · simp [execServoWedge, hpart, hread, hsam, hnext]

theorem execServoWedgeMiss_noSam {u : State} (hpart : hst s h ≠ 0) (hu : u = missWedge h s) :
    execServoWedgeMiss h .noSam s = .next (setHead h { head u h with seen := [] } u) := by
  subst hu
  unfold execServoWedgeMiss
  dsimp only
  rw [if_neg hpart]

theorem execServoWedgeMiss_parity {u : State} (hpart : hst s h ≠ 0)
    (hu : u = missWedge h (count F.SRV_ERR_TIDPAR (armOf h) s)) :
    execServoWedgeMiss h .parity s = .next (setHead h { head u h with seen := [] } u) := by
  subst hu
  unfold execServoWedgeMiss
  dsimp only
  rw [if_neg hpart]

end

theorem execServoGroupClose_closes {a : Fin 4} {i : Int} {s : State} (hloaded : armLoaded s a = true) (hmode : mode s a ≠ 2) :
    execServoGroupClose a i s = .next (mechFollows (each (armHeads a) permGroup
      (groupSend a (groupCount a (groupControl a (senseCode i) s))))) := by
  simp [execServoGroupClose, hloaded, hmode]

/-- Settles O32: one lemma per event of a head's servo, for the case that the premises name. -/
theorem servoSampling : Obligations.ServoSampling :=
  ⟨fun _ _ _ hpart hread hsam hexpected => execServoWedge_records hpart hread hsam hexpected rfl,
    fun _ _ hpart => execServoWedgeMiss_noSam hpart rfl,
    fun _ _ hpart => execServoWedgeMiss_parity hpart rfl,
    fun _ _ _ hloaded hmode => execServoGroupClose_closes hloaded hmode,
    fun _ _ => rfl⟩

/-! ### Permits of the heads (R61, R176, R189, R194) -/

section
variable {h : Fin 64} {s : State}

theorem execHeadLost_loses (hst' : hst s h = 1 ∨ hst s h = 2)
    (hmiss : fld1 F.SRV_TRK_HMISS (armOf h) s ≤ fld2 F.SRV_HST_MISS (armOf h) (h.val % 16) s) :
    execHeadLost h s = .next (report (136 + armOf h) none 0x0A 0 0 0 (raiseEvent (76 + armOf h) (dropWperm h (setTracking
      (armOf h) (searchRead h (timerFree h true (startRamp h (setHst h 3 s)))))))) := by
  simp [execHeadLost, hst', hmiss]

theorem execMaSatExpire_returns (htrack : hst s h = 2) (hsat : 8 ≤ (head s h).sat) :
    execMaSatExpire h s = .next (dropWperm h (setTracking (armOf h) (setHst h 1 (startRamp h s)))) := by
  simp [execMaSatExpire, htrack, hsat]

theorem execWpermRearm_sets (hre : (head s h).rearm = true) (hfollow : mode s (armOf h) = 6) (htrack : hst s h = 2)
    (hel : eligible s h = true) (hmua : (link s (armOf h)).muaMiss = false)
    (hagree : (link s (armOf h)).disagree.testBit (h.val % 16) = false) (hup : linkUp s (armOf h) = true) :
    execWpermRearm h s = .next (putFBit F.SRV_WPERM_WPERM (armOf h) (h.val % 16) true s) := by
  simp [execWpermRearm, hre, hfollow, htrack, hel, hmua, hagree, hup]

theorem execWpermRearm_early (hre : (head s h).rearm = false) : execWpermRearm h s = .next s := by
  simp [execWpermRearm, hre]

end

/-! ### Shock sensors (R196–R199) -/

section
variable {ch : Fin 5} {s : State}

theorem execShockSample_gathers {x v : Int} (hon : bit F.SRV_SHK_CTL_EN 0 ch s = true) (hv : v = (senseCode x).toInt)
    (hinit : flag F.SRV_SHK_STAT_INIT 0 (shockTake ch v s) = true) :
    execShockSample ch x s = .next (shockGather ch v (shockTake ch v s)) := by
  subst hv
  simp [execShockSample, hon, hinit]

theorem execShockSample_trips {x y : Int} {u v : State} (hon : bit F.SRV_SHK_CTL_EN 0 ch s = true)
    (hy : y = (senseCode x).toInt) (hu : u = shockTake ch y s) (hinit : flag F.SRV_SHK_STAT_INIT 0 u = false)
    (hv : v = shockTrack ch y u) (hlive : shkLive v ch = true) (htrip : fld F.SRV_SHK_THR_TRIP ch v < shockDev u ch y) :
    execShockSample ch x s = .next (shockFall v) := by
  subst hy hu hv
  simp [execShockSample, hon, hinit, hlive, htrip]

theorem execShockRearm_rises (hlow : shockOk s = false) (hinit : flag F.SRV_SHK_STAT_INIT 0 s = false)
    (hcalm : (List.range 5).all (fun c => !shkLive s c || 100 * fld1 F.SRV_SHK_CTL_QUIET 0 s ≤ (shk s c).calm) = true)
    (hheld : stuckHolds s = false) (hblow : s.shock.blow = false) :
    execShockRearm s = .next (rebind { put F.SRV_SHK_STAT_SHOCK_OK 0 1 s with
      shock := { s.shock with blow := false, risen := true } }) := by
  simp only [execShockRearm, hlow, hinit, hcalm, hheld, hblow, Bool.not_false, Bool.and_self, if_true, Bool.false_eq_true,
    if_false]

theorem execShockStuck_reports {u : State} (hon : bit F.SRV_SHK_CTL_EN 0 ch s = true)
    (hnew : bit F.SRV_SHK_STAT_STUCK 0 ch s = false) (hfound : foundStuck s ch = true)
    (hu : u = putFBit F.SRV_SHK_STAT_STUCK 0 ch true s) (hpolicy : flag F.SRV_SHK_CTL_STUCK_POLICY 0 u = false) :
    execShockStuck ch s = .next (report (148 + ch) none 0x0A 0 0 0 (raiseEvent 81 u)) := by
  subst hu
  simp [execShockStuck, hon, hnew, hfound, hpolicy]

theorem execShockStuck_moving (hfound : foundStuck s ch = false) : execShockStuck ch s = .next s := by
  simp [execShockStuck, hfound]

/-- The gathering of channel `c` starts anew, its last mean kept (R197). -/
def windowCleared (c : Nat) (s : State) : State :=
  setShk c { shk s c with n := 0, sum := 0, lo := 2047, hi := -2048, calm := 0, means := (shk s c).sum :: (shk s c).means } s

/-- A still window of the one enabled channel: its baseline is the mean of the 1,024 samples, with 32 fraction bits. -/
theorem execShockInitWindow_still {c : Nat} (hinit : flag F.SRV_SHK_STAT_INIT 0 s = true)
    (honly : (List.range 5).filter (fun n => bit F.SRV_SHK_CTL_EN 0 n s) = [c]) (hfull : (shk s c).n = 1024)
    (hstill : (shk s c).hi - (shk s c).lo ≤ 2 * (fld F.SRV_SHK_THR_REARM c s : Int)) :
    execShockInitWindow s =
      .next (put F.SRV_SHK_STAT_INIT 0 0 (windowCleared c (setBase c ((shk s c).sum * 4194304) s))) := by
  simp only [execShockInitWindow, hinit, honly, hfull, hstill, List.all_cons, List.all_nil, Bool.not_true, Bool.and_true,
    BEq.rfl, Bool.or_self, Bool.false_eq_true, if_false, decide_true, if_true]
  rfl

theorem flag_put_zero {f : Field} (i : Nat) (s : State) (hlo : f.lo ≤ f.hi) (hhi : f.hi < 64) :
    flag f i (put f i 0 s) = false := by
  have hzero : fld f i (put f i 0 s) = 0 := by rw [fld_put i 0 s hlo hhi, Nat.zero_mod]
  simp [flag, hzero]

end

/-- Settles O34: one lemma per event, for the case that the premises name. -/
theorem permitsAndShock : Obligations.PermitsAndShock :=
  ⟨fun _ _ hst' hmiss => execHeadLost_loses hst' hmiss,
    fun _ _ htrack hsat => execMaSatExpire_returns htrack hsat,
    fun _ _ hre hfollow htrack hel hmua hagree hup => execWpermRearm_sets hre hfollow htrack hel hmua hagree hup,
    fun _ _ hre => execWpermRearm_early hre,
    fun _ _ _ hon hinit => execShockSample_gathers hon rfl hinit,
    fun _ _ _ hon hinit hlive htrip => execShockSample_trips hon rfl rfl hinit rfl hlive htrip,
    fun _ hlow hinit hcalm hheld hblow => execShockRearm_rises hlow hinit hcalm hheld hblow,
    fun _ _ hinit honly hfull hstill =>
      ⟨_, execShockInitWindow_still hinit honly hfull hstill, flag_put_zero _ _ (by decide) (by decide), rfl⟩,
    fun _ _ hon hnew hfound hpolicy => execShockStuck_reports hon hnew hfound rfl hpolicy,
    fun _ _ hfound => execShockStuck_moving hfound⟩

end Sys2Proof.Proofs
end

section
/-! PROOFS. The scheduler, the governor and the tallies (chapters 11 and 13). -/

namespace Sys2Proof.Proofs

open Sys2Proof Sys2Proof.Machine Sys2Proof.Laws

/-! ### Decision, dispatch and end of an item (R381–R398) -/

section
variable {a : Fin 4} {x : Item} {s u : State}

/-- Every item planned and bound anew, before an arm decides (R387, R398). -/
def planned (s : State) : State := freeHolds (rebind (replan s))

theorem execDecisionStart_eq : execDecisionStart a s = .next
    (if flag F.DECK_CTL_PAUSE 0 (planned s) || safe (planned s) || (Tab.get? (planned s).sched.decided a).isSome ||
      (planned s).geo.isNone then govLimits (planned s) else decideArm a (planned s)) := by
  unfold execDecisionStart planned
  rfl

theorem execDecisionStart_decides (hu : u = planned s) (hgo : flag F.DECK_CTL_PAUSE 0 u = false)
    (hsafe : safe u = false) (hidle : Tab.get? u.sched.decided a = none) (hgeo : u.geo.isSome = true) :
    execDecisionStart a s = .next (decideArm a u) := by
  obtain ⟨g, hgeo⟩ := Option.isSome_iff_exists.1 hgeo
  rw [execDecisionStart_eq, ← hu, hgo, hsafe, hidle, hgeo]
  rfl

theorem execDecisionStart_paused (hu : u = planned s) (hpause : flag F.DECK_CTL_PAUSE 0 u = true) :
    execDecisionStart a s = .next (govLimits u) := by
  rw [execDecisionStart_eq, ← hu, hpause]
  rfl

/-- The item's record once it runs on the arm, before its seek is sent. -/
def dispatched (a : Nat) (x : Item) (s : State) : State :=
  setItem { x with st := .running a, t0 := s.time, media := false }
    { s with sched := { s.sched with running := Tab.put s.sched.running a x.id } }

theorem execItemDispatch_starts (hx : (Tab.get? s.sched.decided a).bind (item s) = some x)
    (hgo : flag F.DECK_CTL_PAUSE 0 s = false) (hsafe : safe s = false) (hcfg : cfgHeld s a = false)
    (hfree : Tab.get? s.sched.running a = none) (hserves : serves s x a = true) (hwop : (x.write && (wop s a).isSome) = false)
    (hread : x.mem.any (fun m => unreadable s x m.1) = false)
    (hu : u = { s with sched := { s.sched with decided := Tab.erase s.sched.decided a } })
    (hpsa : (x.mem.flatMap (itemPsas u x)).all (psaOk u) = true) :
    execItemDispatch a s = .next (startItem a { x with st := .running a, media := false }
      (sendArm a x.track (countRetry x (dispatched a x u)))) := by
  subst hu
  simp only [execItemDispatch, hx, hgo, hsafe, hcfg, hfree, hserves, hwop, hread, hpsa, Option.isSome_none, Bool.not_true,
    Bool.or_self, Bool.false_eq_true, if_false]
  rfl

/-- The heads of an item on arm `a`. -/
def itemHeads (a : Nat) (x : Item) : List Nat := x.mem.map (fun m => 16 * a + m.1)

/-- The heads that wrote last, once the item has ended. -/
def lastWriters (a : Nat) (x : Item) (s : State) : List Nat :=
  let l := s.sched.lastWr.filter (fun h => !(itemHeads a x).contains h)
  if x.write then l ++ itemHeads a x else l

/-- The item has left its arm, and none of its heads is offset any more. -/
def itemLeft (a : Nat) (x : Item) (s : State) : State :=
  each (itemHeads a x) (fun h v => setHead h { head v h with opofs := 0 } v)
    { s with sched := { s.sched with running := Tab.erase s.sched.running a, lastWr := lastWriters a x s } }

/-- What an ended item still holds of the budget, until its heads leave their charged states (R395). -/
def itemLate (a : Nat) (x : Item) : LateRes :=
  ⟨itemHeads a x, x.write, x.held, if x.cls = 0 then x.fn else 64 + (x.cls - 1)⟩

theorem execItemEnd_ends (hx : (Tab.get? s.sched.running a).bind (item s) = some x) (hdone : itemBusy s x a = false)
    (hu : u = itemLeft a x s) :
    execItemEnd a s = .next (wantSend a (govLimits (dropItem x.id (armTime a x
      { u with sched := { u.sched with late := u.sched.late ++ [itemLate a x] } })))) := by
  subst hu
  unfold execItemEnd
  dsimp only
  rw [hx]
  dsimp only
  rw [hdone]
  rfl

theorem execItemUrgent_marks (hx : (sortBy (·.origin) ((readySet s).filter (fun x => !x.urgent))).head? = some x)
    (hage : x.origin + 1000000 * max 100 (fld F.GOV_AGE_URGENT_MS 0 s) ≤ s.time) :
    execItemUrgent s = .next (urgentCtx x (bindItem x (count F.GOV_ERR_URGENT 0 s))) := by
  simp only [execItemUrgent, hx, Nat.not_lt.2 hage, if_false]

end

/-! ### The governor (R385, R389, R394–R397) -/

section
variable {s u : State}

/-- The state with one more sample of the measured power and of its remainder, of the last 100. -/
def sampled (s : State) : State :=
  { s with sched := { s.sched with samples := ((boardMw s + motorMw s, boardMw s - heldMw s) :: s.sched.samples).take 100 } }

/-- The mean of the measured power over the samples held. -/
def meanMw (s : State) : Int := meanOf (s.sched.samples.map (·.1))

/-- The registers and the energy of a tick, from its new sample. -/
def tickMeasured (s : State) : State :=
  tickEnergy (boardMw s + motorMw s) (put F.GOV_MEAS_TOTAL_MW 0 (min 65535 (meanMw (sampled s)).toNat)
    (put F.GOV_POWER_FLOOR_MW 0 (min 65535 (max 0 (meanOf ((sampled s).sched.samples.map (·.2))) + motorMw (sampled s)).toNat)
      (sampled s)))

/-- The ticks in a row, up to 100, whose mean has been at or below B_eff less the guard (R396). -/
def underTicks (avg : Int) (s : State) : Nat :=
  if avg ≤ (fld F.GOV_STAT_EFF_MW 0 s : Int) - guardMw then min 100 (s.sched.under + 1) else 0

/-- A mean above B_eff begins an over-budget episode, unless one is running (R396). -/
def overNoted (avg : Int) (s : State) : State :=
  if (fld F.GOV_STAT_EFF_MW 0 s : Int) < avg && !flag F.GOV_STAT_OVER 0 s then
    report 200 none 0 0 0 0 (raiseEvent 83 (count F.GOV_ERR_OVER 0 (put F.GOV_STAT_OVER 0 1 s)))
  else s

theorem overNoted_within {avg : Int} (hwithin : avg ≤ (fld F.GOV_STAT_EFF_MW 0 s : Int)) : overNoted avg s = s := by
  rw [overNoted, decide_eq_false (Int.not_lt.2 hwithin)]
  rfl

theorem execGovTick_eq (hu : u = overNoted (meanMw (sampled s)) (tickMeasured s)) :
    execGovTick s =
      .next (govLimits { u with sched := { u.sched with under := underTicks (meanMw (sampled s)) u } }) := by
  subst hu
  unfold execGovTick underTicks
  simp only [decide_eq_true_eq]
  rfl

/-- A tick whose mean is within the budget begins no episode. -/
theorem execGovTick_within (hu : u = tickMeasured s) (hwithin : meanMw (sampled s) ≤ (fld F.GOV_STAT_EFF_MW 0 u : Int)) :
    execGovTick s =
      .next (govLimits { u with sched := { u.sched with under := underTicks (meanMw (sampled s)) u } }) :=
  execGovTick_eq (by rw [← hu, overNoted_within hwithin])

theorem execGovOverClear_clears (hunder : 100 ≤ s.sched.under) : execGovOverClear s = .next (put F.GOV_STAT_OVER 0 0 s) := by
  simp [execGovOverClear, hunder]

theorem execGovBgWrite_takes {w : BusW} (hu : u = busWrite R.GOV_BG 0 0 w s)
    (hfits : minCfg u 1 + minCfg u 2 + minCfg u 3 + minCfg u 4 ≤ 128) : execGovBgWrite w s = .next u := by
  subst hu
  simp [execGovBgWrite, Nat.not_lt.2 hfits]

theorem execGovBgWrite_refuses {w : BusW} (hu : u = busWrite R.GOV_BG 0 0 w s)
    (hover : 128 < minCfg u 1 + minCfg u 2 + minCfg u 3 + minCfg u 4) :
    execGovBgWrite w s = .next (put F.GOV_STAT_CFG_ERR 0 1 s) := by
  subst hu
  simp [execGovBgWrite, hover]

end

/-! ### Tallies (R437–R443) -/

section
variable {k : Fin 4096} {x : Cmd} {s u : State}

theorem execTlyScaleGo_asks {w : BusW} (hone : wrote1 31 w = true) :
    execTlyScaleGo w s = .next (scaleAsk (put F.TLY_SCALE_GO 0 1 s)) := by
  simp [execTlyScaleGo, hone]

theorem execTallyPeriodExpire_asks (hperiod : fld F.TLY_CTL_PERIOD 0 s ≠ 0)
    (hdue : fld F.TLY_SHD_TIME_TIME 0 s + 1000000000 * fld F.TLY_CTL_PERIOD 0 s ≤ s.time) :
    execTallyPeriodExpire s = .next (scaleAsk s) := by
  simp [execTallyPeriodExpire, hperiod, Nat.not_lt.2 hdue]

/-- With no command in the deck the latch answers none. -/
theorem execTallyLatch_latches (hscale : s.sched.scale = 1) (hon : fabOff s = false) (hu : u = latch s)
    (hnone : Tab.vals u.deck.cmds = []) :
    execTallyLatch s = .next (put F.TLY_SCALE_GO 0 0 { u with sched := { u.sched with scale := 0 } }) := by
  have hcmds : Tab.vals (put F.TLY_SCALE_GO 0 0 { u with sched := { u.sched with scale := 0 } }).deck.cmds = [] := hnone
  unfold execTallyLatch
  rw [if_neg (by simp [hscale, hon])]
  dsimp only
  rw [← hu, hcmds]
  rfl

theorem execTallyScale_asks (hx : adm s k 0xC1 = some x) :
    execTallyScale k s = .next (scaleAsk (setCmd { x with phase := .active, txn := true } s)) := by
  simp only [execTallyScale, hx]

theorem execTallyHandshakeReq_offers (hfree : flag F.TLY_XING_PEND 0 s = false) (hon : fabOff s = false) :
    execTallyHandshakeReq s = .next (put F.TLY_XING_PEND 0 1
      { s with sched := { s.sched with hs := (takeMicro s.sched.rem).1, rem := (takeMicro s.sched.rem).2 } }) := by
  simp [execTallyHandshakeReq, hfree, hon]

theorem execTallyHandshakeReq_late (hpend : flag F.TLY_XING_PEND 0 s = true) :
    execTallyHandshakeReq s = .next (count F.TLY_XING_LATE 0 s) := by
  simp [execTallyHandshakeReq, hpend]

theorem execTallyHandshakeApply_adds (hpend : flag F.TLY_XING_PEND 0 s = true) (hon : fabOff s = false)
    (hu : u = each s.sched.hs (fun e v => if e.1 < 64 then tally e.1 11 e.2 v else tallyDev (e.1 - 64) e.2 v) s) :
    execTallyHandshakeApply s = .next (put F.TLY_XING_PEND 0 0 { u with sched := { u.sched with hs := [] } }) := by
  subst hu
  simp [execTallyHandshakeApply, hpend, hon]

/-- The header of Tally Read's data for the live bank, of the device's time now (R441). -/
def liveHeader (s : State) : List Byte :=
  bytesOf 4 (fld F.TLY_EPOCH_EPOCH 0 s) ++ bytesOf 3 (fld F.TLY_SHD_PCY_PCYCLE 0 s) ++ bytesOf 1 1 ++ bytesOf 8 s.time

theorem execTallyRead_sendsLive (hx : adm s k 0xC2 = some x) (hready : outReady s x = true)
    (hfn : x.fn = 0 ∨ cdw x 10 % 256 = x.fn) (hn : cdw x 10 % 256 < 64) (hlive : (cdw x 10).testBit 8 = true) :
    execTallyRead k s = .next (admSend x (liveHeader s ++
      ((List.range 16).map (fun j => fld2 F.TLY_LIVE_COUNT (cdw x 10 % 256) j s)).flatMap (bytesOf 8))
      (fld F.TLY_EPOCH_EPOCH 0 s) s) := by
  have hown : (decide (x.fn ≠ 0) && decide (cdw x 10 % 256 ≠ x.fn)) = false := by
    rcases hfn with h | h <;> simp [h]
  have hdev : cdw x 10 % 256 ≠ 255 := by omega
  simp only [execTallyRead, hx, hready, hown, Nat.not_le.2 hn, hdev, hlive, decide_false, Bool.not_true, Bool.false_and,
    Bool.false_eq_true, if_false, if_true]
  rfl

theorem execTallyRead_refuses (hx : adm s k 0xC2 = some x) (hready : outReady s x = true) (hvf : x.fn ≠ 0)
    (hother : cdw x 10 % 256 ≠ x.fn) : execTallyRead k s = .next (admEnd x stPermit 0 s) := by
  simp [execTallyRead, hx, hready, hvf, hother]

end

/-- Settles O51: one lemma per decision, tick and tally, for the case that the premises name. -/
theorem schedulerAndTallies : Obligations.SchedulerAndTallies :=
  ⟨fun _ _ hgo hsafe hidle hgeo => execDecisionStart_decides rfl hgo hsafe hidle hgeo,
    fun _ _ hpause => execDecisionStart_paused rfl hpause,
    fun _ _ _ hx hgo hsafe hcfg hfree hserves hwop hread hpsa =>
      execItemDispatch_starts hx hgo hsafe hcfg hfree hserves hwop hread rfl hpsa,
    fun _ _ _ hx hdone => execItemEnd_ends hx hdone rfl,
    fun _ _ hx hage => execItemUrgent_marks hx hage,
    fun _ hwithin => execGovTick_within rfl hwithin,
    fun _ hunder => execGovOverClear_clears hunder,
    fun _ => rfl,
    fun _ _ hfits => execGovBgWrite_takes rfl hfits,
    fun _ _ hover => execGovBgWrite_refuses rfl hover,
    fun _ _ hone => execTlyScaleGo_asks hone,
    fun _ hperiod hdue => execTallyPeriodExpire_asks hperiod hdue,
    fun _ hscale hon _ hnone => execTallyLatch_latches hscale hon rfl hnone,
    fun _ _ _ hx => execTallyScale_asks hx,
    fun _ hfree hon => execTallyHandshakeReq_offers hfree hon,
    fun _ hpend => execTallyHandshakeReq_late hpend,
    fun _ hpend hon => execTallyHandshakeApply_adds hpend hon rfl,
    fun _ _ _ hx hready hfn hn hlive => execTallyRead_sendsLive hx hready hfn hn hlive,
    fun _ _ _ hx hready hvf hother => execTallyRead_refuses hx hready hvf hother⟩

end Sys2Proof.Proofs
end

section
/-! PROOFS. Lanes and synthesizers of the read channel (chapter 03). -/

namespace Sys2Proof.Proofs

open Sys2Proof Sys2Proof.Machine Sys2Proof.Laws

/-! ### Lanes wake, rest and load profiles (R101–R103, R105) -/

section
variable {n : Fin 64} {s : State}

/-- A lane with no operation stays awake when PWR holds it so. -/
theorem execLaneWake_held (hsleep : fld F.LANE_STAT_STATE n s = 3) (hop : (lane s n).op = none)
    (hpwr : fld F.LANE_CTL_PWR n (put F.LANE_STAT_STATE n 4 s) = 1) :
    execLaneWake n s = .next (govLimits (put F.LANE_STAT_STATE n 4 s)) := by
  simp [execLaneWake, hsleep, hop, hpwr]

theorem execLaneWakeDone_ready (hwake : fld F.LANE_STAT_STATE n s = 4) :
    execLaneWakeDone n s = .next (put F.LANE_STAT_STATE n 5 s) := by
  simp [execLaneWakeDone, hwake]

theorem execLaneReadyHold_sleeps (hready : fld F.LANE_STAT_STATE n s = 5) (hpwr : fld F.LANE_CTL_PWR n s = 0)
    (hout : armParked s (armOf n) = false) :
    execLaneReadyHold n s = .next (govLimits (put F.LANE_STAT_STATE n 3 s)) := by
  simp [execLaneReadyHold, hready, hpwr, hout]

theorem execLaneReadyHold_parks (hready : fld F.LANE_STAT_STATE n s = 5) (hpwr : fld F.LANE_CTL_PWR n s = 0)
    (hparked : armParked s (armOf n) = true) :
    execLaneReadyHold n s =
      .next (govLimits (setLane n { lane s n with fmem := 0 } (put F.LANE_STAT_STATE n 1 s))) := by
  simp [execLaneReadyHold, hready, hpwr, hparked]

/-- Lane records are no part of shared SRAM. -/
theorem sramNat_setLane (a : Nat) (x : Lane) (s : State) (b k : Nat) : sramNat (setLane a x s) b k = sramNat s b k := rfl

/-- Lane records are no part of the registers. -/
theorem fld_setLane (a : Nat) (x : Lane) (s : State) (f : Field) (i : Nat) : fld f i (setLane a x s) = fld f i s := rfl

theorem execProfileLoadDone_loads {z b : Nat} (hload : (lane s n).loading = true) (hfor : (lane s n).wakeFor = some z)
    (hb : b = fld F.LANE_PROF_BASE_ADDR 0 s * 4096 + (n * 64 + z) * 128) (hin : inSram b 128 = true)
    (hvalid : (sramNat s (b + 0x1C) 4).testBit 0 = true) :
    execProfileLoadDone n s =
      .next (loadProfile n z b (setLane n { lane s n with loading := false, wakeFor := none } s)) := by
  simp only [execProfileLoadDone, hload, hfor, fld_setLane, sramNat_setLane, ← hb, hin, hvalid, Bool.and_self, if_true]

/-! ### Calibration (R79, R86, R105) -/

theorem execLaneCalRequest_starts (hrest : fld F.LANE_STAT_STATE n s = 1 ∨ fld F.LANE_STAT_STATE n s = 3) :
    execLaneCalRequest n s = .next (govLimits (put F.LANE_STAT_STATE n 2 (put F.LANE_CTL_CAL n 1 s))) := by
  simp only [execLaneCalRequest, if_pos hrest]

/-- What a calibration stores however it ends: the trims and the largest residuals `o` and `k`. -/
def calStored (n : Nat) (l : List SubCal) (o k : Nat) (s : State) : State :=
  put F.LANE_CTL_CAL n 0 (put F.LANE_ADC_OFS_MAX n (min 255 o) (put F.LANE_ADC_SKEW_MAX n (min 255 k)
    (setLane n { lane s n with trims := l.map (·.trim) } s)))

/-- A register of the lanes is not SRV_MODE: whether the heads are parked is as it was. -/
theorem armParked_putLane {f : Field} (n : Fin 64) (v b : Nat) (s : State) (hbase : f.reg.base < 0x40501000)
    (hsi : f.reg.si = 0x1000) : armParked (put f n v s) b = armParked s b := by
  have haddr : f.reg.addr n 0 ≠ R.SRV_MODE.addr b 0 := by
    have hn := n.isLt
    simp only [RegDef.addr, R.SRV_MODE, hsi]
    omega
  unfold armParked mode
  rw [fld_put_other v s haddr]

theorem armParked_calStored (n : Fin 64) (l : List SubCal) (o k b : Nat) (s : State) :
    armParked (calStored n l o k s) b = armParked s b := by
  rw [calStored, armParked_putLane n _ _ _ (by decide) rfl, armParked_putLane n _ _ _ (by decide) rfl,
    armParked_putLane n _ _ _ (by decide) rfl]
  rfl

section
variable {l : List SubCal} {o k : Nat} {u : State} (hcal : fld F.LANE_STAT_STATE n s = 2)
  (ho : o = l.foldl (fun m c => max m c.resOfs) 0) (hk : k = l.foldl (fun m c => max m c.resSkew) 0)
include hcal ho hk

theorem execLaneCalDone_ends (hofs : o ≤ 64) (hskew : k ≤ 100) (hout : armParked s (armOf n) = false) :
    execLaneCalDone n l s =
      .next (govLimits (put F.LANE_STAT_STATE n 3 (put F.LANE_STAT_CAL_FAIL n 0 (calStored n l o k s)))) := by
  have hpark : armParked (put F.LANE_STAT_CAL_FAIL n 0 (calStored n l o k s)) (armOf n) = false := by
    rw [armParked_putLane n _ _ _ (by decide) rfl, armParked_calStored, hout]
  subst ho hk
  unfold calStored at hpark ⊢
  simp [execLaneCalDone, hcal, Nat.not_lt.2 hofs, Nat.not_lt.2 hskew, hpark]

theorem execLaneCalDone_fails (hbad : 64 < o ∨ 100 < k)
    (hu : u = put F.LANE_STAT_STATE n 1 (put F.LANE_STAT_CAL_FAIL n 1 (calStored n l o k s))) :
    execLaneCalDone n l s = .next (report (64 + n) none 8 0 0 0 (raiseEvent n
      (govLimits (setLane n { lane u n with fmem := 0 } u)))) := by
  subst ho hk hu
  simp [execLaneCalDone, calStored, hcal, hbad]

end

end

/-! ### Synthesizers tune, lock and lose lock (R81–R84, R120, R125) -/

section
variable {a : Fin 4} {s u : State}

theorem execSynTune_tunes {w : BusW} (hu : u = busWrite R.LANE_SYN_CTL a 0 w s) (hone : wrote1 6 w = true)
    (hgeo : s.geo.isSome = true) :
    execSynTune a w s = .next (synTuneTo a (fld F.LANE_SYN_CTL_ZONE a u) (put F.LANE_SYN_CTL_TUNE a 1 u)) := by
  subst hu
  simp [execSynTune, hone, hgeo]

theorem execSynLocked_retunes {z : Nat} (hlocking : fld F.LANE_SYN_STAT_STATE a s = 1) (hnext : (syn s a).next = some z) :
    execSynLocked a s = .next (synBegin a z s) := by
  simp [execSynLocked, hlocking, hnext]

/-- Lane `n` has a read operation whose zone the synthesizer of arm `a` is not locked at. -/
def waitsForLock (s : State) (a n : Nat) : Bool :=
  match (lane s n).op with
  | some o => !synAt s a o.zone
  | none => false

/-- A lock that no retune follows ends TUNE, and frees the lanes whose zone it is. -/
theorem execSynLocked_locks (hlocking : fld F.LANE_SYN_STAT_STATE a s = 1) (hnext : (syn s a).next = none)
    (hu : u = put F.LANE_SYN_CTL_TUNE a 0 (put F.LANE_SYN_STAT_STATE a 2 s)) :
    execSynLocked a s =
      .next (setSyn a { syn s a with waiting := (syn s a).waiting.filter (waitsForLock u a) } u) := by
  subst hu
  simp only [execSynLocked, hlocking, hnext, syn_put, ne_eq, not_true_eq_false, if_false]
  rfl

theorem execSynLockLost_relocks (hlocked : fld F.LANE_SYN_STAT_STATE a s = 2) :
    execSynLockLost a s = .next (reportAt (fld F.FLT_STAT_PENDING 0 s) (fld F.FLT_FC3_PEND_PEND 0 s) false (140 + a) none
      8 0 0 5 (raiseEvent (72 + a) (each (armHeads a) (fun n v => if fld F.LANE_STAT_STATE n v = 6 then
        (if (lane v n).phase == .idle then readOpStop n v else readOpFail n 5 v) else v)
        (permitFall a (put F.LANE_SYN_STAT_STATE a 1 s))))) := by
  simp only [execSynLockLost, synLost, hlocked, ne_eq, not_true_eq_false, if_false]

/-! #### A wait for the lock that runs out (R83, R120) -/

/-- The waiting operation of lane `n` ends LOCK_LOST, unless the synthesizer stands at its zone. -/
def readLockLost (a n : Nat) (s : State) : State :=
  match (lane s n).op with
  | some o => if synAt s a o.zone then s else readOpFail n 5 s
  | none => s

/-- The write operation of arm `a` is cut LOCK_LOST, if it has still to open its gate at another zone. -/
def writeLockLost (a : Nat) (s : State) : State :=
  match wop s a with
  | some o => if o.gated || o.ending || synAt s a o.zone then s else cutWrite a (fun _ => 3) s
  | none => s

theorem readLockLost_fails {n b : Nat} {o : ReadOp} (hop : (lane s n).op = some o) (hzone : synAt s b o.zone = false) :
    readLockLost b n s = readOpFail n 5 s := by
  simp [readLockLost, hop, hzone]

theorem writeLockLost_none {b : Nat} (hwop : wop s b = none) : writeLockLost b s = s := by
  simp only [writeLockLost, hwop]

theorem writeLockLost_cuts {b : Nat} {o : WriteOp} (hwop : wop s b = some o) (hgate : o.gated = false)
    (hend : o.ending = false) (hzone : synAt s b o.zone = false) :
    writeLockLost b s = cutWrite b (fun _ => 3) s := by
  simp [writeLockLost, hwop, hgate, hend, hzone]

theorem execSynWaitTimeout_eq (hu : u = setSyn a { syn s a with waiting := [] } s) :
    execSynWaitTimeout a s = .next (writeLockLost a (each (syn s a).waiting (readLockLost a) u)) := by
  subst hu
  rfl

theorem execSynWaitTimeout_idle (hwait : (syn s a).waiting = []) (hwop : wop s a = none) :
    execSynWaitTimeout a s = .next (setSyn a { syn s a with waiting := [] } s) := by
  rw [execSynWaitTimeout_eq rfl, hwait]
  exact congrArg _ (writeLockLost_none hwop)

theorem execSynWaitTimeout_failsRead {n : Nat} {o : ReadOp} (hu : u = setSyn a { syn s a with waiting := [] } s)
    (hwait : (syn s a).waiting = [n]) (hop : (lane s n).op = some o) (hzone : synAt s a o.zone = false)
    (hwop : wop (readOpFail n 5 u) a = none) :
    execSynWaitTimeout a s = .next (readOpFail n 5 u) := by
  have hread : readLockLost a n u = readOpFail n 5 u := by
    subst hu
    exact readLockLost_fails hop hzone
  rw [execSynWaitTimeout_eq hu, hwait, each, List.foldl_cons, List.foldl_nil, hread, writeLockLost_none hwop]

theorem execSynWaitTimeout_cutsWrite {o : WriteOp} (hwait : (syn s a).waiting = []) (hwop : wop s a = some o)
    (hgate : o.gated = false) (hend : o.ending = false) (hzone : synAt s a o.zone = false) :
    execSynWaitTimeout a s = .next (cutWrite a (fun _ => 3) (setSyn a { syn s a with waiting := [] } s)) := by
  rw [execSynWaitTimeout_eq rfl, hwait]
  exact congrArg _ (writeLockLost_cuts hwop hgate hend hzone)

end

/-- Settles O28: one lemma per event of a lane and of a synthesizer, for the case that the premises name. -/
theorem lanesAndSynthesizers : Obligations.LanesAndSynthesizers :=
  ⟨fun _ _ hsleep hop hpwr => execLaneWake_held hsleep hop hpwr,
    fun _ _ hwake => execLaneWakeDone_ready hwake,
    fun _ _ hready hpwr hout => execLaneReadyHold_sleeps hready hpwr hout,
    fun _ _ hready hpwr hparked => execLaneReadyHold_parks hready hpwr hparked,
    fun _ _ hrest => execLaneCalRequest_starts hrest,
    fun _ _ _ hcal hout hofs hskew => execLaneCalDone_ends hcal rfl rfl hofs hskew hout,
    fun _ _ _ _ hload hfor hb hin hvalid => execProfileLoadDone_loads hload hfor hb hin hvalid,
    fun _ _ _ hcal hofs => execLaneCalDone_fails hcal rfl rfl (.inl hofs) rfl,
    fun _ _ _ hone hgeo => execSynTune_tunes rfl hone hgeo,
    fun _ _ _ hlocking hnext => execSynLocked_retunes hlocking hnext,
    fun _ _ hlocking hnext hwait => (execSynLocked_locks hlocking hnext rfl).trans (by rw [hwait, List.filter_nil]),
    fun _ _ hlocked => execSynLockLost_relocks hlocked,
    fun _ _ hwop hwait => execSynWaitTimeout_idle hwait hwop,
    fun _ _ _ _ hwait hop hzone hwop => execSynWaitTimeout_failsRead rfl hwait hop hzone hwop,
    fun _ _ _ hwait hwop hgate hend hzone => execSynWaitTimeout_cutsWrite hwait hwop hgate hend hzone⟩

end Sys2Proof.Proofs
end

section
/-! PROOFS. The I/O commands: reads, writes and their commit point, Flush and Barrier (R257, R335, R349–R352). -/

namespace Sys2Proof.Proofs

open Sys2Proof Sys2Proof.Machine Sys2Proof.Laws

/-! ### Granted reads and writes -/

section
variable {k : Fin 4096} {l : LandBufs} {x : Cmd} {s : State}

theorem execRead_starts (hx : granted s k 0x02 = some x) : execRead k l s = .next (startUnits x l s) := by
  simp only [execRead, hx]

theorem execOrderedRead_starts (hx : granted s k 0x82 = some x) :
    execOrderedRead k l s = .next (startUnits x l s) := by
  simp only [execOrderedRead, hx]

theorem execVerify_starts (hx : granted s k 0x0C = some x) : execVerify k l s = .next (startUnits x l s) := by
  simp only [execVerify, hx]

theorem execCompare_starts (hx : granted s k 0x05 = some x) : execCompare k l s = .next (startUnits x l s) := by
  simp only [execCompare, hx]

theorem execWrite_starts (hx : granted s k 0x01 = some x) : execWrite k l s = .next (startWrite x l s) := by
  simp only [execWrite, hx]

theorem execOrderedWrite_starts (hx : granted s k 0x81 = some x) :
    execOrderedWrite k l s = .next (startWrite x l s) := by
  simp only [execOrderedWrite, hx]

theorem execWriteZeroes_starts (hx : granted s k 0x08 = some x) :
    execWriteZeroes k l s = .next (startWrite x l s) := by
  simp only [execWriteZeroes, hx]

end

/-! ### The commit point of a write (R257 step 2, R366) -/

/-- Command `x` of slot `k` is a write to the namespace of record `r` whose data and merges are whole, not yet committed and not
of a broken queue: it stands at its commit point. -/
structure AtCommit (s : State) (k : Nat) (x : Cmd) (r : NsRec) : Prop where
  cmd : cmd s k = some x
  ns : nsr s (nsidOf x) = some r
  active : x.phase = .active
  write : writeClass x = true
  uncommitted : x.commit = false
  whole : (cmdLen s x).1 + mdLen s x ≤ x.got
  merged : x.merged = true
  unfailed : x.dfail = none
  unbroken : sqBroken s x = false

/-- The landing holds the host's data merged with the units that the write covers in part, and its protection information. -/
def writeImage (k : Nat) (x : Cmd) (r : NsRec) (s : State) : State := piInsert r x (mergeIn k (xferLook r x s))

/-- The commit of a write that passed its checks: its entry joins the protected cache, and it completes with status 0. -/
def writeAccept (x : Cmd) (r : NsRec) (s : State) : State :=
  let u := unitsOf r x
  let v := { s with deck := { s.deck with cache := s.deck.cache ++ [⟨nsidOf x, r.gen, u.1, u.2 + 1 - u.1, x.buf, x.md, x.fn, []⟩] } }
  let y := { x with commit := true, flags := x.flags ||| (if x.pois then 8 else 0) ||| (if (writeParts v r u).2 then 16 else 0) }
  let b := dataBytes v y
  sqAdvance y.fn y.sq (orphanClear y (cmdEnd y 0 0
    (if opc x = 8 then v else tally x.fn 4 1 (tally x.fn 2 b.2 (tally x.fn 1 b.1 v)))))

section
variable {k : Nat} {x : Cmd} {r : NsRec} {s : State}

theorem writeCommit_waits (h : AtCommit s k x r) (hwait : mayCommit s x = false ∨ xferBusy s r x = true) :
    writeCommit k s = setCmd { x with due := true } s := by
  obtain ⟨hcmd, hns, hact, hwr, hunc, hwhole, hmerged, hfail, hbroken⟩ := h
  rcases hwait with hlate | hbusy
  · simp [writeCommit, *, Nat.not_lt.2 hwhole]
  · simp [writeCommit, *, Nat.not_lt.2 hwhole]

/-- A write that neither the order nor the landing holds is judged: it ends with the status of the first check it fails, and
commits when it fails none. -/
theorem writeCommit_judges (h : AtCommit s k x r) (hmay : mayCommit s x = true) (hbusy : xferBusy s r x = false)
    (hown : detached x = false) :
    writeCommit k s =
      let u := writeImage k x r s
      if (writeStatus u r x).1 ≠ 0 then cmdEndAt x (writeStatus u r x).1 0 (writeStatus u r x).2 u else writeAccept x r u := by
  obtain ⟨hcmd, hns, hact, hwr, hunc, hwhole, hmerged, hfail, hbroken⟩ := h
  have hgo : (x.phase != .active || !writeClass x || x.commit || decide (x.got < (cmdLen s x).1 + mdLen s x) || !x.merged ||
      x.dfail.isSome) = false := by simp [hact, hwr, hunc, hwhole, hmerged, hfail]
  have hfree : (!mayCommit s x || xferBusy s r x) = false := by simp [hmay, hbusy]
  unfold writeCommit
  simp -zeta only [hcmd, hns, hbroken, hfree, hown, Bool.false_eq_true, if_false]
  refine (if_neg (Bool.eq_false_iff.1 hgo)).trans (if_congr Iff.rfl rfl ?_)
  exact congrArg (sqAdvance _ _) (if_neg (Bool.eq_false_iff.1 hown))

end

section
variable {k : Fin 4096} {x : Cmd} {r : NsRec} {s : State}

theorem execWriteDataReceived_of_cmd (hcmd : cmd s k = some x) :
    execWriteDataReceived k s = .next (orderGo x.fn x.sq (writeCommit k s)) := by
  simp only [execWriteDataReceived, hcmd]

theorem execWriteDataReceived_commits (h : AtCommit s k x r) (hmay : mayCommit s x = true) (hbusy : xferBusy s r x = false)
    (hown : detached x = false) (hok : (writeStatus (writeImage k x r s) r x).1 = 0) :
    execWriteDataReceived k s = .next (orderGo x.fn x.sq (writeAccept x r (writeImage k x r s))) := by
  rw [execWriteDataReceived_of_cmd h.cmd, writeCommit_judges h hmay hbusy hown]
  simp only [hok, ne_eq, not_true_eq_false, if_false]

theorem execWriteDataReceived_fails (h : AtCommit s k x r) (hmay : mayCommit s x = true) (hbusy : xferBusy s r x = false)
    (hown : detached x = false) (hbad : (writeStatus (writeImage k x r s) r x).1 ≠ 0) :
    execWriteDataReceived k s = .next (orderGo x.fn x.sq (cmdEndAt x (writeStatus (writeImage k x r s) r x).1 0
      (writeStatus (writeImage k x r s) r x).2 (writeImage k x r s))) := by
  rw [execWriteDataReceived_of_cmd h.cmd, writeCommit_judges h hmay hbusy hown]
  simp only [hbad, ne_eq, not_false_eq_true, if_true]

theorem execWriteDataReceived_waits (h : AtCommit s k x r) (hwait : mayCommit s x = false ∨ xferBusy s r x = true) :
    execWriteDataReceived k s = .next (orderGo x.fn x.sq (setCmd { x with due := true } s)) := by
  rw [execWriteDataReceived_of_cmd h.cmd, writeCommit_waits h hwait]

/-! ### Flush and Barrier (R335, R351, R352) -/

theorem execFlush_ends (hx : running s k 0x00 = some x) (hdone : (earlier s x).any writeClass = false)
    (hmay : mayCommit s x = true) :
    execFlush k s = .next (orderGo x.fn x.sq (cmdEnd { x with commit := true } 0 0 s)) := by
  simp [execFlush, hx, hdone, hmay]

/-- With no failed command before it a Barrier breaks nothing, whatever its FAILSTOP. -/
theorem execBarrier_ends {q q' : Sq} (hx : running s k 0x84 = some x) (hfirst : earlier s x = [])
    (hq : sq s x.fn x.sq = some q) (hclean : q.failed = [])
    (hq' : sq (cmdEnd { x with commit := true } 0 0 s) x.fn x.sq = some q') :
    execBarrier k s = .next (orderGo x.fn x.sq (setSq x.fn x.sq
      { q' with failed := q'.failed.filter (x.ord < ·), broken := none } (cmdEnd { x with commit := true } 0 0 s))) := by
  simp [execBarrier, hx, hfirst, hq, hclean, hq']

end

/-- Settles O45: one lemma per command, and of a write's commit point one for each way the judgement can go. -/
theorem readAndWriteCommands : Obligations.ReadAndWriteCommands :=
  ⟨fun _ _ _ _ hx => execRead_starts hx, fun _ _ _ _ hx => execOrderedRead_starts hx,
    fun _ _ _ _ hx => execVerify_starts hx, fun _ _ _ _ hx => execCompare_starts hx,
    fun _ _ _ _ hx => execWrite_starts hx, fun _ _ _ _ hx => execOrderedWrite_starts hx,
    fun _ _ _ _ hx => execWriteZeroes_starts hx,
    fun _ _ _ _ hcmd hns hact hwr hunc hwhole hmerged hfail hbroken hmay hbusy hown hok =>
      execWriteDataReceived_commits ⟨hcmd, hns, hact, hwr, hunc, hwhole, hmerged, hfail, hbroken⟩ hmay hbusy hown hok,
    fun _ _ _ _ hcmd hns hact hwr hunc hwhole hmerged hfail hbroken hmay hbusy hown hbad =>
      execWriteDataReceived_fails ⟨hcmd, hns, hact, hwr, hunc, hwhole, hmerged, hfail, hbroken⟩ hmay hbusy hown hbad,
    fun _ _ _ _ hcmd hns hact hwr hunc hwhole hmerged hfail hbroken hwait =>
      execWriteDataReceived_waits ⟨hcmd, hns, hact, hwr, hunc, hwhole, hmerged, hfail, hbroken⟩ hwait,
    fun _ _ _ hx hdone hmay => execFlush_ends hx hdone hmay,
    fun _ _ _ _ _ hx hfirst hq hclean hq' => execBarrier_ends hx hfirst hq hclean hq'⟩

end Sys2Proof.Proofs
end

section
/-! PROOFS. What part of the state an operation can change: `Within A s t` says that from `s` to `t` nothing differs but
the parts `A`. A lemma `op_within` about an operation carries `Within A s` from the state that the operation is given to
the state it leaves, for every `A` that has the parts `op` can change (`fits`). The proof about a body has the body's
shape: `.ite`, `.may` and `.unless` for its `if`, `upTo_within` and `each_within` for its loops, `.upd…` for a record
update, and the lemma of each operation it calls. -/
namespace Sys2Proof.Proofs
open Sys2Proof Sys2Proof.Machine Sys2Proof.Laws

/-- The parts of the state that the commands of this family can change. -/
inductive Part
  | regs | locked | free | out | sram | nor | mirror | land | landEra | geoImg | links | lanes | syns | wops | dec | arms
  | heads | spm | sched | spr | deck | cpr | lnd | ychs | blz | flt | mgt | cfg
deriving DecidableEq

/-- `t`'s value where the part `p` is among `A`, and else `s`'s. -/
def pick {α : Type} (A : List Part) (p : Part) (t s : α) : α := bif A.contains p then t else s

/-- `s` with the parts `A` of `t`. -/
def withParts (A : List Part) (s t : State) : State :=
  { s with
    regs := pick A .regs t.regs s.regs, locked := pick A .locked t.locked s.locked, free := pick A .free t.free s.free,
    out := pick A .out t.out s.out, sram := pick A .sram t.sram s.sram, nor := pick A .nor t.nor s.nor,
    mirror := pick A .mirror t.mirror s.mirror, land := pick A .land t.land s.land,
    landEra := pick A .landEra t.landEra s.landEra, geoImg := pick A .geoImg t.geoImg s.geoImg,
    links := pick A .links t.links s.links, lanes := pick A .lanes t.lanes s.lanes, syns := pick A .syns t.syns s.syns,
    wops := pick A .wops t.wops s.wops, dec := pick A .dec t.dec s.dec, arms := pick A .arms t.arms s.arms,
    heads := pick A .heads t.heads s.heads, spm := pick A .spm t.spm s.spm, sched := pick A .sched t.sched s.sched,
    spr := pick A .spr t.spr s.spr, deck := pick A .deck t.deck s.deck, cpr := pick A .cpr t.cpr s.cpr,
    lnd := pick A .lnd t.lnd s.lnd, ychs := pick A .ychs t.ychs s.ychs, blz := pick A .blz t.blz s.blz,
    flt := pick A .flt t.flt s.flt, mgt := pick A .mgt t.mgt s.mgt, cfg := pick A .cfg t.cfg s.cfg }

/-- Every part of `B` is one of `A`. -/
def fits (B A : List Part) : Bool := B.all A.contains

/-- From `s` to `t` nothing differs but the parts `A`. -/
def Within (A : List Part) (s t : State) : Prop := t = withParts A s t

section
variable {A B : List Part} {s t u v : State}

theorem pick_pick {α : Type} (p : Part) (x y z : α) : pick A p x (pick A p y z) = pick A p x z := by
  unfold pick; cases A.contains p <;> rfl

theorem pick_same {α : Type} (p : Part) (x : α) : pick A p x x = x := by
  unfold pick; cases A.contains p <;> rfl

theorem pick_sub {α : Type} (hBA : fits B A = true) (p : Part) (x y : α) :
    pick A p (pick B p x y) y = pick B p x y := by
  unfold pick
  cases hB : B.contains p
  · cases A.contains p <;> rfl
  · rw [List.all_eq_true.1 hBA p (List.contains_iff_mem.1 hB)]; rfl

theorem withParts_withParts (A : List Part) (s t u : State) : withParts A (withParts A s t) u = withParts A s u := by
  simp only [withParts, pick_pick]

theorem Within.refl (s : State) : Within A s s := by
  simp only [Within, withParts, pick_same]

theorem Within.mono (h : Within B s t) (hBA : fits B A = true) : Within A s t := by
  unfold Within at *
  rw [h]
  simp only [withParts, pick_sub hBA]

theorem Within.trans (h : Within A s t) (g : Within A t u) : Within A s u := by
  unfold Within at *
  rw [h, withParts_withParts] at g
  exact g

/-- An operation that changes no more than `B` keeps to any parts that hold `B`. -/
theorem Within.via (h : Within A s u) (hBA : fits B A = true) (g : Within B u v) : Within A s v := h.trans (g.mono hBA)

theorem Within.updRegs {regs'} (h : Within A s u) (hA : fits [.regs] A = true) :
    Within A s { u with regs := regs' } := h.via hA rfl

theorem Within.updLocked {locked'} (h : Within A s u) (hA : fits [.locked] A = true) :
    Within A s { u with locked := locked' } := h.via hA rfl

theorem Within.updFree {free'} (h : Within A s u) (hA : fits [.free] A = true) :
    Within A s { u with free := free' } := h.via hA rfl

theorem Within.updOut {out'} (h : Within A s u) (hA : fits [.out] A = true) :
    Within A s { u with out := out' } := h.via hA rfl

theorem Within.updSram {sram'} (h : Within A s u) (hA : fits [.sram] A = true) :
    Within A s { u with sram := sram' } := h.via hA rfl

theorem Within.updNorMirrorBlz {nor' mirror' blz'} (h : Within A s u) (hA : fits [.nor, .mirror, .blz] A = true) :
    Within A s { u with nor := nor', mirror := mirror', blz := blz' } := h.via hA rfl

theorem Within.updLandLandEraLnd {land' landEra' lnd'} (h : Within A s u) (hA : fits [.land, .landEra, .lnd] A = true) :
    Within A s { u with land := land', landEra := landEra', lnd := lnd' } := h.via hA rfl

theorem Within.updLandLnd {land' lnd'} (h : Within A s u) (hA : fits [.land, .lnd] A = true) :
    Within A s { u with land := land', lnd := lnd' } := h.via hA rfl

theorem Within.updLandEraLnd {landEra' lnd'} (h : Within A s u) (hA : fits [.landEra, .lnd] A = true) :
    Within A s { u with landEra := landEra', lnd := lnd' } := h.via hA rfl

theorem Within.updGeoImg {geoImg'} (h : Within A s u) (hA : fits [.geoImg] A = true) :
    Within A s { u with geoImg := geoImg' } := h.via hA rfl

theorem Within.updLinks {links'} (h : Within A s u) (hA : fits [.links] A = true) :
    Within A s { u with links := links' } := h.via hA rfl

theorem Within.updLanes {lanes'} (h : Within A s u) (hA : fits [.lanes] A = true) :
    Within A s { u with lanes := lanes' } := h.via hA rfl

theorem Within.updSyns {syns'} (h : Within A s u) (hA : fits [.syns] A = true) :
    Within A s { u with syns := syns' } := h.via hA rfl

theorem Within.updWops {wops'} (h : Within A s u) (hA : fits [.wops] A = true) :
    Within A s { u with wops := wops' } := h.via hA rfl

theorem Within.updDec {dec'} (h : Within A s u) (hA : fits [.dec] A = true) :
    Within A s { u with dec := dec' } := h.via hA rfl

theorem Within.updDecSchedSpr {dec' sched' spr'} (h : Within A s u) (hA : fits [.dec, .sched, .spr] A = true) :
    Within A s { u with dec := dec', sched := sched', spr := spr' } := h.via hA rfl

theorem Within.updArms {arms'} (h : Within A s u) (hA : fits [.arms] A = true) :
    Within A s { u with arms := arms' } := h.via hA rfl

theorem Within.updHeads {heads'} (h : Within A s u) (hA : fits [.heads] A = true) :
    Within A s { u with heads := heads' } := h.via hA rfl

theorem Within.updSpm {spm'} (h : Within A s u) (hA : fits [.spm] A = true) :
    Within A s { u with spm := spm' } := h.via hA rfl

theorem Within.updSched {sched'} (h : Within A s u) (hA : fits [.sched] A = true) :
    Within A s { u with sched := sched' } := h.via hA rfl

theorem Within.updSpr {spr'} (h : Within A s u) (hA : fits [.spr] A = true) :
    Within A s { u with spr := spr' } := h.via hA rfl

theorem Within.updDeck {deck'} (h : Within A s u) (hA : fits [.deck] A = true) :
    Within A s { u with deck := deck' } := h.via hA rfl

theorem Within.updCpr {cpr'} (h : Within A s u) (hA : fits [.cpr] A = true) :
    Within A s { u with cpr := cpr' } := h.via hA rfl

theorem Within.updLnd {lnd'} (h : Within A s u) (hA : fits [.lnd] A = true) :
    Within A s { u with lnd := lnd' } := h.via hA rfl

theorem Within.updYchs {ychs'} (h : Within A s u) (hA : fits [.ychs] A = true) :
    Within A s { u with ychs := ychs' } := h.via hA rfl

theorem Within.updBlz {blz'} (h : Within A s u) (hA : fits [.blz] A = true) :
    Within A s { u with blz := blz' } := h.via hA rfl

theorem Within.updFlt {flt'} (h : Within A s u) (hA : fits [.flt] A = true) :
    Within A s { u with flt := flt' } := h.via hA rfl

theorem Within.updMgt {mgt'} (h : Within A s u) (hA : fits [.mgt] A = true) :
    Within A s { u with mgt := mgt' } := h.via hA rfl

theorem Within.updCfg {cfg'} (h : Within A s u) (hA : fits [.cfg] A = true) :
    Within A s { u with cfg := cfg' } := h.via hA rfl

theorem Within.ite {c : Prop} [Decidable c] (ht : Within A s t) (hu : Within A s u) :
    Within A s (if c then t else u) := by
  split <;> assumption

theorem Within.may {c : Prop} [Decidable c] (g : Within A s u → Within A s t) (h : Within A s u) :
    Within A s (if c then t else u) := .ite (g h) h

theorem Within.unless {c : Prop} [Decidable c] (g : Within A s u → Within A s t) (h : Within A s u) :
    Within A s (if c then u else t) := .ite h (g h)

theorem each_within {α : Type} {f : α → State → State} {l : List α}
    (hf : ∀ a v, Within A s v → Within A s (f a v)) (h : Within A s u) : Within A s (each l f u) :=
  List.foldlRecOn (motive := Within A s) l _ h (fun v hv a _ => hf a v hv)

theorem upTo_within {f : Nat → State → State} {n : Nat} (hf : ∀ i v, Within A s v → Within A s (f i v))
    (h : Within A s u) : Within A s (upTo n f u) := each_within (f := f) hf h

theorem foldr_within {α : Type} {f : α → State → State} {l : List α}
    (hf : ∀ a v, Within A s v → Within A s (f a v)) (h : Within A s u) : Within A s (l.foldr f u) :=
  List.foldrRecOn (motive := Within A s) l _ h (fun v hv a _ => hf a v hv)

/-- The command answers a next state that differs from `s` in the parts `A` alone. -/
def AnswersWithin (A : List Part) (s : State) (o : Answer) : Prop := ∃ t, o = .next t ∧ Within A s t

theorem AnswersWithin.next (h : Within A s t) : AnswersWithin A s (.next t) := ⟨t, rfl, h⟩

theorem AnswersWithin.ite {c : Prop} [Decidable c] {a b : Answer} (ha : AnswersWithin A s a) (hb : AnswersWithin A s b) :
    AnswersWithin A s (if c then a else b) := by
  split <;> assumption

end

end Sys2Proof.Proofs
end

section
/-! PROOFS. The shared operations of a small footprint: the parts that each can change. -/
namespace Sys2Proof.Proofs
open Sys2Proof Sys2Proof.Machine Sys2Proof.Laws

section
variable {A : List Part} {s u : State}

/-! ### Machine/Ops.lean -/

theorem wr_within {r : RegDef} {i j v : Nat} (h : Within A s u) (hA : fits [.regs] A = true) :
    Within A s (wr r i j v u) :=
  .updRegs h hA

theorem put2_within {f : Field} {i j v : Nat} (h : Within A s u) (hA : fits [.regs] A = true) :
    Within A s (put2 f i j v u) :=
  wr_within h hA

theorem put_within {f : Field} {i v : Nat} (h : Within A s u) (hA : fits [.regs] A = true) : Within A s (put f i v u) :=
  put2_within h hA

theorem putFBit_within {f : Field} {i k : Nat} {b : Bool} (h : Within A s u) (hA : fits [.regs] A = true) :
    Within A s (putFBit f i k b u) :=
  put_within h hA

theorem countN_within {f : Field} {i n : Nat} (h : Within A s u) (hA : fits [.regs] A = true) :
    Within A s (countN f i n u) :=
  put_within h hA

theorem count_within {f : Field} {i : Nat} (h : Within A s u) (hA : fits [.regs] A = true) : Within A s (count f i u) :=
  countN_within h hA

theorem busWrite_within {r : RegDef} {i j : Nat} {w : BusW} (h : Within A s u) (hA : fits [.regs] A = true) :
    Within A s (busWrite r i j w u) :=
  wr_within h hA

theorem bootCommit_within (h : Within A s u) (hA : fits [.regs, .locked] A = true) : Within A s (bootCommit u) :=
  h.via hA (put_within (put_within (.updLocked (.refl _) rfl) rfl) rfl)

theorem emit_within {o : Output} (h : Within A s u) (hA : fits [.out] A = true) : Within A s (emit o u) :=
  .updOut h hA

theorem takeFree_within (h : Within A s u) (hA : fits [.free] A = true) : Within A s (takeFree u).2 :=
  .updFree h hA

theorem setLink_within {a : Nat} {x : Link} (h : Within A s u) (hA : fits [.links] A = true) :
    Within A s (setLink a x u) :=
  .updLinks h hA

theorem setLane_within {n : Nat} {x : Lane} (h : Within A s u) (hA : fits [.lanes] A = true) :
    Within A s (setLane n x u) :=
  .updLanes h hA

theorem setSyn_within {a : Nat} {x : Syn} (h : Within A s u) (hA : fits [.syns] A = true) : Within A s (setSyn a x u) :=
  .updSyns h hA

theorem setWop_within {a : Nat} {x : WriteOp} (h : Within A s u) (hA : fits [.wops] A = true) :
    Within A s (setWop a x u) :=
  .updWops h hA

theorem setArm_within {a : Nat} {x : ArmSrv} (h : Within A s u) (hA : fits [.arms] A = true) :
    Within A s (setArm a x u) :=
  .updArms h hA

theorem setSlot_within {k : Nat} {x : Slot} (h : Within A s u) (hA : fits [.dec] A = true) : Within A s (setSlot k x u) :=
  .updDec h hA

theorem setEng_within {e : Nat} {x : Engine} (h : Within A s u) (hA : fits [.dec] A = true) : Within A s (setEng e x u) :=
  .updDec h hA

theorem setCtx_within {c : Nat} {x : Ctx} (h : Within A s u) (hA : fits [.dec] A = true) : Within A s (setCtx c x u) :=
  .updDec h hA

theorem setItem_within {x : Item} (h : Within A s u) (hA : fits [.sched] A = true) : Within A s (setItem x u) :=
  .updSched h hA

/-! ### Machine/OpsHost.lean -/

theorem setFn_within {f : Nat} {x : Fn} (h : Within A s u) (hA : fits [.deck] A = true) : Within A s (setFn f x u) :=
  .updDeck h hA

theorem setCmd_within {x : Cmd} (h : Within A s u) (hA : fits [.deck] A = true) : Within A s (setCmd x u) :=
  .updDeck h hA

theorem dropCmd_within {k : Nat} (h : Within A s u) (hA : fits [.deck] A = true) : Within A s (dropCmd k u) :=
  .updDeck h hA

theorem setSq_within {f q : Nat} {x : Sq} (h : Within A s u) (hA : fits [.deck] A = true) : Within A s (setSq f q x u) :=
  setFn_within h hA

theorem setCq_within {f q : Nat} {x : Cq} (h : Within A s u) (hA : fits [.deck] A = true) : Within A s (setCq f q x u) :=
  setFn_within h hA

theorem setNs_within {n : Nat} {x : NsRec} (h : Within A s u) (hA : fits [.deck] A = true) : Within A s (setNs n x u) :=
  .updDeck h hA

theorem tally_within {f k n : Nat} (h : Within A s u) (hA : fits [.regs] A = true) : Within A s (tally f k n u) :=
  .ite (put2_within h hA) h

theorem tallyDev_within {k n : Nat} (h : Within A s u) (hA : fits [.regs] A = true) : Within A s (tallyDev k n u) :=
  .ite h (put_within h hA)

theorem wakeLink_within (h : Within A s u) (hA : fits [.regs] A = true) : Within A s (wakeLink u) :=
  .ite (put_within h hA) h

theorem restLink_within (h : Within A s u) (hA : fits [.regs] A = true) : Within A s (restLink u) :=
  .ite (put_within h hA) h

theorem toHost_within {o : Output} (h : Within A s u) (hA : fits [.regs, .out, .cpr] A = true) :
    Within A s (toHost o u) :=
  h.via hA (.ite (.refl _) (.ite (.updCpr (.refl _) rfl) (emit_within (wakeLink_within (.refl _) rfl) rfl)))

theorem poisOut_within {ep : Bool} (h : Within A s u) (hA : fits [.regs] A = true) : Within A s (poisOut ep u) :=
  .ite (count_within h hA) h

theorem cmdSts_within {f b : Nat} (h : Within A s u) (hA : fits [.regs] A = true) : Within A s (cmdSts f b u) :=
  wr_within h hA

theorem dataParity_within {f : Nat} {ep : Bool} (h : Within A s u) (hA : fits [.regs] A = true) :
    Within A s (dataParity f ep u) :=
  .ite (cmdSts_within h hA) h

theorem sendData_within {f addr : Nat} {rd : Bool} {bs : List (Byte × Bool)}
    (h : Within A s u) (hA : fits [.regs, .out, .cpr] A = true) : Within A s (sendData f addr rd bs u) :=
  h.via hA (each_within (fun _ _ hv => dataParity_within (poisOut_within (toHost_within hv rfl) rfl) rfl) (.refl _))

theorem sendSegs_within {f : Nat} {rd : Bool} {l : List (Nat × Nat × Nat)}
    (h : Within A s u) (hA : fits [.regs, .out, .cpr] A = true) :
    ∀ {bs : List (Byte × Bool)}, Within A s (sendSegs f rd l bs u) := by
  induction l generalizing u with
  | nil => exact h
  | cons e l ih => exact ih (.ite (sendData_within h hA) h)

theorem intxUpdate_within (h : Within A s u) (hA : fits [.regs, .out, .deck, .cpr] A = true) :
    Within A s (intxUpdate u) :=
  h.via hA (.ite (.refl _) (toHost_within (.updDeck (.refl _) rfl) rfl))

theorem sendMsix_within {f v : Nat} (h : Within A s u) (hA : fits [.regs, .out, .cpr] A = true) :
    Within A s (sendMsix f v u) :=
  toHost_within h hA

theorem sendMsi_within {m : Nat} (h : Within A s u) (hA : fits [.regs, .out, .cpr] A = true) : Within A s (sendMsi m u) :=
  toHost_within h hA

theorem msiPend_within (h : Within A s u) (hA : fits [.regs] A = true) : Within A s (msiPend u) :=
  put_within h hA

theorem interrupt_within {f v : Nat} (h : Within A s u) (hA : fits [.regs, .out, .deck, .cpr] A = true) :
    Within A s (interrupt f v u) := by
  refine h.via hA ?_
  unfold interrupt
  extract_lets
  split
  · exact .ite (put2_within (put_within (.refl _) rfl) rfl) (sendMsix_within (put_within (.refl _) rfl) rfl)
  · exact .ite (msiPend_within (.updDeck (put_within (.refl _) rfl) rfl) rfl)
      (sendMsi_within (put_within (.refl _) rfl) rfl)
  · exact intxUpdate_within (put_within (.refl _) rfl) rfl
  · exact put_within (.refl _) rfl

theorem queueCpl_within {f q : Nat} {e : CplEnt} (h : Within A s u) (hA : fits [.deck] A = true) :
    Within A s (queueCpl f q e u) := by
  unfold queueCpl
  split
  · exact h
  · split
    · exact h
    · exact setCq_within (setFn_within h hA) hA

theorem logError_within {f q cid status lba nsid : Nat} (h : Within A s u) (hA : fits [.deck] A = true) :
    Within A s (logError f q cid status lba nsid u) :=
  setFn_within h hA

theorem cmdEndAt_within {x : Cmd} {status dw0 lba : Nat} (h : Within A s u) (hA : fits [.deck] A = true) :
    Within A s (cmdEndAt x status dw0 lba u) := by
  unfold cmdEndAt
  extract_lets _ t1 t2 t3
  have h2 : Within A s t2 := .unless (logError_within · hA) (setCmd_within h hA)
  have h3 : Within A s t3 := by
    dsimp only [t3]
    split
    · exact .unless (setSq_within · hA) h2
    · exact h2
  exact .ite (dropCmd_within h3 hA) (queueCpl_within h3 hA)

theorem cmdEnd_within {x : Cmd} {status dw0 : Nat} (h : Within A s u) (hA : fits [.deck] A = true) :
    Within A s (cmdEnd x status dw0 u) :=
  cmdEndAt_within h hA

theorem asyncEvent_within {f ty info : Nat} (h : Within A s u) (hA : fits [.deck] A = true) :
    Within A s (asyncEvent f ty info u) := by
  refine .ite h ?_
  split
  · exact setFn_within h hA
  · extract_lets
    split
    · exact setFn_within h hA
    · exact cmdEnd_within (setFn_within h hA) hA

theorem asyncMask_within {m ty info : Nat} (h : Within A s u) (hA : fits [.deck] A = true) :
    Within A s (asyncMask m ty info u) :=
  upTo_within (fun _ _ hv => .ite (asyncEvent_within hv hA) hv) h

/-! ### Machine/OpsMedia.lean -/

theorem closeGates_within {hs : List Nat} (h : Within A s u) (hA : fits [.regs] A = true) :
    Within A s (closeGates hs u) :=
  each_within (fun _ _ hv => put_within hv hA) h

theorem cutWrite_within {a : Nat} {st : Nat → Nat} (h : Within A s u) (hA : fits [.regs, .wops] A = true) :
    Within A s (cutWrite a st u) := by
  refine h.via hA ?_
  unfold cutWrite
  split
  · exact .refl _
  · exact closeGates_within (setWop_within (.refl _) rfl) rfl

theorem wkillFall_within {a : Nat} (h : Within A s u) (hA : fits [.regs, .links, .wops] A = true) :
    Within A s (wkillFall a u) :=
  h.via hA (.ite (put_within (put_within (setLink_within (.ite (cutWrite_within (.refl _) rfl) (.refl _)) rfl) rfl) rfl)
    (.refl _))

theorem permitFall_within {a : Nat} (h : Within A s u) (hA : fits [.regs, .links, .wops] A = true) :
    Within A s (permitFall a u) :=
  h.via hA (wkillFall_within (.ite (cutWrite_within (.refl _) rfl) (.refl _)) rfl)

theorem bindItem_within {x : Item} (h : Within A s u) (hA : fits [.sched] A = true) : Within A s (bindItem x u) :=
  setItem_within h hA

theorem bindUrgent_within {i : Nat} (h : Within A s u) (hA : fits [.sched] A = true) : Within A s (bindUrgent i u) := by
  unfold bindUrgent
  split
  · exact .ite (bindItem_within h hA) h
  · exact h

/-! ### Machine/OpsGov.lean -/

theorem freeHolds_within (h : Within A s u) (hA : fits [.sched] A = true) : Within A s (freeHolds u) :=
  upTo_within (fun _ _ hv => .ite (.updSched hv hA) hv) h

theorem drReserve_within (h : Within A s u) (hA : fits [.sched] A = true) : Within A s (drReserve u) :=
  upTo_within (fun _ _ hv => .ite (.updSched hv hA) hv) (.updSched (freeHolds_within h hA) hA)

theorem surplusSleep_within {e : Nat} (h : Within A s u) (hA : fits [.dec] A = true) : Within A s (surplusSleep e u) :=
  .ite (setEng_within h hA) h

theorem limitSleep_within (h : Within A s u) (hA : fits [.dec] A = true) : Within A s (limitSleep u) :=
  h.via hA (foldr_within (fun _ _ hv => surplusSleep_within hv rfl) (.refl _))

theorem lateEnd_within (h : Within A s u) (hA : fits [.sched] A = true) : Within A s (lateEnd u) :=
  each_within (fun _ _ hv => .ite hv (.updSched hv hA)) h

theorem govLimits_within (h : Within A s u) (hA : fits [.regs, .dec, .sched] A = true) : Within A s (govLimits u) :=
  h.via hA (limitSleep_within (put_within (put_within (drReserve_within (lateEnd_within (.refl _) rfl) rfl) rfl) rfl) rfl)

/-! ### Machine/OpsArm.lean -/

theorem vEnter_within {fn : Nat} (h : Within A s u) (hA : fits [.sched] A = true) : Within A s (vEnter fn u) := by
  refine .ite h ?_
  extract_lets
  split
  · exact h
  · exact .updSched h hA

theorem itemReturns_within {x : Item} (h : Within A s u) (hA : fits [.sched] A = true) : Within A s (itemReturns x u) :=
  bindUrgent_within (setItem_within (.ite (vEnter_within h hA) h) hA) hA

theorem setVcm_within {a : Nat} {i : ℤ} (h : Within A s u) (hA : fits [.regs] A = true) : Within A s (setVcm a i u) :=
  put_within h hA

/-! ### Machine/OpsDeck.lean -/

theorem tagWait_within {f : Nat} {w : TagWait} (h : Within A s u) (hA : fits [.deck] A = true) :
    Within A s (tagWait f w u) :=
  .ite h (.updDeck h hA)

theorem request_within {f : Nat} {w : TagWait} {k : ReqKind} {a n : Nat}
    (h : Within A s u) (hA : fits [.regs, .out, .deck, .cpr] A = true) : Within A s (request f w k a n u) := by
  refine h.via hA ?_
  unfold request
  split
  · exact tagWait_within (.refl _) rfl
  · exact toHost_within (.updDeck (.refl _) rfl) rfl

theorem chkEnter_within {nsid first last : Nat} {excl : Bool} {h' : Holder}
    (h : Within A s u) (hA : fits [.deck] A = true) : Within A s (chkEnter nsid first last excl h' u) := by
  unfold chkEnter
  split
  · exact h
  · exact .updDeck h hA

theorem chkRelease_within {h' : Holder} (h : Within A s u) (hA : fits [.deck] A = true) : Within A s (chkRelease h' u) :=
  .updDeck h hA

theorem orphan_within {x : Cmd} (h : Within A s u) (hA : fits [.regs, .deck] A = true) : Within A s (orphan x u) := by
  refine h.via hA ?_
  unfold orphan
  split
  · exact .refl _
  · exact asyncMask_within (.updDeck (.may (put_within · rfl) (count_within (.refl _) rfl)) rfl) rfl

/-! ### Machine/OpsYrd.lean -/

theorem setYch_within {n : Nat} {x : YCh} (h : Within A s u) (hA : fits [.ychs] A = true) : Within A s (setYch n x u) :=
  .updYchs h hA

/-! ### Machine/OpsSafe.lean -/

theorem releaseWrites_within (h : Within A s u) (hA : fits [.sched] A = true) : Within A s (releaseWrites u) :=
  each_within (fun _ _ hv => .ite (itemReturns_within hv hA) hv) h

theorem engRestart_within {e : Nat} (h : Within A s u) (hA : fits [.dec] A = true) : Within A s (engRestart e u) := by
  refine setEng_within ?_ hA
  refine each_within (fun _ _ hv => ?_) h
  split
  · exact setSlot_within hv hA
  · exact hv

theorem fenceChange_within {old : State} (h : Within A s u) (hA : fits [.dec] A = true) :
    Within A s (fenceChange old u) :=
  upTo_within (fun _ _ hv => .ite (engRestart_within hv hA) hv) h

theorem warmReset_within (h : Within A s u) (hA : fits [.regs, .cpr] A = true) : Within A s (warmReset u) :=
  h.via hA (.updCpr (count_within (put_within (put_within (.refl _) rfl) rfl) rfl) rfl)

theorem lyoloReset_within (h : Within A s u) (hA : fits [.cpr] A = true) : Within A s (lyoloReset u) :=
  .updCpr h hA

/-! ### Machine/OpsLnd.lean -/

theorem rowsLost_within {g n : Nat} (h : Within A s u) (hA : fits [.land, .landEra, .lnd] A = true) :
    Within A s (rowsLost g n u) :=
  .updLandLandEraLnd h hA

/-! ### Machine/OpsPool.lean -/

theorem engWake_within {e : Nat} (h : Within A s u) (hA : fits [.dec] A = true) : Within A s (engWake e u) :=
  .ite h (setEng_within h hA)

theorem takeSlot_within {k n : Nat} (h : Within A s u) (hA : fits [.lanes, .dec] A = true) :
    Within A s (takeSlot k n u) := by
  refine h.via hA ?_
  unfold takeSlot
  split
  · exact .refl _
  · split
    · exact .refl _
    · exact setLane_within (setSlot_within (.refl _) rfl) rfl

/-! ### Machine/OpsEp.lean -/

theorem readyUpdate_within {f : Nat} (h : Within A s u) (hA : fits [.regs] A = true) : Within A s (readyUpdate f u) :=
  .ite (put_within h hA) h

theorem adminQueues_within {f : Nat} (h : Within A s u) (hA : fits [.deck] A = true) : Within A s (adminQueues f u) :=
  setSq_within (setCq_within h hA) hA

theorem fetchSq_within {f q : Nat} (h : Within A s u) (hA : fits [.regs, .out, .deck, .cpr] A = true) :
    Within A s (fetchSq f q u) := by
  refine h.via hA ?_
  unfold fetchSq
  split
  · exact .refl _
  · exact .ite (.refl _) (.ite (tagWait_within (.refl _) rfl) (request_within (setSq_within (.refl _) rfl) rfl))

theorem fetchAfter_within {f q : Nat} (h : Within A s u) (hA : fits [.regs, .out, .deck, .cpr] A = true) :
    Within A s (fetchAfter f q u) :=
  each_within (fun _ _ hv => fetchSq_within hv hA) h

theorem flushMsix_within {f : Nat} (h : Within A s u) (hA : fits [.regs, .out, .cpr] A = true) :
    Within A s (flushMsix f u) :=
  h.via hA (.ite (.refl _) (upTo_within (fun _ _ hv => .ite (sendMsix_within (put2_within hv rfl) rfl) hv) (.refl _)))

theorem unsigFire_within {f v : Nat} (h : Within A s u) (hA : fits [.regs, .out, .deck, .cpr] A = true) :
    Within A s (unsigFire f v u) :=
  h.via hA (interrupt_within (setFn_within (.refl _) rfl) rfl)

theorem stallStart_within {f : Nat} (h : Within A s u) (hA : fits [.regs, .deck] A = true) :
    Within A s (stallStart f u) :=
  h.via hA (.ite (.refl _) (putFBit_within (setFn_within (.refl _) rfl) rfl))

/-! ### Machine/AdminCmd.lean -/

theorem admEnd_within {x : Cmd} {st dw0 : Nat} (h : Within A s u) (hA : fits [.deck] A = true) :
    Within A s (admEnd x st dw0 u) :=
  cmdEnd_within h hA

theorem admSend_within {x : Cmd} {bs : List Byte} {dw0 : Nat}
    (h : Within A s u) (hA : fits [.regs, .out, .deck, .cpr] A = true) : Within A s (admSend x bs dw0 u) :=
  h.via hA (admEnd_within (sendSegs_within (.refl _) rfl) rfl)

/-! ### Machine/OpsLink.lean -/

theorem regwUndef_within {a : Nat} {f : Frame} (h : Within A s u) (hA : fits [.wops] A = true) :
    Within A s (regwUndef a f u) := by
  unfold regwUndef
  split
  · exact setWop_within h hA
  · exact h

theorem modeKill_within {a : Nat} {f : Frame} (h : Within A s u) (hA : fits [.regs, .links, .wops] A = true) :
    Within A s (modeKill a f u) := by
  unfold modeKill
  split
  · exact wkillFall_within h hA
  · exact h

theorem heatMark_within {a : Nat} {f : Frame} (h : Within A s u) (hA : fits [.lanes] A = true) :
    Within A s (heatMark a f u) := by
  unfold heatMark
  split
  · exact each_within (fun _ _ hv => .ite (setLane_within hv hA) hv) h
  · exact h

theorem sendFrame_within {a : Nat} {f : Frame}
    (h : Within A s u) (hA : fits [.regs, .out, .links, .lanes, .wops] A = true) : Within A s (sendFrame a f u) :=
  h.via hA (.ite (setLink_within (.refl _) rfl) (modeKill_within (heatMark_within
    (regwUndef_within (emit_within (setLink_within (.refl _) rfl) rfl) rfl) rfl) rfl))

theorem sendOnce_within {a : Nat} {f : Frame}
    (h : Within A s u) (hA : fits [.regs, .out, .links, .lanes, .wops] A = true) : Within A s (sendOnce a f u) :=
  .ite h (sendFrame_within h hA)

theorem wantStep_within {a f p src : Nat} (h : Within A s u) (hA : fits [.regs, .out, .links, .lanes, .wops] A = true) :
    Within A s (wantStep a f p src u) :=
  h.via hA (.ite (setLink_within (.refl _) rfl) (.ite (.refl _) (.ite (sendOnce_within (.refl _) rfl)
    (sendOnce_within (.refl _) rfl))))

theorem wantSend_within {a : Nat} (h : Within A s u) (hA : fits [.regs, .out, .links, .lanes, .wops] A = true) :
    Within A s (wantSend a u) :=
  each_within (fun _ _ hv => wantStep_within hv hA) h

/-! ### Machine/OpsLane.lean -/

theorem synBegin_within {a z : Nat} (h : Within A s u) (hA : fits [.regs, .links, .lanes, .syns, .wops] A = true) :
    Within A s (synBegin a z u) := by
  refine h.via hA ?_
  unfold synBegin
  split
  · exact .refl _
  · exact permitFall_within (setSyn_within (.unless (fun h1 => each_within (fun _ _ hv => setLane_within hv rfl) h1)
      (put_within (put_within (put_within (put_within (put_within (.refl _) rfl) rfl) rfl) rfl) rfl)) rfl) rfl

theorem synTuneTo_within {a z : Nat} (h : Within A s u) (hA : fits [.regs, .links, .lanes, .syns, .wops] A = true) :
    Within A s (synTuneTo a z u) :=
  h.via hA (.ite (.refl _) (.ite (.ite (setSyn_within (.refl _) rfl) (setSyn_within (.refl _) rfl))
    (.ite (put_within (.refl _) rfl) (synBegin_within (.refl _) rfl))))

theorem synForOp_within {a z : Nat} (h : Within A s u) (hA : fits [.regs, .links, .lanes, .syns, .wops] A = true) :
    Within A s (synForOp a z u) :=
  .ite h (synTuneTo_within h hA)

/-! ### Machine/OpsWrite.lean -/

theorem setHeadWr_within {a h' : Nat} {x : HeadWr} (h : Within A s u) (hA : fits [.wops] A = true) :
    Within A s (setHeadWr a h' x u) := by
  unfold setHeadWr
  split
  · exact h
  · exact setWop_within h hA

/-! ### Machine/Scheduler.lean -/

theorem urgentCtx_within {x : Item} (h : Within A s u) (hA : fits [.dec] A = true) : Within A s (urgentCtx x u) := by
  unfold urgentCtx
  split
  · exact setCtx_within h hA
  · exact h

theorem beffNow_within (h : Within A s u) (hA : fits [.regs, .dec, .sched] A = true) : Within A s (beffNow u) :=
  h.via hA (govLimits_within (put_within (put_within (.refl _) rfl) rfl) rfl)

/-! ### Machine/OpsCpr.lean -/

theorem aonExit_within (h : Within A s u) (hA : fits [.regs, .cpr] A = true) : Within A s (aonExit u) :=
  h.via hA (.updCpr (put_within (.refl _) rfl) rfl)

/-! ### Machine/ReadChannel.lean -/

theorem chanRegs_within {n : Nat} {h' : Chan} (h : Within A s u) (hA : fits [.regs] A = true) :
    Within A s (chanRegs n h' u) :=
  .unless (fun h1 => upTo_within (fun _ _ hv => put2_within (put2_within hv hA) hA) h1)
    (put_within (put_within (put_within h hA) hA) hA)

/-! ### Machine/Endpoint.lean -/

theorem cfgWait_within {f : Nat} (h : Within A s u) (hA : fits [.regs, .out, .cpr] A = true) : Within A s (cfgWait f u) :=
  .ite h (toHost_within h hA)

/-! ### Machine/Mi.lean -/

theorem mctpSend_within {h' : Byte} {code cc : Nat} {bs : List Byte} (h : Within A s u) (hA : fits [.out] A = true) :
    Within A s (mctpSend h' code cc bs u) :=
  .ite (emit_within h hA) h

theorem miSend_within {h' : Byte} {status : Nat} {res bs : List Byte} (h : Within A s u) (hA : fits [.out] A = true) :
    Within A s (miSend h' status res bs u) :=
  .ite (emit_within h hA) h

theorem miData_within {h' : Byte} {bs : List Byte} (h : Within A s u) (hA : fits [.out] A = true) :
    Within A s (miData h' bs u) :=
  miSend_within h hA

/-! ### Machine/LogPages.lean -/

theorem pageRead_within {f lid : Nat} (h : Within A s u) (hA : fits [.deck] A = true) : Within A s (pageRead f lid u) :=
  setFn_within h hA

/-! ### Machine/Namespaces.lean -/

theorem nsNotice_within {m n : Nat} (h : Within A s u) (hA : fits [.deck] A = true) : Within A s (nsNotice m n u) :=
  asyncMask_within (upTo_within (fun _ _ hv => .ite (setFn_within hv hA) hv) h) hA

/-! ### Machine/Vendor.lean -/

theorem salvEnd_within {x : Cmd} (h : Within A s u) (hA : fits [.regs, .out, .deck, .cpr] A = true) :
    Within A s (salvEnd x u) :=
  admSend_within h hA

theorem mapEnd_within {x : Cmd} (h : Within A s u) (hA : fits [.regs, .out, .deck, .cpr] A = true) :
    Within A s (mapEnd x u) :=
  admSend_within h hA

/-! ### Machine/Txn.lean -/

theorem txnAsk_within {slot : Option (Fin 4096)} {w : BusW} {a : Nat} (h : Within A s u) (hA : fits [.regs] A = true) :
    Within A s (txnAsk slot w a u).2 := by
  unfold txnAsk
  split
  · exact h
  · exact busWrite_within h hA

theorem txnEnd_within {o : Option Cmd} {st dw0 : Nat} (h : Within A s u) (hA : fits [.regs, .deck] A = true) :
    Within A s (txnEnd o st dw0 u) := by
  refine h.via hA ?_
  unfold txnEnd
  split
  · exact admEnd_within (.refl _) rfl
  · exact put_within (.refl _) rfl

theorem txnOther_within {x : Cmd} (h : Within A s u) (hA : fits [.deck] A = true) : Within A s (txnOther x u) :=
  admEnd_within h hA

end

end Sys2Proof.Proofs
end

section
/-! PROOFS. What a reported fault of the landing or the media can reach: the operations that it runs keep to
`faultReach`. -/
namespace Sys2Proof.Proofs
open Sys2Proof Sys2Proof.Machine Sys2Proof.Laws

/-- The parts that a fault of the landing or the media can reach (O25's wide clauses): all but the register locks, the
geometry image, the synthesisers and management. -/
def faultReach : List Part :=
  [.regs, .free, .out, .sram, .nor, .mirror, .land, .landEra, .links, .lanes, .wops, .dec, .arms, .heads, .spm, .sched,
    .spr, .deck, .cpr, .lnd, .ychs, .blz, .flt, .cfg]

section
variable {s u : State}

/-! ### Machine/Ops.lean -/

theorem breakResv_within {a n : Nat} (h : Within faultReach s u) : Within faultReach s (breakResv a n u) :=
  .ite h (.updLnd h rfl)

theorem sramWrite_within {a : Nat} {bs : List Byte} (h : Within faultReach s u) :
    Within faultReach s (sramWrite a bs u) :=
  .ite (.updSram (breakResv_within h) rfl) h

theorem putGranule_within {g : Nat} {x : Granule} (h : Within faultReach s u) : Within faultReach s (putGranule g x u) :=
  .updLandLnd (breakResv_within h) rfl

theorem setHead_within {h' : Nat} {x : HeadSrv} (h : Within faultReach s u) : Within faultReach s (setHead h' x u) :=
  .updHeads h rfl

theorem freeCtx_within {c : Nat} (h : Within faultReach s u) : Within faultReach s (freeCtx c u) :=
  .updDec h rfl

theorem dropItem_within {i : Nat} (h : Within faultReach s u) : Within faultReach s (dropItem i u) :=
  .updSched (.ite (put_within h rfl) h) rfl

theorem blzQueue_within {ty src data : Nat} {cont : Option Chain} (h : Within faultReach s u) :
    Within faultReach s (blzQueue ty src data cont u) :=
  .ite (.updBlz (count_within h rfl) rfl) (wr_within (.updBlz h rfl) rfl)

theorem blzRepeat_within {c : Chain} (h : Within faultReach s u) : Within faultReach s (blzRepeat c u) := by
  refine .ite h ?_
  split
  · exact blzQueue_within h
  · extract_lets
    split
    · exact .updBlz h rfl
    · exact .updNorMirrorBlz h rfl

theorem blzEnter_within {ty src data : Nat} (h : Within faultReach s u) :
    Within faultReach s (blzEnter ty src data u) := by
  unfold blzEnter
  split
  · exact .ite (blzRepeat_within h) (blzQueue_within h)
  · exact blzQueue_within h

theorem evBlaze_within {n cls data : Nat} (h : Within faultReach s u) : Within faultReach s (evBlaze n cls data u) :=
  .ite (blzEnter_within h) h

theorem raiseEvent_within {n : Nat} (h : Within faultReach s u) : Within faultReach s (raiseEvent n u) :=
  .ite h (evBlaze_within (putFBit_within h rfl))

/-! ### Machine/OpsMap.lean -/

theorem setOp_within {x : SprOp} (h : Within faultReach s u) : Within faultReach s (setOp x u) :=
  .updSpr h rfl

theorem setPass_within {x : Pass} (h : Within faultReach s u) : Within faultReach s (setPass x u) :=
  .updSpr h rfl

theorem dropPass_within {i : Nat} (h : Within faultReach s u) : Within faultReach s (dropPass i u) :=
  .updSpr h rfl

theorem setRead_within {x : StripeRd} (h : Within faultReach s u) : Within faultReach s (setRead x u) :=
  .updSpr h rfl

theorem dropRead_within {i : Nat} (h : Within faultReach s u) : Within faultReach s (dropRead i u) :=
  .updSpr h rfl

theorem sprId_within (h : Within faultReach s u) : Within faultReach s (sprId u).2 :=
  .updSpr h rfl

/-! ### Machine/OpsHost.lean -/

theorem devSts_within {f b : Nat} (h : Within faultReach s u) : Within faultReach s (devSts f b u) :=
  wr_within h rfl

theorem headerLog_within {f : Nat} {h' : TlpHdr} (h : Within faultReach s u) : Within faultReach s (headerLog f h' u) :=
  upTo_within (fun _ _ hv => wr_within (takeFree_within hv rfl) rfl) h

theorem errMsg_within {f k : Nat} {ask : Bool} (h : Within faultReach s u) : Within faultReach s (errMsg f k ask u) :=
  .may (toHost_within · rfl) (.ite (cmdSts_within h rfl) h)

theorem aerUnc_within {f b : Nat} {advisory : Bool} {h' : TlpHdr} (h : Within faultReach s u) :
    Within faultReach s (aerUnc f b advisory h' u) :=
  .unless (fun h1 => .ite (errMsg_within h1) (.ite (.may (toHost_within · rfl) (putFBit_within h1 rfl))
    (errMsg_within h1))) (devSts_within (.may (devSts_within ·) (putFBit_within
    (.ite (put_within (.ite (headerLog_within h) h) rfl) h) rfl)))

theorem asyncAll_within {ty info : Nat} (h : Within faultReach s u) : Within faultReach s (asyncAll ty info u) :=
  upTo_within (fun _ _ hv => asyncEvent_within hv rfl) h

/-! ### Machine/OpsMedia.lean -/

theorem c4Change_within {fns : Nat} (h : Within faultReach s u) : Within faultReach s (c4Change fns u) :=
  asyncMask_within (.updSpr h rfl) rfl

theorem degradedUpdate_within (h : Within faultReach s u) : Within faultReach s (degradedUpdate u) :=
  .ite h (.may (fun h1 => asyncAll_within (raiseEvent_within h1)) (c4Change_within (.updSpr h rfl)))

theorem mapChange_within (h : Within faultReach s u) : Within faultReach s (mapChange u) :=
  asyncEvent_within (.updDeck h rfl) rfl

theorem surfUpdate_within (h : Within faultReach s u) : Within faultReach s (surfUpdate u) :=
  .ite h (degradedUpdate_within (.may (asyncAll_within ·) (c4Change_within (raiseEvent_within (put_within h rfl)))))

theorem wkillFallAll_within (h : Within faultReach s u) : Within faultReach s (wkillFallAll u) :=
  upTo_within (fun _ _ hv => wkillFall_within hv rfl) h

theorem dropWperm_within {h' : Nat} (h : Within faultReach s u) : Within faultReach s (dropWperm h' u) :=
  .may (fun h1 => .ite (permitFall_within (count_within (putFBit_within h1 rfl) rfl) rfl)
    (wkillFall_within (count_within (putFBit_within h1 rfl) rfl) rfl)) (setHead_within h)

theorem dropWpermArm_within {a : Nat} (h : Within faultReach s u) : Within faultReach s (dropWpermArm a u) :=
  each_within (fun _ _ hv => dropWperm_within hv) h

theorem rebind_within (h : Within faultReach s u) : Within faultReach s (rebind u) :=
  each_within (fun _ _ hv => .ite (bindItem_within hv rfl) hv) h

/-! ### Machine/OpsArm.lean -/

theorem addItem_within {x : Item} (h : Within faultReach s u) : Within faultReach s (addItem x u) :=
  bindUrgent_within (setItem_within (.updSched (.ite (vEnter_within h rfl) h) rfl) rfl) rfl

theorem undecide_within {a : Nat} (h : Within faultReach s u) : Within faultReach s (undecide a u) := by
  unfold undecide
  split
  · exact h
  · extract_lets
    split
    · exact .updSched h rfl
    · exact govLimits_within (itemReturns_within (.ite (put_within (.updSched h rfl) rfl) (.updSched h rfl)) rfl) rfl

theorem undecideWrites_within (h : Within faultReach s u) : Within faultReach s (undecideWrites u) := by
  refine rebind_within ?_
  refine upTo_within (fun _ _ hv => ?_) h
  split
  · exact hv
  · split
    · exact .ite (undecide_within hv) hv
    · exact hv

theorem setHst_within {h' st : Nat} (h : Within faultReach s u) : Within faultReach s (setHst h' st u) :=
  put2_within h rfl

theorem startRamp_within {h' : Nat} (h : Within faultReach s u) : Within faultReach s (startRamp h' u) :=
  setHead_within h

theorem thetaSpindle_within (h : Within faultReach s u) : Within faultReach s (thetaSpindle u) :=
  put_within (put_within (put_within h rfl) rfl) rfl

theorem thetaUnlock_within (h : Within faultReach s u) : Within faultReach s (thetaUnlock u) :=
  .ite h (.ite (thetaSpindle_within h) (put_within (put_within (put_within h rfl) rfl) rfl))

theorem rroVoid_within {a : Nat} (h : Within faultReach s u) : Within faultReach s (rroVoid a u) :=
  .ite h (setArm_within h rfl)

theorem timerFree_within {h' : Nat} {search : Bool} (h : Within faultReach s u) :
    Within faultReach s (timerFree h' search u) :=
  thetaUnlock_within (put_within (put2_within (rroVoid_within (setHead_within h)) rfl) rfl)

theorem headOff_within {h' : Nat} (h : Within faultReach s u) : Within faultReach s (headOff h' u) :=
  timerFree_within (setHst_within (startRamp_within h))

theorem setTracking_within {a : Nat} (h : Within faultReach s u) : Within faultReach s (setTracking a u) :=
  .ite h (mapChange_within (put_within h rfl))

theorem untrack_within {a : Nat} (h : Within faultReach s u) : Within faultReach s (untrack a u) :=
  setTracking_within (each_within (fun _ _ hv => .ite (setHst_within (startRamp_within hv)) hv) h)

theorem headsOff_within {a : Nat} (h : Within faultReach s u) : Within faultReach s (headsOff a u) :=
  setTracking_within (each_within (fun _ _ hv => .ite hv (headOff_within hv)) h)

theorem setMode_within {a m : Nat} (h : Within faultReach s u) : Within faultReach s (setMode a m u) :=
  .unless (dropWpermArm_within ·) (rebind_within (.unless (undecide_within ·)
    (.ite h (mapChange_within (put_within h rfl)))))

theorem startUnload_within {a : Nat} {emergency : Bool} (h : Within faultReach s u) :
    Within faultReach s (startUnload a emergency u) :=
  .may (setVcm_within · rfl) (put_within (put_within (setArm_within (untrack_within (setMode_within h)) rfl) rfl) rfl)

theorem unloadByMode_within {a : Nat} (h : Within faultReach s u) : Within faultReach s (unloadByMode a u) :=
  .ite (startUnload_within h) (.ite (startUnload_within h) h)

theorem stopLoops_within {a m : Nat} (h : Within faultReach s u) : Within faultReach s (stopLoops a m u) :=
  setVcm_within (setArm_within (put_within (headsOff_within (setMode_within h)) rfl) rfl) rfl

theorem retractAll_within (h : Within faultReach s u) : Within faultReach s (retractAll u) :=
  upTo_within (fun _ _ hv => .ite hv (stopLoops_within hv)) h

theorem setDrain_within {h' : Nat} {b : Bool} (h : Within faultReach s u) : Within faultReach s (setDrain h' b u) :=
  putFBit_within h rfl

theorem loseEligible_within {h' : Nat} (h : Within faultReach s u) : Within faultReach s (loseEligible h' u) := by
  unfold loseEligible
  extract_lets t1 _ t2
  have h1 : Within faultReach s t1 := dropWperm_within h
  have h2 : Within faultReach s t2 := by
    dsimp only [t2]
    split
    · exact setLane_within h1 rfl
    · exact h1
  split
  · exact .may (cutWrite_within · rfl) h2
  · exact h2

theorem eligibilityChanged_within {old : State} (h : Within faultReach s u) :
    Within faultReach s (eligibilityChanged old u) :=
  rebind_within (mapChange_within (wkillFallAll_within (surfUpdate_within
    (each_within (fun _ _ hv => loseEligible_within hv) (each_within (fun _ _ hv => setDrain_within hv) h)))))

theorem fenceHead_within {h' : Nat} (h : Within faultReach s u) : Within faultReach s (fenceHead h' u) :=
  eligibilityChanged_within (putFBit_within h rfl)

theorem fenceArm_within {a : Nat} (h : Within faultReach s u) : Within faultReach s (fenceArm a u) :=
  .ite h (unloadByMode_within (eligibilityChanged_within (putFBit_within h rfl)))

/-! ### Machine/OpsDeck.lean -/

theorem orphanClear_within {x : Cmd} (h : Within faultReach s u) : Within faultReach s (orphanClear x u) := by
  unfold orphanClear
  split
  · exact h
  · exact .updDeck h rfl

theorem ctxAbort_within {c : Nat} {x : Ctx} (h : Within faultReach s u) : Within faultReach s (ctxAbort c x u) :=
  .ite (freeCtx_within (wr_within h rfl)) h

theorem rereadAbort_within {x : Item} (h : Within faultReach s u) : Within faultReach s (rereadAbort x u) := by
  refine each_within (fun _ _ hv => ?_) h
  extract_lets
  split
  · exact wr_within hv rfl
  · exact hv

theorem withdraw_within {op : Nat} (h : Within faultReach s u) : Within faultReach s (withdraw op u) :=
  govLimits_within (each_within (fun _ _ hv => ctxAbort_within hv)
    (.updDecSchedSpr (each_within (fun _ _ hv => rereadAbort_within hv) (.ite (put_within h rfl) h)) rfl)) rfl

theorem flushReqs_within {p : HostReq → Bool} (h : Within faultReach s u) : Within faultReach s (flushReqs p u) :=
  .updDeck h rfl

theorem dropReqs_within {k : Nat} (h : Within faultReach s u) : Within faultReach s (dropReqs k u) :=
  flushReqs_within h

theorem dropCpl_within {x : Cmd} (h : Within faultReach s u) : Within faultReach s (dropCpl x u) := by
  unfold dropCpl
  split
  · exact h
  · split
    · exact h
    · exact setCq_within h rfl

theorem resolve_within {x : Cmd} (h : Within faultReach s u) : Within faultReach s (resolve x u) := by
  refine .ite (setCmd_within h rfl) ?_
  refine dropCmd_within ?_ rfl
  refine .may (orphan_within · rfl) ?_
  refine chkRelease_within (dropReqs_within (dropCpl_within ?_)) rfl
  split
  · exact withdraw_within (count_within h rfl)
  · exact count_within h rfl

theorem txnIdle_within (h : Within faultReach s u) : Within faultReach s (txnIdle u) :=
  put_within (.updCfg h rfl) rfl

theorem txnSafe_within (h : Within faultReach s u) : Within faultReach s (txnSafe u) :=
  .ite (txnIdle_within h) (.ite (put_within (txnIdle_within (.updCfg h rfl)) rfl) h)

theorem resolveFn_within {f : Nat} (h : Within faultReach s u) : Within faultReach s (resolveFn f u) := by
  unfold resolveFn
  exact flushReqs_within (each_within (fun _ _ hv => .may (resolve_within ·) hv) h)

theorem fatal_within {f : Nat} (h : Within faultReach s u) : Within faultReach s (fatal f u) :=
  setFn_within (resolveFn_within (put_within (putFBit_within h rfl) rfl)) rfl

/-! ### Machine/OpsYrd.lean -/

theorem yrdHalt_within {n : Nat} (h : Within faultReach s u) : Within faultReach s (yrdHalt n u) :=
  raiseEvent_within (putFBit_within (put_within h rfl) rfl)

theorem yrdAsk_within {n : Nat} (h : Within faultReach s u) : Within faultReach s (yrdAsk n u) := by
  unfold yrdAsk
  split
  · exact h
  · exact .ite h (.ite (put_within h rfl) (.ite (tagWait_within h rfl)
      (request_within (setYch_within (put_within h rfl) rfl) rfl)))

theorem chunksBack_within {n k : Nat} (h : Within faultReach s u) : Within faultReach s (chunksBack n k u) :=
  put_within (put_within h rfl) rfl

theorem yrdClose_within {n status : Nat} (h : Within faultReach s u) : Within faultReach s (yrdClose n status u) := by
  unfold yrdClose
  split
  · exact h
  · exact yrdAsk_within (.may (raiseEvent_within ·) (chunksBack_within
      (put_within (put_within (sramWrite_within (setYch_within h rfl)) rfl) rfl)))

theorem yrdPutBack_within {n : Nat} (h : Within faultReach s u) : Within faultReach s (yrdPutBack n u) := by
  unfold yrdPutBack
  split
  · exact h
  · exact chunksBack_within (put_within (put_within (put_within (flushReqs_within (setYch_within h rfl)) rfl) rfl) rfl)

theorem yrdEnd_within {n status : Nat} (h : Within faultReach s u) : Within faultReach s (yrdEnd n status u) :=
  .ite h (.may (fun h1 => yrdHalt_within (yrdPutBack_within h1)) (yrdClose_within h))

theorem yrdAbortAll_within (h : Within faultReach s u) : Within faultReach s (yrdAbortAll u) :=
  upTo_within (fun _ _ hv => upTo_within (fun _ _ hv => .ite hv (yrdEnd_within (setYch_within (put_within hv rfl) rfl)))
    (yrdEnd_within (yrdEnd_within hv))) h

/-! ### Machine/OpsSafe.lean -/

theorem holdWrites_within (h : Within faultReach s u) : Within faultReach s (holdWrites u) :=
  each_within (fun _ _ hv => .ite (setItem_within hv rfl) hv) (undecideWrites_within h)

theorem atSpeedFall_within (h : Within faultReach s u) : Within faultReach s (atSpeedFall u) :=
  .may (fun h1 => holdWrites_within (put_within h1 rfl)) (.updSpm h rfl)

theorem gatesOff_within (h : Within faultReach s u) : Within faultReach s (gatesOff u) :=
  put_within (.updSpm h rfl) rfl

theorem spmEnter_within {st : Nat} (h : Within faultReach s u) : Within faultReach s (spmEnter st u) :=
  .may (fun h1 => put_within (takeFree_within (put_within h1 rfl) rfl) rfl)
    (.unless (atSpeedFall_within ·) (put_within (.updSpm h rfl) rfl))

theorem spmCoast_within {trip : Bool} (h : Within faultReach s u) : Within faultReach s (spmCoast trip u) :=
  .updSpm (spmEnter_within (gatesOff_within h)) rfl

theorem spmClockLost_within (h : Within faultReach s u) : Within faultReach s (spmClockLost u) :=
  .updSpm (.ite h (.may (raiseEvent_within ·) (spmCoast_within h))) rfl

theorem retractCause_within {k : Nat} (h : Within faultReach s u) : Within faultReach s (retractCause k u) :=
  .unless (fun h1 => retractAll_within (upTo_within (fun _ _ hv => permitFall_within hv rfl) h1))
    (put_within (putFBit_within h rfl) rfl)

theorem clkSafe_within {i : Nat} (h : Within faultReach s u) : Within faultReach s (clkSafe i u) :=
  .updCpr (.unless (raiseEvent_within ·) (spmClockLost_within (retractCause_within
    (upTo_within (fun _ _ hv => permitFall_within hv rfl) (putFBit_within (putFBit_within h rfl) rfl))))) rfl

theorem mrgEvict_within {e : MrgEnt} (h : Within faultReach s u) : Within faultReach s (mrgEvict e u) :=
  .ite (.updLandEraLnd (breakResv_within h) rfl) (.may (count_within · rfl) (putGranule_within h))

theorem mrgDrain_within (h : Within faultReach s u) : Within faultReach s (mrgDrain u) :=
  each_within (fun _ _ hv => mrgEvict_within hv) h

theorem dumpStart_within {cause : Nat} (h : Within faultReach s u) : Within faultReach s (dumpStart cause u) :=
  .ite h (.ite (.ite (put_within (.updCpr h rfl) rfl) h) (.ite (.updCpr
    (put_within (put_within (put_within (mrgDrain_within h) rfl) rfl) rfl) rfl)
    (.ite (blzEnter_within h) (.updCpr h rfl))))

theorem safeState_within {ly : Bool} (h : Within faultReach s u) : Within faultReach s (safeState ly u) :=
  have hstop : Within faultReach s _ :=
    retractCause_within (upTo_within (fun _ _ hv => permitFall_within hv rfl) (put_within h rfl))
  have hcoast : Within faultReach s _ := spmCoast_within hstop
  .ite h (dumpStart_within (yrdAbortAll_within (aerUnc_within (txnSafe_within (upTo_within (fun _ _ hv => fatal_within hv)
    (.updCpr (.ite (gatesOff_within hstop) (.ite (raiseEvent_within hcoast) hcoast)) rfl))))))

/-! ### Machine/OpsFault.lean -/

theorem putCap_within {which i : Nat} {ws : List Nat} (h : Within faultReach s u) :
    Within faultReach s (putCap which i ws u) :=
  each_within (fun _ _ hv => put2_within hv rfl) h

theorem fc2Action_within {chk : Nat} {c : ChkInfo} (h : Within faultReach s u) :
    Within faultReach s (fc2Action chk c u) := by
  unfold fc2Action
  split
  · exact h
  · exact h
  · exact clkSafe_within h
  · exact fenceHead_within h
  · exact fenceArm_within h
  · exact fenceChange_within (.ite (putFBit_within h rfl) (putFBit_within h rfl)) rfl
  · exact warmReset_within h rfl
  · exact lyoloReset_within h rfl

theorem recordFault_within {rec : Nat} {esc inj : Bool} {chk : Nat} {c : ChkInfo} {fn : Option Nat}
    {master access addr detail : Nat} (h : Within faultReach s u) :
    Within faultReach s (recordFault rec esc inj chk c fn master access addr detail u) := by
  unfold recordFault
  extract_lets _ _ _ _ _ _ _ t5 t6
  have h5 : Within faultReach s t5 :=
    .unless (putCap_within ·) (putFBit_within (putFBit_within
      (.may (fun h3 => put_within (put_within (putFBit_within h3 rfl) rfl) rfl)
        (count_within (put_within (.may (put_within · rfl) h) rfl) rfl)) rfl) rfl)
  have h6 : Within faultReach s t6 := by
    dsimp only [t6]
    split
    · exact .may (putCap_within ·) h5
    · exact h5
  exact evBlaze_within (putFBit_within (.updFlt
    (put_within (put_within (putCap_within (.may (put_within · rfl) h6)) rfl) rfl) rfl) rfl)

theorem fc2Effect_within {chk : Nat} {c : ChkInfo} (h : Within faultReach s u) :
    Within faultReach s (fc2Effect chk c u) :=
  degradedUpdate_within (asyncAll_within (fc2Action_within h))

theorem reportRmw_within {g : Nat} (h : Within faultReach s u) : Within faultReach s (reportRmw g u) :=
  .ite h (.may (fc2Effect_within ·) (recordFault_within h))

theorem reportEvicted_within {old : State} (h : Within faultReach s u) : Within faultReach s (reportEvicted old u) :=
  each_within (fun _ _ hv => reportRmw_within hv) h

theorem classEffect_within {chk : Nat} {c : ChkInfo} {rec : Nat} {fn : Option Nat} (h : Within faultReach s u) :
    Within faultReach s (classEffect chk c rec fn u) := by
  refine .ite (fc2Effect_within h) ?_
  refine .ite ?_ (.ite (reportEvicted_within (safeState_within h)) h)
  split
  · exact fatal_within (putFBit_within (putFBit_within h rfl) rfl)
  · exact h

theorem capDamage_within {d rec chk : Nat} (h : Within faultReach s u) : Within faultReach s (capDamage d rec chk u) :=
  .ite h (putCap_within (putCap_within h))

theorem reportAt_within {pend fc3 : Nat} {inj : Bool} {chk : Nat} {fn : Option Nat} {master access addr detail : Nat}
    (h : Within faultReach s u) : Within faultReach s (reportAt pend fc3 inj chk fn master access addr detail u) := by
  unfold reportAt
  split
  · exact h
  · exact .ite h (.ite (.ite (put_within h rfl) h) (.ite h (classEffect_within
      (capDamage_within (recordFault_within h)))))

theorem report_within {chk : Nat} {fn : Option Nat} {master access addr detail : Nat} (h : Within faultReach s u) :
    Within faultReach s (report chk fn master access addr detail u) :=
  reportAt_within h

/-! ### Machine/OpsLnd.lean -/

theorem busError_within {m access a : Nat} (h : Within faultReach s u) : Within faultReach s (busError m access a u) :=
  report_within h

theorem recordUe_within {m g : Nat} (h : Within faultReach s u) : Within faultReach s (recordUe m g u) :=
  report_within (raiseEvent_within (.unless (fun h1 => put_within (put_within h1 rfl) rfl)
    (count_within (.updLnd h rfl) rfl)))

theorem eccRead_within {m g : Nat} {e : Ecc} (h : Within faultReach s u) : Within faultReach s (eccRead m g e u).2 := by
  unfold eccRead
  split
  · exact h
  · exact count_within h rfl
  · exact recordUe_within h

theorem eccReads_within {m : Nat} {l : List Nat} (h : Within faultReach s u) :
    ∀ {es : List Ecc}, Within faultReach s (eccReads m l es u).2 := by
  induction l generalizing u with
  | nil => exact h
  | cons g l ih => exact ih (eccRead_within h)

theorem evict_within {e : MrgEnt} (h : Within faultReach s u) : Within faultReach s (evict e u) :=
  reportEvicted_within (mrgEvict_within h)

theorem evictEcc_within {ecc : Ecc} {e : MrgEnt} (h : Within faultReach s u) :
    Within faultReach s (evictEcc ecc e u) := by
  refine evict_within ?_
  split
  · exact h
  · exact count_within h rfl
  · exact .updLnd h rfl

theorem mrgPart_within {g o : Nat} {bs : List Byte} {poison : Bool} {ecc : Ecc} (h : Within faultReach s u) :
    Within faultReach s (mrgPart g o bs poison ecc u) := by
  refine .may (evict_within ·) ?_
  refine .updLnd ?_ rfl
  refine .unless (fun h1 => ?_) (breakResv_within h)
  split
  · exact evictEcc_within h1
  · exact h1

theorem granuleWrite_within {g o : Nat} {bs : List Byte} {poison : Bool} {ecc : Ecc} (h : Within faultReach s u) :
    Within faultReach s (granuleWrite g o bs poison ecc u) :=
  .ite (putGranule_within (.updLnd h rfl)) (mrgPart_within h)

theorem landMarked_within {a : Nat} {bs : List Byte} {marks : Nat} {ecc : List Ecc} (h : Within faultReach s u) :
    Within faultReach s (landMarked a bs marks ecc u) :=
  each_within (fun _ _ hv => granuleWrite_within hv) h

theorem hold_within {x : LndAcc} (h : Within faultReach s u) : Within faultReach s (hold x u) :=
  .updLnd h rfl

theorem hwStore_within {a : Nat} {bs : List Byte} {marks mask : Nat} (h : Within faultReach s u) :
    Within faultReach s (hwStore a bs marks mask u) :=
  .unless (fun h1 => .updLnd h1 rfl) (landMarked_within h)

theorem hwWrite_within {m a : Nat} {bs : List Byte} {marks mask : Nat} (h : Within faultReach s u) :
    Within faultReach s (hwWrite m a bs marks mask u) :=
  .ite h (.ite (hold_within h) (.ite (hwStore_within h) (busError_within h)))

theorem hwLook_within {m a n : Nat} {ecc : List Ecc} (h : Within faultReach s u) :
    Within faultReach s (hwLook m a n ecc u) :=
  .ite h (.ite (eccReads_within h) (busError_within h))

/-! ### Machine/OpsXfer.lean -/

theorem piInsert_within {r : NsRec} {x : Cmd} (h : Within faultReach s u) : Within faultReach s (piInsert r x u) :=
  .ite h (upTo_within (fun _ _ hv => hwWrite_within hv) h)

theorem xferLook_within {r : NsRec} {x : Cmd} (h : Within faultReach s u) : Within faultReach s (xferLook r x u) :=
  .unless (hwLook_within ·) (hwLook_within h)

theorem readFinish_within {k : Nat} (h : Within faultReach s u) : Within faultReach s (readFinish k u) := by
  unfold readFinish
  split
  · exact h
  · split
    · exact h
    · exact .ite h (.ite (cmdEnd_within (setCmd_within (chkRelease_within h rfl) rfl) rfl)
        (.ite (setCmd_within (chkRelease_within h rfl) rfl) (.ite (setCmd_within (chkRelease_within h rfl) rfl)
        (cmdEndAt_within (.may (fun h1 => .unless (sendData_within · rfl) (sendSegs_within h1 rfl))
        (xferLook_within (setCmd_within (chkRelease_within h rfl) rfl))) rfl))))

theorem cmdUnits_within {k : Nat} {us : Tab Nat} {lad : Bool} (h : Within faultReach s u) :
    Within faultReach s (cmdUnits k us lad u) := by
  unfold cmdUnits
  split
  · exact h
  · exact readFinish_within (setCmd_within h rfl)

theorem sqAdvance_within {f q : Nat} (h : Within faultReach s u) : Within faultReach s (sqAdvance f q u) := by
  refine each_within (fun _ _ hv => ?_) h
  split
  · exact hv
  · exact .ite (readFinish_within (setCmd_within hv rfl)) (readFinish_within hv)

/-! ### Machine/OpsSpr.lean -/

theorem opEnd_within {x : SprOp} {st : Nat} (h : Within faultReach s u) : Within faultReach s (opEnd x st u) := by
  unfold opEnd
  extract_lets
  split
  · exact cmdUnits_within (.updSpr h rfl)
  · exact .may (raiseEvent_within ·) (sramWrite_within (sramWrite_within (sramWrite_within (.updSpr h rfl))))

theorem bodyStore_within {m buf md : Nat} {body : List Byte} (h : Within faultReach s u) :
    Within faultReach s (bodyStore m buf md body u) :=
  .unless (hwWrite_within ·) (hwWrite_within h)

theorem unitStore_within {x : SprOp} {i : Nat} {body : List Byte} (h : Within faultReach s u) :
    Within faultReach s (unitStore x i body u) :=
  bodyStore_within h

theorem noteUnrec_within {nsid u' : Nat} {on : Bool} (h : Within faultReach s u) :
    Within faultReach s (noteUnrec nsid u' on u) :=
  .updSpr h rfl

theorem unitEnd_within {id i st : Nat} (h : Within faultReach s u) : Within faultReach s (unitEnd id i st u) := by
  unfold unitEnd
  split
  · exact h
  · exact .ite h (.may (opEnd_within ·) (setOp_within (.may (fun h1 => tally_within (count_within h1 rfl) rfl)
      (.unless (hwWrite_within ·) (.may (noteUnrec_within ·) (.ite (unitStore_within h) h))))))

theorem salvSet_within {st : Nat} (h : Within faultReach s u) : Within faultReach s (salvSet st u) :=
  .updSpr (put_within h rfl) rfl

theorem salvHalt_within {i : Nat} (h : Within faultReach s u) : Within faultReach s (salvHalt i u) :=
  c4Change_within (raiseEvent_within (put_within (salvSet_within (.updSpr
    (each_within (fun _ _ hv => .ite (chkRelease_within hv rfl) hv) h) rfl)) rfl))

theorem sectorRefuse_within {back : RdUse → State → State} {req psa : Nat}
    (hback : ∀ {use v}, Within faultReach s v → Within faultReach s (back use v)) (h : Within faultReach s u) :
    Within faultReach s (sectorRefuse back req psa u) := by
  refine .ite ?_ ?_
  · split
    · exact unitEnd_within h
    · exact h
  · split
    · exact h
    · exact hback (dropRead_within h)

theorem cruiseLeave_within (h : Within faultReach s u) : Within faultReach s (cruiseLeave u) :=
  .updSpr (chkRelease_within h rfl) rfl

theorem readRefuse_within {n : Nat} (h : Within faultReach s u) :
    ∀ {use : RdUse}, Within faultReach s (readRefuse n use u) := by
  induction n generalizing u with
  | zero => exact h
  | succ n ih =>
    intro use
    unfold readRefuse
    split
    · exact unitEnd_within h
    · exact unitEnd_within h
    · exact salvHalt_within h
    · exact cruiseLeave_within h
    · exact cruiseLeave_within h
    · split
      · exact h
      · exact sectorRefuse_within (fun hv => ih hv) (freeCtx_within h)

theorem startReadOf_within {keep : List Nat} {use : RdUse} {z k red : Nat} {skip : Option Nat} {w : Want}
    (h : Within faultReach s u) : Within faultReach s (startReadOf keep use z k red skip w u) :=
  .ite (readRefuse_within (report_within h))
    (each_within (fun _ _ hv => addItem_within hv) (setRead_within (sprId_within h)))

theorem startRead_within {use : RdUse} {z k red : Nat} {skip : Option Nat} {w : Want} (h : Within faultReach s u) :
    Within faultReach s (startRead use z k red skip w u) :=
  startReadOf_within h

theorem sprResult_within {r : RdRes} (h : Within faultReach s u) : Within faultReach s (sprResult r u) := by
  refine .ite ?_ ?_
  · split
    · exact h
    · split
      · exact h
      · exact unitEnd_within (setOp_within h)
  · split
    · exact h
    · exact setRead_within h

theorem sprParity_within {c : Nat} (h : Within faultReach s u) : Within faultReach s (sprParity c u) := by
  unfold sprParity
  split
  · exact h
  · exact startRead_within h

theorem passReport_within {p : Pass} (h : Within faultReach s u) : Within faultReach s (passReport p u) :=
  .ite h (report_within h)

theorem passIssue_within {p : Pass} (h : Within faultReach s u) : Within faultReach s (passIssue p u) :=
  addItem_within (setPass_within h)

theorem entriesEnd_within {o k st units seq gen : Nat} (h : Within faultReach s u) :
    Within faultReach s (entriesEnd o k st units seq gen u) := by
  unfold entriesEnd
  split
  · exact h
  · exact .ite (opEnd_within (tally_within h rfl)) (setOp_within (tally_within h rfl))

theorem stagingLost_within {p : Pass} {st : Nat} (h : Within faultReach s u) : Within faultReach s (stagingLost p st u) :=
  each_within (fun _ _ hv => entriesEnd_within hv) (dropPass_within h)

/-! ### Machine/OpsPool.lean -/

theorem sectorFinal_within {x : Item} {psa w wgen poison : Nat} {body : List Byte} (h : Within faultReach s u) :
    Within faultReach s (sectorFinal x psa w wgen poison body u) :=
  sprResult_within (.updDec (wr_within h rfl) rfl)

theorem deliverZero_within {x : Item} {psa w : Nat} (h : Within faultReach s u) :
    Within faultReach s (deliverZero x psa w u) := by
  refine sectorFinal_within ?_
  split
  · exact h
  · exact bodyStore_within h

theorem ladderFail_within {c : Nat} (h : Within faultReach s u) : Within faultReach s (ladderFail c u) := by
  unfold ladderFail
  split
  · exact h
  · exact .ite (sectorFinal_within (freeCtx_within h)) (deliverZero_within
      (tallyDev_within (count_within (freeCtx_within h) rfl) rfl))

theorem issueRetry_within {c : Nat} {x : Ctx} {hd : Option Nat} {avoid : List Nat} {ofs : ℤ}
    (h : Within faultReach s u) :
    Within faultReach s (issueRetry c x hd avoid ofs u) :=
  addItem_within h

theorem attempt_within {c k : Nat} {x : Ctx} (h : Within faultReach s u) : Within faultReach s (attempt c k x u) := by
  unfold attempt
  dsimp only
  split
  · exact .updDec (setCtx_within h rfl) rfl
  · exact .updDec (setCtx_within h rfl) rfl
  · exact issueRetry_within (setCtx_within h rfl)
  · exact issueRetry_within (setCtx_within h rfl)
  · exact issueRetry_within (setCtx_within h rfl)
  · exact sprParity_within (setCtx_within h rfl)

theorem ladderFrom_within {n c k : Nat} (h : Within faultReach s u) : Within faultReach s (ladderFrom n c k u) := by
  induction n generalizing k u with
  | zero => exact ladderFail_within h
  | succ n ih =>
    unfold ladderFrom
    split
    · exact h
    · have hnext {x : Ctx} : Within faultReach s (ladderFrom n c (k + 1) (setCtx c x u)) := ih (setCtx_within h rfl)
      exact .ite (ladderFail_within h) (.ite hnext (.ite hnext (.ite hnext (.ite hnext (attempt_within h)))))

theorem ladderStep_within {c : Nat} (h : Within faultReach s u) : Within faultReach s (ladderStep c u) := by
  unfold ladderStep
  split
  · exact h
  · exact ladderFrom_within h

/-! ### Machine/OpsEp.lean -/

theorem blkCopy_within {r : NsRec} {fromD fromM toD toM b : Nat} (h : Within faultReach s u) :
    Within faultReach s (blkCopy r fromD fromM toD toM b u) :=
  hwWrite_within (hwWrite_within h)

theorem mergeIn_within {k : Nat} (h : Within faultReach s u) : Within faultReach s (mergeIn k u) := by
  unfold mergeIn
  split
  · exact h
  · split
    · exact h
    · exact .unless (fun h1 => upTo_within (fun _ _ hv => blkCopy_within hv) h1)
        (.ite h (upTo_within (fun _ _ hv => blkCopy_within hv) h))

theorem writeCommit_within {k : Nat} (h : Within faultReach s u) : Within faultReach s (writeCommit k u) := by
  unfold writeCommit
  split
  · exact h
  · split
    · exact h
    · exact
        have hfree : Within faultReach s _ := .ite (chkRelease_within h rfl) h
        have himage : Within faultReach s _ := piInsert_within (mergeIn_within (xferLook_within hfree))
        have hend : Within faultReach s _ :=
          cmdEnd_within (.unless (fun h => tally_within (tally_within (tally_within h rfl) rfl) rfl)
            (.updDeck himage rfl)) rfl
        .ite h (.ite (cmdEnd_within hfree rfl) (.ite (setCmd_within h rfl) (.ite (cmdEndAt_within himage rfl)
          (sqAdvance_within (.ite (orphan_within hend rfl) (orphanClear_within hend))))))

theorem orderGo_within {f q : Nat} (h : Within faultReach s u) : Within faultReach s (orderGo f q u) :=
  each_within (fun _ _ hv => .ite (writeCommit_within hv) hv) (sqAdvance_within h)

/-! ### Machine/Parity.lean -/

theorem passFailed_within {p : Pass} {st : Nat} (h : Within faultReach s u) :
    Within faultReach s (passFailed p st u) := by
  unfold passFailed
  split
  · split
    · exact opEnd_within (setPass_within h)
    · exact setPass_within h
  · exact stagingLost_within h
  · exact cruiseLeave_within (setPass_within h)
  · exact salvHalt_within (report_within (dropPass_within h))

/-! ### Machine/OpsSched.lean -/

theorem replanSector_within {x : Item} {psa : Nat} (h : Within faultReach s u) :
    Within faultReach s (replanSector x psa u) := by
  unfold replanSector
  split
  · split
    · exact ladderStep_within (setCtx_within h rfl)
    · exact h
  · refine .ite ?_ ?_
    · split
      · exact h
      · exact setRead_within h
    · split
      · exact h
      · split
        · exact h
        · exact startRead_within (setOp_within h)

theorem replanRead_within {x : Item} (h : Within faultReach s u) : Within faultReach s (replanRead x u) :=
  .ite h (each_within (fun _ _ hv => each_within (fun _ _ hv => replanSector_within hv) hv)
    (each_within (fun _ _ hv => addItem_within hv) (dropItem_within h)))

theorem replanRetry_within {x : Item} (h : Within faultReach s u) : Within faultReach s (replanRetry x u) := by
  unfold replanRetry
  split
  · exact h
  · exact .ite h (each_within (fun _ _ hv => replanSector_within hv) (dropItem_within h))

theorem replanPass_within {x : Item} (h : Within faultReach s u) : Within faultReach s (replanPass x u) := by
  unfold replanPass
  split
  · exact h
  · exact .ite h (.ite (passFailed_within (passReport_within (dropItem_within h)))
      (passIssue_within (dropItem_within h)))

theorem replan_within (h : Within faultReach s u) : Within faultReach s (replan u) := by
  refine each_within (fun _ _ hv => ?_) h
  refine .ite hv ?_
  refine .ite (replanPass_within hv) ?_
  split
  · exact replanRead_within hv
  · exact replanRetry_within (replanRead_within hv)

/-! ### Machine/OpsCpr.lean -/

theorem nandProgram_within {row : Nat} {b : List Byte} (h : Within faultReach s u) :
    Within faultReach s (nandProgram row b u) :=
  emit_within (.updCpr h rfl) rfl

/-! ### Machine/Dump.lean -/

theorem nandSpoil_within {row : Nat} (h : Within faultReach s u) : Within faultReach s (nandSpoil row u) :=
  .updCpr h rfl

theorem setDump_within {d : Option DumpRun} (h : Within faultReach s u) : Within faultReach s (setDump d u) :=
  .updCpr h rfl

theorem dumpIdle_within (h : Within faultReach s u) : Within faultReach s (dumpIdle u) :=
  .updCpr (put_within (put_within (setDump_within h) rfl) rfl) rfl

theorem dumpFail_within (h : Within faultReach s u) : Within faultReach s (dumpFail u) :=
  put_within (dumpIdle_within h) rfl

theorem dumpLook_within {p : Nat} {ecc : List Ecc} (h : Within faultReach s u) : Within faultReach s (dumpLook p ecc u) :=
  .ite h (eccReads_within h)

/-! ### Machine/Vendor.lean -/

theorem rfencePut_within {n f a b : Nat} (h : Within faultReach s u) : Within faultReach s (rfencePut n f a b u) :=
  mapChange_within (put_within (put_within (put_within (put_within h rfl) rfl) rfl) rfl)

theorem mapRefuse_within {x : Cmd} {st : Nat} (h : Within faultReach s u) : Within faultReach s (mapRefuse x st u) :=
  admEnd_within h rfl

end

end Sys2Proof.Proofs
end

section
/-! PROOFS. The commands that stay in their unit (O25). -/
namespace Sys2Proof.Proofs
open Sys2Proof Sys2Proof.Machine Sys2Proof.Laws

section
variable {s : State}

theorem execWkillRelease_within {arm : Fin 4} :
    AnswersWithin [.regs, .out, .links, .lanes, .wops, .heads] s (execWkillRelease arm s) :=
  .next (.ite (.refl _) (wantSend_within (put_within (.refl _) rfl) rfl))

/-- With the fabric domain on there is no STANDBY to end (R530). -/
theorem standbyWake_of_on (hon : fabOff s = false) : standbyWake s = s := by simp [standbyWake, hon]

/-- A TLP that arrives while the fabric domain is on at most brings the link out of L1 (R319). -/
theorem inbound_within (hon : fabOff s = false) (hA : fits [.regs] A = true) : Within A s (inbound s) := by
  unfold inbound
  rw [standbyWake_of_on hon]
  exact wakeLink_within (.refl s) hA

theorem execVfEnable_within {w : BusW} (hon : fabOff s = false) :
    AnswersWithin [.regs, .out, .cpr] s (execVfEnable w s) :=
  have hin : Within [.regs, .out, .cpr] s (inbound s) := inbound_within hon rfl
  .ite (.next (.refl _)) (.ite (.next (cfgWait_within hin rfl))
    (.next (.may (put_within · rfl) (busWrite_within hin rfl))))

theorem execLndFillGo_within {w : BusW} : AnswersWithin [.regs, .land, .landEra, .lnd] s (execLndFillGo w s) :=
  .next (.may (fun h1 => .updLnd (rowsLost_within (put_within h1 rfl) rfl) rfl) (busWrite_within (.refl _) rfl))

theorem execLyoloReset_within {m : Master} {w : BusW} : AnswersWithin [.cpr] s (execLyoloReset m w s) :=
  .next (.ite (.refl _) (lyoloReset_within (.refl _) rfl))

theorem execFastDecodeStart_within {k : Fin 128} : AnswersWithin [.dec] s (execFastDecodeStart k s) := by
  unfold execFastDecodeStart
  split
  · exact .next (.refl _)
  · refine .ite (.next (.refl _)) ?_
    split
    · exact .next (.refl _)
    · exact .next (setEng_within (engWake_within (setSlot_within (.refl _) rfl) rfl) rfl)

theorem execEngineWakeDone_within {e : Fin 18} : AnswersWithin [.dec] s (execEngineWakeDone e s) :=
  .next (.ite (surplusSleep_within (setEng_within (.refl _) rfl) rfl) (.refl _))

/-- With an engine unfenced no waiting attempt fails (R169). -/
theorem drFail_of_unfenced (hon : drFenced s = false) : drFail s = s := by simp [drFail, hon]

theorem execRecoveryJobStart_within (hon : drFenced s = false) : AnswersWithin [.dec] s (execRecoveryJobStart s) := by
  unfold execRecoveryJobStart
  split
  · exact .next (.refl _)
  · refine .ite (.next (by rw [drFail_of_unfenced hon]; exact .refl _)) ?_
    split
    · exact .next (setEng_within (.refl _) rfl)
    · refine .next ?_
      split
      · exact engWake_within (.refl _) rfl
      · exact .refl _

theorem execLadderTmax_within {c : Fin 32} : AnswersWithin [.dec] s (execLadderTmax c s) := by
  refine .next ?_
  split
  · exact .refl _
  · exact .ite (.refl _) (setCtx_within (.refl _) rfl)

theorem execEngineSleep_within {e : Fin 18} : AnswersWithin [.dec] s (execEngineSleep e s) :=
  .next (.ite (setEng_within (.refl _) rfl) (.refl _))

theorem execFlrReady_within {f : Fin 64} : AnswersWithin [.deck] s (execFlrReady f s) :=
  .next (setFn_within (.refl _) rfl)

theorem execChokerEntryTake_within : AnswersWithin [.deck] s (execChokerEntryTake s) := by
  unfold execChokerEntryTake
  split
  · exact .next (.refl _)
  · exact .next (chkEnter_within (setCmd_within (.refl _) rfl) rfl)

theorem execCreateIoSq_within {slot : Fin 4096} : AnswersWithin [.deck] s (execCreateIoSq slot s) := by
  refine .next ?_
  split
  · exact .refl _
  · exact .ite (admEnd_within (.refl _) rfl) (.ite (admEnd_within (.refl _) rfl)
      (.ite (admEnd_within (.refl _) rfl) (.ite (admEnd_within (.refl _) rfl)
      (.ite (admEnd_within (.refl _) rfl) (admEnd_within (setSq_within (.refl _) rfl) rfl)))))

theorem execCreateIoCq_within {slot : Fin 4096} : AnswersWithin [.deck] s (execCreateIoCq slot s) := by
  refine .next ?_
  split
  · exact .refl _
  · exact .ite (admEnd_within (.refl _) rfl) (.ite (admEnd_within (.refl _) rfl)
      (.ite (admEnd_within (.refl _) rfl) (.ite (admEnd_within (.refl _) rfl)
      (.ite (admEnd_within (.refl _) rfl) (admEnd_within (setCq_within (.refl _) rfl) rfl)))))

theorem execDeleteIoCq_within {slot : Fin 4096} : AnswersWithin [.regs, .out, .deck, .cpr] s (execDeleteIoCq slot s) := by
  refine .next ?_
  split
  · exact .refl _
  · extract_lets
    split
    · exact admEnd_within (.refl _) rfl
    · refine .ite (admEnd_within (.refl _) rfl) ?_
      refine .ite (admEnd_within (.refl _) rfl) ?_
      refine admEnd_within ?_ rfl
      refine .may (intxUpdate_within · rfl) ?_
      refine setFn_within ?_ rfl
      refine each_within (fun _ _ hv => ?_) (.refl _)
      split
      · refine dropCmd_within (chkRelease_within ?_ rfl) rfl
        split
        · exact .ite (orphan_within hv rfl) hv
        · exact hv
      · exact hv

theorem execSetFeatures_within {slot : Fin 4096} : AnswersWithin [.deck] s (execSetFeatures slot s) := by
  refine .next ?_
  split
  · exact .refl _
  · extract_lets
    split
    · exact admEnd_within (.refl _) rfl
    · exact .ite (admEnd_within (.refl _) rfl) (.ite (admEnd_within (.refl _) rfl)
        (.ite (.ite (admEnd_within (setFn_within (.refl _) rfl) rfl) (admEnd_within (.refl _) rfl))
        (.ite (admEnd_within (.refl _) rfl) (.ite (.ite (admEnd_within (.refl _) rfl)
        (.ite (admEnd_within (.refl _) rfl) (admEnd_within (setFn_within (.refl _) rfl) rfl)))
        (.ite (.ite (admEnd_within (.refl _) rfl) (admEnd_within (setFn_within (.refl _) rfl) rfl))
        (.ite (.ite (admEnd_within (.refl _) rfl) (admEnd_within (setFn_within (.refl _) rfl) rfl))
        (admEnd_within (setFn_within (.refl _) rfl) rfl)))))))

theorem execGetFeatures_within {slot : Fin 4096} : AnswersWithin [.deck] s (execGetFeatures slot s) := by
  refine .next ?_
  split
  · exact .refl _
  · exact .ite (admEnd_within (.refl _) rfl) (admEnd_within (.refl _) rfl)

theorem execAsyncEventRequest_within {slot : Fin 4096} : AnswersWithin [.deck] s (execAsyncEventRequest slot s) := by
  refine .next ?_
  split
  · exact .refl _
  · extract_lets
    split
    · exact admEnd_within (setFn_within (.refl _) rfl) rfl
    · exact .ite (admEnd_within (.refl _) rfl) (setCmd_within (setFn_within (.refl _) rfl) rfl)

theorem execNsAttach_within {slot : Fin 4096} : AnswersWithin [.deck] s (execNsAttach slot s) := by
  refine .next ?_
  split
  · exact .refl _
  · refine .ite (.refl _) ?_
    split
    · exact .ite (admEnd_within (.refl _) rfl) (.ite (admEnd_within (.refl _) rfl)
        (admEnd_within (nsNotice_within (setNs_within (.refl _) rfl) rfl) rfl))
    · exact admEnd_within (.refl _) rfl
    · exact admEnd_within (.refl _) rfl

theorem execNsDetach_within {slot : Fin 4096} : AnswersWithin [.deck] s (execNsDetach slot s) := by
  refine .next ?_
  split
  · exact .refl _
  · refine .ite (.refl _) ?_
    split
    · exact .ite (admEnd_within (.refl _) rfl) (admEnd_within (nsNotice_within (setNs_within (.refl _) rfl) rfl) rfl)
    · exact admEnd_within (.refl _) rfl
    · exact admEnd_within (.refl _) rfl

theorem execVmSecondaryAssign_within {slot : Fin 4096} : AnswersWithin [.deck] s (execVmSecondaryAssign slot s) := by
  refine .next ?_
  split
  · exact .refl _
  · split
    · exact admEnd_within (.refl _) rfl
    · exact .ite (admEnd_within (.refl _) rfl) (.ite (.ite (admEnd_within (.refl _) rfl)
        (admEnd_within (setFn_within (.refl _) rfl) rfl)) (.ite (.ite (admEnd_within (.refl _) rfl)
        (admEnd_within (setFn_within (.refl _) rfl) rfl)) (.ite (.ite (admEnd_within (.refl _) rfl)
        (admEnd_within (setFn_within (.refl _) rfl) rfl)) (admEnd_within (.refl _) rfl))))

theorem execVmPrimaryFlex_within {slot : Fin 4096} : AnswersWithin [.deck] s (execVmPrimaryFlex slot s) := by
  refine .next ?_
  split
  · exact .refl _
  · exact admEnd_within (.refl _) rfl

theorem execBudgetQuery_within {slot : Fin 4096} : AnswersWithin [.deck] s (execBudgetQuery slot s) := by
  refine .next ?_
  split
  · exact .refl _
  · exact admEnd_within (.refl _) rfl

theorem execResyncFound_within {n : Fin 64} {decs : List Bool} : AnswersWithin [.lanes] s (execResyncFound n decs s) := by
  refine .next ?_
  split
  · exact .ite (.refl _) (setLane_within (.refl _) rfl)
  · exact .refl _

theorem execMctpGetEndpointId_within {h' : Byte} : AnswersWithin [.out] s (execMctpGetEndpointId h' s) :=
  .next (mctpSend_within (.refl _) rfl)

theorem execMctpGetVersionSupport_within {h' ty : Byte} : AnswersWithin [.out] s (execMctpGetVersionSupport h' ty s) :=
  .next (.ite (mctpSend_within (.refl _) rfl) (mctpSend_within (.refl _) rfl))

theorem execMctpGetMessageTypeSupport_within {h' : Byte} : AnswersWithin [.out] s (execMctpGetMessageTypeSupport h' s) :=
  .next (mctpSend_within (.refl _) rfl)

theorem execReadNvmeMiDataStructure_within {h' : Byte} {ty port : BitVec 8} {ctl : BitVec 16} :
    AnswersWithin [.out] s (execReadNvmeMiDataStructure h' ty port ctl s) := by
  refine .next ?_
  refine .ite (miData_within (.refl _) rfl) ?_
  refine .ite (.ite (miData_within (.refl _) rfl) (miSend_within (.refl _) rfl)) ?_
  refine .ite (miData_within (.refl _) rfl) ?_
  refine .ite ?_ (miSend_within (.refl _) rfl)
  split
  · exact miData_within (.refl _) rfl
  · exact miSend_within (.refl _) rfl

theorem execSubsystemHealthPoll_within {h' : Byte} : AnswersWithin [.out] s (execSubsystemHealthPoll h' s) :=
  .next (miData_within (.refl _) rfl)

theorem execControllerHealthPoll_within {h' : Byte} {first : BitVec 16} {max' : BitVec 8} :
    AnswersWithin [.out] s (execControllerHealthPoll h' first max' s) :=
  .next (miSend_within (.refl _) rfl)

theorem execConfigurationGet_within {h' : Byte} {id port : BitVec 8} :
    AnswersWithin [.out] s (execConfigurationGet h' id port s) :=
  .next (.ite (miSend_within (.refl _) rfl) (.ite (miSend_within (.refl _) rfl) (miSend_within (.refl _) rfl)))

theorem execVpdRead_within {h' : Byte} {off len : BitVec 16} : AnswersWithin [.out] s (execVpdRead h' off len s) :=
  .next (.ite (miSend_within (.refl _) rfl) (miData_within (.refl _) rfl))

theorem execMiUnsupported_within {h' : Byte} : AnswersWithin [.out] s (execMiUnsupported h' s) :=
  .next (miSend_within (.refl _) rfl)

theorem execYrdDoorbell_within {n : Fin 32} : AnswersWithin [.ychs] s (execYrdDoorbell n s) :=
  .next (setYch_within (.refl _) rfl)

theorem execUnloadPhaseEnd_within {arm' : Fin 4} : AnswersWithin [.regs, .arms] s (execUnloadPhaseEnd arm' s) :=
  .next (.ite (setVcm_within (setArm_within (.refl _) rfl) rfl) (.refl _))

theorem execCprRetractRel_within {w : BusW} : AnswersWithin [.regs, .arms] s (execCprRetractRel w s) :=
  .next (.ite (.refl _) (upTo_within (fun _ _ hv => .ite (setArm_within hv rfl) (.ite (setVcm_within hv rfl) hv))
    (put_within (put_within (.refl _) rfl) rfl)))

theorem execBlazeWriteStart_within : AnswersWithin [.regs, .blz] s (execBlazeWriteStart s) := by
  refine .next ?_
  refine .ite (.refl _) ?_
  split
  · exact put_within (.updBlz (.refl _) rfl) rfl
  · exact .updBlz (.refl _) rfl

theorem execPerstDeassert_within (hon : fabOff s = false) :
    AnswersWithin [.regs, .deck, .cpr] s (execPerstDeassert s) := by
  unfold execPerstDeassert
  rw [standbyWake_of_on hon]
  exact .ite (.next (aonExit_within (.refl _) rfl))
    (.next (.may (put_within · rfl) (setFn_within (.updCpr (.refl _) rfl) rfl)))

theorem execLinkTrained_within {speed width : Fin 8} {flit : Bool} :
    AnswersWithin [.regs, .free, .cpr] s (execLinkTrained speed width flit s) :=
  .ite (.next (.refl _)) (.ite (.next (wr_within (takeFree_within (.refl _) rfl) rfl))
    (.next (.updCpr (put_within (put_within (put_within (put_within (.refl _) rfl) rfl) rfl) rfl) rfl)))

theorem execAonSleepExit_within : AnswersWithin [.regs, .cpr] s (execAonSleepExit s) :=
  .next (.ite (aonExit_within (.refl _) rfl) (.refl _))

theorem execWarmReset_within {w : BusW} : AnswersWithin [.regs, .cpr] s (execWarmReset w s) :=
  .next (.ite (warmReset_within (.refl _) rfl) (.refl _))

theorem execSyncFound_within {n : Fin 64} {bits : List BitIn} :
    AnswersWithin [.regs, .lanes, .dec] s (execSyncFound n bits s) := by
  refine .ite (.next (.refl _)) ?_
  refine .next ?_
  split
  · exact takeSlot_within (chanRegs_within (setLane_within (.refl _) rfl) rfl) rfl
  · exact .updDec (setLane_within (chanRegs_within (setLane_within (.refl _) rfl) rfl) rfl) rfl

theorem execSlotGrant_within : AnswersWithin [.lanes, .dec] s (execSlotGrant s) := by
  refine .next ?_
  split
  · exact takeSlot_within (.updDec (.refl _) rfl) rfl
  · exact .refl _

theorem execDecFenceWrite_within {w : BusW} (hon : drFenced (fenceChange s (busWrite R.DEC_FENCE 0 0 w s)) = false) :
    AnswersWithin [.regs, .dec] s (execDecFenceWrite w s) :=
  .next (by rw [drFail_of_unfenced hon]; exact fenceChange_within (busWrite_within (.refl _) rfl) rfl)

theorem execDecBistStart_within {w : BusW} : AnswersWithin [.regs, .dec] s (execDecBistStart w s) :=
  .next (.may (fun h1 => put_within (.updDec h1 rfl) rfl) (busWrite_within (.refl _) rfl))

theorem execBmeClear_within {f : Fin 64} (hon : fabOff s = false) :
    AnswersWithin [.regs, .out, .deck, .cpr] s (execBmeClear f s) :=
  have hin : Within [.regs, .out, .deck, .cpr] s (inbound s) := inbound_within hon rfl
  .ite (.next (.refl _))
    (.next (.ite (cfgWait_within hin rfl) (.may (fun h => stallStart_within (put_within h rfl) rfl) hin)))

theorem execPowerStateD3hot_within {f : Fin 64} (hon : fabOff s = false) :
    AnswersWithin [.regs, .out, .deck, .cpr] s (execPowerStateD3hot f s) :=
  have hin : Within [.regs, .out, .deck, .cpr] s (inbound s) := inbound_within hon rfl
  .ite (.next (.refl _)) (.ite (.next (cfgWait_within hin rfl))
    (.next (restLink_within (.may (stallStart_within · rfl) (put_within hin rfl)) rfl)))

theorem execDeckIoEn_within {w : BusW} : AnswersWithin [.regs, .deck] s (execDeckIoEn w s) :=
  .next (.ite (each_within (fun _ _ hv => .ite (setCmd_within hv rfl) hv)
    (put_within (busWrite_within (.refl _) rfl) rfl)) (.ite (put_within (busWrite_within (.refl _) rfl) rfl)
    (busWrite_within (.refl _) rfl)))

theorem execChkPortGo_within {c : Fin 4} {w : BusW} : AnswersWithin [.regs, .deck] s (execChkPortGo c w s) := by
  refine .ite (.next (busWrite_within (.refl _) rfl)) ?_
  refine .ite (.next (put_within (busWrite_within (.refl _) rfl) rfl)) ?_
  split
  · exact .next (busWrite_within (.refl _) rfl)
  · exact .next (put_within (put_within (put_within (put_within (put_within
      (chkEnter_within (busWrite_within (.refl _) rfl) rfl) rfl) rfl) rfl) rfl) rfl)

theorem execChkPortRel_within {c : Fin 4} {w : BusW} : AnswersWithin [.regs, .deck] s (execChkPortRel c w s) :=
  .next (.may (fun h1 => put_within (put_within (put_within (chkRelease_within h1 rfl) rfl) rfl) rfl)
    (busWrite_within (.refl _) rfl))

theorem execVmSecondaryOnline_within {slot : Fin 4096} :
    AnswersWithin [.regs, .deck] s (execVmSecondaryOnline slot s) := by
  refine .next ?_
  split
  · exact .refl _
  · split
    · exact admEnd_within (.refl _) rfl
    · exact .ite (admEnd_within (.refl _) rfl) (admEnd_within (.may
        (fun h1 => readyUpdate_within (.ite (adminQueues_within h1 rfl) h1) rfl)
        (put_within (setFn_within (.refl _) rfl) rfl)) rfl)

theorem execTxnQuery_within {slot : Option (Fin 4096)} {w : BusW} :
    AnswersWithin [.regs, .deck] s (execTxnQuery slot w s) := by
  have hask : Within [.regs, .deck] s (txnAsk slot w 4 s).2 := txnAsk_within (.refl s) rfl
  unfold execTxnQuery
  refine .next ?_
  generalize txnAsk slot w 4 s = r at hask
  obtain ⟨o, t⟩ := r
  split
  next he => cases he; exact hask
  next he => cases he; exact txnEnd_within hask rfl
  next he => cases he; exact .ite (txnOther_within hask rfl) (admEnd_within hask rfl)

theorem execSetShares_within {slot : Fin 4096} : AnswersWithin [.regs, .deck] s (execSetShares slot s) := by
  refine .next ?_
  split
  · exact .refl _
  · exact .ite (.refl _) (.ite (admEnd_within (.refl _) rfl) (admEnd_within
      (upTo_within (fun _ _ hv => put_within hv rfl) (put_within (put_within
      (put_within (put_within (.ite (.refl _) (put_within (.refl _) rfl)) rfl) rfl) rfl) rfl)) rfl))

theorem execGeoLoad_within : AnswersWithin [.regs, .geoImg] s (execGeoLoad s) :=
  .next (.ite (.refl _) (.ite (put_within (.refl _) rfl) (.updGeoImg (put_within (.refl _) rfl) rfl)))

theorem execDiscUplinkIdle_within {arm : Fin 4} :
    AnswersWithin [.regs, .out, .links, .lanes, .wops, .heads] s (execDiscUplinkIdle arm s) :=
  .next (.ite (each_within (fun _ _ hv => sendFrame_within hv rfl) (setLink_within (.refl _) rfl)) (.refl _))

theorem execDeckAdminEn_within {w : BusW} : AnswersWithin [.regs, .locked] s (execDeckAdminEn w s) :=
  .next (.ite (upTo_within (fun _ _ hv => readyUpdate_within hv rfl)
    (bootCommit_within (put_within (busWrite_within (.refl _) rfl) rfl) rfl))
    (.ite (put_within (busWrite_within (.refl _) rfl) rfl) (busWrite_within (.refl _) rfl)))

theorem execCfgLock_within {w : BusW} : AnswersWithin [.regs, .locked] s (execCfgLock w s) :=
  .next (.ite (bootCommit_within (.refl _) rfl) (.refl _))

theorem execMctpSetEndpointId_within {h' : Byte} {op : BitVec 2} {eid : BitVec 8} :
    AnswersWithin [.out, .mgt] s (execMctpSetEndpointId h' op eid s) :=
  .next (.ite (.refl _) (.ite (mctpSend_within (.refl _) rfl) (mctpSend_within (.updMgt (.refl _) rfl) rfl)))

theorem execWdtKick_within {w : BusW} : AnswersWithin [.regs, .mgt] s (execWdtKick w s) :=
  .next (.may (fun h1 => .updMgt h1 rfl) (.may (put_within · rfl) (busWrite_within (.refl _) rfl)))

theorem execFuseBurn_within {w : BusW} : AnswersWithin [.regs, .mgt] s (execFuseBurn w s) :=
  .next (.unless (fun h1 => put_within (.updMgt h1 rfl) rfl) (busWrite_within (.refl _) rfl))

theorem execMsixUnmask_within {f : Fin 64} {v : Option (Fin 2048)} (hon : fabOff s = false) (hmem : memEnabled
    (inbound s) f.val = true) : AnswersWithin [.regs, .out, .cpr] s (execMsixUnmask f v s) := by
  have hin : Within [.regs, .out, .cpr] s (inbound s) := inbound_within hon rfl
  unfold execMsixUnmask
  refine .ite (.next (.refl _)) (.next ?_)
  split
  · rw [if_neg (by simp [hmem])]
    exact .may (fun h => flushMsix_within (put2_within h rfl) rfl) hin
  · exact .ite (cfgWait_within hin rfl) (flushMsix_within (put_within hin rfl) rfl)

theorem execEventClaim_within {r : Fin 5} : AnswersWithin [.regs, .out] s (execEventClaim r s) := by
  refine .next ?_
  split
  · exact emit_within (.refl _) rfl
  · exact emit_within (putFBit_within (.refl _) rfl) rfl

theorem execSpmAtSpeed_within : AnswersWithin [.regs, .sched] s (execSpmAtSpeed s) :=
  .next (.ite (releaseWrites_within (put_within (.refl _) rfl) rfl) (.refl _))

theorem execItemUrgent_within : AnswersWithin [.regs, .dec, .sched] s (execItemUrgent s) := by
  unfold execItemUrgent
  split
  · exact .next (.refl _)
  · exact .ite (.next (.refl _)) (.next (urgentCtx_within (bindItem_within (count_within (.refl _) rfl) rfl) rfl))

theorem execGovDerateUpdate_within : AnswersWithin [.regs, .dec, .sched] s (execGovDerateUpdate s) :=
  .next (beffNow_within (put_within (put_within (.refl _) rfl) rfl) rfl)

theorem execTallyHandshakeReq_within : AnswersWithin [.regs, .sched] s (execTallyHandshakeReq s) :=
  .ite (.next (count_within (.refl _) rfl)) (.ite (.next (.refl _)) (.next (put_within (.updSched (.refl _) rfl) rfl)))

theorem execTallyHandshakeApply_within : AnswersWithin [.regs, .sched] s (execTallyHandshakeApply s) :=
  .ite (.next (.refl _)) (.next (put_within (.updSched (each_within
    (fun _ _ hv => .ite (tally_within hv rfl) (tallyDev_within hv rfl)) (.refl _)) rfl) rfl))

theorem execBlockLate_within {n : Fin 64} : AnswersWithin [.regs, .wops, .heads] s (execBlockLate n s) := by
  refine .next ?_
  split
  · exact .refl _
  · split
    · exact .refl _
    · exact .ite (.refl _) (.ite (setHeadWr_within (.refl _) rfl) (.ite (.refl _) (cutWrite_within (.refl _) rfl)))

theorem execHeatHold_within {arm : Fin 4} : AnswersWithin [.regs, .wops, .heads] s (execHeatHold arm s) := by
  refine .next ?_
  split
  · exact .refl _
  · exact .ite (.refl _) (.ite (setWop_within (.refl _) rfl) (cutWrite_within (.refl _) rfl))

theorem execWriteGateOpen_within {n : Fin 64} {lead : Nat} :
    AnswersWithin [.regs, .links, .lanes, .syns, .wops, .heads] s (execWriteGateOpen n lead s) := by
  unfold execWriteGateOpen
  extract_lets
  split
  · exact .next (.refl _)
  · split
    · exact .next (.refl _)
    · exact .ite (.next (.refl _)) (.ite (.next (synForOp_within (.refl _) rfl))
        (.ite (.next (cutWrite_within (.refl _) rfl)) (.ite (.next (.refl _))
        (.next (put_within (put_within (setWop_within (.refl _) rfl) rfl) rfl)))))

theorem execDumpPageDone_within {ok : Bool} {ecc : List Ecc} :
    AnswersWithin faultReach s (execDumpPageDone ok ecc s) := by
  refine .next ?_
  split
  · exact .refl _
  · refine .ite (.refl _) ?_
    split
    · exact dumpFail_within (.refl _)
    · refine .ite (setDump_within (put_within (nandProgram_within (dumpLook_within (.refl _))) rfl)) ?_
      extract_lets
      split
      · exact dumpFail_within (nandSpoil_within (dumpLook_within (.refl _)))
      · exact .ite (dumpFail_within (nandSpoil_within (dumpLook_within (.refl _))))
          (setDump_within (put_within (nandSpoil_within (dumpLook_within (.refl _))) rfl))

theorem execIntModeChange_within {f : Fin 64} {msix msi intxOff : Bool} (hon : fabOff s = false) :
    AnswersWithin [.regs, .out, .deck, .cpr] s (execIntModeChange f msix msi intxOff s) :=
  have hin : Within [.regs, .out, .deck, .cpr] s (inbound s) := inbound_within hon rfl
  have hset : Within [.regs, .out, .deck, .cpr] s _ :=
    .may (fun h => put_within (put_within h rfl) rfl) (put_within hin rfl)
  .ite (.next (.refl _)) (.ite (.next (cfgWait_within hin rfl)) (.ite (.next (.may (intxUpdate_within · rfl) hset))
    (.next (.may (fun h => intxUpdate_within (put_within (.updDeck h rfl) rfl) rfl)
      (upTo_within (fun _ _ hv => put2_within hv rfl) hset)))))

theorem execSqEntryFetched_within {f : Fin 64} {q : Fin 65} :
    AnswersWithin [.regs, .out, .deck, .cpr] s (execSqEntryFetched f q s) := by
  unfold execSqEntryFetched
  split
  · split
    · exact .next (restLink_within (fetchAfter_within (setSq_within (.updDeck (.refl _) rfl) rfl) rfl) rfl)
    · exact .next (.refl _)

theorem execGetLogPage_within {slot : Fin 4096} : AnswersWithin [.regs, .out, .deck, .cpr] s (execGetLogPage slot s) := by
  refine .next ?_
  split
  · exact .refl _
  · refine .ite (.refl _) ?_
    split
    · exact admEnd_within (.refl _) rfl
    · exact .ite (admEnd_within (.refl _) rfl) (admSend_within (.ite (.refl _) (pageRead_within (.refl _) rfl)) rfl)

theorem execIdentify_within {slot : Fin 4096} : AnswersWithin [.regs, .out, .deck, .cpr] s (execIdentify slot s) := by
  refine .next ?_
  split
  · exact .refl _
  · refine .ite (.refl _) ?_
    split
    · exact .ite (admSend_within (.refl _) rfl) (.ite (admEnd_within (.refl _) rfl) (admSend_within (.refl _) rfl))
    · exact admSend_within (.refl _) rfl
    · exact admSend_within (.refl _) rfl
    · exact .ite (admEnd_within (.refl _) rfl) (admSend_within (.refl _) rfl)
    · exact admSend_within (.refl _) rfl
    · exact .ite (admEnd_within (.refl _) rfl) (admSend_within (.refl _) rfl)
    · exact .ite (admEnd_within (.refl _) rfl) (admSend_within (.refl _) rfl)
    · exact admSend_within (.refl _) rfl
    · exact .ite (admSend_within (.refl _) rfl) (admEnd_within (.refl _) rfl)
    · exact .ite (admSend_within (.refl _) rfl) (admEnd_within (.refl _) rfl)
    · exact admEnd_within (.refl _) rfl

theorem execTallyRead_within {slot : Fin 4096} : AnswersWithin [.regs, .out, .deck, .cpr] s (execTallyRead slot s) := by
  refine .next ?_
  split
  · exact .refl _
  · exact .ite (.refl _) (.ite (admEnd_within (.refl _) rfl) (.ite (admEnd_within (.refl _) rfl)
      (admSend_within (.refl _) rfl)))

theorem execBlazeRead_within {slot : Fin 4096} : AnswersWithin [.regs, .out, .deck, .cpr] s (execBlazeRead slot s) := by
  refine .next ?_
  split
  · exact .refl _
  · exact .ite (.refl _) (admSend_within (.refl _) rfl)

theorem execSalvageStatus_within {slot : Fin 4096} :
    AnswersWithin [.regs, .out, .deck, .cpr] s (execSalvageStatus slot s) := by
  refine .next ?_
  split
  · exact .refl _
  · exact salvEnd_within (.refl _) rfl

theorem execFenceQuery_within {slot : Fin 4096} : AnswersWithin [.regs, .out, .deck, .cpr] s (execFenceQuery slot s) := by
  refine .next ?_
  split
  · exact .refl _
  · exact mapEnd_within (.refl _) rfl

theorem execFenceRegion_within {slot : Fin 4096} : AnswersWithin faultReach s (execFenceRegion slot s) := by
  refine .next ?_
  split
  · exact .refl _
  · refine .ite (mapRefuse_within (.refl _)) ?_
    split
    · exact mapRefuse_within (.refl _)
    · exact mapEnd_within (replan_within (rfencePut_within (.refl _))) rfl

theorem execUnfenceRegion_within {slot : Fin 4096} {ok : Bool} :
    AnswersWithin faultReach s (execUnfenceRegion slot ok s) := by
  refine .next ?_
  split
  · exact .refl _
  · extract_lets
    split
    · exact mapRefuse_within (.refl _)
    · exact .ite (mapRefuse_within (.refl _)) (mapEnd_within (replan_within
        (mapChange_within (put_within (.refl _) rfl))) rfl)

theorem execSensorRead_within {slot : Fin 4096} : AnswersWithin [.regs, .out, .deck, .cpr] s (execSensorRead slot s) := by
  refine .next ?_
  split
  · exact .refl _
  · exact .ite (.refl _) (admSend_within (.refl _) rfl)

theorem execFlush_within {slot : Fin 4096} : AnswersWithin faultReach s (execFlush slot s) := by
  refine .next ?_
  split
  · exact .refl _
  · exact .ite (.refl _) (orderGo_within (cmdEnd_within (.refl _) rfl))

theorem execCoalesceTimeout_within {f : Fin 64} {v : Fin 2048} :
    AnswersWithin [.regs, .out, .deck, .cpr] s (execCoalesceTimeout f v s) := by
  refine .next ?_
  split
  · exact .refl _
  · exact .ite (.refl _) (.ite (unsigFire_within (.refl _) rfl) (setFn_within (.refl _) rfl))

theorem execFfenceInval_refuses {c : Fin 4} {m : Master} {w : BusW} (hm : m ≠ .cp c) :
    execFfenceInval c m w s = .next s := by
  simp [execFfenceInval, fence, hm]

end

/-- Settles O25: each command's clause is the footprint of its answer, put together from those of the operations its body
names. The conditions rule out the end of STANDBY (`standbyWake_of_on`), the fence of the whole pool
(`drFail_of_unfenced`) and the owner's write of a fence register (`execFfenceInval_refuses`). -/
theorem commandsThatStayInTheirUnit : Obligations.CommandsThatStayInTheirUnit := by
  refine ⟨fun _ _ => execWkillRelease_within, fun _ _ hon => execVfEnable_within hon, fun _ _ => execLndFillGo_within,
    fun _ _ _ => execLyoloReset_within, fun _ _ => execFastDecodeStart_within, fun _ _ => execEngineWakeDone_within,
    fun _ hon => execRecoveryJobStart_within hon, fun _ _ => execLadderTmax_within, fun _ _ => execEngineSleep_within,
    fun _ _ => execFlrReady_within, fun _ => execChokerEntryTake_within, fun _ _ => execCreateIoSq_within,
    fun _ _ => execCreateIoCq_within, fun _ _ => execDeleteIoCq_within, ?_⟩
  refine ⟨fun _ _ => execSetFeatures_within, fun _ _ => execGetFeatures_within,
    fun _ _ => execAsyncEventRequest_within, fun _ _ => execNsAttach_within, fun _ _ => execNsDetach_within,
    fun _ _ => execVmSecondaryAssign_within, fun _ _ => execVmPrimaryFlex_within, fun _ _ => execBudgetQuery_within,
    fun _ _ _ => execResyncFound_within, fun _ _ => execMctpGetEndpointId_within,
    fun _ _ _ => execMctpGetVersionSupport_within, fun _ _ => execMctpGetMessageTypeSupport_within,
    fun _ _ _ _ _ => execReadNvmeMiDataStructure_within, fun _ _ => execSubsystemHealthPoll_within, ?_⟩
  refine ⟨fun _ _ _ _ => execControllerHealthPoll_within, fun _ _ _ _ => execConfigurationGet_within,
    fun _ _ _ _ => execVpdRead_within, fun _ _ => execMiUnsupported_within, fun _ _ => execYrdDoorbell_within,
    fun _ _ => execUnloadPhaseEnd_within, fun _ _ => execCprRetractRel_within, fun _ => execBlazeWriteStart_within,
    fun _ hon => execPerstDeassert_within hon, fun _ _ _ _ => execLinkTrained_within,
    fun _ => execAonSleepExit_within, fun _ _ => execWarmReset_within, fun _ _ _ => execSyncFound_within,
    fun _ => execSlotGrant_within, ?_⟩
  refine ⟨fun _ _ hon => execDecFenceWrite_within hon, fun _ _ => execDecBistStart_within,
    fun _ _ hon => execBmeClear_within hon, fun _ _ hon => execPowerStateD3hot_within hon,
    fun _ _ => execDeckIoEn_within, fun _ _ _ => execChkPortGo_within, fun _ _ _ => execChkPortRel_within,
    fun _ _ => execVmSecondaryOnline_within, fun _ _ _ => execTxnQuery_within, fun _ _ => execSetShares_within,
    fun _ => execGeoLoad_within, fun _ _ => execDiscUplinkIdle_within, fun _ _ _ _ hm => execFfenceInval_refuses hm,
    fun _ _ => execDeckAdminEn_within, ?_⟩
  refine ⟨fun _ _ => execCfgLock_within, fun _ _ _ _ => execMctpSetEndpointId_within, fun _ _ => execWdtKick_within,
    fun _ _ => execFuseBurn_within, fun _ _ _ hon hmem => execMsixUnmask_within hon hmem,
    fun r s => execEventClaim_within (r := r) (s := s), fun _ => execSpmAtSpeed_within, fun _ => execItemUrgent_within,
    fun _ => execGovDerateUpdate_within, fun _ => execTallyHandshakeReq_within,
    fun _ => execTallyHandshakeApply_within, fun _ _ => execBlockLate_within, fun _ _ => execHeatHold_within,
    fun _ _ _ => execWriteGateOpen_within, ?_⟩
  exact ⟨fun _ _ _ => execDumpPageDone_within, fun _ _ _ _ _ hon => execIntModeChange_within hon,
    fun _ _ _ => execSqEntryFetched_within, fun _ _ => execGetLogPage_within, fun _ _ => execIdentify_within,
    fun _ _ => execTallyRead_within, fun _ _ => execBlazeRead_within, fun _ _ => execSalvageStatus_within,
    fun _ _ => execFenceQuery_within, fun _ _ => execFenceRegion_within, fun _ _ _ => execUnfenceRegion_within,
    fun _ _ => execSensorRead_within, fun _ _ => execFlush_within, fun _ _ _ => execCoalesceTimeout_within⟩

end Sys2Proof.Proofs
end

section
/-! PROOFS. The decoder pool (chapter 05): fast and recovery engines, their fence and self-test, and the end of the ladder. -/

namespace Sys2Proof.Proofs

open Sys2Proof Sys2Proof.Machine Sys2Proof.Laws

/-! ### The end of the ladder (R168, R170) -/

/-- Nothing beside STATUS reaches bits 63 to 56 of a result word, with each part within its field. -/
theorem bitsOf_resultWord_status {status lstep reads iter flips en hd lstat : Nat} {lad : Bool} (hstatus : status < 256)
    (hlstep : lstep < 16) (hen : en < 32) (hhd : hd < 64) (hlstat : lstat < 4096) :
    bitsOf (resultWord status lstep reads iter flips en hd lad lstat) 63 56 = status := by
  have hlad : lad.toNat ≤ 1 := Bool.toNat_le lad
  rw [bitsOf_eq, resultWord]
  omega

/-- STATUS of a sector that its ladder does not recover (R168). -/
def unrecoveredStatus (x : Ctx) : Nat := if x.skipLr then 4 else if x.skipTmax then 5 else 3

theorem unrecoveredStatus_lt (x : Ctx) : unrecoveredStatus x < 256 := by
  unfold unrecoveredStatus
  split
  · decide
  · split <;> decide

theorem ladderFail_unrecovered {c : Nat} {x : Ctx} {s : State} (hctx : ctx s c = some x) (hkept : x.abort = false) :
    ladderFail c s = deliverZero x.it x.key.psa
      (resultWord (unrecoveredStatus x) x.lstep x.reads x.iters 0 x.eng (x.last.getD 0) true x.lstat)
      (tallyDev 19 1 (count F.DEC_CNT_UNC_COUNT 0 (freeCtx c s))) := by
  simp only [ladderFail, hctx, hkept, unrecoveredStatus, Bool.false_eq_true, if_false]

/-- Settles O21: the result word of `ladderFail_unrecovered`, read at STATUS (`bitsOf_resultWord_status`). -/
theorem ladderFinalStatus : Obligations.LadderFinalStatus :=
  fun _ x _ hctx hkept hlstep hen hhd hlstat =>
    ⟨_, bitsOf_resultWord_status (unrecoveredStatus_lt x) hlstep hen hhd hlstat, ladderFail_unrecovered hctx hkept⟩

/-! ### Fast engines (R149, R151, R154, R155, R158, R172) -/

section
variable {k : Fin 128} {sl : Slot} {s : State}

theorem execFastDecodeStart_assigns {e : Nat} {u : State} (hfirst : (readySlots s).head? = some (k.val, sl))
    (hengine : (freeFast s).or (sleepFast s) = some e)
    (hu : u = engWake e (setSlot k { sl with engine := some e, cap := nextCap s } s)) :
    execFastDecodeStart k s = .next (setEng e { eng u e with slots := (eng u e).slots ++ [k.val] } u) := by
  subst hu
  simp only [execFastDecodeStart, hfirst, hengine, ne_eq, not_true_eq_false, if_false]

theorem execFastDecodeStart_stays (hfirst : (readySlots s).head? = some (k.val, sl)) (hfree : freeFast s = none)
    (hsleep : sleepFast s = none) : execFastDecodeStart k s = .next s := by
  simp only [execFastDecodeStart, hfirst, hfree, hsleep, Option.or_none, ite_self]

end

theorem execEngineWakeDone_wakes {e : Fin 18} {s : State} (hwaking : (eng s e).waking = true) :
    execEngineWakeDone e s =
      .next (surplusSleep e (setEng e { eng s e with waking := false, awake := !engFenced s e } s)) := by
  simp only [execEngineWakeDone, hwaking, if_true]

theorem execEngineSleep_sleeps {e : Fin 18} {s : State} (hawake : (eng s e).awake = true) (hslots : (eng s e).slots = [])
    (hjob : (eng s e).job = none) : execEngineSleep e s = .next (setEng e { eng s e with awake := false } s) := by
  simp only [execEngineSleep, hawake, hslots, hjob, List.isEmpty_nil, Option.isNone_none, Bool.and_self, if_true]

/-! The end of the decode of slot `k`, at the front of awake engine `e`; `u` is the state once the engine has let it go. -/

section
variable {e : Fin 16} {k : Nat} {ks : List Nat} {sl : Slot} {s u : State}
  (hawake : (eng s e).awake = true) (hslots : (eng s e).slots = k :: ks)
  (hu : u = surplusSleep e (setEng e { eng s e with slots := ks } s)) (hslot : slot u k = some sl)
include hawake hslots hu hslot

theorem execFastDecodeEnd_bad :
    execFastDecodeEnd e .bad s = .next (nonMediaFail sl.it sl.key.psa sl.lane (bitsOf sl.res 63 56) sl.retry
      (releaseSlot k (slotEcc .bad u))) := by
  simp only [hawake] at hu
  simp only [execFastDecodeEnd, hawake, hslots, ← hu, hslot, if_true]

section
variable {d : Decoded} {v w : State} (hfirst : sl.retry = none) (hkept : sl.it.aborted = false) (hd : d = fastDecode u sl)
  (hw : w = if d.converged then v else count F.DEC_ERR_CAPPED 0 v)
include hfirst hkept hd hw

/-- The codeword's decode passes the sector check: it is counted, its slot freed and its block delivered. -/
theorem execFastDecodeEnd_delivers {blk : List Byte} {z : State} (hcheck : sectorCheck sl.key.psa d u = (some blk, v))
    (hz : z = releaseSlot k { w with dec := { w.dec with mse := bitsOf sl.res 31 16 } }) :
    execFastDecodeEnd e .ok s = .next (deliver sl.it sl.key.psa
      (resultWord 0 0 1 d.iters d.flips e sl.lane false (pastOf v sl.key (bitsOf sl.res 63 56)).lstat) blk
      (put F.DEC_CNT_OK_COUNT 0 (fld F.DEC_CNT_OK_COUNT 0 z + 1) z)) := by
  simp only [hawake] at hu
  subst hz
  simp only [execFastDecodeEnd, hawake, hslots, ← hu, hslot, ← hd, slotEcc, reduceCtorEq, if_true, if_false, hcheck, ← hw,
    hfirst, hkept, Bool.false_eq_true]

/-- The codeword's decode fails, or its block fails the sector check: the sector enters the ladder. -/
theorem execFastDecodeEnd_entersLadder (hcheck : sectorCheck sl.key.psa d u = (none, v)) :
    execFastDecodeEnd e .ok s = .next (ladderEnter sl.it sl.key.psa (some k) sl.lane
      { pastOf v sl.key (bitsOf sl.res 63 56) with iters := d.iters, eng := e } w) := by
  simp only [hawake] at hu
  simp only [execFastDecodeEnd, hawake, hslots, ← hu, hslot, ← hd, slotEcc, reduceCtorEq, if_true, if_false, hcheck, ← hw,
    hfirst, hkept, Bool.false_eq_true]

end
end

/-! ### The copy into a context (R149, R154, R158) -/

section
variable {k : Fin 128} {cn : Nat} {x : Ctx} {sl : Slot} {s : State}
  (hctx : s.dec.ctxs.find? (fun e => e.2.wait == .copy k.val) = some (cn, x)) (hslot : slot s k = some sl)
include hctx hslot

theorem execContextCopyDone_beginsLadder {q : Ecc} (hq : q ≠ .bad) :
    execContextCopyDone k q s =
      .next (ladderStep cn (setCtx cn { addRead sl.soft x with wait := .step } (slotEcc q (releaseSlot k s)))) := by
  simp only [execContextCopyDone, hctx, hslot, hq, if_false]

theorem execContextCopyDone_bad :
    execContextCopyDone k .bad s = .next (copyBad cn x sl.lane (slotEcc .bad (releaseSlot k s))) := by
  simp only [execContextCopyDone, hctx, hslot, if_true]

end

/-! ### Recovery engines and TMAX (R155, R161, R163, R167, R169, R172) -/

section
variable {cn : Nat} {j : JobKind} {l : List (Nat × JobKind)} {s : State}

theorem execRecoveryJobStart_assigns {e : Nat} (hjobs : waitingJobs s = (cn, j) :: l) (hon : drFenced s = false)
    (hfree : [16, 17].find? (fun e => (eng s e).awake && !engFenced s e && !engOver s e && (eng s e).job.isNone) = some e) :
    execRecoveryJobStart s = .next (setEng e { eng s e with job := some (cn, j) } s) := by
  simp only [execRecoveryJobStart, hjobs, hon, hfree, Bool.false_eq_true, if_false]

theorem execRecoveryJobStart_fails (hjobs : waitingJobs s = (cn, j) :: l) (hoff : drFenced s = true) :
    execRecoveryJobStart s = .next (drFail s) := by
  simp only [execRecoveryJobStart, hjobs, hoff, if_true]

/-! The end of the job of recovery engine 16 + `e`; `u` is the state once the engine has let it go, `t` the one with the
decode noted in its context. -/

section
variable {e : Fin 2} {x : Ctx} {u t v : State} {d : Decoded} (hjob : (eng s (16 + e)).job = some (cn, j))
  (hu : u = surplusSleep (16 + e) (setEng (16 + e) { eng s (16 + e) with job := none } s)) (hctx : ctx u cn = some x)
  (hd : d = jobDecode u x j) (ht : t = setCtx cn { x with iters := d.iters, eng := 16 + e, wait := .step } u)
include hjob hu hctx hd ht

theorem execRecoveryJobEnd_recovers {blk : List Byte} (hcheck : sectorCheck x.key.psa d t = (some blk, v)) :
    execRecoveryJobEnd e s = .next (ladderOk cn (16 + e) d blk v) := by
  subst ht hd hu
  simp only [execRecoveryJobEnd, hjob, hctx, hcheck]

theorem execRecoveryJobEnd_goesOn (hcheck : sectorCheck x.key.psa d t = (none, v)) :
    execRecoveryJobEnd e s = .next (ladderStep cn v) := by
  subst ht hd hu
  simp only [execRecoveryJobEnd, hjob, hctx, hcheck]

end
end

section
variable {c : Fin 32} {x : Ctx} {s : State} (hctx : ctx s c = some x)
include hctx

theorem execLadderTmax_marks (hset : fld F.DEC_LADDER_CTL_TMAX 0 s ≠ 0)
    (hpast : x.entered + 1000000 * fld F.DEC_LADDER_CTL_TMAX 0 s ≤ s.time) :
    execLadderTmax c s = .next (setCtx c { x with tmax := true } s) := by
  simp [execLadderTmax, hctx, hset, Nat.not_lt.2 hpast]

theorem execLadderTmax_early (hearly : s.time < x.entered + 1000000 * fld F.DEC_LADDER_CTL_TMAX 0 s) :
    execLadderTmax c s = .next s := by
  simp [execLadderTmax, hctx, hearly]

end

/-! ### The fence and the self-test (R169, R173, R174) -/

/-- The checkers of the engines' arrays are numbered on from the fast engines, 160 to 175, to the recovery engines, 176
and 177. -/
theorem execEngineParityError_reports (e : Fin 18) (s : State) :
    execEngineParityError e s = .next (drFail (fenceChange s (report (160 + e) none 9 0 0 0 s))) := by
  have hchecker : (if e.val < 16 then 160 + e.val else 176 + (e.val - 16)) = 160 + e.val := by
    split <;> omega
  simp only [execEngineParityError, hchecker]

theorem execDecBistStart_starts {w : BusW} {s u : State} {e : Nat} (hu : u = busWrite R.DEC_BIST 0 0 w s)
    (he : e = fld F.DEC_BIST_ENG 0 u) (hstart : wrote1 31 w = true) (hidle : u.dec.bist = none) (hengine : e < 18)
    (hfenced : engFenced u e = true) (hslots : (eng u e).slots = []) (hjob : (eng u e).job = none) :
    execDecBistStart w s = .next (put F.DEC_BIST_START 0 1 { u with dec := { u.dec with bist := some e } }) := by
  simp only [execDecBistStart, ← hu, ← he, hstart, hidle, hengine, hfenced, hslots, hjob, Option.isNone_none,
    List.isEmpty_nil, decide_true, Bool.and_self, if_true]

theorem execDecBistDone_ends {pass : Bool} {e : Nat} {s : State} (hbist : s.dec.bist = some e) :
    execDecBistDone pass s = .next (raiseEvent 135 (put F.DEC_BIST_PASS 0 pass.toNat (put F.DEC_BIST_DONE 0 1
      (put F.DEC_BIST_START 0 0 { s with dec := { s.dec with bist := none } })))) := by
  simp only [execDecBistDone, hbist]

/-- Settles O31: one lemma per event of the pool, for the case that the premises name; the end of a decode splits on what
the sector check gave. -/
theorem decoderPool : Obligations.DecoderPool := by
  refine ⟨fun _ _ _ _ hfirst hengine => execFastDecodeStart_assigns hfirst hengine rfl,
    fun _ _ _ hfirst hfree hsleep => execFastDecodeStart_stays hfirst hfree hsleep,
    fun _ _ hwaking => execEngineWakeDone_wakes hwaking,
    ?fastEnd,
    fun _ _ _ _ _ hawake hslots hslot => execFastDecodeEnd_bad hawake hslots rfl hslot,
    fun _ _ _ _ _ _ hctx hslot hq => execContextCopyDone_beginsLadder hctx hslot hq,
    fun _ _ _ _ _ hctx hslot => execContextCopyDone_bad hctx hslot,
    fun _ _ _ _ _ hjobs hon hfree => execRecoveryJobStart_assigns hjobs hon hfree,
    fun _ _ _ _ hjobs hoff => execRecoveryJobStart_fails hjobs hoff,
    ?jobEnd,
    fun _ _ _ hctx hset hpast => execLadderTmax_marks hctx hset hpast,
    fun _ _ hawake hslots hjob => execEngineSleep_sleeps hawake hslots hjob,
    fun _ _ => rfl,
    fun e s _ => execEngineParityError_reports e s,
    fun e s _ => execEngineParityError_reports e s,
    fun _ _ hstart hidle hengine hfenced hslots hjob =>
      execDecBistStart_starts rfl rfl hstart hidle hengine hfenced hslots hjob,
    fun _ _ _ hbist => execDecBistDone_ends hbist,
    fun _ _ _ hctx hearly => execLadderTmax_early hctx hearly⟩
  case fastEnd =>
    intro e k ks sl s hawake hslots u d hslot hfirst hkept
    split
    case h_1 blk v hcheck =>
      rw [hcheck]
      exact execFastDecodeEnd_delivers hawake hslots rfl hslot hfirst hkept rfl rfl hcheck rfl
    case h_2 v hcheck =>
      exact execFastDecodeEnd_entersLadder hawake hslots rfl hslot hfirst hkept rfl rfl hcheck
  case jobEnd =>
    intro e cn j x s hjob u hctx d
    split
    case h_1 blk v hcheck => exact execRecoveryJobEnd_recovers hjob rfl hctx rfl rfl hcheck
    case h_2 v hcheck => exact execRecoveryJobEnd_goesOn hjob rfl hctx rfl rfl hcheck

end Sys2Proof.Proofs
end

section
/-! PROOFS. The mechanics answer: the commands of the servo, the spindle, surface parity, salvage and cruise are ordinary. -/

namespace Sys2Proof.Proofs

open Sys2Proof Sys2Proof.Machine Sys2Proof.Laws

/-- Only the six commands that `Ordinary` leaves out may change the time, the fuses or the geometry. -/
theorem exec_kept_of_ordinary {c : Instr} (hc : Ordinary c) (s : State) : ∃ t, exec c s = .next t ∧ kept s t :=
  (exec_runs s c hc).kept

/-- Settles O2: each command named is ordinary, so `exec_kept_of_ordinary` answers for it. -/
theorem mechanicsCommandsComplete : Obligations.MechanicsCommandsComplete := by
  unfold Obligations.MechanicsCommandsComplete
  and_intros
  all_goals
    intros
    exact exec_kept_of_ordinary (by simp [Ordinary]) _

end Sys2Proof.Proofs
end

section
/-! PROOFS. The spindle (chapter 07): its requests, and the steps of a start and of a catch. -/

namespace Sys2Proof.Proofs

open Sys2Proof Sys2Proof.Machine Sys2Proof.Laws

/-! ### START, STOP and restart (R218, R219, R225, R226, R230, R232) -/

/-- Whether the rotor turns is a matter of CATCH_V and the voltages alone. -/
theorem turning_congr {s u : State} {v : List Abc} (h : fld F.SPM_VSNS_CATCH_V 0 u = fld F.SPM_VSNS_CATCH_V 0 s) :
    turning u v = turning s v := by
  unfold turning
  rw [h]

/-- START from STOPPED or COAST, before the motion of the rotor decides: LANDED tells whether an arm is landed (R225). -/
def startRequested (s : State) : State :=
  put F.SPM_STAT_LANDED 0 (anyLanded s).toNat { s with spm := { s.spm with locked := false, genPend := false } }

theorem turning_startRequested (s : State) (v : List Abc) : turning (startRequested s) v = turning s v :=
  turning_congr (fld_put_other _ _ (by decide))

section
variable {v : List Abc} {s : State}

theorem execSpmStart_catches (hst : spmSt s = 1 ∨ spmSt s = 10) (hturn : turning s v = true) :
    execSpmStart v s = .next (spmEnter 6 (gatesOff (startRequested s))) := by
  have hturn' := (turning_startRequested s v).trans hturn
  unfold startRequested at hturn' ⊢
  rcases hst with hstopped | hcoast
  · simp [execSpmStart, hstopped, hturn, hturn']
  · simp [execSpmStart, hcoast, hturn, hturn']

theorem execSpmStart_brake (hst : spmSt s = 8) : execSpmStart v s = .next (spmEnter 6 (gatesOff s)) := by
  simp only [execSpmStart, hst, if_true]

theorem execSpmStart_calibrates {u : State} (hst : spmSt s = 1 ∨ spmSt s = 10) (hturn : turning s v = false)
    (hstill : still s v = true)
    (hu : u = gatesOff (spmEnter (if anyLanded s then 2 else 3) (put F.SPM_STAT_ATTEMPT 0 0 (startRequested s)))) :
    execSpmStart v s = .next { u with spm := { u.spm with
      calibrating := true, align := alignAngle u 0, id := 0, iq := 0, idStep := 0 } } := by
  subst hu
  have hturn' := (turning_startRequested s v).trans hturn
  unfold startRequested at hturn' ⊢
  rcases hst with hstopped | hcoast
  · simp [execSpmStart, hstopped, hturn, hstill, hturn']
  · simp [execSpmStart, hcoast, hturn, hstill, hturn']

/-- Between the two thresholds START of a stopped rotor changes nothing (log entry 6). -/
theorem execSpmStart_between (hst : spmSt s = 1) (hturn : turning s v = false) (hstill : still s v = false) :
    execSpmStart v s = .next s := by
  simp [execSpmStart, hst, hturn, hstill]

end

section
variable {s : State}

theorem execSpmStop_brakes {u : State} (hrun : spmSt s = 7)
    (hclear : (List.range 4).all (fun a => mode s a == 0 || mode s a == 1 || mode s a == 9) = true)
    (hu : u = spmEnter 8 s) :
    execSpmStop s = .next { u with spm := { u.spm with iq := -(fld F.SPM_ILIM_IQ_BRAKE 0 u : Int), id := 0 } } := by
  subst hu
  simp only [execSpmStop, hclear, hrun, ne_eq, not_true_eq_false, if_true, if_false]

theorem execSpmStop_refuses
    (hout : (List.range 4).all (fun a => mode s a == 0 || mode s a == 1 || mode s a == 9) = false) :
    execSpmStop s = .next (put F.SPM_STAT_STOP_REF 0 1 s) := by
  simp only [execSpmStop, hout, Bool.false_eq_true, if_false]

theorem execSpmAutoRestart_catches (hcoast : spmSt s = 10) (htrip : s.spm.tripCoast = true)
    (hkept : s.spm.lostSince = false) (hauto : flag F.SPM_CTL_AUTO_RESTART 0 s = true) :
    execSpmAutoRestart s = .next (spmEnter 6 (gatesOff s)) := by
  simp [execSpmAutoRestart, hcoast, htrip, hkept, hauto]

theorem execSpmAtSpeed_raises (hrun : spmSt s = 7) (hrevs : 16 * polePairs s ≤ s.spm.revs)
    (hlow : flag F.SPM_STAT_AT_SPEED 0 s = false) :
    execSpmAtSpeed s = .next (releaseWrites (put F.SPM_STAT_AT_SPEED 0 1 s)) := by
  simp [execSpmAtSpeed, hrun, hrevs, hlow]

/-! ### Sync and the power stage (R234, R236) -/

theorem execSpmLossOfSync_trips (hrun : spmSt s = 7) (heps : 4 ≤ s.spm.epsRun) :
    execSpmLossOfSync s = .next (spmTrip 2 s) := by
  simp [execSpmLossOfSync, hrun, heps]

theorem execSpmLossOfSync_inSync (heps : s.spm.epsRun < 4) (hemf : s.spm.emfOk = true) :
    execSpmLossOfSync s = .next s := by
  simp [execSpmLossOfSync, Nat.not_le.2 heps, hemf]

theorem execSpmStageFault_fails (hon : spmSt s ≠ 0) (hgood : spmSt s ≠ 11) :
    execSpmStageFault s = .next (spmFail 6 6 s) := by
  simp [execSpmStageFault, hon, hgood]

/-! ### STICTION, ALIGN, RAMP and the hand-over (R218, R221–R225) -/

theorem execSpmStictionEnd_aligns (hst : spmSt s = 2) (hcal : s.spm.calibrating = false) (hdone : stickDone s = true) :
    execSpmStictionEnd s = .next (spmEnter 3 s) := by
  simp [execSpmStictionEnd, hst, hcal, hdone]

theorem execSpmAlignEnd_openPhase (hst : spmSt s = 3) (hcal : s.spm.calibrating = false) (hopen : openPhase s = true) :
    execSpmAlignEnd s = .next (spmFail 2 8 s) := by
  simp [execSpmAlignEnd, hst, hcal, hopen]

theorem execSpmAlignEnd_ramps {u : State} (hst : spmSt s = 3) (hcal : s.spm.calibrating = false)
    (hclosed : openPhase s = false) (hu : u = spmEnter 4 s) :
    execSpmAlignEnd s = .next { u with spm := { u.spm with agree := 0, locked := false } } := by
  subst hu
  simp [execSpmAlignEnd, hst, hcal, hclosed]

/-- The wrap of θ_ol agrees (R223). -/
def wrapAgrees (s : State) : Bool :=
  fld F.SPM_RAMP_F_HO 0 s * 800000000 ≤ fOl s && s.spm.emfOk && (rampErr s).natAbs < fld F.SPM_HO_HO_ERR 0 s

/-- The wrap has been tested, with `n` agreeing wraps in a row. -/
def wrapTested (n : Nat) (s : State) : State := { s with spm := { s.spm with wrapDue := false, agree := n } }

section
variable (hst : spmSt s = 4) (hwrap : s.spm.wrapDue = true)
include hst hwrap

theorem execSpmRampWrap_tests {n : Nat} (hn : n = if wrapAgrees s then s.spm.agree + 1 else 0) :
    execSpmRampWrap s = .next (if fld1 F.SPM_HO_HO_CYC 0 s ≤ n then handOverRun (rampErr s) (wrapTested n s)
      else wrapTested n s) := by
  subst hn
  unfold execSpmRampWrap
  rw [if_neg (by simp [hst, hwrap])]
  rfl

section
variable (hemf : s.spm.emfOk = true) (hfast : fld F.SPM_RAMP_F_HO 0 s * 800000000 ≤ fOl s)
  (herr : (rampErr s).natAbs < fld F.SPM_HO_HO_ERR 0 s)
include hemf hfast herr

theorem execSpmRampWrap_agrees (hmore : s.spm.agree + 1 < fld1 F.SPM_HO_HO_CYC 0 s) :
    execSpmRampWrap s = .next (wrapTested (s.spm.agree + 1) s) := by
  rw [execSpmRampWrap_tests hst hwrap (n := s.spm.agree + 1) (by simp [wrapAgrees, hemf, hfast, herr]),
    if_neg (Nat.not_le.2 hmore)]

theorem execSpmRampWrap_handsOver (henough : fld1 F.SPM_HO_HO_CYC 0 s ≤ s.spm.agree + 1) :
    execSpmRampWrap s = .next (handOverRun (rampErr s) (wrapTested (s.spm.agree + 1) s)) := by
  rw [execSpmRampWrap_tests hst hwrap (n := s.spm.agree + 1) (by simp [wrapAgrees, hemf, hfast, herr]), if_pos henough]

end

/-- HO_CYC acts as 1 at least, so that no agreeing wrap hands over nothing. -/
theorem execSpmRampWrap_noEmf (hemf : s.spm.emfOk = false) : execSpmRampWrap s = .next (wrapTested 0 s) := by
  have hnone : ¬ fld1 F.SPM_HO_HO_CYC 0 s ≤ 0 := Nat.not_le.2 (Nat.le_max_left _ _)
  rw [execSpmRampWrap_tests hst hwrap (n := 0) (by simp [wrapAgrees, hemf]), if_neg hnone]

end

theorem execSpmHoTimeout_retries (hst : spmSt s = 4) (hlate : hoExpired s = true) :
    execSpmHoTimeout s = .next (count F.SPM_ERR_RETRY 0 (put F.SPM_STAT_ATTEMPT 0
      (min 5 (fld F.SPM_STAT_ATTEMPT 0 s + 1)) (spmEnter 5 (gatesOff s)))) := by
  simp [execSpmHoTimeout, hst, hlate]

theorem execSpmHoTimeout_early (hearly : hoExpired s = false) : execSpmHoTimeout s = .next s := by
  simp [execSpmHoTimeout, hearly]

/-! ### The rotor comes to rest (R218, R219, R226) -/

section
variable {v : List Abc}

theorem execSpmRotorStill_aligns {u : State} (hstill : still s v = true) (hst : spmSt s = 5)
    (hleft : fld F.SPM_STAT_ATTEMPT 0 s ≤ 4) (hu : u = spmEnter 3 s) :
    execSpmRotorStill v s =
      .next { u with spm := { u.spm with align := alignAngle u (fld F.SPM_STAT_ATTEMPT 0 s) } } := by
  subst hu
  simp [execSpmRotorStill, hstill, hst, hleft]

theorem execSpmRotorStill_fails (hstill : still s v = true) (hst : spmSt s = 5)
    (hnone : 5 ≤ fld F.SPM_STAT_ATTEMPT 0 s) : execSpmRotorStill v s = .next (spmFail 1 7 s) := by
  have hover : ¬ fld F.SPM_STAT_ATTEMPT 0 s ≤ 4 := by omega
  simp [execSpmRotorStill, hstill, hst, hover]

theorem execSpmRotorStill_stops {u : State} (hstill : still s v = true) (hst : spmSt s = 8 ∨ spmSt s = 10)
    (hu : u = spmEnter 1 (gatesOff s)) :
    execSpmRotorStill v s = .next { u with spm := { u.spm with genPend := false } } := by
  subst hu
  rcases hst with hbrake | hcoast
  · simp [execSpmRotorStill, hstill, hbrake]
  · simp [execSpmRotorStill, hstill, hcoast]

theorem execSpmRotorStill_moving (hmoves : still s v = false) : execSpmRotorStill v s = .next s := by
  simp [execSpmRotorStill, hmoves]

end

theorem execSpmRetryTimeout_fails (hst : spmSt s = 5) : execSpmRetryTimeout s = .next (spmFail 1 7 s) := by
  simp only [execSpmRetryTimeout, hst, if_true]

/-! ### The catch of a turning rotor (R218, R227) -/

/-- The angle and the speed `r` that the zero crossings give are taken. -/
def crossingsTaken (r : Nat × Int) (s : State) : State :=
  put F.SPM_ANGLE_THETA_E 0 r.1 { s with spm := { s.spm with theta := r.1, thetaLo := 0, omega := r.2 } }

section
variable {l : List (Fin 6 × Nat)} {r : Nat × Int} {u : State} (hst : spmSt s = 6) (hpower : s.spm.genPend = false)
  (hr : r = crossings s l) (hu : u = crossingsTaken r s)
include hst hpower hr hu

theorem execSpmCatchLock_judges :
    execSpmCatchLock l s = .next (if 0 < r.2 && omegaAtLeast u (fld F.SPM_RAMP_F_HO 0 u) then engage 7 u
      else spmEnter 5 (gatesOff u)) := by
  subst hr hu
  unfold execSpmCatchLock
  rw [if_neg (by simp [hst])]
  dsimp only
  rw [if_neg (by simp [hpower])]
  rfl

theorem execSpmCatchLock_engages (hforward : 0 < r.2) (hfast : omegaAtLeast u (fld F.SPM_RAMP_F_HO 0 u) = true) :
    execSpmCatchLock l s = .next (engage 7 u) := by
  rw [execSpmCatchLock_judges hst hpower hr hu, if_pos (by simp [hforward, hfast])]

theorem execSpmCatchLock_retries (hback : r.2 ≤ 0) : execSpmCatchLock l s = .next (spmEnter 5 (gatesOff u)) := by
  rw [execSpmCatchLock_judges hst hpower hr hu, if_neg (by simp [Int.not_lt.2 hback])]

end

end

/-- Settles O35: one lemma per request and per end of a step, for the case that the premises name. -/
theorem spindleRequestsAndStart : Obligations.SpindleRequestsAndStart :=
  ⟨fun _ _ hst hturn => execSpmStart_catches hst hturn,
    fun _ _ hst => execSpmStart_brake hst,
    fun _ _ hst hturn hstill => execSpmStart_calibrates hst hturn hstill rfl,
    fun _ hrun hclear => execSpmStop_brakes hrun hclear rfl,
    fun _ _ hout => execSpmStop_refuses hout,
    fun _ hcoast htrip hkept hauto => execSpmAutoRestart_catches hcoast htrip hkept hauto,
    fun _ hrun hrevs hlow => execSpmAtSpeed_raises hrun hrevs hlow,
    fun _ hrun heps => execSpmLossOfSync_trips hrun heps,
    fun _ _ hst hturn hstill => execSpmStart_between hst hturn hstill,
    fun _ heps hemf => execSpmLossOfSync_inSync heps hemf,
    fun _ hst hcal hdone => execSpmStictionEnd_aligns hst hcal hdone,
    fun _ hst hcal hopen => execSpmAlignEnd_openPhase hst hcal hopen,
    fun _ hst hcal hclosed => execSpmAlignEnd_ramps hst hcal hclosed rfl,
    fun _ hst hwrap hemf hfast herr hmore => execSpmRampWrap_agrees hst hwrap hemf hfast herr hmore,
    fun _ hst hlate => execSpmHoTimeout_retries hst hlate,
    fun _ hearly => execSpmHoTimeout_early hearly,
    fun _ _ hstill hst hleft => execSpmRotorStill_aligns hstill hst hleft rfl,
    fun _ _ hstill hst hnone => execSpmRotorStill_fails hstill hst hnone,
    fun _ _ hstill hst => execSpmRotorStill_stops hstill hst rfl,
    fun _ hst => execSpmRetryTimeout_fails hst,
    fun _ _ hst hpower hforward hfast => execSpmCatchLock_engages hst hpower rfl rfl hforward hfast,
    fun _ hon hgood => execSpmStageFault_fails hon hgood,
    fun _ hst hwrap hemf hfast herr henough => execSpmRampWrap_handsOver hst hwrap hemf hfast herr henough,
    fun _ hst hwrap hemf => execSpmRampWrap_noEmf hst hwrap hemf,
    fun _ _ hmoves => execSpmRotorStill_moving hmoves,
    fun _ _ hst hpower hback => execSpmCatchLock_retries hst hpower rfl rfl hback⟩

end Sys2Proof.Proofs
end

section
/-! PROOFS. The spindle's periods (chapter 07): the PWM period, the speed loop and the offset calibration. -/

namespace Sys2Proof.Proofs

open Sys2Proof Sys2Proof.Machine Sys2Proof.Laws

/-! ### What a period leaves of the spindle's record and state -/

/-- The parts that held writes and the decisions taken back can change (R378, R387, R398). -/
def decisionReach : List Part := [.regs, .dec, .sched]

section
variable {s u : State}

theorem rebind_decisionReach (h : Within decisionReach s u) : Within decisionReach s (rebind u) :=
  each_within (fun _ _ hv => .ite (bindItem_within hv rfl) hv) h

theorem undecide_decisionReach {a : Nat} (h : Within decisionReach s u) : Within decisionReach s (undecide a u) := by
  unfold undecide
  split
  case h_1 => exact h
  case h_2 =>
    extract_lets
    split
    · exact .updSched h rfl
    · exact govLimits_within (itemReturns_within (.ite (put_within (.updSched h rfl) rfl) (.updSched h rfl)) rfl) rfl

theorem undecideWrites_decisionReach (h : Within decisionReach s u) : Within decisionReach s (undecideWrites u) := by
  refine rebind_decisionReach (upTo_within (fun _ _ hv => ?_) h)
  split
  case h_1 => exact hv
  case h_2 =>
    split
    · exact .ite (undecide_decisionReach hv) hv
    · exact hv

theorem holdWrites_decisionReach (h : Within decisionReach s u) : Within decisionReach s (holdWrites u) :=
  each_within (fun _ _ hv => .ite (setItem_within hv rfl) hv) (undecideWrites_decisionReach h)

theorem spm_of_decisionReach (h : Within decisionReach s u) : u.spm = s.spm :=
  congrArg State.spm (a₂ := withParts decisionReach s u) h

end

section
variable (s : State)

theorem holdWrites_spm : (holdWrites s).spm = s.spm := spm_of_decisionReach (holdWrites_decisionReach (.refl s))

theorem atSpeedFall_spm : (atSpeedFall s).spm = { s.spm with revs := 0 } := by
  unfold atSpeedFall
  dsimp only
  split
  · rw [holdWrites_spm, put_spm]
  · rfl

/-- The period in progress goes on when a state is entered. -/
theorem spmEnter_kind (st : Nat) : (spmEnter st s).spm.kind = s.spm.kind := by
  unfold spmEnter
  extract_lets _ u v
  have hv : v.spm.kind = s.spm.kind := by
    dsimp only [v]
    split
    · rfl
    · rw [atSpeedFall_spm]
      rfl
  split <;> exact hv

theorem genEnter_kind : (genEnter s).spm.kind = s.spm.kind := by
  unfold genEnter
  split
  · exact spmEnter_kind s 9
  · rfl

theorem genEnter_noPowerLoss (hpower : s.spm.genPend = false) : genEnter s = s := by
  simp [genEnter, hpower]

/-- The spindle's own record is no part of the registers. -/
theorem spmSt_withSpm (x : Spm) : spmSt { s with spm := x } = spmSt s := rfl

/-- A write of a register other than SPM_STAT leaves the spindle state. -/
theorem spmSt_put_other {f : Field} (i v : Nat) (h : f.reg.addr i 0 ≠ R.SPM_STAT.addr 0 0) :
    spmSt (put f i v s) = spmSt s := fld_put_other v s h

theorem spmSt_thetaSpindle : spmSt (thetaSpindle s) = spmSt s := by
  unfold thetaSpindle
  dsimp only
  rw [spmSt_put_other _ _ _ (by decide), spmSt_put_other _ _ _ (by decide), spmSt_put_other _ _ _ (by decide)]

theorem spmSt_spmAngle (theta : Nat) : spmSt (spmAngle theta s) = spmSt s := by
  unfold spmAngle
  extract_lets _ _ _ _ _ _ u v
  have hu : spmSt u = spmSt s := (spmSt_put_other _ _ _ (by decide)).trans (spmSt_put_other _ _ _ (by decide))
  have hv : spmSt v = spmSt s := (spmSt_put_other _ _ _ (by decide)).trans hu
  split
  · exact hu
  · split
    · exact hv
    · exact (spmSt_thetaSpindle v).trans hv

theorem spmSt_pwmObserve (n : Nat) : spmSt (pwmObserve n s) = spmSt s := by
  unfold pwmObserve
  dsimp only
  split
  · exact spmSt_spmAngle _ _
  · rfl

theorem spmSt_openCheck : spmSt (openCheck s) = spmSt s := by
  unfold openCheck
  dsimp only
  split <;> rfl

theorem spmSt_currentLoop : spmSt (currentLoop s) = spmSt s := rfl

theorem spmSt_pwmSample (i : List Int) : spmSt (pwmSample i s) = spmSt s := by
  unfold pwmSample
  extract_lets _ u
  have hu : spmSt u = spmSt s := (spmSt_put_other _ _ _ (by decide)).trans
    ((spmSt_put_other _ _ _ (by decide)).trans (spmSt_put_other _ _ _ (by decide)))
  exact (spmSt_withSpm u _).trans hu

end

/-! ### A period that drives (R211–R217, R220, R232, R235, R236) -/

/-- After the sample of a period: the observer's step over `n` periods, the open-phase check and the current loop's step. -/
def sampleLooped (n : Nat) (s : State) : State := currentLoop (openCheck (pwmObserve n s))

theorem spmSt_sampleLooped (n : Nat) (s : State) : spmSt (sampleLooped n s) = spmSt s := by
  rw [sampleLooped, spmSt_currentLoop, spmSt_openCheck, spmSt_pwmObserve]

section
variable {n : Nat} {x : Abc} {t u : State} (hu : u = pwmSample (phaseCurrents t x) t)
include hu

theorem pwmLoop_trips (hover : 2 ≤ u.spm.ocRun) :
    pwmLoop n x t = spmTrip 1 { u with spm := { u.spm with ocRun := 0 } } := by
  subst hu
  unfold pwmLoop
  dsimp only
  rw [if_pos hover]

/-- The period after a normal one: the low sides in a slow brake, and else the duties of the new command. -/
theorem pwmLoop_normal {w : State} {r : List Int × State} (hkind : t.spm.kind = .normal) (hbelow : u.spm.ocRun < 2)
    (hw : w = sampleLooped n u) (hr : r = dutiesOf (currentRefs w).1 w.spm.vd w.spm.vq w) :
    pwmLoop n x t = if spmSt w = 8 && fld F.SPM_MEAS_SPEED 0 w < 30000 then brakeLow w else pwmBegin r.1 r.2 := by
  subst hu hw hr
  unfold pwmLoop sampleLooped
  simp [Nat.not_le.2 hbelow, hkind]

theorem pwmLoop_low (hkind : t.spm.kind = .low) (hbrake : spmSt t = 8) (hbelow : u.spm.ocRun < 2) :
    pwmLoop n x t = brakeLow (sampleLooped n u) := by
  have hbrake' : spmSt (sampleLooped n u) = 8 := by rw [spmSt_sampleLooped, hu, spmSt_pwmSample, hbrake]
  subst hu
  unfold sampleLooped at hbrake' ⊢
  unfold pwmLoop
  simp [Nat.not_le.2 hbelow, hkind, hbrake']

end

/-- What follows a period of kind `k`, `t` being the state with its time counted. -/
def periodAfter (k : PwmKind) (x : Abc) (t : State) : State :=
  match k with
  | .off =>
    let r := dutiesOf (currentRefs t).1 t.spm.dInt t.spm.qInt t
    pwmBegin r.1 r.2
  | .comp => pwmBegin t.spm.next t
  | .shift => pwmLoop 2 x t
  | .normal => pwmLoop 1 x t
  | .low => pwmLoop 1 x t

section
variable {x : Abc} {s t : State} (hst : spmSt s ∈ [3, 4, 7, 8, 9]) (hcal : s.spm.calibrating = false)
  (ht : t = genEnter (pwmClock s))
include hst hcal ht

/-- Outside STICTION every period of a state that drives the motor drives it. -/
theorem execSpmPwmPeriod_drives : execSpmPwmPeriod x s = .next (periodAfter s.spm.kind x t) := by
  have hst' : spmSt s = 3 ∨ spmSt s = 4 ∨ spmSt s = 7 ∨ spmSt s = 8 ∨ spmSt s = 9 := by simpa using hst
  have hnoStick : spmSt s ≠ 2 := by omega
  subst ht
  unfold execSpmPwmPeriod
  dsimp only
  rw [if_neg (by rcases hst' with hst | hst | hst | hst | hst <;> simp [hst, hcal]), if_neg (by simp [hnoStick])]
  rfl

section
variable {u : State} (hu : u = pwmSample (phaseCurrents t x) t) (hkind : s.spm.kind = .normal)
include hu hkind

theorem execSpmPwmPeriod_trips (hover : 2 ≤ u.spm.ocRun) :
    execSpmPwmPeriod x s = .next (spmTrip 1 { u with spm := { u.spm with ocRun := 0 } }) := by
  rw [execSpmPwmPeriod_drives hst hcal ht, hkind, periodAfter, pwmLoop_trips hu hover]

theorem execSpmPwmPeriod_normal {w : State} {r : List Int × State} (hbelow : u.spm.ocRun < 2) (hw : w = sampleLooped 1 u)
    (hr : r = dutiesOf (currentRefs w).1 w.spm.vd w.spm.vq w) :
    execSpmPwmPeriod x s =
      .next (if spmSt w = 8 && fld F.SPM_MEAS_SPEED 0 w < 30000 then brakeLow w else pwmBegin r.1 r.2) := by
  have hkind' : t.spm.kind = .normal := by rw [ht, genEnter_kind]; exact hkind
  rw [execSpmPwmPeriod_drives hst hcal ht, hkind, periodAfter, pwmLoop_normal hu hkind' hbelow hw hr]

end

end

/-- Without a power loss a brake whose low sides are on stays one. -/
theorem execSpmPwmPeriod_low {x : Abc} {s t u : State} (hst : spmSt s = 8) (hpower : s.spm.genPend = false)
    (hcal : s.spm.calibrating = false) (hkind : s.spm.kind = .low) (ht : t = pwmClock s)
    (hu : u = pwmSample (phaseCurrents t x) t) (hbelow : u.spm.ocRun < 2) :
    execSpmPwmPeriod x s = .next (brakeLow (sampleLooped 1 u)) := by
  subst ht
  have hclock : pwmClock s = genEnter (pwmClock s) := (genEnter_noPowerLoss (pwmClock s) hpower).symm
  rw [execSpmPwmPeriod_drives (by simp [hst]) hcal hclock, hkind, periodAfter, pwmLoop_low hu hkind hst hbelow]

/-! ### The speed loop and the offset calibration (R220, R229, R236) -/

section
variable {s : State}

/-- The measured speed, its direction and source, and the motor's power are shown (R229, R237). -/
def speedShown (s : State) : State :=
  put F.SPM_MEAS_SPEED 0 (min 16777215 (measured s).natAbs) (put F.SPM_MEAS_DIR 0 (decide (measured s < 0)).toNat
    (put F.SPM_MEAS_SRC 0 (if fld F.SRV_THETA_SRC 0 s = 1 then 1 else 0)
      (put F.SPM_PWR_MOTOR 0 (min 65535 (motorPower s).toNat) (syncCount s))))

theorem execSpmSpeedLoop_tooFast (hst : spmSt s = 7 ∨ spmSt s = 9 ∨ spmSt s = 6 ∨ spmSt s = 10)
    (hfast : 1050000 < (measured s).natAbs) : execSpmSpeedLoop s = .next (spmFail 5 5 (speedShown s)) := by
  unfold execSpmSpeedLoop
  dsimp only
  rw [if_pos ⟨hst, hfast⟩]
  rfl

theorem execSpmSpeedLoop_align (hst : spmSt s = 3) :
    execSpmSpeedLoop s = .next (spinChecks (measured s).natAbs (speedShown s)) := by
  unfold execSpmSpeedLoop
  dsimp only
  rw [if_neg (by simp [hst]), if_neg (by simp [hst]), if_neg (by simp [hst])]
  rfl

variable {l : List Abc} {m : List Int} (hcal : s.spm.calibrating = true)
  (hm : m = [calMean (l.map (·.a)), calMean (l.map (·.b)), calMean (l.map (·.c))])
include hcal hm

theorem execSpmOffsetCalDone_takes (hnear : m.any (fun z => 256 < z.natAbs) = false) :
    execSpmOffsetCalDone l s = .next { s with spm := { s.spm with calibrating := false, offs := m } } := by
  subst hm
  simp only [execSpmOffsetCalDone, hcal, hnear, Bool.not_true, Bool.false_eq_true, if_false]

theorem execSpmOffsetCalDone_fails (hfar : m.any (fun z => 256 < z.natAbs) = true) :
    execSpmOffsetCalDone l s = .next (spmFail 3 9 s) := by
  subst hm
  simp only [execSpmOffsetCalDone, hcal, hfar, Bool.not_true, Bool.false_eq_true, if_false, if_true]

end

/-- Settles O36: one lemma per kind of period and per outcome of the speed loop and the calibration, for the case that the
premises name. -/
theorem spindlePeriods : Obligations.SpindlePeriods := by
  refine ⟨?comp,
    fun _ _ hst hcal hkind hbelow => execSpmPwmPeriod_normal hst hcal rfl rfl hkind hbelow rfl rfl,
    fun _ _ hst hcal hkind hover => execSpmPwmPeriod_trips hst hcal rfl rfl hkind hover,
    fun _ hst hfast => execSpmSpeedLoop_tooFast hst hfast,
    fun _ hst => execSpmSpeedLoop_align hst,
    fun _ _ hcal hnear => execSpmOffsetCalDone_takes hcal rfl hnear,
    fun _ _ hcal hfar => execSpmOffsetCalDone_fails hcal rfl hfar,
    ?off,
    fun _ _ hst hpower hcal hkind hbelow => execSpmPwmPeriod_low hst hpower hcal hkind rfl rfl hbelow⟩
  case comp =>
    intro x s hst hcal hkind t
    exact (execSpmPwmPeriod_drives hst hcal rfl).trans (by rw [hkind]; rfl)
  case off =>
    intro x s hst hcal hkind t r
    exact (execSpmPwmPeriod_drives hst hcal rfl).trans (by rw [hkind]; rfl)

end Sys2Proof.Proofs
end

section
/-! PROOFS. The salvage job (R269–R271), cruise (R278, R279) and the lost ring (R275). -/

namespace Sys2Proof.Proofs

open Sys2Proof Sys2Proof.Machine Sys2Proof.Laws

/-! ### Control of the job (R269, R270) -/

/-- A field of a register stays when another register is written whole. -/
theorem fld_wr_other {r : RegDef} {g : Field} {i j i' : Nat} (v : Nat) (s : State)
    (h : r.addr i j ≠ g.reg.addr i' 0) : fld g i' (wr r i j v s) = fld g i' s := by
  unfold fld fld2
  rw [rd_wr_other v s h]

/-- A job starts with no error and with POS and CNT 0. -/
def salvCleared (s : State) : State :=
  wr R.SPR_SALV_POS 0 0 0 (wr R.SPR_SALV_CNT 0 0 0 (put F.SPR_SALV_STAT_ERR 0 0 s))

theorem salvCleared_entry (s : State) : fld F.SPR_SALV_CTL_ENTRY 0 (salvCleared s) = fld F.SPR_SALV_CTL_ENTRY 0 s := by
  unfold salvCleared
  rw [fld_wr_other _ _ (by decide), fld_wr_other _ _ (by decide), fld_put_other _ _ (by decide)]

theorem salvCleared_setSpr (t : State) (x : Spr) :
    salvCleared { t with spr := x } = { salvCleared t with spr := x } := rfl

/-- The record of a job that starts: RUNNING with nothing lost, and no PAUSE or ABORT waits. -/
def salvRecorded (s : State) : State :=
  { s with spr := { s.spr with
    pausing := false, aborting := false, jobs := Tab.put s.spr.jobs (fld F.SPR_SALV_CTL_ENTRY 0 s) (1, 0) } }

theorem salvRecorded_setSpr (t : State) (x : Spr) :
    salvRecorded { t with spr := x } = { t with spr := { x with
      pausing := false, aborting := false, jobs := Tab.put x.jobs (fld F.SPR_SALV_CTL_ENTRY 0 t) (1, 0) } } := rfl

/-- The job of ENTRY has started, its record in terms of the state before. -/
def salvBegun (s : State) : State :=
  { salvCleared (put F.SPR_SALV_STAT_STATE 0 1 s) with spr := { s.spr with
    pausing := false, aborting := false,
    jobs := Tab.put (Tab.put s.spr.jobs (fld F.SPR_SALV_CTL_ENTRY 0 s)
        (1, ((Tab.get? s.spr.jobs (fld F.SPR_SALV_CTL_ENTRY 0 s)).getD (0, 0)).2))
      (fld F.SPR_SALV_CTL_ENTRY 0 s) (1, 0) } }

/-- The writes to STAT, POS and CNT leave ENTRY as it was, so the record stands at the entry named before them. -/
theorem salvRecorded_salvSet (s : State) : salvRecorded (salvCleared (salvSet 1 s)) = salvBegun s := by
  refine (congrArg salvRecorded (salvCleared_setSpr (put F.SPR_SALV_STAT_STATE 0 1 s) (salvSet 1 s).spr)).trans ?_
  rw [salvRecorded_setSpr, salvCleared_entry, fld_put_other _ _ (by decide)]
  rfl

section
variable {w : BusW} {s u : State} (hu : u = salvCtlWrite w s)
include hu

theorem execSprSalvStart_starts (hw : wrote1 31 w = true) (hrun : salvState u ≠ 1) (hpause : salvState u ≠ 2)
    (hfenced : salvFenced u (jobEnt u) = true) : execSprSalvStart w s = .next (c4Change 0 (salvBegun u)) := by
  subst hu
  rw [← salvRecorded_salvSet]
  exact (if_neg (by simp [hw])).trans (if_neg (by simp [hrun, hpause, hfenced]))

theorem execSprSalvStart_busy (hw : wrote1 31 w = true) (hbusy : salvState u = 1 ∨ salvState u = 2) :
    execSprSalvStart w s = .next (put F.SPR_SALV_STAT_ERR 0 1 u) := by
  subst hu
  rcases hbusy with hrun | hpause
  · simp [execSprSalvStart, hw, hrun]
  · simp [execSprSalvStart, hw, hpause]

theorem execSprSalvPause_waits (hw : wrote1 30 w = true) (hrun : salvState u = 1) :
    execSprSalvPause w s = .next (batchDone { u with spr := { u.spr with pausing := true } }) := by
  subst hu
  simp [execSprSalvPause, hw, hrun]

theorem execSprSalvResume_paused (hw : wrote1 29 w = true) (hpause : salvState u = 2) :
    execSprSalvResume w s = .next (c4Change 0 (salvSet 1 u)) := by
  subst hu
  simp [execSprSalvResume, hw, hpause]

theorem execSprSalvAbort_paused (hw : wrote1 28 w = true) (hpause : salvState u = 2) :
    execSprSalvAbort w s = .next (c4Change 0 (salvSet 4 u)) := by
  subst hu
  simp [execSprSalvAbort, hw, hpause]

theorem execSprSalvAbort_waits (hw : wrote1 28 w = true) (hrun : salvState u = 1) :
    execSprSalvAbort w s = .next (batchDone { u with spr := { u.spr with aborting := true } }) := by
  subst hu
  simp [execSprSalvAbort, hw, hrun]

end

/-! ### Batches (R270, R271) -/

section
variable {s u : State} (hrun : salvState s = 1) (hempty : s.spr.batch = []) (hu : u = salvAdvance s)
include hrun hempty hu

theorem execSalvageBatch_takes {p : Nat} (hp : p = fld F.SPR_SALV_POS_POS 0 u) (hmore : p < (jobEnt u).count) :
    execSalvageBatch s = .next (salvAdvance (upTo (min (fld1 F.SPR_SALV_CTL_BATCH 0 u) ((jobEnt u).count - p))
      (fun i v => batchTake (p + i) v) u)) := by
  subst hu hp
  simp [execSalvageBatch, hrun, hempty, Nat.not_le.2 hmore]

theorem execSalvageBatch_ends (hend : (jobEnt u).count ≤ fld F.SPR_SALV_POS_POS 0 u) :
    execSalvageBatch s = .next (degradedUpdate (c4Change 0 (raiseEvent 86 (salvSet 3
      (sramWrite (fld F.SPR_RELOC_BASE_ADDR 0 u * 32 + 32 * fld F.SPR_SALV_CTL_ENTRY 0 u + 7)
        [byte ((jobEnt u).flags ||| 2)] u))))) := by
  subst hu
  simp [execSalvageBatch, hrun, hempty, hend]

end

/-- The stripe of the batch that read `r` has read whole, if it is one for the job. -/
def batchRead (s : State) (r : StripeRd) : Option (Nat × StripeRd) :=
  match r.use with
  | .salv i => if readDone r && s.spr.batch.contains (i, .read) then some (i, r) else none
  | _ => none

theorem execSalvageStripeJudge_judges {i : Nat} {r : StripeRd} {s : State}
    (hr : (Tab.vals s.spr.reads).findSome? (batchRead s) = some (i, r)) :
    execSalvageStripeJudge s = .next (salvJudge i r (countStale r s)) := by
  unfold execSalvageStripeJudge
  dsimp only
  split
  next hnone => exact absurd (hnone.symm.trans hr) nofun
  next hsome =>
    cases Option.some.inj (hsome.symm.trans hr)
    rfl

/-! ### Cruise (R278, R279) -/

section
variable {s : State} (hon : flag F.SPR_CRUISE_CTL_EN 0 s = true) (hidle : s.spr.cruise = none)
  (hfree : (chkFree s).isSome = true)
include hon hidle hfree

theorem execCruiseVisit_completesPass (hnext : cruiseNext s (fld F.SPR_CRUISE_POS_POS 0 s) = none)
    (hgeo : s.geo.isSome = true) :
    execCruiseVisit s = .next (put F.SPR_CRUISE_POS_POS 0 0
      (put F.SPR_CRUISE_POS_PASS 0 ((fld F.SPR_CRUISE_POS_PASS 0 s + 1) % 2 ^ 24) s)) := by
  simp [execCruiseVisit, hon, hidle, Option.isSome_iff_ne_none.1 hfree, hnext, Option.isSome_iff_ne_none.1 hgeo]

theorem execCruiseVisit_takes {o n d : Nat} {r : OwnRun}
    (hnext : cruiseNext s (fld F.SPR_CRUISE_POS_POS 0 s) = some (o, r)) (hn : n = r.n + (o - r.ord))
    (hd : d = dataOf (nsEnt s r.nsid).red) :
    execCruiseVisit s = .next (chkEnter r.nsid (n * d) (n * d + d - 1) false .cruise
      (put F.SPR_CRUISE_POS_POS 0 ((o + 1) % 2 ^ 40) { s with spr := { s.spr with
        cruise := some ⟨r.zone, r.k + (o - r.ord), r.nsid, n, 0, .choke, []⟩ } })) := by
  subst hn hd
  simp [execCruiseVisit, hon, hidle, Option.isSome_iff_ne_none.1 hfree, hnext]

end

section
variable {c : Cruise} {s : State} (hc : s.spr.cruise = some c)
include hc

theorem execCruiseClassify_judges {r : StripeRd} (hr : cruiseRead s false = some r) (hphase : c.phase = .read) :
    execCruiseClassify s = .next (cruiseJudge c r (countStale r s)) := by
  simp only [execCruiseClassify, hc, hr, hphase, if_true]

section
variable {k : Choke} (hk : chkOf s .cruise = some k) (hgranted : k.granted = true) (howns : cruiseOwns s c = true)
include hk hgranted howns

theorem execCruiseRewrite_rereads {zk : Nat × Nat} (hzk : zk = relocate s false (c.zone, c.k))
    (hphase : c.phase = .exclusive) :
    execCruiseRewrite s = .next (startRead .cruise2 zk.1 zk.2 (nsEnt s c.nsid).red none (cruiseWant s)
      { s with spr := { s.spr with cruise := some { c with phase := .reread } } }) := by
  subst hzk
  simp [execCruiseRewrite, hc, hk, hgranted, hphase, howns]

/-- The reread stripe goes to its rewrite once neither an open group nor an early list holds it. -/
theorem execCruiseRewrite_writes {r : StripeRd} (hphase : c.phase = .reread) (hr : cruiseRead s true = some r)
    (hgroup : groupCovers s c.nsid (c.n * dataOf r.red) (dataOf r.red) = false)
    (hearly : earlyHolds s c.nsid c.n = false) : execCruiseRewrite s = .next (cruiseWrite c r s) := by
  simp [execCruiseRewrite, hc, hk, hgranted, hphase, howns, hr, hgroup, hearly]

end

end

theorem cruiseWrite_changed {c : Cruise} {r : StripeRd} {s : State} (hgen : stripeGen r ≠ c.gen) :
    cruiseWrite c r s = cruiseLeave (countStale r (dropRead r.id s)) := by
  simp only [cruiseWrite, hgen, ne_eq, not_false_eq_true, if_true]

/-! ### The lost ring (R275) -/

theorem execLostRingRoom_resumes {s : State} (hempty : s.spr.batch = []) (hidle : s.spr.cruise = none) :
    execLostRingRoom s = .next (resumeOps s) := by
  simp [execLostRingRoom, hempty, hidle, each]

/-- Settles O38: one lemma per request, batch, visit and reread, for the case that the premises name. -/
theorem salvageAndCruise : Obligations.SalvageAndCruise :=
  ⟨fun _ _ hw hrun hpause hfenced => execSprSalvStart_starts rfl hw hrun hpause hfenced,
    fun _ _ hw hbusy => execSprSalvStart_busy rfl hw hbusy,
    fun _ _ hw hrun => execSprSalvPause_waits rfl hw hrun,
    fun _ _ hw hpause => execSprSalvResume_paused rfl hw hpause,
    fun _ _ hw hpause => execSprSalvAbort_paused rfl hw hpause,
    fun _ _ hw hrun => execSprSalvAbort_waits rfl hw hrun,
    fun _ hrun hempty hmore => execSalvageBatch_takes hrun hempty rfl rfl hmore,
    fun _ hrun hempty hend => execSalvageBatch_ends hrun hempty rfl hend,
    fun _ _ _ hr => execSalvageStripeJudge_judges hr,
    fun _ hon hidle hfree hnext hgeo => execCruiseVisit_completesPass hon hidle hfree hnext hgeo,
    fun _ _ _ hon hidle hfree hnext => execCruiseVisit_takes hon hidle hfree hnext rfl rfl,
    fun _ _ _ hc hr hphase => execCruiseClassify_judges hc hr hphase,
    fun _ _ _ hc hk hgranted hphase howns => execCruiseRewrite_rereads hc hk hgranted howns rfl hphase,
    fun _ _ _ _ hc hk hgranted hphase hr howns hgroup hearly hgen =>
      (execCruiseRewrite_writes hc hk hgranted howns hphase hr hgroup hearly).trans
        (congrArg Host.Outcome.next (cruiseWrite_changed hgen)),
    fun _ hempty hidle => execLostRingRoom_resumes hempty hidle⟩

end Sys2Proof.Proofs
end

section
/-! PROOFS. Identify, Virtualization Management, and namespaces (R328, R338–R341). -/

namespace Sys2Proof.Proofs

open Sys2Proof Sys2Proof.Machine Sys2Proof.Laws

section
variable {k : Fin 4096} {x : Cmd} {s : State}

/-! ### Identify (R338, R339) -/

section
variable (hx : adm s k 0x06 = some x) (hready : outReady s x = true)
include hx hready

theorem execIdentify_controller (hcns : cdw x 10 % 256 = 1) :
    execIdentify k s = .next (admSend x (idCtrl s x.fn) 0 s) := by
  simp [execIdentify, hx, hready, hcns]

/-- CNS 0 of one namespace: its structure, or an error where the function has not attached it. -/
theorem execIdentify_namespace (hcns : cdw x 10 % 256 = 0) (hone : nsidOf x ≠ 0xFFFFFFFF) :
    execIdentify k s = .next (if attachedTo s (nsidOf x) x.fn then admSend x (((nsr s (nsidOf x)).map idNs).getD []) 0 s
      else admEnd x stNs 0 s) := by
  cases hat : attachedTo s (nsidOf x) x.fn <;> simp [execIdentify, hx, hready, hcns, hone, hat]

end

/-! ### Secondary controllers (R289, R321, R326, R328) -/

section
variable {n : Nat} (hn : vmFn x = some n)
include hn

section
variable (hx : admAct s k 0x1C 7 = some x)
include hx

theorem execVmSecondaryOffline_offline (hoff : (fnr s n).online = false) :
    execVmSecondaryOffline k s = .next (admEnd x 0 0 (setFn n { fnr s n with online := false } s)) := by
  simp [execVmSecondaryOffline, hx, hn, hoff]

/-- A controller that is online takes a reset of its deck. -/
theorem execVmSecondaryOffline_online {u : State} (hon : (fnr s n).online = true)
    (hu : u = wr R.NVME_CSTS n 0 0 (wr R.VFW_STAT n 0 0 (fnResetDeck n s))) :
    execVmSecondaryOffline k s = .next (admEnd x 0 0 (setFn n { fnr u n with online := false } u)) := by
  subst hu
  simp only [execVmSecondaryOffline, hx, hn, hon, if_true]

end

section
variable (hx : admAct s k 0x1C 8 = some x)
include hx

theorem execVmSecondaryAssign_queues {q : Nat} (hoff : (fnr s n).online = false) (hkind : cdw x 10 / 256 % 8 = 0)
    (hq : q = cdw x 11 % 65536) (hown : q ≤ 65) (hall : vmOthers s n (·.nq) + q ≤ 959) :
    execVmSecondaryAssign k s = .next (admEnd x 0 q (setFn n { fnr s n with nq := q } s)) := by
  subst hq
  simp [execVmSecondaryAssign, hx, hn, hoff, hkind, Nat.not_lt.2 hown, Nat.not_lt.2 hall]

theorem execVmSecondaryAssign_refusesOnline (hon : (fnr s n).online = true) :
    execVmSecondaryAssign k s = .next (admEnd x (0x120 + dnr) 0 s) := by
  simp [execVmSecondaryAssign, hx, hn, hon]

end

section
variable (hx : admAct s k 0x1C 9 = some x)
include hx

theorem execVmSecondaryOnline_idle {u : State} (hq : 2 ≤ (fnr s n).nq) (hv : 1 ≤ (fnr s n).nv)
    (hu : u = put F.MSIX_SIZE n ((fnr s n).nv - 1) (setFn n { fnr s n with online := true, everOnline := true } s))
    (hoff : fnOn u n = false) : execVmSecondaryOnline k s = .next (admEnd x 0 0 u) := by
  subst hu
  simp [execVmSecondaryOnline, hx, hn, Nat.not_lt.2 hq, Nat.ne_of_gt hv, hoff]

theorem execVmSecondaryOnline_fewQueues (hq : (fnr s n).nq < 2) :
    execVmSecondaryOnline k s = .next (admEnd x stField 0 s) := by
  simp [execVmSecondaryOnline, hx, hn, hq]

end

end

theorem execVmPrimaryFlex_refuses (hx : admAct s k 0x1C 1 = some x) :
    execVmPrimaryFlex k s = .next (admEnd x stField 0 s) := by
  simp only [execVmPrimaryFlex, hx]

/-! ### Namespace Management (R239, R240, R339, R341) -/

/-- The host's data of a Create is valid, and leaves the atomic write unit to the default. -/
structure CreateValid (d : List Byte) : Prop where
  capacity : le d 0 8 = le d 8 8
  nonempty : le d 0 8 ≠ 0
  format : le d 26 1 % 16 ≤ 5
  reserved : le d 26 1 < 32
  protection : dpsOk (le d 26 1) (le d 29 1) = true
  profile : le d 0x180 1 ≤ 1
  defaultUnit : le d 0x181 1 = 0

/-- The record of a namespace made of a Create's data, with the default atomic write unit. -/
def createRec (d : List Byte) (gen : Nat) (exts : List (Nat × Nat × Nat)) : NsRec :=
  ⟨le d 0 8, le d 26 1, le d 29 1, le d 30 1 % 2, le d 0x180 1, 64, gen, 0, exts, 0, []⟩

/-- The extent list of a new namespace written at `addr` (R240). -/
def writeExtents (addr : Nat) (exts : List (Nat × Nat × Nat)) (s : State) : State :=
  each exts.zipIdx (fun e v => sramWrite (addr + 16 * e.2)
    (bytesOf 5 e.1.1 ++ bytesOf 1 e.1.2.1 ++ bytesOf 2 0 ++ bytesOf 5 e.1.2.2 ++ bytesOf 3 0) v) s

section
variable {addr : Nat} {exts : List (Nat × Nat × Nat)} (hx : admAct s k 0x0D 0 = some x) (hin : inReady x = true)
include hx hin

theorem execNsCreate_makes {n g : Nat} {r : NsRec} {u : State} (hd : CreateValid x.data)
    (hn : ((List.range 256).map (· + 1)).find? (fun n => (nsr s n).isNone) = some n)
    (hg : g = ((Tab.get? s.deck.nsGen n).getD 0 + 1) % 2 ^ 32) (hr : r = createRec x.data g exts)
    (hroom : ownedStripes s + nsStripes r ≤ mainStripes s) (hexts : extsOk s exts (nsStripes r) = true)
    (hu : u = writeExtents addr exts { s with deck := { s.deck with
      nss := Tab.put s.deck.nss n r, nsGen := Tab.put s.deck.nsGen n g } }) :
    execNsCreate k addr exts s = .next (admEnd x 0 n (sramWrite (nsEntryAt u n) (nsEntry r addr true) u)) := by
  obtain ⟨hcap, hsize, hfmt, hres, hdps, hprof, hawu⟩ := hd
  subst hu hr hg
  simp only [execNsCreate, hx, hin, hn, hawu, Bool.not_true, Bool.false_eq_true, if_false, if_true, -Nat.reducePow]
  refine congrArg _ ((if_neg ?valid).trans ((if_neg (Nat.not_lt.2 hfmt)).trans
    ((if_neg (Nat.not_lt.2 hroom)).trans (if_neg (ne_true_of_eq_false (congrArg not hexts))))))
  case valid => simp [← hcap, hsize, Nat.not_le.2 hres, hdps, Nat.not_lt.2 hprof]

theorem execNsCreate_refusesEmpty (hsize : le x.data 0 8 = 0) :
    execNsCreate k addr exts s = .next (admEnd x stField 0 s) := by
  simp [execNsCreate, hx, hin, hsize]

end

/-! #### Under the whole-namespace choker: Delete and Format -/

/-- The I/O commands of namespace `n` that have not ended, but a Flush, are ended with Invalid Namespace. -/
def nsAbandon (n : Nat) (s : State) : State :=
  each (Tab.vals s.deck.cmds) (fun c t => if !isAdmin c && nsidOf c == n && c.phase != .done && opc c != 0 then
    resolveWith stNs c t else t) s

/-- The VALID bit of the entry of namespace `n` is cleared. -/
def nsInvalidate (n : Nat) (s : State) : State :=
  sramWrite (nsEntryAt s n) [byte (le (sramRead s (nsEntryAt s n) 1) 0 1 / 2 * 2)] s

/-- The record of a namespace formatted to `fl`, without protection information. -/
def formatRec (r : NsRec) (fl gen : Nat) : NsRec :=
  let t := { r with flbas := fl, dps := 0, gen := gen, fill := 0, early := [] }
  { t with nsze := ceilDiv r.nsze (lpu r) * lpu t }

section
variable {n : Nat} {r : NsRec} (hcmd : cmd s k = some x) (hadmin : isAdmin x = true) (hgranted : x.phase = .granted)
  (hlast : nsEarlier s x = false) (hn : n = nsidOf x) (hns : nsr s n = some r)
include hcmd hadmin hgranted hlast hn hns

theorem execNsDelete_drops {v w : State} (hop : opc x = 0x0D) (hact : cdw x 10 % 16 = 1)
    (hv : v = nsAbandon n (nsDrop n s))
    (hw : w = nsAfter { v with deck := { v.deck with nss := Tab.erase v.deck.nss n } }) :
    execNsDelete k s = .next (admEnd x 0 0 (nsNotice r.attached n (chkRelease (.cmd x.slot) (nsInvalidate n w)))) := by
  subst hw hv hn
  simp [execNsDelete, hcmd, hadmin, hop, hact, hgranted, hlast, hns, nsAbandon, nsInvalidate]

/-- A CDW10 below 6 names a format, and nothing else of a Format. -/
theorem execFormatNvm_formats {g : Nat} {q : NsRec} {u v : State} (hop : opc x = 0x80) (hfmt : cdw x 10 < 6)
    (hg : g = (r.gen + 1) % 2 ^ 32) (hq : q = formatRec r (cdw x 10) g) (hu : u = nsDrop n s)
    (hv : v = nsAfter { u with deck := { u.deck with
      nss := Tab.put u.deck.nss n q, nsGen := Tab.put u.deck.nsGen n g } }) :
    execFormatNvm k s = .next (admEnd x 0 0 (chkRelease (.cmd x.slot) (nsNotice q.attached n
      (sramWrite (nsEntryAt v n) (nsEntry q (le (sramRead v (nsEntryAt v n + 8) 4) 0 4) true) v)))) := by
  have hlow : cdw x 10 % 16 = cdw x 10 := Nat.mod_eq_of_lt (by omega)
  have hfmt' : ¬ 5 < cdw x 10 := by omega
  have h4 : (cdw x 10).testBit 4 = false := Nat.testBit_lt_two_pow (by omega)
  have h32 : cdw x 10 / 32 = 0 := Nat.div_eq_of_lt (by omega)
  have h512 : cdw x 10 / 512 = 0 := Nat.div_eq_of_lt (by omega)
  have h4096 : cdw x 10 / 4096 = 0 := Nat.div_eq_of_lt (by omega)
  have hdps : dpsOk (cdw x 10) 0 = true := by simp [dpsOk]
  subst hv hu hq hg hn
  simp [execFormatNvm, hcmd, hadmin, hop, hgranted, hlast, hns, hlow, hfmt', h4, h32, h512, h4096, hdps, formatRec]

end

/-! ### Namespace Attachment (R340) -/

section
variable {m : Nat} {r : NsRec} (hin : inReady x = true) (hm : attachMask x.data = some m)
  (hns : nsr s (nsidOf x) = some r)
include hin hm hns

section
variable (hx : admAct s k 0x15 0 = some x)
include hx

theorem execNsAttach_attaches (hnew : m &&& r.attached = 0)
    (hshare : r.nmic ≠ 0 ∨ popcount 64 (m ||| r.attached) ≤ 1) :
    execNsAttach k s = .next (admEnd x 0 0 (nsNotice (r.attached ||| m) (nsidOf x)
      (setNs (nsidOf x) { r with attached := r.attached ||| m } s))) := by
  rcases hshare with hshared | hone
  · simp [execNsAttach, hx, hin, hm, hns, hnew, hshared]
  · simp [execNsAttach, hx, hin, hm, hns, hnew, Nat.not_lt.2 hone]

theorem execNsAttach_refusesAttached (hold : m &&& r.attached ≠ 0) :
    execNsAttach k s = .next (admEnd x (0x118 + dnr) 0 s) := by
  simp [execNsAttach, hx, hin, hm, hns, hold]

end

theorem execNsDetach_detaches (hx : admAct s k 0x15 1 = some x) (hall : m &&& r.attached = m) :
    execNsDetach k s = .next (admEnd x 0 0 (nsNotice r.attached (nsidOf x)
      (setNs (nsidOf x) { r with attached := r.attached - m } s))) := by
  simp [execNsDetach, hx, hin, hm, hns, hall]

end

end

/-- Settles O47: one lemma per command and action, for the case that the premises name. -/
theorem identifyAndNamespaces : Obligations.IdentifyAndNamespaces :=
  ⟨fun _ _ _ hx hready hcns => execIdentify_controller hx hready hcns,
    fun _ _ _ hx hready hcns hone hat =>
      (execIdentify_namespace hx hready hcns hone).trans (congrArg Host.Outcome.next (if_pos hat)),
    fun _ _ _ hx hready hcns hone hat =>
      (execIdentify_namespace hx hready hcns hone).trans (congrArg Host.Outcome.next (if_neg (by simp [hat]))),
    fun _ _ _ _ hx hn hoff => execVmSecondaryOffline_offline hn hx hoff,
    fun _ _ _ _ hx hn hon => execVmSecondaryOffline_online hn hx hon rfl,
    fun _ _ _ _ hx hn hoff hkind hown hall => execVmSecondaryAssign_queues hn hx hoff hkind rfl hown hall,
    fun _ _ _ _ hx hn hon => execVmSecondaryAssign_refusesOnline hn hx hon,
    fun _ _ _ _ hx hn hq hv hoff => execVmSecondaryOnline_idle hn hx hq hv rfl hoff,
    fun _ _ _ _ hx hn hq => execVmSecondaryOnline_fewQueues hn hx hq,
    fun _ _ _ hx => execVmPrimaryFlex_refuses hx,
    fun _ _ _ _ _ _ hx hin hcap hsize hfmt hres hdps hprof hawu hn hroom hexts =>
      execNsCreate_makes hx hin ⟨hcap, hsize, hfmt, hres, hdps, hprof, hawu⟩ hn rfl rfl hroom hexts rfl,
    fun _ _ _ _ _ hx hin hsize => execNsCreate_refusesEmpty hx hin hsize,
    fun _ _ _ _ hcmd hadmin hop hact hgranted hlast hns =>
      execNsDelete_drops hcmd hadmin hgranted hlast rfl hns hop hact rfl rfl,
    fun _ _ _ _ hcmd hadmin hop hgranted hlast hns hfmt =>
      execFormatNvm_formats hcmd hadmin hgranted hlast rfl hns hop hfmt rfl rfl rfl rfl,
    fun _ _ _ _ _ hx hin hm hns hnew hshare => execNsAttach_attaches hin hm hns hx hnew hshare,
    fun _ _ _ _ _ hx hin hm hns hold => execNsAttach_refusesAttached hin hm hns hx hold,
    fun _ _ _ _ _ hx hin hm hns hall => execNsDetach_detaches hin hm hns hx hall⟩

end Sys2Proof.Proofs
end

section
/-! PROOFS. The host's commands answer: each of them is ordinary. -/

namespace Sys2Proof.Proofs

open Sys2Proof Sys2Proof.Machine Sys2Proof.Laws

/-- Settles O3: each command named is ordinary, so `exec_kept_of_ordinary` answers for it. -/
theorem hostCommandsComplete : Obligations.HostCommandsComplete := by
  unfold Obligations.HostCommandsComplete
  and_intros
  all_goals
    intros
    exact exec_kept_of_ordinary (by simp [Ordinary]) _

end Sys2Proof.Proofs
end

section
/-! PROOFS. Requests of the host to a function whose memory space is off (R294). -/

namespace Sys2Proof.Proofs

open Sys2Proof Sys2Proof.Machine Sys2Proof.Laws

/-! ### Dropped requests, by command -/

theorem memEnabled_off {f : Nat} {s : State}
    (hoff : fld F.CFG_PSTATE f s = 3 ∨ (if f = 0 then flag F.CFG_MSE 0 s else flag F.VF_MSE 0 s) = false) :
    memEnabled s f = false := by
  rcases hoff with hsleep | hmse
  · simp [memEnabled, hsleep]
  · rw [memEnabled, hmse, Bool.and_false]

section
variable {f : Fin 64} {s : State} (hdeaf : deaf s = false) (hoff : memEnabled (inbound s) f = false)
include hdeaf hoff

theorem execCmbRead_disabled (off : BitVec 22) (n : Fin 4097) :
    execCmbRead f off n s = .next (barDrop f false (bar2 (inbound s) f + off.toNat) n.val (inbound s)) := by
  simp [execCmbRead, hdeaf, hoff]

theorem execCmbWrite_disabled (off : BitVec 22) (bs : List (Option Byte)) (ep : Bool) :
    execCmbWrite f off bs ep s = .next (barDrop f true (bar2 (inbound s) f + off.toNat) bs.length (inbound s)) := by
  simp [execCmbWrite, hdeaf, hoff]

theorem execSqTailDoorbell_disabled (q : Fin 65) (v : BitVec 32) :
    execSqTailDoorbell f q v s = .next (barDrop f true (bar0 (inbound s) f + 0x1000 + 8 * q) 4 (inbound s)) := by
  simp [execSqTailDoorbell, hdeaf, hoff]

theorem execCqHeadDoorbell_disabled (q : Fin 65) (v : BitVec 32) :
    execCqHeadDoorbell f q v s = .next (barDrop f true (bar0 (inbound s) f + 0x1004 + 8 * q) 4 (inbound s)) := by
  simp [execCqHeadDoorbell, hdeaf, hoff]

theorem execCcEnable_disabled (w : BusW) :
    execCcEnable f w s = .next (barDrop f true (bar0 (inbound s) f + 0x14) 4 (inbound s)) := by
  simp [execCcEnable, hdeaf, hoff]

theorem execCcDisable_disabled (w : BusW) :
    execCcDisable f w s = .next (barDrop f true (bar0 (inbound s) f + 0x14) 4 (inbound s)) := by
  simp [execCcDisable, hdeaf, hoff]

theorem execCcShutdown_disabled (w : BusW) :
    execCcShutdown f w s = .next (barDrop f true (bar0 (inbound s) f + 0x14) 4 (inbound s)) := by
  simp [execCcShutdown, hdeaf, hoff]

theorem execIntmsWrite_disabled (w : BusW) :
    execIntmsWrite f w s = .next (barDrop f true (bar0 (inbound s) f + 0x0C) 4 (inbound s)) := by
  simp [execIntmsWrite, hdeaf, hoff]

theorem execIntmcWrite_disabled (w : BusW) :
    execIntmcWrite f w s = .next (barDrop f true (bar0 (inbound s) f + 0x10) 4 (inbound s)) := by
  simp [execIntmcWrite, hdeaf, hoff]

theorem execMsixUnmask_disabled (v : Fin 2048) :
    execMsixUnmask f (some v) s = .next (barDrop f true (bar4 (inbound s) f + 16 * v.val + 12) 4 (inbound s)) := by
  simp [execMsixUnmask, hdeaf, hoff]

variable {a : Nat} (n : Nat)

theorem hostRead_bar0_disabled (ha : hostSpace f.val a = 2) :
    hostRead f a n s = barDrop f false (bar0 (inbound s) f + a % 0x10000) n (inbound s) := by
  simp [hostRead, hdeaf, hoff, ha]

theorem hostRead_bar4_disabled (ha : hostSpace f.val a = 3) :
    hostRead f a n s = barDrop f false (bar4 (inbound s) f + a % 0x10000) n (inbound s) := by
  simp [hostRead, hdeaf, hoff, ha]

theorem hostWrite_bar0_disabled (d : Nat) (ep : Bool) (ha : hostSpace f.val a = 2) :
    hostWrite f a n d ep s = barDrop f true (bar0 (inbound s) f + a % 0x10000) n (inbound s) := by
  simp [hostWrite, hdeaf, hoff, ha]

theorem hostWrite_bar4_disabled (d : Nat) (ep : Bool) (ha : hostSpace f.val a = 3) :
    hostWrite f a n d ep s = barDrop f true (bar4 (inbound s) f + a % 0x10000) n (inbound s) := by
  simp [hostWrite, hdeaf, hoff, ha]

end

/-! ### What is left of a logged error -/

/-- What signalling an error of function `f` cannot undo: `P` stays through every write to another register than the
uncorrectable error status of `f`, and through every TLP that leaves or waits. -/
structure Lasting (f : Nat) (P : State → Prop) : Prop where
  wr : ∀ {r : RegDef} {i v : Nat} {s : State}, r.addr i 0 ≠ R.CFG_UESTS.addr f 0 → P s → P (wr r i 0 v s)
  emit : ∀ {o : Output} {s : State}, P s → P (emit o s)
  held : ∀ {l : List Output} {s : State}, P s → P { s with cpr := { s.cpr with held := l } }

section
variable {f : Nat} {P : State → Prop} {s : State} (hP : Lasting f P)
include hP

theorem Lasting.devSts (b : Nat) (h : P s) : P (devSts f b s) :=
  hP.wr (by simp [RegDef.addr, R.CFG_DEVCTL, R.CFG_UESTS]) h

theorem Lasting.cmdSts (b : Nat) (h : P s) : P (cmdSts f b s) :=
  hP.wr (by simp [RegDef.addr, R.CFG_CMD, R.CFG_UESTS]) h

theorem Lasting.ceSts (b : Nat) (h : P s) : P (putFBit F.CE_STS f b true s) :=
  hP.wr (by simp [RegDef.addr, F.CE_STS, R.CFG_CESTS, R.CFG_UESTS]) h

theorem Lasting.wakeLink (h : P s) : P (wakeLink s) := by
  unfold Machine.wakeLink
  split
  · exact hP.wr (by simp [RegDef.addr, F.HIF_LINK_STAT_LSTATE, R.HIF_LINK_STAT, R.CFG_UESTS]; omega) h
  · exact h

theorem Lasting.toHost (o : Output) (h : P s) : P (toHost o s) := by
  unfold Machine.toHost
  split
  · exact h
  · split
    · exact hP.held h
    · exact hP.emit (hP.wakeLink h)

theorem Lasting.errMsg (k : Nat) (ask : Bool) (h : P s) : P (errMsg f k ask s) := by
  unfold Machine.errMsg
  extract_lets serr t
  have ht : P t := by
    dsimp only [t]
    split
    · exact hP.cmdSts 30 h
    · exact h
  split
  · exact hP.toHost _ ht
  · exact ht

/-- Once the status bit and the header of an uncorrectable error are written, signalling it undoes nothing. -/
theorem Lasting.aerUnc (b : Nat) (advisory : Bool) (hdr : TlpHdr)
    (h : P (putFBit F.UE_STS f b true (if fld F.UE_STS f s == 0 then
      put F.AER_FIRST f b (if hasHeader b then headerLog f hdr s else s) else s))) :
    P (aerUnc f b advisory hdr s) := by
  unfold Machine.aerUnc
  extract_lets first t fatal ask v w
  have hv : P v := by
    refine hP.devSts _ ?_
    split
    · exact hP.devSts 3 h
    · exact h
  have hw : P w := hP.ceSts 13 hv
  split
  · exact hv
  · split
    · exact hP.errMsg _ _ hv
    · split
      · split
        · exact hP.toHost _ hw
        · exact hw
      · exact hP.errMsg _ _ hv

end

/-! ### The completion with Unsupported Request leaves, and the error's status bit is set -/

theorem lasting_mem_out (f : Nat) (o : Output) : Lasting f (fun s => o ∈ s.out) :=
  ⟨fun _ h => h, List.mem_cons_of_mem _, fun h => h⟩

theorem lasting_ueSts (f b : Nat) : Lasting f (fun s => bit F.UE_STS f b s = true) where
  wr hr h := by
    rwa [bit, fld, fld2, rd_wr_other (q := F.UE_STS.reg) _ _ hr]
  emit h := h
  held h := h

theorem mem_out_toHost {o : Output} {s : State} (hdeaf : deaf s = false) (hup : hostLinkUp s = true) :
    o ∈ (toHost o s).out := by
  obtain ⟨⟨hfrozen, hhost⟩, -⟩ : (s.cpr.frozen = false ∧ s.cpr.hostOff = false) ∧ s.cpr.aonSleep = false := by
    simpa [deaf] using hdeaf
  simp [toHost, hfrozen, hhost, hup, emit]

theorem mem_out_aerUnc {f b : Nat} {advisory : Bool} {hdr : TlpHdr} {o : Output} {s : State} (h : o ∈ s.out) :
    o ∈ (aerUnc f b advisory hdr s).out := by
  refine (lasting_mem_out f o).aerUnc b advisory hdr ?_
  rw [putFBit, put_out]
  split
  · rw [put_out]
    split
    · exact h
    · exact h
  · exact h

theorem bit_ueSts_aerUnc {f b : Nat} {advisory : Bool} {hdr : TlpHdr} {s : State} (hb : b < 32) :
    bit F.UE_STS f b (aerUnc f b advisory hdr s) = true := by
  refine (lasting_ueSts f b).aerUnc b advisory hdr ?_
  rw [bit, putFBit, fld_put _ _ _ (by decide) (by decide), Nat.testBit_mod_two_pow, testBit_putBit_true]
  simp [F.UE_STS, hb]

/-- Settles O22: what each request drops, and of the dropped request what stays through its logging (`Lasting`). -/
theorem disabledMemorySpace : Obligations.DisabledMemorySpace := by
  intro f s u hdeaf hu hon hperst _ hoff
  subst hu
  have hmem := memEnabled_off hoff
  have hlive : (fnOn (inbound s) f && !(inbound s).cpr.perst) = true := by simp [hon, hperst]
  refine ⟨execCmbRead_disabled hdeaf hmem, fun _ n ha => congrArg _ (hostRead_bar0_disabled hdeaf hmem n ha),
    fun _ n ha => congrArg _ (hostRead_bar4_disabled hdeaf hmem n ha), ?completion,
    execSqTailDoorbell_disabled hdeaf hmem, execCqHeadDoorbell_disabled hdeaf hmem, fun w =>
      ⟨execCcEnable_disabled hdeaf hmem w, execCcDisable_disabled hdeaf hmem w, execCcShutdown_disabled hdeaf hmem w,
        execIntmsWrite_disabled hdeaf hmem w, execIntmcWrite_disabled hdeaf hmem w⟩,
    execMsixUnmask_disabled hdeaf hmem, execCmbWrite_disabled hdeaf hmem,
    fun _ n d ep ha => congrArg _ (hostWrite_bar0_disabled hdeaf hmem n d ep ha),
    fun _ n d ep ha => congrArg _ (hostWrite_bar4_disabled hdeaf hmem n d ep ha), ?status⟩
  case completion =>
    intro a n r hr hdeaf' hup
    rw [barDrop, if_pos hlive]
    exact mem_out_aerUnc (by subst hr; exact mem_out_toHost hdeaf' hup)
  case status =>
    intro a n
    rw [barDrop, if_pos hlive]
    exact bit_ueSts_aerUnc (by decide)

end Sys2Proof.Proofs
end

section
/-! PROOFS. The host link, its resets and function-level reset (R282–R284, R298, R313, R314, R317, R530–R533, R568). -/

namespace Sys2Proof.Proofs

open Sys2Proof Sys2Proof.Machine Sys2Proof.Laws

section
variable {s : State}

/-! ### Resets, and L1 (R298, R313, R314, R317, R530, R531) -/

theorem execPerstAssert_resets (hperst : s.cpr.perst = false) :
    execPerstAssert s = .next (hostReset { standbyWake s with
      cpr := { (standbyWake s).cpr with perst := true, perstAt := (standbyWake s).time } }) := by
  simp [execPerstAssert, hperst]

theorem execPerstDeassert_detects {u : State} (hsleep : s.cpr.aonSleep = false)
    (hu : u = setFn 0 { fnr (standbyWake s) 0 with resetting := true }
      { standbyWake s with cpr := { (standbyWake s).cpr with perst := false } })
    (hstage : u.cpr.stage = 3) (hdetect : fld F.HIF_LINK_STAT_LSTATE 0 u = 0) :
    execPerstDeassert s = .next (put F.HIF_LINK_STAT_LSTATE 0 1 u) := by
  have hdeassert : execPerstDeassert s = .next
      (if u.cpr.stage = 3 && fld F.HIF_LINK_STAT_LSTATE 0 u = 0 then put F.HIF_LINK_STAT_LSTATE 0 1 u else u) := by
    rw [execPerstDeassert, hsleep, hu]
    rfl
  simp [hdeassert, hstage, hdetect]

theorem execLinkResetEvent_hotReset (hperst : (hostReset s).cpr.perst = false) :
    execLinkResetEvent .hotReset s = .next (put F.HIF_LINK_STAT_LSTATE 0 1 (hostReset s)) := by
  simp [execLinkResetEvent, hperst]

theorem execLinkResetEvent_linkDown (hperst : (hostReset (count F.HIF_LINK_ERR_DOWN 0 s)).cpr.perst = false) :
    execLinkResetEvent .linkDown s =
      .next (put F.HIF_LINK_STAT_LSTATE 0 1 (hostReset (count F.HIF_LINK_ERR_DOWN 0 s))) := by
  simp [execLinkResetEvent, hperst]

theorem execAspmL1Entry_enters (hl0 : fld F.HIF_LINK_STAT_LSTATE 0 s = 2) (hidle : fld F.HIF_LINK_CTL_L1_IDLE 0 s ≠ 0)
    (haspm : (rd R.CFG_LINKCTL 0 0 s).testBit 1 = true) (hsub : (rd R.CFG_L1PMCTL 0 0 s).testBit 3 = false) :
    execAspmL1Entry s = .next (put F.HIF_LINK_STAT_LSTATE 0 4 s) := by
  simp [execAspmL1Entry, hl0, hidle, haspm, hsub]

theorem execFlr_vf {f : Fin 64} (hdeaf : deaf s = false) (hready : cfgReady (inbound s) f = true) (hf : f.val ≠ 0) :
    execFlr f s = .next (setFn f { fnr (fnReset f (inbound s)) f with resetting := true } (fnReset f (inbound s))) := by
  simp [execFlr, hdeaf, hready, hf]

/-! ### A trained link (R282–R284) -/

/-- LINK_STAT as the end of training leaves it: in L0, at the rate and width agreed, and in FLIT mode or not. -/
def linkAt (speed width flit : Nat) (s : State) : State :=
  put F.HIF_LINK_STAT_FLIT 0 flit (put F.HIF_LINK_STAT_LSTATE 0 2 (put F.HIF_LINK_STAT_SPEED 0 speed
    (put F.HIF_LINK_STAT_WIDTH 0 width s)))

/-- `fld_put_apart` with what `decide` shows of the two fields in one premise. -/
theorem fld_put_beside {f g : Field} (i v : Nat) (hr : f.reg = g.reg)
    (h : f.lo ≤ f.hi ∧ g.lo ≤ g.hi ∧ f.hi < 64 ∧ (f.hi < g.lo ∨ g.hi < f.lo)) :
    fld g i (put f i v s) = fld g i s :=
  fld_put_apart i v s hr h.1 h.2.1 h.2.2.1 h.2.2.2

theorem linkAt_state (speed width flit : Nat) : fld F.HIF_LINK_STAT_LSTATE 0 (linkAt speed width flit s) = 2 := by
  rw [linkAt, fld_put_beside _ _ (by rfl) (by decide), fld_put _ _ _ (by decide) (by decide)]
  rfl

theorem linkAt_speed {speed : Nat} (width flit : Nat) (h : speed < 16) :
    fld F.HIF_LINK_STAT_SPEED 0 (linkAt speed width flit s) = speed := by
  rw [linkAt, fld_put_beside _ _ (by rfl) (by decide), fld_put_beside _ _ (by rfl) (by decide),
    fld_put _ _ _ (by decide) (by decide)]
  exact Nat.mod_eq_of_lt h

theorem linkAt_width (speed flit : Nat) {width : Nat} (h : width < 8) :
    fld F.HIF_LINK_STAT_WIDTH 0 (linkAt speed width flit s) = width := by
  rw [linkAt, fld_put_beside _ _ (by rfl) (by decide), fld_put_beside _ _ (by rfl) (by decide),
    fld_put_beside _ _ (by rfl) (by decide), fld_put _ _ _ (by decide) (by decide)]
  exact Nat.mod_eq_of_lt h

theorem linkAt_onlyRegs (speed width flit : Nat) : OnlyRegs s (linkAt speed width flit s) :=
  put_onlyRegs _ _ _ (put_onlyRegs _ _ _ (put_onlyRegs _ _ _ (put_onlyRegs _ _ _ (.refl s))))

theorem OnlyRegs.setCpr {t : State} (h : OnlyRegs s t) (c : Cpr) :
    { t with cpr := c } = { s with regs := t.regs, cpr := c } := by
  unfold OnlyRegs at h
  rw [h]

/-- With training ended within the caps, the clocking mode of the board decides. -/
theorem execLinkTrained_ends {speed width : Fin 8} (flit : Bool) (hperst : s.cpr.perst = false)
    (hfrozen : s.cpr.frozen = false) (hhost : s.cpr.hostOff = false) (htrains : fld F.HIF_LINK_STAT_LSTATE 0 s ≠ 0)
    (hspeed : 1 ≤ speed.val) (hcapSpeed : speed.val ≤ capSpeed s)
    (hwidth : width.val = 1 ∨ width.val = 2 ∨ width.val = 4) (hcapWidth : width.val ≤ capWidth s) :
    execLinkTrained speed width flit s = if flag F.HIF_LINK_CAP_SRIS 0 s = boardSris then
      .next { linkAt speed width (flit || speed.val == 6).toNat s with
        cpr := { s.cpr with unseen := putBit s.cpr.unseen 1 false } }
    else .next (wr R.HIF_LINK_STAT 0 0 ((takeFree s).1 % 2 ^ 12) (takeFree s).2) := by
  have hw : (width.val == 1 || width.val == 2 || width.val == 4) = true := by simpa [or_assoc] using hwidth
  unfold execLinkTrained
  extract_lets w ok
  have hok : ok = true := by simp [ok, w, hperst, hfrozen, hhost, htrains, hspeed, hcapSpeed, hw, hcapWidth]
  rw [hok, Bool.not_true, if_neg Bool.false_ne_true]
  by_cases hsris : flag F.HIF_LINK_CAP_SRIS 0 s = boardSris
  · rw [if_pos hsris, if_neg (by simp [hsris])]
    rfl
  · rw [if_neg hsris, if_pos (by simp [hsris])]

end

/-- Settles O39: one lemma per event of the link and per reset, for the case that the premises name; the end of training
splits on the clocking mode of the board. -/
theorem hostLinkAndResets : Obligations.HostLinkAndResets := by
  refine ⟨fun _ hperst => execPerstAssert_resets hperst,
    fun _ hsleep hstage hdetect => execPerstDeassert_detects hsleep rfl hstage hdetect,
    fun _ hperst => execLinkResetEvent_hotReset hperst, fun _ hperst => execLinkResetEvent_linkDown hperst, ?trained,
    fun _ hl0 hidle haspm hsub => execAspmL1Entry_enters hl0 hidle haspm hsub,
    fun _ _ hdeaf hready hf => execFlr_vf hdeaf hready hf, fun _ _ => rfl⟩
  case trained =>
    intro speed width flit s hperst hfrozen hhost htrains hspeed hcapSpeed hwidth hcapWidth
    have htrained := execLinkTrained_ends flit hperst hfrozen hhost htrains hspeed hcapSpeed hwidth hcapWidth
    have hstate := linkAt_state (s := s) speed width (flit || speed.val == 6).toNat
    have hrate := linkAt_speed (s := s) width (flit || speed.val == 6).toNat (show speed.val < 16 by omega)
    have hlanes := linkAt_width (s := s) speed (flit || speed.val == 6).toNat width.isLt
    have hregs := linkAt_onlyRegs (s := s) speed width (flit || speed.val == 6).toNat
    generalize linkAt speed width (flit || speed.val == 6).toNat s = v at htrained hstate hrate hlanes hregs
    by_cases hsris : flag F.HIF_LINK_CAP_SRIS 0 s = boardSris
    · rw [if_pos hsris] at htrained
      exact ⟨_, htrained, fun _ => ⟨hstate, hrate, hlanes, hregs.setCpr _⟩, by rw [hregs.setCpr]⟩
    · rw [if_neg hsris] at htrained
      exact ⟨_, htrained, fun hsame => absurd hsame hsris, rfl⟩

end Sys2Proof.Proofs
end

section
/-! PROOFS. Doorbells and controller registers (R296, R310, R311, R313, R321, R324, R325, R331, R359). -/

namespace Sys2Proof.Proofs

open Sys2Proof Sys2Proof.Machine Sys2Proof.Laws

section
variable {f : Fin 64} {s : State}

/-! ### Doorbells (R324, R325) -/

theorem execSqTailDoorbell_deaf (q : Fin 65) (v : BitVec 32) (hdeaf : deaf s = true) :
    execSqTailDoorbell f q v s = .next s := by
  simp [execSqTailDoorbell, hdeaf]

theorem execSqEntryFetched_joins {q : Fin 65} {r : HostReq} {x : Sq}
    (hdone : Tab.get? s.deck.reqs (doneKey f q) = some r) (hsq : sq s f q = some x) :
    execSqEntryFetched f q s = .next (restLink (fetchAfter f q (setSq f q
      { x with got := x.got ++ (List.range (r.len / 64)).map (fun i => (r.got.drop (64 * i)).take 64) }
      { s with deck := { s.deck with reqs := Tab.erase s.deck.reqs (doneKey f q) } }))) := by
  simp only [execSqEntryFetched, hdone, hsq]

section
variable (hdeaf : deaf s = false) (hmem : memEnabled (inbound s) f = true)
include hdeaf hmem

section
variable {q : Fin 65} {v : BitVec 32} (hsafe : flag F.FLT_STAT_SAFE 0 (inbound s) = false)
include hsafe

theorem execSqTailDoorbell_moves {x : Sq} (hsq : sq (inbound s) f q = some x) (hin : v.toNat % 65536 < x.size)
    (hfree : ringSpan x.size x.head x.tail ≤ ringSpan x.size x.head (v.toNat % 65536)) :
    execSqTailDoorbell f q v s =
      .next (fetchSq f q (setSq f q { x with tail := v.toNat % 65536 } (inbound s))) := by
  simp [execSqTailDoorbell, hdeaf, hmem, hsafe, hsq, Nat.not_le.2 hin, Nat.not_lt.2 hfree]

theorem execSqTailDoorbell_noQueue (hsq : sq (inbound s) f q = none) :
    execSqTailDoorbell f q v s = .next (doorbellBad f 0 (inbound s)) := by
  simp [execSqTailDoorbell, hdeaf, hmem, hsafe, hsq]

theorem execSqTailDoorbell_beyond {x : Sq} (hsq : sq (inbound s) f q = some x) (hout : x.size ≤ v.toNat % 65536) :
    execSqTailDoorbell f q v s = .next (doorbellBad f 1 (inbound s)) := by
  simp [execSqTailDoorbell, hdeaf, hmem, hsafe, hsq, hout]

/-- A function other than 0 has no interrupt pin that follows its queues (R311). -/
theorem execCqHeadDoorbell_moves {c : Cq} (hf : f.val ≠ 0) (hcq : cq (inbound s) f q = some c)
    (hin : v.toNat % 65536 < c.size)
    (hposted : ringSpan c.size c.head (v.toNat % 65536) ≤ ringSpan c.size c.head c.tail) :
    execCqHeadDoorbell f q v s = .next (setCq f q { c with head := v.toNat % 65536 } (inbound s)) := by
  simp [execCqHeadDoorbell, hdeaf, hmem, hsafe, hcq, Nat.not_le.2 hin, Nat.not_lt.2 hposted, hf]

theorem execCqHeadDoorbell_beyond {c : Cq} (hcq : cq (inbound s) f q = some c) (hout : c.size ≤ v.toNat % 65536) :
    execCqHeadDoorbell f q v s = .next (doorbellBad f 1 (inbound s)) := by
  simp [execCqHeadDoorbell, hdeaf, hmem, hsafe, hcq, hout]

end

/-! ### Controller registers (R310, R313, R321) -/

section
variable {w : BusW}

theorem execCcEnable_enables (hwrote : wrote1 0 w = true)
    (hoff : flag F.CC_EN f (busWrite R.NVME_CC f 0 w (inbound s)) = false) :
    execCcEnable f w s = .next (readyUpdate f (adminQueues f (put F.CC_EN f 1
      (busWrite R.NVME_CC f 0 w (inbound s))))) := by
  simp [execCcEnable, hdeaf, hmem, hwrote, hoff]

theorem execCcDisable_resets (hwrote : wrote0 0 w = true)
    (hon : flag F.CC_EN f (busWrite R.NVME_CC f 0 w (inbound s)) = true) :
    execCcDisable f w s = .next (wr R.NVME_CSTS f 0 0 (wr R.VFW_STAT f 0 0
      (fnResetDeck f (put F.CC_EN f 0 (busWrite R.NVME_CC f 0 w (inbound s)))))) := by
  simp [execCcDisable, hdeaf, hmem, hwrote, hon]

theorem execCcShutdown_starts (hbyte : w.be.testBit 1 = true)
    (hshn : bitsOf w.data 15 14 = 1 ∨ bitsOf w.data 15 14 = 2) :
    execCcShutdown f w s = .next (put F.CSTS_SHST f 2 (put F.CC_SHN f (bitsOf w.data 15 14)
      (busWrite R.NVME_CC f 0 w (inbound s)))) := by
  simp [execCcShutdown, hdeaf, hmem, hbyte, hshn]

end

theorem execIntmsWrite_masks (w : BusW) :
    execIntmsWrite f w s = .next (if f.val = 0 then intxUpdate (msiPend
        (put F.INTMS f (fld F.INTMS f (inbound s) ||| (w.data &&& beMask 4 w.be)) (inbound s)))
      else put F.INTMS f (fld F.INTMS f (inbound s) ||| (w.data &&& beMask 4 w.be)) (inbound s)) := by
  simp [execIntmsWrite, hdeaf, hmem]

theorem execIntmcWrite_unmasks (w : BusW) :
    execIntmcWrite f w s = .next (if f.val = 0 then intxUpdate (flushMsi (put F.INTMS f
        (fld F.INTMS f (inbound s) - (fld F.INTMS f (inbound s) &&& (w.data &&& beMask 4 w.be))) (inbound s)))
      else put F.INTMS f
        (fld F.INTMS f (inbound s) - (fld F.INTMS f (inbound s) &&& (w.data &&& beMask 4 w.be))) (inbound s)) := by
  simp [execIntmcWrite, hdeaf, hmem]

end

end

/-- Settles O40: one lemma per doorbell and per controller register, for the case that the premises name. -/
theorem doorbellsAndControllers : Obligations.DoorbellsAndControllers :=
  ⟨fun _ _ _ _ _ hdeaf hmem hsafe hsq hin hfree => execSqTailDoorbell_moves hdeaf hmem hsafe hsq hin hfree,
    fun _ _ _ _ hdeaf hmem hsafe hsq => execSqTailDoorbell_noQueue hdeaf hmem hsafe hsq,
    fun _ _ _ _ _ hdeaf hmem hsafe hsq hout => execSqTailDoorbell_beyond hdeaf hmem hsafe hsq hout,
    fun _ _ _ _ _ hdeaf hmem hsafe hf hcq hin hposted =>
      execCqHeadDoorbell_moves hdeaf hmem hsafe hf hcq hin hposted,
    fun _ _ _ _ _ hdeaf hmem hsafe hcq hout => execCqHeadDoorbell_beyond hdeaf hmem hsafe hcq hout,
    fun _ _ _ _ _ hdone hsq => execSqEntryFetched_joins hdone hsq,
    fun _ q v _ hdeaf hoff => execSqTailDoorbell_disabled hdeaf hoff q v,
    fun _ q v _ hdeaf => execSqTailDoorbell_deaf q v hdeaf,
    fun _ _ _ hdeaf hmem hwrote hoff => execCcEnable_enables hdeaf hmem hwrote hoff,
    fun _ _ _ hdeaf hmem hwrote hon => execCcDisable_resets hdeaf hmem hwrote hon,
    fun _ _ _ hdeaf hmem hbyte hshn => execCcShutdown_starts hdeaf hmem hbyte hshn,
    fun _ w _ hdeaf hmem hf => (execIntmsWrite_masks hdeaf hmem w).trans (congrArg _ (if_neg hf)),
    fun w _ hdeaf hmem => execIntmsWrite_masks hdeaf hmem w,
    fun w _ hdeaf hmem => execIntmcWrite_unmasks hdeaf hmem w⟩

end Sys2Proof.Proofs
end

section
/-! PROOFS. The controller memory buffer, bus mastering, power states and virtual functions (R288, R292, R301–R307, R313,
R316, R359, R360). -/

namespace Sys2Proof.Proofs

open Sys2Proof Sys2Proof.Machine Sys2Proof.Laws

section
variable {f : Fin 64} {s : State}

/-! ### A stall that lasts (R303, R306, R359, R360) -/

theorem execBmeStallExpire_early {t : Nat} (hstall : (fnr s f).stall = some t)
    (hearly : s.time < t + 1000000 * fld1 F.HIF_BME_LIMIT_MS 0 s) : execBmeStallExpire f s = .next s := by
  simp [execBmeStallExpire, hstall, hearly]

@[simp] theorem each_nil {α σ : Type} (g : α → σ → σ) (v : σ) : each [] g v = v := rfl

/-- With no command in the deck, what is left of a stall's end is the reset of the function's part of it. -/
theorem execBmeStallExpire_idle {t : Nat} {u v : State} (hstall : (fnr s f).stall = some t)
    (hlate : t + 1000000 * fld1 F.HIF_BME_LIMIT_MS 0 s ≤ s.time) (hidle : Tab.vals s.deck.cmds = [])
    (hu : u = fnResetDeck f s)
    (hv : v = each (sortBy (·.ord) (Tab.vals u.deck.cmds))
      (fun x z => if x.fn == f && detached x then writeCommit x.slot z else z) u) :
    execBmeStallExpire f s = .next (restLink (fatalNow f (report 41 (some f) 12 0 0 0
      (put F.VFW_STAT_BME_FATAL f 1 (setFn f { fnr v f with silent := true } v))))) := by
  have hnone : sortBy (·.ord) (Tab.vals s.deck.cmds) = [] := by rw [hidle]; rfl
  subst hv hu
  simp only [execBmeStallExpire, hstall, Nat.not_lt.2 hlate, decide_false, Bool.false_eq_true, if_false, hnone,
    each_nil]

section
variable (hdeaf : deaf s = false)
include hdeaf

/-! ### The CMB (R292, R301, R302) -/

theorem execCmbRead_answers {off : BitVec 22} {n : Fin 4097} (hmem : memEnabled (inbound s) f = true) :
    execCmbRead f off n s = .next (each (cutCpls (rcb (inbound s)) (mps (inbound s) f) off.toNat
      ((List.range n.val).map (fun k =>
        if off.toNat + k < (if barOpen (inbound s) f then (share (inbound s) f).2 else 0) then
          (cmbByte (inbound s) ((share (inbound s) f).1 + off.toNat + k),
            (inbound s).deck.cmbPois.contains (((share (inbound s) f).1 + off.toNat + k) / 64))
        else ((0 : Byte), false))))
      (fun c u => poisOut c.2 (toHost (.cpl f c.1 c.2) u)) (inbound s)) := by
  simp only [execCmbRead, hdeaf, hmem, Bool.not_true, Bool.false_eq_true, if_false]

/-! ### Bus mastering and power states (R303–R307, R316) -/

section
variable (hready : cfgReady (inbound s) f = true)
include hready

theorem execBmeClear_stalls (hon : flag F.CFG_BME f (inbound s) = true) :
    execBmeClear f s = .next (stallStart f (put F.CFG_BME f 0 (inbound s))) := by
  simp [execBmeClear, hdeaf, hready, hon]

theorem execBmeSet_resumes {v : State}
    (hv : v = setFn f { fnr (put F.CFG_BME f 1 (inbound s)) f with bmeSeen := true } (put F.CFG_BME f 1 (inbound s)))
    (hd0 : fld F.CFG_PSTATE f v = 0) : execBmeSet f s = .next (stallEnd f v) := by
  subst hv
  simp only [execBmeSet, hdeaf, hready, Bool.not_true, Bool.false_eq_true, if_false, hd0, if_true]

theorem execPowerStateD3hot_stalls (hmaster : busMaster (inbound s) f = true) :
    execPowerStateD3hot f s = .next (restLink (stallStart f (put F.CFG_PSTATE f 3 (inbound s)))) := by
  simp [execPowerStateD3hot, hdeaf, hready, hmaster]

theorem execPowerStateD0_resumes {u : State} (hu : u = wakeLink (put F.CFG_PSTATE f 0 (inbound s)))
    (hbme : flag F.CFG_BME f u = true) (hstall : (fnr u f).stall.isSome = true) :
    execPowerStateD0 f s = .next (stallEnd f u) := by
  subst hu
  simp [execPowerStateD0, hdeaf, hready, hbme, hstall]

end

/-! ### Virtual functions (R288, R313) -/

section
variable {w : BusW} (hready : cfgReady (inbound s) 0 = true)
include hready

theorem execVfEnable_sets (hwrote : wrote1 0 w = true) :
    execVfEnable w s = .next (put F.VF_EN 0 1 (busWrite R.CFG_SRIOVCTL 0 0 w (inbound s))) := by
  simp [execVfEnable, hdeaf, hready, hwrote]

theorem execVfDisable_resets (hwrote : wrote0 0 w = true)
    (hon : flag F.VF_EN 0 (busWrite R.CFG_SRIOVCTL 0 0 w (inbound s)) = true) :
    execVfDisable w s =
      .next (restLink (put F.VF_EN 0 0 (resetVfs (busWrite R.CFG_SRIOVCTL 0 0 w (inbound s))))) := by
  simp [execVfDisable, hdeaf, hready, hwrote, hon]

end

end

end

/-- Settles O41: one lemma per request and per change of power, for the case that the premises name; a write of the
CMB is its command's arm as it stands. -/
theorem hostMemoryAndPower : Obligations.HostMemoryAndPower := by
  refine ⟨?write, fun _ _ _ _ hdeaf hmem => execCmbRead_answers hdeaf hmem,
    fun _ _ hdeaf hready hon => execBmeClear_stalls hdeaf hready hon,
    fun _ _ hdeaf hready hd0 => execBmeSet_resumes hdeaf hready rfl hd0,
    fun _ _ _ hstall hlate hidle => execBmeStallExpire_idle hstall hlate hidle rfl rfl,
    fun _ _ hdeaf hready hmaster => execPowerStateD3hot_stalls hdeaf hready hmaster,
    fun _ _ hdeaf hready hbme hstall => execPowerStateD0_resumes hdeaf hready rfl hbme hstall,
    fun _ _ hdeaf hready hwrote => execVfEnable_sets hdeaf hready hwrote,
    fun _ _ hdeaf hready hwrote hon => execVfDisable_resets hdeaf hready hwrote hon,
    fun _ _ _ hstall hearly => execBmeStallExpire_early hstall hearly⟩
  case write =>
    intro f off bs ep s hdeaf u0 hmem
    have htaken : ¬ deaf s = true := by simp [hdeaf]
    have hopen : ¬ (!memEnabled u0 f) = true := by simp [hmem]
    exact (if_neg htaken).trans (if_neg hopen)

end Sys2Proof.Proofs
end

section
/-! PROOFS. Admission and chokers (R300, R325, R329–R333, R345–R349). -/

namespace Sys2Proof.Proofs

open Sys2Proof Sys2Proof.Machine Sys2Proof.Laws

section
variable {s : State}

theorem execAdmitEntry_admits {f q : Nat} (hnext : admitNext s = some (f, q)) :
    execAdmitEntry s = .next (admitFrom f q s) := by
  simp only [execAdmitEntry, hnext]

theorem execChokerEntryTake_enters {x : Cmd} (hnext : entryNext s = some x) :
    execChokerEntryTake s = .next (chkEnter (nsidOf x) (chokeRange s x).1 (chokeRange s x).2.1 (chokeRange s x).2.2
      (.cmd x.slot) (setCmd { x with phase := .chokeWait, ck := chkFree s } s)) := by
  simp only [execChokerEntryTake, hnext]

/-! ### The grant, by what holds the choker (R331, R345, R348, R349) -/

section
variable {e : Choke} {k : Nat} (hgrant : chkGrantable [] s.deck.chk = some e)
include hgrant

theorem execChokerGrant_cmd (hholder : e.holder = .cmd k) :
    execChokerGrant s = .next (cmdGranted k (chkGrant e.idx s)) := by
  simp only [execChokerGrant, hgrant, hholder]

theorem execChokerGrant_port (hholder : e.holder = .port k) :
    execChokerGrant s = .next (raiseEvent (128 + k) (put F.CHK_PORT_CTL_WAIT k 0 (put F.CHK_PORT_CTL_GRANTED k 1
      (chkGrant e.idx s)))) := by
  simp only [execChokerGrant, hgrant, hholder]

theorem execChokerGrant_salv (hholder : e.holder = .salv k) :
    execChokerGrant s = .next (salvGranted k (chkGrant e.idx s)) := by
  simp only [execChokerGrant, hgrant, hholder]

end

/-! ### Ports (R348) -/

section
variable {p : Fin 4} {w : BusW} {u : State} (hwrote : wrote1 31 w = true)
include hwrote

theorem execChkPortGo_enters {i : Nat} (hu : u = busWrite R.CHK_PORT_CTL p 0 w s)
    (hidle : flag F.CHK_PORT_CTL_GO p u = false)
    (hrange : fld F.CHK_PORT_FIRST_UNIT p u ≤ fld F.CHK_PORT_LAST_UNIT p u)
    (hns0 : fld F.CHK_PORT_CTL_NSID p u ≠ 0) (hns : fld F.CHK_PORT_CTL_NSID p u ≤ 256) (hfree : chkFree u = some i) :
    execChkPortGo p w s = .next (put F.CHK_PORT_CTL_GRANTED p 0 (put F.CHK_PORT_CTL_WAIT p 1 (put F.CHK_PORT_CTL_GO p 1
      (put F.CHK_PORT_CTL_REFUSED p 0 (put F.CHK_PORT_CTL_ENTRY p i
        (chkEnter (fld F.CHK_PORT_CTL_NSID p u) (fld F.CHK_PORT_FIRST_UNIT p u) (fld F.CHK_PORT_LAST_UNIT p u)
          (flag F.CHK_PORT_CTL_EXCL p u) (.port p) u)))))) := by
  subst hu
  simp [execChkPortGo, hwrote, hidle, Nat.not_lt.2 hrange, hns0, Nat.not_lt.2 hns, hfree]

theorem execChkPortGo_refuses (hu : u = busWrite R.CHK_PORT_CTL p 0 w s) (hidle : flag F.CHK_PORT_CTL_GO p u = false)
    (hrange : fld F.CHK_PORT_LAST_UNIT p u < fld F.CHK_PORT_FIRST_UNIT p u) :
    execChkPortGo p w s = .next (put F.CHK_PORT_CTL_REFUSED p 1 u) := by
  subst hu
  simp [execChkPortGo, hwrote, hidle, hrange]

theorem execChkPortRel_releases (hu : u = busWrite R.CHK_PORT_REL p 0 w s) (hgo : flag F.CHK_PORT_CTL_GO p u = true)
    (hentry : fld F.CHK_PORT_REL_ENTRY p u = fld F.CHK_PORT_CTL_ENTRY p u) :
    execChkPortRel p w s = .next (put F.CHK_PORT_CTL_GO p 0 (put F.CHK_PORT_CTL_WAIT p 0 (put F.CHK_PORT_CTL_GRANTED p 0
      (chkRelease (.port p) u)))) := by
  subst hu
  simp [execChkPortRel, hwrote, hgo, hentry]

end

end

/-- Settles O43: one lemma per command, and of a grant one per holder, for the case that the premises name. -/
theorem admissionAndChokers : Obligations.AdmissionAndChokers :=
  ⟨fun _ _ _ hnext => execAdmitEntry_admits hnext, fun _ _ hnext => execChokerEntryTake_enters hnext,
    fun _ _ _ hgrant hholder => execChokerGrant_cmd hgrant hholder,
    fun _ _ _ hgrant hholder => execChokerGrant_port hgrant hholder,
    fun _ _ _ hgrant hholder => execChokerGrant_salv hgrant hholder,
    fun _ _ _ _ hwrote hidle hrange hns0 hns hfree => execChkPortGo_enters hwrote rfl hidle hrange hns0 hns hfree,
    fun _ _ _ hwrote hidle hrange => execChkPortGo_refuses hwrote rfl hidle hrange,
    fun _ _ _ hwrote hgo hentry => execChkPortRel_releases hwrote rfl hgo hentry⟩

end Sys2Proof.Proofs
end

section
/-! PROOFS. The fault collector and the event fabric (chapter 14). -/

namespace Sys2Proof.Proofs

open Sys2Proof Sys2Proof.Machine Sys2Proof.Laws

section
variable {s : State}

/-! ### Faults (R459–R478) -/

theorem execCheckerConditionFalse_falls {k : Fin 256} {c : ChkInfo} (hinfo : chkInfo k.val = some c)
    (hcond : c.cond = true) (hnow : condNow s k.val = false) (hforced : condForced s k.val = false) :
    execCheckerConditionFalse k s = .next (condFalls k s) := by
  simp [execCheckerConditionFalse, hinfo, hcond, hnow, hforced]

theorem execFltAckWrite_named {w : BusW} (hbyte : w.be.testBit 0 = true) :
    execFltAckWrite w s = .next (ackClasses (w.data % 32) s) := by
  rw [execFltAckWrite, if_pos hbyte]

theorem execFltClrWrite_named {w : BusW} (hbyte : w.be.testBit 0 = true) :
    execFltClrWrite w s = .next (upTo 5 (fun c v => if (w.data % 32).testBit c then clearClass c v else v) s) := by
  simp only [execFltClrWrite, hbyte, if_true]

/-- ONCE, with both bits bad, of an event checker whose class is not FC3: it reports as injected, and the arm falls. -/
theorem execFltInjArm_once {w : BusW} {c : ChkInfo} {u : State} {n : Nat} (hen : flag F.FLT_CTL_INJ_EN 0 s = true)
    (hidle : flag F.FLT_INJ_ARM 0 s = false) (hu : u = busWrite R.FLT_INJ 0 0 w s) (hn : n = fld F.FLT_INJ_CHK 0 u)
    (hinfo : chkInfo n = some c) (hwrote : wrote1 31 w = true) (honce : fld F.FLT_INJ_MODE 0 u = 1)
    (hbits : fld F.FLT_INJ_BITS 0 u = 2) (hwhole : selfDamage u = 0) (hevent : c.cond = false) (hbase : c.base ≠ 3) :
    execFltInjArm w s = .next (put F.FLT_INJ_FIRED 0 1 (put F.FLT_INJ_ARM 0 0 (reportAt (fld F.FLT_STAT_PENDING 0 u)
      (fld F.FLT_FC3_PEND_PEND 0 u) true n none 0 0 0 0 u))) := by
  subst hu hn
  simp [execFltInjArm, hen, hidle, hinfo, hwrote, honce, hbits, hwhole, hevent, hbase]

theorem execFltChkLatchClear_clears {k : Fin 256} {w : BusW} (hwrote : wrote1 9 w = true)
    (hinfo : (chkInfo k).isSome = true) :
    execFltChkLatchClear k w s = .next (put F.FLT_CHK_LATCHED k 0 (put F.FLT_CHK_TRANSIENT k 0 s)) := by
  simp [execFltChkLatchClear, hwrote, hinfo]

/-! ### Events (R483) -/

theorem execEventClaim_claims {r : Fin 5} {n : Nat} (hclaim : claimable s r = some n) :
    execEventClaim r s = .next (emit (.value (R.EVT_CLAIM.addr r 0) (2 ^ 31 + n))
      (putFBit F.EVT_PEND_PEND (n / 32) (n % 32) false s)) := by
  simp only [execEventClaim, hclaim]

theorem execEventClaim_empty {r : Fin 5} (hclaim : claimable s r = none) :
    execEventClaim r s = .next (emit (.value (R.EVT_CLAIM.addr r 0) 0) s) := by
  simp only [execEventClaim, hclaim]

end

/-- Settles O55: one lemma per command, for the case that the premises name; where the spec gives a command one effect
for every operand, its clause is the command's arm. -/
theorem faultsAndEvents : Obligations.FaultsAndEvents := by
  refine ⟨?report, fun _ _ _ hinfo hcond hnow hforced => execCheckerConditionFalse_falls hinfo hcond hnow hforced,
    fun _ _ hbyte => execFltAckWrite_named hbyte, fun _ _ hbyte => execFltClrWrite_named hbyte, fun _ _ => rfl,
    fun _ _ => rfl, fun _ _ _ hen hidle hinfo hwrote honce hbits hwhole hevent hbase =>
      execFltInjArm_once hen hidle rfl rfl hinfo hwrote honce hbits hwhole hevent hbase,
    fun _ _ _ hwrote hinfo => execFltChkLatchClear_clears hwrote hinfo,
    fun _ _ _ hclaim => ?claimed, fun _ _ hclaim => ?empty, fun _ _ _ => rfl, fun _ _ => rfl⟩
  case report =>
    intro l k s
    simp only [exec, execCheckerReport, Bool.and_eq_true, decide_eq_true_eq, and_assoc]
  case claimed => rw [exec, execEventClaim_claims hclaim]
  case empty => rw [exec, execEventClaim_empty hclaim]

end Sys2Proof.Proofs
end

section
/-! PROOFS. Queues, Abort, asynchronous events, and features (R323, R327, R332, R334, R336, R358, R362, R363, R372). -/

namespace Sys2Proof.Proofs

open Sys2Proof Sys2Proof.Machine Sys2Proof.Laws

section
variable {k : Fin 4096} {x : Cmd} {s : State}

/-! ### Creation of queues (R323, R327) -/

section
variable {q n : Nat} (hq : q = cdw x 10 % 65536) (hcontig : (cdw x 11).testBit 0 = true)
  (hq0 : q ≠ 0) (hqmax : q ≤ ioPairs s x.fn)
include hq hcontig hq0 hqmax

section
variable (hx : adm s k 0x05 = some x) (hhost : inBar2 s x.fn (le x.sqe 24 8) = false)
include hx hhost

theorem execCreateIoCq_creates (hfree : cq s x.fn q = none) (hn : n = cdw x 10 / 65536 + 1) (hmin : 2 ≤ n)
    (hmax : n ≤ 4096) (halign : le x.sqe 24 8 % 4096 = 0) (hvec : cdw x 11 / 65536 < vecs s x.fn) :
    execCreateIoCq k s = .next (admEnd x 0 0 (setCq x.fn q
      ⟨le x.sqe 24 8, n, cdw x 11 / 65536, (cdw x 11).testBit 1, 0, 0, true, []⟩ s)) := by
  simp only [execCreateIoCq, hx, ← hq, ← hn]
  simp [hcontig, hhost, hq0, Nat.not_lt.2 hqmax, hfree, Nat.not_lt.2 hmin, Nat.not_lt.2 hmax, halign, Nat.not_le.2 hvec]

theorem execCreateIoCq_refusesUsed (hused : (cq s x.fn q).isSome = true) :
    execCreateIoCq k s = .next (admEnd x (0x101 + dnr) 0 s) := by
  subst hq
  simp [execCreateIoCq, hx, hcontig, hhost, hused]

end

theorem execCreateIoSq_creates {c : Nat} {g : Nat × Nat × Nat} (hx : adm s k 0x01 = some x)
    (hn : n = cdw x 10 / 65536 + 1) (hc : c = cdw x 11 / 65536) (hg : g = segOf s x.fn (le x.sqe 24 8) (64 * n))
    (hwhole : segsBad s x.fn false [g] = false) (hfree : sq s x.fn q = none) (hc0 : c ≠ 0)
    (hcq : (cq s x.fn c).isSome = true) (hmin : 2 ≤ n) (hmax : n ≤ 4096) (halign : le x.sqe 24 8 % 4096 = 0) :
    execCreateIoSq k s = .next (admEnd x 0 0 (setSq x.fn q ⟨g.2.1, n, c, g.1 == 1, 0, 0, 0, [], 0, [], none⟩ s)) := by
  have hcq' : (cq s x.fn c).isNone = false := by simpa using hcq
  simp only [execCreateIoSq, hx, ← hq, ← hn, ← hc, ← hg]
  simp [hcontig, hwhole, hq0, Nat.not_lt.2 hqmax, hfree, hc0, hcq', Nat.not_lt.2 hmin, Nat.not_lt.2 hmax, halign]

end

/-! ### Deletion of queues (R358, R363, R364) -/

/-- The request fetches an entry of submission queue `q` of function `f`. -/
def fetchesFrom (f q : Nat) (r : HostReq) : Bool :=
  r.fn == f && (match r.kind with | .sqFetch p _ => p == q | _ => false)

/-- The commands of the queue end first, then its fetches under way are dropped, then the queue itself goes. -/
theorem execDeleteIoSq_deletes {q : Nat} {u : State} (hx : adm s k 0x00 = some x) (hq : q = cdw x 10 % 65536)
    (hq0 : q ≠ 0) (hsq : (sq s x.fn q).isSome = true)
    (hu : u = flushReqs (fetchesFrom x.fn q) (each (ofSq s x.fn q) (fun c v => resolveWith 0x008 c v) s)) :
    execDeleteIoSq k s =
      .next (admEnd x 0 0 (setFn x.fn { fnr u x.fn with sqs := Tab.erase (fnr u x.fn).sqs q } u)) := by
  have hnone : (sq s x.fn q).isNone = false := by simpa using hsq
  subst hq hu
  simp only [execDeleteIoSq, hx]
  rw [if_neg (by simp [hq0, hnone])]
  rfl

section
variable {q : Nat} (hx : adm s k 0x04 = some x) (hq : q = cdw x 10 % 65536) (hq0 : q ≠ 0)
include hx hq hq0

/-- With no entry that waits on the queue, nothing goes with it. -/
theorem execDeleteIoCq_deletes {c : Cq} {u : State} (hcq : cq s x.fn q = some c) (hwait : c.wait = [])
    (hunused : (fnr s x.fn).sqs.any (fun e => e.2.cq == q) = false)
    (hu : u = setFn x.fn { fnr s x.fn with cqs := Tab.erase (fnr s x.fn).cqs q } s) :
    execDeleteIoCq k s = .next (admEnd x 0 0 (if x.fn = 0 then intxUpdate u else u)) := by
  subst hq hu
  simp only [execDeleteIoCq, hx, hcq, hq0, hunused, hwait, each, List.foldl_nil, Bool.false_eq_true, if_false]

theorem execDeleteIoCq_refusesInUse (hcq : (cq s x.fn q).isSome = true)
    (hused : (fnr s x.fn).sqs.any (fun e => e.2.cq == q) = true) :
    execDeleteIoCq k s = .next (admEnd x (0x10C + dnr) 0 s) := by
  obtain ⟨c, hc⟩ := Option.isSome_iff_exists.1 hcq
  subst hq
  simp only [execDeleteIoCq, hx, hc, hq0, hused, if_false, if_true]

end

/-! ### Abort and asynchronous events (R332, R334, R358, R362, R372) -/

/-- The Aborts of the function of `x` that have not ended. -/
def liveAborts (s : State) (x : Cmd) : List Cmd :=
  (Tab.vals s.deck.cmds).filter (fun c => c.fn == x.fn && isAdmin c && opc c == 8 && c.phase != .done)

/-- The commands that Abort `x` names: by submission queue and identifier, itself and ended ones left out. -/
def abortTargets (s : State) (x : Cmd) : List Cmd :=
  (Tab.vals s.deck.cmds).filter (fun c => c.fn == x.fn && c.sq == cdw x 10 % 65536 && !detached c &&
    cidOf c == cdw x 10 / 65536 && c.slot != x.slot && c.phase != .done)

section
variable (hx : adm s k 0x08 = some x) (hfew : (liveAborts s x).length ≤ 8)
include hx hfew

theorem execAbort_notFound (hnone : abortTargets s x = []) : execAbort k s = .next (admEnd x 0 1 s) := by
  unfold abortTargets at hnone
  unfold liveAborts at hfew
  simp [execAbort, hx, hnone, Nat.not_lt.2 hfew]

/-- An I/O command before its commit point can be ended whatever its phase. -/
theorem execAbort_aborts {c : Cmd} {u : State} (hone : abortTargets s x = [c]) (hio : isAdmin c = false)
    (hbefore : (c.commit && writeClass c) = false) (hu : u = resolveWith 0x007 c s) :
    execAbort k s = .next (orderGo c.fn c.sq (admEnd x 0 0 (setFn x.fn
      { fnr u x.fn with aer := (fnr u x.fn).aer.filter (· != c.slot) } u))) := by
  unfold abortTargets at hone
  unfold liveAborts at hfew
  subst hu
  simp [execAbort, hx, hone, Nat.not_lt.2 hfew, hio, hbefore]

end

section
variable (hx : adm s k 0x0C = some x)
include hx

theorem execAsyncEventRequest_waits (hnone : (fnr s x.fn).events = []) (hfew : (fnr s x.fn).aer.length < 4) :
    execAsyncEventRequest k s = .next (setCmd { x with phase := .active }
      (setFn x.fn { fnr s x.fn with aer := (fnr s x.fn).aer ++ [x.slot] } s)) := by
  simp only [execAsyncEventRequest, hx, hnone, Nat.not_le.2 hfew, if_false]

theorem execAsyncEventRequest_takesHeld {ty i : Nat} {l : List (Nat × Nat)}
    (hheld : (fnr s x.fn).events = (ty, i) :: l) :
    execAsyncEventRequest k s = .next (admEnd x 0 (ty + i * 256 + aerPage ty i * 65536)
      (setFn x.fn { fnr s x.fn with events := l } s)) := by
  simp only [execAsyncEventRequest, hx, hheld]

end

/-! ### Features (R336) -/

section
variable {fid : Nat} (hfid : fid = cdw x 10 % 256)
include hfid

/-- A feature beside Power Management, Temperature Threshold, Error Recovery, Number of Queues and Interrupt Vector
Configuration keeps its CDW11 as it is. -/
theorem execSetFeatures_stores {m : Nat} (hx : adm s k 0x09 = some x) (hm : featBits fid = some m)
    (hunsaved : (cdw x 10).testBit 31 = false) (hbits : cdw x 11 &&& m = cdw x 11) (hplain : fid ∉ [2, 4, 5, 7, 9]) :
    execSetFeatures k s = .next (admEnd x 0 0 (setFn x.fn
      { fnr s x.fn with feat := Tab.put (fnr s x.fn).feat fid (cdw x 11) } s)) := by
  subst hfid
  simp only [List.mem_cons, List.not_mem_nil, or_false, not_or] at hplain
  obtain ⟨hpower, htemp, hrecovery, hqueues, hvector⟩ := hplain
  simp [execSetFeatures, hx, hm, hunsaved, hbits, hpower, htemp, hrecovery, hqueues, hvector]

theorem execSetFeatures_refusesSave (hx : adm s k 0x09 = some x) (hm : (featBits fid).isSome = true)
    (hsave : (cdw x 10).testBit 31 = true) : execSetFeatures k s = .next (admEnd x (0x10D + dnr) 0 s) := by
  obtain ⟨m, hbits⟩ := Option.isSome_iff_exists.1 hm
  subst hfid
  simp only [execSetFeatures, hx, hbits, hsave, if_true]

/-- Temperature Threshold, Number of Queues and Interrupt Vector Configuration apart, the current value is the one kept. -/
theorem execGetFeatures_current (hx : adm s k 0x0A = some x) (hm : (featBits fid).isSome = true)
    (hplain : fid ∉ [4, 7, 9]) (hcurrent : cdw x 10 / 256 % 8 = 0) :
    execGetFeatures k s = .next (admEnd x 0 (feature s x.fn fid) s) := by
  have hnone : (featBits fid).isNone = false := by simpa using hm
  subst hfid
  simp only [List.mem_cons, List.not_mem_nil, or_false, not_or] at hplain
  obtain ⟨htemp, hqueues, hvector⟩ := hplain
  simp [execGetFeatures, hx, hnone, hcurrent, htemp, hqueues, hvector]

end

end

/-- Settles O46: one lemma per command and answer, for the case that the premises name. -/
theorem queuesAndFeatures : Obligations.QueuesAndFeatures :=
  ⟨fun _ _ _ hx hcontig hhost hq0 hqmax hfree hmin hmax halign hvec =>
      execCreateIoCq_creates rfl hcontig hq0 hqmax hx hhost hfree rfl hmin hmax halign hvec,
    fun _ _ _ hx hcontig hhost hq0 hqmax hused => execCreateIoCq_refusesUsed rfl hcontig hq0 hqmax hx hhost hused,
    fun _ _ _ hx hcontig hwhole hq0 hqmax hfree hc0 hcq hmin hmax halign =>
      execCreateIoSq_creates rfl hcontig hq0 hqmax hx rfl rfl rfl hwhole hfree hc0 hcq hmin hmax halign,
    fun _ _ _ hx hq0 hsq => execDeleteIoSq_deletes hx rfl hq0 hsq rfl,
    fun _ _ _ _ hx hcq hwait hq0 hunused => execDeleteIoCq_deletes hx rfl hq0 hcq hwait hunused rfl,
    fun _ _ _ hx hcq hq0 hused => execDeleteIoCq_refusesInUse hx rfl hq0 hcq hused,
    fun _ _ _ hx hfew hnone => execAbort_notFound hx hfew hnone,
    fun _ _ _ _ hx hfew hone hio hbefore => execAbort_aborts hx hfew hone hio hbefore rfl,
    fun _ _ _ hx hnone hfew => execAsyncEventRequest_waits hx hnone hfew,
    fun _ _ _ _ _ _ hx hheld => execAsyncEventRequest_takesHeld hx hheld,
    fun _ _ _ _ hx hm hunsaved hbits hfid => execSetFeatures_stores rfl hx hm hunsaved hbits
      ((by decide : ∀ fid ∈ [1, 8, 10, 11, 0xC1], fid ∉ [2, 4, 5, 7, 9]) _ hfid),
    fun _ _ _ hx hm hsave => execSetFeatures_refusesSave rfl hx hm hsave,
    fun _ _ _ hx hfid hcurrent =>
      have ⟨hm, hplain⟩ := (by decide : ∀ fid ∈ [1, 2, 5, 8, 10, 11, 0xC1],
        (featBits fid).isSome = true ∧ fid ∉ [4, 7, 9]) _ hfid
      execGetFeatures_current rfl hx hm hplain hcurrent⟩

end Sys2Proof.Proofs
end

section
/-! PROOFS. Get Log Page, Blaze Read, Fault Status, Sensor Read and the budget commands (R372–R375, R399, R400, R458, R462,
R479, R480, R493). -/

namespace Sys2Proof.Proofs

open Sys2Proof Sys2Proof.Machine Sys2Proof.Laws

/-! ### Numbers in byte lists -/

@[simp] theorem length_bytesOf (n v : Nat) : (bytesOf n v).length = n := by
  induction n generalizing v with
  | zero => rfl
  | succ n ih => simp [bytesOf, ih]

theorem natOf_bytesOf (n v : Nat) : natOf (bytesOf n v) = v % 256 ^ n := by
  induction n generalizing v with
  | zero => simp [bytesOf, natOf, Nat.mod_one]
  | succ n ih =>
    calc natOf (bytesOf (n + 1) v) = v % 256 + 256 * (v / 256 % 256 ^ n) := by simp [bytesOf, natOf, byte, ih]
      _ = v % 256 ^ (n + 1) := by rw [Nat.pow_succ', Nat.mod_mul]

theorem le_append_left {l : List Byte} {o n : Nat} (h : o + n ≤ l.length) (r : List Byte) :
    le (l ++ r) o n = le l o n := by
  rw [le, le, List.drop_append_of_le_length (by omega), List.take_append_of_le_length (by simp; omega)]

section
variable {l bs : List Byte} {o : Nat}

@[simp] theorem length_layAt : (layAt l o bs).length = max l.length (o + bs.length) := by
  simp only [layAt, List.length_append, List.length_take, List.length_drop, List.length_replicate]
  omega

theorem layAt_of_fits (h : o + bs.length ≤ l.length) :
    layAt l o bs = l.take o ++ (bs ++ l.drop (o + bs.length)) := by
  simp [layAt, Nat.sub_eq_zero_of_le h]

/-- Bytes laid at an offset leave what stands before it. -/
theorem le_layAt_before {p m : Nat} (h : o + bs.length ≤ l.length) (hp : p + m ≤ o) :
    le (layAt l o bs) p m = le l p m := by
  have htake : p + m ≤ (l.take o).length := by rw [List.length_take]; omega
  calc le (layAt l o bs) p m = le (l.take o) p m := by rw [layAt_of_fits h, le_append_left htake]
    _ = le (l.take o ++ l.drop o) p m := (le_append_left htake _).symm
    _ = le l p m := by rw [List.take_append_drop]

theorem le_layAt_bytesOf {n v : Nat} (h : o + n ≤ l.length) : le (layAt l o (bytesOf n v)) o n = v % 256 ^ n := by
  have htake : (l.take o).length = o := by rw [List.length_take]; omega
  rw [layAt_of_fits (by simpa using h), le, List.drop_left' htake, List.take_left' (length_bytesOf n v), natOf_bytesOf]

end

section
variable {k : Fin 4096} {x : Cmd} {s : State}

/-! ### Get Log Page and Blaze Read (R372–R375, R458) -/

section
variable (hx : adm s k 0x02 = some x) (hready : outReady s x = true)
include hx hready

/-- With RAE set the events of the page stay as they are. -/
theorem execGetLogPage_sends {b : List Byte} {o : Nat} (ho : o = cdw x 12 + cdw x 13 * 2 ^ 32)
    (hpage : logPage s x.fn (cdw x 10 % 256) = some b) (halign : o % 4 = 0) (hin : o < b.length)
    (hrae : (cdw x 10).testBit 15 = true) : execGetLogPage k s = .next (admSend x (b.drop o) 0 s) := by
  subst ho
  simp only [execGetLogPage, hx, hready, hpage, halign, Nat.not_le.2 hin, hrae]
  rfl

theorem execGetLogPage_refusesUnknown (hnone : logPage s x.fn (cdw x 10 % 256) = none) :
    execGetLogPage k s = .next (admEnd x stLogPage 0 s) := by
  simp [execGetLogPage, hx, hready, hnone]

end

theorem execBlazeRead_sends {l r : List (List Byte)} {i : Nat} (hx : adm s k 0xC4 = some x)
    (hready : outReady s x = true) (hl : l = permRecs s ++ circRecs s)
    (hi : i = (l.findIdx? (fun e => le e 4 4 == cdw x 10)).getD (permRecs s).length)
    (hr : r = (l.drop i).take (cdw x 11)) : execBlazeRead k s = .next (admSend x r.flatten r.length s) := by
  subst hr hi hl
  simp [execBlazeRead, hx, hready]

/-! ### Fault Status (R462, R479, R480) -/

section
variable (hx : adm s k 0xC5 = some x) (hready : outReady s x = true)
include hx hready

theorem execFaultStatus_sends (hread : (cdw x 10).testBit 0 = false) :
    execFaultStatus k s = .next (admSend x (faultData s x.fn) (le (faultData s x.fn) 2 1) s) := by
  simp [execFaultStatus, hx, hready, hread]

theorem execFaultStatus_refusesAck (hack : (cdw x 10).testBit 0 = true) (hfn : x.fn ≠ 0) :
    execFaultStatus k s = .next (admEnd x stPermit 0 s) := by
  simp [execFaultStatus, hx, hready, hack, hfn]

end

/-! ### Sensor Read (R493) -/

/-- The structure's head: version, flags, seconds and device time; its last 32 bytes are for temperatures. -/
def sensorHead (s : State) : List Byte :=
  structOf 48 [(0, 2, 1), (2, 2, upTo 4 (fun n m => if fld F.MGT_THM_TEMP n s = 0x8000 then m + 2 ^ (n + 1) else m)
    (fld F.MGT_STAT_RC_TIME 0 s)), (4, 4, fld F.BLZ_TIME_SECONDS 0 s % 2 ^ 32), (8, 8, s.time)]

/-- The head with the die's and the thermistors' temperatures laid over it. -/
def sensorTemps (s : State) : List Byte :=
  layAt (layAt (sensorHead s) 16 ((List.range 8).flatMap (fun k => bytesOf 2 (fld F.MGT_TEMP_TEMP k s)))) 32
    ((List.range 4).flatMap (fun n => bytesOf 2 (fld F.MGT_THM_TEMP n s)))

/-- What follows the temperatures: the supply monitors, then the ring oscillators. -/
def sensorRails (s : State) : List Byte :=
  (List.range 6).flatMap (fun n => bytesOf 2 (lowBits 16 (monMv s n)) ++ bytesOf 2 (lowBits 16 (monMa s n)) ++
    bytesOf 4 (lowBits 32 (monMw s n))) ++
  (List.range 16).flatMap (fun k => bytesOf 4 (lowBits 32 (sext 16 (fld F.MGT_RO_SLOW k s))))

theorem execSensorRead_sends (hx : adm s k 0xCA = some x) (hready : outReady s x = true) :
    execSensorRead k s = .next (admSend x (sensorTemps s ++ sensorRails s) (fld F.BLZ_TIME_SECONDS 0 s % 2 ^ 32) s) := by
  simp [execSensorRead, hx, hready, sensorTemps, sensorRails, sensorHead]

@[simp] theorem length_sensorHead : (sensorHead s).length = 48 := by simp [sensorHead, structOf]

/-- The head's first 16 bytes stand in the structure as they were laid down. -/
theorem le_sensorData {o n : Nat} (h : o + n ≤ 16) : le (sensorTemps s ++ sensorRails s) o n = le (sensorHead s) o n := by
  rw [le_append_left (by simp [sensorTemps]; omega), sensorTemps, le_layAt_before (by simp) (by omega),
    le_layAt_before (by simp) h]

theorem le_sensorHead_seconds : le (sensorHead s) 4 4 = fld F.BLZ_TIME_SECONDS 0 s % 2 ^ 32 := by
  simp only [sensorHead, structOf, List.foldl_cons, List.foldl_nil]
  rw [le_layAt_before (by simp) (by simp), le_layAt_bytesOf (by simp)]
  exact Nat.mod_mod _ _

theorem le_sensorHead_time : le (sensorHead s) 8 8 = s.time % 2 ^ 64 := by
  simp only [sensorHead, structOf, List.foldl_cons, List.foldl_nil]
  exact le_layAt_bytesOf (by simp)

/-! ### Budget Control (R399, R400) -/

theorem execBudgetQuery_answers (hx : admAct s k 0xC9 0 = some x) :
    execBudgetQuery k s = .next (admEnd x 0 (effMw s) s) := by
  simp only [execBudgetQuery, hx]

section
variable (hx : admAct s k 0xC9 1 = some x)
include hx

theorem execSetBudget_sets {u : State} (hmin : 4000 ≤ cdw x 11) (hmax : cdw x 11 ≤ 15800)
    (hu : u = beffNow (put F.GOV_BUDGET_HOST_MW 0 (cdw x 11) s)) :
    execSetBudget k s = .next (admEnd x 0 (effMw u) u) := by
  simp only [execSetBudget, hx, ← hu]
  simp [Nat.not_lt.2 hmin, Nat.not_lt.2 hmax]

theorem execSetBudget_refusesLow (hlow : cdw x 11 < 4000) :
    execSetBudget k s = .next (admEnd x stBudget (effMw s) s) := by
  simp [execSetBudget, hx, hlow]

end

/-- A table that leaves the urgent age as it is sets the shares of the background work, then the functions' weights. -/
theorem execSetShares_sets {b : List Byte} {u : State} (hx : admAct s k 0xC9 2 = some x) (hin : inReady x = true)
    (hb : b = x.data) (hversion : le b 0 2 = 1) (hurgent : le b 4 4 = 0)
    (hsum : le b 8 1 + le b 9 1 + le b 10 1 + le b 11 1 ≤ 128)
    (hu : u = put F.GOV_BG_DESTAGE 0 (le b 8 1) (put F.GOV_BG_LOG 0 (le b 9 1) (put F.GOV_BG_CRUISE 0 (le b 10 1)
      (put F.GOV_BG_SALVAGE 0 (le b 11 1) s)))) :
    execSetShares k s =
      .next (admEnd x 0 (effMw u) (upTo 64 (fun f v => put F.GOV_FN_WEIGHT f (le b (64 + 2 * f) 2) v) u)) := by
  subst hu hb
  simp [execSetShares, hx, hin, hversion, hurgent, Nat.not_lt.2 hsum]

end

/-- Settles O48: one lemma per command and answer, for the case that the premises name; of the structure that Sensor Read
sends, its head is read back (`le_sensorData`). -/
theorem logsAndStatusCommands : Obligations.LogsAndStatusCommands :=
  ⟨fun _ _ _ _ hx hready hpage halign hin hrae => execGetLogPage_sends hx hready rfl hpage halign hin hrae,
    fun _ _ _ hx hready hnone => execGetLogPage_refusesUnknown hx hready hnone,
    fun _ _ _ hx hready => execBlazeRead_sends hx hready rfl rfl rfl,
    fun _ _ _ hx hready hread => execFaultStatus_sends hx hready hread,
    fun _ _ _ hx hready hack hfn => execFaultStatus_refusesAck hx hready hack hfn,
    fun _ _ _ hx hready => ⟨_, execSensorRead_sends hx hready, _, rfl,
      (le_sensorData (by decide)).trans le_sensorHead_seconds, (le_sensorData (by decide)).trans le_sensorHead_time⟩,
    fun _ _ _ hx => execBudgetQuery_answers hx,
    fun _ _ _ hx hmin hmax => execSetBudget_sets hx hmin hmax rfl,
    fun _ _ _ hx hlow => execSetBudget_refusesLow hx hlow,
    fun _ _ _ hx hin hversion hurgent hsum => execSetShares_sets hx hin rfl hversion hurgent hsum rfl⟩

end Sys2Proof.Proofs
end

section
/-! PROOFS. Steps and the queue, an idle step, and what no command changes: device time, the lock, the fuses. -/

namespace Sys2Proof.Proofs

open Sys2Proof Sys2Proof.Machine Sys2Proof.Laws

/-! ### Steps and the queue -/

/-- Settles O6: the step of a queue with a front is written so. -/
theorem stepRunsTheFrontCommand : Obligations.StepRunsTheFrontCommand := fun _ _ _ => rfl

/-- A step with a command waiting answers, and leaves the rest of the queue waiting. -/
theorem step_takes_front {s : State} {c : Instr} {rest : List Instr} (hqueue : s.pending = c :: rest) :
    ∃ t, step s = .next t ∧ t.pending = rest := by
  obtain ⟨t, hexec, ht⟩ := exec_tables c { s with pending := rest }
  exact ⟨t, by rw [step, hqueue]; exact hexec, ht.pending⟩

theorem run_succ {s t : State} {n : Nat} (hstep : step s = .next t) : run (n + 1) s = run n t := by
  rw [run, hstep]

/-- Settles O12, by induction on the number of steps: each takes the front of the queue (`step_takes_front`). -/
theorem queueDrainsInOrder : Obligations.QueueDrainsInOrder := by
  intro s k
  induction k generalizing s with
  | zero => exact fun _ => ⟨s, rfl, rfl⟩
  | succ k ih =>
    intro hk
    obtain ⟨c, rest, hqueue⟩ := List.exists_cons_of_length_pos (Nat.zero_lt_of_lt hk)
    obtain ⟨t, hstep, ht⟩ := step_takes_front hqueue
    obtain ⟨u, hrun, hu⟩ := ih t (by rw [hqueue] at hk; rw [ht]; exact Nat.le_of_succ_le_succ hk)
    exact ⟨u, (run_succ hstep).trans hrun, by rw [hu, ht, hqueue, List.drop_succ_cons]⟩

/-! ### An idle step (R489, R518) -/

section
variable {s : State}

theorem step_idle (hqueue : s.pending = []) : step s = .next (tick s) := by
  rw [step, hqueue]

theorem tick_unsupplied (hoff : s.cpr.supplies = false) : tick s = s := by
  simp [tick, hoff]

/-- Of a tick's state only device time and the register table differ. -/
theorem tick_frame (s : State) : tick s = { s with time := (tick s).time, regs := (tick s).regs } := by
  unfold tick
  split
  · split <;> rfl
  · rfl

theorem tick_time (hon : s.cpr.supplies = true) : (tick s).time = (s.time + 40) % 2 ^ 64 := by
  unfold tick
  rw [if_pos hon]
  split <;> rfl

theorem fld_seconds_tick (hon : s.cpr.supplies = true) : fld F.BLZ_TIME_SECONDS 0 (tick s) =
    (fld F.BLZ_TIME_SECONDS 0 s + if (s.time + 40) / 1000000000 = s.time / 1000000000 then 0 else 1) % 2 ^ 40 := by
  unfold tick
  rw [if_pos hon]
  dsimp only
  split
  · exact (Nat.mod_eq_of_lt (fld_lt F.BLZ_TIME_SECONDS 0 s)).symm
  · exact fld_put _ _ _ (by decide) (by decide)

end

/-- Settles O7: of a tick, its frame, its time and its seconds; without the supply it is none. -/
theorem idleStepIsOneReferenceEdge : Obligations.IdleStepIsOneReferenceEdge :=
  ⟨fun s hqueue hon => ⟨tick s, step_idle hqueue, tick_frame s, tick_time hon, fld_seconds_tick hon⟩,
    fun _ hqueue hoff => (step_idle hqueue).trans (congrArg _ (tick_unsupplied hoff))⟩

/-- Settles O9: after reset nothing is listed and nothing waits. -/
theorem resetMeetsTheInvariant : Obligations.ResetMeetsTheInvariant := ⟨rfl, rfl, rfl⟩

/-! ### Device time and the lock (R511, R518) -/

/-- Settles O14: an ordinary command keeps both (`exec_runs`), and so do the ends of a geometry load and of a fuse burn. -/
theorem deviceTimeAndLockHold : Obligations.DeviceTimeAndLockHold := by
  intro c s t hexec hsleep hon hfall hdump
  by_cases hload : c = .geoLoadDone
  · subst hload
    obtain ⟨v, hv, h⟩ := execGeoLoadDone_keeps s
    cases hv.symm.trans hexec
    exact ⟨h.time, h.lock⟩
  by_cases hburn : ∃ ok, c = .fuseBurnDone ok
  · obtain ⟨ok, rfl⟩ := hburn
    obtain ⟨v, hv, h⟩ := execFuseBurnDone_keeps ok s
    cases hv.symm.trans hexec
    exact ⟨h.time, h.lock⟩
  · obtain ⟨v, hv, h⟩ := exec_runs s c ⟨hload, hsleep, hon, hfall, hdump, not_exists.1 hburn⟩
    cases hv.symm.trans hexec
    exact ⟨h.time, h.lock⟩

/-! ### The fuses (R498) -/

/-- No bit of the fuses falls from `x` to `y`: the security version does not either. -/
structure FuseGrows (x y : Fuse) : Prop where
  svn : x.svn ≤ y.svn
  revoked : ∀ k, x.revoked.testBit k = true → y.revoked.testBit k = true

theorem FuseGrows.refl (x : Fuse) : FuseGrows x x := ⟨Nat.le_refl _, fun _ => id⟩

theorem revoke_grows (x : Fuse) (v : Nat) : FuseGrows x { x with revoked := putBit x.revoked v true } :=
  ⟨Nat.le_refl _, fun k hk => by rw [testBit_putBit_true, hk, Bool.true_or]⟩

theorem raise_grows {x : Fuse} {n : Nat} (h : x.svn ≤ n) : FuseGrows x { x with svn := n } := ⟨h, fun _ => id⟩

theorem fuseSet_grows (op v : Nat) (x : Fuse) : FuseGrows x (fuseSet op v x) := by
  unfold fuseSet
  split
  · exact revoke_grows x v
  · split
    · exact .refl x
    · split
      · exact raise_grows (Nat.le_max_left _ _)
      · exact raise_grows (by omega)

theorem fuseFailed_grows (op v : Nat) (x : Fuse) : FuseGrows x (fuseFailed op v x) := by
  unfold fuseFailed
  dsimp only
  split
  · split
    · exact revoke_grows x v
    · exact .refl x
  · exact raise_grows (Nat.le_add_right _ _)

theorem execFuseBurnDone_grows {ok : Bool} {s t : State} (hexec : execFuseBurnDone ok s = .next t) :
    FuseGrows s.fuse t.fuse := by
  cases hexec
  cases s.mgt.burn with
  | none => exact .refl _
  | some b =>
    cases ok with
    | true => exact fuseSet_grows b.1 b.2 s.fuse
    | false => exact fuseFailed_grows b.1 b.2 s.fuse

/-- Only the end of a burn changes the fuses: what takes the power leaves them. -/
theorem exec_fuse_of_not_burn {c : Instr} {s t : State} (hburn : ∀ ok, c ≠ .fuseBurnDone ok)
    (hexec : exec c s = .next t) : t.fuse = s.fuse := by
  have same {P : State → Prop} (hfuse : ∀ v, P v → v.fuse = s.fuse) (h : ∃ v, exec c s = .next v ∧ P v) :
      t.fuse = s.fuse := by
    obtain ⟨v, hv, hP⟩ := h
    cases hv.symm.trans hexec
    exact hfuse _ hP
  by_cases hc : Ordinary c
  · exact same (fun _ h => h.fuse) (exec_runs s c hc)
  · simp only [Ordinary, not_and_or, not_forall, ne_eq, not_not] at hc
    rcases hc with rfl | rfl | ⟨test, rfl⟩ | rfl | ⟨ok, supplies, rfl⟩ | ⟨ok, rfl⟩
    · exact same (fun _ h => h.fuse) (execGeoLoadDone_keeps s)
    · exact same (fun _ h => h.fuse) (execAonSleepEnter_outlasts s)
    · exact same (fun _ h => h.fuse) (execAonPowerOn_outlasts test s)
    · exact same (fun _ h => h.fuse) (execAonSupplyFall_outlasts s)
    · exact same (fun _ h => h.fuse) (execDumpEnd_outlasts ok supplies s)
    · exact absurd rfl (hburn ok)

/-- Settles O15: a burn only adds (`execFuseBurnDone_grows`), and no other command changes the fuses. -/
theorem fusesAreNeverCleared : Obligations.FusesAreNeverCleared := by
  intro c s t hexec
  have h : FuseGrows s.fuse t.fuse := by
    by_cases hburn : ∃ ok, c = .fuseBurnDone ok
    · obtain ⟨ok, rfl⟩ := hburn
      exact execFuseBurnDone_grows hexec
    · rw [exec_fuse_of_not_burn (not_exists.1 hburn) hexec]
      exact .refl _
  exact ⟨h.svn, h.revoked⟩

/-! ### The commands answer -/

/-- Settles O4: each command named is ordinary, so `exec_kept_of_ordinary` answers for it. -/
theorem fabricCommandsComplete : Obligations.FabricCommandsComplete := by
  unfold Obligations.FabricCommandsComplete
  and_intros
  all_goals
    intros
    exact exec_kept_of_ordinary (by simp [Ordinary]) _

/-- Settles O5: each command named is ordinary, but the end of a fuse burn, which changes the fuses
(`execFuseBurnDone_keeps`), and what takes the power, which they outlast. -/
theorem managementCommandsComplete : Obligations.ManagementCommandsComplete := by
  have go {c : Instr} (s : State) (hc : Ordinary c := by simp [Ordinary]) : ∃ t, exec c s = .next t ∧ kept s t :=
    exec_kept_of_ordinary hc s
  have lasts {s : State} {o : Answer} (h : ∃ t, o = .next t ∧ Outlasts s t) :
      ∃ t, o = .next t ∧ t.pending = s.pending ∧ t.fuse = s.fuse :=
    h.imp fun _ ht => ⟨ht.1, ht.2.pending, ht.2.fuse⟩
  refine ⟨fun _ s => go s, fun _ s => go s, fun _ s => go s, fun _ s => go s, fun _ s => go s, fun _ _ s => go s,
    fun _ _ s => go s, fun _ _ s => go s, fun _ _ s => go s, fun _ s => go s, fun _ s => go s, fun _ s => go s,
    fun _ s => go s, fun _ _ s => go s, fun _ s => go s, fun _ _ _ s => go s, fun _ _ s => go s, fun _ s => go s,
    fun _ s => go s, ?fuseBurnDone, fun _ _ _ _ s => go s, fun _ s => go s, fun _ s => go s, fun _ s => go s,
    fun _ _ s => go s, fun _ _ s => go s, fun _ s => go s, fun ok supplies s => lasts (execDumpEnd_outlasts ok supplies s),
    fun _ s => go s, fun s => go s, fun s => go s, fun s => go s, fun s => go s, fun s => go s, fun s => go s,
    fun s => go s, fun s => go s, fun s => lasts (execAonSleepEnter_outlasts s),
    fun test s => lasts (execAonPowerOn_outlasts test s), fun s => go s, fun s => go s, fun s => go s, fun s => go s,
    fun s => go s, fun s => lasts (execAonSupplyFall_outlasts s)⟩
  case fuseBurnDone =>
    intro ok s
    obtain ⟨t, hexec, h⟩ := execFuseBurnDone_keeps ok s
    exact ⟨t, hexec, h.pending, h.time, h.geo⟩

end Sys2Proof.Proofs
end

section
/-! PROOFS. The serial NOR byte by byte (R454), and the pending bit of an event (R483). -/

namespace Sys2Proof.Proofs

open Sys2Proof Sys2Proof.Machine Sys2Proof.Laws

/-! ### The serial NOR -/

/-- A program ANDs its bytes into those that stand there. -/
theorem norByte_norProgram (a b : Nat) (bs : List Byte) (s : State) : norByte (norProgram a bs s) b =
    if a ≤ b ∧ b < a + bs.length then (bs[b - a]?).getD 0 &&& norByte s b else norByte s b := by
  unfold norByte norProgram
  rw [get_putFF]
  simp only [List.length_map, List.length_zipIdx]
  split
  next hin =>
    obtain ⟨x, hx⟩ : ∃ x, bs[b - a]? = some x := ⟨_, List.getElem?_eq_getElem (by omega)⟩
    simp [hx, norByte, Nat.add_sub_cancel' hin.1]
  next => rfl

theorem norByte_norErase (a n b : Nat) (s : State) :
    norByte (norErase a n s) b = if a ≤ b ∧ b < a + n then 0xFF else norByte s b := by
  unfold norByte norErase Tab.get
  rw [get?_clear]
  split <;> rfl

/-- Settles O18: a byte of the program ANDed in takes no bit from 0 to 1. -/
theorem norProgramsOnlyClearBits : Obligations.NorProgramsOnlyClearBits := by
  refine ⟨fun a b bs s => ?program, fun a n b s hlo hhi => ?inside, fun a n b s hout => ?outside⟩
  case program =>
    rw [norByte_norProgram]
    split
    · rw [BitVec.and_assoc, BitVec.and_self]
    · exact BitVec.and_self
  case inside => rw [norByte_norErase, if_pos ⟨hlo, hhi⟩]
  case outside => rw [norByte_norErase, if_neg (by omega)]

/-! ### Events

The blaze queue writes only its own registers, so an event's pending bit stays through its record. -/

section
variable {i : Nat} {s : State}

/-- The pending bits stand apart from the registers of the blaze queue, whichever of them is named. -/
theorem evtPend_addr_ne {r : RegDef} (hr : r.addr 0 0 < 0x41100000) : r.addr 0 0 ≠ R.EVT_PEND.addr i 0 := by
  have h : R.EVT_PEND.addr i 0 = 0x41100000 + i * 4 + 0 * 0 := rfl
  omega

theorem fld_evtPend_blzQueue (ty src data : Nat) (cont : Option Chain) :
    fld F.EVT_PEND_PEND i (blzQueue ty src data cont s) = fld F.EVT_PEND_PEND i s := by
  unfold blzQueue
  split
  · exact fld_put_other (f := F.BLZ_STAT_DROP) _ s (evtPend_addr_ne (by decide))
  · exact congrArg (bitsOf · 31 0) (rd_wr_other (r := R.BLZ_SEQ) _ _ (evtPend_addr_ne (by decide)))

theorem fld_evtPend_blzRepeat (c : Chain) : fld F.EVT_PEND_PEND i (blzRepeat c s) = fld F.EVT_PEND_PEND i s := by
  unfold blzRepeat
  split
  · rfl
  · split
    · exact fld_evtPend_blzQueue _ _ _ _
    · dsimp only
      split <;> rfl

theorem fld_evtPend_blzEnter (ty src data : Nat) :
    fld F.EVT_PEND_PEND i (blzEnter ty src data s) = fld F.EVT_PEND_PEND i s := by
  unfold blzEnter
  split
  · split
    · exact fld_evtPend_blzRepeat _
    · exact fld_evtPend_blzQueue _ _ _ _
  · exact fld_evtPend_blzQueue _ _ _ _

theorem fld_evtPend_evBlaze (n cls data : Nat) :
    fld F.EVT_PEND_PEND i (evBlaze n cls data s) = fld F.EVT_PEND_PEND i s := by
  unfold evBlaze
  split
  · exact fld_evtPend_blzEnter _ _ _
  · rfl

theorem raiseEvent_reserved {n : Nat} (h : evReserved n = true) : raiseEvent n s = s := by
  rw [raiseEvent, if_pos h]

/-- A bit of a field reads as it was set. -/
theorem bit_putFBit_true {f : Field} {k : Nat} (hlo : f.lo ≤ f.hi) (hhi : f.hi < 64) (hk : k < f.hi + 1 - f.lo) :
    bit f i k (putFBit f i k true s) = true := by
  rw [bit, putFBit, fld_put _ _ _ hlo hhi, Nat.testBit_mod_two_pow, testBit_putBit_true]
  simp [hk]

theorem bit_evtPend_raiseEvent {n : Nat} (h : evReserved n = false) :
    bit F.EVT_PEND_PEND (n / 32) (n % 32) (raiseEvent n s) = true := by
  rw [raiseEvent, h, if_neg Bool.false_ne_true, bit, fld_evtPend_evBlaze]
  exact bit_putFBit_true (by decide) (by decide) (Nat.mod_lt n (by decide))

end

/-- Settles O20: the bit is set, and the event's blaze record leaves it (`fld_evtPend_evBlaze`). -/
theorem eventsArePending : Obligations.EventsArePending :=
  ⟨fun _ _ h => bit_evtPend_raiseEvent h, fun _ _ h => raiseEvent_reserved h⟩

end Sys2Proof.Proofs
end

section
/-! PROOFS. The landing (chapter 12): bring-up, fill, scrub and remap, accesses, fences and atomic accesses. -/

namespace Sys2Proof.Proofs

open Sys2Proof Sys2Proof.Machine Sys2Proof.Laws

section
variable {s u v : State}

/-! ### Bring-up, fill, scrub and remap (R407–R414) -/

theorem execLndTrainStart_trains {w : BusW} (hu : u = busWrite R.LND_CTL 0 0 w s) (hone : wrote1 0 w = true)
    (hidle : fld F.LND_STAT_STATE 0 u = 0 ∨ fld F.LND_STAT_STATE 0 u = 4) (hpower : u.cpr.stage ≠ 0) :
    execLndTrainStart w s = .next (put F.LND_CTL_START 0 1 (put F.LND_STAT_STATE 0 1 u)) := by
  have hpower' : (u.cpr.stage != 0) = true := bne_iff_ne.2 hpower
  rcases hidle with h | h <;> simp only [execLndTrainStart, ← hu, hone, h, hpower'] <;> rfl

section
variable {ch : BitVec 2} {st : BitVec 4} (htraining : fld F.LND_STAT_STATE 0 s = 1)
include htraining

theorem execLndTrainDone_ready : execLndTrainDone true ch st s = .next (raiseEvent 132 (put F.LND_STAT_STEP 0 0
    (put F.LND_STAT_CH_FAIL 0 0 (put F.LND_STAT_STATE 0 2 (put F.LND_CTL_START 0 0 s))))) := by
  simp [execLndTrainDone, htraining]

theorem execLndTrainDone_failed : execLndTrainDone false ch st s = .next (report 56 none 0 0 0 0 (raiseEvent 132
    (put F.LND_STAT_STEP 0 st.toNat (put F.LND_STAT_CH_FAIL 0 ch.toNat (put F.LND_STAT_STATE 0 4
      (put F.LND_CTL_START 0 0 s)))))) := by
  simp [execLndTrainDone, htraining]

end

/-- The range that LND_FILL_BASE and LND_FILL_LEN name: first granule and number of granules. -/
def fillRange (s : State) : Nat × Nat := (fld F.LND_FILL_BASE_VALUE 0 s, fld F.LND_FILL_LEN_VALUE 0 s)

theorem execLndFillGo_starts {w : BusW} (hone : wrote1 31 w = true) (hidle : flag F.LND_FILL_CTL_GO 0 s = false)
    (hv : v = busWrite R.LND_FILL_CTL 0 0 w s)
    (hu : u = rowsLost (fillRange v).1 (fillRange v).2 (put F.LND_FILL_CTL_GO 0 1 v)) :
    execLndFillGo w s = .next { u with lnd := { u.lnd with fill := some (fillRange v) } } := by
  subst hu hv
  simp [execLndFillGo, hone, hidle, fillRange]

/-- Granule `g` at the end of a fill: zero and clean where the landing answers, undefined where another master wrote it
meanwhile (R409). -/
def fillGranule (g : Nat) (s : State) : State :=
  if landOk s (64 * g) 64 then
    if (Tab.get? s.land g).isSome || s.lnd.mrg.any (fun e => e.g == g) then rowsLost g 1 s
    else putGranule g ⟨List.replicate 64 0, false⟩ s
  else s

/-- The first byte of the fill's range and its number of granules. -/
def fillFirst (s : State) : Nat := 64 * (s.lnd.fill.getD (0, 0)).1
def fillCount (s : State) : Nat := (s.lnd.fill.getD (0, 0)).2

theorem execLndFillDone_zeroes {a n : Nat} (hrun : flag F.LND_FILL_CTL_GO 0 s = true) (ha : a = fillFirst s)
    (hn : n = fillCount s) (hfree : landBusy s a (64 * n) = false)
    (hu : u = upTo n (fun i v => fillGranule (a / 64 + i) v) { s with lnd := { s.lnd with fill := none } })
    (hin : n = 0 ∨ landOk u a (64 * n) = true) :
    execLndFillDone s = .next (raiseEvent 134 (put F.LND_FILL_CTL_DONE 0 1 (put F.LND_FILL_CTL_GO 0 0 u))) := by
  have hstep : ∀ g v, fillGranule g v = if !landOk v (64 * g) 64 then v
      else if (Tab.get? v.land g).isSome || v.lnd.mrg.any (fun e => e.g == g) then rowsLost g 1 v
      else putGranule g ⟨List.replicate 64 0, false⟩ v := by
    intro g v
    unfold fillGranule
    cases landOk v (64 * g) 64 <;> rfl
  simp only [hstep] at hu
  subst ha hn
  unfold execLndFillDone
  unfold fillFirst fillCount at *
  dsimp only
  rw [hrun, hfree, ← hu, if_neg (by simp)]
  rcases hin with h | h <;> simp [h]

/-- A step inside the range of the scrub, of a granule where the landing answers. -/
theorem execLndScrubStep_reads {e : Ecc} (hen : flag F.LND_SCRUB_CTL_EN 0 s = true)
    (hlo : fld F.LND_SCRUB_RNG_FIRST 0 s * 2 ^ 14 ≤ s.lnd.scrub)
    (hhi : s.lnd.scrub < (fld F.LND_SCRUB_RNG_LAST 0 s + 1) * 2 ^ 14)
    (hfree : landBusy s (64 * s.lnd.scrub) 64 = false)
    (hu : u = { s with lnd := { s.lnd with scrub := s.lnd.scrub + 1 } }) (hok : landOk u (64 * s.lnd.scrub) 64 = true) :
    execLndScrubStep e s = .next (eccRead 15 s.lnd.scrub e u).2 := by
  subst hu
  unfold execLndScrubStep
  simp only [hen, Nat.not_lt.2 hlo, Nat.not_le.2 hhi, Nat.not_le.2 (Nat.lt_of_le_of_lt hlo hhi), decide_false,
    Bool.or_self, Bool.false_and, Bool.false_eq_true, if_false, hfree, Bool.not_true]
  rw [if_pos hok]

theorem execLndRmapCopy_starts {k : Fin 32} {w : BusW} (hone : wrote1 62 w = true) :
    execLndRmapCopy k w s = .next (put F.LND_RMAP_COPY k 1 (rmapWrite k w s)) := by
  simp [execLndRmapCopy, hone]

/-- Granule `g` of a block that is copied to its spare, read with outcome `e` (R414). -/
def copyGranule (g : Nat) (e : Ecc) (s : State) : State :=
  if (eccRead 15 g e s).1 then stamp g { stored (eccRead 15 g e s).2 g with poison := true } (eccRead 15 g e s).2
  else (eccRead 15 g e s).2

theorem execLndRmapCopyDone_copies {k : Fin 32} {l : List Ecc} {g : Nat} (hrun : flag F.LND_RMAP_COPY k s = true)
    (hawake : landHeld s = false) (hg : g = rmapFirst s k)
    (honce : (List.range 32).any (fun j => j != k.val && flag F.LND_RMAP_VALID j s && rmapFirst s j == g) = false)
    (hu : u = upTo 128 (fun i v => copyGranule (g + i) ((l[i]?).getD .ok) v) s) :
    execLndRmapCopyDone k l s =
      .next (heldRun (raiseEvent 134 (put F.LND_RMAP_VALID k 1 (put F.LND_RMAP_COPY k 0 u)))) := by
  unfold copyGranule at hu
  simp only [execLndRmapCopyDone, hrun, hawake, ← hg, honce, ← hu, Bool.not_true, Bool.or_self, Bool.false_eq_true,
    if_false]

theorem execLndRmapClear_clears {k : Fin 32} {w : BusW} (hu : u = rmapWrite k w s) (hone : wrote1 61 w = true)
    (hvalid : flag F.LND_RMAP_VALID k u = true) : execLndRmapClear k w s = .next (put F.LND_RMAP_VALID k 0
      (rmapDup (rmapFirst u k / 128) false (rowsLost (rmapFirst u k) 128 u))) := by
  subst hu
  simp [execLndRmapClear, hone, hvalid]

/-! ### Reads and writes (R406, R412, R417–R420) -/

section
variable {a n : Nat} {bs : List Byte} {p : Bool} {o : List Nat} {l : List Ecc} (hbase : landBase ≤ a)
include hbase

section
variable (hfree : landBusy s a bs.length = false)
include hfree

theorem execLandingWrite_yarder (hok : landOk s a bs.length = true) :
    execLandingWrite .yarder a bs p o l s = .next (landPut a bs p l s) := by
  simp [execLandingWrite, accWrite, Nat.not_lt.2 hbase, hfree, hok]

theorem execLandingWrite_yarderOutside (hok : landOk s a bs.length = false) :
    execLandingWrite .yarder a bs p o l s = .next (busError 6 2 a s) := by
  simp [execLandingWrite, accWrite, Nat.not_lt.2 hbase, hfree, hok]

end

theorem execLandingWrite_core {c : Fin 4} (hfirst : coreHeld s c = false)
    (hhit : (landBusy s a bs.length && (!l1Holds s c a bs.length || (granulesOf a bs.length).any o.contains)) = false)
    (hevict : evictBusy s c o = false) :
    execLandingWrite (.cp c) a bs p o l s = .next (relocSeen s (l1Evict c o (cpStore c a bs l s))) := by
  simp only [execLandingWrite, accWrite, Nat.not_lt.2 hbase, hfirst, hhit, hevict, Bool.or_self, Bool.false_eq_true, if_false]

theorem execLandingWrite_coreHeld {c : Fin 4} (hheld : coreHeld s c = true) :
    execLandingWrite (.cp c) a bs p o l s = .next (hold (.write (.cp c) a bs p o l) s) := by
  simp [execLandingWrite, accWrite, Nat.not_lt.2 hbase, hheld]

theorem execLandingRead_yarder (hfree : landBusy s a n = false) (hok : landOk s a n = true)
    (hu : u = (eccReads 6 (granulesOf a n) l s).2) :
    execLandingRead .yarder a n o l s = .next (emit (.data a (landMarks u a n)) u) := by
  subst hu
  simp [execLandingRead, accRead, Nat.not_lt.2 hbase, hfree, hok]

theorem execLandingRead_yarderOutside (hfree : landBusy s a n = false) (hok : landOk s a n = false) :
    execLandingRead .yarder a n o l s = .next (busError 6 1 a s) := by
  simp [execLandingRead, accRead, Nat.not_lt.2 hbase, hfree, hok]

theorem execLandingRead_yarderHeld (hbusy : landBusy s a n = true) :
    execLandingRead .yarder a n o l s = .next (hold (.read .yarder a n o l) s) := by
  simp [execLandingRead, accRead, Nat.not_lt.2 hbase, hbusy]

end

theorem execMergeEvictAge_evicts {q : Ecc} {e : MrgEnt} {l : List MrgEnt} (hmrg : s.lnd.mrg = e :: l)
    (hage : e.t + 1000 * fld1 F.LND_MRG_AGE 0 s ≤ s.time) (hfree : landBusy s (64 * e.g) 64 = false) :
    execMergeEvictAge q s = .next (evictEcc q e s) := by
  simp [execMergeEvictAge, hmrg, Nat.not_lt.2 hage, hfree]

/-! ### Fences (R421–R423) -/

/-- While the landing is awake and no block of it is copied, no access to it is held. -/
theorem landBusy_of_idle {a n : Nat} (hawake : landHeld s = false)
    (hnocopy : (List.range 32).any (fun k => flag F.LND_RMAP_COPY k s) = false) : landBusy s a n = false := by
  simp only [List.any_eq_false, Bool.not_eq_true] at hnocopy
  simp only [landBusy, hawake, Bool.false_or, List.any_eq_false]
  intro k hk
  simp [hnocopy k hk]

/-- An operation of a core that no access keeps waiting acts on its lines. -/
theorem accFence_acts {c : Fin 4} {op : Nat} {l : List Nat} {e : List Ecc} (hawake : landHeld s = false)
    (hnocopy : (List.range 32).any (fun k => flag F.LND_RMAP_COPY k s) = false) (hfirst : coreHeld s c = false) :
    accFence c op l e s = fenceDo op c l e s := by
  have hfree (a : Nat) : landBusy s a 64 = false := landBusy_of_idle hawake hnocopy
  simp [accFence, hfirst, hfree]

section
variable {c : Fin 4} {op : Nat} {w : BusW} {e : List Ecc}
  (hu : u = put F.LND_FFENCE_OP c op (busWrite R.LND_FFENCE c 0 w s)) (hawake : landHeld u = false)
  (hnocopy : (List.range 32).any (fun k => flag F.LND_RMAP_COPY k u) = false) (hfirst : coreHeld u c = false)
include hu hawake hnocopy hfirst

/-- The core's own write of an operation on a range acts on the lines of its range, once nothing keeps it waiting. -/
theorem fence_range : fence op c (.cp c) w false e s = fenceDo op c (fenceLines u c) e u := by
  subst hu
  rw [fence, if_neg (not_not.2 rfl)]
  exact accFence_acts hawake hnocopy hfirst

/-- The core's own write of an operation on the whole cache acts on every line it holds. -/
theorem fence_all : fence op c (.cp c) w true e s = fenceDo op c (l1Lines u c) e u := by
  subst hu
  rw [fence, if_neg (not_not.2 rfl)]
  exact accFence_acts hawake hnocopy hfirst

end

/-! ### Atomic accesses (R425) -/

section
variable {c : Fin 4} {op : AmoOp} {a : Nat} {x : BitVec 64} {e : Ecc}

theorem execAmoAccess_sram (halign : a % 8 = 0) (hin : inSram a 8 = true) (hfirst : coreHeld s c = false)
    (hbelow : a < landBase) (hcached : cached a = true) (hu : u = l1Drop c (a / 64) (l1Clean c (a / 64) s)) :
    execAmoAccess c op a true x e s = .next (amoDo c op a 8 x.toNat u) := by
  subst hu
  simp [execAmoAccess, accAmo, halign, hin, hfirst, Nat.not_le.2 hbelow, hcached]

theorem execAmoAccess_misaligned (halign : a % 8 ≠ 0) : execAmoAccess c op a true x e s = .next s := by
  simp [execAmoAccess, accAmo, halign]

end

end

/-- Settles O52: one lemma per command and access, for the case that the premises name; the six fences act by two lemmas
(`fence_range`, `fence_all`). -/
theorem landingControlAndAccess : Obligations.LandingControlAndAccess := by
  refine ⟨fun _ _ hone hidle hpower => execLndTrainStart_trains rfl hone hidle hpower,
    fun _ _ _ htraining => execLndTrainDone_ready htraining, fun _ _ _ htraining => execLndTrainDone_failed htraining,
    fun _ _ hone hidle => execLndFillGo_starts hone hidle rfl rfl,
    fun _ hrun hfree hin => execLndFillDone_zeroes hrun rfl rfl hfree rfl hin,
    fun _ _ hen hlo hhi hfree hok => execLndScrubStep_reads hen hlo hhi hfree rfl hok,
    fun _ _ _ hone => execLndRmapCopy_starts hone,
    fun _ _ _ hrun hawake honce => execLndRmapCopyDone_copies hrun hawake rfl honce rfl,
    fun _ _ _ hone hvalid => execLndRmapClear_clears rfl hone hvalid,
    fun _ _ _ _ _ _ hbase hfree hok => execLandingWrite_yarder hbase hfree hok,
    fun _ _ _ _ _ _ hbase hfree hok => execLandingWrite_yarderOutside hbase hfree hok,
    fun _ _ _ _ _ _ _ hbase hfirst hhit hevict => execLandingWrite_core hbase hfirst hhit hevict,
    fun _ _ _ _ _ hbase hfree hok => execLandingRead_yarder hbase hfree hok rfl,
    fun _ _ _ _ _ hbase hfree hok => execLandingRead_yarderOutside hbase hfree hok,
    fun _ _ _ _ hmrg hage hfree => execMergeEvictAge_evicts hmrg hage hfree,
    fun _ _ _ hawake hnocopy hfirst => congrArg Host.Outcome.next (fence_range rfl hawake hnocopy hfirst),
    fun _ _ _ hawake hnocopy hfirst => congrArg Host.Outcome.next (fence_range rfl hawake hnocopy hfirst),
    fun _ _ _ hawake hnocopy hfirst => congrArg Host.Outcome.next (fence_range rfl hawake hnocopy hfirst),
    fun _ _ _ _ hawake hnocopy hfirst => congrArg Host.Outcome.next (fence_range rfl hawake hnocopy hfirst),
    fun _ _ _ hawake hnocopy hfirst => congrArg Host.Outcome.next (fence_all rfl hawake hnocopy hfirst),
    fun _ _ _ hawake hnocopy hfirst => congrArg Host.Outcome.next (fence_all rfl hawake hnocopy hfirst),
    fun _ _ _ _ _ _ halign hin hfirst hbelow hcached => execAmoAccess_sram halign hin hfirst hbelow hcached rfl,
    fun _ _ _ _ _ _ halign => execAmoAccess_misaligned halign,
    fun _ _ _ _ _ _ _ hbase hheld => execLandingWrite_coreHeld hbase hheld,
    fun _ _ _ _ _ _ hm hbase hbusy => ?readHeld⟩
  case readHeld =>
    subst hm
    exact execLandingRead_yarderHeld hbase hbusy

end Sys2Proof.Proofs
end

section
/-! PROOFS. The yarder's channels (chapter 12): doorbells, descriptors taken and moved, reset and resume. -/

namespace Sys2Proof.Proofs

open Sys2Proof Sys2Proof.Machine Sys2Proof.Laws

/-! ### A descriptor is taken (R426–R429) -/

/-- Index of the next descriptor of channel `n` in its ring. -/
def yrdNext (n : Nat) (s : State) : Nat := fld F.YRD_CH_STAT_NEXT n s

/-- The 64 bytes of the next descriptor of channel `n`. -/
def yrdNextBytes (n : Nat) (s : State) : List Byte := sramRead s (yrdAt s n (yrdNext n s)) 64

/-- Chunks the next descriptor takes: those of its length, within the channel's room. -/
def yrdNextChunks (n : Nat) (s : State) : Nat := min (max 1 (ceilDiv (le (yrdNextBytes n s) 8 4) 4096)) (yrdRoom s n)

/-- The next descriptor of channel `n`, as its bytes spell it, before it has moved anything. -/
def yrdNextDesc (n : Nat) (s : State) : YDesc :=
  let b := yrdNextBytes n s
  ⟨yrdAt s n (yrdNext n s), yrdNext n s, (le b 0 1).testBit 1, le b 2 1, le b 3 1, le b 4 1 % 64, le b 8 4, le b 16 8,
    le b 24 8, [], 0, none, yrdNextChunks n s, 0, false⟩

/-- The state once channel `n` has taken a descriptor and is left as `x`: its turn and its place in the ring have moved. -/
def yrdTurned (n : Nat) (x : YCh) (s : State) : State :=
  let z := { s with lnd := { s.lnd with yrdLast := Tab.put s.lnd.yrdLast (fld F.YRD_CH_CTL_PRI n s) n } }
  put F.YRD_CH_STAT_NEXT n ((yrdNext n s + 1) % yrdSize z n) (setYch n x z)

/-- Channel `n` is busy and holds `k` chunks more. -/
def yrdChunksTaken (n k : Nat) (s : State) : State :=
  put F.YRD_STAT_CHUNK_FREE 0 (fld F.YRD_STAT_CHUNK_FREE 0 s - k)
    (put F.YRD_CH_STAT_HELD n (fld F.YRD_CH_STAT_HELD n s + k) (put F.YRD_CH_STAT_BUSY n 1 s))

section
variable {n : Fin 32} {s u v : State} (hready : yrdReady s n = true) (hturn : yrdBehind s n = false)
include hready hturn

/-- A ready channel whose turn it is meets OWN 0 and looks no further. -/
theorem execYrdDescStart_stops (hown : le (yrdNextBytes n s) 0 1 % 2 = 0) :
    execYrdDescStart n s = .next (setYch n { ych s n with look := false } s) := by
  unfold yrdNextBytes yrdNext at hown
  simp [execYrdDescStart, hready, hturn, hown]

section
variable (hnoabort : (ych s n).aborts = []) (hown : le (yrdNextBytes n s) 0 1 % 2 = 1)
include hnoabort hown

/-- The next descriptor is taken into the channel's place that is free, beside the one in progress if there is one. -/
theorem execYrdDescStart_takes {d : YDesc} {x : YCh} (hd : d = { yrdNextDesc n s with
      fail := if yrdDescOk s (yrdNextDesc n s) then none else some 1 })
    (hx : x = if (ych s n).cur.isNone then { ych s n with cur := some d, aborts := [] }
      else { ych s n with ahead := some d, aborts := [] })
    (hv : v = yrdChunksTaken n (yrdNextChunks n s) (yrdTurned n x s)) :
    execYrdDescStart n s = .next (match d.fail with
      | some e => if x.ahead.isNone then yrdFinish n e v else v
      | none => yrdAsk n v) := by
  subst hd hx hv
  have hown' : le (sramRead s (yrdAt s n (fld F.YRD_CH_STAT_NEXT n s)) 64) 0 1 % 2 = 1 := hown
  unfold execYrdDescStart
  simp only [hready, hturn, hnoabort, hown', Bool.not_true, Bool.or_self, Bool.false_eq_true, if_false, Nat.one_ne_zero]
  rfl

theorem execYrdDescStart_begins (hidle : (ych s n).cur = none) (hok : yrdDescOk s (yrdNextDesc n s) = true)
    (hu : u = yrdTurned n { ych s n with cur := some (yrdNextDesc n s), aborts := [] } s)
    (hv : v = yrdChunksTaken n (yrdNextChunks n s) u) : execYrdDescStart n s = .next (yrdAsk n v) := by
  subst hu hv
  rw [execYrdDescStart_takes hready hturn hnoabort hown rfl rfl rfl, hidle, hok]
  rfl

theorem execYrdDescStart_refuses (hidle : (ych s n).cur = none) (hnoahead : (ych s n).ahead = none)
    (hbad : yrdDescOk s (yrdNextDesc n s) = false)
    (hu : u = yrdTurned n { ych s n with cur := some { yrdNextDesc n s with fail := some 1 }, aborts := [] } s)
    (hv : v = yrdChunksTaken n (yrdNextChunks n s) u) : execYrdDescStart n s = .next (yrdFinish n 1 v) := by
  subst hu hv
  rw [execYrdDescStart_takes hready hturn hnoabort hown rfl rfl rfl, hidle, hbad]
  simp [hnoahead]

theorem execYrdDescStart_beginsAhead (hbusy : (ych s n).cur.isSome = true) (hok : yrdDescOk s (yrdNextDesc n s) = true)
    (hu : u = yrdTurned n { ych s n with ahead := some (yrdNextDesc n s), aborts := [] } s)
    (hv : v = yrdChunksTaken n (yrdNextChunks n s) u) : execYrdDescStart n s = .next (yrdAsk n v) := by
  subst hu hv
  obtain ⟨d, hcur⟩ := Option.isSome_iff_exists.1 hbusy
  rw [execYrdDescStart_takes hready hturn hnoabort hown rfl rfl rfl, hcur, hok]
  rfl

end

end

/-! ### Its move, and what stops the channel (R428, R433–R435) -/

section
variable {n : Fin 32} {s u : State}

section
variable {d : YDesc} {l : List Ecc} (hcur : (ych s n).cur = some d)
include hcur

theorem execYrdDescEnd_moves (hdst : d.dstMode.testBit 4 = false) (hfree : yrdHeld s d = false) :
    execYrdDescEnd n l s = .next (yrdMove n d l s) := by
  simp [execYrdDescEnd, hcur, hdst, hfree]

theorem execYrdDescEnd_stalls (hdst : d.dstMode.testBit 4 = true) (hwell : d.fail = none) (hfree : yrdHeld s d = false)
    (hissue : canIssue s d.fn = false) : execYrdDescEnd n l s = .next (put F.YRD_CH_STAT_STALL n 1 s) := by
  simp [execYrdDescEnd, hcur, hdst, hwell, hfree, hissue]

end

/-- The read request is one of channel `n`. -/
def yrdAsked (n : Nat) (r : HostReq) : Bool := match r.kind with
  | .yrd m => m == n
  | _ => false

theorem execYrdChReset_aborts {w : BusW} (hone : wrote1 31 w = true)
    (hu : u = flushReqs (yrdAsked n) (yrdClose n 5 (yrdClose n 5 (ychWrite n w s)))) :
    execYrdChReset n w s = .next (put F.YRD_CH_STAT_NEXT n 0
      (yrdUnhalt n (setYch n { ych u n with look := false, aborts := [] } u))) := by
  subst hu
  unfold execYrdChReset
  rw [hone]
  rfl

theorem execYrdChResume_resumes {w : BusW} (hone : wrote1 30 w = true) :
    execYrdChResume n w s = .next (yrdUnhalt n (ychWrite n w s)) := by
  simp [execYrdChResume, hone]

end

/-- Settles O53: one lemma per doorbell, descriptor, move and reset, for the case that the premises name. -/
theorem yarderChannels : Obligations.YarderChannels :=
  ⟨fun _ _ => rfl,
    fun _ _ hready hturn _ hown => execYrdDescStart_stops hready hturn hown,
    fun _ _ hready hturn hnoabort hown hidle hok =>
      execYrdDescStart_begins hready hturn hnoabort hown hidle hok rfl rfl,
    fun _ _ hready hturn hnoabort hown hidle hnoahead hbad =>
      execYrdDescStart_refuses hready hturn hnoabort hown hidle hnoahead hbad rfl rfl,
    fun _ _ hready hturn hnoabort hown hbusy hok =>
      execYrdDescStart_beginsAhead hready hturn hnoabort hown hbusy hok rfl rfl,
    fun _ _ _ _ hcur _ hdst hfree => execYrdDescEnd_moves hcur hdst hfree,
    fun _ _ _ _ hcur _ hdst hwell hfree hissue => execYrdDescEnd_stalls hcur hdst hwell hfree hissue,
    fun _ _ _ hone => execYrdChReset_aborts hone rfl,
    fun _ _ _ hone => execYrdChResume_resumes hone⟩

end Sys2Proof.Proofs
end

section
/-! PROOFS. Blaze records (chapter 13): posted, written in two programs, retried, and found again by the scan. -/

namespace Sys2Proof.Proofs

open Sys2Proof Sys2Proof.Machine Sys2Proof.Laws

section
variable {s u v : State} {k : Nat} {r : BlzRec} {l : List BlzRec}

/-- DROPPED after a post: 1 when entering the record has counted one more as dropped (R450). -/
def blzDropped (s t : State) : Nat := (decide (s.blz.drop < t.blz.drop)).toNat

theorem execBlazePost_posts {c : Fin 4} {w : BusW} (hone : wrote1 31 w = true) (hu : u = busWrite R.BLZ_POST_CTL c 0 w s)
    (hv : v = blzEnter 1 (fld F.BLZ_POST_CTL_SRC c u + fld F.BLZ_POST_CTL_CLASS c u * 512) (rd R.BLZ_POST_DATA c 0 u) u) :
    execBlazePost (.cp c) (Fin.castSucc c) w s = .next (put F.BLZ_POST_CTL_DROPPED c (blzDropped u v) v) := by
  subst hu hv
  simp [execBlazePost, hone, blzDropped]

/-! ### The writer (R447, R451, R454) -/

section
variable (hscanned : s.blz.scanned = true) (hidle : s.blz.phase = .idle) (hfree : s.blz.erasing = none)
include hscanned hidle hfree

theorem execBlazeWriteStart_erases {n : Nat} (hsome : s.blz.queue ≠ []) (hnext : blzEraseNext s = some n) :
    execBlazeWriteStart s =
      .next (put F.BLZ_STAT_ERASING 0 1 { s with blz := { s.blz with erasing := some n } }) := by
  simp [execBlazeWriteStart, hscanned, hidle, hfree, hsome, hnext]

/-- With another record behind it, the record at the front leaves the chain of repeats as it is. -/
theorem execBlazeWriteStart_programs {q : BlzRec} (hqueue : s.blz.queue = r :: q :: l) (hnext : blzEraseNext s = none) :
    execBlazeWriteStart s = .next { s with blz := { s.blz with phase := .body (blzSlot s) } } := by
  simp [execBlazeWriteStart, hscanned, hidle, hfree, hqueue, hnext]

end

section
variable (hphase : s.blz.phase = .body k) (hqueue : s.blz.queue = r :: l)
include hphase hqueue

theorem execBlazeBodyProgrammed_marks
    (hu : u = mirrorCopy (32 * k) 32 (norProgram (blzNorAddr k + 1) ((blzBytes r).drop 1) s)) :
    execBlazeBodyProgrammed true s = .next { u with blz := { u.blz with phase := .mark k } } := by
  subst hu
  simp only [execBlazeBodyProgrammed, hphase, hqueue, if_true]

theorem execBlazeBodyProgrammed_retries :
    execBlazeBodyProgrammed false s = .next (blzRetry k (norSpoil (blzNorAddr k + 1) 31 s)) := by
  simp only [execBlazeBodyProgrammed, hphase, hqueue, Bool.false_eq_true, if_false]

end

section
variable (hphase : s.blz.phase = .mark k)
include hphase

theorem execBlazeMarkProgrammed_frees (hu : u = mirrorCopy (32 * k) 32 (norProgram (blzNorAddr k) [0x5A] s)) :
    execBlazeMarkProgrammed true s = .next (blzDropRec (blzNextSlot
      { u with blz := { u.blz with phase := .idle, queue := u.blz.queue.drop 1 } })) := by
  subst hu
  simp only [execBlazeMarkProgrammed, hphase, if_true]

theorem execBlazeMarkProgrammed_retries :
    execBlazeMarkProgrammed false s = .next (blzRetry k (norSpoil (blzNorAddr k) 1 s)) := by
  simp only [execBlazeMarkProgrammed, hphase, Bool.false_eq_true, if_false]

end

section
variable {n : Nat} (herasing : s.blz.erasing = some n)
include herasing

theorem execBlazeEraseDone_clears (hu : u = norErase (0x01980000 + (0x2000 + 4096 * n)) 4096 s) :
    execBlazeEraseDone true s = .next (put F.BLZ_STAT_ERASING 0 0
      { u with mirror := Tab.clear u.mirror (0x2000 + 4096 * n) (0x2000 + 4096 * n + 4096)
               blz := { u.blz with erasing := none, erased := some n } }) := by
  subst hu
  simp only [execBlazeEraseDone, herasing, if_true]

/-- A failed erase is tried in the next sector of the ring but the one that is written (log entry 39). -/
theorem execBlazeEraseDone_goesOn : execBlazeEraseDone false s =
    .next (norFailed { s with blz := { s.blz with erasing := some (eraseAfter s n) } }) := by
  simp only [execBlazeEraseDone, herasing, Bool.false_eq_true, if_false]

end

/-! ### The scan (R455, R456) -/

theorem execBlazeScanDone_ready (hscanning : fld F.BLZ_STAT_STATE 0 s = 1)
    (hu : u = mirrorCopy 0 147456 { s with mirror := [] })
    (hv : v = renumber (scanSeq u) { u with blz := { u.blz with
      scanned := true, perm := scanPerm u, circ := scanCirc u, phase := .idle, erased := none } }) :
    execBlazeScanDone s = .next (blzQueue 3 ((Config.openVal 449 [3]).toNat % 65536) v.blz.lastPcycle none
      (put F.BLZ_STAT_STATE 0 2 v)) := by
  subst hu hv
  rw [execBlazeScanDone, if_neg (not_not.2 hscanning)]

end

/-- Settles O54: one lemma per post, program, erase and scan, for the case that the premises name. -/
theorem blazeRecords : Obligations.BlazeRecords :=
  ⟨fun _ _ _ hone => execBlazePost_posts hone rfl rfl,
    fun _ _ hscanned hsome hidle hfree hnext => execBlazeWriteStart_erases hscanned hidle hfree hsome hnext,
    fun _ _ _ _ hscanned hqueue hidle hfree hnext => execBlazeWriteStart_programs hscanned hidle hfree hqueue hnext,
    fun _ _ _ _ hphase hqueue => execBlazeBodyProgrammed_marks hphase hqueue rfl,
    fun _ _ _ _ hphase hqueue => execBlazeBodyProgrammed_retries hphase hqueue,
    fun _ _ hphase => execBlazeMarkProgrammed_frees hphase rfl,
    fun _ _ hphase => execBlazeMarkProgrammed_retries hphase,
    fun _ _ herasing => execBlazeEraseDone_clears herasing rfl,
    fun _ _ herasing => execBlazeEraseDone_goesOn herasing,
    fun _ hscanning => execBlazeScanDone_ready hscanning rfl rfl⟩

end Sys2Proof.Proofs
end

section
/-! PROOFS. The power-loss signal, the dump to the safe store and its restore (chapter 16). -/

namespace Sys2Proof.Proofs

open Sys2Proof Sys2Proof.Machine Sys2Proof.Laws

section
variable {s u v : State} {d : DumpRun} {p : Nat × Nat}

theorem execPowerLossSignal_starts (hen : flag F.CPR_PL_PWRFAIL_EN 0 s = true) (hpower : s.cpr.stage ≠ 0) :
    execPowerLossSignal s = .next (powerLoss s) := by
  simp [execPowerLossSignal, hen, hpower]

/-! ### Its pages and its header (R538–R540, R543, R546) -/

section
variable {l : List Ecc} (hdump : s.cpr.dump = some d) (hrun : fld F.CPR_DUMP_CTL_STATE 0 s = 2)
  (hdata : d.page + 1 < dumpPages s) (hplace : dumpAt s d.remaps d.page = some p) (hu : u = dumpLook d.page l s)
include hdump hrun hdata hplace hu

theorem execDumpPageDone_counts : execDumpPageDone true l s = .next (setDump (some { d with page := d.page + 1 })
    (put F.CPR_DUMP_STAT_PAGES 0 (d.page + 1) (nandProgram (dumpRow u p) (dumpPage u d.page) u))) := by
  subst hu
  simp [execDumpPageDone, hdump, hrun, Nat.not_le.2 hdata, hplace]

theorem execDumpPageDone_remaps {sp : Nat} (hspare : dumpSpare u d.spares = some sp) (hroom : d.remaps.length < 8) :
    execDumpPageDone false l s = .next (setDump
      (some { d with remaps := d.remaps ++ [(p.1, p.2, sp)], spares := d.spares + 1 })
      (put F.CPR_DUMP_STAT_REMAPS 0 (d.remaps.length + 1) (nandSpoil (dumpRow u p) u))) := by
  subst hu
  simp [execDumpPageDone, hdump, hrun, Nat.not_le.2 hdata, hplace, hspare, Nat.not_le.2 hroom]

end

/-- While LND_PROT has not moved, all of the write cache and of the in-place images is saved (R257, R258). -/
theorem dumpSave_unmoved (hstill : s.cpr.protMoved = false) : dumpSave s = { s with cpr := { s.cpr with
    savedCache := s.deck.cache, savedImages := (Tab.vals s.spr.passes).filter inPlace } } := by
  simp [dumpSave, hstill]

section
variable {supplies : Bool} (hdump : s.cpr.dump = some d) (hrun : fld F.CPR_DUMP_CTL_STATE 0 s = 2)
  (hlast : d.page + 1 = dumpPages s) (hplace : dumpHeaderAt s d = some p)
  (hu : u = put F.CPR_DUMP_STAT_PAGES 0 (d.page + 1) (nandProgram (dumpRow s p) (dumpHeader s d) s))
include hdump hrun hlast hplace hu

theorem execDumpEnd_saves : execDumpEnd true supplies s = .next (powerOff d.cause supplies (dumpIdle (dumpSave u))) := by
  subst hu
  simp [execDumpEnd, hdump, hrun, hlast, hplace]

theorem execDumpEnd_savesAll (hstill : u.cpr.protMoved = false) (hv : v = { u with cpr := { u.cpr with
      savedCache := u.deck.cache, savedImages := (Tab.vals u.spr.passes).filter inPlace } }) :
    execDumpEnd true supplies s = .next (powerOff d.cause supplies (dumpIdle v)) := by
  rw [execDumpEnd_saves hdump hrun hlast hplace hu, dumpSave_unmoved hstill, hv]

end

/-! ### Arming and restoring (R544, R545) -/

section
variable {w : BusW} (hu : u = dumpCtlWrite w s) (hidle : fld F.CPR_DUMP_CTL_STATE 0 u = 0)
include hu hidle

theorem execDumpArm_arms (hone : wrote1 0 w = true) (henough : dumpNeed u ≤ (dumpEntries u).length) :
    execDumpArm w s = .next (put F.CPR_DUMP_CTL_ERR 0 0 (put F.CPR_DUMP_CTL_STATE 0 1 (put F.CPR_DUMP_CTL_ARM 0 1 u))) := by
  subst hu
  simp [execDumpArm, hidle, hone, Nat.not_lt.2 henough]

theorem execDumpArm_refuses (hone : wrote1 0 w = true) (hfew : (dumpEntries u).length < dumpNeed u) :
    execDumpArm w s = .next (put F.CPR_DUMP_CTL_ERR 0 5 u) := by
  subst hu
  simp [execDumpArm, hidle, hone, hfew]

theorem execDumpRestore_starts (hone : wrote1 1 w = true) (hpower : flag F.CPR_PL_LOSS 0 u = false) :
    execDumpRestore w s = .next (put F.CPR_DUMP_CTL_ERR 0 0 (put F.CPR_DUMP_CTL_STATE 0 3 u)) := by
  subst hu
  simp [execDumpRestore, hidle, hone, hpower]

end

section
variable {l : List Nat} (hrestoring : fld F.CPR_DUMP_CTL_STATE 0 s = 3)
include hrestoring

theorem execDumpRestoreDone_unreadable (hbad : l.contains (dumpPages s - 1) = true) :
    execDumpRestoreDone l s = .next (restoreEnd 1 s) := by
  simp only [execDumpRestoreDone, hrestoring, ne_eq, not_true, if_false, hbad, if_true]

section
variable (hgood : l.contains (dumpPages s - 1) = false)
include hgood

theorem execDumpRestoreDone_noHeader (hnone : headerFind s = none) :
    execDumpRestoreDone l s = .next (restoreEnd 1 s) := by
  simp only [execDumpRestoreDone, hrestoring, ne_eq, not_true, if_false, hgood, Bool.false_eq_true, hnone]

/-- A header found is judged by its age, then by what the device could read, and then restored. -/
theorem execDumpRestoreDone_header {b : List Byte} (hfound : headerFind s = some b) : execDumpRestoreDone l s =
    .next (if later32 (le b 8 4) (fld F.CPR_DUMP_SEQ_DSEQ 0 s) = false then restoreEnd 2 s
      else if restoreOk s b l = false then restoreEnd 3 s else restored s b l) := by
  simp only [execDumpRestoreDone, hrestoring, ne_eq, not_true, if_false, hgood, Bool.false_eq_true, hfound,
    Bool.not_eq_true']

end

end

end

/-- Settles O59: one lemma per page, header, request and restore, for the case that the premises name; the
end of a restore splits on whether it finds a header. -/
theorem powerLossDump : Obligations.PowerLossDump := by
  refine ⟨fun _ hen hpower => execPowerLossSignal_starts hen hpower,
    fun _ _ _ _ hdump hrun hdata hplace => execDumpPageDone_counts hdump hrun hdata hplace rfl,
    fun _ _ _ _ _ hdump hrun hdata hplace hspare hroom =>
      execDumpPageDone_remaps hdump hrun hdata hplace rfl hspare hroom,
    fun _ _ _ _ hdump hrun hlast hplace hstill => execDumpEnd_savesAll hdump hrun hlast hplace rfl hstill rfl,
    fun _ _ _ _ hdump hrun hlast hplace _ => execDumpEnd_saves hdump hrun hlast hplace rfl,
    fun _ _ hidle hone henough => execDumpArm_arms rfl hidle hone henough,
    fun _ _ hidle hone hfew => execDumpArm_refuses rfl hidle hone hfew,
    fun _ _ hidle hone hpower => execDumpRestore_starts rfl hidle hone hpower,
    fun _ _ hrestoring hbad => execDumpRestoreDone_unreadable hrestoring hbad,
    fun _ _ hrestoring hgood => ?readable⟩
  case readable =>
    split
    next hnone => exact execDumpRestoreDone_noHeader hrestoring hgood hnone
    next b hfound => exact execDumpRestoreDone_header hrestoring hgood hfound

end Sys2Proof.Proofs
end

section
/-! PROOFS. Configuration transactions (chapter 15): begun, staged, committed, rolled back, timed out and queried. -/

namespace Sys2Proof.Proofs

open Sys2Proof Sys2Proof.Machine Sys2Proof.Laws

section
variable {k : Option (Fin 4096)} {j : Fin 4096} {w : BusW} {o : Option Cmd} {x : Cmd} {s u v : State}

/-! ### Requests (R508, R512) -/

/-- The Setpoint Transaction command in a slot asks, and its asking changes nothing. -/
theorem txnAsk_command {a : Nat} (hx : admAct s j 0xC0 a = some x) : txnAsk (some j) w a s = (some (some x), s) := by
  simp only [txnAsk, hx, Option.map_some]

section
variable (hask : txnAsk k w 0 s = (some o, u))
include hask

theorem execTxnBegin_opens {id : Nat} (hidle : txnState u = 0) (hid : id = (fld F.CFG_TXN_ID_TXID 0 u + 1) % 2 ^ 32)
    (hv : v = put F.CFG_TXN_ID_TXID 0 id (put F.CFG_TXN_STAT_OWNER 0 o.isNone.toNat (put F.CFG_TXN_STAT_STATE 0 1 u))) :
    execTxnBegin k w s = .next (txnEnd o 0 id { v with cfg := { v.cfg with
      stage := [], timer := v.time, timedOut := v.cfg.timedOut.filter (· != id) } }) := by
  subst hid hv
  simp only [execTxnBegin, hask, hidle, ne_eq, not_true, if_false]

theorem execTxnBegin_conflicts (hopen : txnState u ≠ 0) :
    execTxnBegin k w s = .next (txnEnd o stTxnConflict 0 u) := by
  simp only [execTxnBegin, hask, hopen, ne_eq, not_false_eq_true, if_true]

end

theorem execTxnStage_firmware (hask : txnAsk none w 1 s = (some none, u)) :
    execTxnStage none w s = .next (txnOn none (stageItems none) u) := by
  simp only [execTxnStage, hask, Option.map_none, Option.getD_none, Bool.false_eq_true, if_false]

theorem execTxnStage_command (hx : admAct s j 0xC0 1 = some x) (hready : inReady x = true) :
    execTxnStage (some j) w s = .next (txnOn (some x) (stageItems (some x)) s) := by
  simp only [execTxnStage, txnAsk_command hx, hready, Bool.not_true, Bool.false_and, Option.map_some, Option.getD_some,
    Bool.false_eq_true, if_false]

theorem execTxnCommit_starts (hask : txnAsk k w 2 s = (some o, u)) :
    execTxnCommit k w s = .next (txnOn o (commitStart o) u) := by
  simp only [execTxnCommit, hask]

theorem execTxnRollback_ends (hask : txnAsk k w 3 s = (some o, u)) :
    execTxnRollback k w s = .next (txnOn o (fun v => txnEnd o 0 0 (txnIdle v)) u) := by
  simp only [execTxnRollback, hask]

theorem execTxnQuery_answers (hx : admAct s j 0xC0 4 = some x) (hid : cdw x 11 = fld F.CFG_TXN_ID_TXID 0 s)
    (hintime : s.cfg.timedOut.contains (cdw x 11) = false) :
    execTxnQuery (some j) w s = .next (admEnd x 0 (putBits (rd R.CFG_TXN_STAT 0 0 s) 4 4 0) s) := by
  have hother : (decide (cdw x 11 ≠ fld F.CFG_TXN_ID_TXID 0 s) || s.cfg.timedOut.contains (cdw x 11)) = false := by
    rw [hintime, hid]
    simp
  simp only [execTxnQuery, txnAsk_command hx, hother, Bool.false_eq_true, if_false]

theorem execTxnQuery_firmware (hask : txnAsk none w 4 s = (some none, u)) :
    execTxnQuery none w s = .next (put F.CFG_TXN_CTL_GO 0 0 u) := by
  simp only [execTxnQuery, hask]
  rfl

/-! ### A commit (R513–R516) -/

/-- The merged record stands in the copy that the commit writes. -/
def recordStored (s : State) : State :=
  norProgram (copyAddr (copyTarget s)) s.cfg.merged
    (norErase (copyAddr (copyTarget s)) (ceilDiv s.cfg.merged.length 4096 * 4096) s)

section
variable (hcommitting : txnState s = 2) (hnew : s.cfg.stored = false) (hu : u = recordStored s)
include hcommitting hnew hu

theorem execCommitStored_applies (hrun : flag F.FLT_STAT_SAFE 0 u = false) :
    execCommitStored true s = .next (commitApply u) := by
  subst hu
  unfold execCommitStored
  unfold recordStored at *
  simp only [hcommitting, hnew, hrun, ne_eq, not_true, decide_false, Bool.or_self, Bool.false_eq_true, if_false, Bool.not_true]

theorem execCommitStored_safe (hsafe : flag F.FLT_STAT_SAFE 0 u = true) :
    execCommitStored true s = .next (commitEnd s.cfg.num 0 0 0 u) := by
  subst hu
  unfold execCommitStored
  unfold recordStored at *
  simp only [hcommitting, hnew, hsafe, ne_eq, not_true, decide_false, Bool.or_self, Bool.false_eq_true, if_false, Bool.not_true,
    if_true]
  rfl

end

theorem execCommitArmQuiet_takes {a : Fin 4} (hcommitting : txnState s = 2) (hheld : cfgHeld s a = true)
    (hquiet : armQuiet s a = true) (hu : u = itemsApply ((staged s).filter (fun x => (itemArms x).contains a)) s) :
    execCommitArmQuiet a s =
      .next (commitBlobs { u with cfg := { u.cfg with arms := u.cfg.arms.filter (· != a.val) } }) := by
  subst hu
  simp only [execCommitArmQuiet, hcommitting, hheld, hquiet, ne_eq, not_true, decide_false, Bool.not_true, Bool.or_self,
    Bool.false_eq_true, if_false]

theorem execCfgBlobDone_completes (hone : wrote1 1 w = true) (hcommitting : txnState s = 2) (hstored : s.cfg.stored = true)
    (hquiet : s.cfg.arms = []) (hblob : s.cfg.blob = true) : execCfgBlobDone w s = .next (commitDone s) := by
  simp [execCfgBlobDone, hone, hcommitting, hstored, hquiet, hblob]

/-! ### The timeout (R512) -/

theorem execTxnRollbackTimeout_rollsBack (hopen : txnState s = 1)
    (hdue : s.cfg.timer + 1000000 * max 1000 (fld F.CFG_TXN_TMO_MS 0 s) ≤ s.time) :
    execTxnRollbackTimeout s = .next (raiseEvent 137 (txnIdle
      { s with cfg := { s.cfg with timedOut := fld F.CFG_TXN_ID_TXID 0 s :: s.cfg.timedOut } })) := by
  simp only [execTxnRollbackTimeout, hopen, Nat.not_lt.2 hdue, ne_eq, not_true, decide_false, Bool.or_self,
    Bool.false_eq_true, if_false]

end

/-- Settles O50: one lemma per action, commit step and timeout, for the case that the premises name. -/
theorem configurationTransactions : Obligations.ConfigurationTransactions :=
  ⟨fun _ _ _ _ hask hidle => execTxnBegin_opens (Prod.ext hask rfl) hidle rfl rfl,
    fun _ _ _ _ hask hopen => execTxnBegin_conflicts (Prod.ext hask rfl) hopen,
    fun _ _ hask => execTxnStage_firmware (Prod.ext hask rfl),
    fun _ _ _ _ hx hready => execTxnStage_command hx hready,
    fun _ _ _ _ hask => execTxnCommit_starts (Prod.ext hask rfl),
    fun _ _ _ _ hask => execTxnRollback_ends (Prod.ext hask rfl),
    fun _ _ _ _ hx hid hintime => execTxnQuery_answers hx hid hintime,
    fun _ _ hask => execTxnQuery_firmware (Prod.ext hask rfl),
    fun _ hcommitting hnew hrun => execCommitStored_applies hcommitting hnew rfl hrun,
    fun _ hcommitting hnew hsafe => execCommitStored_safe hcommitting hnew rfl hsafe,
    fun _ _ hcommitting hheld hquiet => execCommitArmQuiet_takes hcommitting hheld hquiet rfl,
    fun _ _ hone hcommitting hstored hquiet hblob => execCfgBlobDone_completes hone hcommitting hstored hquiet hblob,
    fun _ hopen hdue => execTxnRollbackTimeout_rollsBack hopen hdue⟩

end Sys2Proof.Proofs
end

section
/-! PROOFS. Duties of management (chapter 15): the end of boot, the watchdog, the life record, sensors, wear and fuses. -/

namespace Sys2Proof.Proofs

open Sys2Proof Sys2Proof.Machine Sys2Proof.Laws

section
variable {w : BusW} {s u : State}

/-! ### Boot, lock, watchdog and life record (R486, R490, R500, R511) -/

theorem execBootComplete_releases (hstage : s.cpr.stage = 2) (hpower : flag F.CPR_PL_LOSS 0 s = false) :
    execBootComplete s = .next (bootRelease (ratioCheck (cfgBoot (bootSlot s)))) := by
  simp [execBootComplete, hstage, hpower]

theorem execCfgLock_locks (hone : wrote1 0 w = true) : execCfgLock w s = .next (bootCommit s) := by
  simp [execCfgLock, hone]

theorem execWdtKick_restarts (hoff : flag F.MGT_WDT_EN 0 s = false) (hone : wrote1 31 w = true)
    (hu : u = busWrite R.MGT_WDT 0 0 w s) : execWdtKick w s = .next { u with mgt := { u.mgt with wdt := u.time } } := by
  subst hu
  simp [execWdtKick, hoff, hone]

theorem execWdtExpire_reports (hon : flag F.MGT_WDT_EN 0 s = true) (hrun : s.cpr.lyHeld = false)
    (hdue : s.mgt.wdt + 1000000 * fld1 F.MGT_WDT_TMO 0 s ≤ s.time) :
    execWdtExpire s = .next (report 216 none 5 0 0 0 { s with mgt := { s.mgt with wdt := s.time } }) := by
  simp [execWdtExpire, hon, hrun, hdue]

theorem execLifeRecordSave_saves (hrun : mgtRuns s = true)
    (hdue : s.mgt.saved + fld1 F.MGT_CTL_SAVE_S 0 s ≤ fld F.BLZ_TIME_SECONDS 0 s) :
    execLifeRecordSave s = .next (lifeSave s) := by
  simp [execLifeRecordSave, hrun, hdue]

/-! ### Sensors (R491–R493, R559) -/

/-- The samples in a row, up to 100, at which input `n` has stood at a rail. -/
def railCount (n : Nat) (v : Int) (s : State) : Nat :=
  if v ≤ 0 ∨ 1200000000 ≤ v then min 100 (Tab.get s.mgt.rails 0 n + 1) else 0

/-- The state with a sample of input `n` counted. -/
def railCounted (n : Nat) (v : Int) (s : State) : State :=
  { s with mgt := { s.mgt with rails := Tab.set s.mgt.rails 0 n (railCount n v s) } }

theorem flag_railCounted (f : Field) (i n : Nat) (v : Int) : flag f i (railCounted n v s) = flag f i s := rfl

section
variable (hon : mgtOn s = true)
include hon

theorem execThermalSample_checks {t : List (BitVec 16)}
    (hu : u = upTo 8 (fun k v => put F.MGT_TEMP_TEMP k (t.getD k 0).toNat v) s) :
    execThermalSample t s = .next (dieCheckers (tDie u) (tempEvents (tDie s) (tDie u) u)) := by
  subst hu
  simp only [execThermalSample, hon, Bool.not_true, Bool.false_eq_true, if_false]

section
variable {n : Fin 4} {v : Int}

theorem execThermistorSample_disabled (hdis : flag F.MGT_THM_EN n s = false) (hu : u = railCounted n v s) :
    execThermistorSample n v s = .next (thmChecker n (put F.MGT_THM_TEMP n 0x8000 u)) := by
  have hdis' : flag F.MGT_THM_EN n u = false := by rw [hu, flag_railCounted]; exact hdis
  simp only [railCounted, railCount] at hu
  simp only [execThermistorSample, hon, Bool.or_eq_true, decide_eq_true_eq, ← hu, hdis', Bool.not_true, Bool.not_false,
    Bool.false_eq_true, if_false, if_true]

/-- Between the rails the ratio of the balls gives the temperature, and the input is not open. -/
theorem execThermistorSample_measures (hen : flag F.MGT_THM_EN n s = true) (hlo : 0 < v) (hhi : v < 1200000000)
    (hu : u = { s with mgt := { s.mgt with rails := Tab.set s.mgt.rails 0 n.val 0 } }) :
    execThermistorSample n v s = .next (thmChecker n (put F.MGT_THM_OPEN n 0 (put F.MGT_THM_TEMP n
      (thmTemp (v * 2 ^ 32 / (1200000000 - v)).toNat (fld F.MGT_THM_BETA n u)) u))) := by
  have hen' : flag F.MGT_THM_EN n u = true := by rw [hu]; exact hen
  simp only [execThermistorSample, hon, Int.not_le.2 hlo, Int.not_le.2 hhi, decide_false, Bool.or_self, ← hu, hen',
    Bool.false_and, Bool.not_true, Bool.false_eq_true, if_false]

theorem execThermistorOpen_opens (hen : flag F.MGT_THM_EN n s = true) (hclosed : flag F.MGT_THM_OPEN n s = false)
    (hrail : 100 ≤ Tab.get s.mgt.rails 0 n.val) : execThermistorOpen n s = .next (thmChecker n
      (raiseEvent 139 (put F.MGT_THM_OPEN n 1 (put F.MGT_THM_TEMP n 0x8000 s)))) := by
  simp [execThermistorOpen, hon, hen, hclosed, Nat.not_lt.2 hrail]

end

/-- A monitor other than the one of the power-loss signal. -/
theorem execMonitorSample_checks {n : Fin 6} {v i : Int} (hn : n.val ≠ 3) :
    execMonitorSample n v i s = .next (monChecker n (voltCode 4095 v).toNat
      (put F.MGT_MON_V n (voltCode 4095 v).toNat (put F.MGT_MON_I n (senseCode i).toNat s))) := by
  simp only [execMonitorSample, hon, hn, ne_eq, not_false_eq_true, if_true, decide_false, Bool.false_and, Bool.not_true,
    Bool.false_eq_true, if_false]

theorem execRoSample_stores {t : List (BitVec 16)} :
    execRoSample t s = .next (upTo 16 (fun k v => put F.MGT_RO_SLOW k (t.getD k 0).toNat v) s) := by
  simp only [execRoSample, hon, Bool.not_true, Bool.false_eq_true, if_false]

end

/-! ### Wear (R494, R495) -/

/-- The wear record of region `r` with one more sample. -/
def wearSampled (r m : Nat) (s : State) : WearRec :=
  wearFit (powerHours s) { Tab.get s.mgt.wear {} r with
    hist := ((powerHours s, m) :: (Tab.get s.mgt.wear {} r).hist).take 64 }

theorem execWearSample_joins {r : Fin 72} {m : Nat} {y : WearRec} (hrun : mgtRuns s = true)
    (hen : flag F.MGT_CTL_WEAR_EN 0 s = true) (hfree : wearFenced s r = false) (hdue : wearDue s r (powerHours s) = true)
    (hy : y = wearSampled r m s) (hgood : y.state ≠ 3) :
    execWearSample r m s = .next { s with mgt := { s.mgt with
      wear := Tab.put s.mgt.wear r y, wearChange := (s.mgt.wearChange + 1) % 2 ^ 32,
      capSeen := s.mgt.capSeen || decide (r.val = 69) } } := by
  unfold wearSampled at hy
  simp only [execWearSample, hrun, hen, hfree, hdue, ← hy, hgood, Bool.not_true, Bool.or_self, decide_false,
    Bool.false_and, Bool.false_eq_true, if_false]

/-! ### Fuses (R498) -/

theorem execFuseBurn_starts (hu : u = busWrite R.MGT_FUSE 0 0 w s) (hone : wrote1 31 w = true)
    (hen : flag F.MGT_CTL_FUSE_EN 0 u = true) (hidle : u.mgt.burn = none) :
    execFuseBurn w s = .next (put F.MGT_FUSE_GO 0 1 { u with mgt := { u.mgt with burn := some (fld F.MGT_FUSE_OP 0 u,
      if fld F.MGT_FUSE_OP 0 u = 0 then fld F.MGT_FUSE_SVN 0 u else fld F.MGT_FUSE_KEY 0 u) } }) := by
  simp only [execFuseBurn, ← hu, hone, hen, hidle, Option.isSome_none, Bool.not_true, Bool.or_self, Bool.false_eq_true,
    if_false]

theorem execFuseBurnDone_ends {op v : Nat} (hburn : s.mgt.burn = some (op, v)) (ok : Bool) : execFuseBurnDone ok s =
    .next (put F.MGT_FUSE_GO 0 0 (put F.MGT_FUSE_DONE 0 1 (put F.MGT_FUSE_FAIL 0 (!ok).toNat
      { s with fuse := if ok then fuseSet op v s.fuse else fuseFailed op v s.fuse
               mgt := { s.mgt with burn := none } }))) := by
  simp only [execFuseBurnDone, hburn]

end

/-- Settles O57: one lemma per duty and sample, for the case that the premises name. -/
theorem managementDuties : Obligations.ManagementDuties :=
  ⟨fun _ hstage hpower => execBootComplete_releases hstage hpower,
    fun _ _ hone => execCfgLock_locks hone,
    fun _ _ hoff hone => execWdtKick_restarts hoff hone rfl,
    fun _ hon hrun hdue => execWdtExpire_reports hon hrun hdue,
    fun _ hrun hdue => execLifeRecordSave_saves hrun hdue,
    fun _ _ hon => execThermalSample_checks hon rfl,
    fun _ _ _ hon hdis => execThermistorSample_disabled hon hdis rfl,
    fun _ _ _ hon hen hlo hhi => execThermistorSample_measures hon hen hlo hhi rfl,
    fun _ _ hon hen hclosed hrail => execThermistorOpen_opens hon hen hclosed hrail,
    fun _ _ _ _ hon hn => execMonitorSample_checks hon hn,
    fun _ _ hon => execRoSample_stores hon,
    fun _ _ _ hrun hen hfree hdue hgood => execWearSample_joins hrun hen hfree hdue rfl hgood,
    fun _ _ hone hen hidle => execFuseBurn_starts rfl hone hen hidle,
    fun _ _ _ hburn => execFuseBurnDone_ends hburn true,
    fun _ _ _ hburn => execFuseBurnDone_ends hburn false⟩

end Sys2Proof.Proofs
end

section
/-! PROOFS. Firmware images and activations, and the management interface (chapter 15). -/

namespace Sys2Proof.Proofs

open Sys2Proof Sys2Proof.Machine Sys2Proof.Laws

/-! ### Download and commit (R502) -/

section
variable {k : Fin 4096} {x : Cmd} {s u : State}

section
variable (hx : adm s k 0x11 = some x) (hready : inReady x = true)
include hx hready

theorem execFwImageDownload_stores (hfits : 4 * cdw x 11 + adminIn x ≤ 0x600000)
    (hu : u = hwWrite 13 (actBuf s + 4 * cdw x 11) (x.data.take (adminIn x)) 0 0 s) :
    execFwImageDownload k s = .next (admEnd x 0 0 { u with mgt := { u.mgt with fresh := true } }) := by
  subst hu
  simp only [execFwImageDownload, hx, hready, Nat.not_lt.2 hfits, Bool.not_true, Bool.false_eq_true, if_false]

theorem execFwImageDownload_refuses (hbeyond : 0x600000 < 4 * cdw x 11 + adminIn x) :
    execFwImageDownload k s = .next (admEnd x stField 0 s) := by
  simp only [execFwImageDownload, hx, hready, hbeyond, Bool.not_true, Bool.false_eq_true, if_false, if_true]

end

theorem execFwCommitStore_stores (hx : fwCmd s k 0 = some x) :
    execFwCommitStore k s = .next (fwStoring x (fun _ v => admEnd x 0 0 v) s) := by
  simp only [execFwCommitStore, hx]

theorem execFwCommitStoreNext_stores (hx : fwCmd s k 1 = some x) : execFwCommitStoreNext k s =
    .next (fwStoring x (fun n v => admEnd x stFwReset 0 (selWrite (selActive v) n v)) s) := by
  simp only [execFwCommitStoreNext, hx]

theorem execFwCommitSlotNext_chooses (hx : fwCmd s k 2 = some x) (hslot : fwTarget s x ≤ 4) {r : Bool × State}
    (hr : r = imgCheck (.nor (slotAddr (fwTarget s x))) s) : execFwCommitSlotNext k s =
    .next (if r.1 then admEnd x stFwReset 0 (selWrite (selActive r.2) (fwTarget s x) r.2)
      else admEnd x stFwImage 0 r.2) := by
  simp only [execFwCommitSlotNext, hx, Nat.not_lt.2 hslot, if_false, ← hr]
  cases r.1 <;> rfl

/-- The Firmware Commit in hand waits for the activation of slot `n` (R503). -/
def fwActivating (x : Cmd) (n : Nat) (s : State) : State :=
  setCmd { x with phase := .active } { s with mgt := { s.mgt with act := some ⟨1, x.num, n, false, 0⟩ } }

theorem execFwCommitActivate_starts (hx : fwCmd s k 3 = some x) (hidle : s.mgt.act = none) (hfresh : s.mgt.fresh = true) :
    execFwCommitActivate k s = .next (fwStoring x (fwActivating x) s) := by
  simp only [execFwCommitActivate, hx, hidle, hfresh, Option.isSome_none, Bool.false_eq_true, if_false, if_true]
  rfl

end

/-! ### Activation without reset (R503–R505) -/

section
variable {x : Activation} {w : BusW} {s u v : State}

/-- Recovery has no running image to keep beside the staged one. -/
theorem execActStaged_announces (hx : s.mgt.act = some x) (hphase : x.phase = 1)
    (hrecovery : fld F.MGT_STAT_BOOT_SLOT 0 s = 0) (hu : u = hwWrite 5 (actBuf s) (imgBytes s (.nor (slotAddr x.slot)) 0
      (min 0x600000 (imgLen s (.nor (slotAddr x.slot))))) 0 0 s) :
    execActStaged s = .next (asyncAll 2 1 (setAct (some { x with phase := 2 }) u)) := by
  subst hu
  simp only [execActStaged, hx, hphase, hrecovery, ne_eq, not_true, if_false, if_true]

theorem execActGo_goes (hu : u = put F.MGT_ACT_GO 0 1 (busWrite R.MGT_ACT 0 0 w s)) (hone : wrote1 31 w = true)
    (hx : u.mgt.act = some x) (hphase : x.phase = 2) :
    execActGo w s = .next (actWaiting (setAct (some { x with go := true }) u)) := by
  simp only [execActGo, hone, ← hu, hx, hphase, Bool.not_true, Bool.false_eq_true, if_false, if_true]

/-- The activation of `x` is over: its slot runs, and the commit that waited for it ends. -/
def actEnded (x : Activation) (s : State) : State :=
  actEnd x.num 0 (put F.MGT_ACT_GO 0 0 (put F.MGT_ACT_DONE 0 0 (put F.MGT_STAT_BOOT_SLOT 0 x.slot (setAct none s))))

theorem execActDone_ends (hu : u = put F.MGT_ACT_DONE 0 1 (busWrite R.MGT_ACT 0 0 w s)) (hone : wrote1 30 w = true)
    (hx : u.mgt.act = some x) (hphase : x.phase = 3)
    (hv : v = actEnded x (selWrite x.slot (((selector u).map (·.next)).getD 0) u)) : execActDone w s =
    .next (if (imgSegs v (.nor (slotAddr x.slot))).any (fun g => g.target == 1) then lyoloReset v else v) := by
  unfold actEnded at hv
  simp only [execActDone, hone, ← hu, hx, hphase, ← hv, Bool.not_true, Bool.false_eq_true, ne_eq, not_true, if_false]

theorem execActTimeout_reverts (hx : s.mgt.act = some x) (hphase : x.phase = 3)
    (hdue : x.t + 1000000 * min 120 (fld1 F.MGT_ACT_TMO 0 s) ≤ s.time)
    (hu : u = put F.MGT_ACT_GO 0 0 (put F.MGT_ACT_DONE 0 0 (put F.MGT_ACT_REVERTED 0 1
      (setAct none (segsLoad false (.land (prevBuf s)) s))))) :
    execActTimeout s = .next (blzEnter 1 (Config.openVal 504 [0]).toNat (Config.openVal 504 [1]).toNat
      (actEnd x.num stFwImage u)) := by
  simp only [execActTimeout, hx, hphase, Nat.not_lt.2 hdue, ← hu, ne_eq, not_true, decide_false, Bool.or_self,
    Bool.false_eq_true, if_false]

end

/-! ### MCTP control (R506) -/

section
variable {h : Byte} {s : State}

theorem execMctpSetEndpointId_takes {op : BitVec 2} {e : BitVec 8} (hup : miUp s = true) (hop : op.toNat < 2)
    (hlegal : 8 ≤ e.toNat) (hbroadcast : e.toNat ≠ 255) : execMctpSetEndpointId h op e s =
    .next (mctpSend h 1 0 [0, e, 0] { s with mgt := { s.mgt with eid := e.toNat } }) := by
  simp only [execMctpSetEndpointId, hup, Nat.not_le.2 hop, Nat.not_lt.2 hlegal, hbroadcast, decide_false, Bool.or_self,
    Bool.not_true, Bool.false_eq_true, if_false]

theorem execMctpSetEndpointId_refuses {op : BitVec 2} {e : BitVec 8} (hup : miUp s = true) (hreserved : e.toNat < 8) :
    execMctpSetEndpointId h op e s = .next (mctpSend h 1 2 [] s) := by
  simp only [execMctpSetEndpointId, hup, hreserved, decide_true, Bool.or_true, Bool.true_or, Bool.not_true,
    Bool.false_eq_true, if_false, if_true]

theorem execMctpGetVersionSupport_known {ty : Byte} (hty : ty = 0xFF ∨ ty = 0 ∨ ty = 4) :
    execMctpGetVersionSupport h ty s =
      .next (mctpSend h 4 0 (1 :: bytesOf 4 (Config.openVal 506 [0, ty.toNat]).toNat) s) := by
  rcases hty with rfl | rfl | rfl <;> rfl

theorem execMctpGetVersionSupport_vendor : execMctpGetVersionSupport h 5 s = .next (mctpSend h 4 0x80 [] s) := rfl

/-! ### NVMe-MI (R475, R506) -/

theorem execReadNvmeMiDataStructure_port {p : BitVec 8} {ctl : BitVec 16} (hport : p.toNat ≤ 1) :
    execReadNvmeMiDataStructure h 1 p ctl s = .next (miData h (miPort s p.toNat) s) := by
  simp [execReadNvmeMiDataStructure, hport]

theorem execReadNvmeMiDataStructure_controller {p : BitVec 8} {ctl : BitVec 16} {f : Nat}
    (hf : (miFns s).find? (fun f => f + 1 == ctl.toNat) = some f) :
    execReadNvmeMiDataStructure h 3 p ctl s = .next (miData h (miCtrl s f) s) := by
  simp [execReadNvmeMiDataStructure, hf]

/-- Composite controller status: whether a controller is ready, whether one has failed, and the open rest. -/
def miStatus (s : State) : Nat :=
  ((miFns s).any (fun f => flag F.CSTS_RDY f s)).toNat + 2 * ((miFns s).any (fun f => flag F.CSTS_CFS f s)).toNat +
    4 * ((Config.openVal 506 [4]).toNat % 2 ^ 14)

/-- Out of the safe state the subsystem functions and needs no reset: bits 5 and 4 of its status. -/
theorem execSubsystemHealthPoll_well (hwell : flag F.FLT_STAT_SAFE 0 s = false) : execSubsystemHealthPoll h s =
    .next (miData h (bytesOf 1 (48 + 8 * (hostLinkUp s).toNat) ++ bytesOf 1 (255 - critWarn s 0) ++ bytesOf 1 (miTemp s) ++
      bytesOf 1 (deviceUsed s) ++ bytesOf 2 (miStatus s) ++ bytesOf 2 0) s) := by
  simp only [execSubsystemHealthPoll, hwell]
  rfl

theorem execConfigurationGet_speed : execConfigurationGet h 1 1 s =
    .next (miSend h 0 [if flag F.MGT_MI_FAST 0 s then 2 else 1, 0, 0] [] s) := by
  simp [execConfigurationGet]

theorem execConfigurationGet_unit :
    execConfigurationGet h 3 1 s = .next (miSend h 0 (bytesOf 2 s.mgt.mtu ++ [0]) [] s) := by
  simp [execConfigurationGet]

theorem execConfigurationSet_speed {v : BitVec 16} (hup : miUp s = true) (hv : v = 1 ∨ v = 2) :
    execConfigurationSet h 1 1 v s = .next (miSend h 0 [0, 0, 0] [] (put F.MGT_MI_FAST 0 (v.toNat - 1) s)) := by
  rcases hv with rfl | rfl <;> simp [execConfigurationSet, hup]

theorem execConfigurationSet_unit {v : BitVec 16} (hup : miUp s = true) (hmin : 64 ≤ v.toNat) :
    execConfigurationSet h 3 1 v s = .next (if v.toNat ≤ miMtuMax then
      miSend h 0 [0, 0, 0] [] { s with mgt := { s.mgt with mtu := v.toNat } } else miSend h miParam [0, 0, 0] [] s) := by
  simp [execConfigurationSet, hup, hmin]

theorem execVpdRead_sends {f n : BitVec 16} {b : List Byte} (hb : b = (recBlob s 3).take 256)
    (hin : f.toNat + n.toNat ≤ b.length) :
    execVpdRead h f n s = .next (miData h ((b.drop f.toNat).take n.toNat) s) := by
  simp only [execVpdRead, ← hb, Nat.not_lt.2 hin, if_false]

end

/-- Settles O56: one lemma per command, step and request, for the case that the premises name; where a request has one
answer in every state, its clause is the request's arm. -/
theorem firmwareAndManagementInterface : Obligations.FirmwareAndManagementInterface :=
  ⟨fun _ _ _ hx hready hfits => execFwImageDownload_stores hx hready hfits rfl,
    fun _ _ _ hx hready hbeyond => execFwImageDownload_refuses hx hready hbeyond,
    fun _ _ _ hx => execFwCommitStore_stores hx,
    fun _ _ _ hx => execFwCommitStoreNext_stores hx,
    fun _ _ _ hx hslot => execFwCommitSlotNext_chooses hx hslot rfl,
    fun _ _ _ hx hidle hfresh => execFwCommitActivate_starts hx hidle hfresh,
    fun _ _ hx hphase hrecovery => execActStaged_announces hx hphase hrecovery rfl,
    fun _ _ _ hone hx hphase => execActGo_goes rfl hone hx hphase,
    fun _ _ _ hone hx hphase => execActDone_ends rfl hone hx hphase rfl,
    fun _ _ hx hphase hdue => execActTimeout_reverts hx hphase hdue rfl,
    fun _ _ _ _ hup hop hlegal hbroadcast => execMctpSetEndpointId_takes hup hop hlegal hbroadcast,
    fun _ _ _ _ hup hreserved => execMctpSetEndpointId_refuses hup hreserved,
    fun _ _ => rfl,
    fun _ _ _ hty => execMctpGetVersionSupport_known hty,
    fun _ _ _ hty => hty ▸ execMctpGetVersionSupport_vendor,
    fun _ _ => rfl,
    fun _ _ _ _ => rfl,
    fun _ _ _ _ hport => execReadNvmeMiDataStructure_port hport,
    fun _ _ _ _ => rfl,
    fun _ _ _ _ _ hf => execReadNvmeMiDataStructure_controller hf,
    fun _ _ hwell => execSubsystemHealthPoll_well hwell,
    fun _ _ _ _ => rfl,
    fun _ _ => execConfigurationGet_speed,
    fun _ _ => execConfigurationGet_unit,
    fun _ _ _ hup hv => execConfigurationSet_speed hup hv,
    fun _ _ _ hup hmin => execConfigurationSet_unit hup hmin,
    fun _ _ _ _ hin => execVpdRead_sends rfl hin,
    fun _ _ => rfl⟩

end Sys2Proof.Proofs
end

section
/-! PROOFS. Clock monitors, RETRACT_N, arm domains, sleep levels, power-up and the resets of the cores (chapter 16). -/

namespace Sys2Proof.Proofs

open Sys2Proof Sys2Proof.Machine Sys2Proof.Laws

section
variable {w : BusW} {s u v : State}

/-! ### Clock sources and RETRACT_N (R521–R525) -/

theorem execClockSourceLost_reports {i : Fin 6} {p q : Nat} (harmed : monArmed s i = true)
    (hpresent : bit F.CPR_CLKMON_LOST 0 i s = false) (hp : p = fld F.FLT_STAT_PENDING 0 s)
    (hq : q = fld F.FLT_FC3_PEND_PEND 0 s) : execClockSourceLost i s =
    .next (clkFurther i p q (reportAt p q false (8 + i) none 0 0 0 0 (clkSafe i (standbyWake s)))) := by
  subst hp hq
  simp only [execClockSourceLost, harmed, hpresent, Bool.not_true, Bool.or_self, Bool.false_eq_true, if_false]

/-- Sources 1 and 5 have nothing further to undo; with the last loss over, the frozen link goes on. -/
theorem execClockSourceReturned_thaws {i : Fin 6} (hlost : bit F.CPR_CLKMON_LOST 0 i s = true)
    (hi : i.val = 5 ∨ i.val = 1)
    (hu : u = raiseEvent 142 (condFalls (8 + i) (putFBit F.CPR_CLKMON_LOST 0 i false s)))
    (hlast : fld F.CPR_CLKMON_LOST 0 u = 0) :
    execClockSourceReturned i s = .next (linkThaw (putFBit F.CPR_RETRACT_CAUSE 0 1 false u)) := by
  obtain ⟨h0, h3, h4⟩ : i.val ≠ 0 ∧ i.val ≠ 3 ∧ i.val ≠ 4 := by omega
  simp only [execClockSourceReturned, hlost, ← hu, hlast, h0, h3, h4, decide_false, Bool.or_self, Bool.not_true,
    Bool.false_eq_true, if_false, if_true]

theorem execCprRetractSet_drops (hone : wrote1 0 w = true) : execCprRetractSet w s = .next (retractCause 4 s) := by
  simp [execCprRetractSet, hone]

/-- The current an arm that unloads takes up in its phase (R203). -/
def unloadCurrent (a : Nat) (s : State) : Nat := match (arm s a).phase with
  | .climb => fld F.SRV_PARK_UNLOAD_I a s
  | .park => fld F.SRV_PARK_PARK_I a s
  | _ => 0

/-- An arm leaves RETRACT by what its first STAT reports, and one that unloads takes its command up (R188, R203). -/
def retractLeft (a : Nat) (s : State) : State :=
  if mode s a = 9 then setArm a { arm s a with judge := true } s
  else if mode s a = 8 then setVcm a (sext 16 (unloadCurrent a s)) s else s

theorem execCprRetractRel_raises {c : Nat} (hc : c = fld F.CPR_RETRACT_CAUSE 0 s) (hone : wrote1 1 w = true)
    (hclock : c.testBit 1 = false) (hpower : c.testBit 2 = false) (hsafe : c.testBit 3 = false)
    (hlow : retractLow s = true) : execCprRetractRel w s =
    .next (upTo 4 retractLeft (put F.CPR_RETRACT_CAUSE 0 0 (put F.CPR_RETRACT_LOW 0 0 s))) := by
  subst hc
  simp only [execCprRetractRel, hone, hclock, hpower, hsafe, hlow, Bool.not_true, Bool.or_self, Bool.false_eq_true, if_false]
  rfl

/-! ### Arm domains (R528) -/

section
variable {a : Fin 4} (hu : u = pdWrite w s)
include hu

theorem execArmDomainOn_comesUp (hone : wrote1 a w = true) (hdown : armUp u a = false)
    (hpower : flag F.CPR_PL_LOSS 0 u = false) :
    execArmDomainOn a w s = .next (armOn a (putFBit F.CPR_PD_ARM_ON 0 a true u)) := by
  subst hu
  simp [execArmDomainOn, hone, hdown, hpower]

theorem execArmDomainOff_goesDown (hzero : wrote0 a w = true) (hunloaded : mode u a < 2)
    (hv : v = putFBit F.CPR_PD_ARM_ON 0 a false u) (hup : armUp v a = true) :
    execArmDomainOff a w s = .next (armOff a v) := by
  subst hu hv
  simp [execArmDomainOff, hzero, Nat.not_le.2 hunloaded, hup]

end

/-! ### Sleep (R530, R531) -/

theorem execStandbyRequest_stands (hone : wrote1 8 w = true) :
    execStandbyRequest w s = .next (put F.CPR_PD_STANDBY 0 1 (pdWrite w s)) := by
  simp [execStandbyRequest, hone]

theorem execStandbyEnter_sleeps (hawake : fabOff s = false) (hok : standbyOk s = true) : execStandbyEnter s =
    .next (dramSleep (put F.CPR_PD_STAT_LEVEL 0 1 (put F.CPR_PD_STAT_FAB_RET 0 1 (spmEnter 0 s)))) := by
  simp [execStandbyEnter, hawake, hok]

theorem execStandbyWake_wakes (hasleep : fabOff s = true)
    (hu : u = put F.CPR_PD_STAT_LEVEL 0 0 (put F.CPR_PD_STAT_FAB_RET 0 0 (put F.CPR_PD_STANDBY 0 0 s)))
    (hspm : spmSt u = 0) : execStandbyWake s = .next (shockStart (dramWake (spmEnter 1 u))) := by
  simp only [execStandbyWake, standbyWake, hasleep, ← hu, hspm, Bool.not_true, Bool.false_eq_true, if_false, if_true]

theorem execCprWake_wakes (hone : wrote1 10 w = true) : execCprWake w s = .next (standbyWake (pdWrite w s)) := by
  simp [execCprWake, hone]

theorem execAonSleepEnter_sleeps (hawake : s.cpr.aonSleep = false) (hperst : s.cpr.perst = true)
    (hok : flag F.CPR_PD_AON_OK 0 s = true) (hstage : s.cpr.stage ≠ 0)
    (hdue : s.cpr.perstAt + 1000000 * fld1 F.CPR_PD_PERST_MS 0 s ≤ s.time) : execAonSleepEnter s =
    .next { domainsOff s with cpr := { (domainsOff s).cpr with aonSleep := true } } := by
  simp only [execAonSleepEnter, hawake, hperst, hok, hstage, Nat.not_lt.2 hdue, decide_false, Bool.not_true, Bool.or_self,
    Bool.false_eq_true, if_false]

theorem execAonSleepExit_wakes (hasleep : s.cpr.aonSleep = true) (hu : u = put F.CPR_RST_CAUSE 0 2 s) :
    execAonSleepExit s = .next { u with cpr := { u.cpr with aonSleep := false, perst := false } } := by
  subst hu
  rw [execAonSleepExit, if_pos hasleep, aonExit]

/-! ### Power-up (R500, R532, R551) -/

theorem execAonPowerOn_resets {test : Bool} (hoff : s.cpr.supplies = false) : execAonPowerOn test s =
    .next { powerOnReset s with cpr := { (powerOnReset s).cpr with supplies := true, testMode := test } } := by
  simp only [execAonPowerOn, hoff, Bool.false_eq_true, if_false]

theorem execAonSupplyFall_resets (hon : s.cpr.supplies = true) : execAonSupplyFall s =
    .next { powerOnReset s with cpr := { (powerOnReset s).cpr with supplies := false } } := by
  simp only [execAonSupplyFall, hon, Bool.not_true, Bool.false_eq_true, if_false]

theorem execDomainsPowerUp_powers (hon : s.cpr.supplies = true) (hawake : s.cpr.aonSleep = false)
    (hstage : s.cpr.stage = 0) (hpower : flag F.CPR_PL_LOSS 0 s = false) : execDomainsPowerUp s =
    .next (upTo 4 (fun a v => if bit F.CPR_PD_ARM_ON 0 a v then armOn a v else v)
      (shockStart (spmEnter 1 { s with cpr := { s.cpr with stage := 1 } }))) := by
  simp only [execDomainsPowerUp, hon, hawake, hstage, hpower, ne_eq, not_true, decide_false, Bool.not_true, Bool.or_self,
    Bool.false_eq_true, if_false]

theorem execPllsLocked_boots (hstage : s.cpr.stage = 1) (hboots : s.cpr.testMode = false)
    (hu : u = lifeBoot { s with cpr := { s.cpr with stage := 2, lyHeld := false } }) {r : Nat × State}
    (hr : r = bootPick (bootOrder u) (put F.BLZ_STAT_STATE 0 1 u)) : execPllsLocked s =
    .next { r.2 with mgt := { r.2.mgt with
      boot := r.1, next := r.1 ≠ 0 && r.1 = ((selector u).map (·.next)).getD 0 } } := by
  subst hu hr
  rw [execPllsLocked, if_neg (by simp [hstage, hboots])]

/-! ### Resets of the cores (R535, R536) -/

theorem execWarmReset_resets (hone : wrote1 0 w = true) (hstage : s.cpr.stage = 3) :
    execWarmReset w s = .next (warmReset s) := by
  simp [execWarmReset, hone, hstage]

section
variable {r : Nat × State} (hr : r = bootPick (reloadOrder s) s)
include hr

theorem execWarmResetReloadDone_releases (hwarm : s.cpr.warm = true) (hwell : flag F.FLT_STAT_SAFE 0 s = false)
    (hpower : flag F.CPR_PL_LOSS 0 s = false) (hu : u = segsLoad false (.nor (slotAddr r.1)) r.2) :
    execWarmResetReloadDone s = .next (if r.1 = 0 then r.2
      else { u with cpr := { u.cpr with cpHeld := false, warm := false } }) := by
  simp only [execWarmResetReloadDone, hwarm, hwell, hpower, ← hr, ← hu, Bool.not_true, Bool.or_self, Bool.false_eq_true,
    if_false]

theorem execLyoloBootDone_starts (hheld : s.cpr.lyHeld = true) (hstage : s.cpr.stage = 3) (hwell : lyFault s = false)
    (hpower : flag F.CPR_PL_LOSS 0 s = false)
    (hu : u = put F.MGT_WDT_EN 0 1 (segsLoad true (.nor (slotAddr r.1)) r.2)) :
    execLyoloBootDone s = .next (if r.1 = 0 then r.2
      else { u with cpr := { u.cpr with lyHeld := false }, mgt := { u.mgt with wdt := u.time } }) := by
  simp only [execLyoloBootDone, hheld, hstage, hwell, hpower, ← hr, ← hu, ne_eq, not_true, decide_false, Bool.not_true,
    Bool.or_self, Bool.false_eq_true, if_false]

end

/-- A control core's write holds the Lyolo core. -/
theorem execLyoloReset_holds {c : Fin 4} (hone : wrote1 1 w = true) (hstage : s.cpr.stage = 3) :
    execLyoloReset (.cp c) w s = .next { s with cpr := { s.cpr with lyHeld := true } } := by
  simp [execLyoloReset, hone, hstage, lyoloReset]

end

/-- Settles O58: one lemma per clock event, request, sleep level, power step and reset, for the case that the premises
name. -/
theorem clocksPowerAndResets : Obligations.ClocksPowerAndResets :=
  ⟨fun _ _ harmed hpresent => execClockSourceLost_reports harmed hpresent rfl rfl,
    fun _ _ hlost hi hlast => execClockSourceReturned_thaws hlost hi rfl hlast,
    fun _ _ hone => execCprRetractSet_drops hone,
    fun _ _ hone hclock hpower hsafe hlow => execCprRetractRel_raises rfl hone hclock hpower hsafe hlow,
    fun _ _ _ hone hdown hpower => execArmDomainOn_comesUp rfl hone hdown hpower,
    fun _ _ _ hzero hunloaded hup => execArmDomainOff_goesDown rfl hzero hunloaded rfl hup,
    fun _ _ hone => execStandbyRequest_stands hone,
    fun _ hawake hok => execStandbyEnter_sleeps hawake hok,
    fun _ hasleep _ hspm => execStandbyWake_wakes hasleep rfl hspm,
    fun _ _ hone => execCprWake_wakes hone,
    fun _ hawake hperst hok hstage hdue => execAonSleepEnter_sleeps hawake hperst hok hstage hdue,
    fun _ hasleep => execAonSleepExit_wakes hasleep rfl,
    fun _ _ hoff => execAonPowerOn_resets hoff,
    fun _ hon => execAonSupplyFall_resets hon,
    fun _ hon hawake hstage hpower => execDomainsPowerUp_powers hon hawake hstage hpower,
    fun _ hstage hboots => execPllsLocked_boots hstage hboots rfl rfl,
    fun _ _ hone hstage => execWarmReset_resets hone hstage,
    fun _ hwarm hwell hpower => execWarmResetReloadDone_releases rfl hwarm hwell hpower rfl,
    fun _ _ _ hone hstage => execLyoloReset_holds hone hstage,
    fun _ hheld hstage hwell hpower => execLyoloBootDone_starts rfl hheld hstage hwell hpower rfl⟩

end Sys2Proof.Proofs
end
